-- ==== Sys2Proof/Word.lean ====
section
/-! DEFINITION. The bit-vector types of the model.

Registers are 32 bits wide (R673), memories hold bytes, and Ferlith instruction words are 64 bits (R87). -/

namespace Sys2Proof

/-- One byte of any memory. -/
abbrev Byte := BitVec 8

/-- One 32-bit register of a register page, or one thread register. -/
abbrev Word := BitVec 32

/-- One 64-bit Ferlith instruction word or register pair. -/
abbrev DWord := BitVec 64

end Sys2Proof
end

