-- ==== Sys2Proof/Syntax.lean ====
section
/-! DEFINITION. The commands of the block: one constructor for each row of spec/opcode_table.json, in the table's order,
each with the row's operands. `fn` is the PCIe function an access comes from (R220), `v` the value written, `g` and `l` the
group (its number in the model's group table) and the laneset that execute an instruction, `job` a number of the job table. -/

namespace Sys2Proof

/-- One command. Each constructor's docstring gives the row's rule. -/
inductive Instr where
  /-- REGISTER_WRITE (R681). -/
  | registerWrite (fn : Nat) (addr : Nat) (width : Nat) (v : Nat)
  /-- RC_READ (R6). -/
  | rcRead (fn : Nat) (addr : Nat) (width : Nat)
  /-- IRQ_SET (R678). -/
  | irqSet (fn : Nat) (page : Nat) (v : Nat)
  /-- FIL_PERF_SEL_WRITE (R86). -/
  | filPerfSelWrite (fn : Nat) (file : Nat) (v : Nat)
  /-- FIL_PERF_LO_READ (R86). -/
  | filPerfLoRead (fn : Nat) (file : Nat)
  /-- BAR2_ACCESS (R80). -/
  | bar2Access (fn : Nat) (off : Nat) (wr : Option Nat)
  /-- BAR6_ACCESS (R672). -/
  | bar6Access (fn : Nat) (off : Nat) (len : Nat) (wr : Option (List Byte))
  /-- FILE_ENABLE (R67). -/
  | fileEnable (fn : Nat) (file : Nat) (on : Bool)
  /-- FILE_QUIESCE (R67). -/
  | fileQuiesce (fn : Nat) (file : Nat)
  /-- FILE_RESET (R69). -/
  | fileReset (fn : Nat) (file : Nat)
  /-- FILE_START_DONE (R67). -/
  | fileStartDone (file : Nat)
  /-- FILE_START_TIMEOUT (R67). -/
  | fileStartTimeout (file : Nat)
  /-- FILE_STOP_DONE (R67). -/
  | fileStopDone (file : Nat)
  /-- SQUARE_SELFTEST_DONE (R579). -/
  | squareSelftestDone (sq : Nat) (pass : Bool)
  /-- SQUARE_FAULT (R71). -/
  | squareFault (sq : Nat)
  /-- SQUARE_STALL_WATCHDOG (R71). -/
  | squareStallWatchdog (sq : Nat)
  /-- GROUP_PLACE (R56). -/
  | groupPlace (job : Nat)
  /-- PREEMPTION (R60). -/
  | preemption (job : Nat)
  /-- PREEMPTION_COMPLETE (R60). -/
  | preemptionComplete (sq : Nat)
  /-- GROUP_RESUME (R60). -/
  | groupResume (sq : Nat)
  /-- GROUP_MOVE (R59). -/
  | groupMove (g : Nat)
  /-- FLIT_RETRY (R65). -/
  | flitRetry (file : Nat)
  /-- LINK_FAILED (R65). -/
  | linkFailed (file : Nat) (link : Nat) (east : Bool)
  /-- NOP (R102). -/
  | nop (g : Nat) (l : Nat)
  /-- MOV (R102). -/
  | mov (g : Nat) (l : Nat)
  /-- MOVI (R102). -/
  | movi (g : Nat) (l : Nat)
  /-- SEL (R102). -/
  | sel (g : Nat) (l : Nat)
  /-- IADD (R102). -/
  | iadd (g : Nat) (l : Nat)
  /-- IADDI (R102). -/
  | iaddi (g : Nat) (l : Nat)
  /-- ISUB (R102). -/
  | isub (g : Nat) (l : Nat)
  /-- IMUL (R102). -/
  | imul (g : Nat) (l : Nat)
  /-- IMULH (R102). -/
  | imulh (g : Nat) (l : Nat)
  /-- IMAD (R102). -/
  | imad (g : Nat) (l : Nat)
  /-- IDIV (R104). -/
  | idiv (g : Nat) (l : Nat)
  /-- IREM (R104). -/
  | irem (g : Nat) (l : Nat)
  /-- IMIN (R102). -/
  | imin (g : Nat) (l : Nat)
  /-- IMAX (R102). -/
  | imax (g : Nat) (l : Nat)
  /-- IABS (R102). -/
  | iabs (g : Nat) (l : Nat)
  /-- INEG (R102). -/
  | ineg (g : Nat) (l : Nat)
  /-- AND (R102). -/
  | andB (g : Nat) (l : Nat)
  /-- OR (R102). -/
  | orB (g : Nat) (l : Nat)
  /-- XOR (R102). -/
  | xorB (g : Nat) (l : Nat)
  /-- NOT (R102). -/
  | notB (g : Nat) (l : Nat)
  /-- ANDI (R102). -/
  | andi (g : Nat) (l : Nat)
  /-- ORI (R102). -/
  | ori (g : Nat) (l : Nat)
  /-- XORI (R102). -/
  | xori (g : Nat) (l : Nat)
  /-- SHL (R104). -/
  | shl (g : Nat) (l : Nat)
  /-- SHR (R104). -/
  | shr (g : Nat) (l : Nat)
  /-- SAR (R104). -/
  | sar (g : Nat) (l : Nat)
  /-- SHLI (R102). -/
  | shli (g : Nat) (l : Nat)
  /-- SHRI (R102). -/
  | shri (g : Nat) (l : Nat)
  /-- SARI (R102). -/
  | sari (g : Nat) (l : Nat)
  /-- POPC (R102). -/
  | popc (g : Nat) (l : Nat)
  /-- CLZ (R102). -/
  | clz (g : Nat) (l : Nat)
  /-- BREV (R102). -/
  | brev (g : Nat) (l : Nat)
  /-- BFE (R102). -/
  | bfe (g : Nat) (l : Nat)
  /-- BFI (R102). -/
  | bfi (g : Nat) (l : Nat)
  /-- ISETP (R103). -/
  | isetp (g : Nat) (l : Nat)
  /-- PLOP (R102). -/
  | plop (g : Nat) (l : Nat)
  /-- PSAVE (R102). -/
  | psave (g : Nat) (l : Nat)
  /-- PLOAD (R102). -/
  | pload (g : Nat) (l : Nat)
  /-- SHFL (R104). -/
  | shfl (g : Nat) (l : Nat)
  /-- SHFLX (R102). -/
  | shflx (g : Nat) (l : Nat)
  /-- VOTEANY (R102). -/
  | voteany (g : Nat) (l : Nat)
  /-- VOTEALL (R102). -/
  | voteall (g : Nat) (l : Nat)
  /-- BALLOT (R102). -/
  | ballot (g : Nat) (l : Nat)
  /-- REDUX (R102). -/
  | redux (g : Nat) (l : Nat)
  /-- SREG (R99). -/
  | sreg (g : Nat) (l : Nat)
  /-- TIME (R102). -/
  | timeR (g : Nat) (l : Nat)
  /-- CLK (R102). -/
  | clk (g : Nat) (l : Nat)
  /-- T2U (R98). -/
  | t2u (g : Nat) (l : Nat)
  /-- FADD (R150). -/
  | fadd (g : Nat) (l : Nat)
  /-- FSUB (R150). -/
  | fsub (g : Nat) (l : Nat)
  /-- FMUL (R150). -/
  | fmul (g : Nat) (l : Nat)
  /-- FFMA (R150). -/
  | ffma (g : Nat) (l : Nat)
  /-- FMIN (R150). -/
  | fmin (g : Nat) (l : Nat)
  /-- FMAX (R150). -/
  | fmax (g : Nat) (l : Nat)
  /-- FABS (R150). -/
  | fabs (g : Nat) (l : Nat)
  /-- FNEG (R150). -/
  | fneg (g : Nat) (l : Nat)
  /-- FSETP (R103). -/
  | fsetp (g : Nat) (l : Nat)
  /-- FADDI (R102). -/
  | faddi (g : Nat) (l : Nat)
  /-- FMULI (R102). -/
  | fmuli (g : Nat) (l : Nat)
  /-- RCP (R151). -/
  | rcp (g : Nat) (l : Nat)
  /-- RSQ (R151). -/
  | rsq (g : Nat) (l : Nat)
  /-- SQRT (R150). -/
  | sqrt (g : Nat) (l : Nat)
  /-- EXP2 (R151). -/
  | exp2 (g : Nat) (l : Nat)
  /-- LOG2 (R151). -/
  | log2 (g : Nat) (l : Nat)
  /-- SIN (R151). -/
  | sin (g : Nat) (l : Nat)
  /-- COS (R151). -/
  | cos (g : Nat) (l : Nat)
  /-- TANH (R151). -/
  | tanh (g : Nat) (l : Nat)
  /-- FDIV (R150). -/
  | fdiv (g : Nat) (l : Nat)
  /-- FSCL (R102). -/
  | fscl (g : Nat) (l : Nat)
  /-- CVT (R152). -/
  | cvt (g : Nat) (l : Nat)
  /-- CVTPK (R137). -/
  | cvtpk (g : Nat) (l : Nat)
  /-- CVTUP (R137). -/
  | cvtup (g : Nat) (l : Nat)
  /-- LDS (R119). -/
  | lds (g : Nat) (l : Nat)
  /-- STS (R119). -/
  | sts (g : Nat) (l : Nat)
  /-- LDG (R121). -/
  | ldg (g : Nat) (l : Nat)
  /-- STG (R121). -/
  | stg (g : Nat) (l : Nat)
  /-- ATS (R123). -/
  | ats (g : Nat) (l : Nat)
  /-- ATG (R123). -/
  | atg (g : Nat) (l : Nat)
  /-- MMA (R111). -/
  | mma (g : Nat) (l : Nat)
  /-- MMASP (R111). -/
  | mmasp (g : Nat) (l : Nat)
  /-- MLD (R112). -/
  | mld (g : Nat) (l : Nat)
  /-- DRN (R113). -/
  | drn (g : Nat) (l : Nat)
  /-- TMV (R115). -/
  | tmv (g : Nat) (l : Nat)
  /-- TWAIT (R116). -/
  | twait (g : Nat) (l : Nat)
  /-- TTEST (R116). -/
  | ttest (g : Nat) (l : Nat)
  /-- EWAIT (R117). -/
  | ewait (g : Nat) (l : Nat)
  /-- BAR (R125). -/
  | bar (g : Nat) (l : Nat)
  /-- FENCE (R122). -/
  | fence (g : Nat) (l : Nat)
  /-- SEMW (R126). -/
  | semw (g : Nat) (l : Nat)
  /-- SEMW_TIMEOUT (R126). -/
  | semwTimeout (g : Nat) (l : Nat)
  /-- SEMP (R126). -/
  | semp (g : Nat) (l : Nat)
  /-- BNDY (R127). -/
  | bndy (g : Nat) (l : Nat)
  /-- BRA (R106). -/
  | bra (g : Nat) (l : Nat)
  /-- BRX (R108). -/
  | brx (g : Nat) (l : Nat)
  /-- CALL (R107). -/
  | callB (g : Nat) (l : Nat)
  /-- RET (R107). -/
  | retB (g : Nat) (l : Nat)
  /-- EXIT (R109). -/
  | exitL (g : Nat) (l : Nat)
  /-- TRAP (R129). -/
  | trap (g : Nat) (l : Nat)
  /-- MATRIX_STEP (R145). -/
  | matrixStep (sq : Nat)
  /-- GATE_DRAIN (R48). -/
  | gateDrain (sq : Nat)
  /-- MOVER_FETCH (R168). -/
  | moverFetch (sq : Nat) (mv : Nat)
  /-- MOVER_STORE (R167). -/
  | moverStore (sq : Nat) (mv : Nat)
  /-- MOVER_BCAST_STORE (R169). -/
  | moverBcastStore (sq : Nat) (mv : Nat)
  /-- MOVER_PREFETCH (R167). -/
  | moverPrefetch (sq : Nat) (mv : Nat)
  /-- MOVER_UNPIN (R181). -/
  | moverUnpin (sq : Nat) (mv : Nat)
  /-- MOVER_INVAL (R181). -/
  | moverInval (sq : Nat) (mv : Nat)
  /-- TILE_ARRIVAL (R170). -/
  | tileArrival (sq : Nat) (mv : Nat) (tile : Nat)
  /-- TILE_DEADLINE_EXPIRY (R170). -/
  | tileDeadlineExpiry (sq : Nat) (mv : Nat)
  /-- MOVER_DESCRIPTOR_COMPLETE (R171). -/
  | moverDescriptorComplete (sq : Nat) (mv : Nat)
  /-- RSV_ALLOC (R190). -/
  | rsvAlloc (fn : Nat) (v : Nat)
  /-- RSV_FREE (R182). -/
  | rsvFree (fn : Nat) (v : Nat)
  /-- RSV_UNPIN_ALL (R190). -/
  | rsvUnpinAll (fn : Nat) (v : Nat)
  /-- RSV_INVAL_ALL (R190). -/
  | rsvInvalAll (fn : Nat) (v : Nat)
  /-- RSV_FBV_CTL_WRITE (R191). -/
  | rsvFbvCtlWrite (fn : Nat) (v : Nat)
  /-- MMU_INVAL (R165). -/
  | mmuInval (fn : Nat) (v : Nat)
  /-- MMU_INVAL_COMPLETE (R165). -/
  | mmuInvalComplete (fn : Nat)
  /-- MEM_READ (R203). -/
  | memRead (pa : Nat) (errs : List (Nat × Nat))
  /-- MEM_WRITE (R204). -/
  | memWrite (pa : Nat) (data : List Byte) (errs : List (Nat × Nat))
  /-- PATROL_SCRUB (R207). -/
  | patrolScrub (chan : Nat) (errs : List (Nat × Nat))
  /-- DEMAND_WRITEBACK (R208). -/
  | demandWriteback (unit : Nat)
  /-- AUTO_PIN_RETIRE (R209). -/
  | autoPinRetire (chan : Nat) (pin : Nat)
  /-- MEM_RETIRE (R217). -/
  | memRetire (fn : Nat) (v : Nat)
  /-- MEM_UNRETIRE (R217). -/
  | memUnretire (fn : Nat) (v : Nat)
  /-- MEM_RETRAIN (R210). -/
  | memRetrain (fn : Nat) (v : Nat)
  /-- MEM_TRACKING (R211). -/
  | memTracking (chan : Nat) (temp : Int)
  /-- BANK_REFRESH (R211). -/
  | bankRefresh (chan : Nat) (bank : Nat)
  /-- MEM_TEMP_HOT (R211). -/
  | memTempHot (chan : Nat) (temp : Int)
  /-- MEM_SELF_REFRESH_ENTRY (R213). -/
  | memSelfRefreshEntry
  /-- MEM_READY (R213). -/
  | memReady
  /-- SQ_DOORBELL (R233). -/
  | sqDoorbell (fn : Nat) (q : Nat) (v : Nat)
  /-- CQ_HEAD_DOORBELL (R232). -/
  | cqHeadDoorbell (fn : Nat) (q : Nat) (v : Nat)
  /-- ENTRY_TAKE (R231). -/
  | entryTake (fn : Nat) (q : Nat)
  /-- SQ_LAUNCH (R226). -/
  | sqLaunch (fn : Nat) (q : Nat)
  /-- SQ_NOP (R227). -/
  | sqNop (fn : Nat) (q : Nat)
  /-- SQ_CANCEL (R244). -/
  | sqCancel (fn : Nat) (q : Nat)
  /-- CQ_IRQ_TIMER (R236). -/
  | cqIrqTimer (fn : Nat) (q : Nat)
  /-- JOB_DEADLINE_EXPIRY (R243). -/
  | jobDeadlineExpiry (job : Nat)
  /-- JOB_RUNTIME_EXPIRY (R243). -/
  | jobRuntimeExpiry (job : Nat)
  /-- DSP_QCMD_CREATE (R224). -/
  | dspQcmdCreate (fn : Nat) (v : Nat)
  /-- DSP_QCMD_DELETE (R249). -/
  | dspQcmdDelete (fn : Nat) (v : Nat)
  /-- DSP_QCMD_RESET (R249). -/
  | dspQcmdReset (fn : Nat) (v : Nat)
  /-- QUEUE_CMD_DONE (R249). -/
  | queueCmdDone (fn : Nat)
  /-- DSP_QSEL_WRITE (R252). -/
  | dspQselWrite (fn : Nat) (v : Nat)
  /-- DSP_CANCEL (R244). -/
  | dspCancel (fn : Nat) (v : Nat)
  /-- DSP_STAT_LO_READ (R253). -/
  | dspStatLoRead (fn : Nat)
  /-- DISPATCHER_ENABLE (R255). -/
  | dispatcherEnable (fn : Nat) (on : Bool)
  /-- DISPATCHER_QUIESCE (R255). -/
  | dispatcherQuiesce (fn : Nat)
  /-- DISPATCHER_RESET (R255). -/
  | dispatcherReset (fn : Nat)
  /-- DISPATCHER_START_DONE (R255). -/
  | dispatcherStartDone
  /-- DISPATCHER_STOP_DONE (R255). -/
  | dispatcherStopDone
  /-- DISPATCHER_CORE_FAILOVER (R589). -/
  | dispatcherCoreFailover (core : Nat)
  /-- FUNCTION_LEVEL_RESET (R221). -/
  | functionLevelReset (fn : Nat)
  /-- VF_ENABLE_CLEAR (R221). -/
  | vfEnableClear (port : Nat)
  /-- PCIE_FUNDAMENTAL_RESET (R571). -/
  | pcieFundamentalReset (port : Nat)
  /-- SEQ_CALL_TAKE (R275). -/
  | seqCallTake (job : Nat)
  /-- SEQ_CALL_START (R272). -/
  | seqCallStart (job : Nat)
  /-- STREAM_OPEN (R283). -/
  | streamOpen (fn : Nat) (v : Nat)
  /-- STREAM_CLOSE (R283). -/
  | streamClose (fn : Nat) (v : Nat)
  /-- STREAM_PARK (R283). -/
  | streamPark (fn : Nat) (v : Nat)
  /-- STREAM_UNPARK (R283). -/
  | streamUnpark (fn : Nat) (v : Nat)
  /-- STREAM_SRESET (R283). -/
  | streamSreset (fn : Nat) (v : Nat)
  /-- STREAM_SSAVE (R284). -/
  | streamSsave (fn : Nat) (v : Nat)
  /-- STREAM_SLOAD (R284). -/
  | streamSload (fn : Nat) (v : Nat)
  /-- STREAM_IDLE_S_EXPIRY (R279). -/
  | streamIdleSExpiry (fn : Nat) (h : Nat)
  /-- STREAM_IDLE_R_EXPIRY (R279). -/
  | streamIdleRExpiry (fn : Nat) (h : Nat)
  /-- STREAM_SWAP_OUT_DONE (R283). -/
  | streamSwapOutDone (fn : Nat) (h : Nat)
  /-- STREAM_SWAP_IN_DONE (R283). -/
  | streamSwapInDone (fn : Nat) (h : Nat)
  /-- ATT_ATTEND (R298). -/
  | attAttend (job : Nat)
  /-- ATT_APPEND (R302). -/
  | attAppend (job : Nat)
  /-- PAGE_RING_CONSUMED (R304). -/
  | pageRingConsumed (g : Nat) (count : Nat)
  /-- EDGE_TAIL_DOORBELL (R334). -/
  | edgeTailDoorbell (fn : Nat) (v : Nat)
  /-- EDGE_CONV (R332). -/
  | edgeConv (fn : Nat)
  /-- EDGE_CONVT (R332). -/
  | edgeConvt (fn : Nat)
  /-- EDGE_SEGMENT_END (R333). -/
  | edgeSegmentEnd (ctx : Nat)
  /-- EDGE_DESCRIPTOR_COMPLETE (R336). -/
  | edgeDescriptorComplete (ctx : Nat)
  /-- EDGE_RESIDUE_MISMATCH (R338). -/
  | edgeResidueMismatch (ctx : Nat)
  /-- EDGE_THIRD_MISMATCH (R337). -/
  | edgeThirdMismatch
  /-- EDGE_ENABLE (R337). -/
  | edgeEnable (fn : Nat) (on : Bool)
  /-- EDGE_QUIESCE (R337). -/
  | edgeQuiesce (fn : Nat)
  /-- EDGE_RESET (R337). -/
  | edgeReset (fn : Nat)
  /-- EDGE_START_DONE (R337). -/
  | edgeStartDone
  /-- EDGE_STOP_DONE (R337). -/
  | edgeStopDone
  /-- CSI_FRAME_START (R347). -/
  | csiFrameStart (vc : Nat) (num : Nat)
  /-- CSI_LINE (R346). -/
  | csiLine (vc : Nat) (good : Bool) (data : List Nat)
  /-- CSI_FRAME_END (R346). -/
  | csiFrameEnd (vc : Nat) (num : Nat)
  /-- CSI_PB_ARM (R348). -/
  | csiPbArm (fn : Nat) (v : Nat)
  /-- BQ_CREATE (R360). -/
  | bqCreate (fn : Nat) (v : Nat)
  /-- BQ_DELETE (R377). -/
  | bqDelete (fn : Nat) (v : Nat)
  /-- SESS_OPEN (R351). -/
  | sessOpen (fn : Nat) (v : Nat)
  /-- SESS_CLOSE (R377). -/
  | sessClose (fn : Nat) (v : Nat)
  /-- SESS_RESET (R377). -/
  | sessReset (fn : Nat) (v : Nat)
  /-- SESS_TAIL_DOORBELL (R352). -/
  | sessTailDoorbell (fn : Nat) (v : Nat)
  /-- AUG_TAIL_DOORBELL (R361). -/
  | augTailDoorbell (fn : Nat) (v : Nat)
  /-- DECODE_PICTURE (R352). -/
  | decodePicture (sess : Nat)
  /-- DECODE_PICTURE_DONE (R353). -/
  | decodePictureDone (sess : Nat) (concealed : Nat)
  /-- BATCH_GROUP_WINDOW_EXPIRY (R368). -/
  | batchGroupWindowExpiry (bq : Nat)
  /-- BATCH_COMPLETE (R369). -/
  | batchComplete (bq : Nat)
  /-- BQ_CONSUMED_POLL (R364). -/
  | bqConsumedPoll (bq : Nat)
  /-- INPUT_ENABLE (R370). -/
  | inputEnable (fn : Nat) (on : Bool)
  /-- INPUT_QUIESCE (R370). -/
  | inputQuiesce (fn : Nat)
  /-- INPUT_START_DONE (R370). -/
  | inputStartDone
  /-- INPUT_STOP_DONE (R370). -/
  | inputStopDone
  /-- FUS_TAIL_WRITE (R381). -/
  | fusTailWrite (fn : Nat) (src : Nat) (v : Nat)
  /-- FUSION_TICK (R387). -/
  | fusionTick
  /-- FUSION_TICK_SKIPPED (R388). -/
  | fusionTickSkipped
  /-- OCCUPANCY_PASS_DONE (R405). -/
  | occupancyPassDone
  /-- FUSION_SRC_PB_LOAD (R384). -/
  | fusionSrcPbLoad (fn : Nat) (v : Nat)
  /-- FUSION_PB_LOAD (R396). -/
  | fusionPbLoad (fn : Nat) (v : Nat)
  /-- FUSION_RESOLVE (R399). -/
  | fusionResolve (fn : Nat) (v : Nat)
  /-- FUSION_DROPTRK (R406). -/
  | fusionDroptrk (fn : Nat) (v : Nat)
  /-- FUSION_REBASE (R406). -/
  | fusionRebase (fn : Nat) (v : Nat)
  /-- FUSION_CALBATCH (R402). -/
  | fusionCalbatch (fn : Nat) (v : Nat)
  /-- FUSION_CALREAD (R403). -/
  | fusionCalread (fn : Nat) (v : Nat)
  /-- FUSION_CALWRITE (R403). -/
  | fusionCalwrite (fn : Nat) (v : Nat)
  /-- FUSION_ENABLE (R408). -/
  | fusionEnable (fn : Nat) (on : Bool)
  /-- FUSION_QUIESCE (R408). -/
  | fusionQuiesce (fn : Nat)
  /-- FUSION_RESET (R408). -/
  | fusionReset (fn : Nat)
  /-- FUSION_START_DONE (R408). -/
  | fusionStartDone
  /-- FUSION_STOP_DONE (R408). -/
  | fusionStopDone
  /-- FUSION_RESIDUE_MISMATCH (R409). -/
  | fusionResidueMismatch
  /-- FUSION_THIRD_MISMATCH (R408). -/
  | fusionThirdMismatch
  /-- KNIGHT_TAIL_DOORBELL (R427). -/
  | knightTailDoorbell (fn : Nat) (v : Nat)
  /-- KNIGHT_PLAN (R429). -/
  | knightPlan (fn : Nat)
  /-- KNIGHT_CHECK (R438). -/
  | knightCheck (fn : Nat)
  /-- KNIGHT_BATCH (R431). -/
  | knightBatch (ctx : Nat)
  /-- KNIGHT_WATCH_RECHECK (R440). -/
  | knightWatchRecheck (slot : Nat)
  /-- KNIGHT_WATCH_EXPIRE (R440). -/
  | knightWatchExpire (slot : Nat)
  /-- KNIGHT_WATCH_END_CMD (R446). -/
  | knightWatchEndCmd (fn : Nat) (v : Nat)
  /-- CLEARANCE_UPDATE_DONE (R419). -/
  | clearanceUpdateDone
  /-- MAPCFG (R441). -/
  | mapcfg (fn : Nat) (v : Nat)
  /-- MAPLOAD (R441). -/
  | mapload (fn : Nat) (v : Nat)
  /-- MAPSAVE (R441). -/
  | mapsave (fn : Nat) (v : Nat)
  /-- MAPCLEAR (R441). -/
  | mapclear (fn : Nat) (v : Nat)
  /-- KNT_UNKOBS_WRITE (R445). -/
  | kntUnkobsWrite (fn : Nat) (v : Nat)
  /-- KNIGHT_ENABLE (R442). -/
  | knightEnable (fn : Nat) (on : Bool)
  /-- KNIGHT_QUIESCE (R442). -/
  | knightQuiesce (fn : Nat)
  /-- KNIGHT_RESET (R442). -/
  | knightReset (fn : Nat)
  /-- KNIGHT_START_DONE (R442). -/
  | knightStartDone
  /-- KNIGHT_STOP_DONE (R442). -/
  | knightStopDone
  /-- KNIGHT_RESIDUE_MISMATCH (R443). -/
  | knightResidueMismatch (ctx : Nat)
  /-- KNIGHT_THIRD_MISMATCH (R442). -/
  | knightThirdMismatch
  /-- SOLVER_TAIL_DOORBELL (R465). -/
  | solverTailDoorbell (fn : Nat) (v : Nat)
  /-- SOLVER_SOLVE (R466). -/
  | solverSolve (fn : Nat)
  /-- SOLVER_REPLAY (R469). -/
  | solverReplay (fn : Nat)
  /-- SOLVER_PANEL (R465). -/
  | solverPanel (ctx : Nat)
  /-- SOLVER_BUDGET_EXPIRY (R461). -/
  | solverBudgetExpiry (ctx : Nat)
  /-- SOLVER_PROBLEM_COMPLETE (R463). -/
  | solverProblemComplete (ctx : Nat)
  /-- SOLVER_ENABLE (R470). -/
  | solverEnable (fn : Nat) (on : Bool)
  /-- SOLVER_QUIESCE (R470). -/
  | solverQuiesce (fn : Nat)
  /-- SOLVER_RESET (R470). -/
  | solverReset (fn : Nat)
  /-- SOLVER_START_DONE (R470). -/
  | solverStartDone
  /-- SOLVER_STOP_DONE (R470). -/
  | solverStopDone
  /-- SOLVER_RESIDUE_MISMATCH (R471). -/
  | solverResidueMismatch (ctx : Nat)
  /-- SOLVER_THIRD_MISMATCH (R470). -/
  | solverThirdMismatch
  /-- TEMPO_SAMPLE_INSTANT (R477). -/
  | tempoSampleInstant (loop : Nat)
  /-- TEMPO_COMPUTE (R478). -/
  | tempoCompute (loop : Nat)
  /-- TEMPO_RTT_EXPIRY (R479). -/
  | tempoRttExpiry (loop : Nat)
  /-- TEMPO_OVERRUN (R481). -/
  | tempoOverrun (loop : Nat)
  /-- TEMPO_MISSMAX (R479). -/
  | tempoMissmax (loop : Nat)
  /-- TEMPO_MBX_STALE (R486). -/
  | tempoMbxStale (loop : Nat)
  /-- TEMPO_MAILBOX_STORE (R485). -/
  | tempoMailboxStore (fn : Nat) (off : Nat) (data : List Byte)
  /-- TEMPO_MAILBOX_COMMIT (R485). -/
  | tempoMailboxCommit (fn : Nat) (v : Nat)
  /-- TEMPO_LOAD (R489). -/
  | tempoLoad (fn : Nat) (v : Nat)
  /-- TEMPO_START (R490). -/
  | tempoStart (fn : Nat) (v : Nat)
  /-- TEMPO_STOP (R490). -/
  | tempoStop (fn : Nat) (v : Nat)
  /-- TEMPO_SELECT_PRIMARY (R490). -/
  | tempoSelectPrimary (fn : Nat) (v : Nat)
  /-- TEMPO_SELECT_SAFE (R491). -/
  | tempoSelectSafe (fn : Nat) (v : Nat)
  /-- TEMPO_INJECT (R493). -/
  | tempoInject (fn : Nat) (v : Nat)
  /-- TEMPO_INJSTOP (R494). -/
  | tempoInjstop (fn : Nat) (v : Nat)
  /-- TEMPO_INJECTION_END (R494). -/
  | tempoInjectionEnd (loop : Nat)
  /-- TEMPO_CAPSTART (R495). -/
  | tempoCapstart (fn : Nat) (v : Nat)
  /-- TEMPO_CAPSTOP (R495). -/
  | tempoCapstop (fn : Nat) (v : Nat)
  /-- TEMPO_UNLOAD (R490). -/
  | tempoUnload (fn : Nat) (v : Nat)
  /-- TEMPO_CHECKER_MISMATCH (R496). -/
  | tempoCheckerMismatch (loop : Nat) (again : Bool)
  /-- TEMPO_THIRD_MISMATCH (R498). -/
  | tempoThirdMismatch
  /-- TEMPO_ENABLE (R498). -/
  | tempoEnable (fn : Nat) (on : Bool)
  /-- TEMPO_QUIESCE (R498). -/
  | tempoQuiesce (fn : Nat)
  /-- TEMPO_RESET (R498). -/
  | tempoReset (fn : Nat)
  /-- TEMPO_START_DONE (R498). -/
  | tempoStartDone
  /-- TEMPO_STOP_DONE (R498). -/
  | tempoStopDone
  /-- RING_CYCLIC_LAUNCH (R514). -/
  | ringCyclicLaunch
  /-- RING_COPY_RETURN (R515). -/
  | ringCopyReturn (port : Nat) (good : Bool) (frame : List Byte)
  /-- RING_MERGE_DEADLINE (R515). -/
  | ringMergeDeadline
  /-- RING_NODE_FRAME (R510). -/
  | ringNodeFrame (inPort : Nat) (good : Bool) (frame : List Byte)
  /-- RING_LINK_DOWN (R509). -/
  | ringLinkDown (port : Nat)
  /-- RING_LINK_UP_SETTLED (R509). -/
  | ringLinkUpSettled (port : Nat)
  /-- RING_MODE_WRITE (R504). -/
  | ringModeWrite (fn : Nat) (v : Nat)
  /-- RING_LOAD (R513). -/
  | ringLoad (fn : Nat) (v : Nat)
  /-- RING_ACYC (R518). -/
  | ringAcyc (fn : Nat) (v : Nat)
  /-- RING_ACYC_RETURN (R518). -/
  | ringAcycReturn (ret : Option (List Byte))
  /-- RING_WAKE_FRAME (R520). -/
  | ringWakeFrame (inPort : Nat) (frame : List Byte)
  /-- RING_ENABLE (R534). -/
  | ringEnable (fn : Nat) (on : Bool)
  /-- RING_QUIESCE (R534). -/
  | ringQuiesce (fn : Nat)
  /-- RING_START_DONE (R534). -/
  | ringStartDone
  /-- TIMEBASE_TICK (R521). -/
  | timebaseTick
  /-- TMB_TIME_LO_READ (R521). -/
  | tmbTimeLoRead (fn : Nat)
  /-- TIMEBASE_STEP (R522). -/
  | timebaseStep (fn : Nat) (v : Nat)
  /-- TIMEBASE_OFFSET (R523). -/
  | timebaseOffset (src : Nat) (ofs : Int)
  /-- TIMEBASE_SOURCE_QUALIFIED (R524). -/
  | timebaseSourceQualified (src : Nat)
  /-- TIMEBASE_SOURCE_LOST (R524). -/
  | timebaseSourceLost
  /-- TRIGGER_FIRE (R527). -/
  | triggerFire (trg : Nat)
  /-- CAPTURE_EDGE (R528). -/
  | captureEdge (cap : Nat) (rise : Bool)
  /-- TMB_CAP_LO_READ (R528). -/
  | tmbCapLoRead (fn : Nat) (cap : Nat)
  /-- TIMEBASE_ALARM (R533). -/
  | timebaseAlarm
  /-- ALARM_ARM (R533). -/
  | alarmArm (fn : Nat) (v : Nat)
  /-- ETH_PB_LOAD (R531). -/
  | ethPbLoad (fn : Nat) (port : Nat) (v : Nat)
  /-- ETH_TX_DOORBELL (R530). -/
  | ethTxDoorbell (fn : Nat) (port : Nat) (v : Nat)
  /-- ETH_RX_DOORBELL (R530). -/
  | ethRxDoorbell (fn : Nat) (port : Nat) (v : Nat)
  /-- ETH_TX_COMPLETE (R532). -/
  | ethTxComplete (port : Nat)
  /-- ETH_FRAME_RX (R532). -/
  | ethFrameRx (port : Nat) (frame : List Byte) (fcsOk : Bool)
  /-- ETH_MAGIC_PACKET (R530). -/
  | ethMagicPacket (port : Nat) (frame : List Byte)
  /-- POWER_GRANT (R553). -/
  | powerGrant (fn : Nat) (v : Nat)
  /-- KBOUND_RESTORE (R555). -/
  | kboundRestore
  /-- GRANT_IN_FORCE (R554). -/
  | grantInForce
  /-- FRACTION_COMMIT (R544). -/
  | fractionCommit (fn : Nat) (v : Nat)
  /-- POWER_EVALUATION (R546). -/
  | powerEvaluation (est : List Nat)
  /-- POWER_GUARD (R547). -/
  | powerGuard (mw : Nat)
  /-- POWER_REFIT (R545). -/
  | powerRefit
  /-- DROOP (R548). -/
  | droop (file : Nat)
  /-- OPP_CHANGE_DONE (R550). -/
  | oppChangeDone
  /-- THERMAL_LIMIT (R552). -/
  | thermalLimit (sensor : Nat) (temp : Nat)
  /-- THERMAL_RELEASE (R552). -/
  | thermalRelease
  /-- THERMAL_TRIP (R552). -/
  | thermalTrip
  /-- INPUT_BROWNOUT (R565). -/
  | inputBrownout
  /-- POWER_REQ_ACTIVE (R558). -/
  | powerReqActive (fn : Nat) (v : Nat)
  /-- POWER_REQ_HOLD (R559). -/
  | powerReqHold (fn : Nat) (v : Nat)
  /-- POWER_REQ_SLEEP (R559). -/
  | powerReqSleep (fn : Nat) (v : Nat)
  /-- POWER_REQ_OFF (R565). -/
  | powerReqOff (fn : Nat) (v : Nat)
  /-- HOLD_DRAIN_EXPIRY (R559). -/
  | holdDrainExpiry
  /-- ENTRY_STEP_DONE (R559). -/
  | entryStepDone
  /-- WAKE (R561). -/
  | wakeEv (src : Nat)
  /-- EXIT_STAGE_READY (R562). -/
  | exitStageReady
  /-- GPIO_WAKE (R563). -/
  | gpioWake (pin : Nat)
  /-- COLD_BOOT (R573). -/
  | coldBoot
  /-- BOOT_STAGE_READY (R573). -/
  | bootStageReady (ok : Bool)
  /-- WARM_RESET (R581). -/
  | warmReset (fn : Nat) (v : Nat)
  /-- WARM_RESET_PIN (R661). -/
  | warmResetPin
  /-- BOARD_RESET (R583). -/
  | boardReset (fn : Nat) (v : Nat)
  /-- COMPUTE_RESET (R583). -/
  | computeReset (fn : Nat) (v : Nat)
  /-- BIST (R580). -/
  | bistCmd (fn : Nat) (v : Nat)
  /-- BIST_DONE (R580). -/
  | bistDone (failed : List Nat)
  /-- REPLAY_ENTER (R580). -/
  | replayEnter (fn : Nat) (v : Nat)
  /-- REPLAY_EXIT (R580). -/
  | replayExit (fn : Nat) (v : Nat)
  /-- RESET_STEP_DONE (R583). -/
  | resetStepDone
  /-- ARBITER_RESTART (R630). -/
  | arbiterRestart
  /-- CHALLENGE (R604). -/
  | challenge (fn : Nat) (v : Nat)
  /-- CHALLENGE_LAPSE (R604). -/
  | challengeLapse (fn : Nat)
  /-- TOKEN (R607). -/
  | tokenCmd (fn : Nat) (v : Nat)
  /-- ATTEST (R617). -/
  | attest (fn : Nat) (v : Nat)
  /-- CERTREAD (R599). -/
  | certread (fn : Nat) (v : Nat)
  /-- UPDATE (R613). -/
  | updateCmd (fn : Nat) (v : Nat)
  /-- ARBCOMMIT (R612). -/
  | arbcommit (fn : Nat) (v : Nat)
  /-- LOCKDOWN (R623). -/
  | lockdown (fn : Nat) (v : Nat)
  /-- DEBUG_END (R619). -/
  | debugEnd (fn : Nat) (v : Nat)
  /-- DEBUG_EXPIRY (R619). -/
  | debugExpiry
  /-- KEYGEN (R598). -/
  | keygen (fn : Nat) (v : Nat)
  /-- SIGN (R628). -/
  | signCmd (fn : Nat) (v : Nat)
  /-- TRNG_HEALTH_FAIL (R597). -/
  | trngHealthFail (count : Nat)
  /-- BACKOFF_END (R607). -/
  | backoffEnd
  /-- RCV_START (R615). -/
  | rcvStart (fn : Nat) (v : Nat)
  /-- RCV_CHUNK (R615). -/
  | rcvChunk (fn : Nat) (v : Nat)
  /-- RCV_WINDOW_WRITE (R615). -/
  | rcvWindowWrite (fn : Nat) (off : Nat) (v : Nat)
  /-- ARB_MBX_GO (R631). -/
  | arbMbxGo (fn : Nat) (v : Nat)
  /-- HELLO (R632). -/
  | hello (fn : Nat)
  /-- RELEASE (R634). -/
  | releaseOwn (fn : Nat)
  /-- CONFIG_WRITE (R637). -/
  | configWrite (fn : Nat)
  /-- CONFIG_TAKE_EFFECT (R637). -/
  | configTakeEffect
  /-- CONFIG_READ (R637). -/
  | configRead (fn : Nat)
  /-- SENSORS (R638). -/
  | sensors (fn : Nat)
  /-- LOG_READ (R641). -/
  | logRead (fn : Nat)
  /-- ARB_SENSOR_SCAN (R638). -/
  | arbSensorScan (vals : List Nat)
  /-- MCTP_MESSAGE (R642). -/
  | mctpMessage (msg : List Byte)
  /-- PCIE_LINK_DOWN (R634). -/
  | pcieLinkDown (port : Nat)
  /-- PCIE_LINK_UP (R634). -/
  | pcieLinkUp (port : Nat) (speed : Nat) (lanes : Nat)
  /-- HOST_LOST (R635). -/
  | hostLost (port : Nat)
  /-- GRACE_EXPIRY (R635). -/
  | graceExpiry (port : Nat)
  /-- IMAGE_LOAD (R649). -/
  | imageLoad (fn : Nat) (v : Nat)
  /-- IMAGE_UNLOAD (R650). -/
  | imageUnload (fn : Nat) (v : Nat)
  /-- IMAGE_UNLOAD_DONE (R650). -/
  | imageUnloadDone (fn : Nat) (h : Nat)
  /-- IMAGE_REPLACE (R651). -/
  | imageReplace (fn : Nat) (v : Nat)
  /-- IMAGE_REPLACE_DONE (R651). -/
  | imageReplaceDone (fn : Nat) (h : Nat)
  /-- PER_TAIL_DOORBELL (R669). -/
  | perTailDoorbell (fn : Nat) (v : Nat)
  /-- PER_WRITE (R670). -/
  | perWrite (ctrl : Nat)
  /-- PER_READ (R670). -/
  | perRead (ctrl : Nat) (data : List Byte)
  /-- PER_WRITE_READ (R670). -/
  | perWriteRead (ctrl : Nat) (data : List Byte)
  /-- PER_TIMEOUT (R670). -/
  | perTimeout (ctrl : Nat)
  /-- PERIPHERAL_COMPLETE (R670). -/
  | peripheralComplete (ctrl : Nat)
  /-- ARBITER_RESTART_DONE (R630). -/
  | arbiterRestartDone
  /-- RING_LINK_UP (R538). -/
  | ringLinkUp (port : Nat)
  /-- ETH_LINK_UP (R541). -/
  | ethLinkUp (port : Nat) (rate : Nat)
  /-- ETH_LINK_DOWN (R532). -/
  | ethLinkDown (port : Nat)
  /-- CSI_PORT_STATE_CHANGE (R375). -/
  | csiPortStateChange (port : Nat) (st : Nat)
  /-- VIN_BELOW_5V (R657). -/
  | vinBelow5v
  /-- WARM_RESET_N_ASSERT (R661). -/
  | warmResetNAssert
  /-- DISPATCHER_CORE_FAULT (R589). -/
  | dispatcherCoreFault (core : Nat)
  /-- UPDATE_PASS_DONE (R613). -/
  | updatePassDone (ok : Bool)
  /-- RCV_CHUNK_PROGRAMMED (R615). -/
  | rcvChunkProgrammed (ok : Bool)
  /-- MEM_RETRAIN_DONE (R210). -/
  | memRetrainDone (ok : Bool)
  /-- RING_STOP_DONE (R534). -/
  | ringStopDone
  deriving DecidableEq, Repr

end Sys2Proof
end

