-- ==== Sys2Proof/Decode.lean ====
section
/-! DEFINITION. The words of the command table: no row of spec/opcode_table.json gives bits, so no word spells a command. The
Ferlith words of R90 are decoded where a laneset fetches them, in Sys2Proof/Machine/Operands.lean. -/

namespace Sys2Proof

/-- The command that a word of the table spells: the table gives no row any bits. -/
def decodeTableWord (_nbits _w : Nat) : Option Instr := none

end Sys2Proof
end

