-- ==== Sys2Proof/Machine/Assoc.lean ====
section
/-! DEFINITION. Sparse tables in one canonical form, and the bit-field helpers that every block uses.

A table is a list of (key, value) pairs with strictly rising keys and no entry equal to what an unlisted key reads as. -/

namespace Sys2Proof.Machine

/-- What a table holds under a key; `d` is what an unlisted key reads as. -/
def assocGet {α : Type} (d : α) : List (Nat × α) → Nat → α
  | [], _ => d
  | (k', v) :: t, k => if k' = k then v else assocGet d t k

/-- Put a value under a key, keeping rising keys. -/
def assocInsert {α : Type} (k : Nat) (v : α) : List (Nat × α) → List (Nat × α)
  | [] => [(k, v)]
  | (k', v') :: t =>
    if k < k' then (k, v) :: (k', v') :: t
    else if k' = k then (k, v) :: t
    else (k', v') :: assocInsert k v t

/-- Take every entry of a key out of a table. -/
def assocErase {α : Type} (k : Nat) (l : List (Nat × α)) : List (Nat × α) :=
  l.filter fun e => !(e.1 == k)

/-- Write a table: the value that an unlisted key reads as removes the entry. -/
def assocSet {α : Type} [DecidableEq α] (d : α) (l : List (Nat × α)) (k : Nat) (v : α) : List (Nat × α) :=
  if v = d then assocErase k l else assocInsert k v l

/-- Write several keys in order. -/
def assocSetMany {α : Type} [DecidableEq α] (d : α) (l : List (Nat × α)) (kvs : List (Nat × α)) : List (Nat × α) :=
  kvs.foldl (fun acc e => assocSet d acc e.1 e.2) l

/-- The canonical form: rising keys, and nothing listed that an unlisted key reads as. -/
def assocWf {α : Type} [DecidableEq α] (d : α) : List (Nat × α) → Bool
  | [] => true
  | [(_, v)] => decide (v ≠ d)
  | (k, v) :: (k', v') :: t => decide (v ≠ d) && decide (k < k') && assocWf d ((k', v') :: t)

/-- Bits [hi:lo] of a number. -/
def bits (n hi lo : Nat) : Nat := (n / 2 ^ lo) % 2 ^ (hi + 1 - lo)

/-- Bit `i` of a number. -/
def bit (n i : Nat) : Bool := (n / 2 ^ i) % 2 == 1

/-- A number with bits [hi:lo] replaced by the low bits of `v`. -/
def withBits (n hi lo v : Nat) : Nat :=
  n - bits n hi lo * 2 ^ lo + (v % 2 ^ (hi + 1 - lo)) * 2 ^ lo

/-- The two's complement reading of the low `w` bits of a number. -/
def toSigned (w n : Nat) : Int :=
  let m := n % 2 ^ w
  if m < 2 ^ (w - 1) then (m : Int) else (m : Int) - 2 ^ w

/-- The low `w` bits of an integer. -/
def ofSigned (w : Nat) (i : Int) : Nat := (i % (2 ^ w : Int)).toNat

/-- A counter that saturates at `top`. -/
def satAdd (top n d : Nat) : Nat := Nat.min top (n + d)

/-- Difference modulo 2^32, as the ring rules use it (R233). -/
def sub32 (a b : Nat) : Nat := (a + 2 ^ 32 - b % 2 ^ 32) % 2 ^ 32

/-- Sum modulo 2^32. -/
def add32 (a b : Nat) : Nat := (a + b) % 2 ^ 32

/-- The little-endian number that bytes spell (R4). -/
def leNat : List Byte → Nat
  | [] => 0
  | b :: t => b.toNat + 256 * leNat t

/-- The little-endian bytes of a number (R4). -/
def leBytes : Nat → Nat → List Byte
  | 0, _ => []
  | k + 1, n => BitVec.ofNat 8 n :: leBytes k (n / 256)

/-- Little-endian field of `k` bytes at offset `off` of a byte block. -/
def leField (b : List Byte) (off k : Nat) : Nat := leNat ((b.drop off).take k)

/-- A byte block with the `k` bytes at `off` replaced. -/
def setField (b : List Byte) (off k v : Nat) : List Byte :=
  b.take off ++ leBytes k v ++ b.drop (off + k)

/-- The indices below `n` at which a test holds. -/
def indices (n : Nat) (p : Nat → Bool) : List Nat := (List.range n).filter p

/-- Put an element into a sorted list, before those that it equals. -/
def insertBy {α : Type} (le : α → α → Bool) (a : α) : List α → List α
  | [] => [a]
  | b :: t => if le a b then a :: b :: t else b :: insertBy le a t

/-- A list in a given order; equal elements keep theirs. -/
def sortedBy {α : Type} (le : α → α → Bool) : List α → List α
  | [] => []
  | a :: t => insertBy le a (sortedBy le t)

/-- The sum of bits `1 <<< i` over a list of distinct indices. -/
def maskOf (l : List Nat) : Nat := l.foldl (fun m i => if bit m i then m else m + 2 ^ i) 0

/-- Ceiling division. -/
def cdiv (a b : Nat) : Nat := (a + b - 1) / b

/-- Whether two ranges (start, length) overlap. -/
def spansMeet (a b : Nat × Nat) : Bool := decide (a.1 < b.1 + b.2) && decide (b.1 < a.1 + a.2)

/-- Read `n` bytes of a byte memory in which an unlisted address reads 0. -/
def cellsRead (l : List (Nat × Byte)) (a : Nat) : Nat → List Byte
  | 0 => []
  | n + 1 => assocGet 0 l a :: cellsRead l (a + 1) n

/-- Write bytes of a byte memory in which an unlisted address reads 0. -/
def cellsWrite (l : List (Nat × Byte)) (a : Nat) : List Byte → List (Nat × Byte)
  | [] => l
  | b :: t => cellsWrite (assocSet 0 l a b) (a + 1) t

/-- Set bytes of a memory to zero over a range of addresses. -/
def cellsZero (l : List (Nat × Byte)) (a n : Nat) : List (Nat × Byte) :=
  l.filter fun e => decide (e.1 < a) || decide (a + n ≤ e.1)

end Sys2Proof.Machine
end

