-- ==== Sys2Proof/Machine/Regs.lean ====
section
/-! DEFINITION. The register map of R671 to R681: every register of every page, its offsets, the access of its fields,
its reserved bits and its reset value, written from the field tables of the chapters, and a name for every field. -/

namespace Sys2Proof.Machine

/-- Which copy of a register an access reaches: the one copy, the accessing function's copy (R73, R188, R252, R640), or the
copy that a selection register of the page names. -/
inductive Scope where
  | one | fn | vc | src | per | region | bqsess | port
  deriving DecidableEq, Repr, Inhabited

/-- One register, or `count` registers `stride` bytes apart. The masks give the bits of each access code of R5; `lockable` are
the RWL bits of R624; `resv` are the bits the map gives as reserved. -/
structure RegDesc where
  name : String
  page : Nat
  off : Nat
  count : Nat := 1
  stride : Nat := 4
  rw : Nat := 0
  w1c : Nat := 0
  rc : Nat := 0
  wo : Nat := 0
  lockable : Nat := 0
  resv : Nat := 0
  reset : Nat := 0
  scope : Scope := .one
  deriving DecidableEq, Repr, Inhabited

/-- A field of a register: its page, offset and bit range. -/
structure Fld where
  page : Nat
  off : Nat
  hi : Nat
  lo : Nat
  deriving DecidableEq, Repr, Inhabited

/-- The same field on another page (the file pages share one map, R73). -/
def Fld.onPage (f : Fld) (p : Nat) : Fld := { f with page := p }

/-- The same field of a later instance of a repeated register. -/
def Fld.plus (f : Fld) (d : Nat) : Fld := { f with off := f.off + d }

/-- The block registers of page 0x00. -/
def regs00 : List RegDesc := [
  { name := "DEV_BOOT", page := 0x0, off := 0x40, resv := 0xE7F0000 },
  { name := "DEV_BOOT_MS", page := 0x0, off := 0x44, resv := 0xFFFF0000 },
  { name := "DEV_RST_CAUSE", page := 0x0, off := 0x48, rc := 0x7F, resv := 0xFFFFFF80 },
  { name := "DEV_CMD", page := 0x0, off := 0x4C, wo := 0xF00000FF, resv := 0xFFFFF00 },
  { name := "DEV_CMD_STS", page := 0x0, off := 0x50, resv := 0x7FFF, reset := 0x8000 },
  { name := "DEV_MODE", page := 0x0, off := 0x54, resv := 0xFFFFFFFC, reset := 0x1 },
  { name := "DEV_FUSE", page := 0x0, off := 0x58 },
  { name := "DEV_DETOUR", page := 0x0, off := 0x5C, resv := 0xFFFF0000 },
  { name := "DEV_FLT", page := 0x0, off := 0x60, resv := 0xFFF0000 },
  { name := "DEV_FLT_TICK_LO", page := 0x0, off := 0x64 },
  { name := "DEV_FLT_TICK_HI", page := 0x0, off := 0x68 },
  { name := "DEV_REPLAYS", page := 0x0, off := 0x6C, rc := 0xFFFFFFFF },
  { name := "DEV_REPLAY_FAIL", page := 0x0, off := 0x70, rc := 0xFFFFFFFF },
  { name := "DEV_KINT_MAX", page := 0x0, off := 0x74, rc := 0xFFFFFFFF },
  { name := "DEV_GEN", page := 0x0, off := 0x100 },
  { name := "DEV_OWN", page := 0x0, off := 0x104, resv := 0x3FFFFFC0 },
  { name := "DEV_CTLOWN", page := 0x0, off := 0x108, resv := 0x7FFFFFC0 },
  { name := "DEV_HOSTS", page := 0x0, off := 0x10C, resv := 0xFFFF0000 },
  { name := "DEV_GRACE", page := 0x0, off := 0x110, rw := 0xFFF, lockable := 0xFFF, resv := 0xFFFFF000, reset := 0xA },
  { name := "DEV_IFVER", page := 0x0, off := 0x114, resv := 0xFF000000, reset := 0x3010C }]

/-- The block registers of page 0x01. -/
def regs01 : List RegDesc := [
  { name := "ARB_MBX_CMD", page := 0x1, off := 0x40, wo := 0x1, resv := 0xFFFFFFFE, scope := .fn },
  { name := "ARB_MBX_STS", page := 0x1, off := 0x44, resv := 0x3FFF, reset := 0x8000, scope := .fn },
  { name := "ARB_RESTARTS", page := 0x1, off := 0x48, rc := 0xFFFFFFFF },
  { name := "ARB_LOG_SEQ", page := 0x1, off := 0x4C },
  { name := "ARB_SMB_CFG", page := 0x1, off := 0x50, rw := 0x8000007F, lockable := 0x8000007F, resv := 0x7FFFFF80, reset := 0x8000004E },
  { name := "ARB_MBX_REQ", page := 0x1, off := 0x400, count := 64, stride := 4, rw := 0xFFFFFFFF, scope := .fn },
  { name := "ARB_MBX_RSP", page := 0x1, off := 0x500, count := 64, stride := 4, scope := .fn }]

/-- The block registers of page 0x02. -/
def regs02 : List RegDesc := [
  { name := "CSL_STS", page := 0x2, off := 0x40, resv := 0x3FFFFF80 },
  { name := "CSL_CMD", page := 0x2, off := 0x44, wo := 0xF0000007, resv := 0xFFFFFF8, scope := .fn },
  { name := "CSL_CMD_STS", page := 0x2, off := 0x48, resv := 0x7FFF, reset := 0x8000, scope := .fn },
  { name := "CSL_CMD_VA_LO", page := 0x2, off := 0x4C, rw := 0xFFFFFFC0, resv := 0x3F, scope := .fn },
  { name := "CSL_CMD_VA_HI", page := 0x2, off := 0x50, rw := 0xFFFFF, resv := 0xFFF00000, scope := .fn },
  { name := "CSL_ARB", page := 0x2, off := 0x54, resv := 0xFFFF8080 },
  { name := "CSL_OWNER", page := 0x2, off := 0x58, resv := 0xFF00 },
  { name := "CSL_POLICY", page := 0x2, off := 0x5C, resv := 0xFFFFFF00 },
  { name := "CSL_DBG", page := 0x2, off := 0x60, resv := 0xFC0E0000 },
  { name := "CSL_CHALn", page := 0x2, off := 0x64, count := 8, stride := 4, scope := .fn },
  { name := "CSL_UNITIDn", page := 0x2, off := 0x84, count := 4, stride := 4 },
  { name := "CSL_TRNG", page := 0x2, off := 0x94, rc := 0xFFFFFFFF },
  { name := "CSL_UPD", page := 0x2, off := 0x98 },
  { name := "CSL_RCV_CTL", page := 0x2, off := 0xA0, wo := 0xF0000FFF, resv := 0xFFFF000 },
  { name := "CSL_RCV_STS", page := 0x2, off := 0xA4 },
  { name := "CSL_RCV_WIN", page := 0x2, off := 0x8000, count := 8192, stride := 4, wo := 0xFFFFFFFF }]

/-- The block registers of page 0x03. -/
def regs03 : List RegDesc := [
  { name := "PWR_STATE", page := 0x3, off := 0x40, resv := 0x7FFF00 },
  { name := "PWR_STATE_REQ", page := 0x3, off := 0x44, wo := 0xF0000000, resv := 0xFFFFFFF },
  { name := "PWR_STATE_STS", page := 0x3, off := 0x48, resv := 0x7FFF, reset := 0x8000 },
  { name := "PWR_GRANT", page := 0x3, off := 0x4C, wo := 0x87FFFFFF, resv := 0x78000000 },
  { name := "PWR_GRANT_STS", page := 0x3, off := 0x50, resv := 0x7FFF, reset := 0x8000 },
  { name := "PWR_CAP", page := 0x3, off := 0x54, resv := 0x38000000, reset := 0xFA0000 },
  { name := "PWR_TEFF_LO", page := 0x3, off := 0x58 },
  { name := "PWR_TEFF_HI", page := 0x3, off := 0x5C },
  { name := "PWR_FRAC0", page := 0x3, off := 0x60, rw := 0xFFFFFFFF, lockable := 0xFFFFFFFF, reset := 0x706163A },
  { name := "PWR_FRAC1", page := 0x3, off := 0x64, rw := 0xFFFFFF, lockable := 0xFFFFFF, resv := 0xFF000000, reset := 0x10204 },
  { name := "PWR_KNEED", page := 0x3, off := 0x68 },
  { name := "PWR_OPP", page := 0x3, off := 0x6C, rw := 0xF0F, resv := 0xF0F0F0F0, reset := 0x800 },
  { name := "PWR_IN", page := 0x3, off := 0x70 },
  { name := "PWR_DOMn", page := 0x3, off := 0x74, count := 7, stride := 4 },
  { name := "PWR_LIMIT", page := 0x3, off := 0x90, resv := 0xFF80F0F8 },
  { name := "PWR_TJ", page := 0x3, off := 0x94, resv := 0xFFFFE000 },
  { name := "PWR_WAKE_EN", page := 0x3, off := 0x98, rw := 0x1FE, lockable := 0x1FE, resv := 0xFFFFFE00, reset := 0x141 },
  { name := "PWR_WAKE_SRC", page := 0x3, off := 0x9C, rc := 0xFFFFFFFF },
  { name := "PWR_HOLD_DRAIN", page := 0x3, off := 0xA0, rw := 0xFFFF, resv := 0xFFFF0000, reset := 0x3E8 },
  { name := "PWR_DROOP", page := 0x3, off := 0xA4, rc := 0xFFFFFFFF },
  { name := "PWR_OVERCAP", page := 0x3, off := 0xA8, rc := 0xFFFFFFFF },
  { name := "PWR_ROLLBACK", page := 0x3, off := 0xAC, rc := 0xFFFFFFFF }]

/-- The block registers of page 0x04. -/
def regs04 : List RegDesc := [
  { name := "TMB_TIME_LO", page := 0x4, off := 0x40 },
  { name := "TMB_TIME_HI", page := 0x4, off := 0x44 },
  { name := "TMB_TIME_FRAC", page := 0x4, off := 0x48 },
  { name := "TMB_INCR_FRAC", page := 0x4, off := 0x4C, rw := 0xFFFFFFFF },
  { name := "TMB_INCR_INT", page := 0x4, off := 0x50, rw := 0xFF, resv := 0xFFFFFF00, reset := 0x4 },
  { name := "TMB_STEP_LO", page := 0x4, off := 0x54, wo := 0xFFFFFFFF },
  { name := "TMB_STEP_HI", page := 0x4, off := 0x58, wo := 0xFFFFFFFF },
  { name := "TMB_STEP_STS", page := 0x4, off := 0x5C, resv := 0x7FFF, reset := 0x8000 },
  { name := "TMB_SRC_CFG", page := 0x4, off := 0x60, rw := 0xFFFFF3C0, lockable := 0xFFFFF3C0, resv := 0xC3F, reset := 0x11E3000 },
  { name := "TMB_SRC_STS", page := 0x4, off := 0x64, resv := 0x1FFFFF },
  { name := "TMB_SLEW", page := 0x4, off := 0x68, rw := 0xFFFFF, lockable := 0xFFFFF, resv := 0xFFF00000, reset := 0x186A0 },
  { name := "TMB_STEPMIN", page := 0x4, off := 0x6C, rw := 0xFFFFFFFF, lockable := 0xFFFFFFFF, reset := 0x3E8 },
  { name := "TMB_DISAGREE", page := 0x4, off := 0x70, rw := 0xFFFFFFFF, lockable := 0xFFFFFFFF, reset := 0x3E8 },
  { name := "TMB_OFS_PTP", page := 0x4, off := 0x74, reset := 0x80000000 },
  { name := "TMB_OFS_RING", page := 0x4, off := 0x78, reset := 0x80000000 },
  { name := "TMB_ALARM_LO", page := 0x4, off := 0x7C, rw := 0xFFFFFFFF },
  { name := "TMB_ALARM_HI", page := 0x4, off := 0x80, rw := 0xFFFFFFFF },
  { name := "TMB_TRGn_CFG", page := 0x4, off := 0x100, count := 16, stride := 16, rw := 0xE00FFFFF, rc := 0x1FF00000 },
  { name := "TMB_TRGn_START_LO", page := 0x4, off := 0x104, count := 16, stride := 16, rw := 0xFFFFFFFF },
  { name := "TMB_TRGn_START_HI", page := 0x4, off := 0x108, count := 16, stride := 16, rw := 0xFFFFFFFF },
  { name := "TMB_TRGn_PERIOD", page := 0x4, off := 0x10C, count := 16, stride := 16, rw := 0xFFFFFFFF },
  { name := "TMB_CAPn_CFG", page := 0x4, off := 0x200, count := 16, stride := 16, rw := 0xE000000F, resv := 0x1FFFFFF0 },
  { name := "TMB_CAPn_LO", page := 0x4, off := 0x204, count := 16, stride := 16, rc := 0xFFFFFFFF },
  { name := "TMB_CAPn_HI", page := 0x4, off := 0x208, count := 16, stride := 16 },
  { name := "TMB_CAPn_STS", page := 0x4, off := 0x20C, count := 16, stride := 16, rc := 0xFF, resv := 0x7FFF0000 }]

/-- The block registers of page 0x05. -/
def regs05 : List RegDesc := [
  { name := "DSP_QSEL", page := 0x5, off := 0x40, rw := 0xFFFF, resv := 0xFFFF0000, scope := .fn },
  { name := "DSP_QCMD", page := 0x5, off := 0x44, wo := 0xF0000000, resv := 0xFFFFFFF, scope := .fn },
  { name := "DSP_QCMD_STS", page := 0x5, off := 0x48, resv := 0x7FFF, reset := 0x8000, scope := .fn },
  { name := "DSP_Q_CFG", page := 0x5, off := 0x4C, rw := 0xFFF00FFF, resv := 0xFF000, scope := .fn },
  { name := "DSP_Q_SQBASE_LO", page := 0x5, off := 0x50, rw := 0xFFFFFFFF, scope := .fn },
  { name := "DSP_Q_SQBASE_HI", page := 0x5, off := 0x54, rw := 0xFFFFF, resv := 0xFFF00000, scope := .fn },
  { name := "DSP_Q_CQBASE_LO", page := 0x5, off := 0x58, rw := 0xFFFFFFFF, scope := .fn },
  { name := "DSP_Q_CQBASE_HI", page := 0x5, off := 0x5C, rw := 0xFFFFF, resv := 0xFFF00000, scope := .fn },
  { name := "DSP_Q_MOD", page := 0x5, off := 0x60, rw := 0x3FF00FF, resv := 0xFC00FF00, scope := .fn },
  { name := "DSP_Q_KFILES", page := 0x5, off := 0x64, rw := 0xFFFF, resv := 0xFFFF0000, scope := .fn },
  { name := "DSP_Q_TIMEOUT", page := 0x5, off := 0x68, rw := 0xFFFFFFFF, scope := .fn },
  { name := "DSP_Q_STS", page := 0x5, off := 0x6C, resv := 0xFF08, scope := .fn },
  { name := "DSP_Q_SQHEAD", page := 0x5, off := 0x70, scope := .fn },
  { name := "DSP_Q_SQTAIL", page := 0x5, off := 0x74, scope := .fn },
  { name := "DSP_Q_CQTAIL", page := 0x5, off := 0x78, scope := .fn },
  { name := "DSP_QRANGE", page := 0x5, off := 0x7C, resv := 0xFE0000, scope := .fn },
  { name := "DSP_IRQVEC", page := 0x5, off := 0x80, rw := 0x7FF07FF, resv := 0xF800F800, scope := .fn },
  { name := "DSP_CANCEL", page := 0x5, off := 0x84, wo := 0xFFFFFFFF, scope := .fn },
  { name := "DSP_CANCEL_STS", page := 0x5, off := 0x88, resv := 0x7FFC, reset := 0x8000, scope := .fn },
  { name := "DSP_Q_GEN", page := 0x5, off := 0x8C, scope := .fn },
  { name := "DSP_EXCn", page := 0x5, off := 0x90, count := 8, stride := 4, scope := .fn },
  { name := "DSP_STAT_SEL", page := 0x5, off := 0xB0, rw := 0xF000FFFF, resv := 0xFFF0000, scope := .fn },
  { name := "DSP_STAT_LO", page := 0x5, off := 0xB4, scope := .fn },
  { name := "DSP_STAT_HI", page := 0x5, off := 0xB8, scope := .fn },
  { name := "DSP_KLAT_MAX", page := 0x5, off := 0xBC, rc := 0xFFFFFFFF, scope := .fn },
  { name := "DSP_DB_DROP", page := 0x5, off := 0xC0, rc := 0xFFFFFFFF, scope := .fn },
  { name := "DSP_DUP", page := 0x5, off := 0xC4, rc := 0xFFFFFFFF, scope := .fn },
  { name := "DSP_SEQ_SEL", page := 0x5, off := 0x100, rw := 0x3FFF, resv := 0xFFFFC000, scope := .fn },
  { name := "DSP_SEQ_CMD", page := 0x5, off := 0x104, wo := 0xF8000000, resv := 0x7FFFFFF, scope := .fn },
  { name := "DSP_SEQ_CMD_STS", page := 0x5, off := 0x108, resv := 0x7FFF, reset := 0x8000, scope := .fn },
  { name := "DSP_SEQ_VA_LO", page := 0x5, off := 0x10C, rw := 0xFFFFFFFF, scope := .fn },
  { name := "DSP_SEQ_VA_HI", page := 0x5, off := 0x110, rw := 0xFFFFF, resv := 0xFFF00000, scope := .fn },
  { name := "DSP_SEQ_STS", page := 0x5, off := 0x114, resv := 0x7FFFF, scope := .fn },
  { name := "DSP_SEQ_GEN", page := 0x5, off := 0x118, scope := .fn },
  { name := "DSP_SEQ_SETCFG", page := 0x5, off := 0x11C, resv := 0x30000000, scope := .fn },
  { name := "DSP_SEQ_PARK_LO", page := 0x5, off := 0x120, rw := 0xFFFF0000, resv := 0xFFFF, scope := .fn },
  { name := "DSP_SEQ_PARK_HI", page := 0x5, off := 0x124, rw := 0xFFFFF, resv := 0xFFF00000, scope := .fn },
  { name := "DSP_SEQ_IDLE", page := 0x5, off := 0x128, rw := 0xFFFFFFFF, scope := .fn },
  { name := "DSP_SEQ_SWOUT", page := 0x5, off := 0x12C, rc := 0xFFFFFFFF, scope := .fn },
  { name := "DSP_SEQ_SWIN", page := 0x5, off := 0x130, rc := 0xFFFFFFFF, scope := .fn },
  { name := "DSP_SEQ_SWCAN", page := 0x5, off := 0x134, rc := 0xFFFFFFFF, scope := .fn },
  { name := "DSP_SEQ_GENMIS", page := 0x5, off := 0x138, rc := 0xFFFFFFFF, scope := .fn },
  { name := "DSP_SEQ_TORN", page := 0x5, off := 0x13C, rc := 0xFFFFFFFF, scope := .fn },
  { name := "DSP_ATT_CFG", page := 0x5, off := 0x140, rw := 0x1FFF0FF2, resv := 0xE000F00D, reset := 0x4009F2, scope := .fn },
  { name := "DSP_ATT_EDGEn", page := 0x5, off := 0x144, count := 16, stride := 4, rw := 0x1FFFFF, resv := 0xFFE00000, scope := .fn },
  { name := "DSP_ATT_PAGES", page := 0x5, off := 0x184, rc := 0xFFFFFFFF, scope := .fn },
  { name := "DSP_ATT_SPLITS", page := 0x5, off := 0x188, rc := 0xFFFFFFFF, scope := .fn },
  { name := "DSP_ATT_NOMERGE", page := 0x5, off := 0x18C, rc := 0xFFFFFFFF, scope := .fn },
  { name := "DSP_IMG_VA_LO", page := 0x5, off := 0x1C0, rw := 0xFFFFF000, resv := 0xFFF, scope := .fn },
  { name := "DSP_IMG_VA_HI", page := 0x5, off := 0x1C4, rw := 0xFFFFF, resv := 0xFFF00000, scope := .fn },
  { name := "DSP_IMG_CMD", page := 0x5, off := 0x1C8, wo := 0xF000FFFF, resv := 0xFFF0000, scope := .fn },
  { name := "DSP_IMG_STS", page := 0x5, off := 0x1CC, reset := 0x8000, scope := .fn }]

/-- The block registers of page 0x06. -/
def regs06 : List RegDesc := [
  { name := "RSV_FLOOR", page := 0x6, off := 0x40, resv := 0xFFFF8000, scope := .fn },
  { name := "RSV_USED", page := 0x6, off := 0x44, resv := 0xFFFF8000, scope := .fn },
  { name := "RSV_PINNED", page := 0x6, off := 0x48, resv := 0xFFFF8000, scope := .fn },
  { name := "RSV_POOL_FREE", page := 0x6, off := 0x4C, resv := 0xFFFF8000, reset := 0x4000 },
  { name := "RSV_CMD", page := 0x6, off := 0x50, wo := 0xFF803FFF, resv := 0x7FC000, scope := .fn },
  { name := "RSV_CMD_STS", page := 0x6, off := 0x54, resv := 0x4000, reset := 0x8000, scope := .fn },
  { name := "RSV_HIT", page := 0x6, off := 0x58, rc := 0xFFFFFFFF, scope := .fn },
  { name := "RSV_MISS", page := 0x6, off := 0x5C, rc := 0xFFFFFFFF, scope := .fn },
  { name := "RSV_EVICT", page := 0x6, off := 0x60, rc := 0xFFFFFFFF, scope := .fn },
  { name := "RSV_FB_TILES", page := 0x6, off := 0x64, rc := 0xFFFFFFFF, scope := .fn },
  { name := "RSV_DL_TIMEOUT", page := 0x6, off := 0x68, rc := 0xFFFFFFFF, scope := .fn },
  { name := "RSV_FBV_CTL", page := 0x6, off := 0x6C, rw := 0xFFFFFFFF, scope := .fn },
  { name := "RSV_FBV_SW", page := 0x6, off := 0x70, rc := 0xFFFFFFFF, scope := .fn },
  { name := "RSV_NOALLOC", page := 0x6, off := 0x74, rc := 0xFFFFFFFF, scope := .fn }]

/-- The block registers of page 0x07. -/
def regs07 : List RegDesc := [
  { name := "MEM_CTL", page := 0x7, off := 0x40, rw := 0x7, lockable := 0x7, resv := 0xFFFFFFF8, reset := 0x7 },
  { name := "MEM_SCRUB", page := 0x7, off := 0x44, rw := 0xFF, lockable := 0xFF, resv := 0xFFFFFF00, reset := 0x18 },
  { name := "MEM_SCRUB_POS", page := 0x7, off := 0x48, resv := 0x800000 },
  { name := "MEM_PINRET", page := 0x7, off := 0x4C, rw := 0xFFFF, lockable := 0xFFFF, resv := 0xFFFF0000, reset := 0xA10 },
  { name := "MEM_CMD", page := 0x7, off := 0x50, wo := 0xF700001F, resv := 0x8FFFFE0 },
  { name := "MEM_CMD_STS", page := 0x7, off := 0x54, resv := 0x7FFF, reset := 0x8000 },
  { name := "MEM_TEMP", page := 0x7, off := 0x58, resv := 0xFFFF7800 },
  { name := "MEM_TRAIN_STS", page := 0x7, off := 0x5C, resv := 0xFF000000 },
  { name := "MEM_CHn_ERR", page := 0x7, off := 0x60, count := 8, stride := 4, rc := 0xFFFFFFFF },
  { name := "MEM_RETIREDn", page := 0x7, off := 0x80, count := 4, stride := 4 },
  { name := "MEM_LAST_CE_LO", page := 0x7, off := 0x90, resv := 0xFC000000 },
  { name := "MEM_LAST_CE_HI", page := 0x7, off := 0x94, resv := 0xFFFF },
  { name := "MEM_LAST_CE_PINS", page := 0x7, off := 0x98 },
  { name := "MEM_LAST_UE_LO", page := 0x7, off := 0x9C, resv := 0xFC000000 },
  { name := "MEM_LAST_UE_HI", page := 0x7, off := 0xA0, resv := 0xF0FFFF }]

/-- The block registers of page 0x08. -/
def regs08 : List RegDesc := [
  { name := "MMU_ROOT_LO", page := 0x8, off := 0x40, rw := 0xFFFF0001, resv := 0xFFFE, scope := .fn },
  { name := "MMU_ROOT_HI", page := 0x8, off := 0x44, rw := 0x7, resv := 0xFFFFFFF8, scope := .fn },
  { name := "MMU_INVAL_LO", page := 0x8, off := 0x48, wo := 0xFFFFFFFF, scope := .fn },
  { name := "MMU_INVAL_HI", page := 0x8, off := 0x4C, wo := 0x800FFFFF, resv := 0x7FF00000, scope := .fn },
  { name := "MMU_INVAL_STS", page := 0x8, off := 0x50, resv := 0xFFFFFFFE, scope := .fn },
  { name := "MMU_FAULT_LO", page := 0x8, off := 0x54, scope := .fn },
  { name := "MMU_FAULT_HI", page := 0x8, off := 0x58, resv := 0xF00000, scope := .fn },
  { name := "MMU_LOCK_CNT", page := 0x8, off := 0x5C, resv := 0xFFFFFC00, scope := .fn },
  { name := "MMU_EXTn_BASE", page := 0x8, off := 0x60, count := 4, stride := 8, resv := 0x7FFFC000, scope := .fn },
  { name := "MMU_EXTn_LIMIT", page := 0x8, off := 0x64, count := 4, stride := 8, resv := 0xFFFFC000, scope := .fn },
  { name := "MMU_WALKS", page := 0x8, off := 0x80, rc := 0xFFFFFFFF, scope := .fn },
  { name := "MMU_MISS", page := 0x8, off := 0x84, rc := 0xFFFFFFFF, scope := .fn }]

/-- The block registers of page 0x09. -/
def regs09 : List RegDesc := [
  { name := "TMP_CYCLE", page := 0x9, off := 0x40, rw := 0x3FFFFF, resv := 0xFFC00000, reset := 0x3D090 },
  { name := "TMP_EPOCH_LO", page := 0x9, off := 0x44, rw := 0xFFFFFFFF },
  { name := "TMP_EPOCH_HI", page := 0x9, off := 0x48, rw := 0xFFFFFFFF },
  { name := "TMP_RTTMAX", page := 0x9, off := 0x4C, rw := 0xFFFFF, resv := 0xFFF00000, reset := 0x4E20 },
  { name := "TMP_CMD", page := 0x9, off := 0x50, wo := 0xFC000000, resv := 0x3FFFFFF },
  { name := "TMP_CMD_STS", page := 0x9, off := 0x54, resv := 0x7FFF, reset := 0x8000 },
  { name := "TMP_CMD_VA_LO", page := 0x9, off := 0x58, rw := 0xFFFFFFC0, resv := 0x3F },
  { name := "TMP_CMD_VA_HI", page := 0x9, off := 0x5C, rw := 0xFFFFF, resv := 0xFFF00000 },
  { name := "TMP_CYCNT", page := 0x9, off := 0x60 },
  { name := "TMP_SLACK", page := 0x9, off := 0x64, reset := 0xFFFFFFFF },
  { name := "TMP_FREE", page := 0x9, off := 0x68, resv := 0xFFFE0000, reset := 0x14000 },
  { name := "TMP_MISMATCH", page := 0x9, off := 0x6C, rc := 0xFFFFFFFF },
  { name := "TMP_CAP_CFG", page := 0x9, off := 0x70, rw := 0x7801FFFF, resv := 0x7FE0000 },
  { name := "TMP_CAP_SELn", page := 0x9, off := 0x74, count := 4, stride := 4, rw := 0x707F707F, resv := 0x8F808F80 },
  { name := "TMP_CAP_VA_LO", page := 0x9, off := 0x84, rw := 0xFFFFFFC0, resv := 0x3F },
  { name := "TMP_CAP_VA_HI", page := 0x9, off := 0x88, rw := 0xFFFFF, resv := 0xFFF00000 },
  { name := "TMP_CAP_WRITTEN", page := 0x9, off := 0x8C },
  { name := "TMP_MBX_COMMIT", page := 0x9, off := 0x90, wo := 0xF, resv := 0xFFFFFFF0 },
  { name := "TMP_Ln_CFG", page := 0x9, off := 0x100, count := 4, stride := 64, rw := 0x73FFF, resv := 0xFFF8C000, reset := 0x1 },
  { name := "TMP_Ln_STS", page := 0x9, off := 0x104, count := 4, stride := 64, resv := 0xFFFC0 },
  { name := "TMP_Ln_OSC", page := 0x9, off := 0x108, count := 4, stride := 64, rw := 0xFF000FFF, resv := 0xFFF000, reset := 0x4000040 },
  { name := "TMP_Ln_AMIN", page := 0x9, off := 0x10C, count := 4, stride := 64, rw := 0x7FFFFFFF, resv := 0x80000000 },
  { name := "TMP_Ln_GUARD", page := 0x9, off := 0x110, count := 4, stride := 64, rw := 0xFFFFFFFF },
  { name := "TMP_Ln_TCOMP", page := 0x9, off := 0x114, count := 4, stride := 64, resv := 0xFFFF0000 },
  { name := "TMP_Ln_MBXAGE", page := 0x9, off := 0x118, count := 4, stride := 64, resv := 0xFFFF0000 },
  { name := "TMP_Ln_SAT", page := 0x9, off := 0x11C, count := 4, stride := 64, rc := 0xFFFFFFFF },
  { name := "TMP_Ln_LATE", page := 0x9, off := 0x120, count := 4, stride := 64, rc := 0xFFFFFFFF },
  { name := "TMP_Ln_OVERRUN", page := 0x9, off := 0x124, count := 4, stride := 64, rc := 0xFFFFFFFF },
  { name := "TMP_Ln_MBXCNT", page := 0x9, off := 0x128, count := 4, stride := 64, rc := 0xFFFFFFFF },
  { name := "TMP_MBXn", page := 0x9, off := 0x1000, count := 256, stride := 4, rw := 0xFFFFFFFF }]

/-- The block registers of page 0x0A. -/
def regs0A : List RegDesc := [
  { name := "JRG_CFG", page := 0xA, off := 0x40, rw := 0xFFFF0103, resv := 0xFEFC },
  { name := "JRG_ETYPE", page := 0xA, off := 0x44, rw := 0xFFFF, lockable := 0xFFFF, resv := 0xFFFF0000, reset := 0x88B5 },
  { name := "JRG_NODE", page := 0xA, off := 0x48, rw := 0xFFFFFFFF },
  { name := "JRG_WAKEID", page := 0xA, off := 0x4C, rw := 0xFFFFFFFF, lockable := 0xFFFFFFFF },
  { name := "JRG_CMD", page := 0xA, off := 0x50, wo := 0xF0000000, resv := 0xFFFFFFF },
  { name := "JRG_CMD_STS", page := 0xA, off := 0x54, resv := 0x7FFF, reset := 0x8000 },
  { name := "JRG_CMD_VA_LO", page := 0xA, off := 0x58, rw := 0xFFFFFFFF },
  { name := "JRG_CMD_VA_HI", page := 0xA, off := 0x5C, rw := 0xFFFFF, resv := 0xFFF00000 },
  { name := "JRG_STS", page := 0xA, off := 0x60, resv := 0xFF10 },
  { name := "JRG_SEQ", page := 0xA, off := 0x64 },
  { name := "JRG_WKCFAIL_LO", page := 0xA, off := 0x68 },
  { name := "JRG_WKCFAIL_HI", page := 0xA, off := 0x6C },
  { name := "JRG_LOOPT", page := 0xA, off := 0x70 },
  { name := "JRG_FRAMES", page := 0xA, off := 0x74, rc := 0xFFFFFFFF },
  { name := "JRG_LATE", page := 0xA, off := 0x78, rc := 0xFFFFFFFF },
  { name := "JRG_CRCERR", page := 0xA, off := 0x7C, rc := 0xFFFFFFFF },
  { name := "JRG_STALE", page := 0xA, off := 0x80, rc := 0xFFFFFFFF },
  { name := "JRG_TXIMG", page := 0xA, off := 0x1000, count := 384, stride := 4, rw := 0xFFFFFFFF },
  { name := "JRG_RXIMG", page := 0xA, off := 0x2000, count := 384, stride := 4 }]

/-- The block registers of page 0x0B. -/
def regs0B : List RegDesc := [
  { name := "KNT_MAP_CFG", page := 0xB, off := 0x40, rw := 0x1FFF, lockable := 0x1000, resv := 0xFFFFE000, reset := 0x888 },
  { name := "KNT_MAP_VOX", page := 0xB, off := 0x44, rw := 0xFFFFFFFF, reset := 0x3CA3D70A },
  { name := "KNT_MAP_ORGX", page := 0xB, off := 0x48, rw := 0xFFFFFFFF },
  { name := "KNT_MAP_ORGY", page := 0xB, off := 0x4C, rw := 0xFFFFFFFF },
  { name := "KNT_MAP_ORGZ", page := 0xB, off := 0x50, rw := 0xFFFFFFFF },
  { name := "KNT_MAP_CMD", page := 0xB, off := 0x54, wo := 0xF0000000, resv := 0xFFFFFFF },
  { name := "KNT_MAP_CMD_STS", page := 0xB, off := 0x58, resv := 0x7FFF, reset := 0x8000 },
  { name := "KNT_MAP_VA_LO", page := 0xB, off := 0x5C, rw := 0xFFFFFFFF },
  { name := "KNT_MAP_VA_HI", page := 0xB, off := 0x60, rw := 0xFFFFF, resv := 0xFFF00000 },
  { name := "KNT_VER_SEL", page := 0xB, off := 0x64, rw := 0x1FF, resv := 0xFFFFFE00 },
  { name := "KNT_VER", page := 0xB, off := 0x68, scope := .region },
  { name := "KNT_RING_LO", page := 0xB, off := 0x6C, rw := 0xFFFFFFFF, scope := .fn },
  { name := "KNT_RING_HI", page := 0xB, off := 0x70, rw := 0xFFFFF, resv := 0xFFF00000, scope := .fn },
  { name := "KNT_RING_CFG", page := 0xB, off := 0x74, rw := 0x8000003F, resv := 0x7FFFFFC0, scope := .fn },
  { name := "KNT_TAIL", page := 0xB, off := 0x78, rw := 0xFFFFFFFF, scope := .fn },
  { name := "KNT_HEAD", page := 0xB, off := 0x7C, scope := .fn },
  { name := "KNT_DONE", page := 0xB, off := 0x80, scope := .fn },
  { name := "KNT_ACTIVE", page := 0xB, off := 0x84, resv := 0xFFFF },
  { name := "KNT_WATCH_LEAD", page := 0xB, off := 0x88, rw := 0xFFFFF, resv := 0xFFF00000, reset := 0x2710, scope := .fn },
  { name := "KNT_WATCH_CMD", page := 0xB, off := 0x8C, wo := 0x3, resv := 0xFFFFFFFC },
  { name := "KNT_WATCH_STS", page := 0xB, off := 0x90, resv := 0xFFFFFFF },
  { name := "KNT_CHECKS", page := 0xB, off := 0x94, rc := 0xFFFFFFFF },
  { name := "KNT_REPAIRS", page := 0xB, off := 0x98, rc := 0xFFFFFFFF },
  { name := "KNT_MAPCHG", page := 0xB, off := 0x9C, rc := 0xFFFFFFFF },
  { name := "KNT_RESIDUE", page := 0xB, off := 0xA0, rc := 0xFFFFFFFF }]

/-- The block registers of page 0x0C. -/
def regs0C : List RegDesc := [
  { name := "SLV_RING_LO", page := 0xC, off := 0x40, rw := 0xFFFFFFC0, resv := 0x3F, scope := .fn },
  { name := "SLV_RING_HI", page := 0xC, off := 0x44, rw := 0xFFFFF, resv := 0xFFF00000, scope := .fn },
  { name := "SLV_RING_CFG", page := 0xC, off := 0x48, rw := 0x8000003F, resv := 0x7FFFFFC0, scope := .fn },
  { name := "SLV_TAIL", page := 0xC, off := 0x4C, rw := 0xFFFFFFFF, scope := .fn },
  { name := "SLV_HEAD", page := 0xC, off := 0x50, scope := .fn },
  { name := "SLV_DONE", page := 0xC, off := 0x54, scope := .fn },
  { name := "SLV_ACTIVE", page := 0xC, off := 0x58, resv := 0xFFFF },
  { name := "SLV_CAL_LO", page := 0xC, off := 0x5C, rw := 0xFFE00001, lockable := 0xFFE00001, resv := 0x1FFFFE },
  { name := "SLV_CAL_HI", page := 0xC, off := 0x60, rw := 0xFFFFF, lockable := 0xFFFFF, resv := 0xFFF00000 },
  { name := "SLV_TRIALS", page := 0xC, off := 0x64, rc := 0xFFFFFFFF, scope := .fn },
  { name := "SLV_FAILS", page := 0xC, off := 0x68, rc := 0xFFFFFFFF, scope := .fn },
  { name := "SLV_RESIDUE", page := 0xC, off := 0x6C, rc := 0xFFFFFFFF }]

/-- The block registers of page 0x0D. -/
def regs0D : List RegDesc := [
  { name := "FUS_CTL", page := 0xD, off := 0x40, rw := 0x1F1, lockable := 0x100, resv := 0xFFFFFE0E },
  { name := "FUS_PERIOD", page := 0xD, off := 0x44, rw := 0xFFFFF, resv := 0xFFF00000, reset := 0x3E8 },
  { name := "FUS_PB_LO", page := 0xD, off := 0x48, rw := 0xFFFFFFFF },
  { name := "FUS_PB_HI", page := 0xD, off := 0x4C, rw := 0xFFFFF, resv := 0xFFF00000 },
  { name := "FUS_OUT_LO", page := 0xD, off := 0x50, rw := 0xFFFFFFFF },
  { name := "FUS_OUT_HI", page := 0xD, off := 0x54, rw := 0xFFFFF, resv := 0xFFF00000 },
  { name := "FUS_OUT_CFG", page := 0xD, off := 0x58, rw := 0xFFF01FFF, lockable := 0x3F000000, resv := 0xFE000 },
  { name := "FUS_OUT_SEQ", page := 0xD, off := 0x5C },
  { name := "FUS_EVT_LO", page := 0xD, off := 0x60, rw := 0xFFFFFFFF },
  { name := "FUS_EVT_HI", page := 0xD, off := 0x64, rw := 0xFFFFF, resv := 0xFFF00000 },
  { name := "FUS_EVT_CFG", page := 0xD, off := 0x68, rw := 0xBF00000F, lockable := 0x3F000000, resv := 0x40FFFFF0 },
  { name := "FUS_EVT_WRITTEN", page := 0xD, off := 0x6C },
  { name := "FUS_SRCSEL", page := 0xD, off := 0x70, rw := 0x1F, resv := 0xFFFFFFE0 },
  { name := "FUS_SRC_CFG", page := 0xD, off := 0x74, rw := 0xB03F000F, lockable := 0x3F0000, resv := 0x4FC0FFF0, scope := .src },
  { name := "FUS_SRC_RING_LO", page := 0xD, off := 0x78, rw := 0xFFFFFFFF, scope := .src },
  { name := "FUS_SRC_RING_HI", page := 0xD, off := 0x7C, rw := 0xFFFFF, resv := 0xFFF00000, scope := .src },
  { name := "FUS_SRC_PB_LO", page := 0xD, off := 0x80, rw := 0xFFFFFFFF, scope := .src },
  { name := "FUS_SRC_PB_HI", page := 0xD, off := 0x84, rw := 0xFFFFF, resv := 0xFFF00000, scope := .src },
  { name := "FUS_SRC_STS", page := 0xD, off := 0x88, scope := .src },
  { name := "FUS_SRC_HEAD", page := 0xD, off := 0x8C, scope := .src },
  { name := "FUS_CMD", page := 0xD, off := 0x90, wo := 0xF001FFFF, resv := 0xFFE0000 },
  { name := "FUS_CMD_STS", page := 0xD, off := 0x94, resv := 0x7FFF, reset := 0x8000 },
  { name := "FUS_CMD_VA_LO", page := 0xD, off := 0x98, rw := 0xFFFFFFFF },
  { name := "FUS_CMD_VA_HI", page := 0xD, off := 0x9C, rw := 0xFFFFF, resv := 0xFFF00000 },
  { name := "FUS_SLIP", page := 0xD, off := 0xA0 },
  { name := "FUS_TRKS", page := 0xD, off := 0xA4, resv := 0xE000E000 },
  { name := "FUS_OVERRUN", page := 0xD, off := 0xA8, rc := 0xFFFFFFFF },
  { name := "FUS_SUPERSEDED", page := 0xD, off := 0xAC, rc := 0xFFFFFFFF },
  { name := "FUS_NOSLOT", page := 0xD, off := 0xB0, rc := 0xFFFFFFFF },
  { name := "FUS_AUCLIM", page := 0xD, off := 0xB4, rc := 0xFFFFFFFF },
  { name := "FUS_OOS", page := 0xD, off := 0xB8, rc := 0xFFFFFFFF },
  { name := "FUS_TAILn", page := 0xD, off := 0x100, count := 32, stride := 4, wo := 0xFFFFFFFF }]

/-- The block registers of page 0x0E. -/
def regs0E : List RegDesc := [
  { name := "INP_CMD", page := 0xE, off := 0x40, wo := 0xF000003F, resv := 0xFFFFFC0, scope := .fn },
  { name := "INP_CMD_STS", page := 0xE, off := 0x44, resv := 0x7FC0, reset := 0x8000, scope := .fn },
  { name := "INP_CMD_VA_LO", page := 0xE, off := 0x48, rw := 0xFFFFFFFF, scope := .fn },
  { name := "INP_CMD_VA_HI", page := 0xE, off := 0x4C, rw := 0xFFFFF, resv := 0xFFF00000, scope := .fn },
  { name := "INP_SEL", page := 0xE, off := 0x50, rw := 0x13F, resv := 0xFFFFFEC0, scope := .fn },
  { name := "INP_BQ_STS", page := 0xE, off := 0x54, resv := 0xF00FFFF, scope := .bqsess },
  { name := "INP_BQ_AUGTAIL", page := 0xE, off := 0x58, rw := 0xFFFFFFFF, scope := .bqsess },
  { name := "INP_BQ_DROP", page := 0xE, off := 0x5C, rc := 0xFFFFFFFF, scope := .bqsess },
  { name := "INP_BQ_AUGID", page := 0xE, off := 0x60, rc := 0xFFFFFFFF, scope := .bqsess },
  { name := "INP_SESS_TAIL", page := 0xE, off := 0x64, rw := 0xFFFFFFFF, scope := .bqsess },
  { name := "INP_SESS_STS", page := 0xE, off := 0x68, resv := 0xFFF0000, scope := .bqsess },
  { name := "INP_SESS_CONC", page := 0xE, off := 0x6C, rc := 0xFFFFFFFF, scope := .bqsess },
  { name := "INP_SESS_LOST", page := 0xE, off := 0x70, rc := 0xFFFFFFFF, scope := .bqsess },
  { name := "INP_DEC_LOAD", page := 0xE, off := 0x74, resv := 0xFFFFF000 }]

/-- The block registers of page 0x0F. -/
def regs0F : List RegDesc := [
  { name := "EDG_RING_LO", page := 0xF, off := 0x40, rw := 0xFFFFFFC0, resv := 0x3F, scope := .fn },
  { name := "EDG_RING_HI", page := 0xF, off := 0x44, rw := 0xFFFFF, resv := 0xFFF00000, scope := .fn },
  { name := "EDG_RING_CFG", page := 0xF, off := 0x48, rw := 0x8000003F, resv := 0x7FFFFFC0, scope := .fn },
  { name := "EDG_TAIL", page := 0xF, off := 0x4C, rw := 0xFFFFFFFF, scope := .fn },
  { name := "EDG_HEAD", page := 0xF, off := 0x50, scope := .fn },
  { name := "EDG_DONE", page := 0xF, off := 0x54, scope := .fn },
  { name := "EDG_MODE", page := 0xF, off := 0x58, resv := 0xFFFFFFFE },
  { name := "EDG_ACTIVE", page := 0xF, off := 0x5C, resv := 0xFFFF },
  { name := "EDG_OVERRUN", page := 0xF, off := 0x60, rc := 0xFFFFFFFF, scope := .fn },
  { name := "EDG_BUSY", page := 0xF, off := 0x64, rc := 0xFFFFFFFF, scope := .fn },
  { name := "EDG_RESIDUE", page := 0xF, off := 0x68, rc := 0xFFFFFFFF }]

/-- The block registers of page 0x10. -/
def regs10 : List RegDesc := [
  { name := "PCI_PORTn", page := 0x10, off := 0x40, count := 4, stride := 4, resv := 0xFFF0F0E0 },
  { name := "PCI_BIFUR", page := 0x10, off := 0x50, resv := 0xFFFFFFFC },
  { name := "PCI_ERR", page := 0x10, off := 0x54, rc := 0xFFFFFFFF, scope := .port }]

/-- The block registers of page 0x11. -/
def regs11 : List RegDesc := [
  { name := "ETH_Pn_CFG", page := 0x11, off := 0x40, count := 2, stride := 64, rw := 0x8700003F, lockable := 0x8700003F,
    resv := 0x78FFFFC0 },
  { name := "ETH_Pn_STS", page := 0x11, off := 0x44, count := 2, stride := 64, resv := 0x78FF0000 },
  { name := "ETH_Pn_PB_LO", page := 0x11, off := 0x48, count := 2, stride := 64, rw := 0xFFFFFFC0, resv := 0x3F },
  { name := "ETH_Pn_PB_HI", page := 0x11, off := 0x4C, count := 2, stride := 64, rw := 0xFFFFF, resv := 0xFFF00000 },
  { name := "ETH_Pn_TXTAIL", page := 0x11, off := 0x50, count := 2, stride := 64, rw := 0xFFFFFFFF },
  { name := "ETH_Pn_RXTAIL", page := 0x11, off := 0x54, count := 2, stride := 64, rw := 0xFFFFFFFF },
  { name := "ETH_Pn_TXHEAD", page := 0x11, off := 0x58, count := 2, stride := 64 },
  { name := "ETH_Pn_RXHEAD", page := 0x11, off := 0x5C, count := 2, stride := 64 },
  { name := "ETH_Pn_DROP", page := 0x11, off := 0x60, count := 2, stride := 64, rc := 0xFFFFFFFF }]

/-- The block registers of page 0x12. -/
def regs12 : List RegDesc := [
  { name := "CSI_PORTn_CFG", page := 0x12, off := 0x40, count := 4, stride := 4, rw := 0x8007FF07, resv := 0x7FF800F8 },
  { name := "CSI_PORTn_STS", page := 0x12, off := 0x50, count := 4, stride := 4, rc := 0xFFFF, resv := 0xFFF0000 },
  { name := "CSI_VCSEL", page := 0x12, off := 0x60, rw := 0xF, resv := 0xFFFFFFF0 },
  { name := "CSI_VC_CFG", page := 0x12, off := 0x64, rw := 0x8CFFFFF8, lockable := 0x3FF8, resv := 0x73000007, scope := .vc },
  { name := "CSI_VC_GEOM", page := 0x12, off := 0x68, rw := 0xFFFFFFFF, scope := .vc },
  { name := "CSI_VC_PB_LO", page := 0x12, off := 0x6C, rw := 0xFFFFFFC0, resv := 0x3F, scope := .vc },
  { name := "CSI_VC_PB_HI", page := 0x12, off := 0x70, rw := 0xFFFFF, resv := 0xFFF00000, scope := .vc },
  { name := "CSI_VC_STS", page := 0x12, off := 0x74, resv := 0x7FFF, scope := .vc },
  { name := "CSI_VC_FRAMES", page := 0x12, off := 0x78, rc := 0xFFFFFFFF, scope := .vc },
  { name := "CSI_VC_DROP", page := 0x12, off := 0x7C, rc := 0xFFFFFFFF, scope := .vc },
  { name := "CSI_VC_CRC", page := 0x12, off := 0x80, rc := 0xFFFFFFFF, scope := .vc }]

/-- The block registers of page 0x13. -/
def regs13 : List RegDesc := [
  { name := "GPI_OE0", page := 0x13, off := 0x40, rw := 0xFFFFFFFF },
  { name := "GPI_OE1", page := 0x13, off := 0x44, rw := 0xFFFF, resv := 0xFFFF0000 },
  { name := "GPI_OUT0", page := 0x13, off := 0x48, rw := 0xFFFFFFFF },
  { name := "GPI_OUT1", page := 0x13, off := 0x4C, rw := 0xFFFF, resv := 0xFFFF0000 },
  { name := "GPI_IN0", page := 0x13, off := 0x50 },
  { name := "GPI_IN1", page := 0x13, off := 0x54, resv := 0xFFFF0000 },
  { name := "GPI_WAKE0", page := 0x13, off := 0x58, rw := 0xFFFFFFFF, lockable := 0xFFFFFFFF },
  { name := "GPI_WAKE1", page := 0x13, off := 0x5C, rw := 0xFFFF, lockable := 0xFFFF, resv := 0xFFFF0000 },
  { name := "GPI_WPOL0", page := 0x13, off := 0x60, rw := 0xFFFFFFFF, lockable := 0xFFFFFFFF },
  { name := "GPI_WPOL1", page := 0x13, off := 0x64, rw := 0xFFFF, lockable := 0xFFFF, resv := 0xFFFF0000 },
  { name := "GPI_BANK", page := 0x13, off := 0x68, resv := 0xFFFFFFFC },
  { name := "GPI_PER_SEL", page := 0x13, off := 0x80, rw := 0xF, resv := 0xFFFFFFF0 },
  { name := "GPI_PER_CFG", page := 0x13, off := 0x84, rw := 0x8F3FFFFF, lockable := 0x3F0000, resv := 0x70C00000, scope := .per },
  { name := "GPI_PER_RING_LO", page := 0x13, off := 0x88, rw := 0xFFFFFFC0, resv := 0x3F, scope := .per },
  { name := "GPI_PER_RING_HI", page := 0x13, off := 0x8C, rw := 0xFFFFF, resv := 0xFFF00000, scope := .per },
  { name := "GPI_PER_TAIL", page := 0x13, off := 0x90, rw := 0xFFFFFFFF, scope := .per },
  { name := "GPI_PER_HEAD", page := 0x13, off := 0x94, scope := .per }]

/-- The block registers of page 0x20 and of the other file pages. -/
def regs20 : List RegDesc := [
  { name := "FIL_DEFECT", page := 0x20, off := 0x40, resv := 0xFFFC0000 },
  { name := "FIL_ENABLED", page := 0x20, off := 0x44, resv := 0xFFFC0000 },
  { name := "FIL_PART", page := 0x20, off := 0x48, resv := 0xFFFFFCC0 },
  { name := "FIL_GEN", page := 0x20, off := 0x4C },
  { name := "FIL_CLK", page := 0x20, off := 0x50, resv := 0xFFF0F000, reset := 0x258 },
  { name := "FIL_SPLIT", page := 0x20, off := 0x54, resv := 0xFFFFFFE0 },
  { name := "FIL_WINDOW", page := 0x20, off := 0x58, rw := 0xF, resv := 0xFFFFFFF0 },
  { name := "SQ_STATE_LO", page := 0x20, off := 0x60 },
  { name := "SQ_STATE_HI", page := 0x20, off := 0x64 },
  { name := "SQ_FAULT", page := 0x20, off := 0x68, resv := 0xFFFF0000 },
  { name := "FIL_ECC_CNT", page := 0x20, off := 0x70, rc := 0xFFFFFFFF },
  { name := "FIL_ECC_ADDR", page := 0x20, off := 0x74, resv := 0xFE000000 },
  { name := "FIL_LINK_ERR", page := 0x20, off := 0x78, rc := 0xFFFF, resv := 0xFFFF0000 },
  { name := "FIL_LINK_SPARE_N", page := 0x20, off := 0x7C, resv := 0xFFFC0000 },
  { name := "FIL_LINK_SPARE_E", page := 0x20, off := 0x80, resv := 0xFFF80000 },
  { name := "FIL_PERF_SEL", page := 0x20, off := 0x84, rw := 0xFF1F, resv := 0xFFFF00E0 },
  { name := "FIL_PERF_LO", page := 0x20, off := 0x88 },
  { name := "FIL_PERF_HI", page := 0x20, off := 0x8C, resv := 0xFFFF0000 },
  { name := "FIL_DETOUR", page := 0x20, off := 0x90, resv := 0xFFF80000 }]

/-- Every register page with block registers; pages 0x20 to 0x2F share one map (R73). -/
def regTable : List RegDesc :=
  regs00 ++
  regs01 ++
  regs02 ++
  regs03 ++
  regs04 ++
  regs05 ++
  regs06 ++
  regs07 ++
  regs08 ++
  regs09 ++
  regs0A ++
  regs0B ++
  regs0C ++
  regs0D ++
  regs0E ++
  regs0F ++
  regs10 ++
  regs11 ++
  regs12 ++
  regs13 ++
  regs20

def Fld.FIL_DEFECT : Fld := ⟨0x20, 0x40, 31, 0⟩
def Fld.FIL_DEFECT_MAP : Fld := ⟨0x20, 0x40, 17, 0⟩
def Fld.FIL_ENABLED : Fld := ⟨0x20, 0x44, 31, 0⟩
def Fld.FIL_ENABLED_MAP : Fld := ⟨0x20, 0x44, 17, 0⟩
def Fld.FIL_PART : Fld := ⟨0x20, 0x48, 31, 0⟩
def Fld.FIL_PART_KRES : Fld := ⟨0x20, 0x48, 9, 9⟩
def Fld.FIL_PART_ASSIGNED : Fld := ⟨0x20, 0x48, 8, 8⟩
def Fld.FIL_PART_PART : Fld := ⟨0x20, 0x48, 5, 0⟩
def Fld.FIL_GEN : Fld := ⟨0x20, 0x4C, 31, 0⟩
def Fld.FIL_CLK : Fld := ⟨0x20, 0x50, 31, 0⟩
def Fld.FIL_CLK_OPP : Fld := ⟨0x20, 0x50, 19, 16⟩
def Fld.FIL_CLK_MHZ : Fld := ⟨0x20, 0x50, 11, 0⟩
def Fld.FIL_SPLIT : Fld := ⟨0x20, 0x54, 31, 0⟩
def Fld.FIL_SPLIT_KSIZE : Fld := ⟨0x20, 0x54, 4, 0⟩
def Fld.FIL_WINDOW : Fld := ⟨0x20, 0x58, 31, 0⟩
def Fld.FIL_WINDOW_POS : Fld := ⟨0x20, 0x58, 3, 0⟩
def Fld.SQ_STATE_LO : Fld := ⟨0x20, 0x60, 31, 0⟩
def Fld.SQ_STATE_HI : Fld := ⟨0x20, 0x64, 31, 0⟩
def Fld.SQ_FAULT : Fld := ⟨0x20, 0x68, 31, 0⟩
def Fld.SQ_FAULT_FAULT : Fld := ⟨0x20, 0x68, 15, 0⟩
def Fld.FIL_ECC_CNT : Fld := ⟨0x20, 0x70, 31, 0⟩
def Fld.FIL_ECC_CNT_UNCORR : Fld := ⟨0x20, 0x70, 31, 16⟩
def Fld.FIL_ECC_CNT_CORR : Fld := ⟨0x20, 0x70, 15, 0⟩
def Fld.FIL_ECC_ADDR : Fld := ⟨0x20, 0x74, 31, 0⟩
def Fld.FIL_ECC_ADDR_UNC : Fld := ⟨0x20, 0x74, 24, 24⟩
def Fld.FIL_ECC_ADDR_RANK : Fld := ⟨0x20, 0x74, 23, 20⟩
def Fld.FIL_ECC_ADDR_OFFSET : Fld := ⟨0x20, 0x74, 19, 0⟩
def Fld.FIL_LINK_ERR : Fld := ⟨0x20, 0x78, 31, 0⟩
def Fld.FIL_LINK_ERR_RETRIES : Fld := ⟨0x20, 0x78, 15, 0⟩
def Fld.FIL_LINK_SPARE_N : Fld := ⟨0x20, 0x7C, 31, 0⟩
def Fld.FIL_LINK_SPARE_N_COL : Fld := ⟨0x20, 0x7C, 17, 0⟩
def Fld.FIL_LINK_SPARE_E : Fld := ⟨0x20, 0x80, 31, 0⟩
def Fld.FIL_LINK_SPARE_E_EAST : Fld := ⟨0x20, 0x80, 18, 0⟩
def Fld.FIL_PERF_SEL : Fld := ⟨0x20, 0x84, 31, 0⟩
def Fld.FIL_PERF_SEL_EVENT : Fld := ⟨0x20, 0x84, 15, 8⟩
def Fld.FIL_PERF_SEL_RANKSEL : Fld := ⟨0x20, 0x84, 4, 0⟩
def Fld.FIL_PERF_LO : Fld := ⟨0x20, 0x88, 31, 0⟩
def Fld.FIL_PERF_HI : Fld := ⟨0x20, 0x8C, 31, 0⟩
def Fld.FIL_DETOUR : Fld := ⟨0x20, 0x90, 31, 0⟩
def Fld.FIL_DETOUR_EAST : Fld := ⟨0x20, 0x90, 18, 0⟩
def Fld.RSV_FLOOR : Fld := ⟨0x6, 0x40, 31, 0⟩
def Fld.RSV_FLOOR_PAGES : Fld := ⟨0x6, 0x40, 14, 0⟩
def Fld.RSV_USED : Fld := ⟨0x6, 0x44, 31, 0⟩
def Fld.RSV_USED_PAGES : Fld := ⟨0x6, 0x44, 14, 0⟩
def Fld.RSV_PINNED : Fld := ⟨0x6, 0x48, 31, 0⟩
def Fld.RSV_PINNED_PAGES : Fld := ⟨0x6, 0x48, 14, 0⟩
def Fld.RSV_POOL_FREE : Fld := ⟨0x6, 0x4C, 31, 0⟩
def Fld.RSV_POOL_FREE_PAGES : Fld := ⟨0x6, 0x4C, 14, 0⟩
def Fld.RSV_CMD : Fld := ⟨0x6, 0x50, 31, 0⟩
def Fld.RSV_CMD_OP : Fld := ⟨0x6, 0x50, 31, 28⟩
def Fld.RSV_CMD_SLICE : Fld := ⟨0x6, 0x50, 27, 24⟩
def Fld.RSV_CMD_HINT : Fld := ⟨0x6, 0x50, 23, 23⟩
def Fld.RSV_CMD_PAGE : Fld := ⟨0x6, 0x50, 13, 0⟩
def Fld.RSV_CMD_STS : Fld := ⟨0x6, 0x54, 31, 0⟩
def Fld.RSV_CMD_STS_STATUS : Fld := ⟨0x6, 0x54, 31, 16⟩
def Fld.RSV_CMD_STS_DONE : Fld := ⟨0x6, 0x54, 15, 15⟩
def Fld.RSV_CMD_STS_PAGE : Fld := ⟨0x6, 0x54, 13, 0⟩
def Fld.RSV_HIT : Fld := ⟨0x6, 0x58, 31, 0⟩
def Fld.RSV_MISS : Fld := ⟨0x6, 0x5C, 31, 0⟩
def Fld.RSV_EVICT : Fld := ⟨0x6, 0x60, 31, 0⟩
def Fld.RSV_FB_TILES : Fld := ⟨0x6, 0x64, 31, 0⟩
def Fld.RSV_DL_TIMEOUT : Fld := ⟨0x6, 0x68, 31, 0⟩
def Fld.RSV_FBV_CTL : Fld := ⟨0x6, 0x6C, 31, 0⟩
def Fld.RSV_FBV_CTL_HOLDOFF : Fld := ⟨0x6, 0x6C, 31, 16⟩
def Fld.RSV_FBV_CTL_WINDOW : Fld := ⟨0x6, 0x6C, 15, 8⟩
def Fld.RSV_FBV_CTL_LIMIT : Fld := ⟨0x6, 0x6C, 7, 0⟩
def Fld.RSV_FBV_SW : Fld := ⟨0x6, 0x70, 31, 0⟩
def Fld.RSV_NOALLOC : Fld := ⟨0x6, 0x74, 31, 0⟩
def Fld.MMU_ROOT_LO : Fld := ⟨0x8, 0x40, 31, 0⟩
def Fld.MMU_ROOT_LO_ADDR : Fld := ⟨0x8, 0x40, 31, 16⟩
def Fld.MMU_ROOT_LO_EN : Fld := ⟨0x8, 0x40, 0, 0⟩
def Fld.MMU_ROOT_HI : Fld := ⟨0x8, 0x44, 31, 0⟩
def Fld.MMU_ROOT_HI_ADDR : Fld := ⟨0x8, 0x44, 2, 0⟩
def Fld.MMU_INVAL_LO : Fld := ⟨0x8, 0x48, 31, 0⟩
def Fld.MMU_INVAL_LO_VA : Fld := ⟨0x8, 0x48, 31, 12⟩
def Fld.MMU_INVAL_LO_PAGES : Fld := ⟨0x8, 0x48, 11, 0⟩
def Fld.MMU_INVAL_HI : Fld := ⟨0x8, 0x4C, 31, 0⟩
def Fld.MMU_INVAL_HI_ALL : Fld := ⟨0x8, 0x4C, 31, 31⟩
def Fld.MMU_INVAL_HI_VA : Fld := ⟨0x8, 0x4C, 19, 0⟩
def Fld.MMU_INVAL_STS : Fld := ⟨0x8, 0x50, 31, 0⟩
def Fld.MMU_INVAL_STS_BUSY : Fld := ⟨0x8, 0x50, 0, 0⟩
def Fld.MMU_FAULT_LO : Fld := ⟨0x8, 0x54, 31, 0⟩
def Fld.MMU_FAULT_HI : Fld := ⟨0x8, 0x58, 31, 0⟩
def Fld.MMU_FAULT_HI_REQ : Fld := ⟨0x8, 0x58, 31, 28⟩
def Fld.MMU_FAULT_HI_CAUSE : Fld := ⟨0x8, 0x58, 27, 24⟩
def Fld.MMU_FAULT_HI_VA : Fld := ⟨0x8, 0x58, 19, 0⟩
def Fld.MMU_LOCK_CNT : Fld := ⟨0x8, 0x5C, 31, 0⟩
def Fld.MMU_LOCK_CNT_COUNT : Fld := ⟨0x8, 0x5C, 9, 0⟩
def Fld.MMU_EXTn_BASE : Fld := ⟨0x8, 0x60, 31, 0⟩
def Fld.MMU_EXTn_BASE_VALID : Fld := ⟨0x8, 0x60, 31, 31⟩
def Fld.MMU_EXTn_BASE_UNIT : Fld := ⟨0x8, 0x60, 13, 0⟩
def Fld.MMU_EXTn_LIMIT : Fld := ⟨0x8, 0x64, 31, 0⟩
def Fld.MMU_EXTn_LIMIT_UNIT : Fld := ⟨0x8, 0x64, 13, 0⟩
def Fld.MMU_WALKS : Fld := ⟨0x8, 0x80, 31, 0⟩
def Fld.MMU_MISS : Fld := ⟨0x8, 0x84, 31, 0⟩
def Fld.MEM_CTL : Fld := ⟨0x7, 0x40, 31, 0⟩
def Fld.MEM_CTL_DEMAND : Fld := ⟨0x7, 0x40, 2, 2⟩
def Fld.MEM_CTL_PATROL : Fld := ⟨0x7, 0x40, 1, 1⟩
def Fld.MEM_CTL_AUTORET : Fld := ⟨0x7, 0x40, 0, 0⟩
def Fld.MEM_SCRUB : Fld := ⟨0x7, 0x44, 31, 0⟩
def Fld.MEM_SCRUB_PERIOD : Fld := ⟨0x7, 0x44, 7, 0⟩
def Fld.MEM_SCRUB_POS : Fld := ⟨0x7, 0x48, 31, 0⟩
def Fld.MEM_SCRUB_POS_PASSES : Fld := ⟨0x7, 0x48, 31, 24⟩
def Fld.MEM_SCRUB_POS_UNIT : Fld := ⟨0x7, 0x48, 22, 0⟩
def Fld.MEM_PINRET : Fld := ⟨0x7, 0x4C, 31, 0⟩
def Fld.MEM_PINRET_WINDOW : Fld := ⟨0x7, 0x4C, 15, 8⟩
def Fld.MEM_PINRET_COUNT : Fld := ⟨0x7, 0x4C, 7, 0⟩
def Fld.MEM_CMD : Fld := ⟨0x7, 0x50, 31, 0⟩
def Fld.MEM_CMD_OP : Fld := ⟨0x7, 0x50, 31, 28⟩
def Fld.MEM_CMD_CHAN : Fld := ⟨0x7, 0x50, 26, 24⟩
def Fld.MEM_CMD_PIN : Fld := ⟨0x7, 0x50, 4, 0⟩
def Fld.MEM_CMD_STS : Fld := ⟨0x7, 0x54, 31, 0⟩
def Fld.MEM_CMD_STS_STATUS : Fld := ⟨0x7, 0x54, 31, 16⟩
def Fld.MEM_CMD_STS_DONE : Fld := ⟨0x7, 0x54, 15, 15⟩
def Fld.MEM_TEMP : Fld := ⟨0x7, 0x58, 31, 0⟩
def Fld.MEM_TEMP_HOT : Fld := ⟨0x7, 0x58, 15, 15⟩
def Fld.MEM_TEMP_HOTCH : Fld := ⟨0x7, 0x58, 10, 8⟩
def Fld.MEM_TEMP_MAXT : Fld := ⟨0x7, 0x58, 7, 0⟩
def Fld.MEM_TRAIN_STS : Fld := ⟨0x7, 0x5C, 31, 0⟩
def Fld.MEM_TRAIN_STS_FAILED : Fld := ⟨0x7, 0x5C, 23, 16⟩
def Fld.MEM_TRAIN_STS_DEGRADED : Fld := ⟨0x7, 0x5C, 15, 8⟩
def Fld.MEM_TRAIN_STS_TRAINED : Fld := ⟨0x7, 0x5C, 7, 0⟩
def Fld.MEM_CHn_ERR : Fld := ⟨0x7, 0x60, 31, 0⟩
def Fld.MEM_CHn_ERR_UE : Fld := ⟨0x7, 0x60, 31, 16⟩
def Fld.MEM_CHn_ERR_CE : Fld := ⟨0x7, 0x60, 15, 0⟩
def Fld.MEM_RETIREDn : Fld := ⟨0x7, 0x80, 31, 0⟩
def Fld.MEM_RETIREDn_CH1 : Fld := ⟨0x7, 0x80, 31, 16⟩
def Fld.MEM_RETIREDn_CH0 : Fld := ⟨0x7, 0x80, 15, 0⟩
def Fld.MEM_LAST_CE_LO : Fld := ⟨0x7, 0x90, 31, 0⟩
def Fld.MEM_LAST_CE_LO_UNIT : Fld := ⟨0x7, 0x90, 25, 0⟩
def Fld.MEM_LAST_CE_HI : Fld := ⟨0x7, 0x94, 31, 0⟩
def Fld.MEM_LAST_CE_HI_VALID : Fld := ⟨0x7, 0x94, 31, 31⟩
def Fld.MEM_LAST_CE_HI_CHAN : Fld := ⟨0x7, 0x94, 30, 28⟩
def Fld.MEM_LAST_CE_HI_CW : Fld := ⟨0x7, 0x94, 27, 24⟩
def Fld.MEM_LAST_CE_HI_MAXSYM : Fld := ⟨0x7, 0x94, 23, 20⟩
def Fld.MEM_LAST_CE_HI_SRC : Fld := ⟨0x7, 0x94, 19, 16⟩
def Fld.MEM_LAST_CE_PINS : Fld := ⟨0x7, 0x98, 31, 0⟩
def Fld.MEM_LAST_UE_LO : Fld := ⟨0x7, 0x9C, 31, 0⟩
def Fld.MEM_LAST_UE_LO_UNIT : Fld := ⟨0x7, 0x9C, 25, 0⟩
def Fld.MEM_LAST_UE_HI : Fld := ⟨0x7, 0xA0, 31, 0⟩
def Fld.MEM_LAST_UE_HI_VALID : Fld := ⟨0x7, 0xA0, 31, 31⟩
def Fld.MEM_LAST_UE_HI_CHAN : Fld := ⟨0x7, 0xA0, 30, 28⟩
def Fld.MEM_LAST_UE_HI_CW : Fld := ⟨0x7, 0xA0, 27, 24⟩
def Fld.MEM_LAST_UE_HI_SRC : Fld := ⟨0x7, 0xA0, 19, 16⟩
def Fld.DSP_QSEL : Fld := ⟨0x5, 0x40, 31, 0⟩
def Fld.DSP_QSEL_QUEUE : Fld := ⟨0x5, 0x40, 15, 0⟩
def Fld.DSP_QCMD : Fld := ⟨0x5, 0x44, 31, 0⟩
def Fld.DSP_QCMD_OP : Fld := ⟨0x5, 0x44, 31, 28⟩
def Fld.DSP_QCMD_STS : Fld := ⟨0x5, 0x48, 31, 0⟩
def Fld.DSP_QCMD_STS_STATUS : Fld := ⟨0x5, 0x48, 31, 16⟩
def Fld.DSP_QCMD_STS_DONE : Fld := ⟨0x5, 0x48, 15, 15⟩
def Fld.DSP_Q_CFG : Fld := ⟨0x5, 0x4C, 31, 0⟩
def Fld.DSP_Q_CFG_CLASS : Fld := ⟨0x5, 0x4C, 31, 30⟩
def Fld.DSP_Q_CFG_SQSZ : Fld := ⟨0x5, 0x4C, 29, 25⟩
def Fld.DSP_Q_CFG_CQSZ : Fld := ⟨0x5, 0x4C, 24, 20⟩
def Fld.DSP_Q_CFG_IEN : Fld := ⟨0x5, 0x4C, 11, 11⟩
def Fld.DSP_Q_CFG_VEC : Fld := ⟨0x5, 0x4C, 10, 0⟩
def Fld.DSP_Q_SQBASE_LO : Fld := ⟨0x5, 0x50, 31, 0⟩
def Fld.DSP_Q_SQBASE_HI : Fld := ⟨0x5, 0x54, 31, 0⟩
def Fld.DSP_Q_CQBASE_LO : Fld := ⟨0x5, 0x58, 31, 0⟩
def Fld.DSP_Q_CQBASE_HI : Fld := ⟨0x5, 0x5C, 31, 0⟩
def Fld.DSP_Q_MOD : Fld := ⟨0x5, 0x60, 31, 0⟩
def Fld.DSP_Q_MOD_TIME : Fld := ⟨0x5, 0x60, 25, 16⟩
def Fld.DSP_Q_MOD_COUNT : Fld := ⟨0x5, 0x60, 7, 0⟩
def Fld.DSP_Q_KFILES : Fld := ⟨0x5, 0x64, 31, 0⟩
def Fld.DSP_Q_KFILES_FILES : Fld := ⟨0x5, 0x64, 15, 0⟩
def Fld.DSP_Q_TIMEOUT : Fld := ⟨0x5, 0x68, 31, 0⟩
def Fld.DSP_Q_STS : Fld := ⟨0x5, 0x6C, 31, 0⟩
def Fld.DSP_Q_STS_INFLIGHT : Fld := ⟨0x5, 0x6C, 31, 16⟩
def Fld.DSP_Q_STS_ERRSRC : Fld := ⟨0x5, 0x6C, 7, 4⟩
def Fld.DSP_Q_STS_STATE : Fld := ⟨0x5, 0x6C, 2, 0⟩
def Fld.DSP_Q_SQHEAD : Fld := ⟨0x5, 0x70, 31, 0⟩
def Fld.DSP_Q_SQTAIL : Fld := ⟨0x5, 0x74, 31, 0⟩
def Fld.DSP_Q_CQTAIL : Fld := ⟨0x5, 0x78, 31, 0⟩
def Fld.DSP_QRANGE : Fld := ⟨0x5, 0x7C, 31, 0⟩
def Fld.DSP_QRANGE_KQ : Fld := ⟨0x5, 0x7C, 31, 24⟩
def Fld.DSP_QRANGE_QCOUNT : Fld := ⟨0x5, 0x7C, 16, 0⟩
def Fld.DSP_IRQVEC : Fld := ⟨0x5, 0x80, 31, 0⟩
def Fld.DSP_IRQVEC_FILEVEC : Fld := ⟨0x5, 0x80, 26, 16⟩
def Fld.DSP_IRQVEC_PAGEVEC : Fld := ⟨0x5, 0x80, 10, 0⟩
def Fld.DSP_CANCEL : Fld := ⟨0x5, 0x84, 31, 0⟩
def Fld.DSP_CANCEL_TCID : Fld := ⟨0x5, 0x84, 31, 16⟩
def Fld.DSP_CANCEL_TQ : Fld := ⟨0x5, 0x84, 15, 0⟩
def Fld.DSP_CANCEL_STS : Fld := ⟨0x5, 0x88, 31, 0⟩
def Fld.DSP_CANCEL_STS_STATUS : Fld := ⟨0x5, 0x88, 31, 16⟩
def Fld.DSP_CANCEL_STS_DONE : Fld := ⟨0x5, 0x88, 15, 15⟩
def Fld.DSP_CANCEL_STS_RESULT : Fld := ⟨0x5, 0x88, 1, 0⟩
def Fld.DSP_Q_GEN : Fld := ⟨0x5, 0x8C, 31, 0⟩
def Fld.DSP_EXCn : Fld := ⟨0x5, 0x90, 31, 0⟩
def Fld.DSP_STAT_SEL : Fld := ⟨0x5, 0xB0, 31, 0⟩
def Fld.DSP_STAT_SEL_STAT : Fld := ⟨0x5, 0xB0, 31, 28⟩
def Fld.DSP_STAT_SEL_QUEUE : Fld := ⟨0x5, 0xB0, 15, 0⟩
def Fld.DSP_STAT_LO : Fld := ⟨0x5, 0xB4, 31, 0⟩
def Fld.DSP_STAT_HI : Fld := ⟨0x5, 0xB8, 31, 0⟩
def Fld.DSP_KLAT_MAX : Fld := ⟨0x5, 0xBC, 31, 0⟩
def Fld.DSP_DB_DROP : Fld := ⟨0x5, 0xC0, 31, 0⟩
def Fld.DSP_DUP : Fld := ⟨0x5, 0xC4, 31, 0⟩
def Fld.PCI_PORTn : Fld := ⟨0x10, 0x40, 31, 0⟩
def Fld.PCI_PORTn_VFS : Fld := ⟨0x10, 0x40, 19, 16⟩
def Fld.PCI_PORTn_SPEED : Fld := ⟨0x10, 0x40, 11, 8⟩
def Fld.PCI_PORTn_WIDTH : Fld := ⟨0x10, 0x40, 4, 0⟩
def Fld.PCI_BIFUR : Fld := ⟨0x10, 0x50, 31, 0⟩
def Fld.PCI_BIFUR_MODE : Fld := ⟨0x10, 0x50, 1, 0⟩
def Fld.PCI_ERR : Fld := ⟨0x10, 0x54, 31, 0⟩
def Fld.PCI_ERR_UNCORR : Fld := ⟨0x10, 0x54, 31, 16⟩
def Fld.PCI_ERR_CORR : Fld := ⟨0x10, 0x54, 15, 0⟩
def Fld.DSP_SEQ_SEL : Fld := ⟨0x5, 0x100, 31, 0⟩
def Fld.DSP_SEQ_SEL_SET : Fld := ⟨0x5, 0x100, 13, 12⟩
def Fld.DSP_SEQ_SEL_INDEX : Fld := ⟨0x5, 0x100, 11, 0⟩
def Fld.DSP_SEQ_CMD : Fld := ⟨0x5, 0x104, 31, 0⟩
def Fld.DSP_SEQ_CMD_OP : Fld := ⟨0x5, 0x104, 31, 28⟩
def Fld.DSP_SEQ_CMD_TIER : Fld := ⟨0x5, 0x104, 27, 27⟩
def Fld.DSP_SEQ_CMD_STS : Fld := ⟨0x5, 0x108, 31, 0⟩
def Fld.DSP_SEQ_CMD_STS_STATUS : Fld := ⟨0x5, 0x108, 31, 16⟩
def Fld.DSP_SEQ_CMD_STS_DONE : Fld := ⟨0x5, 0x108, 15, 15⟩
def Fld.DSP_SEQ_VA_LO : Fld := ⟨0x5, 0x10C, 31, 0⟩
def Fld.DSP_SEQ_VA_HI : Fld := ⟨0x5, 0x110, 31, 0⟩
def Fld.DSP_SEQ_STS : Fld := ⟨0x5, 0x114, 31, 0⟩
def Fld.DSP_SEQ_STS_STATE : Fld := ⟨0x5, 0x114, 31, 28⟩
def Fld.DSP_SEQ_STS_PEND : Fld := ⟨0x5, 0x114, 27, 20⟩
def Fld.DSP_SEQ_STS_KHELD : Fld := ⟨0x5, 0x114, 19, 19⟩
def Fld.DSP_SEQ_GEN : Fld := ⟨0x5, 0x118, 31, 0⟩
def Fld.DSP_SEQ_SETCFG : Fld := ⟨0x5, 0x11C, 31, 0⟩
def Fld.DSP_SEQ_SETCFG_VALID : Fld := ⟨0x5, 0x11C, 31, 31⟩
def Fld.DSP_SEQ_SETCFG_SHADOW : Fld := ⟨0x5, 0x11C, 30, 30⟩
def Fld.DSP_SEQ_SETCFG_SLOTBLK : Fld := ⟨0x5, 0x11C, 27, 24⟩
def Fld.DSP_SEQ_SETCFG_LINES : Fld := ⟨0x5, 0x11C, 23, 0⟩
def Fld.DSP_SEQ_PARK_LO : Fld := ⟨0x5, 0x120, 31, 0⟩
def Fld.DSP_SEQ_PARK_LO_VA : Fld := ⟨0x5, 0x120, 31, 16⟩
def Fld.DSP_SEQ_PARK_HI : Fld := ⟨0x5, 0x124, 31, 0⟩
def Fld.DSP_SEQ_IDLE : Fld := ⟨0x5, 0x128, 31, 0⟩
def Fld.DSP_SEQ_IDLE_IDLE_R : Fld := ⟨0x5, 0x128, 31, 16⟩
def Fld.DSP_SEQ_IDLE_IDLE_S : Fld := ⟨0x5, 0x128, 15, 0⟩
def Fld.DSP_SEQ_SWOUT : Fld := ⟨0x5, 0x12C, 31, 0⟩
def Fld.DSP_SEQ_SWIN : Fld := ⟨0x5, 0x130, 31, 0⟩
def Fld.DSP_SEQ_SWCAN : Fld := ⟨0x5, 0x134, 31, 0⟩
def Fld.DSP_SEQ_GENMIS : Fld := ⟨0x5, 0x138, 31, 0⟩
def Fld.DSP_SEQ_TORN : Fld := ⟨0x5, 0x13C, 31, 0⟩
def Fld.DSP_ATT_CFG : Fld := ⟨0x5, 0x140, 31, 0⟩
def Fld.DSP_ATT_CFG_PARTPAGES : Fld := ⟨0x5, 0x140, 28, 16⟩
def Fld.DSP_ATT_CFG_SPLITB : Fld := ⟨0x5, 0x140, 11, 8⟩
def Fld.DSP_ATT_CFG_LAST : Fld := ⟨0x5, 0x140, 7, 4⟩
def Fld.DSP_ATT_CFG_RESCACHE : Fld := ⟨0x5, 0x140, 1, 1⟩
def Fld.DSP_ATT_EDGEn : Fld := ⟨0x5, 0x144, 31, 0⟩
def Fld.DSP_ATT_EDGEn_TOKENS : Fld := ⟨0x5, 0x144, 20, 0⟩
def Fld.DSP_ATT_PAGES : Fld := ⟨0x5, 0x184, 31, 0⟩
def Fld.DSP_ATT_SPLITS : Fld := ⟨0x5, 0x188, 31, 0⟩
def Fld.DSP_ATT_NOMERGE : Fld := ⟨0x5, 0x18C, 31, 0⟩
def Fld.EDG_RING_LO : Fld := ⟨0xF, 0x40, 31, 0⟩
def Fld.EDG_RING_LO_VA : Fld := ⟨0xF, 0x40, 31, 6⟩
def Fld.EDG_RING_HI : Fld := ⟨0xF, 0x44, 31, 0⟩
def Fld.EDG_RING_CFG : Fld := ⟨0xF, 0x48, 31, 0⟩
def Fld.EDG_RING_CFG_EN : Fld := ⟨0xF, 0x48, 31, 31⟩
def Fld.EDG_RING_CFG_CLASS : Fld := ⟨0xF, 0x48, 5, 4⟩
def Fld.EDG_RING_CFG_SZ : Fld := ⟨0xF, 0x48, 3, 0⟩
def Fld.EDG_TAIL : Fld := ⟨0xF, 0x4C, 31, 0⟩
def Fld.EDG_HEAD : Fld := ⟨0xF, 0x50, 31, 0⟩
def Fld.EDG_DONE : Fld := ⟨0xF, 0x54, 31, 0⟩
def Fld.EDG_MODE : Fld := ⟨0xF, 0x58, 31, 0⟩
def Fld.EDG_MODE_GENOK : Fld := ⟨0xF, 0x58, 0, 0⟩
def Fld.EDG_ACTIVE : Fld := ⟨0xF, 0x5C, 31, 0⟩
def Fld.EDG_ACTIVE_V0 : Fld := ⟨0xF, 0x5C, 31, 31⟩
def Fld.EDG_ACTIVE_F0 : Fld := ⟨0xF, 0x5C, 30, 24⟩
def Fld.EDG_ACTIVE_V1 : Fld := ⟨0xF, 0x5C, 23, 23⟩
def Fld.EDG_ACTIVE_F1 : Fld := ⟨0xF, 0x5C, 22, 16⟩
def Fld.EDG_OVERRUN : Fld := ⟨0xF, 0x60, 31, 0⟩
def Fld.EDG_BUSY : Fld := ⟨0xF, 0x64, 31, 0⟩
def Fld.EDG_RESIDUE : Fld := ⟨0xF, 0x68, 31, 0⟩
def Fld.CSI_PORTn_CFG : Fld := ⟨0x12, 0x40, 31, 0⟩
def Fld.CSI_PORTn_CFG_EN : Fld := ⟨0x12, 0x40, 31, 31⟩
def Fld.CSI_PORTn_CFG_RATE : Fld := ⟨0x12, 0x40, 18, 8⟩
def Fld.CSI_PORTn_CFG_LANES : Fld := ⟨0x12, 0x40, 2, 0⟩
def Fld.CSI_PORTn_STS : Fld := ⟨0x12, 0x50, 31, 0⟩
def Fld.CSI_PORTn_STS_STATE : Fld := ⟨0x12, 0x50, 31, 28⟩
def Fld.CSI_PORTn_STS_ECCUNC : Fld := ⟨0x12, 0x50, 15, 8⟩
def Fld.CSI_PORTn_STS_ECCCOR : Fld := ⟨0x12, 0x50, 7, 0⟩
def Fld.CSI_VCSEL : Fld := ⟨0x12, 0x60, 31, 0⟩
def Fld.CSI_VCSEL_VC : Fld := ⟨0x12, 0x60, 3, 0⟩
def Fld.CSI_VC_CFG : Fld := ⟨0x12, 0x64, 31, 0⟩
def Fld.CSI_VC_CFG_EN : Fld := ⟨0x12, 0x64, 31, 31⟩
def Fld.CSI_VC_CFG_PORT : Fld := ⟨0x12, 0x64, 27, 26⟩
def Fld.CSI_VC_CFG_CVC : Fld := ⟨0x12, 0x64, 23, 20⟩
def Fld.CSI_VC_CFG_DT : Fld := ⟨0x12, 0x64, 19, 14⟩
def Fld.CSI_VC_CFG_PART : Fld := ⟨0x12, 0x64, 13, 8⟩
def Fld.CSI_VC_CFG_TRIG : Fld := ⟨0x12, 0x64, 7, 4⟩
def Fld.CSI_VC_CFG_TRIGEN : Fld := ⟨0x12, 0x64, 3, 3⟩
def Fld.CSI_VC_GEOM : Fld := ⟨0x12, 0x68, 31, 0⟩
def Fld.CSI_VC_GEOM_HEIGHT : Fld := ⟨0x12, 0x68, 31, 16⟩
def Fld.CSI_VC_GEOM_WIDTH : Fld := ⟨0x12, 0x68, 15, 0⟩
def Fld.CSI_VC_PB_LO : Fld := ⟨0x12, 0x6C, 31, 0⟩
def Fld.CSI_VC_PB_LO_VA : Fld := ⟨0x12, 0x6C, 31, 6⟩
def Fld.CSI_VC_PB_HI : Fld := ⟨0x12, 0x70, 31, 0⟩
def Fld.CSI_VC_PB_HI_VA : Fld := ⟨0x12, 0x70, 19, 0⟩
def Fld.CSI_VC_STS : Fld := ⟨0x12, 0x74, 31, 0⟩
def Fld.CSI_VC_STS_PBSTATUS : Fld := ⟨0x12, 0x74, 31, 16⟩
def Fld.CSI_VC_STS_PBVALID : Fld := ⟨0x12, 0x74, 15, 15⟩
def Fld.CSI_VC_FRAMES : Fld := ⟨0x12, 0x78, 31, 0⟩
def Fld.CSI_VC_DROP : Fld := ⟨0x12, 0x7C, 31, 0⟩
def Fld.CSI_VC_CRC : Fld := ⟨0x12, 0x80, 31, 0⟩
def Fld.INP_CMD : Fld := ⟨0xE, 0x40, 31, 0⟩
def Fld.INP_CMD_OP : Fld := ⟨0xE, 0x40, 31, 28⟩
def Fld.INP_CMD_INDEX : Fld := ⟨0xE, 0x40, 5, 0⟩
def Fld.INP_CMD_STS : Fld := ⟨0xE, 0x44, 31, 0⟩
def Fld.INP_CMD_STS_STATUS : Fld := ⟨0xE, 0x44, 31, 16⟩
def Fld.INP_CMD_STS_DONE : Fld := ⟨0xE, 0x44, 15, 15⟩
def Fld.INP_CMD_STS_INDEX : Fld := ⟨0xE, 0x44, 5, 0⟩
def Fld.INP_CMD_VA_LO : Fld := ⟨0xE, 0x48, 31, 0⟩
def Fld.INP_CMD_VA_HI : Fld := ⟨0xE, 0x4C, 31, 0⟩
def Fld.INP_SEL : Fld := ⟨0xE, 0x50, 31, 0⟩
def Fld.INP_SEL_KIND : Fld := ⟨0xE, 0x50, 8, 8⟩
def Fld.INP_SEL_INDEX : Fld := ⟨0xE, 0x50, 5, 0⟩
def Fld.INP_BQ_STS : Fld := ⟨0xE, 0x54, 31, 0⟩
def Fld.INP_BQ_STS_STATE : Fld := ⟨0xE, 0x54, 31, 28⟩
def Fld.INP_BQ_STS_READY : Fld := ⟨0xE, 0x54, 23, 16⟩
def Fld.INP_BQ_AUGTAIL : Fld := ⟨0xE, 0x58, 31, 0⟩
def Fld.INP_BQ_DROP : Fld := ⟨0xE, 0x5C, 31, 0⟩
def Fld.INP_BQ_DROP_BP : Fld := ⟨0xE, 0x5C, 31, 16⟩
def Fld.INP_BQ_DROP_SKIP : Fld := ⟨0xE, 0x5C, 15, 0⟩
def Fld.INP_BQ_AUGID : Fld := ⟨0xE, 0x60, 31, 0⟩
def Fld.INP_SESS_TAIL : Fld := ⟨0xE, 0x64, 31, 0⟩
def Fld.INP_SESS_STS : Fld := ⟨0xE, 0x68, 31, 0⟩
def Fld.INP_SESS_STS_STATE : Fld := ⟨0xE, 0x68, 31, 28⟩
def Fld.INP_SESS_STS_STATUS : Fld := ⟨0xE, 0x68, 15, 0⟩
def Fld.INP_SESS_CONC : Fld := ⟨0xE, 0x6C, 31, 0⟩
def Fld.INP_SESS_LOST : Fld := ⟨0xE, 0x70, 31, 0⟩
def Fld.INP_DEC_LOAD : Fld := ⟨0xE, 0x74, 31, 0⟩
def Fld.INP_DEC_LOAD_MPIX : Fld := ⟨0xE, 0x74, 11, 0⟩
def Fld.FUS_CTL : Fld := ⟨0xD, 0x40, 31, 0⟩
def Fld.FUS_CTL_KCLASS : Fld := ⟨0xD, 0x40, 8, 8⟩
def Fld.FUS_CTL_TRIG : Fld := ⟨0xD, 0x40, 7, 4⟩
def Fld.FUS_CTL_TSRC : Fld := ⟨0xD, 0x40, 0, 0⟩
def Fld.FUS_PERIOD : Fld := ⟨0xD, 0x44, 31, 0⟩
def Fld.FUS_PERIOD_US : Fld := ⟨0xD, 0x44, 19, 0⟩
def Fld.FUS_PB_LO : Fld := ⟨0xD, 0x48, 31, 0⟩
def Fld.FUS_PB_HI : Fld := ⟨0xD, 0x4C, 31, 0⟩
def Fld.FUS_OUT_LO : Fld := ⟨0xD, 0x50, 31, 0⟩
def Fld.FUS_OUT_HI : Fld := ⟨0xD, 0x54, 31, 0⟩
def Fld.FUS_OUT_CFG : Fld := ⟨0xD, 0x58, 31, 0⟩
def Fld.FUS_OUT_CFG_EN : Fld := ⟨0xD, 0x58, 31, 31⟩
def Fld.FUS_OUT_CFG_TENT : Fld := ⟨0xD, 0x58, 30, 30⟩
def Fld.FUS_OUT_CFG_PART : Fld := ⟨0xD, 0x58, 29, 24⟩
def Fld.FUS_OUT_CFG_SZ : Fld := ⟨0xD, 0x58, 23, 20⟩
def Fld.FUS_OUT_CFG_MAXOUT : Fld := ⟨0xD, 0x58, 12, 0⟩
def Fld.FUS_OUT_SEQ : Fld := ⟨0xD, 0x5C, 31, 0⟩
def Fld.FUS_EVT_LO : Fld := ⟨0xD, 0x60, 31, 0⟩
def Fld.FUS_EVT_HI : Fld := ⟨0xD, 0x64, 31, 0⟩
def Fld.FUS_EVT_CFG : Fld := ⟨0xD, 0x68, 31, 0⟩
def Fld.FUS_EVT_CFG_EN : Fld := ⟨0xD, 0x68, 31, 31⟩
def Fld.FUS_EVT_CFG_PART : Fld := ⟨0xD, 0x68, 29, 24⟩
def Fld.FUS_EVT_CFG_SZ : Fld := ⟨0xD, 0x68, 3, 0⟩
def Fld.FUS_EVT_WRITTEN : Fld := ⟨0xD, 0x6C, 31, 0⟩
def Fld.FUS_SRCSEL : Fld := ⟨0xD, 0x70, 31, 0⟩
def Fld.FUS_SRCSEL_SRC : Fld := ⟨0xD, 0x70, 4, 0⟩
def Fld.FUS_SRC_CFG : Fld := ⟨0xD, 0x74, 31, 0⟩
def Fld.FUS_SRC_CFG_EN : Fld := ⟨0xD, 0x74, 31, 31⟩
def Fld.FUS_SRC_CFG_KIND : Fld := ⟨0xD, 0x74, 29, 28⟩
def Fld.FUS_SRC_CFG_PART : Fld := ⟨0xD, 0x74, 21, 16⟩
def Fld.FUS_SRC_CFG_SZ : Fld := ⟨0xD, 0x74, 3, 0⟩
def Fld.FUS_SRC_RING_LO : Fld := ⟨0xD, 0x78, 31, 0⟩
def Fld.FUS_SRC_RING_HI : Fld := ⟨0xD, 0x7C, 31, 0⟩
def Fld.FUS_SRC_PB_LO : Fld := ⟨0xD, 0x80, 31, 0⟩
def Fld.FUS_SRC_PB_HI : Fld := ⟨0xD, 0x84, 31, 0⟩
def Fld.FUS_SRC_STS : Fld := ⟨0xD, 0x88, 31, 0⟩
def Fld.FUS_SRC_STS_STATE : Fld := ⟨0xD, 0x88, 31, 28⟩
def Fld.FUS_SRC_STS_CALGEN : Fld := ⟨0xD, 0x88, 27, 16⟩
def Fld.FUS_SRC_STS_STATUS : Fld := ⟨0xD, 0x88, 15, 0⟩
def Fld.FUS_SRC_HEAD : Fld := ⟨0xD, 0x8C, 31, 0⟩
def Fld.FUS_CMD : Fld := ⟨0xD, 0x90, 31, 0⟩
def Fld.FUS_CMD_OP : Fld := ⟨0xD, 0x90, 31, 28⟩
def Fld.FUS_CMD_SRC : Fld := ⟨0xD, 0x90, 16, 12⟩
def Fld.FUS_CMD_TRACK : Fld := ⟨0xD, 0x90, 11, 0⟩
def Fld.FUS_CMD_STS : Fld := ⟨0xD, 0x94, 31, 0⟩
def Fld.FUS_CMD_STS_STATUS : Fld := ⟨0xD, 0x94, 31, 16⟩
def Fld.FUS_CMD_STS_DONE : Fld := ⟨0xD, 0x94, 15, 15⟩
def Fld.FUS_CMD_VA_LO : Fld := ⟨0xD, 0x98, 31, 0⟩
def Fld.FUS_CMD_VA_HI : Fld := ⟨0xD, 0x9C, 31, 0⟩
def Fld.FUS_SLIP : Fld := ⟨0xD, 0xA0, 31, 0⟩
def Fld.FUS_TRKS : Fld := ⟨0xD, 0xA4, 31, 0⟩
def Fld.FUS_TRKS_CONF : Fld := ⟨0xD, 0xA4, 28, 16⟩
def Fld.FUS_TRKS_TENT : Fld := ⟨0xD, 0xA4, 12, 0⟩
def Fld.FUS_OVERRUN : Fld := ⟨0xD, 0xA8, 31, 0⟩
def Fld.FUS_SUPERSEDED : Fld := ⟨0xD, 0xAC, 31, 0⟩
def Fld.FUS_NOSLOT : Fld := ⟨0xD, 0xB0, 31, 0⟩
def Fld.FUS_AUCLIM : Fld := ⟨0xD, 0xB4, 31, 0⟩
def Fld.FUS_OOS : Fld := ⟨0xD, 0xB8, 31, 0⟩
def Fld.FUS_TAILn : Fld := ⟨0xD, 0x100, 31, 0⟩
def Fld.KNT_MAP_CFG : Fld := ⟨0xB, 0x40, 31, 0⟩
def Fld.KNT_MAP_CFG_UNKOBS : Fld := ⟨0xB, 0x40, 12, 12⟩
def Fld.KNT_MAP_CFG_NZB : Fld := ⟨0xB, 0x40, 11, 8⟩
def Fld.KNT_MAP_CFG_NYB : Fld := ⟨0xB, 0x40, 7, 4⟩
def Fld.KNT_MAP_CFG_NXB : Fld := ⟨0xB, 0x40, 3, 0⟩
def Fld.KNT_MAP_VOX : Fld := ⟨0xB, 0x44, 31, 0⟩
def Fld.KNT_MAP_ORGX : Fld := ⟨0xB, 0x48, 31, 0⟩
def Fld.KNT_MAP_ORGY : Fld := ⟨0xB, 0x4C, 31, 0⟩
def Fld.KNT_MAP_ORGZ : Fld := ⟨0xB, 0x50, 31, 0⟩
def Fld.KNT_MAP_CMD : Fld := ⟨0xB, 0x54, 31, 0⟩
def Fld.KNT_MAP_CMD_OP : Fld := ⟨0xB, 0x54, 31, 28⟩
def Fld.KNT_MAP_CMD_STS : Fld := ⟨0xB, 0x58, 31, 0⟩
def Fld.KNT_MAP_CMD_STS_STATUS : Fld := ⟨0xB, 0x58, 31, 16⟩
def Fld.KNT_MAP_CMD_STS_DONE : Fld := ⟨0xB, 0x58, 15, 15⟩
def Fld.KNT_MAP_VA_LO : Fld := ⟨0xB, 0x5C, 31, 0⟩
def Fld.KNT_MAP_VA_HI : Fld := ⟨0xB, 0x60, 31, 0⟩
def Fld.KNT_VER_SEL : Fld := ⟨0xB, 0x64, 31, 0⟩
def Fld.KNT_VER_SEL_REGION : Fld := ⟨0xB, 0x64, 8, 0⟩
def Fld.KNT_VER : Fld := ⟨0xB, 0x68, 31, 0⟩
def Fld.KNT_RING_LO : Fld := ⟨0xB, 0x6C, 31, 0⟩
def Fld.KNT_RING_HI : Fld := ⟨0xB, 0x70, 31, 0⟩
def Fld.KNT_RING_CFG : Fld := ⟨0xB, 0x74, 31, 0⟩
def Fld.KNT_RING_CFG_EN : Fld := ⟨0xB, 0x74, 31, 31⟩
def Fld.KNT_RING_CFG_CLASS : Fld := ⟨0xB, 0x74, 5, 4⟩
def Fld.KNT_RING_CFG_SZ : Fld := ⟨0xB, 0x74, 3, 0⟩
def Fld.KNT_TAIL : Fld := ⟨0xB, 0x78, 31, 0⟩
def Fld.KNT_HEAD : Fld := ⟨0xB, 0x7C, 31, 0⟩
def Fld.KNT_DONE : Fld := ⟨0xB, 0x80, 31, 0⟩
def Fld.KNT_ACTIVE : Fld := ⟨0xB, 0x84, 31, 0⟩
def Fld.KNT_ACTIVE_V0 : Fld := ⟨0xB, 0x84, 31, 31⟩
def Fld.KNT_ACTIVE_F0 : Fld := ⟨0xB, 0x84, 30, 24⟩
def Fld.KNT_ACTIVE_V1 : Fld := ⟨0xB, 0x84, 23, 23⟩
def Fld.KNT_ACTIVE_F1 : Fld := ⟨0xB, 0x84, 22, 16⟩
def Fld.KNT_WATCH_LEAD : Fld := ⟨0xB, 0x88, 31, 0⟩
def Fld.KNT_WATCH_LEAD_US : Fld := ⟨0xB, 0x88, 19, 0⟩
def Fld.KNT_WATCH_CMD : Fld := ⟨0xB, 0x8C, 31, 0⟩
def Fld.KNT_WATCH_CMD_SLOT : Fld := ⟨0xB, 0x8C, 1, 0⟩
def Fld.KNT_WATCH_STS : Fld := ⟨0xB, 0x90, 31, 0⟩
def Fld.KNT_WATCH_STS_ACTIVE : Fld := ⟨0xB, 0x90, 31, 28⟩
def Fld.KNT_CHECKS : Fld := ⟨0xB, 0x94, 31, 0⟩
def Fld.KNT_REPAIRS : Fld := ⟨0xB, 0x98, 31, 0⟩
def Fld.KNT_MAPCHG : Fld := ⟨0xB, 0x9C, 31, 0⟩
def Fld.KNT_RESIDUE : Fld := ⟨0xB, 0xA0, 31, 0⟩
def Fld.SLV_RING_LO : Fld := ⟨0xC, 0x40, 31, 0⟩
def Fld.SLV_RING_LO_VA : Fld := ⟨0xC, 0x40, 31, 6⟩
def Fld.SLV_RING_HI : Fld := ⟨0xC, 0x44, 31, 0⟩
def Fld.SLV_RING_CFG : Fld := ⟨0xC, 0x48, 31, 0⟩
def Fld.SLV_RING_CFG_EN : Fld := ⟨0xC, 0x48, 31, 31⟩
def Fld.SLV_RING_CFG_CLASS : Fld := ⟨0xC, 0x48, 5, 4⟩
def Fld.SLV_RING_CFG_SZ : Fld := ⟨0xC, 0x48, 3, 0⟩
def Fld.SLV_TAIL : Fld := ⟨0xC, 0x4C, 31, 0⟩
def Fld.SLV_HEAD : Fld := ⟨0xC, 0x50, 31, 0⟩
def Fld.SLV_DONE : Fld := ⟨0xC, 0x54, 31, 0⟩
def Fld.SLV_ACTIVE : Fld := ⟨0xC, 0x58, 31, 0⟩
def Fld.SLV_ACTIVE_V0 : Fld := ⟨0xC, 0x58, 31, 31⟩
def Fld.SLV_ACTIVE_F0 : Fld := ⟨0xC, 0x58, 30, 24⟩
def Fld.SLV_ACTIVE_V1 : Fld := ⟨0xC, 0x58, 23, 23⟩
def Fld.SLV_ACTIVE_F1 : Fld := ⟨0xC, 0x58, 22, 16⟩
def Fld.SLV_CAL_LO : Fld := ⟨0xC, 0x5C, 31, 0⟩
def Fld.SLV_CAL_LO_VA : Fld := ⟨0xC, 0x5C, 31, 21⟩
def Fld.SLV_CAL_LO_EN : Fld := ⟨0xC, 0x5C, 0, 0⟩
def Fld.SLV_CAL_HI : Fld := ⟨0xC, 0x60, 31, 0⟩
def Fld.SLV_TRIALS : Fld := ⟨0xC, 0x64, 31, 0⟩
def Fld.SLV_FAILS : Fld := ⟨0xC, 0x68, 31, 0⟩
def Fld.SLV_RESIDUE : Fld := ⟨0xC, 0x6C, 31, 0⟩
def Fld.TMP_CYCLE : Fld := ⟨0x9, 0x40, 31, 0⟩
def Fld.TMP_CYCLE_NS : Fld := ⟨0x9, 0x40, 21, 0⟩
def Fld.TMP_EPOCH_LO : Fld := ⟨0x9, 0x44, 31, 0⟩
def Fld.TMP_EPOCH_HI : Fld := ⟨0x9, 0x48, 31, 0⟩
def Fld.TMP_RTTMAX : Fld := ⟨0x9, 0x4C, 31, 0⟩
def Fld.TMP_RTTMAX_NS : Fld := ⟨0x9, 0x4C, 19, 0⟩
def Fld.TMP_CMD : Fld := ⟨0x9, 0x50, 31, 0⟩
def Fld.TMP_CMD_OP : Fld := ⟨0x9, 0x50, 31, 28⟩
def Fld.TMP_CMD_LOOP : Fld := ⟨0x9, 0x50, 27, 26⟩
def Fld.TMP_CMD_STS : Fld := ⟨0x9, 0x54, 31, 0⟩
def Fld.TMP_CMD_STS_STATUS : Fld := ⟨0x9, 0x54, 31, 16⟩
def Fld.TMP_CMD_STS_DONE : Fld := ⟨0x9, 0x54, 15, 15⟩
def Fld.TMP_CMD_VA_LO : Fld := ⟨0x9, 0x58, 31, 0⟩
def Fld.TMP_CMD_VA_LO_VA : Fld := ⟨0x9, 0x58, 31, 6⟩
def Fld.TMP_CMD_VA_HI : Fld := ⟨0x9, 0x5C, 31, 0⟩
def Fld.TMP_CYCNT : Fld := ⟨0x9, 0x60, 31, 0⟩
def Fld.TMP_SLACK : Fld := ⟨0x9, 0x64, 31, 0⟩
def Fld.TMP_FREE : Fld := ⟨0x9, 0x68, 31, 0⟩
def Fld.TMP_FREE_WORDS : Fld := ⟨0x9, 0x68, 16, 0⟩
def Fld.TMP_MISMATCH : Fld := ⟨0x9, 0x6C, 31, 0⟩
def Fld.TMP_MISMATCH_DOUBLE : Fld := ⟨0x9, 0x6C, 31, 16⟩
def Fld.TMP_MISMATCH_SINGLE : Fld := ⟨0x9, 0x6C, 15, 0⟩
def Fld.TMP_CAP_CFG : Fld := ⟨0x9, 0x70, 31, 0⟩
def Fld.TMP_CAP_CFG_RUN : Fld := ⟨0x9, 0x70, 31, 31⟩
def Fld.TMP_CAP_CFG_LOOP : Fld := ⟨0x9, 0x70, 30, 29⟩
def Fld.TMP_CAP_CFG_WRAP : Fld := ⟨0x9, 0x70, 28, 28⟩
def Fld.TMP_CAP_CFG_ONINJ : Fld := ⟨0x9, 0x70, 27, 27⟩
def Fld.TMP_CAP_CFG_COUNT : Fld := ⟨0x9, 0x70, 16, 0⟩
def Fld.TMP_CAP_SELn : Fld := ⟨0x9, 0x74, 31, 0⟩
def Fld.TMP_CAP_SELn_CH1 : Fld := ⟨0x9, 0x74, 31, 16⟩
def Fld.TMP_CAP_SELn_CH0 : Fld := ⟨0x9, 0x74, 15, 0⟩
def Fld.TMP_CAP_VA_LO : Fld := ⟨0x9, 0x84, 31, 0⟩
def Fld.TMP_CAP_VA_LO_VA : Fld := ⟨0x9, 0x84, 31, 6⟩
def Fld.TMP_CAP_VA_HI : Fld := ⟨0x9, 0x88, 31, 0⟩
def Fld.TMP_CAP_WRITTEN : Fld := ⟨0x9, 0x8C, 31, 0⟩
def Fld.TMP_MBX_COMMIT : Fld := ⟨0x9, 0x90, 31, 0⟩
def Fld.TMP_MBX_COMMIT_LOOPS : Fld := ⟨0x9, 0x90, 3, 0⟩
def Fld.TMP_Ln_CFG : Fld := ⟨0x9, 0x100, 31, 0⟩
def Fld.TMP_Ln_CFG_MISSACT : Fld := ⟨0x9, 0x100, 18, 18⟩
def Fld.TMP_Ln_CFG_MBXACT : Fld := ⟨0x9, 0x100, 17, 17⟩
def Fld.TMP_Ln_CFG_OSCACT : Fld := ⟨0x9, 0x100, 16, 16⟩
def Fld.TMP_Ln_CFG_PHASE : Fld := ⟨0x9, 0x100, 13, 8⟩
def Fld.TMP_Ln_CFG_DIV : Fld := ⟨0x9, 0x100, 7, 0⟩
def Fld.TMP_Ln_STS : Fld := ⟨0x9, 0x104, 31, 0⟩
def Fld.TMP_Ln_STS_STATE : Fld := ⟨0x9, 0x104, 31, 28⟩
def Fld.TMP_Ln_STS_PLOAD : Fld := ⟨0x9, 0x104, 27, 27⟩
def Fld.TMP_Ln_STS_SLOAD : Fld := ⟨0x9, 0x104, 26, 26⟩
def Fld.TMP_Ln_STS_BANK : Fld := ⟨0x9, 0x104, 25, 25⟩
def Fld.TMP_Ln_STS_INJ : Fld := ⟨0x9, 0x104, 24, 24⟩
def Fld.TMP_Ln_STS_SAFECAUSE : Fld := ⟨0x9, 0x104, 23, 20⟩
def Fld.TMP_Ln_STS_OSCOUT : Fld := ⟨0x9, 0x104, 5, 0⟩
def Fld.TMP_Ln_OSC : Fld := ⟨0x9, 0x108, 31, 0⟩
def Fld.TMP_Ln_OSC_NCROSS : Fld := ⟨0x9, 0x108, 31, 24⟩
def Fld.TMP_Ln_OSC_WIN : Fld := ⟨0x9, 0x108, 11, 0⟩
def Fld.TMP_Ln_AMIN : Fld := ⟨0x9, 0x10C, 31, 0⟩
def Fld.TMP_Ln_AMIN_AMIN : Fld := ⟨0x9, 0x10C, 30, 0⟩
def Fld.TMP_Ln_GUARD : Fld := ⟨0x9, 0x110, 31, 0⟩
def Fld.TMP_Ln_GUARD_MISSMAX : Fld := ⟨0x9, 0x110, 31, 16⟩
def Fld.TMP_Ln_GUARD_MBXMAX : Fld := ⟨0x9, 0x110, 15, 0⟩
def Fld.TMP_Ln_TCOMP : Fld := ⟨0x9, 0x114, 31, 0⟩
def Fld.TMP_Ln_TCOMP_VALUE : Fld := ⟨0x9, 0x114, 15, 0⟩
def Fld.TMP_Ln_MBXAGE : Fld := ⟨0x9, 0x118, 31, 0⟩
def Fld.TMP_Ln_MBXAGE_VALUE : Fld := ⟨0x9, 0x118, 15, 0⟩
def Fld.TMP_Ln_SAT : Fld := ⟨0x9, 0x11C, 31, 0⟩
def Fld.TMP_Ln_LATE : Fld := ⟨0x9, 0x120, 31, 0⟩
def Fld.TMP_Ln_OVERRUN : Fld := ⟨0x9, 0x124, 31, 0⟩
def Fld.TMP_Ln_MBXCNT : Fld := ⟨0x9, 0x128, 31, 0⟩
def Fld.TMP_MBXn : Fld := ⟨0x9, 0x1000, 31, 0⟩
def Fld.JRG_CFG : Fld := ⟨0xA, 0x40, 31, 0⟩
def Fld.JRG_CFG_NEXTQ : Fld := ⟨0xA, 0x40, 31, 16⟩
def Fld.JRG_CFG_NEXT : Fld := ⟨0xA, 0x40, 8, 8⟩
def Fld.JRG_CFG_MODE : Fld := ⟨0xA, 0x40, 1, 0⟩
def Fld.JRG_ETYPE : Fld := ⟨0xA, 0x44, 31, 0⟩
def Fld.JRG_ETYPE_ETYPE : Fld := ⟨0xA, 0x44, 15, 0⟩
def Fld.JRG_NODE : Fld := ⟨0xA, 0x48, 31, 0⟩
def Fld.JRG_NODE_DNDLY : Fld := ⟨0xA, 0x48, 31, 16⟩
def Fld.JRG_NODE_ADDR : Fld := ⟨0xA, 0x48, 15, 0⟩
def Fld.JRG_WAKEID : Fld := ⟨0xA, 0x4C, 31, 0⟩
def Fld.JRG_CMD : Fld := ⟨0xA, 0x50, 31, 0⟩
def Fld.JRG_CMD_OP : Fld := ⟨0xA, 0x50, 31, 28⟩
def Fld.JRG_CMD_STS : Fld := ⟨0xA, 0x54, 31, 0⟩
def Fld.JRG_CMD_STS_STATUS : Fld := ⟨0xA, 0x54, 31, 16⟩
def Fld.JRG_CMD_STS_DONE : Fld := ⟨0xA, 0x54, 15, 15⟩
def Fld.JRG_CMD_VA_LO : Fld := ⟨0xA, 0x58, 31, 0⟩
def Fld.JRG_CMD_VA_HI : Fld := ⟨0xA, 0x5C, 31, 0⟩
def Fld.JRG_STS : Fld := ⟨0xA, 0x60, 31, 0⟩
def Fld.JRG_STS_BREAK : Fld := ⟨0xA, 0x60, 31, 24⟩
def Fld.JRG_STS_NDG : Fld := ⟨0xA, 0x60, 23, 16⟩
def Fld.JRG_STS_OPEN : Fld := ⟨0xA, 0x60, 7, 7⟩
def Fld.JRG_STS_LOOP1 : Fld := ⟨0xA, 0x60, 6, 6⟩
def Fld.JRG_STS_LOOP0 : Fld := ⟨0xA, 0x60, 5, 5⟩
def Fld.JRG_STS_LINK1 : Fld := ⟨0xA, 0x60, 3, 3⟩
def Fld.JRG_STS_LINK0 : Fld := ⟨0xA, 0x60, 2, 2⟩
def Fld.JRG_STS_MODE : Fld := ⟨0xA, 0x60, 1, 0⟩
def Fld.JRG_SEQ : Fld := ⟨0xA, 0x64, 31, 0⟩
def Fld.JRG_WKCFAIL_LO : Fld := ⟨0xA, 0x68, 31, 0⟩
def Fld.JRG_WKCFAIL_HI : Fld := ⟨0xA, 0x6C, 31, 0⟩
def Fld.JRG_LOOPT : Fld := ⟨0xA, 0x70, 31, 0⟩
def Fld.JRG_FRAMES : Fld := ⟨0xA, 0x74, 31, 0⟩
def Fld.JRG_LATE : Fld := ⟨0xA, 0x78, 31, 0⟩
def Fld.JRG_CRCERR : Fld := ⟨0xA, 0x7C, 31, 0⟩
def Fld.JRG_STALE : Fld := ⟨0xA, 0x80, 31, 0⟩
def Fld.JRG_TXIMG : Fld := ⟨0xA, 0x1000, 31, 0⟩
def Fld.JRG_RXIMG : Fld := ⟨0xA, 0x2000, 31, 0⟩
def Fld.TMB_TIME_LO : Fld := ⟨0x4, 0x40, 31, 0⟩
def Fld.TMB_TIME_HI : Fld := ⟨0x4, 0x44, 31, 0⟩
def Fld.TMB_TIME_FRAC : Fld := ⟨0x4, 0x48, 31, 0⟩
def Fld.TMB_INCR_FRAC : Fld := ⟨0x4, 0x4C, 31, 0⟩
def Fld.TMB_INCR_INT : Fld := ⟨0x4, 0x50, 31, 0⟩
def Fld.TMB_STEP_LO : Fld := ⟨0x4, 0x54, 31, 0⟩
def Fld.TMB_STEP_HI : Fld := ⟨0x4, 0x58, 31, 0⟩
def Fld.TMB_STEP_STS : Fld := ⟨0x4, 0x5C, 31, 0⟩
def Fld.TMB_STEP_STS_STATUS : Fld := ⟨0x4, 0x5C, 31, 16⟩
def Fld.TMB_STEP_STS_DONE : Fld := ⟨0x4, 0x5C, 15, 15⟩
def Fld.TMB_SRC_CFG : Fld := ⟨0x4, 0x60, 31, 0⟩
def Fld.TMB_SRC_CFG_QUAL : Fld := ⟨0x4, 0x60, 31, 24⟩
def Fld.TMB_SRC_CFG_LOSSTO : Fld := ⟨0x4, 0x60, 23, 16⟩
def Fld.TMB_SRC_CFG_TC : Fld := ⟨0x4, 0x60, 15, 12⟩
def Fld.TMB_SRC_CFG_PTPROLE : Fld := ⟨0x4, 0x60, 9, 8⟩
def Fld.TMB_SRC_CFG_PTPPORT : Fld := ⟨0x4, 0x60, 7, 7⟩
def Fld.TMB_SRC_CFG_RINGEN : Fld := ⟨0x4, 0x60, 6, 6⟩
def Fld.TMB_SRC_STS : Fld := ⟨0x4, 0x64, 31, 0⟩
def Fld.TMB_SRC_STS_SRC : Fld := ⟨0x4, 0x64, 31, 28⟩
def Fld.TMB_SRC_STS_STATE : Fld := ⟨0x4, 0x64, 27, 24⟩
def Fld.TMB_SRC_STS_DISAGREE : Fld := ⟨0x4, 0x64, 23, 23⟩
def Fld.TMB_SRC_STS_PTPAV : Fld := ⟨0x4, 0x64, 22, 22⟩
def Fld.TMB_SRC_STS_RINGAV : Fld := ⟨0x4, 0x64, 21, 21⟩
def Fld.TMB_SLEW : Fld := ⟨0x4, 0x68, 31, 0⟩
def Fld.TMB_STEPMIN : Fld := ⟨0x4, 0x6C, 31, 0⟩
def Fld.TMB_DISAGREE : Fld := ⟨0x4, 0x70, 31, 0⟩
def Fld.TMB_OFS_PTP : Fld := ⟨0x4, 0x74, 31, 0⟩
def Fld.TMB_OFS_RING : Fld := ⟨0x4, 0x78, 31, 0⟩
def Fld.TMB_ALARM_LO : Fld := ⟨0x4, 0x7C, 31, 0⟩
def Fld.TMB_ALARM_HI : Fld := ⟨0x4, 0x80, 31, 0⟩
def Fld.TMB_TRGn_CFG : Fld := ⟨0x4, 0x100, 31, 0⟩
def Fld.TMB_TRGn_CFG_EN : Fld := ⟨0x4, 0x100, 31, 31⟩
def Fld.TMB_TRGn_CFG_PER : Fld := ⟨0x4, 0x100, 30, 30⟩
def Fld.TMB_TRGn_CFG_POL : Fld := ⟨0x4, 0x100, 29, 29⟩
def Fld.TMB_TRGn_CFG_MISSED : Fld := ⟨0x4, 0x100, 28, 20⟩
def Fld.TMB_TRGn_CFG_WIDTH : Fld := ⟨0x4, 0x100, 19, 0⟩
def Fld.TMB_TRGn_START_LO : Fld := ⟨0x4, 0x104, 31, 0⟩
def Fld.TMB_TRGn_START_HI : Fld := ⟨0x4, 0x108, 31, 0⟩
def Fld.TMB_TRGn_PERIOD : Fld := ⟨0x4, 0x10C, 31, 0⟩
def Fld.TMB_CAPn_CFG : Fld := ⟨0x4, 0x200, 31, 0⟩
def Fld.TMB_CAPn_CFG_EN : Fld := ⟨0x4, 0x200, 31, 31⟩
def Fld.TMB_CAPn_CFG_EDGE : Fld := ⟨0x4, 0x200, 30, 29⟩
def Fld.TMB_CAPn_CFG_FILT : Fld := ⟨0x4, 0x200, 3, 0⟩
def Fld.TMB_CAPn_LO : Fld := ⟨0x4, 0x204, 31, 0⟩
def Fld.TMB_CAPn_HI : Fld := ⟨0x4, 0x208, 31, 0⟩
def Fld.TMB_CAPn_STS : Fld := ⟨0x4, 0x20C, 31, 0⟩
def Fld.TMB_CAPn_STS_RISE : Fld := ⟨0x4, 0x20C, 31, 31⟩
def Fld.TMB_CAPn_STS_COUNT : Fld := ⟨0x4, 0x20C, 15, 8⟩
def Fld.TMB_CAPn_STS_LOST : Fld := ⟨0x4, 0x20C, 7, 0⟩
def Fld.ETH_Pn_CFG : Fld := ⟨0x11, 0x40, 31, 0⟩
def Fld.ETH_Pn_CFG_EN : Fld := ⟨0x11, 0x40, 31, 31⟩
def Fld.ETH_Pn_CFG_RATE : Fld := ⟨0x11, 0x40, 26, 24⟩
def Fld.ETH_Pn_CFG_FUNC : Fld := ⟨0x11, 0x40, 5, 0⟩
def Fld.ETH_Pn_STS : Fld := ⟨0x11, 0x44, 31, 0⟩
def Fld.ETH_Pn_STS_LINK : Fld := ⟨0x11, 0x44, 31, 31⟩
def Fld.ETH_Pn_STS_RATE : Fld := ⟨0x11, 0x44, 26, 24⟩
def Fld.ETH_Pn_STS_STATUS : Fld := ⟨0x11, 0x44, 15, 0⟩
def Fld.ETH_Pn_PB_LO : Fld := ⟨0x11, 0x48, 31, 0⟩
def Fld.ETH_Pn_PB_HI : Fld := ⟨0x11, 0x4C, 31, 0⟩
def Fld.ETH_Pn_TXTAIL : Fld := ⟨0x11, 0x50, 31, 0⟩
def Fld.ETH_Pn_RXTAIL : Fld := ⟨0x11, 0x54, 31, 0⟩
def Fld.ETH_Pn_TXHEAD : Fld := ⟨0x11, 0x58, 31, 0⟩
def Fld.ETH_Pn_RXHEAD : Fld := ⟨0x11, 0x5C, 31, 0⟩
def Fld.ETH_Pn_DROP : Fld := ⟨0x11, 0x60, 31, 0⟩
def Fld.PWR_STATE : Fld := ⟨0x3, 0x40, 31, 0⟩
def Fld.PWR_STATE_STATE : Fld := ⟨0x3, 0x40, 31, 28⟩
def Fld.PWR_STATE_TARGET : Fld := ⟨0x3, 0x40, 27, 24⟩
def Fld.PWR_STATE_BUSY : Fld := ⟨0x3, 0x40, 23, 23⟩
def Fld.PWR_STATE_STEP : Fld := ⟨0x3, 0x40, 7, 0⟩
def Fld.PWR_STATE_REQ : Fld := ⟨0x3, 0x44, 31, 0⟩
def Fld.PWR_STATE_REQ_OP : Fld := ⟨0x3, 0x44, 31, 28⟩
def Fld.PWR_STATE_STS : Fld := ⟨0x3, 0x48, 31, 0⟩
def Fld.PWR_STATE_STS_STATUS : Fld := ⟨0x3, 0x48, 31, 16⟩
def Fld.PWR_STATE_STS_DONE : Fld := ⟨0x3, 0x48, 15, 15⟩
def Fld.PWR_GRANT : Fld := ⟨0x3, 0x4C, 31, 0⟩
def Fld.PWR_GRANT_FORCE : Fld := ⟨0x3, 0x4C, 31, 31⟩
def Fld.PWR_GRANT_CAP : Fld := ⟨0x3, 0x4C, 26, 16⟩
def Fld.PWR_GRANT_GRANT_ID : Fld := ⟨0x3, 0x4C, 15, 0⟩
def Fld.PWR_GRANT_STS : Fld := ⟨0x3, 0x50, 31, 0⟩
def Fld.PWR_GRANT_STS_STATUS : Fld := ⟨0x3, 0x50, 31, 16⟩
def Fld.PWR_GRANT_STS_DONE : Fld := ⟨0x3, 0x50, 15, 15⟩
def Fld.PWR_CAP : Fld := ⟨0x3, 0x54, 31, 0⟩
def Fld.PWR_CAP_FORCED : Fld := ⟨0x3, 0x54, 31, 31⟩
def Fld.PWR_CAP_KSUSP : Fld := ⟨0x3, 0x54, 30, 30⟩
def Fld.PWR_CAP_CAP : Fld := ⟨0x3, 0x54, 26, 16⟩
def Fld.PWR_CAP_GRANT_ID : Fld := ⟨0x3, 0x54, 15, 0⟩
def Fld.PWR_TEFF_LO : Fld := ⟨0x3, 0x58, 31, 0⟩
def Fld.PWR_TEFF_HI : Fld := ⟨0x3, 0x5C, 31, 0⟩
def Fld.PWR_FRAC0 : Fld := ⟨0x3, 0x60, 31, 0⟩
def Fld.PWR_FRAC0_PV : Fld := ⟨0x3, 0x60, 31, 24⟩
def Fld.PWR_FRAC0_NOC : Fld := ⟨0x3, 0x60, 23, 16⟩
def Fld.PWR_FRAC0_MEM : Fld := ⟨0x3, 0x60, 15, 8⟩
def Fld.PWR_FRAC0_BRD : Fld := ⟨0x3, 0x60, 7, 0⟩
def Fld.PWR_FRAC1 : Fld := ⟨0x3, 0x64, 31, 0⟩
def Fld.PWR_FRAC1_AON : Fld := ⟨0x3, 0x64, 23, 16⟩
def Fld.PWR_FRAC1_CTL : Fld := ⟨0x3, 0x64, 15, 8⟩
def Fld.PWR_FRAC1_IO : Fld := ⟨0x3, 0x64, 7, 0⟩
def Fld.PWR_KNEED : Fld := ⟨0x3, 0x68, 31, 0⟩
def Fld.PWR_OPP : Fld := ⟨0x3, 0x6C, 31, 0⟩
def Fld.PWR_OPP_KFLOOR : Fld := ⟨0x3, 0x6C, 27, 24⟩
def Fld.PWR_OPP_CUR : Fld := ⟨0x3, 0x6C, 19, 16⟩
def Fld.PWR_OPP_MAX : Fld := ⟨0x3, 0x6C, 11, 8⟩
def Fld.PWR_OPP_MIN : Fld := ⟨0x3, 0x6C, 3, 0⟩
def Fld.PWR_IN : Fld := ⟨0x3, 0x70, 31, 0⟩
def Fld.PWR_IN_MV : Fld := ⟨0x3, 0x70, 31, 16⟩
def Fld.PWR_IN_POWER : Fld := ⟨0x3, 0x70, 15, 0⟩
def Fld.PWR_DOMn : Fld := ⟨0x3, 0x74, 31, 0⟩
def Fld.PWR_DOMn_LIMIT : Fld := ⟨0x3, 0x74, 31, 16⟩
def Fld.PWR_DOMn_EST : Fld := ⟨0x3, 0x74, 15, 0⟩
def Fld.PWR_LIMIT : Fld := ⟨0x3, 0x90, 31, 0⟩
def Fld.PWR_LIMIT_ATLIM : Fld := ⟨0x3, 0x90, 22, 16⟩
def Fld.PWR_LIMIT_QPTHR : Fld := ⟨0x3, 0x90, 11, 8⟩
def Fld.PWR_LIMIT_THERM : Fld := ⟨0x3, 0x90, 2, 2⟩
def Fld.PWR_LIMIT_GUARD : Fld := ⟨0x3, 0x90, 1, 1⟩
def Fld.PWR_LIMIT_BELOWK : Fld := ⟨0x3, 0x90, 0, 0⟩
def Fld.PWR_TJ : Fld := ⟨0x3, 0x94, 31, 0⟩
def Fld.PWR_TJ_SENSOR : Fld := ⟨0x3, 0x94, 12, 8⟩
def Fld.PWR_TJ_DEGC : Fld := ⟨0x3, 0x94, 7, 0⟩
def Fld.PWR_WAKE_EN : Fld := ⟨0x3, 0x98, 31, 0⟩
def Fld.PWR_WAKE_EN_SRC : Fld := ⟨0x3, 0x98, 8, 1⟩
def Fld.PWR_WAKE_EN_OWNER : Fld := ⟨0x3, 0x98, 0, 0⟩
def Fld.PWR_WAKE_SRC : Fld := ⟨0x3, 0x9C, 31, 0⟩
def Fld.PWR_HOLD_DRAIN : Fld := ⟨0x3, 0xA0, 31, 0⟩
def Fld.PWR_DROOP : Fld := ⟨0x3, 0xA4, 31, 0⟩
def Fld.PWR_OVERCAP : Fld := ⟨0x3, 0xA8, 31, 0⟩
def Fld.PWR_ROLLBACK : Fld := ⟨0x3, 0xAC, 31, 0⟩
def Fld.DEV_BOOT : Fld := ⟨0x0, 0x40, 31, 0⟩
def Fld.DEV_BOOT_STAGE : Fld := ⟨0x0, 0x40, 31, 28⟩
def Fld.DEV_BOOT_FAST : Fld := ⟨0x0, 0x40, 24, 24⟩
def Fld.DEV_BOOT_DEGRADED : Fld := ⟨0x0, 0x40, 23, 23⟩
def Fld.DEV_BOOT_STATUS : Fld := ⟨0x0, 0x40, 15, 0⟩
def Fld.DEV_BOOT_MS : Fld := ⟨0x0, 0x44, 31, 0⟩
def Fld.DEV_BOOT_MS_MS : Fld := ⟨0x0, 0x44, 15, 0⟩
def Fld.DEV_RST_CAUSE : Fld := ⟨0x0, 0x48, 31, 0⟩
def Fld.DEV_RST_CAUSE_ARBESC : Fld := ⟨0x0, 0x48, 6, 6⟩
def Fld.DEV_RST_CAUSE_CMD : Fld := ⟨0x0, 0x48, 5, 5⟩
def Fld.DEV_RST_CAUSE_PIN : Fld := ⟨0x0, 0x48, 4, 4⟩
def Fld.DEV_RST_CAUSE_TRIP : Fld := ⟨0x0, 0x48, 3, 3⟩
def Fld.DEV_RST_CAUSE_BROWN : Fld := ⟨0x0, 0x48, 2, 2⟩
def Fld.DEV_RST_CAUSE_OFFREQ : Fld := ⟨0x0, 0x48, 1, 1⟩
def Fld.DEV_RST_CAUSE_POWER : Fld := ⟨0x0, 0x48, 0, 0⟩
def Fld.DEV_CMD : Fld := ⟨0x0, 0x4C, 31, 0⟩
def Fld.DEV_CMD_OP : Fld := ⟨0x0, 0x4C, 31, 28⟩
def Fld.DEV_CMD_CONFIRM : Fld := ⟨0x0, 0x4C, 7, 0⟩
def Fld.DEV_CMD_STS : Fld := ⟨0x0, 0x50, 31, 0⟩
def Fld.DEV_CMD_STS_STATUS : Fld := ⟨0x0, 0x50, 31, 16⟩
def Fld.DEV_CMD_STS_DONE : Fld := ⟨0x0, 0x50, 15, 15⟩
def Fld.DEV_MODE : Fld := ⟨0x0, 0x54, 31, 0⟩
def Fld.DEV_MODE_MODE : Fld := ⟨0x0, 0x54, 1, 0⟩
def Fld.DEV_FUSE : Fld := ⟨0x0, 0x58, 31, 0⟩
def Fld.DEV_FUSE_RESV_ROWS : Fld := ⟨0x0, 0x58, 31, 24⟩
def Fld.DEV_FUSE_STORE_ROWS : Fld := ⟨0x0, 0x58, 23, 16⟩
def Fld.DEV_FUSE_WIRES : Fld := ⟨0x0, 0x58, 15, 8⟩
def Fld.DEV_FUSE_DEFECTS : Fld := ⟨0x0, 0x58, 7, 0⟩
def Fld.DEV_DETOUR : Fld := ⟨0x0, 0x5C, 31, 0⟩
def Fld.DEV_DETOUR_FILES : Fld := ⟨0x0, 0x5C, 15, 0⟩
def Fld.DEV_FLT : Fld := ⟨0x0, 0x60, 31, 0⟩
def Fld.DEV_FLT_KIND : Fld := ⟨0x0, 0x60, 31, 28⟩
def Fld.DEV_FLT_WHERE : Fld := ⟨0x0, 0x60, 15, 0⟩
def Fld.DEV_FLT_TICK_LO : Fld := ⟨0x0, 0x64, 31, 0⟩
def Fld.DEV_FLT_TICK_HI : Fld := ⟨0x0, 0x68, 31, 0⟩
def Fld.DEV_REPLAYS : Fld := ⟨0x0, 0x6C, 31, 0⟩
def Fld.DEV_REPLAY_FAIL : Fld := ⟨0x0, 0x70, 31, 0⟩
def Fld.DEV_KINT_MAX : Fld := ⟨0x0, 0x74, 31, 0⟩
def Fld.CSL_STS : Fld := ⟨0x2, 0x40, 31, 0⟩
def Fld.CSL_STS_DBG : Fld := ⟨0x2, 0x40, 31, 30⟩
def Fld.CSL_STS_CERTIFIED : Fld := ⟨0x2, 0x40, 6, 6⟩
def Fld.CSL_STS_LOCKDOWN : Fld := ⟨0x2, 0x40, 5, 5⟩
def Fld.CSL_STS_PENDING : Fld := ⟨0x2, 0x40, 4, 4⟩
def Fld.CSL_STS_FLASHBAD : Fld := ⟨0x2, 0x40, 3, 3⟩
def Fld.CSL_STS_UPDATING : Fld := ⟨0x2, 0x40, 2, 2⟩
def Fld.CSL_STS_BACKOFF : Fld := ⟨0x2, 0x40, 1, 1⟩
def Fld.CSL_STS_TRNGFAIL : Fld := ⟨0x2, 0x40, 0, 0⟩
def Fld.CSL_CMD : Fld := ⟨0x2, 0x44, 31, 0⟩
def Fld.CSL_CMD_OP : Fld := ⟨0x2, 0x44, 31, 28⟩
def Fld.CSL_CMD_ENTRY : Fld := ⟨0x2, 0x44, 2, 0⟩
def Fld.CSL_CMD_STS : Fld := ⟨0x2, 0x48, 31, 0⟩
def Fld.CSL_CMD_STS_STATUS : Fld := ⟨0x2, 0x48, 31, 16⟩
def Fld.CSL_CMD_STS_DONE : Fld := ⟨0x2, 0x48, 15, 15⟩
def Fld.CSL_CMD_VA_LO : Fld := ⟨0x2, 0x4C, 31, 0⟩
def Fld.CSL_CMD_VA_HI : Fld := ⟨0x2, 0x50, 31, 0⟩
def Fld.CSL_ARB : Fld := ⟨0x2, 0x54, 31, 0⟩
def Fld.CSL_ARB_SVN : Fld := ⟨0x2, 0x54, 14, 8⟩
def Fld.CSL_ARB_N : Fld := ⟨0x2, 0x54, 6, 0⟩
def Fld.CSL_OWNER : Fld := ⟨0x2, 0x58, 31, 0⟩
def Fld.CSL_OWNER_USE : Fld := ⟨0x2, 0x58, 31, 16⟩
def Fld.CSL_OWNER_REVOKED : Fld := ⟨0x2, 0x58, 7, 4⟩
def Fld.CSL_OWNER_ACTIVE : Fld := ⟨0x2, 0x58, 3, 0⟩
def Fld.CSL_POLICY : Fld := ⟨0x2, 0x5C, 31, 0⟩
def Fld.CSL_DBG : Fld := ⟨0x2, 0x60, 31, 0⟩
def Fld.CSL_DBG_SCOPE : Fld := ⟨0x2, 0x60, 25, 20⟩
def Fld.CSL_DBG_LEFT : Fld := ⟨0x2, 0x60, 16, 0⟩
def Fld.CSL_CHALn : Fld := ⟨0x2, 0x64, 31, 0⟩
def Fld.CSL_UNITIDn : Fld := ⟨0x2, 0x84, 31, 0⟩
def Fld.CSL_TRNG : Fld := ⟨0x2, 0x94, 31, 0⟩
def Fld.CSL_UPD : Fld := ⟨0x2, 0x98, 31, 0⟩
def Fld.CSL_UPD_PASS : Fld := ⟨0x2, 0x98, 31, 30⟩
def Fld.CSL_UPD_BYTES : Fld := ⟨0x2, 0x98, 29, 0⟩
def Fld.CSL_RCV_CTL : Fld := ⟨0x2, 0xA0, 31, 0⟩
def Fld.CSL_RCV_CTL_OP : Fld := ⟨0x2, 0xA0, 31, 28⟩
def Fld.CSL_RCV_CTL_COUNT : Fld := ⟨0x2, 0xA0, 11, 0⟩
def Fld.CSL_RCV_STS : Fld := ⟨0x2, 0xA4, 31, 0⟩
def Fld.CSL_RCV_STS_STATUS : Fld := ⟨0x2, 0xA4, 31, 16⟩
def Fld.CSL_RCV_STS_READY : Fld := ⟨0x2, 0xA4, 15, 15⟩
def Fld.CSL_RCV_STS_ACTIVE : Fld := ⟨0x2, 0xA4, 14, 14⟩
def Fld.CSL_RCV_STS_PORT : Fld := ⟨0x2, 0xA4, 13, 12⟩
def Fld.CSL_RCV_STS_DONE : Fld := ⟨0x2, 0xA4, 11, 0⟩
def Fld.CSL_RCV_WIN : Fld := ⟨0x2, 0x8000, 31, 0⟩
def Fld.ARB_MBX_CMD : Fld := ⟨0x1, 0x40, 31, 0⟩
def Fld.ARB_MBX_CMD_GO : Fld := ⟨0x1, 0x40, 0, 0⟩
def Fld.ARB_MBX_STS : Fld := ⟨0x1, 0x44, 31, 0⟩
def Fld.ARB_MBX_STS_STATUS : Fld := ⟨0x1, 0x44, 31, 16⟩
def Fld.ARB_MBX_STS_DONE : Fld := ⟨0x1, 0x44, 15, 15⟩
def Fld.ARB_MBX_STS_UNSUP : Fld := ⟨0x1, 0x44, 14, 14⟩
def Fld.ARB_RESTARTS : Fld := ⟨0x1, 0x48, 31, 0⟩
def Fld.ARB_LOG_SEQ : Fld := ⟨0x1, 0x4C, 31, 0⟩
def Fld.ARB_SMB_CFG : Fld := ⟨0x1, 0x50, 31, 0⟩
def Fld.ARB_SMB_CFG_EN : Fld := ⟨0x1, 0x50, 31, 31⟩
def Fld.ARB_SMB_CFG_ADDR : Fld := ⟨0x1, 0x50, 6, 0⟩
def Fld.ARB_MBX_REQ : Fld := ⟨0x1, 0x400, 31, 0⟩
def Fld.ARB_MBX_RSP : Fld := ⟨0x1, 0x500, 31, 0⟩
def Fld.DEV_GEN : Fld := ⟨0x0, 0x100, 31, 0⟩
def Fld.DEV_OWN : Fld := ⟨0x0, 0x104, 31, 0⟩
def Fld.DEV_OWN_STATE : Fld := ⟨0x0, 0x104, 31, 30⟩
def Fld.DEV_OWN_FUNC : Fld := ⟨0x0, 0x104, 5, 0⟩
def Fld.DEV_CTLOWN : Fld := ⟨0x0, 0x108, 31, 0⟩
def Fld.DEV_CTLOWN_V : Fld := ⟨0x0, 0x108, 31, 31⟩
def Fld.DEV_CTLOWN_PART : Fld := ⟨0x0, 0x108, 5, 0⟩
def Fld.DEV_HOSTS : Fld := ⟨0x0, 0x10C, 31, 0⟩
def Fld.DEV_HOSTS_PORTn : Fld := ⟨0x0, 0x10C, 15, 0⟩
def Fld.DEV_GRACE : Fld := ⟨0x0, 0x110, 31, 0⟩
def Fld.DEV_GRACE_S : Fld := ⟨0x0, 0x110, 11, 0⟩
def Fld.DEV_IFVER : Fld := ⟨0x0, 0x114, 31, 0⟩
def Fld.DEV_IFVER_MAJOR : Fld := ⟨0x0, 0x114, 23, 16⟩
def Fld.DEV_IFVER_MINOR : Fld := ⟨0x0, 0x114, 15, 8⟩
def Fld.DEV_IFVER_MAJMASK : Fld := ⟨0x0, 0x114, 7, 0⟩
def Fld.DSP_IMG_VA_LO : Fld := ⟨0x5, 0x1C0, 31, 0⟩
def Fld.DSP_IMG_VA_HI : Fld := ⟨0x5, 0x1C4, 31, 0⟩
def Fld.DSP_IMG_CMD : Fld := ⟨0x5, 0x1C8, 31, 0⟩
def Fld.DSP_IMG_CMD_OP : Fld := ⟨0x5, 0x1C8, 31, 28⟩
def Fld.DSP_IMG_CMD_HANDLE : Fld := ⟨0x5, 0x1C8, 15, 0⟩
def Fld.DSP_IMG_STS : Fld := ⟨0x5, 0x1CC, 31, 0⟩
def Fld.DSP_IMG_STS_STATUS : Fld := ⟨0x5, 0x1CC, 31, 16⟩
def Fld.DSP_IMG_STS_DONE : Fld := ⟨0x5, 0x1CC, 15, 15⟩
def Fld.DSP_IMG_STS_HANDLE : Fld := ⟨0x5, 0x1CC, 14, 0⟩
def Fld.GPI_OE0 : Fld := ⟨0x13, 0x40, 31, 0⟩
def Fld.GPI_OE1 : Fld := ⟨0x13, 0x44, 31, 0⟩
def Fld.GPI_OE1_PINS : Fld := ⟨0x13, 0x44, 15, 0⟩
def Fld.GPI_OUT0 : Fld := ⟨0x13, 0x48, 31, 0⟩
def Fld.GPI_OUT1 : Fld := ⟨0x13, 0x4C, 31, 0⟩
def Fld.GPI_OUT1_PINS : Fld := ⟨0x13, 0x4C, 15, 0⟩
def Fld.GPI_IN0 : Fld := ⟨0x13, 0x50, 31, 0⟩
def Fld.GPI_IN1 : Fld := ⟨0x13, 0x54, 31, 0⟩
def Fld.GPI_IN1_PINS : Fld := ⟨0x13, 0x54, 15, 0⟩
def Fld.GPI_WAKE0 : Fld := ⟨0x13, 0x58, 31, 0⟩
def Fld.GPI_WAKE1 : Fld := ⟨0x13, 0x5C, 31, 0⟩
def Fld.GPI_WAKE1_PINS : Fld := ⟨0x13, 0x5C, 15, 0⟩
def Fld.GPI_WPOL0 : Fld := ⟨0x13, 0x60, 31, 0⟩
def Fld.GPI_WPOL1 : Fld := ⟨0x13, 0x64, 31, 0⟩
def Fld.GPI_WPOL1_PINS : Fld := ⟨0x13, 0x64, 15, 0⟩
def Fld.GPI_BANK : Fld := ⟨0x13, 0x68, 31, 0⟩
def Fld.GPI_BANK_VSEL : Fld := ⟨0x13, 0x68, 1, 0⟩
def Fld.GPI_PER_SEL : Fld := ⟨0x13, 0x80, 31, 0⟩
def Fld.GPI_PER_SEL_CTRL : Fld := ⟨0x13, 0x80, 3, 0⟩
def Fld.GPI_PER_CFG : Fld := ⟨0x13, 0x84, 31, 0⟩
def Fld.GPI_PER_CFG_EN : Fld := ⟨0x13, 0x84, 31, 31⟩
def Fld.GPI_PER_CFG_SZ : Fld := ⟨0x13, 0x84, 27, 24⟩
def Fld.GPI_PER_CFG_FUNC : Fld := ⟨0x13, 0x84, 21, 16⟩
def Fld.GPI_PER_CFG_RATE : Fld := ⟨0x13, 0x84, 15, 0⟩
def Fld.GPI_PER_RING_LO : Fld := ⟨0x13, 0x88, 31, 0⟩
def Fld.GPI_PER_RING_HI : Fld := ⟨0x13, 0x8C, 31, 0⟩
def Fld.GPI_PER_TAIL : Fld := ⟨0x13, 0x90, 31, 0⟩
def Fld.GPI_PER_HEAD : Fld := ⟨0x13, 0x94, 31, 0⟩

/-! The common header of R675, on page 0 until `onPage` moves it. -/
def Fld.CTL_ENABLE : Fld := ⟨0, 0x8, 0, 0⟩
def Fld.STS_STATE : Fld := ⟨0, 0xC, 3, 0⟩
def Fld.STS_BUSY : Fld := ⟨0, 0xC, 8, 8⟩
def Fld.IRQ_RAW : Fld := ⟨0, 0x10, 31, 0⟩
def Fld.IRQ_EN : Fld := ⟨0, 0x14, 31, 0⟩
def Fld.ERR_CODE : Fld := ⟨0, 0x20, 31, 0⟩
def Fld.ERR_CODE_COUNT : Fld := ⟨0, 0x20, 31, 16⟩
def Fld.ERR_CODE_CODE : Fld := ⟨0, 0x20, 15, 0⟩
def Fld.ERR_INFO : Fld := ⟨0, 0x24, 31, 0⟩
def Fld.LOCK_SCOPE : Fld := ⟨0, 0x2C, 1, 1⟩
def Fld.LOCK_LOCKDOWN : Fld := ⟨0, 0x2C, 0, 0⟩

end Sys2Proof.Machine
end

