-- ==== Sys2Proof/Machine/Status.lean ====
section
/-! DEFINITION. The device-wide 16-bit status space (R9 to R11) and the codes that each chapter adds. -/

namespace Sys2Proof.Machine

/-- The status codes of R10 and of R188, R216, R251, R287, R314, R339, R372, R410, R444, R472, R499, R535, R567, R592,
R626, R642 and R652: one constructor for each named code. -/
inductive Status where
  | ok | okDuplicate | okFallback | okConcealed
  | timeout | cancelled | entryMalformed | imageUnknown | queueRefused | doorbellInvalid | imageRejected
  | stalemate | outOfTime | mapChanged | planMalformed | planLimit | startBlocked | pathBlocked
  | rankDeficient | nonfinite | noDescent | infeasible | solverMalformed | solverLimit
  | stateGenerationMismatch | stateTorn | streamUnknown | seqMalformed | streamRefused | attMalformed | pageMissing
  | conflict | slip | fusionMalformed | calRejected
  | eccCorrected | eccUncorrectable | malformed | pinLimit | reserveFull | retrainRefused | retireLimit
  | faultReplayed | selftestFailed | bootFailed | replayFailed | devMalformed | devRefused
  | accessDenied | owned | versionUnsupported | arbMalformed | genStale | configConflict
  | powerLimited | kboundSuspended | powerMalformed | powerStateRefused
  | inputMalformed | inputLimit | decodeUnsupported | sampleMissing
  | edgeMalformed | edgeLimit | edgeOverrun | genRefused
  | tempoMalformed | tempoLimit | tempoRefused | ringMalformed | ringRefused | ringTimeout
  | timeMalformed | timeRefused | ethNoWindow
  | cslMalformed | signatureInvalid | digestMismatch | rollbackRefused | keyInvalid | unitMismatch
  | challengeStale | debugRefused | fuseRefused | flashFailed | trngFailed | backoff
  | internalError
  deriving DecidableEq, Repr, Inhabited

/-- The 16-bit code of a status. -/
def Status.code : Status → Nat
  | .ok => 0x0000 | .okDuplicate => 0x0001 | .okFallback => 0x0002 | .okConcealed => 0x0003
  | .timeout => 0x0010 | .cancelled => 0x0011 | .entryMalformed => 0x0012 | .imageUnknown => 0x0013
  | .queueRefused => 0x0014 | .doorbellInvalid => 0x0015 | .imageRejected => 0x0016
  | .stalemate => 0x0020 | .outOfTime => 0x0021 | .mapChanged => 0x0022 | .planMalformed => 0x0023
  | .planLimit => 0x0024 | .startBlocked => 0x0025 | .pathBlocked => 0x0026
  | .rankDeficient => 0x0030 | .nonfinite => 0x0031 | .noDescent => 0x0032 | .infeasible => 0x0033
  | .solverMalformed => 0x0034 | .solverLimit => 0x0035
  | .stateGenerationMismatch => 0x0041 | .stateTorn => 0x0042 | .streamUnknown => 0x0043 | .seqMalformed => 0x0044
  | .streamRefused => 0x0045 | .attMalformed => 0x0046 | .pageMissing => 0x0047
  | .conflict => 0x0050 | .slip => 0x0051 | .fusionMalformed => 0x0052 | .calRejected => 0x0053
  | .eccCorrected => 0x0060 | .eccUncorrectable => 0x0061 | .malformed => 0x0062 | .pinLimit => 0x0063
  | .reserveFull => 0x0064 | .retrainRefused => 0x0065 | .retireLimit => 0x0066
  | .faultReplayed => 0x0070 | .selftestFailed => 0x0071 | .bootFailed => 0x0072 | .replayFailed => 0x0073
  | .devMalformed => 0x0074 | .devRefused => 0x0075
  | .accessDenied => 0x0080 | .owned => 0x0081 | .versionUnsupported => 0x0082 | .arbMalformed => 0x0083
  | .genStale => 0x0084 | .configConflict => 0x0085
  | .powerLimited => 0x0090 | .kboundSuspended => 0x0091 | .powerMalformed => 0x0092 | .powerStateRefused => 0x0093
  | .inputMalformed => 0x00A0 | .inputLimit => 0x00A1 | .decodeUnsupported => 0x00A2 | .sampleMissing => 0x00A3
  | .edgeMalformed => 0x00A8 | .edgeLimit => 0x00A9 | .edgeOverrun => 0x00AA | .genRefused => 0x00AB
  | .tempoMalformed => 0x00B0 | .tempoLimit => 0x00B1 | .tempoRefused => 0x00B2 | .ringMalformed => 0x00B3
  | .ringRefused => 0x00B4 | .ringTimeout => 0x00B5 | .timeMalformed => 0x00B6 | .timeRefused => 0x00B7
  | .ethNoWindow => 0x00B8
  | .cslMalformed => 0x00C0 | .signatureInvalid => 0x00C1 | .digestMismatch => 0x00C2 | .rollbackRefused => 0x00C3
  | .keyInvalid => 0x00C4 | .unitMismatch => 0x00C5 | .challengeStale => 0x00C6 | .debugRefused => 0x00C7
  | .fuseRefused => 0x00C8 | .flashFailed => 0x00C9 | .trngFailed => 0x00CA | .backoff => 0x00CB
  | .internalError => 0x00F0

/-- A code "from 0x0000 to 0x000F" in the sense of R9: FAULT_REPLAYED and KBOUND_SUSPENDED count as inside the range. -/
def Status.isSuccess (st : Status) : Bool :=
  decide (st.code ≤ 0x000F) || st == .faultReplayed || st == .kboundSuspended

end Sys2Proof.Machine
end

