-- ==== Sys2Proof/Machine/StBoard.lean ====
section
/-! DEFINITION. State of the Board: lanesets, groups, squares, movers and files, without the registers of the file pages,
which lie in the register table of `State`. -/

namespace Sys2Proof.Machine

/-- An entry of a laneset's control stack (R106, R107). -/
inductive StackEntry where
  | join (pc : Nat) (mask : Word)
  | pend (pc : Nat) (mask : Word)
  | ret (pc : Nat)
  deriving DecidableEq, Repr, Inhabited

/-- One laneset: 32 lanes that execute one instruction together (R39, R96, R98). -/
structure Laneset where
  /-- Word index of the next instruction (R87). -/
  pc : Nat := 0
  /-- Active mask. -/
  mask : Word := 0xFFFFFFFF#32
  /-- Lanes ended by EXIT (R109). -/
  exited : Word := 0#32
  /-- Thread registers, key lane × 256 + register; an unlisted register reads 0. -/
  regs : List (Nat × Word) := []
  /-- Predicates p0 to p6 of each lane in bits [6:0]; p7 is constant true (R39). -/
  preds : List (Nat × Byte) := []
  /-- Uniform registers u0 to u63. -/
  uregs : List (Nat × Word) := []
  /-- Control stack, top first. -/
  stack : List StackEntry := []
  /-- Waiting at a barrier (R125). -/
  bar : Option Nat := none
  /-- Arrived at the barrier of a BNDY (R127). -/
  bndy : Bool := false
  /-- Waiting in a SEMW since this count of the square's clock (R126). -/
  sem : Option Nat := none
  /-- Waiting in an EWAIT or FENCE for the engine work issued before this count of issues on the square (R117, R122). -/
  waits : Option Nat := none
  deriving DecidableEq, Repr, Inhabited

/-- One phase of a group barrier: the count its arrivals name and the lanesets that have arrived (R125). -/
structure Barrier where
  count : Nat := 0
  arrived : List Nat := []
  deriving DecidableEq, Repr, Inhabited

/-- Where a resident group stands (R57 to R61); an ending group waits for engine operations already started (R130). -/
inductive GroupSt where
  | running | suspended | ending
  deriving DecidableEq, Repr, Inhabited

/-- One group (R55, R56). -/
structure Group where
  /-- Number of its job in the job table. -/
  job : Nat := 0
  /-- Linear group index, x fastest. -/
  index : Nat := 0
  /-- Square number (R3). -/
  square : Nat := 0
  /-- Start and size in bytes of its store region. -/
  base : Nat := 0
  size : Nat := 0
  /-- N of R42, number of lanesets, bytes of program text. -/
  nreg : Nat := 16
  nls : Nat := 1
  text : Nat := 0
  /-- Declared worst-case bundle length, square cycles (R58). -/
  bundleLen : Nat := 0
  /-- Where it stands (R57 to R61). -/
  st : GroupSt := .running
  /-- Its lanesets by index, and its barrier phases (R125). -/
  lanesets : List (Nat × Laneset) := []
  barriers : List (Nat × Barrier) := []
  /-- Continuation: position and bundle count (R57, R127). -/
  contPc : Nat := 0
  bundle : Nat := 0
  /-- Count of the square's clock at which the group started, in 250ths of a cycle, and the count that it ran on another square before a
  move (CLK, R59, R102). -/
  start : Nat := 0
  ran : Nat := 0
  /-- No further bundle starts: a preemption waits for its boundary (R60). -/
  preempt : Bool := false
  /-- The group ends at its next boundary (R61). -/
  stop : Bool := false
  /-- Replayed after a square fault on this square (R587). -/
  replayOf : Option Nat := none
  /-- Order of suspension (R60). -/
  suspOrder : Nat := 0
  deriving DecidableEq, Repr, Inhabited

/-- What an engine queue entry asks for (R41, R111 to R115), with the operand values its uniform registers held. -/
inductive EngOp where
  | mma (sparse : Bool) (acc : Nat) (z : Bool) (fa fb : Nat) (a b : Word)
  | mld (acc : Nat) (int : Bool) (a : Word)
  | drn (acc : Nat) (ctl : Nat) (out ops : Word)
  | tmv (mv : Nat) (off : Nat) (seq : Nat) (stamp : Nat)
  deriving DecidableEq, Repr, Inhabited

/-- One entry of a square's engine queue. -/
structure EngEntry where
  group : Nat := 0
  lset : Nat := 0
  pc : Nat := 0
  op : EngOp := .mld 0 false 0#32
  /-- Its operands were overlapped in a way that R120 gives no outcome: what it reads is a free value. -/
  taint : Bool := false
  /-- Its place in the order of issue on the square (R117). -/
  ord : Nat := 0
  deriving DecidableEq, Repr, Inhabited

/-- A descriptor handed to a mover (R53, R115). -/
structure MovDesc where
  group : Nat := 0
  lset : Nat := 0
  pc : Nat := 0
  off : Nat := 0
  seq : Nat := 0
  stamp : Nat := 0
  /-- The descriptor, or the tiles that it stores, were overlapped in a way that R120 gives no outcome. -/
  taint : Bool := false
  dtaint : Bool := false
  /-- Its place in the order of issue on the square (R117). -/
  ord : Nat := 0
  /-- Of the Dispatcher's page walk: the descriptor, and the number of the page it brings (R303). -/
  walk : Option (List Byte × Nat) := none
  deriving DecidableEq, Repr, Inhabited

/-- The descriptor a mover executes: its 64 bytes, the tiles not yet handled, and the outcome so far (R170, R171). `far` and `fb`
list the 64-byte lines of its far side and of its fallback run, tiles then sidecars, each as (tier, address). -/
structure Flight where
  d : MovDesc := {}
  desc : List Byte := []
  /-- Tiles not yet arrived or replaced. -/
  left : List Nat := []
  /-- Its deadline as a timebase value, if it has one (R170). -/
  deadline : Option Nat := none
  /-- Tiles replaced by the fallback, whether one arrived poisoned or late, the tiles handled, and the status so far (R171, R174). -/
  fallback : Nat := 0
  poisoned : Bool := false
  late : Bool := false
  reached : Nat := 0
  status : Status := .ok
  /-- Reserve entry being filled, or the one that a hit reads. -/
  entry : Option Nat := none
  hit : Option Nat := none
  /-- Its source was overlapped in a way that R120 gives no outcome. -/
  taint : Bool := false
  /-- Lines of its far side and of its fallback run, as (tier, address) (R167). -/
  far : List (Nat × Nat) := []
  fb : List (Nat × Nat) := []
  /-- It translated through an entry that a running invalidation has removed (R165). -/
  inval : Bool := false
  deriving DecidableEq, Repr, Inhabited

/-- One tile mover (R53, R116). -/
structure Mover where
  issued : List MovDesc := []
  flight : Option Flight := none
  /-- Issue and completion counts modulo 2^24. -/
  seq : Nat := 0
  done : Nat := 0
  /-- Statuses of the last 32 completions, newest first, with their sequence numbers. -/
  statuses : List (Nat × Nat) := []
  deriving DecidableEq, Repr, Inhabited

/-- A Class K group that waits for the victims of R60: its job, its index, and the faulted square it is replayed from. The first group
of a job starts the job as it is placed (R238). -/
structure Await where
  job : Nat := 0
  index : Nat := 0
  replayOf : Option Nat := none
  deriving DecidableEq, Repr, Inhabited

/-- One square, without its store and its state field in SQ_STATE (R39 to R54). -/
structure Square where
  queue : List EngEntry := []
  mv0 : Mover := {}
  mv1 : Mover := {}
  /-- Accumulators, key acc × 1,024 + 32 × row + column. -/
  acc : List (Nat × Word) := []
  /-- Kind INT bits of acc0 to acc7 (R112). -/
  accInt : Byte := 0#8
  /-- Softmax sets, key acc × 64 + 2 × row + (0 maximum, 1 sum), as FP32 (R49). -/
  smx : List (Nat × Word) := []
  /-- Engine instructions issued so far (R117). -/
  issues : Nat := 0
  /-- Group that holds the matrix lease (R118). -/
  lease : Option Nat := none
  /-- Class K groups that wait for victims on this square (R60). -/
  awaiting : List Await := []
  deriving DecidableEq, Repr, Inhabited

/-- What a file page holds beside its registers: recorded requests (R67), squares whose self-test runs, and ranks whose self-test a
RESET has ordered and a loss of power cut short (R82), the event counter (R86), the time of the start, ticks of the last 16 retries of
its links, newest first (R65), the clock count of its squares in 250ths of a cycle at tick `cycAt`, and for each rank the count at
which its square last retired an instruction (R71, R102). -/
structure FileSt where
  recQuiesce : Bool := false
  recReset : Bool := false
  recEnable : Bool := false
  byReset : Bool := false
  testing : Nat := 0
  perf : Nat := 0
  startTick : Nat := 0
  retries : List Nat := []
  retest : List Nat := []
  cyc : Nat := 0
  cycAt : Nat := 0
  retired : List (Nat × Nat) := []
  deriving DecidableEq, Repr, Inhabited

end Sys2Proof.Machine
end

