-- ==== Sys2Proof/Machine/StQueue.lean ====
section
/-! DEFINITION. State of the Dispatcher: queue pairs, jobs, duplicate windows, images and streams. -/

namespace Sys2Proof.Machine

/-- DSP_Q_STS.STATE (R249, R253). -/
inductive QState where
  | disabled | active | error | quiesced
  deriving DecidableEq, Repr, Inhabited

/-- The 3-bit code of a queue state (R253). -/
def QState.code : QState → Nat
  | .disabled => 0 | .active => 1 | .error => 2 | .quiesced => 3

/-- One tag of a duplicate window: PENDING, or DONE with the status of the original (R242). -/
structure WinTag where
  tag : Nat := 0
  done : Bool := false
  status : Nat := 0
  deriving DecidableEq, Repr, Inhabited

/-- A doorbell kept while the Dispatcher is not ON (R235). -/
inductive HeldDb where
  | host (tail : Nat)
  | head (index : Nat)
  | internal
  deriving DecidableEq, Repr, Inhabited

/-- A RESET or DELETE in progress (R249). -/
inductive QCmd where
  | none | reset | delete
  deriving DecidableEq, Repr, Inhabited

/-- What held as a doorbell was accepted: it advanced the tail by one, with a free completion slot and no earlier entry waiting to start
(R247); and the partition's streams that were in STORE with no call pending (R282). -/
structure Bell where
  tail : Nat := 0
  alone : Bool := false
  idle : List Nat := []
  deriving DecidableEq, Repr, Inhabited

/-- The 3 to 1 round robin between new Q and P work: grants of Class Q since the last of Class P, at most 3, and in each class the global
number of the queue served last (R27, R239, R334). -/
structure Turns where
  given : Nat := 0
  lastQ : Option Nat := none
  lastP : Option Nat := none
  deriving DecidableEq, Repr, Inhabited

/-- One queue pair (R222, R223, R249). -/
structure Queue where
  st : QState := .disabled
  cls : Nat := 0
  sqsz : Nat := 0
  cqsz : Nat := 0
  ien : Bool := false
  vec : Nat := 0
  sqBase : Nat := 0
  cqBase : Nat := 0
  modTime : Nat := 0
  modCount : Nat := 0
  kfiles : Nat := 0
  timeout : Nat := 0
  gen : Nat := 0
  errsrc : Nat := 0
  sqHead : Nat := 0
  sqTail : Nat := 0
  cqTail : Nat := 0
  cqHead : Nat := 0
  /-- Entries taken and not completed. -/
  inflight : Nat := 0
  /-- Accepted tails with the timebase value of their acceptance, newest first. -/
  stamps : List (Nat × Nat) := []
  /-- What held at each of them, newest first, and at that of the entry taken last (R247, R282). -/
  bells : List Bell := []
  bell : Bell := {}
  /-- Duplicate window, newest first. -/
  window : List WinTag := []
  /-- Doorbell values held, in order (R231, R563). -/
  held : List HeldDb := []
  /-- The entry taken and not yet handled: its 64 bytes, absolute index and acceptance stamp. -/
  fetched : Option (List Byte × Nat × Nat) := none
  /-- The DSP_Q_CMD operation under way, while it runs (R249). -/
  cmd : QCmd := .none
  /-- Completions written and not yet signalled, and the time of the oldest (R236). -/
  unsig : Nat := 0
  unsigAt : Nat := 0
  /-- The eight statistics of DSP_STAT_SEL (R253). -/
  stats : List (Nat × Nat) := []
  deriving DecidableEq, Repr, Inhabited

/-- Where a job stands (R238, R242). -/
inductive JobSt where
  | held | waiting | started | ended
  deriving DecidableEq, Repr, Inhabited

/-- Why a job is being stopped: the status and DETAIL its completion carries, and the tick of the stop. -/
structure Stop where
  status : Status := .cancelled
  detail : Nat := 0
  tick : Nat := 0
  deriving DecidableEq, Repr, Inhabited

/-- The exception that a job reports: its status and cause, the tick and the square (R129, R132). -/
structure JobExc where
  status : Status := .internalError
  cause : Nat := 0
  tick : Nat := 0
  square : Nat := 0
  deriving DecidableEq, Repr, Inhabited

/-- A unit of an attention call, or a part of a split one (R306 to R308): its table in the call's list, its key-value head, which of
the fetched pages it takes, and whether it takes the tail. -/
structure AttUnit where
  seq : Nat := 0
  head : Nat := 0
  first : Nat := 0
  count : Nat := 0
  tail : Bool := true
  deriving DecidableEq, Repr, Inhabited

/-- Kind of a recurrence layer (R258). -/
inductive LayerKind where
  | selective | timeInvariant | longConv
  deriving DecidableEq, Repr, Inhabited

/-- The form in which a layer runs in a call (R260). -/
inductive Form where
  | step | scan | conv
  deriving DecidableEq, Repr, Inhabited

/-- A recurrence layer as the image gives it: kind, mode count R, chunk length CL, CONVMIN, and the kernel's length N (R258). -/
structure Layer where
  kind : LayerKind := .selective
  modes : Nat := 1
  cl : Nat := 32
  convMin : Nat := 64
  taps : Nat := 1
  deriving DecidableEq, Repr, Inhabited

/-- One accepted submission entry of kind LAUNCH (R225, R238). -/
structure Job where
  fn : Nat := 0
  q : Nat := 0
  cls : Nat := 0
  cid : Nat := 0
  image : Nat := 0
  job : Nat := 0
  vsel : Nat := 0
  tag : Nat := 0
  idem : Bool := false
  ordered : Bool := false
  irqNow : Bool := false
  argVa : Nat := 0
  arg : List Byte := []
  deadline : Option Nat := none
  timeout : Nat := 0
  /-- Timebase value of the doorbell acceptance. -/
  accepted : Nat := 0
  /-- Absolute submission index. -/
  sqIndex : Nat := 0
  /-- Where it stands (R238). -/
  st : JobSt := .waiting
  /-- Tick of its start (R238). -/
  startTick : Nat := 0
  /-- The fallback variant runs; `fbv`: by the switch of R185. -/
  variant : Bool := false
  fbv : Bool := false
  /-- Groups placed so far, groups in all, groups ended. -/
  placed : Nat := 0
  total : Nat := 0
  ended : Nat := 0
  /-- It is stopping, and the completion its stop gives (R243 to R245). -/
  stop : Option Stop := none
  /-- Its first exception (R130). -/
  exc : Option JobExc := none
  /-- Outcomes of its descriptors: the first failure, tiles replaced, whether any was replaced, and deadlines missed (R174, R228). -/
  descFail : Option Status := none
  fbTiles : Nat := 0
  fellBack : Bool := false
  missed : Bool := false
  /-- Replays of its groups: the square, a failed replay, preemption (R587, R60). -/
  replayOf : Option Nat := none
  replayFailed : Bool := false
  preempted : Bool := false
  /-- It waits, not yet started, for the victims of a preemption (R60, R238); indices of groups to place again, whose square could not
  take them. -/
  await : Bool := false
  redo : List Nat := []
  /-- Its completion is not written (R221, R250 warm reset). -/
  silent : Bool := false
  /-- Tick of its end, and detection time of the square fault that interrupted it (R587, R591). -/
  endTick : Nat := 0
  /-- Generation of the global configuration at its creation (R33). -/
  gen : Nat := 0
  /-- What held as its doorbell was accepted, and whether an earlier Class K job made it wait (R241, R247, R282). -/
  alone : Bool := false
  idle : List Nat := []
  kWaited : Bool := false
  faultTick : Option Nat := none
  /-- Taken sequence or attention call (R273, R298): its streams with EXPGEN, and its page tables with EXPGEN. -/
  taken : Bool := false
  /-- Of a running sequence call: the form of each layer, and the steps run on each line of state, by store address (R260, R263). -/
  forms : List Form := []
  steps : List (Nat × Nat) := []
  /-- A NOP entry, which only waits for its turn (R227). -/
  nop : Bool := false
  /-- Streams and page tables that its call names, and the generation line (R271, R300). -/
  streams : List (Nat × Nat) := []
  tables : List (Nat × Nat) := []
  genVa : Nat := 0
  /-- Positions that the call appends to its tables: TQ, or T of a sequence call (R299, R302). -/
  appends : Bool := false
  append : Nat := 0
  /-- Order of taking (R272), the DSP_ATT settings as they stood then (R315), the units in placement order, and the merge area
  (R309). -/
  takeNo : Nat := 0
  attCfg : List Nat := []
  /-- The units of the walk, in placement order, and the merge area (R303, R309). -/
  units : List AttUnit := []
  merge : List Nat := []
  deriving DecidableEq, Repr, Inhabited

/-- Launch parameters of a program block (R42, R55, R58). The layout of the block belongs to Touth (R646). -/
structure Launch where
  nreg : Nat := 16
  gx : Nat := 32
  gy : Nat := 1
  gz : Nat := 1
  nx : Nat := 1
  ny : Nat := 1
  nz : Nat := 1
  /-- Store region in 4 KiB units (R56). -/
  store4k : Nat := 1
  /-- Worst-case bundle length in square cycles (R58). -/
  bundle : Nat := 0
  /-- Program text, 64-bit words (R87). -/
  text : List DWord := []
  deriving DecidableEq, Repr, Inhabited

/-- A job of an image (R646). -/
structure ImgJob where
  kind : Nat := 0
  noReplay : Bool := false
  hasVariant : Bool := false
  wcet : Nat := 0
  prim : Launch := {}
  var : Launch := {}
  /-- Stream set of a sequence job; attention geometry of an attention job (R299, R300): HKV, DB, NLAYER, FMT. -/
  set : Nat := 0
  att : Nat × Nat × Nat × Nat := (0, 0, 0, 0)
  attLayers : Bool := false
  /-- Query heads per key-value head, G (R291), and the number of groups of each layer, in group order (R269). -/
  attG : Nat := 1
  layerGroups : List Nat := []
  deriving DecidableEq, Repr, Inhabited

/-- A stream set that an image declares (R268). -/
structure SetDecl where
  set : Nat := 0
  lines : Nat := 0
  slotBlk : Nat := 1
  shadow : Bool := false
  /-- Home squares, one list for each layer. -/
  homes : List (List Nat) := []
  /-- Its layers (R258). -/
  layers : List Layer := []
  /-- A home square faulted and no square could take its place (R269). -/
  broken : Bool := false
  deriving DecidableEq, Repr, Inhabited

/-- A loaded image (R645, R648 to R651). -/
structure Image where
  va : Nat := 0
  bytes : Nat := 0
  header : List Byte := []
  digest : Nat := 0
  kimg : Bool := false
  kopp : Nat := 0
  kmw : Nat := 0
  nfiles : Nat := 1
  jobs : List ImgJob := []
  sets : List SetDecl := []
  locks : List Nat := []
  /-- Files' Class K store portion in 32 KiB units, and replay squares (R59, R586). -/
  ksize : Nat := 0
  replaySquares : List Nat := []
  replayPages : List Nat := []
  /-- Faulted squares and the replay squares that stand in for them (R587). -/
  swaps : List (Nat × Nat) := []
  /-- An UNLOAD runs (R649). -/
  unloading : Bool := false
  /-- During a REPLACE: the tick of the switch (R651). -/
  replacing : Option Nat := none
  deriving DecidableEq, Repr, Inhabited

/-- State of a stream (R283), in the order of DSP_SEQ_STS.STATE. -/
inductive StreamSt where
  | closed | zero | store | busy | out | resv | outer | inn | torn
  deriving DecidableEq, Repr, Inhabited

/-- The 4-bit code of a stream state (R289). -/
def StreamSt.code : StreamSt → Nat
  | .closed => 0 | .zero => 1 | .store => 2 | .busy => 3 | .out => 4 | .resv => 5 | .outer => 6 | .inn => 7 | .torn => 8

/-- One stream (R268 to R285): its tier, generation and the bytes of the copy that holds its state. -/
structure Stream where
  st : StreamSt := .closed
  gen : Nat := 0
  pend : Nat := 0
  kheld : Bool := false
  slot : Option Nat := none
  /-- State bytes of the copy in the store or in Reserve pages; an OUTER copy lies in the park region. -/
  copy : List Byte := []
  /-- Generation and poison of the copy; the bytes of the shadow (R276, R285). -/
  copyGen : Nat := 0
  copyPoison : Bool := false
  shadow : Option (List Byte × Nat) := none
  /-- Reserve pages that hold the copy; those of the shadow are pinned with the image (R285; log entry 33). -/
  pages : List Nat := []
  /-- Timebase value since which no call has named it (R281). -/
  idleSince : Nat := 0
  /-- Where a move under way goes, and where a swap-in comes from. -/
  toOuter : Bool := false
  src : StreamSt := .zero
  /-- A PARK that waits for the pending count (R283). -/
  parkWait : Option Bool := none
  /-- Ticks of the last begin of a swap-out and of the last taking of a call (R281); whether a PARK began it. -/
  beginTick : Nat := 0
  takenTick : Nat := 0
  byPark : Bool := false
  /-- Why a swap-in left the stream in TORN: the status of the calls that wait on it (R281). -/
  why : Option Status := none
  deriving DecidableEq, Repr, Inhabited

/-- What a stream command found: its tick, the function, the handle, the stream and its state's bytes (R283). -/
structure SeqUndo where
  tick : Nat := 0
  fn : Nat := 0
  h : Nat := 0
  stream : Stream := {}
  bytes : List Byte := []
  deriving DecidableEq, Repr, Inhabited

/-- Miss history and variant state of one job of one queue (R184, R185). -/
structure Tracker where
  misses : List Bool := []
  variant : Bool := false
  ran : Nat := 0
  lastUse : Nat := 0
  deriving DecidableEq, Repr, Inhabited

/-- The page ring of an attention group (R304): slots, where the image puts them in the data area, what is issued and consumed, and
the descriptors of the walk that are still to be emitted, each with its page number. -/
structure PageRing where
  nslot : Nat := 2
  /-- First line of the slots and of their sidecars, lines per slot, and the offsets of ARRIVED, CONSUMED and the records. -/
  line : Nat := 0
  side : Nat := 0
  slotLines : Nat := 1
  sideLines : Nat := 1
  arrivedAt : Nat := 0
  consumedAt : Nat := 0
  records : Nat := 0
  /-- Pages issued and consumed, and descriptors still to issue (R303, R304). -/
  issued : Nat := 0
  consumed : Nat := 0
  todo : List (List Byte) := []
  deriving DecidableEq, Repr, Inhabited

end Sys2Proof.Machine
end

