-- ==== Sys2Proof/Machine/StMem.lean ====
section
/-! DEFINITION. State of the memory tiers beyond the square stores: Reserve entries and pages, MMU contexts and the memory
controller. -/

namespace Sys2Proof.Machine

/-- Use of a Reserve page (R175): free, a mapped page of a partition, or a page of an entry. -/
inductive PageUse where
  | free
  | mapped (fn : Nat)
  | entry (id : Nat)
  | withheld
  deriving DecidableEq, Repr, Inhabited

/-- State of a Reserve entry (R181). -/
inductive EntrySt where
  | filling | valid | pinned
  deriving DecidableEq, Repr, Inhabited

/-- A Reserve entry (R178): key, pages, age stamp; `stale` marks a fill that a write overlapped. -/
structure RsvEntry where
  fn : Nat := 0
  addr : Nat := 0
  len : Nat := 0
  st : EntrySt := .filling
  pages : List Nat := []
  stamp : Nat := 0
  stale : Bool := false
  /-- 64-byte lines of the run, in order, each as its tier and address give it (R178, R181). -/
  lines : List Nat := []
  /-- How the run is packed into the pages: tile bytes, tiles, stride, SADDR, sidecar stride. -/
  lay : List Nat := []
  deriving DecidableEq, Repr, Inhabited

/-- A cached translation (R165): the leaf entry's TIER, frame, page shift and permissions. -/
structure Xlat where
  tier : Nat := 0
  frame : Nat := 0
  shift : Nat := 12
  r : Bool := false
  w : Bool := false
  deriving DecidableEq, Repr, Inhabited

/-- The memory controller beyond its registers: corrected-read times per pin (key channel × 32 + pin, ticks newest first),
write-backs scheduled under R208, temperatures and times of the last tracking and refresh, the channel in training; for each channel
the refresh window in force in ms where it is not 32, and the channels that halve the issue rate of Classes Q and P (R211); the data of
scheduled write-backs where a decoder took a wrong word (R202); the training records in the PHYs and in flash (R210). -/
structure MemCtl where
  pinReads : List (Nat × List Nat) := []
  writeBacks : List Nat := []
  trackTemp : List (Nat × Int) := []
  temps : List (Nat × Int) := []
  trackAt : List (Nat × Nat) := []
  refreshAt : List (Nat × Nat) := []
  training : Option Nat := none
  /-- Channels whose unit at MEM_SCRUB_POS has been scrubbed in this step of the patrol. -/
  scrubbed : List Nat := []
  window : List (Nat × Nat) := []
  halved : List Nat := []
  wbData : List (Nat × List Byte) := []
  live : List (Nat × Nat) := []
  record : List (Nat × Nat) := []
  deriving DecidableEq, Repr, Inhabited

/-- The memory tiers (R157 to R206). Every byte memory reads 0 where nothing is listed. -/
structure MemSt where
  /-- Device memory by device-physical address (R197). -/
  dev : List (Nat × Byte) := []
  /-- Poisoned 512-byte units, key PA / 512 (R198). -/
  devPoison : List (Nat × Bool) := []
  /-- Reserve bytes, key page × 4,096 + offset. -/
  rsv : List (Nat × Byte) := []
  /-- Host memory, key port × 2^64 + address (R164). -/
  host : List (Nat × Byte) := []
  /-- Square stores, key square × 2^20 + offset (R50). -/
  store : List (Nat × Byte) := []
  /-- Poisoned 64-byte lines of the stores, key square × 12,288 + line (R52). -/
  storePoison : List (Nat × Bool) := []
  /-- Wrong bits of the stores' 64-bit words, key square × 2^17 + word: 1, which SECDED corrects, or 2, which it does not (R52). -/
  storeErrs : List (Nat × Nat) := []
  /-- Words of the engines' local memories that are wrong beyond correction: page of the engine and word (R338). -/
  localErrs : List (Nat × Nat) := []
  /-- Lines of the Reserve and of host memory that were written marked poisoned, by line (R52). -/
  linePoison : List (Nat × Bool) := []
  /-- RSV_CMD FREE under way: function and page (R182). -/
  freeing : List (Nat × Nat) := []
  /-- Uses of the Reserve pages (R175). -/
  pages : List (Nat × PageUse) := []
  /-- Reserve entries by number (R178, R181), and the next number. -/
  entries : List (Nat × RsvEntry) := []
  nextEntry : Nat := 0
  /-- Cached translations, key function × 2^52 + VA of the page (R165). -/
  tlb : List (Nat × Xlat) := []
  /-- Locked translation sets, key function × 2^52 + VA of the page (R166). -/
  locked : List (Nat × Xlat) := []
  /-- The memory controller (R209 to R218). -/
  ctl : MemCtl := {}
  deriving DecidableEq, Repr, Inhabited

end Sys2Proof.Machine
end

