-- ==== Sys2Proof/Config.lean ====
section
/-! DEFINITION. What an implementation fixes and the free values.

Each constant is opaque: no proof can see its value, so a claim holds whatever it is. -/

namespace Sys2Proof.Config

/-- Fuse and strap values of the registers whose reset the maps give as "fuses", "straps" or "boot", by page and offset
(log entry 5). -/
opaque fuseWord : Nat → Nat → BitVec 32

/-- The up to two physical ranks of a file that the fuses mark defective; a number from 18 on marks none (R36; log entry 5). -/
opaque defectRank : Nat → Nat → Nat

/-- The word that a decoder beyond its limits finds for a received word and the retired pins, if it finds one (R202; log entry 21). -/
opaque wrongWord : List Nat → List Nat → List Nat

/-- Virtual functions that the host of a port enables, as the link comes up in a tick (R256; log entry 62). -/
opaque numVfs : Nat → Nat → Nat

/-- Links that fail their test at bring-up (file, link, whether an east link), channels that fail full training there, channels that fail
the tracking check of a warm reset, and the training record of a channel at a boot (R210, R576; log entry 71). -/
opaque badLinks : List (Nat × Nat × Bool)
opaque untrained : Nat
opaque trackFails : Nat → Nat → Bool
opaque trainRecord : Nat → Nat → Nat

/-- Whether the MMU still holds a translation it has cached: "may cache" (R162, R165; log entry 6). -/
opaque tlbHolds : Nat → Nat → Bool

/-- Launch parameters that a program block spells; its layout belongs to Touth (R646; log entry 7). Arguments: PROGDIGEST and
the block's offset. -/
opaque programBlock : Nat → Nat → Machine.Launch

/-- What a job's program block gives beside its launches: stream set, attention geometry, attention-layer flag, query heads, groups of
each layer (R269, R273, R291, R298, R299; log entry 7). -/
opaque jobAux : Nat → Nat → Machine.ImgJob

/-- Page ring that an image declares for the groups of an attention job (R304; log entry 7). Arguments: PROGDIGEST and job. -/
opaque pageRing : Nat → Nat → Machine.PageRing

/-- Stream-set declarations of an image (R268; log entry 7). -/
opaque setDecls : Nat → List Machine.SetDecl

/-- Layer, home square within the layer, and store offset of one state line of a slot: function, set, slot and line (R269, R270; log
entry 7). -/
opaque slotLine : Nat → Nat → Nat → Nat → Nat × Nat × Nat

/-- Class K store portion, replay squares and replay pages of a Class K image (R59, R586; log entry 7). -/
opaque kImage : Nat → Nat × List Nat × Nat

/-- Replay copy of a square's Class K store portion: PROGDIGEST and square (R586; log entry 7). -/
opaque replayCopy : Nat → Nat → List (BitVec 8)

/-- A byte of a continuation's 64, whose layout the manual does not give: the program position, the group index and the bundle count
that it holds, and the byte's place (R57, R100; log entry 11). -/
opaque contByte : Nat → Nat → Nat → Nat → BitVec 8

/-- Result of an approximate function of the thread engine or of the gate pipeline: function number and operand (R151, R156;
log entry 12). -/
opaque approx : Nat → Nat → BitVec 32

/-- Element of a quantised block whose TSCALE is not positive and finite: element width, block and TSCALE, and place (R149; log entry 16). -/
opaque blockElem : Nat → List Nat → Nat → Nat

/-- Result that the manual does not state, for an operation and an operand (log entry 13). -/
opaque unstated : Nat → Nat → BitVec 64

/-- A byte of the MAC address of an Ethernet port, which the manual does not place (R530; log entry 5). -/
opaque macByte : Nat → Nat → BitVec 8

/-- A byte of an event's DATA field, whose layout the manual does not give (R639; log entry 17). -/
opaque eventByte : Nat → List Nat → Nat → BitVec 8

/-- Place at which the `k`-th product joins an accumulation whose order the manual leaves open (R331; log entry 23). -/
opaque accOrder : Nat → Nat → Nat

/-- How many states more than those that surely fit in 8,192 cycles of checker work a batch expands, where not all do: tests that end at
a first failure save cycles (R427; log entry 25). Arguments: the occupancy codes, the library, what else the tests depend on, and the
states. -/
opaque kntCut : List (Nat × Nat) → List (BitVec 8) → List Nat → List (List Int × Nat) → Nat

/-- Knight's cosine (0) and sine (1) of an FP32 code, and the world position of a library sphere in GRID3, whose samples the manual does
not lay out (R421, R424; log entry 25). Arguments: MODE, library, start indices, heading, sample offsets, BASE and sphere. -/
opaque kntFn : Nat → Nat → Nat
opaque spherePos : Nat → List (BitVec 8) → List Int → Nat → List Int → List Nat → Nat → Nat × Nat × Nat

/-- Order of operations of a sum, by its place and the terms still to meet: which two terms meet next, and whether a product is fused
into the addition (R392 to R402, R421, R457 to R460; log entry 67). -/
opaque sumPlan : List Nat → Nat → Nat × Nat × Bool

/-- Which of the three forms of R(q) an engine evaluates, and which way a formula that can be evaluated in several ways is, by its place
(log entry 67). -/
opaque rotForm : List Nat → Nat
opaque formOf : List Nat → Nat

/-- The Solver engine's elementary functions on binary64 codes: 0 cos, 1 sin, 2 ln; the logarithm of a unit quaternion, and row `i` of its
derivative by the rotation of its left (0) or right (1) factor, for the product and its last two factors (R453, R457, R458; log entry
26). -/
opaque slvFn : Nat → Nat → Nat
opaque slvLog : List Nat → List Nat
opaque slvLogJac : Nat → List Nat → List Nat → Nat → List Nat

/-- Fusion: entry of the process noise of a model over Δt (R394, R396), and its cosine (0) and sine (1) (R401). All values are FP32 codes
(log entry 27). -/
opaque fusNoise : Nat → Nat → Nat → Nat → Nat → Nat
opaque fusTrig : Nat → Nat → Nat

/-- What the manual leaves open of Fusion's calibration filter (R401 to R403; log entry 27): an entry of the Jacobian of a residual (of
extrinsic and residual); an entry of the quaternion after a rotation error; a residual's σ; entries of the covariance that a
calibration record does not hold, and at the start, of no record; and the entries that a batch's result gives. -/
opaque fusJac : List Nat → List Nat → Nat → Nat → Nat
opaque fusSpin : List Nat → List Nat → Nat → Nat
opaque fusSigma : List Nat → List Nat → Nat
opaque fusCross : List (BitVec 8) → Nat → Nat
opaque fusBatchCov : List Nat → Nat → Nat

/-- A byte of a calibration problem's descriptor that the manual does not give: MAXIT, tolerances, λ and budget (R467). -/
opaque fusProblem : Nat → BitVec 8

/-- Voxels that a ray traverses, from its start to its end in the world frame, on a map's geometry (R404; log entry 27). -/
opaque fusRay : List Nat → List Nat → List Nat → List Nat

/-- The Input pipeline, where the manual leaves its arithmetic open (R349 to R362; log entry 29): the lens-shading gain at a pixel from
the 221 points of its colour, width, height, column and row; red, green and blue from the 5 × 5 pixels about one, for the filter order
and the pixel's place in it; BT.601 of Y, U and V to 16 bits; the one channel of a colour pixel; the resampler's first tap and phase for
an output place, its taps in 16,384ths, and its rounding of a sum m × 2^e to an FP32 code; a power, and the normal deviate of u1 and u2
in 2^24ths, as FP32 codes; and the corners of an affine footprint's box. -/
opaque lscGain : List Nat → Nat → Nat → Nat → Nat → Nat
opaque demosaic : Nat → Nat → List (Option Nat) → List Nat
opaque yuvRgb : Nat → Nat → Nat → List Nat
opaque luma : List Nat → Nat
opaque resPos : Nat → Nat → Nat → Int × Nat
opaque lanczos : Nat → Nat → Nat → Nat → Int
opaque tapRound : Int → Int → Nat
opaque inpPow : Nat → Nat → Nat
opaque deviate : Nat → Nat → Nat
opaque affineBox : List (BitVec 8) → Nat → Nat → Nat × Nat × Nat × Nat

/-- Value in [0, 1] of a decoded picture's pixel, as an FP32 code: session descriptor, units since the decoder was cleared, unit, channel,
column and row (R350, R351; log entry 29). -/
opaque decodePixel : List (BitVec 8) → List (List (BitVec 8)) → List (BitVec 8) → Nat → Nat → Nat → Nat

/-- What an access unit decodes to: 0 a picture, 1 none that can be shown, 2 an unsupported feature; its width and height, and DMGOFF
and DMGBLK; and pictures that presentation order holds back after it (R350, R352, R353). Arguments: session descriptor, units since the
decoder was cleared, and unit. -/
opaque decodeKind : List (BitVec 8) → List (List (BitVec 8)) → List (BitVec 8) → Nat
opaque decodeField : List (BitVec 8) → List (List (BitVec 8)) → List (BitVec 8) → Nat → Nat
opaque decodeHolds : List (BitVec 8) → List (List (BitVec 8)) → List (BitVec 8) → Nat

/-- The concealment map of a unit's picture (R354). -/
opaque concealMap : List (BitVec 8) → List (List (BitVec 8)) → List (BitVec 8) → List (BitVec 8)

/-- SHAKE256 with 64-byte output (R596, R609, R645; log entry 32). -/
opaque shake256 : List (BitVec 8) → List (BitVec 8)

/-- Castle's cryptography and its manufacture (log entry 32): whether an Ed448 signature verifies for a public key, a context and a
message; a signature's byte for a private key (0: the unit's; 1 + n: the key of draw n), a context and a message; owner slots' public
keys fused at manufacture and Nirkevel's keys in mask ROM, by byte; Nirkevel keys revoked and the RMA fuse blown at manufacture; what a
first stage revokes; the two certificates; the image set that a module is shipped with; its boots before; the strap that forces
recovery; and byte `i` of a measurement of R618 of a kind over what it covers. -/
opaque ed448Verify : List (BitVec 8) → List (BitVec 8) → List (BitVec 8) → List (BitVec 8) → Bool
opaque ed448Sign : Nat → List (BitVec 8) → List (BitVec 8) → Nat → BitVec 8
opaque slotKey : Nat → Nat → BitVec 8
opaque nirkevelKey : Nat → Nat → BitVec 8
opaque nirkevelRevoked : Nat → Bool
opaque rmaFuse : Bool
opaque revokes : List (BitVec 8) → Nat → Bool
opaque certificate : Nat → List (BitVec 8)
opaque shippedSet : List (BitVec 8)
opaque bootsBefore : Nat
opaque forceRecovery : Bool
opaque measure : Nat → List Nat → Nat → BitVec 8

/-- Reserve pages of rows beyond repair, which bring-up withholds from the pool (R576; log entry 36). -/
opaque badPages : List Nat

/-- The device's part number: KY4800-16I (R1), and its PCI vendor ID in the messages of R642 (log entry 5). -/
opaque industrial : Bool
opaque vendorId : Nat

/-- The power controller's estimate in mW of one file at the K floor with Class Q and P issue throttled to zero, for a list of the
file, the K floor, Tj and the number of refits (R553); and of BRD in 10 mW at an operating point, for a list of its estimate now, the
point now, the target and Tj (R549). Log entry 30. -/
opaque fileFloorMw : List Nat → Nat
opaque brdAt : List Nat → Nat

/-- Memory upsets of a tick of the timebase: a word of the square stores in which one more bit turns wrong, and a word of an engine's
local memory that turns wrong beyond correction, by its page (R52, R72, R338; log entry 70). -/
opaque storeUpset : Nat → Option Nat
opaque localUpset : Nat → Option (Nat × Nat)

/-- A fresh free value of `w` bits (log entry 2). -/
opaque free : Nat → (w : Nat) → BitVec w

end Sys2Proof.Config
end

