-- ==== Sys2Proof/Machine/StCtl.lean ====
section
/-! DEFINITION. State of Tempo, the Joint Ring, the timebase and the Ethernet ports, beside their registers, and the requests
that the block pages record. -/

namespace Sys2Proof.Machine

/-- Requests that a page of R676 has recorded: QUIESCE, ENABLE 1, RESET (R683). -/
structure PageCtl where
  recQuiesce : Bool := false
  recEnable : Bool := false
  recReset : Bool := false
  /-- The stop is that of a Hold or Sleep entry: it ends in HELD (R337, R370, R470). -/
  hold : Bool := false
  deriving DecidableEq, Repr, Inhabited

/-- A running injection (R493, R494): its block and component table, the period count, the shift register, the phase of a swept sine. -/
structure Inj where
  blk : List Byte := []
  table : List Byte := []
  t : Nat := 0
  reg : Nat := 0
  phase : Nat := 0
  deriving DecidableEq, Repr, Inhabited

/-- One Tempo loop beside its registers (R476 to R496). -/
structure Loop where
  /-- Bytes of the loaded images, and of those that take effect at the next sample instant (R487, R489). -/
  prim : List Byte := []
  safe : List Byte := []
  newPrim : Option (List Byte) := none
  newSafe : Option (List Byte) := none
  /-- Mailbox as accepted, and words staged through TMP_MBXn (R485). -/
  mbx : List (Nat × Word) := []
  staged : List (Nat × Word) := []
  /-- Mailbox writes accepted since the last sample instant, oldest first, each with the tick of its acceptance (R20). -/
  fresh : List (Nat × List (Nat × Word)) := []
  /-- The mailbox is frozen: causes 5 and 6 (R491). -/
  frozen : Bool := false
  /-- Generation of the global configuration in force at the START that created the mailbox (R33). -/
  gen : Nat := 0
  /-- Mailbox as it stood in the tick of the current sample instant (R20). -/
  snap : List (Nat × Word) := []
  /-- Timebase value of the START, the last sampled cycle, and the cycle whose computation is due. -/
  startAt : Nat := 0
  last : Option Nat := none
  await : Option Nat := none
  /-- Controller and observer state vectors (R478). -/
  xbar : List Int := []
  xhat : List Int := []
  /-- Outputs last staged, and the fallback set staged last. -/
  u : List Int := []
  fall : List Int := []
  /-- Measurements and errors of the last computation, and the injection signal (R495). -/
  y : List Int := []
  e : List Int := []
  injNow : Int := 0
  /-- Consecutive periods with an invalid measurement (R479). -/
  miss : Nat := 0
  /-- Bank from the next sample instant: true for the safe bank. -/
  toSafe : Option Bool := none
  /-- Oscillation detector: outputs before injection, last signs, reversals newest first, per output (R492). -/
  oscU : List Int := []
  sign : List Int := []
  rev : List (List Bool) := []
  /-- The injection that runs (R493). -/
  inj : Option Inj := none
  /-- The current computation has had its first mismatch, or its second and is abandoned (R496). -/
  mism : Bool := false
  abandoned : Bool := false
  deriving DecidableEq, Repr, Inhabited

/-- Output sets that the ring holds for a loop: image bytes at offsets; the set in force, the one staged for a cycle, and the
fallback set for a cycle (R481). -/
structure OutSet where
  cur : List (Nat × List Byte) := []
  staged : Option (Nat × List (Nat × List Byte)) := none
  fall : Option (Nat × List (Nat × List Byte)) := none
  deriving DecidableEq, Repr, Inhabited

/-- Tempo beside its registers and loops. -/
structure TempoSt where
  loops : List (Nat × Loop) := []
  /-- Ticks of checker mismatches (R496). -/
  mism : List Nat := []
  /-- Slack measurements: tick and ns (R501). -/
  slacks : List (Nat × Nat) := []
  deriving DecidableEq, Repr, Inhabited

/-- A frame template (R513). -/
structure Tmpl where
  len : Nat := 64
  ndg : Nat := 1
  timedg : Nat := 0xFF
  exp : List Nat := []
  frame : List Byte := []
  deriving DecidableEq, Repr, Inhabited

/-- A copy of a launched frame: not yet back, discarded, or taken at a port. -/
inductive RingCopy where
  | away | discarded
  | taken (port : Nat) (frame : List Byte)
  deriving DecidableEq, Repr, Inhabited

/-- A cyclic frame under way (R514, R515). -/
structure RingFlight where
  cycle : Nat := 0
  seq : Nat := 0
  frame : List Byte := []
  c0 : RingCopy := .away
  c1 : RingCopy := .away
  deriving DecidableEq, Repr, Inhabited

/-- The Joint Ring beside its registers; its images lie in JRG_TXIMG and JRG_RXIMG. -/
structure RingSt where
  tmpl : Option Tmpl := none
  /-- A loaded template that is not yet in force, with the time of its LOAD. -/
  next : Option (Nat × Tmpl) := none
  /-- Time at which MODE last changed. -/
  modeAt : Nat := 0
  /-- The cyclic frame under way, and the cycle of the last launch (R514). -/
  flight : Option RingFlight := none
  lastLaunch : Option Nat := none
  /-- Cycle of the last merge with a copy taken, and the datagrams that passed (R515). -/
  returned : Option Nat := none
  pass : List Bool := []
  /-- Output sets of the loops (R481). -/
  outs : List (Nat × OutSet) := []
  /-- Transmit-image bytes as they stood at the staging deadline of the next launch, where written since (R514). -/
  late : List (Nat × Byte) := []
  /-- SEQ kept by a node (R511). -/
  seqKept : Option Nat := none
  /-- ACYC command under way: where its template lies, and the launch time, if the frame ever fits (R518). -/
  acyc : Option (Nat × Option Nat) := none
  /-- Tick at which each port's link came up. -/
  upAt : List (Nat × Nat) := []
  /-- Last frame sent by each port. -/
  sent : List (Nat × List Byte) := []
  deriving DecidableEq, Repr, Inhabited

/-- A timebase source: ticks of its last offset and of the start of its availability (R524). -/
structure TimeSrc where
  lastAt : Option Nat := none
  since : Nat := 0
  deriving DecidableEq, Repr, Inhabited

/-- A trigger output: its next firing time, and the end of its last pulse in timebase ns with its polarity (R527). -/
structure Trigger where
  next : Option Nat := none
  pulseEnd : Nat := 0
  high : Bool := false
  /-- Its last firing. -/
  fired : Option Nat := none
  deriving DecidableEq, Repr, Inhabited

/-- The timebase beside its count and registers. -/
structure TimeSt where
  ptp : TimeSrc := {}
  ring : TimeSrc := {}
  /-- Consecutive offsets within ±STEPMIN / 8, and consecutive disagreements (R524, R525). -/
  close : Nat := 0
  disagree : Nat := 0
  /-- Trigger outputs (R527). -/
  trg : List (Nat × Trigger) := []
  /-- Stamps queued per capture input, oldest first, with the polarity (R528). -/
  cap : List (Nat × List (Nat × Bool)) := []
  /-- The armed alarm (R533). -/
  alarm : Option Nat := none
  deriving DecidableEq, Repr, Inhabited

/-- An Ethernet port beside its registers: its port block and the bytes it last sent (R530 to R532). -/
structure EthPort where
  block : Option (List Byte) := none
  sent : List Byte := []
  deriving DecidableEq, Repr, Inhabited

end Sys2Proof.Machine
end

