-- ==== Sys2Proof/Machine/StHost.lean ====
section
/-! DEFINITION. State of the Arbiter and of the resets, beside their registers. -/

namespace Sys2Proof.Machine

/-- One event of the log (R639); `data` is what the DATA field carries. -/
structure Event where
  seq : Nat := 0
  sev : Nat := 0
  page : Nat := 0
  part : Nat := 0xFF
  kind : Nat := 0
  code : Nat := 0
  time : Nat := 0
  gen : Nat := 0
  data : List Nat := []
  deriving DecidableEq, Repr, Inhabited

/-- The link of a PCIe port as the Arbiter follows it (R634): the tick at which it went down, whether it has been up since READY,
and the tick at which its host was lost. -/
structure PortSt where
  downAt : Option Nat := none
  seenUp : Bool := false
  lostAt : Option Nat := none
  deriving DecidableEq, Repr, Inhabited

/-- The Arbiter beside its registers (R630 to R643). -/
structure ArbSt where
  /-- Events in SRAM and in flash, newest first (R640). -/
  log : List Event := []
  flash : List Event := []
  /-- Functions whose mailbox requests wait, in the order of their GO writes (R631). -/
  mbx : List Nat := []
  /-- A restart runs; ticks of the restarts of the last second (R630). -/
  restarting : Bool := false
  restarts : List Nat := []
  /-- HOST_TAG of the owner (R633). -/
  hostTag : List Byte := []
  /-- A configuration that has passed its checks: its block, and the function whose CONFIG_WRITE it completes (64: none) (R635, R637). -/
  cfg : Option (List Byte × Nat) := none
  /-- Reserve floors that it lowers, by function: no pin goes beyond one from then on (R33). -/
  floors : List (Nat × Nat) := []
  /-- Links of the PCIe ports (R634). -/
  ports : List (Nat × PortSt) := []
  /-- Tick of READY. -/
  readyAt : Nat := 0
  /-- Last complete sensor scan and its time, and when a plate event was last logged (R638). -/
  scan : List Nat := []
  scanTime : Nat := 0
  plateAt : Option Nat := none
  /-- Path of R636 of the change under way. -/
  path : Nat := 0
  /-- The last takeover: its tick, the claimant and the owner before it (R634). -/
  taken : Option (Nat × Nat × Nat) := none
  /-- Endpoint ID and the last message sent over MCTP (R642). -/
  eid : Nat := 0
  mctp : List Byte := []
  deriving DecidableEq, Repr, Inhabited

/-- Resets, bring-up and the modes (R571 to R583): the Board or compute reset that runs, true for a compute reset, with the step in
progress; those recorded. -/
structure RstSt where
  run : Option (Bool × Nat) := none
  board : Bool := false
  compute : Bool := false
  /-- Off until VIN falls below 5 V (R657), and THERMTRIP_N driven low (R661). -/
  latched : Bool := false
  tripped : Bool := false
  /-- WARM_RESET_N is low past its filter (R661). -/
  pinLow : Bool := false
  /-- Tick of the reset event (DEV_BOOT_MS). -/
  started : Nat := 0
  /-- Files under BIST (R580). -/
  bist : List Nat := []
  /-- Dispatcher cores out of service until the next Board reset (R589). -/
  failedCores : List Nat := []
  deriving DecidableEq, Repr, Inhabited

/-- Power beside page 0x03 (R542 to R566). -/
structure PowSt where
  /-- Percentages in force, domains 0 to 6 (R542, R544). -/
  frac : List Nat := [58, 22, 6, 7, 4, 2, 1]
  /-- A lowered cap accepted and not yet in force: cap, GRANT_ID, FORCE (R554). -/
  grant : Option (Nat × Nat × Bool) := none
  /-- DEV_GEN as the forced grant left it whose cap fails the test of R553 (R555). -/
  failing : Option Nat := none
  /-- Steps of the limiting actions of MEM, NOC and PV, and consecutive evaluations below 95% of the limit (R546). -/
  steps : List (Nat × Nat) := []
  calm : List (Nat × Nat) := []
  /-- The guard: its last tick, the cap and the measurement (R547). -/
  guard : Option (Nat × Nat × Nat) := none
  /-- Sum and number of the measurements of the 1 ms window. -/
  window : Nat × Nat := (0, 0)
  /-- Refits of the estimate terms (R545). -/
  refits : Nat := 0
  /-- Operating-point change under way, and the latest request that waits (R550). -/
  change : Option Nat := none
  nextOpp : Option Nat := none
  /-- The transition under way is for an OFF request; it is the exit of a Sleep entry from Hold (R559, R565). -/
  off : Bool := false
  viaHold : Bool := false
  /-- A wake accepted during it, and whether a request made it (R561). -/
  woken : Bool := false
  asked : Bool := false
  /-- Latest recorded request: 0 to 3 (R558). -/
  recorded : Option Nat := none
  /-- A warm reset with its cause bit waits for the exit (R572). -/
  warm : Option Nat := none
  /-- Tick at which the step in progress began. -/
  stepAt : Nat := 0
  /-- State of page 0x05 as step 2 of an entry held it (R255, R559). -/
  dspWas : Nat := 0
  /-- Pages that were ON as step 8 of an entry stopped them. -/
  slept : List Nat := []
  deriving DecidableEq, Repr, Inhabited

/-- An RCV session (R615): the port that holds it, pages announced, chunks programmed, the window and the set so far. -/
structure RcvSt where
  port : Nat := 0
  pages : Nat := 0
  chunk : Option Nat := none
  win : List (Nat × Byte) := []
  set : List Byte := []
  deriving DecidableEq, Repr, Inhabited

/-- An UPDATE under way (R613): its function, the address and the bytes of its set, and its pass. -/
structure UpdSt where
  fn : Nat := 0
  va : Nat := 0
  set : List Byte := []
  pass : Nat := 1
  deriving DecidableEq, Repr, Inhabited

/-- Castle beside page 0x02 (R596 to R629). Fuses and flash are kept across every event. -/
structure CslSt where
  /-- Public keys fused in this model's run, by slot (R600, R601). -/
  keys : List (Nat × List Byte) := []
  /-- Nirkevel keys revoked, and the RMA fuse, blown in this model's run (R600, R619). -/
  nkRevoked : List Nat := []
  rma : Bool := false
  /-- Owner entries: the number of the draw that made each key; entries destroyed by an RMA (R598). -/
  entries : List (Nat × Nat) := []
  wiped : Bool := false
  /-- Flash: the set it holds where one has been written, and whether a pass 2 was cut short (R608, R613). -/
  flash : Option (List Byte) := none
  flashCut : Bool := false
  /-- Kept in AON: the manifest of the running set, and the manifest whose digests Castle keeps (R611, R613). -/
  running : List Byte := []
  kept : List Byte := []
  /-- Boots counted in this model's run. -/
  boots : Nat := 0
  /-- Ticks at which each function's outstanding challenge was written (R604). -/
  chal : List (Nat × Nat) := []
  /-- Ticks of SIGNATURE_INVALID results, and of the start of the back-off (R607). -/
  badSigs : List Nat := []
  backoffAt : Option Nat := none
  /-- Debug session: open, its end in timebase ns, its token and the time of its opening; DBGHIST (R617, R619). -/
  session : Bool := false
  ends : Nat := 0
  token : List Byte := []
  opened : Nat := 0
  hist : Nat := 0
  /-- Commands accepted while an UPDATE runs: function, value, VA (R627). -/
  waiting : List (Nat × Nat × Nat) := []
  /-- The UPDATE under way, and the RCV session (R613, R615). -/
  upd : Option UpdSt := none
  rcv : Option RcvSt := none
  deriving DecidableEq, Repr, Inhabited

/-- A peripheral controller beside its registers (R669, R670): the descriptor that runs, its bytes and its outcome, once known. -/
structure PerSt where
  desc : Option (List Byte) := none
  data : List Byte := []
  outcome : Option (Status × Nat × Nat) := none
  stamp : Nat := 0
  deriving DecidableEq, Repr, Inhabited

end Sys2Proof.Machine
end

