-- ==== Sys2Proof/Machine/StEng.lean ====
section
/-! DEFINITION. State of the fixed engines: Edge, Knight, the Solver engine, Fusion and the Input pipeline, beside their registers. -/

namespace Sys2Proof.Machine

/-- A descriptor that an engine runs in one of its two contexts (R334): the function and class of its ring, where it lies, its bytes,
why it stops at its next boundary, whether it ends without output, whether the current segment has had a residue mismatch, and the
ticks of context time it has used. -/
structure Task where
  fn : Nat := 0
  va : Nat := 0
  desc : List Byte := []
  cls : Nat := 0
  stop : Option Status := none
  silent : Bool := false
  mism : Bool := false
  used : Nat := 0
  started : Nat := 0
  deriving DecidableEq, Repr, Inhabited

/-- What the ring engines share: running tasks by context, accepted tails with their ticks by function, residue mismatches of the
last second, the tick at which a context last did work, the turns of Q and P rings, and whether context 1 has ended a segment while
context 0 had one ready (R334). -/
structure EngSt where
  tasks : List (Nat × Task) := []
  stamps : List (Nat × List (Nat × Nat)) := []
  mism : List Nat := []
  lastAt : Nat := 0
  turns : Turns := {}
  late : Bool := false
  deriving DecidableEq, Repr, Inhabited

/-- Work of an Edge descriptor: its weight blob, rows written, segments of the current row, the frame it reads (R335), the lines it
has read, and whether GENOK has fallen since it was taken (R326). -/
structure EdgeRun where
  blob : List Byte := []
  row : Nat := 0
  seg : Nat := 0
  frame : Option Nat := none
  lines : List (Nat × List Nat) := []
  genFell : Bool := false
  deriving DecidableEq, Repr, Inhabited

/-- The Edge engine. -/
structure EdgeSt where
  eng : EngSt := {}
  runs : List (Nat × EdgeRun) := []
  deriving DecidableEq, Repr, Inhabited

/-- A state of a Knight search (R422, R431): indices, velocity class, cost so far, heuristic, parent and primitive, insertion order
and whether it is open. -/
structure KState where
  n : List Int := []
  v : Nat := 0
  g : Nat := 0
  h : Nat := 0
  parent : Option Nat := none
  prim : Nat := 0
  order : Nat := 0
  isOpen : Bool := true
  deriving DecidableEq, Repr, Inhabited

/-- A Knight search: states by number, the next insertion order, states expanded, the goal with its tolerances and class, and
whether MAXSTATES has been met. -/
structure KSearch where
  states : List KState := []
  next : Nat := 0
  expanded : Nat := 0
  goal : List Int := []
  tol : List Nat := []
  vgoal : Nat := 0
  full : Bool := false
  deriving DecidableEq, Repr, Inhabited

/-- A segment of a trajectory (R439): primitive, start state, end class, cost, duration, and whether it is a brake. -/
structure KSeg where
  prim : Nat := 0
  brake : Bool := false
  n : List Int := []
  v : Nat := 0
  vend : Nat := 0
  cost : Nat := 0
  dur : Nat := 0
  deriving DecidableEq, Repr, Inhabited

/-- What a Knight query does: the search of R431 from START, with `again` for a re-plan; a local search around the failing segment `f`
of the path (R436); the commit of R435. -/
inductive KPhase where
  | search (again : Bool)
  | repair (f : Nat)
  | commit
  | brake (n : Nat)
  deriving DecidableEq, Repr, Inhabited

/-- A Knight query that runs: its library, version snapshot, phase and search, whether the start of a search from START has been
tested, and the trajectory that is being committed: path, brakes, FLAGS, rounds, status and states expanded. -/
structure KnightRun where
  lib : List Byte := []
  snap : List (Nat × Nat) := []
  phase : KPhase := .search false
  search : KSearch := {}
  begun : Bool := false
  path : List KSeg := []
  brakes : List KSeg := []
  flags : Nat := 0
  rounds : Nat := 0
  status : Status := .ok
  expanded : Nat := 0
  deriving DecidableEq, Repr, Inhabited

/-- A watched trajectory (R440). -/
structure Watch where
  fn : Nat := 0
  desc : List Byte := []
  lib : List Byte := []
  snap : List (Nat × Nat) := []
  path : List KSeg := []
  brakes : List KSeg := []
  rev : Nat := 0
  deriving DecidableEq, Repr, Inhabited

/-- Knight: the geometry in force, occupancy codes by voxel, the occupancy and UNKOBS that the clearance plane reflects, regions whose
version advances as the clearance update completes (`none`: no update runs), versions, cached libraries by context (function, VA,
bytes), and watches by slot. -/
structure KnightSt where
  eng : EngSt := {}
  runs : List (Nat × KnightRun) := []
  geom : Nat × Nat × Nat × Nat := (0x888, 0x3CA3D70A, 0, 0)
  orgz : Nat := 0
  occ : List (Nat × Nat) := []
  clrOcc : List (Nat × Nat) := []
  clrUnk : Bool := false
  update : Option (List Nat) := none
  vers : List (Nat × Nat) := []
  caches : List (Nat × (Nat × Nat × List Byte)) := []
  watches : List (Nat × Watch) := []
  /-- A map command that waits for a running occupancy pass (R441): its operation and the writer. -/
  mapCmd : Option (Nat × Nat) := none
  /-- The map command that the running clearance update ends: its writer. -/
  mapEnd : Option Nat := none
  /-- Sphere tests run since KNT_CHECKS last advanced (R445). -/
  tests : Nat := 0
  deriving DecidableEq, Repr, Inhabited

/-- A Solver problem that runs: the bytes read during setup (descriptor, poses, landmarks, blocks, bounds), the point as binary64
codes, λ, trials, accepted steps, costs, ‖g‖∞, evaluations without rows, engine cycles left of the current trial, and how it ends,
once it has: status, DETAIL and FLAGS; of a REPLAY (R468) the operations, values and the next operation. -/
structure SolverRun where
  data : List Byte := []
  x : List Nat := []
  lambda : Nat := 0
  trials : Nat := 0
  accepted : Nat := 0
  cost0 : Nat := 0
  cost : Nat := 0
  gnorm : Nat := 0
  behind : Nat := 0
  left : Nat := 0
  begun : Bool := false
  result : Option (Status × Nat × Nat) := none
  replay : Bool := false
  ops : List Nat := []
  vals : List Nat := []
  pc : Nat := 0
  deriving DecidableEq, Repr, Inhabited

/-- The Solver engine; `cal` is a calibration problem of Fusion that waits. -/
structure SolverSt where
  eng : EngSt := {}
  runs : List (Nat × SolverRun) := []
  cal : Bool := false
  deriving DecidableEq, Repr, Inhabited

/-- A source of Fusion (R380 to R386): parameter block in force and block loaded for the next tick, accepted tails with their times (newest
first), the latest record, a DEPTH record with its image that waits for a pass, live extrinsic and filter covariance (FP32 codes, the upper
triangle of 6 × 6), CALGEN, the status of its last CAL_DONE, whether CAL_LIMIT stands, the tick of the last filter update, drift
bookkeeping of R400, and the figures of its last record or pass. -/
structure FusSrc where
  block : List Byte := []
  newBlock : Option (List Byte) := none
  head : Nat := 0
  tail : Nat := 0
  stamps : List (Nat × Nat) := []
  latest : Option (List Byte) := none
  waiting : Option (List Byte × List Byte) := none
  ext : List Nat := []
  cov : List Nat := []
  calgen : Nat := 0
  lastCal : Nat := 0
  calLimit : Bool := false
  calAt : Nat := 0
  base : Option Int := none
  delays : List Int := []
  figs : List Nat := []
  deriving DecidableEq, Repr, Inhabited

/-- State of a track (R391). -/
inductive TrackSt where
  | tentative | confirmed | conflictA | conflictB
  deriving DecidableEq, Repr, Inhabited

/-- The code of a track's state. -/
def TrackSt.code : TrackSt → Nat
  | .tentative => 1 | .confirmed => 2 | .conflictA => 3 | .conflictB => 4

/-- A track (R391, R395, R397); X and P as FP32 codes at LASTUPD. -/
structure Track where
  st : TrackSt := .tentative
  model : Nat := 0
  reuse : Nat := 0
  twin : Option Nat := none
  misses : Nat := 0
  hits : Nat := 0
  updates : Nat := 0
  srcmask : Nat := 0
  cls : Nat := 0
  score : Nat := 0
  lastUpd : Nat := 0
  x : List Nat := []
  p : List Nat := []
  /-- The source that does not feed a hypothesis, and the pair and count of R397. -/
  notFed : Option Nat := none
  pair : Nat × Nat := (0, 0)
  count : Nat := 0
  deriving DecidableEq, Repr, Inhabited

/-- A source of an occupancy pass: its block, image, extrinsic and body pose. -/
structure PassSrc where
  src : Nat := 0
  block : List Byte := []
  image : List Byte := []
  ext : List Nat := []
  body : List Nat := []
  deriving DecidableEq, Repr, Inhabited

/-- The Fusion engine: engine block in force and the one loaded, sources, tracks, reuse counts, the command that waits for the tick
with its writer, records written, ticks skipped since the last record, slipping pairs, the residual store, a calibration batch (source
and CALGEN) and its result (status and pose), clear counters, the pass that runs, the time at which the running tick's work ends,
residue mismatches of the coming tick and of the last second, and the last tick instant. -/
structure FusionSt where
  block : List Byte := []
  newBlock : Option (List Byte) := none
  srcs : List (Nat × FusSrc) := []
  tracks : List (Nat × Track) := []
  reuse : List (Nat × Nat) := []
  cmd : Option (Nat × Nat) := none
  written : Nat := 0
  skipped : Nat := 0
  slips : List (Nat × Nat) := []
  resid : List (Nat × List Nat) := []
  batch : Option (Nat × Nat) := none
  batchDone : Option (Nat × List Nat) := none
  clear : List (Nat × Nat) := []
  pass : Option (List PassSrc) := none
  busyUntil : Nat := 0
  mismTick : Nat := 0
  mism : List Nat := []
  lastTick : Nat := 0
  deriving DecidableEq, Repr, Inhabited

/-- A capture virtual channel (R346 to R348): the front-end block in force, whether one is armed, the frame that is open with its
stamps, and the settings latched at its Frame Start. -/
structure Capture where
  block : Option (List Byte) := none
  armed : Bool := false
  isOpen : Bool := false
  num : Nat := 0
  sof : Nat := 0
  trig : Nat := 0
  cfg : Nat := 0
  geom : Nat := 0
  lines : List (List Nat) := []
  nrep : Nat := 0
  bad : Bool := false
  /-- Frames opened on this channel. -/
  serial : Nat := 0
  deriving DecidableEq, Repr, Inhabited

/-- A decoded picture that has not left its session (R352): its ring entry, its access unit with those before it, its concealed blocks and
the tick in which its decoding completed. -/
structure Picture where
  entry : List Byte := []
  past : List (List Byte) := []
  unit : List Byte := []
  nconc : Nat := 0
  eof : Nat := 0
  deriving DecidableEq, Repr, Inhabited

/-- A decode session (R351, R352): its state (0 CLOSED, 1 OPEN, 2 ERROR), function, descriptor, ring indices, the cause of an ERROR,
counters, the entry and the access unit that are being decoded, and the units since the decoder was last cleared. -/
structure Session where
  st : Nat := 0
  fn : Nat := 0
  desc : List Byte := []
  head : Nat := 0
  tail : Nat := 0
  status : Nat := 0
  conc : Nat := 0
  lost : Nat := 0
  unit : Option (List Byte × List Byte) := none
  past : List (List Byte) := []
  /-- Decoded pictures, in decoding order, and how many of them presentation order holds back. -/
  out : List Picture := []
  held : Nat := 0
  deriving DecidableEq, Repr, Inhabited

/-- A sample of a batch that is being formed (R367): its source code, whether its frame is still under way, whether it is MISSING,
whether the identity entry is used, its status, its record, its augmentation entry, and whether it is concealed. -/
structure Sample where
  src : Nat := 0
  isOpen : Bool := true
  missing : Bool := false
  ident : Bool := false
  status : Status := .ok
  record : List Byte := []
  aug : List Byte := []
  concealed : Bool := false
  deriving DecidableEq, Repr, Inhabited

/-- A batch queue (R360 to R368): descriptor (empty: free), slot size, indices, counters, the batch that forms with the SOF that opened
it, and whether HIGH_WATER was raised for the batch that waits. -/
structure BatchQ where
  desc : List Byte := []
  slotSize : Nat := 0
  written : Nat := 0
  consumed : Nat := 0
  augHead : Nat := 0
  augTail : Nat := 0
  bp : Nat := 0
  skip : Nat := 0
  augId : Nat := 0
  forming : Bool := false
  opened : Nat := 0
  samples : List Sample := []
  high : Bool := false
  deriving DecidableEq, Repr, Inhabited

/-- A pyramid level of a source as the Edge engine sees it (R335, R356): the frame, its lines offered and the tick of the first, the
last 32 lines of any frame, by frame and line, oldest first, and the lines overwritten last, with the tick. -/
structure LevelBuf where
  frame : Nat := 0
  offered : Nat := 0
  firstAt : Nat := 0
  lines : List (Nat × Nat × List Nat) := []
  spent : List (Nat × Nat × List Nat) := []
  spentAt : Nat := 0
  deriving DecidableEq, Repr, Inhabited

/-- The Input pipeline: capture channels, sessions, batch queues (key function × 8 + local index), level buffers (key channel × 8 +
level), luma samples decoded with their ticks (R377), and the sessions of Class Q and P served last (R352). -/
structure InputSt where
  caps : List (Nat × Capture) := []
  sess : List (Nat × Session) := []
  bqs : List (Nat × BatchQ) := []
  levels : List (Nat × LevelBuf) := []
  load : List (Nat × Nat) := []
  lastQ : Option Nat := none
  lastP : Option Nat := none
  deriving DecidableEq, Repr, Inhabited

end Sys2Proof.Machine
end

