-- ==== Sys2Proof/Machine/State.lean ====
section
/-! DEFINITION. The state of the block, the reasons a command can stop, and the state after reset. -/

namespace Sys2Proof.Machine

/-- A partition (R31, R637), beyond its registers FIL_PART, DSP_QRANGE, RSV_FLOOR and MMU_EXT. -/
structure Part where
  held : Bool := false
  qbase : Nat := 0
  /-- Generation in force when it was created: its mailbox carries it (R33). -/
  gen : Nat := 0
  deriving DecidableEq, Repr, Inhabited

/-- The machine. Plain data. -/
structure State where
  /-- Registers, key bank × 2^24 + page × 2^16 + offset; an unlisted register holds its reset value. -/
  regs : List (Nat × Word)
  /-- Value that the last read command answered. -/
  readData : Nat
  /-- Free values drawn so far. -/
  free : Nat
  /-- Timebase count and fraction (R521). -/
  now : Nat
  nowFrac : Nat
  /-- 250 MHz ticks since power-up. -/
  ticks : Nat
  /-- MSI-X messages sent, key function × 2,048 + vector. -/
  msix : List (Nat × Nat)
  parts : List (Nat × Part)
  mem : MemSt
  squares : List (Nat × Square)
  files : List (Nat × FileSt)
  groups : List (Nat × Group)
  nextGroup : Nat
  jobs : List (Nat × Job)
  nextJob : Nat
  queues : List (Nat × Queue)
  /-- Turns between new Q and P jobs (R239). -/
  turns : Turns
  images : List (Nat × Image)
  streams : List (Nat × Stream)
  /-- What the stream commands of this tick found (R283). -/
  seqUndo : List SeqUndo
  trackers : List (Nat × Tracker)
  rings : List (Nat × PageRing)
  /-- Negotiated MAJOR of each function that has completed a HELLO (R632). -/
  hello : List (Nat × Nat)
  ctls : List (Nat × PageCtl)
  tempo : TempoSt
  ring : RingSt
  time : TimeSt
  eth : List (Nat × EthPort)
  arb : ArbSt
  rst : RstSt
  pow : PowSt
  csl : CslSt
  pers : List (Nat × PerSt)
  edge : EdgeSt
  knight : KnightSt
  solver : SolverSt
  fusion : FusionSt
  input : InputSt
  /-- Timebase value at which the last suspension of the Class K bounds ended (R555). -/
  suspEnd : Nat
  /-- Commands that wait, first in first out. -/
  pending : List Instr
  deriving DecidableEq, Repr

/-- Why the machine stops with a fault. -/
inductive Fault where
  /-- Raised by MEM_READ, MEM_WRITE and DEMAND_WRITEBACK for a unit beyond the 28 GiB of device memory (R196), which does not
  exist. Safe: the model stops where there is nothing to read or write. -/
  | noSuchUnit
  deriving DecidableEq, Repr

/-- Why a command is refused. -/
inductive Refusal where
  /-- Raised by `exec` for a command that has no meaning yet. Safe: nothing can be proved of its effect. -/
  | notModelled (mnemonic : String)
  deriving DecidableEq, Repr

/-- The machine right after reset: every register at its reset value, nothing resident, every queue empty. -/
def State.reset : State :=
  { regs := [], readData := 0, free := 0, now := 0, nowFrac := 0, ticks := 0, msix := [], parts := [], mem := {},
    squares := [], files := [], groups := [], nextGroup := 0, jobs := [], nextJob := 0, queues := [], turns := {}, images := [],
    streams := [], seqUndo := [], trackers := [], rings := [], hello := [], ctls := [], tempo := {}, ring := {}, time := {}, eth := [],
      arb := {}, rst := {}, pow := {},
    csl := {}, pers := [],
    edge := {}, knight := {}, solver := {}, fusion := {}, input := {},
    suspEnd := 0, pending := [] }

end Sys2Proof.Machine
end

