-- ==== Sys2Proof/Machine/Ops.lean ====
section
/-! DEFINITION. The named operations that every family uses: registers and their fields, interrupts, error records, the
owner and the partitions, the MMU, and the byte memories of the four tiers. -/

namespace Sys2Proof.Machine

/-- The answer of a command's meaning. -/
abbrev Out := Host.Outcome State Fault Refusal

/-! ## Registers -/

/-- The file pages share the map of page 0x20 (R73). -/
def mapPage (page : Nat) : Nat := if 0x20 ≤ page ∧ page ≤ 0x2F then 0x20 else page

/-- The register descriptors of a page. -/
def pageRegs (page : Nat) : List RegDesc :=
  match mapPage page with
  | 0x00 => regs00 | 0x01 => regs01 | 0x02 => regs02 | 0x03 => regs03 | 0x04 => regs04 | 0x05 => regs05
  | 0x06 => regs06 | 0x07 => regs07 | 0x08 => regs08 | 0x09 => regs09 | 0x0A => regs0A | 0x0B => regs0B
  | 0x0C => regs0C | 0x0D => regs0D | 0x0E => regs0E | 0x0F => regs0F | 0x10 => regs10 | 0x11 => regs11
  | 0x12 => regs12 | 0x13 => regs13 | 0x20 => regs20 | _ => []

/-- Whether an offset is one of a descriptor's registers. -/
def RegDesc.covers (d : RegDesc) (off : Nat) : Bool :=
  decide (d.off ≤ off) && decide ((off - d.off) % d.stride = 0) && decide ((off - d.off) / d.stride < d.count)

/-- The descriptor of a register, if its page's chapter lists it. -/
def findReg (page off : Nat) : Option RegDesc := (pageRegs page).find? fun d => d.covers off

/-- Registers whose reset value the maps give as fuses, straps or boot. -/
def isFuseReg (page off : Nat) : Bool :=
  match mapPage page, off with
  | 0x20, 0x40 => true | 0x20, 0x44 => true | 0x20, 0x7C => true | 0x20, 0x80 => true
  | 0x10, 0x50 => true | 0x00, 0x58 => true | 0x02, 0x54 => true | 0x02, 0x58 => true | 0x02, 0x5C => true
  | 0x02, 0x84 => true | 0x02, 0x88 => true | 0x02, 0x8C => true | 0x02, 0x90 => true | 0x13, 0x68 => true
  | _, _ => false

/-- The physical ranks of a file that the fuses mark defective, at most two, and the first 16 that they do not, which hold its logical
ranks (R36, R77). -/
def defective (file rank : Nat) : Bool := Config.defectRank file 0 == rank || Config.defectRank file 1 == rank
def enabledRanks (file : Nat) : List Nat := ((List.range 18).filter fun r => !defective file r).take 16

/-- Value of a fuse register: the maps of physical ranks, no east links on file p, reserved bits 0 (R8, R77, R84). -/
def fuseReset (page off : Nat) : Word :=
  match mapPage page, off with
  | 0x20, 0x40 => BitVec.ofNat 32 (maskOf ((List.range 18).filter fun r => defective (page - 0x20) r))
  | 0x20, 0x44 => BitVec.ofNat 32 (maskOf (enabledRanks (page - 0x20)))
  | _, _ =>
    if page = 0x2F ∧ off = 0x80 then 0#32
    else Config.fuseWord page off &&& ~~~(BitVec.ofNat 32 (((findReg page off).map RegDesc.resv).getD 0))

/-- What a register holds at reset: the value of its map; the fuses' value where the map says so; 2^(5 + n) for
DSP_ATT_EDGEn (R315). -/
def regReset (page off : Nat) : Word :=
  if isFuseReg page off then fuseReset page off
  else if page = 0x05 ∧ 0x144 ≤ off ∧ off ≤ 0x180 then BitVec.ofNat 32 (2 ^ (5 + (off - 0x144) / 4))
  else match findReg page off with
    | some d => BitVec.ofNat 32 d.reset
    | none => 0#32

/-- The place of a register in the register table: the copy (`bank`), the page and the offset. -/
def regKey (bank page off : Nat) : Nat := bank * 2 ^ 24 + page * 2 ^ 16 + off

/-- Read a register as stored. -/
def State.getReg (s : State) (bank page off : Nat) : Word :=
  assocGet (regReset page off) s.regs (regKey bank page off)

/-- Write a register as stored. -/
def State.setReg (s : State) (bank page off : Nat) (v : Word) : State :=
  { s with regs := assocSet (regReset page off) s.regs (regKey bank page off) v }

/-- Read a field. -/
def State.getF (s : State) (bank : Nat) (f : Fld) : Nat := bits (s.getReg bank f.page f.off).toNat f.hi f.lo

/-- Write a field, leaving the register's other bits. -/
def State.setF (s : State) (bank : Nat) (f : Fld) (v : Nat) : State :=
  s.setReg bank f.page f.off (BitVec.ofNat 32 (withBits (s.getReg bank f.page f.off).toNat f.hi f.lo v))

/-- Read a one-bit field. -/
def State.flag (s : State) (bank : Nat) (f : Fld) : Bool := s.getF bank f == 1

/-- Write a one-bit field. -/
def State.setFlag (s : State) (bank : Nat) (f : Fld) (b : Bool) : State := s.setF bank f (if b then 1 else 0)

/-- Advance a counter field, which saturates at its largest value. -/
def State.bump (s : State) (bank : Nat) (f : Fld) (d : Nat) : State :=
  s.setF bank f (satAdd (2 ^ (f.hi + 1 - f.lo) - 1) (s.getF bank f) d)

/-- A 64-bit value in a LO and HI pair of registers. -/
def State.get64 (s : State) (bank : Nat) (lo hi : Fld) : Nat := s.getF bank lo + 2 ^ 32 * s.getF bank hi

/-- Write a 64-bit value to a LO and HI pair of registers. -/
def State.set64 (s : State) (bank : Nat) (lo hi : Fld) (v : Nat) : State :=
  (s.setF bank lo (v % 2 ^ 32)).setF bank hi (v / 2 ^ 32 % 2 ^ 32)

/-- Draw one free value: its number is the counter's. -/
def State.drawFree (s : State) : State := { s with free := s.free + 1 }

/-! ## The owner and the partitions -/

/-- The owner's function (R32, R634: DEV_OWN.STATE is OWNED or LAPSED). -/
def State.ownerFn (s : State) : Option Nat :=
  if s.getF 0 Fld.DEV_OWN_STATE = 0 then none else some (s.getF 0 Fld.DEV_OWN_FUNC)

/-- Whether a function is the owner's. -/
def State.isOwner (s : State) (fn : Nat) : Bool := s.ownerFn == some fn

/-- The control-owner partition (R19). -/
def State.ctlOwner (s : State) : Option Nat :=
  if s.flag 0 Fld.DEV_CTLOWN_V then some (s.getF 0 Fld.DEV_CTLOWN_PART) else none

/-- Whether a function is the control-owner's. -/
def State.isCtlOwner (s : State) (fn : Nat) : Bool := s.ctlOwner == some fn

/-- Whether a function holds a partition. -/
def State.hasPart (s : State) (fn : Nat) : Bool := (assocGet {} s.parts fn).held

/-- The page of a file (R73). -/
def filePage (f : Nat) : Nat := 0x20 + f

/-- The partition that holds a file (R78). -/
def State.fileHolder (s : State) (f : Nat) : Option Nat :=
  if s.flag 0 (Fld.FIL_PART_ASSIGNED.onPage (filePage f)) then some (s.getF 0 (Fld.FIL_PART_PART.onPage (filePage f)))
  else none

/-- Whether a file is reserved for Class K. -/
def State.fileKres (s : State) (f : Nat) : Bool := s.flag 0 (Fld.FIL_PART_KRES.onPage (filePage f))

/-- The files of a partition. -/
def State.partFiles (s : State) (fn : Nat) : List Nat := indices 16 fun f => s.fileHolder f == some fn

/-- The files of a partition that are reserved for Class K. -/
def State.partKFiles (s : State) (fn : Nat) : List Nat := indices 16 fun f => s.fileHolder f == some fn && s.fileKres f

/-- Whether any file is reserved for Class K (R210). -/
def State.anyKres (s : State) : Bool := (List.range 16).any fun f => s.fileKres f

/-- The partition that OWNER names for a page, as function `fn` reads it (R680). -/
def State.pageOwner (s : State) (page fn : Nat) : Option Nat :=
  if 0x20 ≤ page ∧ page ≤ 0x2F then s.fileHolder (page - 0x20)
  else if page = 0x01 ∨ page = 0x05 ∨ page = 0x06 ∨ page = 0x08 then if s.hasPart fn then some fn else none
  else if page = 0x09 ∨ page = 0x0A then s.ctlOwner
  else s.ownerFn

/-! ## Block states of the header (R675, R676) -/

/-- STS.STATE codes. -/
def stOff : Nat := 0
def stStarting : Nat := 1
def stOn : Nat := 2
def stStopping : Nat := 3
def stFault : Nat := 4
def stHeld : Nat := 5

/-- Pages on which ENABLE, RESET and QUIESCE act (R676). -/
def hasCtl (page : Nat) : Bool :=
  page == 0x05 || (decide (0x09 ≤ page) && decide (page ≤ 0x0F)) || (decide (0x20 ≤ page) && decide (page ≤ 0x2F))

/-- The stored STATE of a page. -/
def State.pageSt (s : State) (page : Nat) : Nat := s.getF 0 (Fld.STS_STATE.onPage page)

/-- Set the STATE of a page. -/
def State.setPageSt (s : State) (page st : Nat) : State := s.setF 0 (Fld.STS_STATE.onPage page) st

/-- The last value written to ENABLE (R683). -/
def State.enableReq (s : State) (page : Nat) : Bool := s.flag 0 (Fld.CTL_ENABLE.onPage page)

/-- Record a value of ENABLE. -/
def State.setEnableReq (s : State) (page : Nat) (b : Bool) : State := s.setFlag 0 (Fld.CTL_ENABLE.onPage page) b

/-! ## Interrupts and error records -/

/-- Pages whose interrupts go to one function only: they keep a single set of IRQ registers (R678). -/
def irqSingle (page : Nat) : Bool :=
  page == 0x00 || page == 0x03 || page == 0x04 || page == 0x07 || page == 0x09 || page == 0x0A || page == 0x0D ||
  page == 0x12 || decide (0x20 ≤ page)

/-- The copy of the IRQ registers of a page that belongs to a function. -/
def irqBank (page fn : Nat) : Nat := if irqSingle page then 0 else fn

/-- The function that a page's interrupt signals; `fn` is the function an event of a page with several sets is for. -/
def State.irqTarget (s : State) (page fn : Nat) : Option Nat :=
  if irqSingle page then s.pageOwner page fn else some fn

/-- Send an MSI-X message: counted per function and vector. -/
def State.signal (s : State) (fn vec : Nat) : State :=
  let k := fn * 2048 + vec
  { s with msix := assocSet 0 s.msix k (assocGet 0 s.msix k + 1) }

/-- The vector of a page's interrupts: PAGEVEC, or FILEVEC for the file pages (R237). -/
def State.pageVec (s : State) (page fn : Nat) : Nat :=
  if 0x20 ≤ page then s.getF fn Fld.DSP_IRQVEC_FILEVEC else s.getF fn Fld.DSP_IRQVEC_PAGEVEC

/-- Signal a page's interrupt to the function that it is routed to. -/
def State.signalPage (s : State) (page fn : Nat) : State :=
  match s.irqTarget page fn with
  | some t => s.signal t (s.pageVec page t)
  | none => s

/-- Set bits of IRQ_RAW; the page signals when a bit of IRQ_STS becomes 1 (R237, R678). -/
def State.raiseBits (s : State) (page fn mask : Nat) : State :=
  let b := irqBank page fn
  let raw := s.getReg b page 0x010
  let en := s.getReg b page 0x014
  let raw' := raw ||| BitVec.ofNat 32 mask
  let s' := s.setReg b page 0x010 raw'
  if raw' &&& en ≠ raw &&& en then s'.signalPage page fn else s'

/-- Raise one interrupt bit of a page. -/
def State.raiseIrq (s : State) (page fn i : Nat) : State := s.raiseBits page fn (2 ^ i)

/-- Record a status in one function's view of a page (R675, R677). -/
def State.recErr (s : State) (page fn : Nat) (st : Status) (offset : Nat) : State :=
  let s1 := s.bump fn (Fld.ERR_CODE_COUNT.onPage page) 1
  let s2 := s1.setF fn (Fld.ERR_CODE_CODE.onPage page) st.code
  s2.setF fn (Fld.ERR_INFO.onPage page) (offset % 2 ^ 16 + 2 ^ 24 * (fn % 64))

/-- Record a status that the block itself raises: in the view of the page's OWNER partition, OFFSET 0xFFFF (R677). -/
def State.recErrBlock (s : State) (page fn : Nat) (st : Status) : State :=
  match s.pageOwner page fn with
  | some p => s.recErr page p st 0xFFFF
  | none => s

/-- Complete a command register's operation: STATUS, DONE 1 (R681 and the command maps). -/
def State.finishCmd (s : State) (bank : Nat) (sts : Fld) (st : Status) : State :=
  (s.setF bank { sts with hi := 31, lo := 16 } st.code).setF bank { sts with hi := 15, lo := 15 } 1

/-- Whether a command register's last operation is complete. -/
def State.cmdDone (s : State) (bank : Nat) (sts : Fld) : Bool := s.getF bank { sts with hi := 15, lo := 15 } == 1

/-- Mark a command register's operation as running. -/
def State.startCmd (s : State) (bank : Nat) (sts : Fld) : State := s.setF bank { sts with hi := 15, lo := 15 } 0

/-- Whether a written value sets a bit that the register's map gives as reserved (R681). -/
def resvHit (page off v : Nat) : Bool :=
  match findReg page off with
  | some d => (BitVec.ofNat 32 v &&& BitVec.ofNat 32 d.resv) != 0#32
  | none => false

/-- The status that a page's malformed commands and writes get (R681). -/
def malformedStatus (page off : Nat) : Status :=
  match mapPage page with
  | 0x00 => if off < 0x100 then .devMalformed else .arbMalformed
  | 0x01 => .arbMalformed
  | 0x02 => .cslMalformed
  | 0x03 => .powerMalformed
  | 0x04 => .timeMalformed
  | 0x11 => .timeMalformed
  | 0x05 => if off < 0x100 then .entryMalformed else if off < 0x140 then .seqMalformed
    else if off < 0x1C0 then .attMalformed else .imageRejected
  | 0x09 => .tempoMalformed
  | 0x0A => .ringMalformed
  | 0x0B => .planMalformed
  | 0x0C => .solverMalformed
  | 0x0D => .fusionMalformed
  | 0x0E => .inputMalformed
  | 0x12 => .inputMalformed
  | 0x0F => .edgeMalformed
  | 0x13 => .entryMalformed
  | _ => .malformed

/-- Whether BAR0 serves a page: every page from READY on; pages 0x00 and 0x01 from the end of stage 5 and in FAILED, and page 0x02
in RECOVERY; in Sleep pages 0x00, 0x03 and 0x04 (R564, R574, R576, R615). -/
def State.serves (s : State) (page : Nat) : Bool :=
  let st := s.getF 0 Fld.DEV_BOOT_STAGE
  (st == 7 && (s.getF 0 Fld.PWR_STATE_STATE != 2 || page == 0 || page == 3 || page == 4)) ||
    ((st == 6 || st == 9) && decide (page ≤ 1)) || (st == 8 && decide (page ≤ 2))

/-- Whether a function has no negotiated driver interface (R632). -/
def State.unsupported (s : State) (fn : Nat) : Bool := !s.hello.any fun e => e.1 == fn

/-- A register write as the page meets it: ignored while the page is not served, VERSION_UNSUPPORTED from a function without a
HELLO, and otherwise what the page does (R574, R632). -/
def State.gated (s : State) (fn page off : Nat) (f : State) : State :=
  if !s.serves page then s
  else if page ≠ 1 ∧ page ≠ 2 ∧ page ≠ 8 ∧ s.unsupported fn then s.recErr page fn .versionUnsupported off
  else f

/-- The OP code of a command register: bits [31:28] of the written value. -/
def opCode (v : Nat) : Nat := bits v 31 28

/-- A write to a command register that reports in a STATUS field: another OP is another command's; a writer that may not write is
recorded with `deny`; a write while DONE reads 0 is ignored; a reserved bit completes with the page's malformed status (R681);
otherwise the operation `f` runs and completes at once with its status, raising IRQ bit `irq`. -/
def State.pageCmd (s : State) (fn page off v op : Nat) (may : Bool) (deny : Status) (bank : Nat) (sts : Fld)
    (irq : Option Nat) (f : State × Status) : State :=
  let done := fun (r : State × Status) =>
    let s1 := r.1.finishCmd bank sts r.2
    match irq with
    | some i => s1.raiseIrq page fn i
    | none => s1
  if opCode v ≠ op then s
  else s.gated fn page off (
    if !may then s.recErr page fn deny off
    else if !s.cmdDone bank sts then s
    else if resvHit page off v then done (s, malformedStatus page off)
    else done f)

/-- As `pageCmd`, for an operation that may go on: no status leaves DONE 0 until the operation's end completes it. -/
def State.pageCmdLong (s : State) (fn page off v op : Nat) (may : Bool) (deny : Status) (bank : Nat) (sts : Fld)
    (irq : Option Nat) (f : State × Option Status) : State :=
  if (f.2.isSome || !may || !s.cmdDone bank sts || resvHit page off v) then
    s.pageCmd fn page off v op may deny bank sts irq (f.1, f.2.getD .ok)
  else if opCode v ≠ op then s
  else s.gated fn page off (f.1.startCmd bank sts)

/-! ## Device memory, the Reserve and host memory -/

/-- Whether the memory serves requests (R213). -/
def State.memOn (s : State) : Bool := s.pageSt 0x07 == stOn

/-- Channel of a device-physical address (R197). -/
def chanOf (pa : Nat) : Nat := Nat.xor (Nat.xor (bits pa 11 9) (bits pa 14 12)) (bits pa 17 15)

/-- Whether a channel serves a request now: the memory is ON and the channel is not in training (R210, R213). -/
def State.chanServes (s : State) (chan : Nat) : Bool := s.memOn && s.mem.ctl.training != some chan

/-- Whether any unit of a device-memory range is poisoned. -/
def State.devPoisoned (s : State) (pa n : Nat) : Bool :=
  (List.range (cdiv (pa % 512 + n) 512)).any fun i => assocGet false s.mem.devPoison (pa / 512 + i)

/-- Bytes of device memory. -/
def State.devRead (s : State) (pa n : Nat) : List Byte := cellsRead s.mem.dev pa n

/-- Where a byte lies among the tiers 0 device memory, 1 Reserve and 2 host memory (R162, R164); a 64-byte line is named by it in 64ths. -/
def tierKey (fn tier a : Nat) : Nat := if tier = 2 then fn / 16 * 2 ^ 64 + a else a
def byteKey (fn tier a : Nat) : Nat := tier * 2 ^ 78 + tierKey fn tier a

/-- Whether a line's key is one of the Reserve. -/
def rsvLine (k : Nat) : Bool := k / 2 ^ 72 == 1

/-- Reserve entries follow a write (R181): a fill of the run is marked stale; VALID and PINNED entries are updated in place where a memory
controller performs the write. -/
def entriesFollow (m : MemSt) (pa : Nat) (data : List Byte) : MemSt :=
  m.entries.foldl (init := m) fun m e =>
    let hits := e.2.lines.zipIdx.filter fun li =>
      decide (li.1 * 64 < pa + data.length) && decide (pa < li.1 * 64 + 64)
    if hits.isEmpty || (e.2.st != .filling && decide (2 ^ 78 ≤ pa)) then m
    else match e.2.st with
      | .filling => { m with entries := assocInsert e.1 { e.2 with stale := true } m.entries }
      | _ => hits.foldl (init := m) fun m li =>
          let page := e.2.pages.getD (li.2 / 64) 0
          (List.range 64).foldl (init := m) fun m k =>
            let a := li.1 * 64 + k
            if pa ≤ a ∧ a < pa + data.length then
              { m with rsv := assocSet 0 m.rsv (page * 4096 + li.2 % 64 * 64 + k) (data.getD (a - pa) 0) }
            else m

/-- Units of device memory that a range touches. -/
def unitsOf (pa n : Nat) : List Nat := (List.range (cdiv (pa % 512 + n) 512)).map fun i => pa / 512 + i

/-- The scheduled write-backs that remain after a write to some units (R208). -/
def MemSt.dropWb (m : MemSt) (us : List Nat) : MemSt :=
  { m with ctl := { m.ctl with
    writeBacks := m.ctl.writeBacks.filter fun u => !us.contains u, wbData := m.ctl.wbData.filter fun e => !us.contains e.1 } }

/-- Write bytes of device memory: a whole aligned unit clears its poison bit; a smaller write leaves it (R204); a scheduled write-back of a
unit written is dropped (R208). -/
def State.devWrite (s : State) (pa : Nat) (data : List Byte) : State :=
  let m := { s.mem.dropWb (unitsOf pa data.length) with dev := cellsWrite s.mem.dev pa data }
  let whole := (List.range (cdiv (pa % 512 + data.length) 512)).filter fun i =>
    decide (pa ≤ (pa / 512 + i) * 512) && decide ((pa / 512 + i) * 512 + 512 ≤ pa + data.length)
  let m := { m with devPoison := whole.foldl (fun p i => assocSet false p (pa / 512 + i) false) m.devPoison }
  { s with mem := entriesFollow m pa data }

/-- Bytes of the memory of a tier: 0 device, 1 Reserve, 2 host (R162). -/
def State.tierRead (s : State) (fn tier a n : Nat) : List Byte :=
  match tier with
  | 0 => s.devRead a n
  | 1 => cellsRead s.mem.rsv a n
  | _ => cellsRead s.mem.host (fn / 16 * 2 ^ 64 + a) n

/-- Whether a read of a tier returns poisoned data: a poisoned unit, or a line written marked poisoned (R52, R206). -/
def State.tierPoisoned (s : State) (fn tier a n : Nat) : Bool :=
  if tier = 0 then s.devPoisoned a n
  else (List.range (cdiv (a % 64 + n) 64)).any fun i => assocGet false s.mem.linePoison (byteKey fn tier a / 64 + i)

/-- Lines of a range that a write covers whole lose their mark. -/
def wholeLines (l : List (Nat × Bool)) (k n : Nat) : List (Nat × Bool) :=
  l.filter fun e => !(decide (k ≤ e.1 * 64) && decide (e.1 * 64 + 64 ≤ k + n))

/-- Write bytes of the memory of a tier. -/
def State.tierWrite (s : State) (fn tier a : Nat) (data : List Byte) : State :=
  match tier with
  | 0 => s.devWrite a data
  | t =>
    let m := { s.mem with linePoison := wholeLines s.mem.linePoison (byteKey fn t a) data.length }
    let m' := if t = 1 then { m with rsv := cellsWrite m.rsv a data } else { m with host := cellsWrite m.host (fn / 16 * 2 ^ 64 + a) data }
    { s with mem := entriesFollow m' (byteKey fn t a) data }

/-! ## The MMU (R161 to R166) -/

/-- How an access uses memory. -/
inductive Acc where
  | read | write | atomic
  deriving DecidableEq, Repr

/-- Who asks for a translation: the REQ code of MMU_FAULT_HI (R194). The table has no code for the Arbiter and Castle: theirs is a
free value (log entry 34). -/
inductive Req where
  | thread | mover | dispatcher | engine
  | manager (n : Nat)
  deriving DecidableEq, Repr

/-- The REQ code. -/
def Req.code : Req → Nat
  | .thread => 0 | .mover => 1 | .dispatcher => 2 | .engine => 3
  | .manager n => (Config.free n 4).toNat

/-- Whether a device-physical range lies in one of a partition's extents (R194). -/
def State.inExtents (s : State) (fn pa n : Nat) : Bool :=
  (List.range 4).any fun i =>
    let b := Fld.MMU_EXTn_BASE_UNIT.plus (8 * i)
    let l := Fld.MMU_EXTn_LIMIT_UNIT.plus (8 * i)
    s.flag fn (Fld.MMU_EXTn_BASE_VALID.plus (8 * i)) && decide (s.getF fn b * 2 ^ 21 ≤ pa) &&
      decide (pa + n ≤ s.getF fn l * 2 ^ 21)

/-- Whether a Reserve page is a mapped page of a partition. -/
def State.holdsPage (s : State) (fn page : Nat) : Bool := assocGet PageUse.free s.mem.pages page == .mapped fn

/-- Read one table entry: fails with cause 6 outside the extents, 7 from a poisoned unit, 1 when it is not valid or has a
reserved bit set (R163); cause 0 stands for a memory that does not serve the walk (R213). -/
def State.pte (s : State) (fn pa : Nat) : Except Nat Nat :=
  if !s.inExtents fn pa 8 then .error 6
  else if !s.memOn then .error 0
  else if s.devPoisoned pa 8 then .error 7
  else
    let e := leNat (s.devRead pa 8)
    if !bit e 0 || bits e 11 8 != 0 || bit e 3 then .error 1 else .ok e

/-- The translation that a leaf entry gives. -/
def leafXlat (e shift : Nat) : Xlat :=
  { tier := bits e 6 5, frame := bits e 63 12 * 4096, shift := shift, r := bit e 1, w := bit e 2 }

/-- Walk the four-level table of a partition (R161 to R163). -/
def State.walk (s : State) (fn va : Nat) : Except Nat Xlat :=
  if va ≥ 2 ^ 52 then .error 5
  else if !s.flag fn Fld.MMU_ROOT_LO_EN then .error 1
  else
    let root := s.getF fn Fld.MMU_ROOT_LO_ADDR * 2 ^ 16 + s.getF fn Fld.MMU_ROOT_HI_ADDR * 2 ^ 32
    match s.pte fn (root + 8 * bits va 51 39) with
    | .error c => .error c
    | .ok e3 => if bit e3 4 then .error 1 else
    match s.pte fn (bits e3 63 12 * 4096 + 8 * bits va 38 30) with
    | .error c => .error c
    | .ok e2 => if bit e2 4 then .error 1 else
    match s.pte fn (bits e2 63 12 * 4096 + 8 * bits va 29 21) with
    | .error c => .error c
    | .ok e1 => if bit e1 4 then .ok (leafXlat e1 21) else
    match s.pte fn (bits e1 63 12 * 4096 + 8 * bits va 20 12) with
    | .error c => .error c
    | .ok e0 => if bit e0 4 then .ok (leafXlat e0 12) else .error 1

/-- Key of a translation in the cached and locked sets. -/
def tlbKey (fn va : Nat) : Nat := fn * 2 ^ 52 + va / 4096 * 4096

/-- The translation in force: locked, cached and still held, or walked anew (R165, R166); with EN 0 every access fails with cause 1
(R194). -/
def State.xlat (s : State) (fn va : Nat) : Except Nat Xlat :=
  if va ≥ 2 ^ 52 then .error 5
  else if !s.flag fn Fld.MMU_ROOT_LO_EN then .error 1
  else match s.mem.locked.find? fun e => e.1 == tlbKey fn va with
    | some e => .ok e.2
    | none => match s.mem.tlb.find? fun e => e.1 == tlbKey fn va with
      | some e => if Config.tlbHolds s.free (tlbKey fn va) then .ok e.2 else s.walk fn va
      | none => s.walk fn va

/-- Translate an address for an access: the tier and the address in it, or the cause of the failure (R163). -/
def State.translate (s : State) (fn va : Nat) (acc : Acc) : Except Nat (Nat × Nat) :=
  match s.xlat fn va with
  | .error c => .error c
  | .ok x =>
    if x.tier = 3 then .error 3
    else
      let allowed := match acc with
        | .read => x.r
        | .write => x.r && x.w
        | .atomic => x.r && x.w
      if !allowed then .error 2
      else
        let a := x.frame + va % 2 ^ x.shift
        if x.tier = 0 ∧ !s.inExtents fn a 1 then .error 4
        else if x.tier = 1 ∧ !s.holdsPage fn (a / 4096) then .error 4
        else .ok (x.tier, a)

/-- Whether an access waits for a channel in training (R210). -/
def State.inTraining (s : State) (fn va : Nat) (acc : Acc) : Bool :=
  match s.translate fn va acc with
  | .ok (0, a) => s.mem.ctl.training == some (chanOf a)
  | _ => false

/-- Record a failed translation in MMU_FAULT (R163, R194). -/
def State.mmuFault (s : State) (fn : Nat) (req : Req) (va cause : Nat) : State :=
  let s1 := s.setF fn Fld.MMU_FAULT_LO (va % 2 ^ 32)
  let s2 := s1.setF fn Fld.MMU_FAULT_HI_REQ req.code
  let s3 := s2.setF fn Fld.MMU_FAULT_HI_CAUSE cause
  s3.setF fn Fld.MMU_FAULT_HI_VA (va / 2 ^ 32)

/-- What a translation leaves in the MMU: a miss walks and caches; a poisoned or reserved entry is never cached (R163). -/
def State.mmuTouch (s : State) (fn va : Nat) : State :=
  let k := tlbKey fn va
  if s.mem.locked.any fun e => e.1 == k then s
  else if (s.mem.tlb.any fun e => e.1 == k) && Config.tlbHolds s.free k then s
  else if va ≥ 2 ^ 52 || !s.flag fn Fld.MMU_ROOT_LO_EN then s
  else
    let s' := (s.bump fn Fld.MMU_WALKS 1).bump fn Fld.MMU_MISS 1
    match s.walk fn va with
    | .ok x => { s' with mem := { s'.mem with tlb := assocInsert k x s'.mem.tlb } }.drawFree
    | .error _ => s'.drawFree

/-- Why a virtual access fails: a translation cause of R194, poisoned data, or a memory that does not serve (R213). -/
inductive VaErr where
  | xlat (cause : Nat)
  | poison
  | held
  deriving DecidableEq, Repr

/-- What a failed translation says. -/
def VaErr.ofCause (c : Nat) : VaErr := if c = 0 then .held else .xlat c

/-- The status with which a mover, an engine or the Dispatcher completes on a failed access (R163, R206, R213). -/
def VaErr.status : VaErr → Status
  | .xlat c => if c = 7 then .eccUncorrectable else .accessDenied
  | .poison => .eccUncorrectable
  | .held => .accessDenied

/-- The status of a failed read. -/
def readStatus (e : VaErr) : Status := if e = .poison then .eccUncorrectable else e.status

/-- Bytes left in the 4 KiB page of an address. -/
def pageRest (va : Nat) : Nat := 4096 - va % 4096

/-- Check an access of `n` bytes page by page, without performing it. -/
def State.vaCheck (s : State) (fn va n : Nat) (acc : Acc) : Option (Nat × Nat) :=
  ((List.range (cdiv (va % 4096 + n) 4096)).map fun i => if i = 0 then va else (va / 4096 + i) * 4096).findSome?
    fun a => match s.translate fn a acc with
      | .error c => some (a, c)
      | .ok _ => none

/-- One page's part of a read. -/
def State.vaReadPart (s : State) (fn va n : Nat) : Except VaErr (List Byte) :=
  match s.translate fn va .read with
  | .error c => .error (.ofCause c)
  | .ok (tier, a) =>
    if tier = 0 ∧ !s.memOn then .error .held
    else if s.tierPoisoned fn tier a n then .error .poison
    else .ok (s.tierRead fn tier a n)

/-- Read bytes of a virtual address space, page by page; the first failure stands. `fuel` bounds the pages. -/
def State.vaBytes (s : State) (fn va n : Nat) : Nat → Except VaErr (List Byte)
  | 0 => .ok []
  | fuel + 1 =>
    if n ≤ pageRest va then s.vaReadPart fn va n
    else match s.vaReadPart fn va (pageRest va) with
      | .error e => .error e
      | .ok b => match s.vaBytes fn (va + pageRest va) (n - pageRest va) fuel with
        | .error e => .error e
        | .ok b' => .ok (b ++ b')

/-- The MMU's traces of an access to a range: translations cached, and the first failure recorded. -/
def State.vaTrace (s : State) (fn : Nat) (req : Req) (va n : Nat) (acc : Acc) : State :=
  let s' := ((List.range (cdiv (va % 4096 + n) 4096)).map fun i => (va / 4096 + i) * 4096).foldl
    (fun s a => s.mmuTouch fn a) s
  match s.vaCheck fn va n acc with
  | some (a, c) => if c = 0 then s' else s'.mmuFault fn req a c
  | none => s'

/-- A request that the memory does not serve: while it is HELD, ACCESS_DENIED is recorded in its page (R213). -/
def State.noteHeld (s : State) : State := if s.pageSt 0x07 = stHeld then s.recErrBlock 0x07 0 .accessDenied else s

/-- Read bytes of a partition's virtual address space. -/
def State.vaRead (s : State) (fn : Nat) (req : Req) (va n : Nat) : State × Except VaErr (List Byte) :=
  let r := s.vaBytes fn va n (n / 4096 + 2)
  let s' := s.vaTrace fn req va n .read
  (match r with
    | .error .held => s'.noteHeld
    | _ => s', r)

/-- Write bytes through the MMU, page by page, where the whole range translates. -/
def State.vaPut (s : State) (fn va : Nat) (data : List Byte) : Nat → State
  | 0 => s
  | fuel + 1 =>
    if data.isEmpty then s else
    let k := Nat.min data.length (pageRest va)
    let s' := match s.translate fn va .write with
      | .ok (tier, a) => s.tierWrite fn tier a (data.take k)
      | .error _ => s
    s'.vaPut fn (va + k) (data.drop k) fuel

/-- Write bytes of a partition's virtual address space: nothing is written unless the whole range translates writable. -/
def State.vaWrite (s : State) (fn : Nat) (req : Req) (va : Nat) (data : List Byte) : State × Except VaErr Unit :=
  let s' := s.vaTrace fn req va data.length .write
  match s.vaCheck fn va data.length .write with
  | some (_, c) => (if c = 0 then s'.noteHeld else s', .error (.ofCause c))
  | none => match s.translate fn va .write with
    | .ok (0, _) => if s.memOn then (s'.vaPut fn va data (data.length / 4096 + 2), .ok ()) else (s'.noteHeld, .error .held)
    | _ => (s'.vaPut fn va data (data.length / 4096 + 2), .ok ())

/-! ## Square stores (R50, R52) -/

/-- Bytes of a square store. -/
def State.storeRead (s : State) (sq off n : Nat) : List Byte := cellsRead s.mem.store (sq * 2 ^ 20 + off) n

/-- Whether any line of a store range is poisoned. -/
def State.storePoisoned (s : State) (sq off n : Nat) : Bool :=
  (List.range (cdiv (off % 64 + n) 64)).any fun i => assocGet false s.mem.storePoison (sq * 12288 + off / 64 + i)

/-- 64-bit words of the stores that a range of one touches, and those that it covers (R52). -/
def storeWords (sq off n : Nat) : List Nat := (List.range (cdiv (off % 8 + n) 8)).map fun i => sq * 2 ^ 17 + off / 8 + i
def wholeWord (sq off n k : Nat) : Bool :=
  decide (sq * 2 ^ 20 + off ≤ 8 * k) && decide (8 * k + 8 ≤ sq * 2 ^ 20 + off + n)

/-- Write bytes of a square store; a full-line write clears the line's poison, and a word written whole has no wrong bits (R52). -/
def State.storeWrite (s : State) (sq off : Nat) (data : List Byte) : State :=
  let full := (List.range (cdiv (off % 64 + data.length) 64)).filter fun i =>
    decide (off ≤ (off / 64 + i) * 64) && decide ((off / 64 + i) * 64 + 64 ≤ off + data.length)
  let sp := full.foldl (fun p i => assocSet false p (sq * 12288 + off / 64 + i) false) s.mem.storePoison
  { s with mem := { s.mem with
    store := cellsWrite s.mem.store (sq * 2 ^ 20 + off) data, storePoison := sp
    storeErrs := s.mem.storeErrs.filter fun e => !wholeWord sq off data.length e.1 } }

/-- Mark the lines of a store range poisoned. -/
def State.storePoisonLines (s : State) (sq off n : Nat) : State :=
  let sp := (List.range (cdiv (off % 64 + n) 64)).foldl
    (fun p i => assocSet false p (sq * 12288 + off / 64 + i) true) s.mem.storePoison
  { s with mem := { s.mem with storePoison := sp } }

/-- Clear the store of a square (R67, R70). -/
def State.storeClear (s : State) (sq : Nat) : State :=
  let sp := s.mem.storePoison.filter fun e => decide (e.1 < sq * 12288) || decide (sq * 12288 + 12288 ≤ e.1)
  { s with mem := { s.mem with
    store := cellsZero s.mem.store (sq * 2 ^ 20) (2 ^ 20), storePoison := sp
    storeErrs := s.mem.storeErrs.filter fun e => e.1 / 2 ^ 17 != sq } }

/-! ## Squares and files -/

/-- The file and the rank index of a square (R3). -/
def sqFile (sq : Nat) : Nat := sq / 16
def sqRank (sq : Nat) : Nat := sq % 16

/-- SQ_STATE codes (R81). -/
def sqGated : Nat := 0
def sqIdle : Nat := 1
def sqRunning : Nat := 2
def sqPreempting : Nat := 3
def sqFaultSt : Nat := 4
def sqTest : Nat := 5

/-- The field of SQ_STATE_LO or SQ_STATE_HI that holds a square's state. -/
def sqStateFld (sq : Nat) : Fld :=
  let r := sqRank sq
  { page := filePage (sqFile sq), off := if r < 8 then 0x060 else 0x064, hi := 4 * (r % 8) + 3, lo := 4 * (r % 8) }

/-- State of a square. -/
def State.sqSt (s : State) (sq : Nat) : Nat := s.getF 0 (sqStateFld sq)

/-- Set the state of a square. -/
def State.setSqSt (s : State) (sq st : Nat) : State := s.setF 0 (sqStateFld sq) st

/-- SQ_FAULT bit of a square. -/
def sqFaultFld (sq : Nat) : Fld := { page := filePage (sqFile sq), off := 0x068, hi := sqRank sq, lo := sqRank sq }

/-- A square beyond its state field. -/
def State.square (s : State) (sq : Nat) : Square := assocGet {} s.squares sq

/-- Replace a square. -/
def State.setSquare (s : State) (sq : Nat) (x : Square) : State := { s with squares := assocSet {} s.squares sq x }

/-- What a file page holds beside its registers. -/
def State.file (s : State) (f : Nat) : FileSt := assocGet {} s.files f

/-- Replace what a file page holds. -/
def State.setFile (s : State) (f : Nat) (x : FileSt) : State := { s with files := assocSet {} s.files f x }

/-- A group by its number. -/
def State.group (s : State) (g : Nat) : Option Group := (s.groups.find? fun e => e.1 == g).map (·.2)

/-- Replace a group. -/
def State.setGroup (s : State) (g : Nat) (x : Group) : State := { s with groups := assocInsert g x s.groups }

/-- Take a group out of the table. -/
def State.dropGroup (s : State) (g : Nat) : State := { s with groups := assocErase g s.groups }

/-- Numbers of the groups resident on a square. -/
def State.groupsOn (s : State) (sq : Nat) : List Nat := (s.groups.filter fun e => e.2.square == sq).map (·.1)

/-- A job by its number. -/
def State.job (s : State) (j : Nat) : Option Job := (s.jobs.find? fun e => e.1 == j).map (·.2)

/-- Replace a job. -/
def State.setJob (s : State) (j : Nat) (x : Job) : State := { s with jobs := assocInsert j x s.jobs }

/-- Key of a queue pair: its function and local index. -/
def queueKey (fn q : Nat) : Nat := fn * 65536 + q

/-- A queue pair. -/
def State.queue (s : State) (fn q : Nat) : Queue := assocGet {} s.queues (queueKey fn q)

/-- Replace a queue pair. -/
def State.setQueue (s : State) (fn q : Nat) (x : Queue) : State :=
  { s with queues := assocSet {} s.queues (queueKey fn q) x }

/-- An image of a partition by its handle. -/
def State.image (s : State) (fn h : Nat) : Option Image :=
  (s.images.find? fun e => e.1 == fn * 32768 + h).map (·.2)

/-- Square clock of an operating point, MHz (R549). -/
def oppMhz (o : Nat) : Nat := 600 + 150 * o

/-- Lowest operating point that the range allows: the larger of MIN and KFLOOR (R551). -/
def State.minOpp (s : State) : Nat := Nat.max (s.getF 0 Fld.PWR_OPP_MIN) (s.getF 0 Fld.PWR_OPP_KFLOOR)

/-- Whether a Q or P group's declared bundle meets the 1,900 ns of R59 at the lowest clock of the range. -/
def State.bundleOk (s : State) (cycles : Nat) : Bool := decide (cycles * 1000 ≤ 1900 * oppMhz s.minOpp)

/-- Suspension of the Class K bounds: KSUSP of PWR_CAP, or thermal limiting (R29, R552, R555). -/
def State.kSuspended (s : State) : Bool := s.flag 0 Fld.PWR_CAP_KSUSP || s.flag 0 Fld.PWR_LIMIT_THERM

/-- Clock of a file's squares in MHz, and its count in 250ths of a square cycle. -/
def State.fileMhz (s : State) (f : Nat) : Nat := s.getF 0 (Fld.FIL_CLK_MHZ.onPage (filePage f))
def State.fileCyc (s : State) (f : Nat) : Nat := (s.file f).cyc + (s.ticks - (s.file f).cycAt) * s.fileMhz f

/-- Put a file on a clock: the cycles so far are kept in its count. -/
def State.setClk (s : State) (f o : Nat) : State :=
  let s1 := s.setFile f { s.file f with cyc := s.fileCyc f, cycAt := s.ticks }
  (s1.setF 0 (Fld.FIL_CLK_OPP.onPage (filePage f)) o).setF 0 (Fld.FIL_CLK_MHZ.onPage (filePage f)) (oppMhz o)

/-- The square begins a new span without a retired instruction: one has retired, or its first group is resident (R71). -/
def State.noteRetire (s : State) (sq : Nat) : State :=
  let f := s.file (sqFile sq)
  s.setFile (sqFile sq) { f with retired := assocSet 0 f.retired (sqRank sq) (s.fileCyc (sqFile sq)) }

/-- Count of its file's clock at which a square last retired an instruction, or received its first group. -/
def State.retiredAt (s : State) (sq : Nat) : Nat := assocGet 0 (s.file (sqFile sq)).retired (sqRank sq)

/-- Count events on the performance counter of a file, where it is selected (R86). -/
def State.perfCount (s : State) (sq ev n : Nat) : State :=
  let f := sqFile sq
  let p := filePage f
  let rs := s.getF 0 (Fld.FIL_PERF_SEL_RANKSEL.onPage p)
  if s.getF 0 (Fld.FIL_PERF_SEL_EVENT.onPage p) = ev ∧ (rs = 16 ∨ rs = sqRank sq) then
    s.setFile f { s.file f with perf := ((s.file f).perf + n) % 2 ^ 48 }
  else s

/-! ## Store errors (R52, R72, R75, R83) -/

/-- Record a store error of a word in its file's FIL_ECC_ADDR: an uncorrectable one replaces any, a corrected one never an
uncorrectable one (R83). -/
def State.noteEcc (s : State) (sq off : Nat) (unc : Bool) : State :=
  let a := fun (f : Fld) => f.onPage (filePage (sqFile sq))
  if !unc && s.flag 0 (a Fld.FIL_ECC_ADDR_UNC) then s
  else ((s.setFlag 0 (a Fld.FIL_ECC_ADDR_UNC) unc).setF 0 (a Fld.FIL_ECC_ADDR_RANK) (sqRank sq)).setF 0 (a Fld.FIL_ECC_ADDR_OFFSET) off

/-- Lines of a store range become poisoned: each counts in UNCORR and is recorded, and the file raises ECC_UNCORR (R52, R75, R83). -/
def State.poisonStore (s : State) (sq off n : Nat) : State :=
  let lines := List.range (cdiv (off % 64 + n) 64)
  let cnt := Fld.FIL_ECC_CNT_UNCORR.onPage (filePage (sqFile sq))
  let s1 := s.storePoisonLines sq off n
  let s2 := lines.foldl (fun s i => (s.bump 0 cnt 1).noteEcc sq ((off / 64 + i) * 64) true) s1
  s2.raiseIrq (filePage (sqFile sq)) ((s.fileHolder (sqFile sq)).getD 0) 1

/-- What reading a word with wrong bits does: one is corrected, counted and recorded, and is no fault; two poison the line
(R52, R72). -/
def State.readErr (s : State) (e : Nat × Nat) : State :=
  let sq := e.1 / 2 ^ 17
  let off := 8 * (e.1 % 2 ^ 17)
  if e.2 = 1 then
    ((s.bump 0 (Fld.FIL_ECC_CNT_CORR.onPage (filePage (sqFile sq))) 1).noteEcc sq off false).perfCount sq 0x08 1
  else
    let s1 := { s with mem := { s.mem with storeErrs := s.mem.storeErrs.filter fun x => x.1 / 8 != e.1 / 8 } }
    (s1.poisonStore sq off 8).noteEcc sq off true

/-- One more bit of a store word is wrong: the first is corrected on a read, a second is not (R52). -/
def State.storeUpset (s : State) (k : Nat) : State :=
  if 256 * 2 ^ 17 ≤ k ∨ 98304 ≤ k % 2 ^ 17 then s
  else { s with mem := { s.mem with
    storeErrs := assocSet 0 s.mem.storeErrs k (Nat.min 2 (assocGet 0 s.mem.storeErrs k + 1)) } }

/-- A word of an engine's local memory is wrong beyond correction (R338). -/
def State.localUpset (s : State) (e : Nat × Nat) : State :=
  if s.mem.localErrs.contains e then s else { s with mem := { s.mem with localErrs := s.mem.localErrs ++ [e] } }

/-- The upsets of one tick of the timebase (log entry 70). -/
def State.upsets (s : State) : State :=
  let s1 := match Config.storeUpset s.free with
    | some k => s.storeUpset k
    | none => s
  let s2 := match Config.localUpset s.free with
    | some e => s1.localUpset e
    | none => s1
  s2.drawFree

/-- An engine meets an uncorrectable error in an area of its local memory, if there is one: the place in the area, and the state
without it. Words of area a are numbered from a × 2^24 (log entry 70). -/
def State.localErr (s : State) (page area : Nat) : Option (Nat × State) :=
  (s.mem.localErrs.find? fun e => e.1 == page && e.2 / 2 ^ 24 == area).map fun e =>
    (e.2 % 2 ^ 24, { s with mem := { s.mem with localErrs := s.mem.localErrs.erase e } })

/-- A read of a store range meets the wrong bits of its words (R52). -/
def State.storeScan (s : State) (sq off n : Nat) : State :=
  (s.mem.storeErrs.filter fun e => (storeWords sq off n).contains e.1).foldl State.readErr s

end Sys2Proof.Machine
end

