-- ==== Sys2Proof/Machine/Num.lean ====
section
/-! DEFINITION. Number formats and their arithmetic (R133 to R141, R150 to R153): exact dyadic values, and one rounding. -/

namespace Sys2Proof.Machine

/-- A value of a floating format: NaN, an infinity, or (−1)^neg × m × 2^e. A zero keeps its sign. -/
inductive FVal where
  | nan
  | inf (neg : Bool)
  | fin (neg : Bool) (m : Nat) (e : Int)
  deriving DecidableEq, Repr, Inhabited

/-- How a format treats infinities and NaNs (R133, R152). -/
inductive FKind where
  | ieee | e4m3 | finite
  deriving DecidableEq, Repr, Inhabited

/-- A floating format of R133. -/
structure Fmt where
  ebits : Nat
  mbits : Nat
  bias : Nat
  kind : FKind
  deriving DecidableEq, Repr, Inhabited

def fmtFp32 : Fmt := ⟨8, 23, 127, .ieee⟩
def fmtFp16 : Fmt := ⟨5, 10, 15, .ieee⟩
def fmtBf16 : Fmt := ⟨8, 7, 127, .ieee⟩
def fmtE4m3 : Fmt := ⟨4, 3, 7, .e4m3⟩
def fmtE5m2 : Fmt := ⟨5, 2, 15, .ieee⟩
def fmtE3m2 : Fmt := ⟨3, 2, 3, .finite⟩
def fmtE2m3 : Fmt := ⟨2, 3, 1, .finite⟩
def fmtFp4 : Fmt := ⟨2, 1, 1, .finite⟩
/-- IEEE binary64, the Solver engine's format (R451). -/
def fmtFp64 : Fmt := ⟨11, 52, 1023, .ieee⟩

/-- Type codes of R94. -/
inductive Ty where
  | fp32 | fp16 | bf16 | e4m3 | e5m2 | e3m2 | e2m3 | fp4 | fp4e | int8 | int4 | s32 | u32 | s64 | u64
  deriving DecidableEq, Repr, Inhabited

/-- The type that a code names; 0xF is reserved (R94). -/
def tyOf (c : Nat) : Option Ty :=
  [Ty.fp32, .fp16, .bf16, .e4m3, .e5m2, .e3m2, .e2m3, .fp4, .fp4e, .int8, .int4, .s32, .u32, .s64, .u64][c]?

/-- The floating format of a type. -/
def Ty.fmt? : Ty → Option Fmt
  | .fp32 => some fmtFp32 | .fp16 => some fmtFp16 | .bf16 => some fmtBf16 | .e4m3 => some fmtE4m3
  | .e5m2 => some fmtE5m2 | .e3m2 => some fmtE3m2 | .e2m3 => some fmtE2m3 | .fp4 => some fmtFp4 | .fp4e => some fmtFp4
  | _ => none

/-- Width in bits of one element of a type. -/
def Ty.width : Ty → Nat
  | .fp32 => 32 | .fp16 => 16 | .bf16 => 16 | .e4m3 => 8 | .e5m2 => 8 | .e3m2 => 6 | .e2m3 => 6 | .fp4 => 4 | .fp4e => 4
  | .int8 => 8 | .int4 => 4 | .s32 => 32 | .u32 => 32 | .s64 => 64 | .u64 => 64

/-- Whether an integer type is signed. -/
def Ty.signed : Ty → Bool
  | .u32 => false | .u64 => false | _ => true

/-- Whether a type is one of the integer types of the thread engine (R102). -/
def Ty.isInt : Ty → Bool
  | .s32 => true | .u32 => true | .s64 => true | .u64 => true | _ => false

/-- Whether a value is 64 bits wide. -/
def Ty.wide : Ty → Bool
  | .s64 => true | .u64 => true | _ => false

/-- Canonical NaN code (R150, R152); formats without NaN have +0. -/
def Fmt.nanCode (f : Fmt) : Nat :=
  match f.kind with
  | .ieee => (2 ^ f.ebits - 1) * 2 ^ f.mbits + 2 ^ (f.mbits - 1)
  | .e4m3 => 0x7F
  | .finite => 0

/-- Sign bit of a code. -/
def Fmt.signBit (f : Fmt) : Nat := 2 ^ (f.ebits + f.mbits)

/-- The code of the largest finite magnitude (R133). -/
def Fmt.maxCode (f : Fmt) : Nat :=
  match f.kind with
  | .ieee => (2 ^ f.ebits - 1) * 2 ^ f.mbits - 1
  | .e4m3 => 0x7E
  | .finite => 2 ^ (f.ebits + f.mbits) - 1

/-- The value of a code (R133, R134). -/
def Fmt.decode (f : Fmt) (c : Nat) : FVal :=
  let neg := bit c (f.ebits + f.mbits)
  let e := bits c (f.ebits + f.mbits - 1) f.mbits
  let m := c % 2 ^ f.mbits
  let top := decide (e = 2 ^ f.ebits - 1)
  let fin := if e = 0 then FVal.fin neg m (1 - (f.bias : Int) - f.mbits)
    else FVal.fin neg (2 ^ f.mbits + m) ((e : Int) - f.bias - f.mbits)
  match f.kind with
  | .ieee => if top then (if m = 0 then .inf neg else .nan) else fin
  | .e4m3 => if top && decide (m = 7) then .nan else fin
  | .finite => fin

/-- Whether to round up in magnitude: the discarded part is `rem` of `unit`, `odd` says the kept part is odd, `r` is the
16-bit draw of R153. Modes: 0 RNE, 1 toward zero, 2 toward +∞, 3 toward −∞, 4 stochastic (R90). -/
def roundUp (rm : Nat) (neg odd : Bool) (rem unit r : Nat) : Bool :=
  match rm with
  | 0 => decide (unit < 2 * rem) || (decide (unit = 2 * rem) && odd)
  | 1 => false
  | 2 => !neg && decide (rem ≠ 0)
  | 3 => neg && decide (rem ≠ 0)
  | _ =>
    let f := 65536 * rem / unit
    if neg then decide (rem ≠ 0) && !decide (r < 65536 * (unit - rem) / unit) else decide (r < f)

/-- Magnitude m × 2^e as a whole number of units 2^q, rounded. -/
def roundTo (rm : Nat) (neg : Bool) (m : Nat) (e q : Int) (r : Nat) : Nat :=
  if q ≤ e then m * 2 ^ (e - q).toNat
  else
    let unit := 2 ^ (q - e).toNat
    let n := m / unit
    if roundUp rm neg (n % 2 == 1) (m % unit) unit r then n + 1 else n

/-- The code of ±infinity or of the largest finite value, as overflow gives it (R152). -/
def Fmt.overflow (f : Fmt) (rm : Nat) (neg : Bool) : Nat :=
  let sgn := if neg then f.signBit else 0
  match f.kind with
  | .ieee =>
    let toMax := match rm with
      | 1 => true
      | 2 => neg
      | 3 => !neg
      | _ => false
    sgn + (if toMax then f.maxCode else f.maxCode + 1)
  | _ => sgn + f.maxCode

/-- Round a value to a format under a mode (R150, R152, R153). -/
def Fmt.encode (f : Fmt) (rm r : Nat) : FVal → Nat
  | .nan => f.nanCode
  | .inf neg => match f.kind with
    | .ieee => (if neg then f.signBit else 0) + f.maxCode + 1
    | _ => (if neg then f.signBit else 0) + f.maxCode
  | .fin neg m e =>
    let sgn := if neg then f.signBit else 0
    if m = 0 then sgn
    else
      let lead : Int := e + Nat.log2 m
      let emin : Int := 1 - (f.bias : Int)
      let q : Int := (if lead < emin then emin else lead) - f.mbits
      let n := roundTo rm neg m e q r
      let (n, q) := if n = 2 ^ (f.mbits + 1) then (2 ^ f.mbits, q + 1) else (n, q)
      if n < 2 ^ f.mbits then sgn + n
      else
        let biased := q + f.mbits + f.bias
        let code := biased.toNat * 2 ^ f.mbits + (n - 2 ^ f.mbits)
        if f.maxCode < code then f.overflow rm neg else sgn + code

/-- Convert to an element of a format for storage: FP4 and FP4E write a zero as code 0x0 (R139). -/
def Ty.encodeF (t : Ty) (rm r : Nat) (x : FVal) : Nat :=
  match t.fmt? with
  | none => 0
  | some f =>
    let c := f.encode rm r x
    if (t == .fp4 || t == .fp4e) && decide (c = f.signBit) then 0 else c

/-- Decode an element of a floating type; an FP4E escape without a list reads as NaN (R138, R140). -/
def Ty.decodeF (t : Ty) (c : Nat) : FVal :=
  if t = .fp4e ∧ c % 16 = 8 then .nan
  else match t.fmt? with
    | some f => f.decode c
    | none => .nan

/-! ## Exact arithmetic -/

def FVal.neg : FVal → FVal
  | .nan => .nan
  | .inf s => .inf !s
  | .fin s m e => .fin (!s) m e

def FVal.isNan : FVal → Bool
  | .nan => true
  | _ => false

def FVal.isZero : FVal → Bool
  | .fin _ 0 _ => true
  | _ => false

/-- Sign of a value other than NaN. -/
def FVal.sign : FVal → Bool
  | .nan => false
  | .inf s => s
  | .fin s _ _ => s

/-- Signed integer at a common exponent. -/
def FVal.scaled (s : Bool) (m : Nat) (e q : Int) : Int :=
  let v : Int := (m : Int) * 2 ^ (e - q).toNat
  if s then -v else v

/-- A value from a signed integer at an exponent. -/
def FVal.ofInt (v q : Int) (zneg : Bool) : FVal :=
  if v = 0 then .fin zneg 0 0 else .fin (v < 0) v.natAbs q

/-- Exact sum. A zero sum of opposite signs is −0 only under RM 3. -/
def FVal.add (rm : Nat) : FVal → FVal → FVal
  | .nan, _ => .nan
  | _, .nan => .nan
  | .inf a, .inf b => if a = b then .inf a else .nan
  | .inf a, _ => .inf a
  | _, .inf b => .inf b
  | .fin s1 m1 e1, .fin s2 m2 e2 =>
    if m1 = 0 ∧ m2 = 0 then .fin (if s1 = s2 then s1 else rm == 3) 0 0
    else if m1 = 0 then .fin s2 m2 e2
    else if m2 = 0 then .fin s1 m1 e1
    else
      let q := min e1 e2
      FVal.ofInt (FVal.scaled s1 m1 e1 q + FVal.scaled s2 m2 e2 q) q (rm == 3)

/-- Exact product. -/
def FVal.mul : FVal → FVal → FVal
  | .nan, _ => .nan
  | _, .nan => .nan
  | .inf a, .inf b => .inf (a != b)
  | .inf a, .fin s m _ => if m = 0 then .nan else .inf (a != s)
  | .fin s m _, .inf b => if m = 0 then .nan else .inf (s != b)
  | .fin s1 m1 e1, .fin s2 m2 e2 => .fin (s1 != s2) (m1 * m2) (e1 + e2)

/-- Quotient to 80 significant bits with a sticky bit, which rounds as the exact quotient does. -/
def FVal.div : FVal → FVal → FVal
  | .nan, _ => .nan
  | _, .nan => .nan
  | .inf _, .inf _ => .nan
  | .inf a, .fin s _ _ => .inf (a != s)
  | .fin s _ _, .inf b => .fin (s != b) 0 0
  | .fin s1 m1 e1, .fin s2 m2 e2 =>
    if m2 = 0 then (if m1 = 0 then .nan else .inf (s1 != s2))
    else if m1 = 0 then .fin (s1 != s2) 0 0
    else
      let k := 80 + Nat.log2 m2
      let n := m1 * 2 ^ k
      .fin (s1 != s2) (2 * (n / m2) + (if n % m2 = 0 then 0 else 1)) (e1 - e2 - k - 1)

/-- Integer square root by bits, from the bit `k − 1` down. -/
def isqrt (n : Nat) : Nat → Nat → Nat
  | 0, acc => acc
  | k + 1, acc => if (acc + 2 ^ k) * (acc + 2 ^ k) ≤ n then isqrt n k (acc + 2 ^ k) else isqrt n k acc

/-- Square root to 80 bits or more with a sticky bit. -/
def FVal.sqrt : FVal → FVal
  | .nan => .nan
  | .inf s => if s then .nan else .inf false
  | .fin s m e =>
    if m = 0 then .fin s 0 0
    else if s then .nan
    else
      let (m, e) := if e % 2 = 0 then (m, e) else (2 * m, e - 1)
      let n := m * 2 ^ 160
      let r := isqrt n (Nat.log2 n / 2 + 1) 0
      .fin false (2 * r + (if r * r = n then 0 else 1)) (e / 2 - 81)

/-- Order of two values other than NaN: −1, 0 or 1, with −0 equal to +0. -/
def FVal.cmp : FVal → FVal → Int
  | .inf a, .inf b => if a = b then 0 else if a then -1 else 1
  | .inf a, _ => if a then -1 else 1
  | _, .inf b => if b then 1 else -1
  | .fin s1 m1 e1, .fin s2 m2 e2 =>
    let q := min e1 e2
    let d := FVal.scaled s1 m1 e1 q - FVal.scaled s2 m2 e2 q
    if d < 0 then -1 else if d = 0 then 0 else 1
  | _, _ => 0

/-- FMIN and FMAX: the non-NaN operand, with −0 below +0 (R150). -/
def FVal.minMax (wantMax : Bool) (a b : FVal) : FVal :=
  if a.isNan then b
  else if b.isNan then a
  else
    let c := FVal.cmp a b
    let aLess := decide (c < 0) || (decide (c = 0) && a.sign && !b.sign)
    if wantMax then (if aLess then b else a) else (if aLess then a else if c = 0 ∧ b.sign then b else a)

/-- Scale by a power of two. -/
def FVal.scale (k : Int) : FVal → FVal
  | .fin s m e => .fin s m (e + k)
  | x => x

/-- Whole-number value rounded under a mode and saturated to [lo, hi]; NaN gives 0 (R104, R152). -/
def FVal.toIntSat (rm r : Nat) (lo hi : Int) : FVal → Int
  | .nan => 0
  | .inf s => if s then lo else hi
  | .fin s m e =>
    let n : Int := roundTo rm s m e 0 r
    let v := if s then -n else n
    if v < lo then lo else if hi < v then hi else v

/-- Range of an integer type. -/
def Ty.intRange : Ty → Int × Int
  | .int8 => (-128, 127) | .int4 => (-8, 7) | .s32 => (-(2 ^ 31), 2 ^ 31 - 1) | .u32 => (0, 2 ^ 32 - 1)
  | .s64 => (-(2 ^ 63), 2 ^ 63 - 1) | .u64 => (0, 2 ^ 64 - 1) | _ => (0, 0)

/-- The integer that a code of an integer type spells. -/
def Ty.toInt (t : Ty) (c : Nat) : Int := if t.signed then toSigned t.width c else (c % 2 ^ t.width : Nat)

/-- The value of a code of any type. -/
def Ty.value (t : Ty) (c : Nat) : FVal :=
  match t.fmt? with
  | some _ => t.decodeF c
  | none => FVal.ofInt (t.toInt c) 0 false

/-- The code of a value in any type (R104, R152). -/
def Ty.code (t : Ty) (rm r : Nat) (x : FVal) : Nat :=
  match t.fmt? with
  | some _ => t.encodeF rm r x
  | none => ofSigned t.width (x.toIntSat rm r t.intRange.1 t.intRange.2)

/-! ## FP32 shorthands -/

def fpVal (c : Nat) : FVal := fmtFp32.decode c
def fpCode (x : FVal) : Nat := fmtFp32.encode 0 0 x
def fpAdd (a b : Nat) : Nat := fpCode (FVal.add 0 (fpVal a) (fpVal b))
def fpMul (a b : Nat) : Nat := fpCode (FVal.mul (fpVal a) (fpVal b))

end Sys2Proof.Machine
end

