-- ==== Sys2Proof/Machine/FpSum.lean ====
section
/-! DEFINITION. Sums of products in a floating format whose order of operations the spec leaves open, and small linear algebra over
them (chapters 12 to 14; log entry 67).

Every operation is one rounding of its exact result (R150, R451). Which two terms of a sum meet, and whether a product is fused into the
addition, is Config.sumPlan of the sum's place, so that a statement holds for every order. -/

namespace Sys2Proof.Machine

/-! ## Single operations -/

def Fmt.add (f : Fmt) (a b : Nat) : Nat := f.encode 0 0 (FVal.add 0 (f.decode a) (f.decode b))
def Fmt.sub (f : Fmt) (a b : Nat) : Nat := f.encode 0 0 (FVal.add 0 (f.decode a) (FVal.neg (f.decode b)))
def Fmt.mul (f : Fmt) (a b : Nat) : Nat := f.encode 0 0 (FVal.mul (f.decode a) (f.decode b))
def Fmt.div (f : Fmt) (a b : Nat) : Nat := f.encode 0 0 (FVal.div (f.decode a) (f.decode b))
def Fmt.sqrt (f : Fmt) (a : Nat) : Nat := f.encode 0 0 (FVal.sqrt (f.decode a))
def Fmt.fma (f : Fmt) (a b c : Nat) : Nat := f.encode 0 0 (FVal.add 0 (FVal.mul (f.decode a) (f.decode b)) (f.decode c))
def Fmt.neg (f : Fmt) (a : Nat) : Nat := f.encode 0 0 (FVal.neg (f.decode a))

/-- The code of a whole number, and of the quotient of two. -/
def Fmt.ofInt (f : Fmt) (n : Int) : Nat := f.encode 0 0 (FVal.ofInt n 0 false)
def Fmt.ratio (f : Fmt) (n d : Nat) : Nat := f.encode 0 0 (FVal.div (.fin false n 0) (.fin false d 0))

/-- Whether a code is finite; strict order and order, false where one is NaN. -/
def Fmt.finite (f : Fmt) (c : Nat) : Bool := match f.decode c with
  | .fin _ _ _ => true
  | _ => false
def Fmt.lt (f : Fmt) (a b : Nat) : Bool :=
  !(f.decode a).isNan && !(f.decode b).isNan && decide (FVal.cmp (f.decode a) (f.decode b) < 0)
def Fmt.le (f : Fmt) (a b : Nat) : Bool :=
  !(f.decode a).isNan && !(f.decode b).isNan && decide (FVal.cmp (f.decode a) (f.decode b) ≤ 0)

/-- The code of 1 and of 0, and a magnitude. -/
def Fmt.one (f : Fmt) : Nat := f.ofInt 1
def Fmt.abs (f : Fmt) (c : Nat) : Nat := c % f.signBit

/-! ## Sums -/

/-- A term of a sum: a value, or a product not yet rounded. -/
inductive FpTerm where
  | val (a : Nat)
  | prod (a b : Nat)
  deriving DecidableEq, Repr, Inhabited

/-- A term's value, rounded. -/
def Fmt.term (f : Fmt) : FpTerm → Nat
  | .val a => a
  | .prod a b => f.mul a b

/-- Two terms meet; `fused` says whether a product enters the addition unrounded. -/
def Fmt.meet (f : Fmt) (fused : Bool) : FpTerm → FpTerm → Nat
  | .val a, .val b => f.add a b
  | .val a, .prod b c => if fused then f.fma b c a else f.add a (f.mul b c)
  | .prod a b, .val c => if fused then f.fma a b c else f.add (f.mul a b) c
  | .prod a b, .prod c d => if fused then f.fma a b (f.mul c d) else f.add (f.mul a b) (f.mul c d)

/-- The terms of a sum meet two by two, as the plan of its place says, until one is left; an empty sum is +0. -/
def Fmt.reduce (f : Fmt) (site : List Nat) : Nat → List FpTerm → Nat
  | 0, ts => (ts.map f.term).foldl f.add 0
  | n + 1, ts =>
    match ts with
    | [] => 0
    | [t] => f.term t
    | _ =>
      let (i, j, fused) := Config.sumPlan site n
      let x := ts.getD (i % ts.length) default
      let rest := ts.eraseIdx (i % ts.length)
      let y := rest.getD (j % rest.length) default
      f.reduce site n (.val (f.meet fused x y) :: rest.eraseIdx (j % rest.length))

/-- A sum. -/
def Fmt.sum (f : Fmt) (site : List Nat) (ts : List FpTerm) : Nat := f.reduce site ts.length ts

/-- Σ a_i b_i, and v − Σ a_i b_i. -/
def Fmt.dot (f : Fmt) (site : List Nat) (a b : List Nat) : Nat := f.sum site (List.zipWith .prod a b)
def Fmt.less (f : Fmt) (site : List Nat) (v : Nat) (a b : List Nat) : Nat :=
  f.sum site (.val v :: List.zipWith (fun x y => .prod (f.neg x) y) a b)

/-- Euclidean norm. -/
def Fmt.norm (f : Fmt) (site : List Nat) (a : List Nat) : Nat := f.sqrt (f.dot site a a)

/-! ## Vectors, matrices and quaternions -/

def Fmt.vadd (f : Fmt) (a b : List Nat) : List Nat := List.zipWith f.add a b
def Fmt.vsub (f : Fmt) (a b : List Nat) : List Nat := List.zipWith f.sub a b

/-- Columns of a matrix given by its rows. -/
def columnsOf (n : Nat) (m : List (List Nat)) : List (List Nat) := (List.range n).map fun j => m.map fun r => r.getD j 0

/-- Matrix times vector, and matrix times matrix of `n` columns. -/
def Fmt.mulVec (f : Fmt) (site : List Nat) (m : List (List Nat)) (v : List Nat) : List Nat :=
  m.zipIdx.map fun (e : List Nat × Nat) => f.dot (e.2 :: site) e.1 v
def Fmt.mulMat (f : Fmt) (site : List Nat) (n : Nat) (a b : List (List Nat)) : List (List Nat) :=
  let cols := columnsOf n b
  a.zipIdx.map fun (e : List Nat × Nat) => cols.zipIdx.map fun (c : List Nat × Nat) => f.dot (e.2 :: c.2 :: site) e.1 c.1
def Fmt.addMat (f : Fmt) (a b : List (List Nat)) : List (List Nat) := List.zipWith f.vadd a b

/-- The rotation R(q) of a quaternion w, x, y, z, in one of three forms that agree where |q| = 1: from w² + x² − y² − z², the same over
|q|², or from 1 − 2(y² + z²). Which one an engine uses is Config.rotForm. -/
def Fmt.rot (f : Fmt) (site q : List Nat) : List (List Nat) :=
  let (w, x, y, z) := (q.getD 0 0, q.getD 1 0, q.getD 2 0, q.getD 3 0)
  let two := f.ofInt 2
  let off := fun k a b c d => f.sum (k :: site) [.prod (f.mul two a) b, .prod (f.mul two c) d]
  let diag := fun k (a b c : Nat) =>
    if Config.rotForm site % 3 = 2 then
      f.sum (k :: site) [.val f.one, .prod (f.mul two (f.neg b)) b, .prod (f.mul two (f.neg c)) c]
    else f.sum (k :: site) [.prod w w, .prod a a, .prod (f.neg b) b, .prod (f.neg c) c]
  let m := [
    [diag 0 x y z, off 1 x y (f.neg w) z, off 2 x z w y],
    [off 3 x y w z, diag 4 y x z, off 5 y z (f.neg w) x],
    [off 6 x z (f.neg w) y, off 7 y z w x, diag 8 z x y]]
  if Config.rotForm site % 3 = 1 then
    let n := f.dot (9 :: site) q q
    m.map fun r => r.map fun c => f.div c n
  else m

/-- q ⊗ p, and the conjugate. -/
def Fmt.qmul (f : Fmt) (site q p : List Nat) : List Nat :=
  let g := fun i => q.getD i 0
  let h := fun i => p.getD i 0
  let n := fun i => f.neg (q.getD i 0)
  [f.sum (0 :: site) [.prod (g 0) (h 0), .prod (n 1) (h 1), .prod (n 2) (h 2), .prod (n 3) (h 3)],
   f.sum (1 :: site) [.prod (g 0) (h 1), .prod (g 1) (h 0), .prod (g 2) (h 3), .prod (n 3) (h 2)],
   f.sum (2 :: site) [.prod (g 0) (h 2), .prod (n 1) (h 3), .prod (g 2) (h 0), .prod (g 3) (h 1)],
   f.sum (3 :: site) [.prod (g 0) (h 3), .prod (g 1) (h 2), .prod (n 2) (h 1), .prod (g 3) (h 0)]]
def Fmt.qconj (f : Fmt) (q : List Nat) : List Nat := q.take 1 ++ (q.drop 1).map f.neg

/-! ## Cholesky factors of a symmetric matrix, given by its rows -/

/-- Row `a` of the factor below the rows `l` already there, up to its diagonal. -/
def Fmt.cholRow (f : Fmt) (site : List Nat) (l : List (List Nat)) (a : List Nat) : List Nat :=
  l.zipIdx.foldl (fun row (e : List Nat × Nat) =>
    row ++ [f.div (f.less (l.length :: e.2 :: site) (a.getD e.2 0) row e.1) (e.1.getLast?.getD 0)]) []

/-- The factor, or the number of the first pivot at or below `least` (R460). -/
def Fmt.chol (f : Fmt) (site : List Nat) (least : Nat) : List (List Nat) → List (List Nat) → Except Nat (List (List Nat))
  | [], l => .ok l
  | a :: rest, l =>
    let row := f.cholRow site l a
    let piv := f.less (l.length :: l.length :: site) (a.getD l.length 0) row row
    if f.le piv least then .error l.length else f.chol site least rest (l ++ [row ++ [f.sqrt piv]])

/-- Solve L y = b, then Lᵀ x = y. -/
def Fmt.lower (f : Fmt) (site : List Nat) (l : List (List Nat)) (b : List Nat) : List Nat :=
  l.zipIdx.foldl (fun y (e : List Nat × Nat) =>
    y ++ [f.div (f.less (e.2 :: 0 :: site) (b.getD e.2 0) e.1 y) (e.1.getLast?.getD 0)]) []
def Fmt.upper (f : Fmt) (site : List Nat) (l : List (List Nat)) (y : List Nat) : List Nat :=
  (List.range l.length).foldr (fun i x =>
    let col := (l.drop (i + 1)).map fun r => r.getD i 0
    f.div (f.less (i :: 1 :: site) (y.getD i 0) col x) ((l.getD i []).getD i 0) :: x) []
def Fmt.cholSolve (f : Fmt) (site : List Nat) (l : List (List Nat)) (b : List Nat) : List Nat :=
  f.upper site l (f.lower site l b)

end Sys2Proof.Machine
end

