-- ==== Sys2Proof/Machine/Events.lean ====
section
/-! DEFINITION. The Arbiter's event log (R639, R640) and the generation of the global configuration (R636). -/

namespace Sys2Proof.Machine

/-- Raise an interrupt bit of page 0x01 for every function (R643). -/
def State.arbIrqAll (s : State) (i : Nat) : State := (List.range 64).foldl (fun s fn => s.raiseIrq 0x01 fn i) s

/-- Log an event: the SRAM ring keeps 4,096, and WARN and ERROR events go to the flash ring of 16,384 (R640; log entry 17). -/
def State.logEvent (s : State) (sev page part kind code : Nat) (data : List Nat) : State :=
  let seq := (s.getF 0 Fld.ARB_LOG_SEQ + 1) % 2 ^ 32
  let e : Event := {
    seq := seq, sev := sev, page := page, part := part, kind := kind, code := code, time := s.now,
    gen := s.getF 0 Fld.DEV_GEN, data := data }
  let s1 := s.setF 0 Fld.ARB_LOG_SEQ seq
  let a := { s1.arb with log := (e :: s1.arb.log).take 4096 }
  if sev = 0 then { s1 with arb := a }
  else ({ s1 with arb := { a with flash := (e :: a.flash).take 16384 } }).arbIrqAll 3

/-- An accepted change of the global configuration: DEV_GEN advances, and the change is logged with its path (R636). -/
def State.genChange (s : State) (path : Nat) : State :=
  ((s.setF 0 Fld.DEV_GEN ((s.getF 0 Fld.DEV_GEN + 1) % 2 ^ 32)).arbIrqAll 1).logEvent 0 0x00 0xFF 2 0 [path]

end Sys2Proof.Machine
end

