-- ==== Sys2Proof/Machine/Reserve.lean ====
section
/-! DEFINITION. The Reserve as one pool (R175 to R182, R190, R191) and the translations that an invalidation names (R165, R166). -/

namespace Sys2Proof.Machine

/-! ## Counts (R176) -/

/-- Pages of the Reserve. -/
def rsvPageCount : Nat := 16384

/-- Use of a page. -/
def State.pageUse (s : State) (p : Nat) : PageUse := assocGet .free s.mem.pages p

/-- Free pages of the whole Reserve (RSV_POOL_FREE): an unlisted page is free. -/
def State.poolFree (s : State) : Nat := rsvPageCount - s.mem.pages.length

/-- Mapped pages of a partition. -/
def State.mappedPages (s : State) (fn : Nat) : List Nat :=
  (s.mem.pages.filter fun e => e.2 == .mapped fn).map (·.1)

/-- USED: mapped pages plus pages of the partition's entries. -/
def State.rsvUsed (s : State) (fn : Nat) : Nat :=
  (s.mappedPages fn).length +
    ((s.mem.entries.filter fun e => e.2.fn == fn).map fun e => e.2.pages.length).sum

/-- PINNED: mapped pages plus pages of the partition's pinned entries. -/
def State.rsvPinned (s : State) (fn : Nat) : Nat :=
  (s.mappedPages fn).length +
    ((s.mem.entries.filter fun e => e.2.fn == fn && e.2.st == .pinned).map fun e => e.2.pages.length).sum

/-- FLOOR of a partition. -/
def State.rsvFloor (s : State) (fn : Nat) : Nat := s.getF fn Fld.RSV_FLOOR_PAGES

/-- The floor that pins must stay within: of a change under way that lowers it, the new one (R33). -/
def State.pinFloor (s : State) (fn : Nat) : Nat :=
  match s.arb.floors.find? fun e => e.1 == fn with
  | some e => Nat.min (s.rsvFloor fn) e.2
  | none => s.rsvFloor fn

/-! ## Pages and entries -/

/-- Return pages to the pool; they read zero (R182). -/
def State.releasePages (s : State) (ps : List Nat) : State :=
  let m := ps.foldl (fun (m : MemSt) p =>
    { m with
      pages := assocSet .free m.pages p .free, rsv := cellsZero m.rsv (p * 4096) 4096
      linePoison := wholeLines m.linePoison (byteKey 0 1 (p * 4096)) 4096 }) s.mem
  { s with mem := m }

/-- Drop an entry: its pages are freed. -/
def State.dropEntry (s : State) (id : Nat) : State :=
  match s.mem.entries.find? fun e => e.1 == id with
  | none => s
  | some e =>
    let s1 := s.releasePages e.2.pages
    { s1 with mem := { s1.mem with entries := assocErase id s1.mem.entries } }

/-- Evict an entry: as `dropEntry`, counted and signalled for its partition (R188, R192). -/
def State.evictEntry (s : State) (id : Nat) : State :=
  match s.mem.entries.find? fun e => e.1 == id with
  | none => s
  | some e => ((s.dropEntry id).bump e.2.fn Fld.RSV_EVICT 1).raiseIrq 0x06 e.2.fn 4

/-- The older of two entries: the earlier stamp, then the lower first page (R179). -/
def olderEntry (a b : Nat × RsvEntry) : Nat × RsvEntry :=
  if a.2.stamp < b.2.stamp then a
  else if b.2.stamp < a.2.stamp then b
  else if a.2.pages.headD 0 ≤ b.2.pages.headD 0 then a else b

/-- The oldest of some entries. -/
def oldestEntry : List (Nat × RsvEntry) → Option Nat
  | [] => none
  | e :: t => some (t.foldl olderEntry e).1

/-- The files in order of distance from one file, the lower first on a tie (R180). -/
def filesByDistance (f : Nat) : List Nat :=
  (List.range 16).flatMap fun d =>
    if d = 0 then [f]
    else (if d ≤ f then [f - d] else []) ++ (if f + d < 16 then [f + d] else [])

/-- The free page that placement picks: the nearest slice with one, its lowest page (R180; log entry 9). -/
def State.freePage (s : State) (slice : Nat) : Option Nat :=
  (filesByDistance slice).findSome? fun f =>
    (List.range 1024).findSome? fun k => if s.pageUse (f * 1024 + k) = .free then some (f * 1024 + k) else none

/-- Whether a mover still reads a hit of an entry (R179). -/
def State.beingRead (s : State) (id : Nat) : Bool :=
  s.squares.any fun q => [q.2.mv0, q.2.mv1].any fun m =>
    match m.flight with
    | some f => f.hit == some id
    | none => false

/-- Entries that R179 may evict for a requester: below its FLOOR the borrowed tiles of other partitions, otherwise its own. -/
def State.evictable (s : State) (fn used : Nat) : List (Nat × RsvEntry) :=
  let below := decide (used < s.rsvFloor fn)
  let others := s.mem.entries.filter fun e => e.2.st == .valid && e.2.fn != fn && !s.beingRead e.1 &&
    decide (s.rsvFloor e.2.fn < s.rsvUsed e.2.fn)
  if below && !others.isEmpty then others
  else s.mem.entries.filter fun e => e.2.st == .valid && e.2.fn == fn && !s.beingRead e.1

/-- Take `n` pages for a requester by the rules of R179; `got` are those taken so far and `use` what they become. `fuel`
bounds pages taken plus entries evicted. -/
def State.acquire (s : State) (fn n slice : Nat) (use : PageUse) (got : List Nat) : Nat → State × Option (List Nat)
  | 0 => (s.releasePages got, none)
  | fuel + 1 =>
    if got.length = n then (s, some got.reverse)
    else match s.freePage slice with
      | some p =>
        let s1 := { s with mem := { s.mem with pages := assocSet .free s.mem.pages p use } }
        s1.acquire fn n slice use (p :: got) fuel
      | none => match oldestEntry (s.evictable fn (s.rsvUsed fn + (if use = .mapped fn then 0 else got.length))) with
        | some id => (s.evictEntry id).acquire fn n slice use got fuel
        | none => (s.releasePages got, none)

/-- Take pages with fuel enough for every page and entry. -/
def State.takePages (s : State) (fn n slice : Nat) (use : PageUse) : State × Option (List Nat) :=
  s.acquire fn n slice use [] (n + s.mem.entries.length + 1)

/-- The slice that a partition's pages prefer: that of its lowest-numbered file (R180). -/
def State.homeSlice (s : State) (fn : Nat) : Nat := (s.partFiles fn).headD 0

/-- What a request gets whose pages the Reserve cannot find: CANCELLED during a Board reset (R179, R187). -/
def State.noPages (s : State) : Status :=
  match s.rst.run with
  | some (false, _) => .cancelled
  | _ => .reserveFull

/-- Take mapped pages for a partition, within its FLOOR (R177, R179): the pages, or why not. -/
def State.allocMapped (s : State) (fn n slice : Nat) : State × Except Status (List Nat) :=
  if s.pinFloor fn < s.rsvPinned fn + n then (s, .error .pinLimit)
  else match s.takePages fn n slice (.mapped fn) with
    | (s1, some ps) => (s1, .ok ps)
    | (s1, none) => (s1, .error s1.noPages)

/-- Complete an RSV_CMD (R190, R192). -/
def State.rsvDone (s : State) (fn : Nat) (st : Status) : State :=
  (s.finishCmd fn Fld.RSV_CMD_STS_STATUS st).raiseIrq 0x06 fn 0

/-- Descriptors that movers execute, and whether one of them reaches a Reserve page. -/
def State.flights (s : State) : List Flight := s.squares.flatMap fun q => [q.2.mv0, q.2.mv1].filterMap Mover.flight
def State.pageInFlight (s : State) (p : Nat) : Bool :=
  s.flights.any fun f => (f.far ++ f.fb).any fun l => l.1 == 1 && l.2 / 4096 == p

/-- Complete the FREEs whose page no access in flight reaches any more (R182). -/
def State.settleFrees (s : State) : State :=
  s.mem.freeing.foldl (fun s e =>
    if s.pageInFlight e.2 then s
    else
      let s1 := { s with mem := { s.mem with freeing := s.mem.freeing.erase e } }
      (s1.releasePages [e.2]).rsvDone e.1 .ok) s

/-- Run an RSV_CMD, unless one is under way: a reserved bit or an unlisted OP is MALFORMED (R190, R681). -/
def State.rsvCmd (s : State) (fn v : Nat) : State :=
  if !s.cmdDone fn Fld.RSV_CMD_STS_DONE then s
  else if resvHit 0x06 0x050 v then s.rsvDone fn .malformed
  else match opCode v with
    | 1 =>
      let slice := if bit v 23 then bits v 27 24 else s.homeSlice fn
      match s.allocMapped fn 1 slice with
      | (s1, .ok ps) => (s1.setF fn Fld.RSV_CMD_STS_PAGE (ps.headD 0)).rsvDone fn .ok
      | (s1, .error e) => s1.rsvDone fn e
    | 2 =>
      let p := bits v 13 0
      if !s.holdsPage fn p then s.rsvDone fn .accessDenied
      else if s.pageInFlight p then
        { s with mem := { s.mem with freeing := s.mem.freeing ++ [(fn, p)] } }.startCmd fn Fld.RSV_CMD_STS_STATUS
      else (s.releasePages [p]).rsvDone fn .ok
    | 3 =>
      let es := s.mem.entries.map fun e =>
        if e.2.fn = fn ∧ e.2.st = .pinned then (e.1, { e.2 with st := EntrySt.valid }) else e
      ({ s with mem := { s.mem with entries := es } }).rsvDone fn .ok
    | 4 =>
      let ids := (s.mem.entries.filter fun e => e.2.fn == fn && e.2.st == .valid).map (·.1)
      (ids.foldl State.dropEntry s).rsvDone fn .ok
    | _ => s.rsvDone fn .malformed

/-- RSV_CMD ALLOC (R190). -/
def execRsvAlloc (fn v : Nat) (s : State) : Out := .next (if opCode v = 1 then s.gated fn 0x06 0x050 (s.rsvCmd fn v) else s)

/-- RSV_CMD FREE (R182, R190). -/
def execRsvFree (fn v : Nat) (s : State) : Out := .next (if opCode v = 2 then s.gated fn 0x06 0x050 (s.rsvCmd fn v) else s)

/-- RSV_CMD UNPIN_ALL (R190). -/
def execRsvUnpinAll (fn v : Nat) (s : State) : Out := .next (if opCode v = 3 then s.gated fn 0x06 0x050 (s.rsvCmd fn v) else s)

/-- RSV_CMD INVAL_ALL (R181, R190). -/
def execRsvInvalAll (fn v : Nat) (s : State) : Out := .next (if opCode v = 4 then s.gated fn 0x06 0x050 (s.rsvCmd fn v) else s)

/-- Whether RSV_FBV_CTL takes a value (R191). -/
def fbvOk (v : Nat) : Bool :=
  decide (1 ≤ bits v 15 8) && decide (bits v 15 8 ≤ 32) && decide (bits v 7 0 ≤ bits v 15 8) && bits v 31 16 != 0

/-- The variant tracker of a job of a queue (R184): key function, queue, image, job. -/
def trackerKey (fn q image job : Nat) : Nat := (queueKey fn q * 65536 + image) * 65536 + job

/-- Clear the trackers of a partition (R185). -/
def State.clearTrackers (s : State) (fn : Nat) : State :=
  { s with trackers := s.trackers.filter fun e => decide (e.1 / 2 ^ 48 ≠ fn) }

/-- A write of RSV_FBV_CTL: policy set, histories cleared and every job PRIMARY; or refused with MALFORMED (R185, R191). -/
def execRsvFbvCtlWrite (fn v : Nat) (s : State) : Out :=
  .next (s.gated fn 0x06 0x06C (
    if fbvOk v then (s.setReg fn 0x06 0x06C (BitVec.ofNat 32 v)).clearTrackers fn
    else s.recErr 0x06 fn .malformed 0x06C))

/-! ## Invalidation (R165, R166, R194) -/

/-- Whether an invalidation names a translation of a function: ALL, or a page in its range. A cached 2 MiB or 64 KiB
translation is listed for each 4 KiB address that used it. -/
def invalNames (fn lo hi : Nat) (key : Nat) : Bool :=
  let va := key % 2 ^ 52
  decide (key / 2 ^ 52 = fn) && (bit hi 31 ||
    (decide (bits lo 31 12 * 4096 + bits hi 19 0 * 2 ^ 32 ≤ va) &&
      decide (va < bits lo 31 12 * 4096 + bits hi 19 0 * 2 ^ 32 + bits lo 11 0 * 4096)))

/-- Walk again for each locked translation that an invalidation covers: the new entry, or none (R166). -/
def State.relock (s : State) (fn lo hi : Nat) : List (Nat × Xlat) :=
  s.mem.locked.filterMap fun e =>
    if invalNames fn lo hi e.1 then
      match s.walk fn (e.1 % 2 ^ 52) with
      | .ok x => some (e.1, x)
      | .error _ => none
    else some e

/-- Table walks that lock a set are counted (R193). -/
def State.countWalks (s : State) (fn n : Nat) : State := s.bump fn Fld.MMU_WALKS n

/-- Show the size of a locked set in MMU_LOCK_CNT. -/
def State.showLocked (s : State) (fn : Nat) : State :=
  s.setF fn Fld.MMU_LOCK_CNT_COUNT ((s.mem.locked.filter fun e => decide (e.1 / 2 ^ 52 = fn)).length)

end Sys2Proof.Machine
end

