-- ==== Sys2Proof/Machine/Streams.lean ====
section
/-! DEFINITION. Streams and page tables as the jobs use them: copies, generations, and what the end of a call does to the
streams and tables that it names (R271, R276, R277, R285, R302). -/

namespace Sys2Proof.Machine

/-- Key of a stream: function and 14-bit handle (R268). -/
def streamKey (fn h : Nat) : Nat := fn * 16384 + h % 16384

/-- A stream. -/
def State.stream (s : State) (fn h : Nat) : Stream := assocGet {} s.streams (streamKey fn h)

/-- Replace a stream. -/
def State.setStream (s : State) (fn h : Nat) (x : Stream) : State :=
  { s with streams := assocSet {} s.streams (streamKey fn h) x }

/-- The set of a handle. -/
def handleSet (h : Nat) : Nat := bits h 13 12

/-- The declaration of a partition's stream set, from whichever loaded image gives it. -/
def State.setDecl (s : State) (fn set : Nat) : Option SetDecl :=
  (s.images.filter fun e => decide (e.1 / 32768 = fn)).findSome? fun e => e.2.sets.find? fun d => d.set == set

/-- State lines per stream of a set. -/
def State.setLines (s : State) (fn set : Nat) : Nat := ((s.setDecl fn set).map SetDecl.lines).getD 0

/-- Bank of a set's registers: DSP_SEQ_SETCFG, PARK and IDLE apply to the selected set (R288). -/
def setBank (fn set : Nat) : Nat := 64 * (set % 4 + 1) + fn

/-- PARK VA of a set. -/
def State.parkVa (s : State) (fn set : Nat) : Nat :=
  s.getF (setBank fn set) Fld.DSP_SEQ_PARK_LO_VA * 2 ^ 16 + (s.getReg (setBank fn set) 0x05 0x124).toNat % 2 ^ 20 * 2 ^ 32

/-- Park address of a stream (R278). -/
def State.parkAddr (s : State) (fn h : Nat) : Nat :=
  s.parkVa fn (handleSet h) + h % 4096 * (cdiv (64 * s.setLines fn (handleSet h)) 65536 * 65536)

/-- Square and store offset of a state line of a slot: on the home square that the set's declaration now gives (R269, R270). -/
def State.slotPlace (s : State) (fn set slot line : Nat) : Nat × Nat :=
  let p := Config.slotLine fn set slot line
  ((((s.setDecl fn set).getD {}).homes.getD p.1 []).getD p.2.1 0, p.2.2)

/-- The bytes of a stream's slot on its home squares. -/
def State.slotBytes (s : State) (fn h slot : Nat) : List Byte :=
  (List.range (s.setLines fn (handleSet h))).flatMap fun i =>
    let p := s.slotPlace fn (handleSet h) slot i
    s.storeRead p.1 p.2 64

/-- Whether a line of a stream's slot is poisoned. -/
def State.slotPoisoned (s : State) (fn h slot : Nat) : Bool :=
  (List.range (s.setLines fn (handleSet h))).any fun i =>
    let p := s.slotPlace fn (handleSet h) slot i
    s.storePoisoned p.1 p.2 64

/-- Reads of a stream's slot meet the wrong bits of its words (R52). -/
def State.slotScan (s : State) (fn h slot : Nat) : State :=
  (List.range (s.setLines fn (handleSet h))).foldl (fun s i =>
    let p := s.slotPlace fn (handleSet h) slot i
    s.storeScan p.1 p.2 64) s

/-- Write a stream's state into its slot. -/
def State.slotWrite (s : State) (fn h slot : Nat) (data : List Byte) : State :=
  (List.range (s.setLines fn (handleSet h))).foldl (fun s i =>
    let p := s.slotPlace fn (handleSet h) slot i
    s.storeWrite p.1 p.2 ((data.drop (64 * i)).take 64)) s

/-- Bytes held in a list of Reserve pages. -/
def State.pagesRead (s : State) (ps : List Nat) (n : Nat) : List Byte :=
  (ps.flatMap fun p => cellsRead s.mem.rsv (p * 4096) 4096).take n

/-- Write bytes into a list of Reserve pages. -/
def State.pagesWrite (s : State) (ps : List Nat) (data : List Byte) : State :=
  ps.zipIdx.foldl (fun s p =>
    { s with mem := { s.mem with rsv := cellsWrite s.mem.rsv (p.1 * 4096) ((data.drop (4096 * p.2)).take 4096) } }) s

/-- The next generation: 0xFFFF_FFFF is never one (R271). -/
def nextGen (g : Nat) : Nat := if g ≥ 0xFFFFFFFE then 0 else g + 1

/-- Free every copy of a stream: its slot, its Reserve pages and its shadow's bytes. -/
def State.freeCopies (s : State) (fn h : Nat) : State :=
  let x := s.stream fn h
  let s1 := s.releasePages x.pages
  s1.setStream fn h { x with slot := none, copy := [], copyPoison := false, shadow := none, pages := [] }

/-- A stream enters TORN (R277, R288). -/
def State.tearStream (s : State) (fn h : Nat) : State :=
  (s.setStream fn h { s.stream fn h with st := .torn }).bump fn Fld.DSP_SEQ_TORN 1

/-- The shadow follows a committed change, where the set has SHADOW (R285). -/
def State.shadowStream (s : State) (fn h : Nat) (data : List Byte) : State :=
  match s.setDecl fn (handleSet h) with
  | some d => if d.shadow then s.setStream fn h { s.stream fn h with shadow := some (data, (s.stream fn h).gen) } else s
  | none => s

/-- What the end of a call does to one of its streams: the pending count falls; a started call advances the generation and
leaves STORE or TORN (R271, R277, R283), unless a compute or Board reset has already moved the stream (R286). -/
def State.streamJobEnd (s : State) (fn h : Nat) (started ok : Bool) : State :=
  let x := s.stream fn h
  let x := { x with pend := x.pend - 1, idleSince := s.now }
  if started && x.st != .busy then s.setStream fn h (if x.st = .torn then { x with gen := nextGen x.gen } else x)
  else if started then
    let x := { x with gen := nextGen x.gen }
    if ok then
      let s1 := s.setStream fn h { x with st := .store }
      match x.slot with
      | some k => (s1.slotScan fn h k).shadowStream fn h (s.slotBytes fn h k)
      | none => s1
    else (s.setStream fn h x).tearStream fn h
  else s.setStream fn h x

/-- Begin a swap-out of a STORE or RESV stream (R281, R283): the copy is taken with its generation. -/
def State.beginOut (s : State) (fn h : Nat) (outer : Bool) : State :=
  let x := s.stream fn h
  match x.st, x.slot with
  | .store, some k =>
    let s := s.slotScan fn h k
    s.setStream fn h { x with
      st := .out, toOuter := outer, src := .store, parkWait := none, copy := s.slotBytes fn h k,
      copyGen := x.gen, copyPoison := s.slotPoisoned fn h k, beginTick := s.ticks, byPark := false }
  | .resv, _ => s.setStream fn h { x with
      st := .out, toOuter := true, src := .resv, parkWait := none, beginTick := s.ticks,
      copy := s.pagesRead x.pages (64 * s.setLines fn (handleSet h)) }
  | _, _ => s.setStream fn h { x with parkWait := none }

/-- A PARK that waited for the pending count begins once the count is 0 (R283). -/
def State.parkIfDue (s : State) (fn h : Nat) : State :=
  let x := s.stream fn h
  match x.parkWait with
  | some outer =>
    if x.pend = 0 ∧ x.st = .store then
      let s1 := s.beginOut fn h outer
      s1.setStream fn h { s1.stream fn h with byPark := true }
    else s
  | none => s

/-- Write the generations of a sequence call's streams at GENVA (R274, R276). -/
def State.writeGens (s : State) (fn va : Nat) (hs : List Nat) : State :=
  if va = 0 then s
  else (s.vaWrite fn .dispatcher va
    (hs.flatMap fun h => leBytes 4 (s.stream fn h).gen ++ leBytes 2 h ++ leBytes 2 0)).1

/-- Position of the last reset of list entry `k` in a call's mask, if it has one (R274, R299). -/
def State.lastReset (s : State) (fn maskVa nstream t k : Nat) : Option Nat :=
  if maskVa = 0 then none
  else ((List.range t).reverse).find? fun i =>
    match s.vaBytes fn (maskVa + 4 * (i * cdiv nstream 32 + k / 32)) 4 2 with
    | .ok b => bit (leNat b) (k % 32)
    | .error _ => false

/-- What the end of a started appending call writes into one page-table header: GEN, and on success NTOK and RSTPOS
(R299, R302). -/
def State.tableJobEnd (s : State) (fn va append : Nat) (rst : Option Nat) (ok : Bool) : State :=
  match s.vaBytes fn va 64 2 with
  | .error _ => s
  | .ok b =>
    let ntok := leField b 0 4
    let b := setField b 4 4 (nextGen (leField b 4 4))
    let b := if ok then setField b 0 4 (ntok + append) else b
    let b := match ok, rst with
      | true, some t => setField b 8 4 (ntok + t)
      | _, _ => b
    (s.vaWrite fn .dispatcher va b).1

/-- GENVA of an attention call: GEN and NTOK of each table (R298). -/
def State.writeTableGens (s : State) (fn va : Nat) (ts : List Nat) : State :=
  if va = 0 then s
  else (s.vaWrite fn .dispatcher va
    (ts.flatMap fun t => match s.vaBytes fn t 8 2 with
      | .ok b => b.drop 4 ++ b.take 4
      | .error _ => leBytes 8 0)).1

/-- What the end of a taken call does to its streams and tables, before its completion is written. `checked` says that the
call reached its start check. -/
def State.callEnd (s : State) (j : Job) (ok checked : Bool) : State :=
  if !j.taken then s
  else
    let started := j.st == .started
    let hs := j.streams.map (·.1)
    let s1 := if started && j.appends then
        j.tables.zipIdx.foldl (fun s e =>
          let rst := if hs.isEmpty then none
            else s.lastReset j.fn (leField j.arg 16 8) hs.length j.append e.2
          s.tableJobEnd j.fn e.1.1 j.append rst ok) s
      else s
    let s2 := hs.foldl (fun s h => (s.streamJobEnd j.fn h started ok).parkIfDue j.fn h) s1
    if !checked then s2
    else if hs.isEmpty then s2.writeTableGens j.fn j.genVa (j.tables.map (·.1))
    else s2.writeGens j.fn j.genVa hs

end Sys2Proof.Machine
end

