-- ==== Sys2Proof/Machine/Jobs.lean ====
section
/-! DEFINITION. Jobs and groups as every family ends them: completions (R228 to R230), the duplicate window (R242), the end
of a job and of a group (R109, R130, R174, R243 to R245), stopping, and the exception record (R131). -/

namespace Sys2Proof.Machine

/-! ## Counts and completions -/

/-- A saturating 64-bit statistic of a queue (R253). -/
def Queue.addStat (Q : Queue) (k d : Nat) : Queue :=
  { Q with stats := assocSet 0 Q.stats k ((assocGet 0 Q.stats k + d) % 2 ^ 64) }

/-- Keep the larger of a statistic and a new value. -/
def Queue.maxStat (Q : Queue) (k v : Nat) : Queue :=
  { Q with stats := assocSet 0 Q.stats k (Nat.max (assocGet 0 Q.stats k) v) }

/-- Signal the vector of a completion queue (R236): everything written until now is covered. -/
def State.signalCq (s : State) (fn q : Nat) : State :=
  let Q := s.queue fn q
  let s1 := s.setQueue fn q { Q with unsig := 0 }
  if Q.ien then s1.signal fn Q.vec else s1

/-- The 16 bytes of a completion entry (R228). -/
def cqEntry (Q : Queue) (q cid status detail : Nat) (pre var : Bool) : List Byte :=
  let phase := if Q.cqTail / 2 ^ Q.cqsz % 2 = 0 then 1 else 0
  leBytes 2 cid ++ leBytes 2 status ++ leBytes 4 Q.sqHead ++ leBytes 4 detail ++ leBytes 2 q ++
    leBytes 1 ((if pre then 4 else 0) + (if var then 2 else 0) + phase) ++ leBytes 1 0

/-- A queue enters ERROR (R249, R254). -/
def State.queueError (s : State) (fn q src : Nat) : State :=
  let Q := s.queue fn q
  if Q.st = .active then (s.setQueue fn q { Q with st := .error, errsrc := src }).raiseIrq 0x05 fn 3 else s

/-- Write a completion: the entry, the tail, the statistics, and the signal that R236 gives. A write that fails translation
puts the queue in ERROR; one that the memory does not serve is lost (R213, R249; log entry 64). -/
def State.writeCq (s : State) (fn q cid status detail : Nat) (pre var now : Bool) : State :=
  let Q := s.queue fn q
  let Q := { Q with inflight := Q.inflight - 1 }
  match s.vaWrite fn .dispatcher (Q.cqBase + 16 * (Q.cqTail % 2 ^ Q.cqsz)) (cqEntry Q q cid status detail pre var) with
  | (s1, .error (.xlat _)) => (s1.setQueue fn q Q).queueError fn q 2
  | (s1, _) =>
    let Q := { Q with
      cqTail := add32 Q.cqTail 1, unsig := Q.unsig + 1, unsigAt := if Q.unsig = 0 then s.now else Q.unsigAt }
    let Q := if status = Status.timeout.code then Q.addStat 6 1 else Q
    let Q := if status = Status.okDuplicate.code then Q.addStat 7 1 else Q
    let s2 := s1.setQueue fn q Q
    let s3 := if status = Status.okDuplicate.code then s2.bump fn Fld.DSP_DUP 1
      else s2
    if Nat.max Q.modCount 1 ≤ Q.unsig || now then s3.signalCq fn q else s3

/-- Whether a suspension of the Class K bounds covers a tick from an acceptance on (R230). -/
def State.kDisplaced (s : State) (accepted : Nat) : Bool := s.kSuspended || decide (accepted < s.suspEnd)

/-- A status and DETAIL as written for a class: displaced by KBOUND_SUSPENDED under R230. -/
def State.displace (s : State) (cls accepted : Nat) (st : Status) (detail : Nat) : Status × Nat :=
  if cls = 2 && decide (st.code ≤ 0x000F) && s.kDisplaced accepted then
    (.kboundSuspended, detail % 65536 + 65536 * st.code)
  else (st, detail)

/-! ## The status of a job (R174, R229, R245, R588) -/

/-- What a job would report if nothing stopped it: exception, descriptor, replay, fallback, OK. -/
def Job.ownStatus (j : Job) : Status × Nat :=
  match j.exc with
  | some e => (e.status, e.cause)
  | none => match j.descFail with
    | some st => (st, if st = .timeout then 3 else 0)
    | none => match j.replayOf with
      | some sq => (.faultReplayed, sq)
      | none => if j.fellBack || j.fbv then (.okFallback, Nat.min 0xFFFF j.fbTiles) else (.ok, 0)

/-- Whether a stop is a cancellation or an expiry of the very tick `t` in which a job's last group ended: the job has ended in that tick,
with its own status (R244, R245). -/
def Job.endedIn (j : Job) (st : Stop) (t : Nat) : Bool :=
  j.st == .started && st.tick == t && j.ended == j.total && (st.status == .cancelled || st.status == .timeout)

/-- What a job that ends in tick `t` reports: between a stop and an exception the earlier tick wins, and in one tick the stop
(R132, R245). -/
def Job.finalStatus (j : Job) (t : Nat) : Status × Nat :=
  match j.stop, j.exc with
  | some st, some e => if st.tick ≤ e.tick then (st.status, st.detail) else (e.status, e.cause)
  | some st, none => if j.endedIn st t then j.ownStatus else (st.status, st.detail)
  | none, _ => j.ownStatus

/-! ## Deadlines (R243) -/

/-- Whether a job's deadline tick has ended. -/
def Job.overdue (j : Job) (now : Nat) : Bool :=
  match j.deadline with
  | some d => decide (d < now)
  | none => false

/-- Whether a started job's TIMEOUT, in µs, has passed. -/
def Job.overrun (j : Job) (ticks : Nat) : Bool :=
  j.st == .started && j.timeout != 0 && decide (j.startTick + j.timeout * 250 < ticks)

/-- The tick in which a job expired: the first after its deadline or its run time. -/
def Job.expiredAt (j : Job) (now ticks : Nat) : Nat :=
  let d := match j.deadline with
    | some d => ticks - (now - d - 1) / 4
    | none => ticks
  let r := j.startTick + j.timeout * 250 + 1
  if j.overdue now && j.overrun ticks then Nat.min d r else if j.overdue now then d else r

/-- A job that is not stopped, as its expiry leaves it: TIMEOUT with DETAIL 2 before its start, 0 past its deadline, 1 past its run time,
0 where both passed in one tick (R243, R245). -/
def Job.expire (j : Job) (now ticks : Nat) : Job :=
  if j.stop.isSome || !(j.overdue now || j.overrun ticks) then j
  else
    let detail := if j.st ≠ .started then 2 else if j.overdue now then 0 else 1
    { j with stop := some { status := .timeout, detail := detail, tick := j.expiredAt now ticks } }

/-! ## Ending jobs -/

/-- Jobs of a queue that have not ended. -/
def State.queueJobs (s : State) (fn q : Nat) : List (Nat × Job) :=
  s.jobs.filter fun e => e.2.fn == fn && e.2.q == q && e.2.st != .ended

/-- Groups of a job. -/
def State.jobGroups (s : State) (j : Nat) : List (Nat × Group) := s.groups.filter fun e => e.2.job == j

/-- Drop jobs that ended in an earlier tick: none of them is a cancellation's target any more (R244). -/
def State.purgeJobs (s : State) : State :=
  { s with jobs := s.jobs.filter fun e => e.2.st != .ended || e.2.endTick == s.ticks }

/-- Put a tag into a queue's duplicate window; the 1,025th pushes out the oldest DONE tag (R242). -/
def windowAdd (w : List WinTag) (tag : Nat) : List WinTag :=
  let w' := { tag := tag, done := false, status := 0 } :: w
  if w.length < 1024 then w'
  else
    let rec dropOldest : List WinTag → List WinTag × Bool
      | [] => ([], false)
      | x :: t => match dropOldest t with
        | (t', true) => (x :: t', true)
        | (t', false) => if x.done then (t', true) else (x :: t', false)
    (dropOldest w').1

/-- The window entry of a tag. -/
def windowFind (w : List WinTag) (tag : Nat) : Option WinTag := w.find? fun x => x.tag == tag

/-- Oldest job held as a duplicate of a tag. -/
def State.heldOf (s : State) (fn q tag : Nat) : List (Nat × Job) :=
  (s.queueJobs fn q).filter fun e => e.2.st == .held && e.2.tag == tag

/-- Mark a job ended. -/
def State.markEnded (s : State) (id : Nat) (j : Job) : State :=
  s.setJob id { j with st := .ended, endTick := s.ticks }

/-- Complete one held duplicate of an original that reported `st` (R229, R242). -/
def State.completeDup (s : State) (id : Nat) (j : Job) (st : Nat) : State :=
  let r := s.displace j.cls j.accepted .okDuplicate st
  (s.writeCq j.fn j.q j.cid r.1.code r.2 false false j.irqNow).markEnded id j

/-- What the end of an idempotent job does to its tag and to the duplicates held behind it (R242). -/
def State.windowEnd (s : State) (j : Job) (st : Status) : State :=
  let Q := s.queue j.fn j.q
  if st.isSuccess then
    let w := Q.window.map fun x => if x.tag = j.tag then { x with done := true, status := st.code } else x
    let s1 := s.setQueue j.fn j.q { Q with window := w }
    (s1.heldOf j.fn j.q j.tag).foldl (fun s e => s.completeDup e.1 e.2 st.code) s1
  else
    let w := Q.window.filter fun x => x.tag != j.tag
    let s1 := s.setQueue j.fn j.q { Q with window := w }
    match s1.heldOf j.fn j.q j.tag with
    | [] => s1
    | e :: _ => (s1.setQueue j.fn j.q { Q with window := windowAdd w j.tag }).setJob e.1 { e.2 with st := .waiting }

/-- The tracker of a job after an invocation: its miss joins the history of the last WINDOW (R184). -/
def State.trackEnd (s : State) (j : Job) : State :=
  let k := trackerKey j.fn j.q j.image j.job
  match s.trackers.find? fun e => e.1 == k with
  | none => s
  | some (_, t) =>
    let w := s.getF j.fn Fld.RSV_FBV_CTL_WINDOW
    let t := { t with misses := (j.missed :: t.misses).take w }
    { s with trackers := assocInsert k t s.trackers }

/-- A Class K job that ends leaves those that waited behind it on the same files with a bound from here (R241). -/
def State.noteKEnd (s : State) (j : Job) : State :=
  if j.cls ≠ 2 ∨ j.st ≠ .started then s
  else
    let kf := (s.queue j.fn j.q).kfiles
    { s with jobs := s.jobs.map fun e =>
        if e.2.cls = 2 ∧ e.2.st = .waiting ∧ e.2.fn = j.fn ∧ Nat.land kf (s.queue e.2.fn e.2.q).kfiles ≠ 0 then
          (e.1, { e.2 with kWaited := true })
        else e }

/-- End a job: streams and tables, completion, window, history, statistics. Its groups are gone. -/
def State.endJob (s : State) (id : Nat) (checked : Bool) : State :=
  match s.job id with
  | none => s
  | some j =>
    if j.st = .ended then s else
    let j := j.expire s.now s.ticks
    let own := j.finalStatus s.ticks
    let s1 := (s.callEnd j own.1.isSuccess checked).releasePages j.merge
    let r := s1.displace j.cls j.accepted own.1 own.2
    let Q := s1.queue j.fn j.q
    let ran := (s.ticks - j.startTick) * 4
    let Q := if j.nop || j.silent then Q else Q.addStat 0 1
    let Q := if j.st = .started then (Q.addStat 3 ran).maxStat 4 ran else Q
    let s2 := s1.setQueue j.fn j.q Q
    let s3 := if j.silent then s2.setQueue j.fn j.q { Q with inflight := Q.inflight - 1 }
      else s2.writeCq j.fn j.q j.cid r.1.code r.2 j.preempted j.variant j.irqNow
    let s4 := if j.st = .started then s3.trackEnd j else s3
    let s5 := ((s4.markEnded id j).noteKEnd j).purgeJobs
    if j.idem && j.st != .held then s5.windowEnd j r.1 else s5

/-! ## Squares and groups -/

/-- A square whose last resident group has gone is IDLE again, unless Class K groups wait to be placed there (R70). -/
def State.settleSquare (s : State) (sq : Nat) : State :=
  if (s.groupsOn sq).isEmpty ∧ (s.square sq).awaiting.isEmpty ∧ (s.sqSt sq = sqRunning ∨ s.sqSt sq = sqPreempting) then
    s.setSqSt sq sqIdle
  else s

/-- Whether a mover still executes a descriptor of a group. -/
def Mover.busyWith (m : Mover) (g : Nat) : Bool :=
  match m.flight with
  | some f => f.d.group == g
  | none => false

/-- Whether any engine work of a group is outstanding on its square. -/
def Square.outstanding (x : Square) (g : Nat) : Bool :=
  (x.queue.any fun e => e.group == g) || (x.mv0.issued.any fun d => d.group == g) ||
    (x.mv1.issued.any fun d => d.group == g) || x.mv0.busyWith g || x.mv1.busyWith g

/-- Discard the engine work of a group that has not started; descriptors that a page walk has emitted stay (R130, R305). -/
def Square.discard (x : Square) (g : Nat) : Square :=
  { x with
    queue := x.queue.filter (fun e => e.group != g),
    mv0 := { x.mv0 with issued := x.mv0.issued.filter (fun d => d.group != g || d.walk.isSome) },
    mv1 := { x.mv1 with issued := x.mv1.issued.filter (fun d => d.group != g || d.walk.isSome) },
    lease := if x.lease = some g then none else x.lease }

/-- Drop all engine work of a group, that under way too (R587). -/
def Square.dropWork (x : Square) (g : Nat) : Square :=
  let clear := fun (m : Mover) =>
    { m with issued := m.issued.filter (fun d => d.group != g), flight := if m.busyWith g then none else m.flight }
  { x.discard g with mv0 := clear x.mv0, mv1 := clear x.mv1 }

/-- Whether a job's last group has ended: every group of its launch, or, once it is stopped, every group placed. -/
def State.jobDone (s : State) (id : Nat) (j : Job) : Bool :=
  (s.jobGroups id).isEmpty && (j.stop.isSome || j.exc.isSome || decide (j.ended = j.total))

/-- End a job whose last group has ended. -/
def State.settleJob (s : State) (id : Nat) : State :=
  match s.job id with
  | some j => if j.st = .started && s.jobDone id j then s.endJob id true else s
  | none => s

/-- Take a group off its square: its work is discarded, its resources freed, and its job ends with its last group. A group
with an engine operation already started, or with descriptors of its page walk, stays until those have run (R130, R305). -/
def State.endGroup (s : State) (g : Nat) : State :=
  match s.group g with
  | none => s
  | some x =>
    let sqr := (s.square x.square).discard g
    let s1 := s.setSquare x.square sqr
    if sqr.outstanding g then s1.setGroup g { x with st := .ending, lanesets := [] }
    else
      let s2 := (s1.dropGroup g).settleSquare x.square
      let s3 := match s2.job x.job with
        | some j => s2.setJob x.job { j with ended := j.ended + 1 }
        | none => s2
      s3.settleJob x.job

/-- Stop a job that has started: no further group, and its resident groups end at their next boundary; suspended ones are at
theirs (R243, R244). -/
def State.stopGroups (s : State) (id : Nat) : State :=
  (s.jobGroups id).foldl (fun s e =>
    if e.2.st = .suspended then s.endGroup e.1
    else match s.group e.1 with
      | some x => s.setGroup e.1 { x with stop := true }
      | none => s) s

/-- Stop a job: one that has not started completes at once; a started one ends at its boundaries. The first stop stands,
except that a cancellation in the tick of an expiry wins (R245). -/
def State.stopJob (s : State) (id : Nat) (st : Status) (detail detailBefore : Nat) : State :=
  match s.job id with
  | none => s
  | some j =>
    let j := j.expire s.now s.ticks
    let new : Stop := { status := st, detail := if j.st = .started then detail else detailBefore, tick := s.ticks }
    let keep := match j.stop with
      | some o => if o.tick = s.ticks ∧ o.status = .timeout ∧ st = .cancelled then new else o
      | none => new
    let s1 := s.setJob id { j with stop := some keep }
    match j.st with
    | .ended => s
    | .started => (s1.stopGroups id).settleJob id
    | _ => s1.endJob id false

/-- Stop every job of a queue (R249); `silent` leaves their completions out (R221). -/
def State.stopQueueJobs (s : State) (fn q : Nat) (detail : Nat) (silent : Bool) : State :=
  (s.queueJobs fn q).foldl (fun s e =>
    let s1 := match s.job e.1 with
      | some j => s.setJob e.1 { j with silent := j.silent || silent }
      | none => s
    s1.stopJob e.1 .cancelled detail detail) s

/-- Stop the jobs of a queue that has entered ERROR (R249). -/
def State.settleQueue (s : State) (fn q : Nat) : State :=
  if (s.queue fn q).st = .error && ((s.queueJobs fn q).any fun e => e.2.stop.isNone) then
    s.stopQueueJobs fn q 4 false
  else s

/-- Settle every queue that a command may have put in ERROR. -/
def State.settleQueues (s : State) : State :=
  (s.queues.filter fun e => e.2.st == .error).foldl (fun s e => s.settleQueue (e.1 / 65536) (e.1 % 65536)) s

/-! ## Exceptions (R129 to R132) -/

/-- An exception to report: cause and status, where it arose, and the record's fields. -/
structure Exc where
  cause : Nat := 0
  status : Status := .internalError
  pc : Nat := 0
  lset : Nat := 0
  lanes : Nat := 0
  addr : Nat := 0
  detail : Nat := 0
  precise : Bool := true
  engine : Bool := false
  deriving DecidableEq, Repr, Inhabited

/-- The lowest lane of a mask. -/
def lowestLane (m : Nat) : Nat := ((List.range 32).find? fun i => bit m i).getD 0

/-- Write the exception record of a partition: DSP_EXC0 to DSP_EXC7 (R131, R252). -/
def State.writeExcRecord (s : State) (fn : Nat) (x : Group) (e : Exc) : State :=
  let w : List Nat := [
    e.status.code + 2 ^ 16 * e.cause + 2 ^ 24 * ((if e.precise then 1 else 0) + (if e.engine then 2 else 0)),
    e.pc, x.index, x.square + 2 ^ 16 * e.lset + 2 ^ 24 * lowestLane e.lanes,
    e.addr % 2 ^ 32, e.addr / 2 ^ 32 % 2 ^ 32, e.lanes, e.detail]
  (w.zipIdx.foldl (fun s v => s.setReg fn 0x05 (0x090 + 4 * v.2) (BitVec.ofNat 32 v.1)) s).raiseIrq 0x05 fn 1

/-- A group raises an exception: the record is written, the job takes the earliest (ties to the lower square), the group
ends, and the job's other groups end at their boundaries (R130 to R132). -/
def State.raiseExc (s : State) (g : Nat) (e : Exc) : State :=
  match s.group g with
  | none => s
  | some x => match s.job x.job with
    | none => s.endGroup g
    | some j =>
      let s1 := s.writeExcRecord j.fn x e
      let new : JobExc := { status := e.status, cause := e.cause, tick := s.ticks, square := x.square }
      let keep := match j.exc with
        | some o => if o.tick < s.ticks ∨ o.square ≤ x.square then o else new
        | none => new
      ((s1.setJob x.job { j with exc := some keep }).endGroup g).stopGroups x.job |>.settleJob x.job

end Sys2Proof.Machine
end

