-- ==== Sys2Proof/Machine/Recur.lean ====
section
/-! DEFINITION. Recurrence layers (R257 to R267): the choice of a form, the three forms of the recurrence, the reset mask, and the items
that flow through layers on different files. Values are FP32 codes; each operation rounds once (R147), and the order of a sum is open
(R156; log entry 67). -/

namespace Sys2Proof.Machine

/-! ## Layers and forms (R258, R260) -/

/-- Whether a layer's numbers lie in the ranges of R258. -/
def Layer.ok (L : Layer) : Bool :=
  (match L.kind with
   | .selective => L.modes == 1
   | _ => decide (1 ≤ L.modes) && decide (L.modes ≤ 16)) &&
    decide (32 ≤ L.cl) && decide (L.cl ≤ 1024) && L.cl % 32 == 0 && decide (64 ≤ L.convMin) && decide (L.convMin ≤ 65536) &&
    (L.kind != .longConv || (decide (1 ≤ L.taps) && decide (L.taps ≤ 65536)))

/-- The form of a layer for a call of `t` steps with a FORM field (R260). -/
def Layer.form (L : Layer) (t form : Nat) : Form :=
  if t ≤ 1 then .step
  else match L.kind with
    | .selective => .scan
    | _ => match form with
      | 0 => if L.convMin ≤ t then .conv else .scan
      | 1 => .scan
      | _ => .conv

/-- Steps of the chunks of a row: all but the last have CL (R260); in step mode one chunk of one step. -/
def chunkLens (t cl : Nat) : List Nat := (List.range (cdiv t cl)).map fun c => Nat.min cl (t - c * cl)

/-! ## The recurrence (R257) -/

/-- What one step of one channel and mode takes: a, b, the input x, and the mask's bit. -/
structure RecIn where
  a : Nat := 0
  b : Nat := 0
  x : Nat := 0
  reset : Bool := false
  deriving DecidableEq, Repr, Inhabited

/-- One step: at a reset the previous state is discarded, not multiplied. -/
def recStep (h : Nat) (i : RecIn) : Nat :=
  if i.reset then fmtFp32.mul i.b i.x else fmtFp32.add (fmtFp32.mul i.a h) (fmtFp32.mul i.b i.x)

/-- The states after each step, and the state that is left. -/
def recRun (h : Nat) : List RecIn → List Nat
  | [] => []
  | i :: t => recStep h i :: recRun (recStep h i) t
def recEnd (h : Nat) (l : List RecIn) : Nat := l.foldl recStep h

/-- The output of a layer at a step: Σ c_n h_n over its modes. -/
def layerOut (cs hs : List Nat) : Nat :=
  match cs, hs with
  | [c], [h] => if c = fmtFp32.one then h else fmtFp32.mul c h
  | _, _ => fmtFp32.dot [82] cs hs

/-! ## The step and the scan form (R263, R264) -/

/-- One step as the gate pipeline computes it: at a reset DECAY and STATE read +0.0. -/
def recMasked (h : Nat) (i : RecIn) : Nat :=
  recStep (if i.reset then 0 else h) { i with a := if i.reset then 0 else i.a, reset := false }

/-- A chunk in the scan form: the state from a zero start, the cumulative decay, and whether a boundary has passed. From a reset on the
decay is +0.0 and the carried state is replaced by +0.0. -/
def scanChunk (carry : Nat) : Nat → Nat → Bool → List RecIn → List Nat
  | _, _, _, [] => []
  | loc, d, cut, i :: t =>
    let loc' := recMasked loc i
    let cut' := cut || i.reset
    let d' := if cut' then 0 else fmtFp32.mul i.a d
    let h := fmtFp32.add (fmtFp32.mul d' (if cut' then 0 else carry)) loc'
    h :: scanChunk carry loc' d' cut' t

/-- A row's steps, chunk by chunk; `fuel` bounds the chunks. -/
def scanRun (cl : Nat) : Nat → Nat → List RecIn → List Nat
  | 0, _, _ => []
  | fuel + 1, h, l =>
    if l.isEmpty then []
    else
      let out := scanChunk h 0 fmtFp32.one false (l.take cl)
      out ++ scanRun cl fuel (out.getLastD h) (l.drop cl)

/-! ## The convolution form (R258, R259, R265) -/

/-- A mode of a layer with constant coefficients: a, b and c. -/
structure Mode where
  a : Nat := 0
  b : Nat := 0
  c : Nat := 0
  deriving DecidableEq, Repr, Inhabited

/-- a to the power j. -/
def modePow (a : Nat) : Nat → Nat
  | 0 => fmtFp32.one
  | j + 1 => fmtFp32.mul a (modePow a j)

/-- Tap j of the kernel: Σ c_n a_n^j b_n, and nothing from N taps on. -/
def kernelTap (ms : List Mode) (n j : Nat) : Nat :=
  if n ≤ j then 0
  else fmtFp32.sum [83, j] (ms.map fun m => .prod (fmtFp32.mul m.c (modePow m.a j)) m.b)

/-- The last reset at or before step `t` of a chunk. -/
def lastCut (rs : List Bool) (t : Nat) : Option Nat := (List.range (t + 1)).reverse.find? fun i => rs.getD i false

/-- A row block takes the extra pass over a chunk in which a row resets after its first step. -/
def extraPass (rows : List (List Bool)) : Bool := rows.any fun r => (r.drop 1).any id

/-- The tap that joins the output at `t` to the input at `i`: in the extra pass zero before the row's latest reset. -/
def tapAt (ms : List Mode) (n : Nat) (extra : Bool) (rs : List Bool) (t i : Nat) : Nat :=
  match lastCut rs t with
  | some r => if extra && decide (i < r) then 0 else kernelTap ms n (t - i)
  | none => kernelTap ms n (t - i)

/-- What the state carried into a chunk adds to the output at `t`: nothing once the row has reset. -/
def carryOut (ms : List Mode) (hs : List Nat) (rs : List Bool) (t : Nat) : Nat :=
  if (lastCut rs t).isSome then 0
  else fmtFp32.sum [84, t] (List.zipWith (fun (m : Mode) h => .prod (fmtFp32.mul m.c (modePow m.a (t + 1))) h) ms hs)

/-- One row's chunk in the convolution form: outputs and the states left. -/
def convChunk (ms : List Mode) (n : Nat) (extra : Bool) (hs xs : List Nat) (rs : List Bool) : List Nat × List Nat :=
  let out := (List.range xs.length).map fun t => fmtFp32.sum [85, t]
    (.val (carryOut ms hs rs t) :: (List.range (t + 1)).map fun i => .prod (tapAt ms n extra rs t i) (xs.getD i 0))
  let left := fun (m : Mode) (h : Nat) =>
    let r := lastCut rs (xs.length - 1)
    fmtFp32.sum [86] (.prod (modePow m.a xs.length) (if r.isSome then 0 else h) :: (List.range xs.length).map fun i =>
      .prod (if decide (i < r.getD 0) then 0 else fmtFp32.mul (modePow m.a (xs.length - 1 - i)) m.b) (xs.getD i 0))
  (out, List.zipWith left ms hs)

/-- A 32-row block's chunk: rows that reset after the first step are taken from the extra pass, the others from the first (R265). -/
def convBlock (ms : List Mode) (n : Nat) (rows : List (List Nat × List Nat × List Bool)) : List (List Nat × List Nat) :=
  rows.map fun r => convChunk ms n ((r.2.2.drop 1).any id) r.1 r.2.1 r.2.2

/-! ## The mask and the slots of a call (R266, R270, R274) -/

/-- The mask's bit of step `t` for list entry `e` of a call of `n` streams: the same in every layer. -/
def State.resetAt (s : State) (fn maskVa n t e : Nat) : Bool :=
  maskVa != 0 && match s.vaBytes fn (maskVa + 4 * (t * cdiv n 32 + e / 32)) 4 2 with
    | .ok b => bit (leNat b) (e % 32)
    | .error _ => false

/-- The list entry of a call whose stream occupies a slot. -/
def State.entryOf (s : State) (j : Job) (slot : Nat) : Option Nat := j.streams.findIdx? fun a => (s.stream j.fn a.1).slot == some slot

/-- Whether a call names a stream of a slot block. -/
def State.blockNamed (s : State) (j : Job) (blk : Nat) : Bool :=
  j.streams.any fun a => match (s.stream j.fn a.1).slot with
    | some k => k / 32 == blk
    | none => false

/-- The image job that a job runs. -/
def State.imgJob (s : State) (j : Job) : Option ImgJob :=
  (s.image j.fn j.image).bind fun im => im.jobs[j.job]?

/-- The stream set of a sequence call. -/
def State.callSet (s : State) (j : Job) : Option SetDecl :=
  if j.streams.isEmpty then none else (s.imgJob j).bind fun ij => s.setDecl j.fn ij.set

/-- The slot whose state lies at a store address of a square. -/
def State.slotOn (s : State) (j : Job) (d : SetDecl) (sq off : Nat) : Option Nat :=
  (List.range (32 * d.slotBlk)).find? fun k => (List.range d.lines).any fun i => s.slotPlace j.fn d.set k i == (sq, off)

/-- The layer that a home square belongs to. -/
def SetDecl.layerOf (d : SetDecl) (sq : Nat) : Option Nat := d.homes.findIdx? fun l => l.contains sq

/-- The form that a call chose for a layer (R260). -/
def Job.formOf (j : Job) (y : Nat) : Form := j.forms.getD y .step

/-! ## The rows of a REC drain (R263) -/

/-- What a row of a STATE tile is to the call: its step runs, it resets at this step, or its slot's stream is not named. -/
inductive RecRow where
  | plain | reset | idle
  deriving DecidableEq, Repr, Inhabited

/-- Steps that a call has run on the state line at an address (key square × 2^20 + offset). -/
def Job.stepsAt (j : Job) (key : Nat) : Nat := assocGet 0 j.steps key

/-- A row of the STATE tile at a store address, for the call of its group. -/
def State.recRow (s : State) (j : Job) (sq off : Nat) : RecRow :=
  match s.callSet j with
  | none => .plain
  | some d => match d.layerOf sq with
    | none => .plain
    | some y =>
      if j.formOf y = .conv then .plain
      else match s.slotOn j d sq off with
        | none => .plain
        | some k => match s.entryOf j k with
          | some e => if s.resetAt j.fn (leField j.arg 16 8) j.streams.length (j.stepsAt (sq * 2 ^ 20 + off)) e then .reset else .plain
          | none => if s.blockNamed j (k / 32) then .idle else .plain

/-! ## Items (R267) -/

/-- Number of an item: chunk, then row block. -/
def itemNo (nb c blk : Nat) : Nat := c * nb + blk

/-- Whether a layer has run a chunk of a row block: every state line of its entries on the layer's squares has taken the chunk's steps. -/
def State.itemDone (s : State) (j : Job) (d : SetDecl) (y c blk : Nat) : Bool :=
  let t := leField j.arg 4 4
  let cl := if j.formOf y = .step then 1 else (d.layers.getD y {}).cl
  ((j.streams.drop (32 * blk)).take 32).all fun a => match (s.stream j.fn a.1).slot with
    | none => true
    | some k => (List.range d.lines).all fun i =>
        let p := s.slotPlace j.fn d.set k i
        !(d.homes.getD y []).contains p.1 || decide (Nat.min t ((c + 1) * cl) ≤ j.stepsAt (p.1 * 2 ^ 20 + p.2))

/-- Whether the boundary between two layers lies between files. -/
def SetDecl.apart (d : SetDecl) (y z : Nat) : Bool :=
  !((d.homes.getD y []).any fun a => (d.homes.getD z []).any fun b => sqFile a == sqFile b)

/-- Whether a layer may start an item: its input has arrived from the layer before, and the layer after has released the buffer slot,
which the item two before it held (R267). -/
def State.itemReady (s : State) (j : Job) (d : SetDecl) (y c blk : Nat) : Bool :=
  let nb := cdiv j.streams.length 32
  let i := itemNo nb c blk
  (y == 0 || !d.apart (y - 1) y || s.itemDone j d (y - 1) c blk) &&
    (decide (d.homes.length ≤ y + 1) || !d.apart y (y + 1) || decide (i < 2) ||
      s.itemDone j d (y + 1) ((i - 2) / nb) ((i - 2) % nb))

/-- Whether a REC drain on a STATE row may run: the item of its list entry has started or may start. -/
def State.recReady (s : State) (j : Job) (sq off : Nat) : Bool :=
  match s.callSet j with
  | none => true
  | some d => match d.layerOf sq, s.slotOn j d sq off with
    | some y, some k => match s.entryOf j k with
      | some e =>
        let cl := if j.formOf y = .step then 1 else (d.layers.getD y {}).cl
        s.itemReady j d y (j.stepsAt (sq * 2 ^ 20 + off) / cl) (e / 32)
      | none => true
    | _, _ => true

/-- Note a step on the 64-byte state lines of a STATE tile's rows. -/
def Job.noteSteps (j : Job) (key : Nat) : Job :=
  { j with steps := (List.range 64).foldl (fun l i => assocSet 0 l (key + 64 * i) (assocGet 0 l (key + 64 * i) + 1)) j.steps }

end Sys2Proof.Machine
end

