-- ==== Sys2Proof/Machine/Walk.lean ====
section
/-! DEFINITION. The walk of an attention call (R303, R304, R306 to R309): its units and their parts, the merge area, and the page
ring through which a group's pages go to a mover. -/

namespace Sys2Proof.Machine

/-! ## Movers -/

/-- Descriptors that a mover holds: issued ones and the one it executes (R53). -/
def Mover.held (m : Mover) : Nat := m.issued.length + (if m.flight.isSome then 1 else 0)

/-- One of a square's movers. -/
def Square.mover (x : Square) (mv : Nat) : Mover := if mv = 0 then x.mv0 else x.mv1

/-- Replace one of a square's movers. -/
def Square.setMover (x : Square) (mv : Nat) (m : Mover) : Square := if mv = 0 then { x with mv0 := m } else { x with mv1 := m }

/-- Replace a mover of a square. -/
def State.setMover (s : State) (sq mv : Nat) (m : Mover) : State := s.setSquare sq ((s.square sq).setMover mv m)

/-! ## Page tables (R297) -/

/-- Header fields of a page table. -/
def ptNtok (b : List Byte) : Nat := leField b 0 4
def ptRstpos (b : List Byte) : Nat := leField b 8 4
def ptHkv (b : List Byte) : Nat := leField b 16 1
def ptDb (b : List Byte) : Nat := leField b 17 1
def ptNlayer (b : List Byte) : Nat := leField b 18 1
def ptFmt (b : List Byte) : Nat := bits (leField b 19 1) 3 0
def ptNpage (b : List Byte) : Nat := leField b 20 4
def ptTailVa (b : List Byte) : Nat := leField b 24 8

/-- Address of the entry of layer `y`, page `p` and head `h`. -/
def ptEntryVa (va : Nat) (b : List Byte) (y p h : Nat) : Nat := va + 64 + 8 * ((y * ptNpage b + p) * ptHkv b + h)

/-- Page VA and V of an entry. -/
def entryVa (e : Nat) : Nat := bits e 51 10 * 1024

/-- The pages of a table that a walk fetches: those with a complete token group that holds a position at or above RSTPOS (R303). -/
def fetchedPages (ntok rstpos : Nat) : List Nat :=
  let groups := ntok / 32
  (List.range (cdiv groups 2)).filter fun p => (List.range 2).any fun i =>
    decide (2 * p + i < groups) && decide (rstpos ≤ 32 * (2 * p + i) + 31)

/-! ## Units (R306 to R309) -/

/-- Settings of DSP_ATT_CFG and the edges, in the order CFG, EDGE0 to EDGE15. -/
def State.attSettings (s : State) (fn : Nat) : List Nat :=
  (s.getReg fn 0x05 0x140).toNat :: (List.range 16).map fun n => (s.getReg fn 0x05 (0x144 + 4 * n)).toNat

/-- Bucket of a sequence of key length `n` (R306). -/
def attBucket (cfg : List Nat) (n : Nat) : Nat :=
  let last := bits (cfg.getD 0 0) 7 4
  (((List.range (last + 1)).find? fun b => decide (n ≤ bits (cfg.getD (b + 1) 0) 20 0))).getD last

/-- Parts that a unit is cut into: one for Class K, for a bucket at or below SPLITB, or for SPLITB 15 (R307, R308). -/
def attParts (cfg : List Nat) (isK : Bool) (bucket fetched : Nat) : Nat :=
  let c := cfg.getD 0 0
  if isK || decide (bucket ≤ bits c 11 8) || bits c 11 8 == 15 then 1
  else Nat.min (cdiv fetched (bits c 28 16)) 16

/-- The parts of one unit. -/
def partsOf (seq head fetched n : Nat) : List AttUnit :=
  let step := cdiv fetched n
  (List.range n).map fun i =>
    { seq := seq, head := head, first := i * step, count := if i + 1 = n then fetched - i * step else step, tail := i + 1 == n }

/-- Pages of the merge area of a unit of `n` parts (R309). -/
def mergePages (db rb n : Nat) : Nat := (n - 1) * cdiv (256 + db * rb * 4096) 4096 + cdiv (256 + db * rb * 4096 + 64) 4096

/-- Header of a table. -/
def State.tableHead (s : State) (fn va : Nat) : List Byte :=
  match s.vaBytes fn va 64 2 with
  | .ok b => b
  | .error _ => List.replicate 64 0#8

/-- Plan one unit: its parts with a merge area, or the whole unit where it is not split or the area is refused (R308, R309). -/
def State.planUnit (s : State) (id : Nat) (j : Job) (seq head bucket fetched db rb : Nat) : State :=
  let put := fun (s : State) (us : List AttUnit) (ps : List Nat) =>
    match s.job id with
    | some j => s.setJob id { j with units := j.units ++ us, merge := j.merge ++ ps }
    | none => s
  let n := attParts j.attCfg (j.cls == 2) bucket fetched
  if n ≤ 1 then put s (partsOf seq head fetched 1) []
  else match s.allocMapped j.fn (mergePages db rb n) (s.homeSlice j.fn) with
    | (s1, .ok ps) => (put s1 (partsOf seq head fetched n) ps).bump j.fn Fld.DSP_ATT_SPLITS 1
    | (s1, .error _) => (put s1 (partsOf seq head fetched 1) []).bump j.fn Fld.DSP_ATT_NOMERGE 1

/-- Plan the units of an attention call that starts: buckets in descending order, the list's order within one (R306); a unit has G × TQ
query rows in 32-row blocks (R291). -/
def State.planUnits (s : State) (id : Nat) (j : Job) : State :=
  let rb := cdiv (((s.imgJob j).map ImgJob.attG).getD 1 * j.append) 32
  let seqs := j.tables.zipIdx.map fun t =>
    let b := s.tableHead j.fn t.1.1
    let len := ptNtok b + (if j.appends then j.append else 0)
    (t.2, attBucket j.attCfg len, b)
  (List.range 16).reverse.foldl (fun s k =>
    (seqs.filter fun q => q.2.1 == k).foldl (fun s (q : Nat × Nat × List Byte) =>
      let b := q.2.2
      (List.range (ptHkv b)).foldl (fun s h =>
        s.planUnit id j q.1 h k (fetchedPages (ptNtok b) (ptRstpos b)).length (ptDb b) rb) s) s) s

/-! ## Page rings (R303, R304) -/

/-- The page ring of a group. -/
def State.pageRing (s : State) (g : Nat) : PageRing := assocGet {} s.rings g

/-- Replace the page ring of a group. -/
def State.setPageRing (s : State) (g : Nat) (r : PageRing) : State := { s with rings := assocSet {} s.rings g r }

/-- The FETCH descriptor of a page, without its slot (R303). -/
def pageDesc (fmt db va : Nat) (res : Bool) : List Byte :=
  let tile := if fmt = 8 then 512 else 1024
  leBytes 1 1 ++ leBytes 1 (fmt + 16 * (if fmt = 8 then 2 else 1)) ++ leBytes 1 0 ++ leBytes 1 (if res then 1 else 0) ++
    leBytes 2 (4 * db) ++ leBytes 2 0 ++ leBytes 8 va ++ leBytes 8 (va + 4 * db * tile) ++ leBytes 40 0

/-- The FETCH descriptor of a tail: line tiles. -/
def tailDesc (db va : Nat) : List Byte :=
  leBytes 1 1 ++ leBytes 1 0 ++ leBytes 1 3 ++ leBytes 1 0 ++ leBytes 2 (64 * db) ++ leBytes 2 0 ++ leBytes 8 va ++ leBytes 48 0

/-- Descriptors of a unit's walk: for each layer its pages in ascending position, then its tail (R303; log entry 20); none where an
entry cannot be read. -/
def State.walkDescs (s : State) (j : Job) (u : AttUnit) : Except VaErr (List (List Byte)) :=
  match j.tables[u.seq]? with
  | none => .ok []
  | some (va, _) =>
    let b := s.tableHead j.fn va
    let ps := ((fetchedPages (ptNtok b) (ptRstpos b)).drop u.first).take u.count
    let res := bit (j.attCfg.getD 0 0) 1
    let page := fun y p => (s.vaBytes j.fn (ptEntryVa va b y p u.head) 8 2).map fun e =>
      pageDesc (ptFmt b) (ptDb b) (entryVa (leNat e)) res
    let layer := fun y => do
      let l ← ps.mapM (page y)
      pure (l ++ if u.tail then [tailDesc (ptDb b) (ptTailVa b + (y * ptHkv b + u.head) * ptDb b * 4096)] else [])
    ((List.range (ptNlayer b)).mapM layer).map List.flatten

/-- The next descriptor of a walk, aimed at its slot. -/
def PageRing.aim (r : PageRing) (b : List Byte) : List Byte :=
  let k := r.issued % r.nslot
  setField (setField b 6 2 (r.line + k * r.slotLines)) 30 2 (r.side + k * r.sideLines)

/-- Emit descriptors of a group's walk on mover 0, keeping at most NSLOT pages issued and not consumed; `fuel` bounds them. -/
def State.emitPages (s : State) (g : Nat) : Nat → State
  | 0 => s
  | fuel + 1 =>
    match s.group g with
    | none => s
    | some x =>
      let r := s.pageRing g
      let m := (s.square x.square).mover 0
      match r.todo with
      | [] => s
      | b :: rest =>
        if r.nslot ≤ r.issued - r.consumed ∨ 16 ≤ m.held ∨ x.st = .ending ∨ x.lanesets.all (fun e => e.2.exited == 0xFFFFFFFF#32) then s
        else
          let d : MovDesc := { group := g, walk := some (r.aim b, r.issued) }
          let s1 := (s.setMover x.square 0 { m with issued := m.issued ++ [d] }).setPageRing g
            { r with issued := r.issued + 1, todo := rest }
          let s2 := match s1.job x.job with
            | some j => if leField b 2 1 = 0 then s1.bump j.fn Fld.DSP_ATT_PAGES 1 else s1
            | none => s1
          s2.emitPages g fuel

/-- Emit as many descriptors as the ring allows. -/
def State.emitWalk (s : State) (g : Nat) : State := s.emitPages g 8

/-- A mover has room again: the walks of the groups on its square go on (R303). -/
def State.resumeWalks (s : State) (sq : Nat) : State :=
  ((s.groupsOn sq).filter fun g => s.rings.any fun e => e.1 == g).foldl State.emitWalk s

/-- Start the walk of a placed group of an attention call (R303, R304); one whose entries cannot be read fails the job (R305). The
groups of a sequence call's other layers come before its units and have no walk. -/
def State.startWalk (s : State) (g : Nat) (x : Group) (j : Job) : State :=
  let plain := j.total - j.units.length
  match if plain ≤ x.index then j.units[x.index - plain]? else none with
  | none => s
  | some u => match s.walkDescs j u with
    | .error e => s.setJob x.job { j with descFail := j.descFail.orElse fun _ => some e.status }
    | .ok l =>
      let digest := ((s.image j.fn j.image).map Image.digest).getD 0
      let r := Config.pageRing digest j.job
      (s.setPageRing g { r with nslot := Nat.max 2 (Nat.min 8 r.nslot), issued := 0, consumed := 0, todo := l }).emitWalk g

/-- The square reports its group's write to CONSUMED: a count between the last one and the pages issued lets the walk go on (R304). -/
def State.consume (s : State) (g : Nat) (x : Group) (r : PageRing) : State :=
  let n := leNat (s.storeRead x.square (x.base + r.consumedAt) 4)
  if r.issued < n ∨ n < r.consumed then s else (s.setPageRing g { r with consumed := n }).emitWalk g

/-- Stores of `n` bytes of a group at region offsets: one that covers CONSUMED of its page ring is reported (R304). -/
def State.noteConsumed (s : State) (g : Nat) (as : List (Nat × Nat)) (n : Nat) : State :=
  match s.rings.find? fun e => e.1 == g with
  | none => s
  | some (_, r) => match s.group g with
    | none => s
    | some x => if as.any fun e => spansMeet (e.2, n) (r.consumedAt, 4) then s.consume g x r else s

/-- Page `k` has arrived: its record is written, then ARRIVED advances (R304); for a group that has ended nothing is (R305). -/
def State.pageArrived (s : State) (g : Nat) (x : Group) (k fallback : Nat) (st : Status) : State :=
  if x.st = .ending then s else
  let r := s.pageRing g
  let rec8 := leBytes 2 st.code ++ leBytes 2 fallback ++ leBytes 4 k
  let s1 := s.storeWrite x.square (x.base + r.records + 8 * (k % r.nslot)) rec8
  let n := leNat (s1.storeRead x.square (x.base + r.arrivedAt) 4)
  (s1.storeWrite x.square (x.base + r.arrivedAt) (leBytes 4 (n + 1))).emitWalk g

end Sys2Proof.Machine
end

