-- ==== Sys2Proof/Machine/Board.lean ====
section
/-! DEFINITION. The Board: placement of groups (R43, R55, R56, R59, R239, R240), preemption and resumption (R60, R61),
square faults and replay (R71, R586 to R588), and the events of squares and groups. -/

namespace Sys2Proof.Machine

/-! ## Room on a square -/

/-- Registers that a laneset draws: 32 lanes of A = 8 × ⌈N / 8⌉ (R42, R43). -/
def lanesetRegs (n : Nat) : Nat := 32 * (8 * cdiv n 8)

/-- Lanesets of a group in one quad: laneset i goes to quad i mod 4. -/
def inQuad (nls q : Nat) : Nat := ((List.range nls).filter fun i => i % 4 == q).length

/-- Groups of a square that hold registers: suspended groups have freed theirs (R60). -/
def State.liveGroups (s : State) (sq : Nat) : List Group :=
  (s.groups.filter fun e => e.2.square == sq && e.2.st != .suspended).map (·.2)

/-- Whether each quad has room for the registers and lanesets of a group beside those of some groups (R43). -/
def quadFits (gs : List Group) (nreg nls : Nat) : Bool :=
  (List.range 4).all fun q =>
    let sets := (gs.map fun g => inQuad g.nls q).sum
    let regs := (gs.map fun g => inQuad g.nls q * lanesetRegs g.nreg).sum
    decide (sets + inQuad nls q ≤ 32) && decide (regs + inQuad nls q * lanesetRegs nreg ≤ 16384)

/-- Whether a square's quads have room for a group. -/
def State.quadRoom (s : State) (sq nreg nls : Nat) : Bool := quadFits (s.liveGroups sq) nreg nls

/-- Store spans of a square that the slots of the partition's stream sets reserve there (R269). -/
def State.slotSpans (s : State) (sq : Nat) : List (Nat × Nat) :=
  match s.fileHolder (sqFile sq) with
  | none => []
  | some fn => ((s.images.filter fun e => decide (e.1 / 32768 = fn)).flatMap fun e => e.2.sets).flatMap fun d =>
      if d.homes.any fun l => l.contains sq then
        (List.range (32 * d.slotBlk)).flatMap fun k => (List.range d.lines).filterMap fun i =>
          let p := s.slotPlace fn d.set k i
          if p.1 = sq then some (p.2, p.2 + 64) else none
      else []

/-- The lowest base of a store region of `size` bytes in [lo, hi) that no resident region and no slot overlaps (log entry 9). -/
def State.storeRoom (s : State) (sq lo hi size : Nat) : Option Nat :=
  let rs := (s.groups.filter fun e => e.2.square == sq).map (fun e => (e.2.base, e.2.base + e.2.size)) ++ s.slotSpans sq
  let free := fun b => decide (lo ≤ b) && decide (b + size ≤ hi) &&
    rs.all fun r => decide (b + size ≤ r.1) || decide (r.2 ≤ b)
  let cands := (lo :: rs.map (·.2)).filter free
  cands.foldl (fun a b => match a with
    | none => some b
    | some c => some (Nat.min c b)) none

/-- Bounds of the store that groups of a class may use on a square (R59, R240). -/
def State.storeBounds (s : State) (sq : Nat) (isK : Bool) : Nat × Nat :=
  let f := sqFile sq
  if !s.fileKres f then (0, 786432)
  else
    let k := s.getF 0 (Fld.FIL_SPLIT_KSIZE.onPage (filePage f)) * 32768
    if isK then (0, k) else (k, 786432)

/-- Whether a square is in service: its file ON and itself IDLE, RUNNING or PREEMPTING (R80). -/
def State.inService (s : State) (sq : Nat) : Bool :=
  s.pageSt (filePage (sqFile sq)) == stOn &&
    (s.sqSt sq == sqIdle || s.sqSt sq == sqRunning || s.sqSt sq == sqPreempting)

/-- The base that a group of a launch would take on a square, if the square has room for it (R43, R56, R59). -/
def State.roomOn (s : State) (sq : Nat) (isK : Bool) (l : Launch) : Option Nat :=
  let b := s.storeBounds sq isK
  let nls := l.gx * l.gy * l.gz / 32
  if !s.inService sq then none
  else if !isK && s.sqSt sq == sqPreempting then none
  else if !isK && s.fileKres (sqFile sq) && !s.bundleOk l.bundle then none
  else if 32 ≤ (s.groupsOn sq).length then none
  else if !s.quadRoom sq l.nreg nls then none
  else s.storeRoom sq b.1 b.2 (4096 * l.store4k)

/-- Loaded Class K images of a partition. -/
def State.kImages (s : State) (fn : Nat) : List Image :=
  (s.images.filter fun e => decide (e.1 / 32768 = fn) && e.2.kimg).map (·.2)

/-- What the Class K portion of a reserved square holds from the loading of the image on: program text and resident data, as its replay
copy gives them; a replay square's stays empty until it stands in for a faulted square (R240, R586; log entry 7). -/
def State.loadPortion (s : State) (sq : Nat) : State :=
  match s.fileHolder (sqFile sq) with
  | none => s
  | some fn => match s.kImages fn with
    | [] => s
    | im :: _ =>
      let put := fun from_ => s.storeWrite sq 0 ((Config.replayCopy im.digest from_).take (32768 * Nat.min im.ksize 24))
      if !s.fileKres (sqFile sq) then s
      else if im.replaySquares.contains sq then
        match im.swaps.find? fun p => p.2 == sq with
        | some p => put p.1
        | none => s
      else put sq

/-- Load the Class K portions of a file's squares that are in service. -/
def State.loadFilePortions (s : State) (f : Nat) : State :=
  ((List.range 16).map fun r => 16 * f + r).foldl (fun (s : State) sq => if s.inService sq then s.loadPortion sq else s) s

/-- Load the Class K portions of some files that are ON. -/
def State.loadPortions (s : State) (p : Nat → Bool) : State :=
  ((List.range 16).filter fun f => p f && s.fileKres f && s.pageSt (filePage f) == stOn).foldl State.loadFilePortions s

/-- Squares of some files, in ascending number. -/
def fileSquares (fs : List Nat) : List Nat := fs.flatMap fun f => (List.range 16).map fun r => 16 * f + r

/-- The launch that a job runs: its primary or its fallback variant (R185). -/
def State.launchOf (s : State) (j : Job) : Launch :=
  match s.imgJob j with
  | some ij => if j.variant then ij.var else ij.prim
  | none => {}

/-- Index of the next group of a job: one to be placed again, or the first not yet placed; and the job once that group is placed. -/
def Job.next (j : Job) : Nat := j.redo.headD j.placed
def Job.advance (j : Job) : Job :=
  match j.redo with
  | _ :: t => { j with redo := t }
  | [] => { j with placed := j.placed + 1 }

/-- Kind of a job: 0 plain, 1 sequence, 2 attention (R646). -/
def State.jobKind (s : State) (j : Job) : Nat := ((s.imgJob j).map ImgJob.kind).getD 0

/-- The layer of a group of a sequence call, by its index among the groups of each layer (R269). -/
def layerOfGroup : List Nat → Nat → Nat
  | [], _ => 0
  | n :: t, i => if i < n then 0 else layerOfGroup t (i - n) + 1

/-- Home squares that the next group of a sequence call runs on: those of its layer; attention units and other jobs have none
(R269, R299; log entry 55). -/
def State.homesOf (s : State) (j : Job) : Option (List Nat) :=
  if s.jobKind j = 1 ∧ (j.total = 0 ∨ j.next < j.total - j.units.length) then
    (s.imgJob j).bind fun ij => (s.setDecl j.fn ij.set).map fun d => d.homes.getD (layerOfGroup ij.layerGroups j.next) []
  else none

/-- Squares that a job's groups may use: KFILES of its queue without unused replay squares for Class K, otherwise every file
of the partition; of these, the home squares of a sequence call (R240, R269, R586, R587). -/
def State.jobSquares (s : State) (j : Job) : List Nat :=
  let all := if j.cls = 2 then
      let fs := indices 16 fun f => bit (s.queue j.fn j.q).kfiles f && s.fileHolder f == some j.fn
      let (rep, swaps) := match s.image j.fn j.image with
        | some im => (im.replaySquares, im.swaps)
        | none => ([], [])
      (fileSquares fs).filter fun sq => !rep.contains sq || swaps.any fun p => p.2 == sq
    else fileSquares (s.partFiles j.fn)
  match s.homesOf j with
  | some hs => all.filter hs.contains
  | none => all

/-- The square and base where the Dispatcher would place the next group of a job (R56). -/
def State.placeOf (s : State) (j : Job) : Option (Nat × Nat) :=
  (s.jobSquares j).findSome? fun sq => (s.roomOn sq (j.cls == 2) (s.launchOf j)).map fun b => (sq, b)

/-! ## Placing -/

/-- The argument block as 16 words. -/
def argWords (b : List Byte) : List (Nat × Word) :=
  (List.range 16).filterMap fun i =>
    let w := BitVec.ofNat 32 (leField b (4 * i) 4)
    if w = 0#32 then none else some (i, w)

/-- A laneset as a group starts (R96, R98). -/
def freshLaneset (arg : List Byte) : Laneset := { uregs := argWords arg }

/-- Text bytes of a launch (R87). -/
def textBytes (l : Launch) : List Byte := l.text.flatMap fun w => leBytes 8 w.toNat

/-- Offset of the program text in a group's region (R100). -/
def textOff (nls : Nat) : Nat := 64 + 256 * nls

/-- Place one group of a job on a square: its text goes into its region and its lanesets start (R56, R96, R98, R100). A Class K group
finds its text in the portion that the image loaded (R240); its region's place in it is chosen here (log entry 7). -/
def State.placeGroup (s : State) (id index sq base : Nat) (rep : Option Nat) : State :=
  match s.job id with
  | none => s
  | some j =>
    let l := s.launchOf j
    let nls := l.gx * l.gy * l.gz / 32
    let x : Group := {
      job := id, index := index, square := sq, base := base, size := 4096 * l.store4k, nreg := l.nreg, nls := nls,
      text := 8 * l.text.length, bundleLen := l.bundle, start := s.fileCyc (sqFile sq), replayOf := rep,
      lanesets := (List.range nls).map fun i => (i, freshLaneset j.arg) }
    let s0 := if (s.groupsOn sq).isEmpty then s.noteRetire sq else s
    let s1 := s0.storeWrite sq (base + textOff nls) (textBytes l)
    let s2 := { s1.setGroup s1.nextGroup x with nextGroup := s1.nextGroup + 1 }
    let s3 := if s2.sqSt sq = sqIdle then s2.setSqSt sq sqRunning else s2
    if j.units.isEmpty then s3 else s3.startWalk s1.nextGroup x j

/-- Whether the Dispatcher is ON and no Board or compute reset runs (R583). -/
def State.dspOn (s : State) : Bool := s.pageSt 0x05 == stOn && s.rst.run.isNone

/-- Whether the Dispatcher starts jobs and places groups: not from step 2 of an entry on (R559). -/
def State.dspPlaces (s : State) : Bool :=
  let step := s.getF 0 Fld.PWR_STATE_STEP
  s.dspOn && !(s.flag 0 Fld.PWR_STATE_BUSY && ((decide (2 ≤ step) && decide (step < 0x80)) || s.pow.viaHold))

/-- Whether an entry may start: no earlier entry of its queue waits, and an ORDERED one finds every earlier entry complete
(R238). -/
def State.inOrder (s : State) (j : Job) : Bool :=
  (s.queueJobs j.fn j.q).all fun e =>
    if sub32 j.sqIndex e.2.sqIndex = 0 ∨ 2 ^ 31 ≤ sub32 j.sqIndex e.2.sqIndex then true
    else !j.ordered && e.2.st != .waiting

/-- Whether the tables of a call carry the generations it expects (R301). -/
def State.tablesFresh (s : State) (j : Job) : Bool :=
  j.tables.all fun t => t.2 == 0xFFFFFFFF || match s.vaBytes j.fn t.1 64 2 with
    | .ok b => leField b 4 4 == t.2
    | .error _ => false

/-- Whether the streams of a call carry the generations it expects (R272). -/
def State.streamsFresh (s : State) (j : Job) : Bool :=
  j.streams.all fun a => a.2 == 0xFFFFFFFF || a.2 == (s.stream j.fn a.1).gen

/-- Whether a call taken earlier that names one of a call's tables or streams has not ended (R272, R301). -/
def State.callBlocked (s : State) (j : Job) : Bool :=
  s.jobs.any fun e => decide (e.2.takeNo < j.takeNo) && e.2.fn == j.fn && e.2.taken && e.2.st != .ended &&
    (e.2.streams.any (fun a => j.streams.any fun b => a.1 == b.1) ||
     e.2.tables.any (fun a => j.tables.any fun b => a.1 == b.1))

/-- Whether a waiting call has come to its start check: taken, in its queue's order, and with no earlier call on its streams and
tables. -/
def State.atCheck (s : State) (j : Job) : Bool := s.inOrder j && j.taken && !s.callBlocked j

/-- Whether a waiting job may start: a plain one in its queue's order; a call past its start check, its streams in STORE
(R238, R272, R301). -/
def State.mayStart (s : State) (j : Job) : Bool :=
  if s.jobKind j = 0 then s.inOrder j
  else s.atCheck j && s.tablesFresh j && s.streamsFresh j && j.streams.all fun a => (s.stream j.fn a.1).st == .store

/-- Whether a job has a group to place now: none once its deadline tick or its run time has ended (R243), and none while its first group
waits for a preemption. -/
def State.wantsGroup (s : State) (j : Job) : Bool :=
  !j.nop && j.stop.isNone && j.exc.isNone && !j.overdue s.now && !j.overrun s.ticks &&
    ((j.st == .started && (!j.redo.isEmpty || decide (j.placed < j.total))) || (j.st == .waiting && !j.await && s.mayStart j))

/-- The Dispatcher's order of R239: started Class K, new Class K, started Q and P, new Q and P. -/
def Job.rank (j : Job) : Nat :=
  (if j.cls = 2 then 0 else 2) + (if j.st = .started then 0 else 1)

/-- Whether a job goes before another: lower rank; within started jobs the oldest start, within new Class K jobs the oldest
acceptance, within new Q and P jobs the turns `ta` and `tb` (R27, R239). -/
def Job.before (a b : Job) (ta tb : Nat) : Bool :=
  decide (a.rank < b.rank) || (a.rank == b.rank &&
    ((a.st == .started && decide (a.startTick < b.startTick)) ||
     (a.st == .waiting && a.cls == 2 && decide (a.accepted < b.accepted)) ||
     (a.st == .waiting && a.cls != 2 && decide (ta < tb))))

/-- Place of a queue of class Q or P in the round robin: the class whose grant is due first, three of Q and one of P, and in a class the
next queues in ascending global number after the one served last (R27, R239; log entry 10). -/
def Turns.key (t : Turns) (cls g : Nat) : Nat :=
  let due := if t.given < 3 then 1 else 0
  let last := if cls = 1 then t.lastQ else t.lastP
  (if cls = due then 0 else 65536) + match last with
    | some l => (g + 65535 - l) % 65536
    | none => g

/-- The round robin after a grant. -/
def Turns.serve (t : Turns) (cls g : Nat) : Turns :=
  if cls = 1 then { t with given := Nat.min 3 (t.given + 1), lastQ := some g } else { t with given := 0, lastP := some g }

/-- Global number of a queue (R222). -/
def State.globalQueue (s : State) (fn q : Nat) : Nat := (assocGet {} s.parts fn).qbase + q

/-- A job's place among new Q and P jobs. -/
def State.turnOf (s : State) (j : Job) : Nat := s.turns.key j.cls (s.globalQueue j.fn j.q)

/-- Whether no other job that could place a group goes before this one. -/
def State.itsTurn (s : State) (id : Nat) (j : Job) : Bool :=
  s.jobs.all fun e => e.1 == id || !(e.2.before j (s.turnOf e.2) (s.turnOf j) && s.wantsGroup e.2 && (s.placeOf e.2).isSome)

/-- The variant switch of R185 for an invocation that starts: the tracker after it, whether the variant runs, and whether
this was a switch. -/
def variantSwitch (t : Tracker) (limit holdoff : Nat) : Tracker × Bool × Bool :=
  if t.variant then
    if t.ran < holdoff then ({ t with ran := t.ran + 1 }, true, false)
    else ({ t with misses := [], variant := false, ran := 0 }, false, false)
  else if limit ≠ 0 ∧ limit ≤ (t.misses.filter id).length then ({ t with variant := true, ran := 1 }, true, true)
  else (t, false, false)

/-- Trackers of a queue, at most 16: a further job takes the place of the one invoked least recently (R184). -/
def State.makeTracker (s : State) (j : Job) : State :=
  let k := trackerKey j.fn j.q j.image j.job
  if s.trackers.any (fun e => e.1 == k) then s
  else
    let mine := s.trackers.filter fun e => e.1 / 2 ^ 32 == k / 2 ^ 32
    let ts := if mine.length < 16 then s.trackers
      else match mine with
        | [] => s.trackers
        | e :: t => assocErase (t.foldl (fun a b => if b.2.lastUse < a.2.lastUse then b else a) e).1 s.trackers
    { s with trackers := assocInsert k {} ts }

/-- Note an invocation of an image job in its tracker (R184). -/
def State.useTracker (s : State) (j : Job) : State :=
  let k := trackerKey j.fn j.q j.image j.job
  let s1 := s.makeTracker j
  { s1 with trackers := assocInsert k { assocGet {} s1.trackers k with lastUse := s.ticks } s1.trackers }

/-- Decide the variant of an invocation at its start (R185); a job without one has no history. -/
def State.decideVariant (s : State) (id : Nat) (j : Job) : State :=
  match s.imgJob j with
  | none => s
  | some ij =>
    let k := trackerKey j.fn j.q j.image j.job
    let s1 := s.useTracker j
    if !ij.hasVariant then { s1 with trackers := assocInsert k { assocGet {} s1.trackers k with misses := [] } s1.trackers }
    else if j.vsel = 1 then s1
    else if j.vsel = 2 then s1.setJob id { j with variant := true }
    else
      let t := assocGet {} s1.trackers k
      let (t', var, sw) := variantSwitch t (s.getF j.fn Fld.RSV_FBV_CTL_LIMIT) (s.getF j.fn Fld.RSV_FBV_CTL_HOLDOFF)
      let s2 := { s1 with trackers := assocInsert k t' s1.trackers }
      let s3 := s2.setJob id { j with variant := var, fbv := var }
      if sw then (s3.bump j.fn Fld.RSV_FBV_SW 1).raiseIrq 0x06 j.fn 2 else s3

/-- Read the argument block of a job that starts (R227): zeros where ARGVA is 0. A taken call has been read. -/
def State.readArg (s : State) (j : Job) : State × Except VaErr (List Byte) :=
  if j.taken then (s, .ok j.arg)
  else if j.argVa = 0 then (s, .ok (List.replicate 64 0#8))
  else s.vaRead j.fn .dispatcher j.argVa 64

/-- Faults of the single-fault list that are being handled: those whose interruption of a job lasts, and an Arbiter restart (R585). -/
def State.faultsHandled (s : State) : Nat :=
  (s.jobs.filterMap fun e => if e.2.st = .ended then none else e.2.faultTick).eraseDups.length + if s.arb.restarting then 1 else 0

/-- Whether the bound holds for the streams that a call names: each was idle in STORE at the doorbell, and while a fault is handled its
set has SHADOW (R282). -/
def State.streamsBound (s : State) (j : Job) : Bool :=
  j.streams.all (fun a => j.idle.contains a.1) &&
    (s.faultsHandled == 0 || j.streams.isEmpty || (((s.imgJob j).bind fun ij => s.setDecl j.fn ij.set).map SetDecl.shadow).getD false)

/-- Whether the conditions of R29, R247 and R282 hold (log entry 18): files, pins and queue reserved, Active, no suspension, at most one
fault being handled; a doorbell that advanced the tail by one with nothing waiting before it and a free completion slot, ORDERED clear,
the argument block and the submission ring in the locked set, at most four Class K doorbells in 1 µs, no wait for an earlier Class K
job, and the call's streams ready. -/
def State.boundsHold (s : State) (j : Job) : Bool :=
  let Q := s.queue j.fn j.q
  let lockedAt := fun va => s.mem.locked.any fun e => e.1 == tlbKey j.fn va
  let near := (s.queues.filter fun e => e.2.cls == 2).flatMap fun e => e.2.stamps.filter fun t =>
    decide (t.2 ≤ j.accepted) && decide (j.accepted < t.2 + 1000)
  s.getF 0 Fld.PWR_STATE_STATE == 0 && !s.flag 0 Fld.PWR_STATE_BUSY && !s.kSuspended && decide (s.faultsHandled ≤ 1) &&
    (indices 16 fun f => bit Q.kfiles f).all (fun f => (s.partKFiles j.fn).contains f) &&
    decide (s.rsvPinned j.fn ≤ s.rsvFloor j.fn) && j.alone && !j.kWaited && s.streamsBound j && !j.ordered &&
    (j.argVa == 0 || lockedAt j.argVa) && lockedAt (Q.sqBase + 64 * (j.sqIndex % 2 ^ Q.sqsz)) && decide (near.length ≤ 4)

/-- Note the interruption of Class K service by a fault of the single-fault list, as the replayed group or the
waiting job starts (R585, R591, R594, R595). -/
def State.noteKint (s : State) (id : Nat) : State :=
  match s.job id with
  | none => s
  | some j => match j.faultTick with
    | none => s
    | some t =>
      let ns := (s.ticks - t) * 4
      let f := Fld.DEV_KINT_MAX
      let s1 := s.setF 0 f (Nat.max (s.getF 0 f) (Nat.min ns 0xFFFFFFFF))
      (s1.setJob id { j with faultTick := none }).raiseIrq 0x00 0 4

/-- Record the doorbell-to-start time of a job; above 3,000 ns under the conditions of the bound it is logged (R248, R253). -/
def State.noteStart (s : State) (id : Nat) (j : Job) : State :=
  let lat := s.now - j.accepted
  let Q := ((s.queue j.fn j.q).addStat 1 lat).maxStat 2 lat
  let s1 := s.setQueue j.fn j.q Q
  let kl := Fld.DSP_KLAT_MAX
  let s2 := if j.cls = 2 then s1.setF j.fn kl (Nat.max (s1.getF j.fn kl) (Nat.min lat 0xFFFFFFFF)) else s1
  let s3 := if j.cls = 2 ∧ 3000 < lat ∧ s.boundsHold j then
      s2.logEvent 2 0x05 j.fn 7 Status.internalError.code [lat]
    else s2
  let s4 := if j.cls = 2 then s3 else { s3 with turns := s3.turns.serve j.cls (s.globalQueue j.fn j.q) }
  (s4.setJob id { j with st := .started, startTick := s.ticks }).noteKint id

/-- A job starts: its argument block is read, and its variant is decided; a failed read completes it unstarted
(R185, R227, R238). The number of groups is the launch's grid, or an attention call's units, or both for a sequence
call with attention layers; the streams of a sequence call are BUSY, and each layer's form is chosen (R260). -/
def State.startJob (s : State) (id : Nat) (j : Job) : State × Bool :=
  match s.readArg j with
  | (s1, .error e) =>
    (s1.stopJob id (if e = .poison then .eccUncorrectable else e.status) 0 0, false)
  | (s1, .ok b) =>
    let s2 := s1.decideVariant id { j with arg := b }
    match s2.job id with
    | none => (s2, false)
    | some j2 =>
      let j2 := { j2 with arg := b }
      let l := s2.launchOf j2
      let forms := match s2.callSet j2 with
        | some d => d.layers.map fun L => L.form (leField j2.arg 4 4) (leField j2.arg 1 1 % 4)
        | none => []
      let s3 := s2.setJob id { j2 with total := l.nx * l.ny * l.nz, forms := forms, steps := [] }
      let s4 := if s.jobKind j2 = 2 ∨ !j2.tables.isEmpty then
          let s4 := s3.planUnits id j2
          match s4.job id with
          | some j4 => s4.setJob id { j4 with
              total := (if s.jobKind j2 = 2 then 0 else l.nx * l.ny * l.nz) + j4.units.length }
          | none => s4
        else s3
      let s5 := j2.streams.foldl (fun s a => s.setStream j2.fn a.1 { s.stream j2.fn a.1 with st := .busy }) s4
      match s5.job id with
      | none => (s5, false)
      | some j3 => (s5.noteStart id j3, true)

/-- Place the next group of a job where `placeOf` says, starting the job on its first. -/
def State.placeNext (s : State) (id : Nat) : State :=
  match s.job id with
  | none => s
  | some j =>
    let (s1, ok) := if j.st = .waiting then s.startJob id j else (s, true)
    if !ok then s1
    else match s1.job id with
      | none => s1
      | some j1 => match s1.placeOf j1 with
        | none => s1
        | some (sq, base) => (s1.setJob id j1.advance).placeGroup id j1.next sq base none

/-- A call whose start check finds another generation than it expects: nothing runs (R272, R301). -/
def State.genMismatch (s : State) (id : Nat) (j : Job) : State :=
  let stop : Stop := { status := .stateGenerationMismatch, detail := 0, tick := s.ticks }
  (((s.bump j.fn Fld.DSP_SEQ_GENMIS 1).setJob id { j with stop := some stop }).endJob id true).settleQueues

/-- GROUP_PLACE: the Dispatcher places the next group of a job, in the order of R239, on the lowest-numbered square with
room (R56). An attention call compares its tables' generations as it starts (R301); a sequence call starts by its own command. -/
def execGroupPlace (job : Nat) (s : State) : Out :=
  .next (match s.job job with
    | none => s
    | some j =>
      let waits := j.st == .waiting
      if !s.dspPlaces || (waits && s.jobKind j == 1) then s
      else if waits && s.jobKind j == 2 && s.atCheck j && j.stop.isNone && !s.tablesFresh j then s.genMismatch job j
      else if !s.wantsGroup j || !s.itsTurn job j || (s.placeOf j).isNone then s
      else (s.placeNext job).settleQueues)

/-! ## Preemption and resumption (R59 to R61) -/

/-- Groups of lower classes on a square. -/
def State.lowGroups (s : State) (sq : Nat) : List (Nat × Group) :=
  s.groups.filter fun e => e.2.square == sq && ((s.job e.2.job).map Job.cls).getD 0 != 2

/-- Ask every running Q and P group of a square to stop at its next boundary. -/
def State.preemptLow (s : State) (sq : Nat) : State :=
  (s.lowGroups sq).foldl (fun s e =>
    if e.2.st = .running then s.setGroup e.1 { e.2 with preempt := true } else s) s

/-- The 64 bytes of a group's continuation; their layout is not given (R57, R100; log entry 11). -/
def Group.continuation (x : Group) : List Byte := (List.range 64).map (Config.contByte x.contPc x.index x.bundle)

/-- A victim at its boundary is suspended: continuation and uniform registers go to the save area, its registers are freed
(R60, R100); one whose job is stopped ends instead (R61). The layout of the continuation is log entry 11's. -/
def State.suspendGroup (s : State) (g : Nat) : State :=
  match s.group g with
  | none => s
  | some x =>
    let cont := x.continuation
    let us := x.lanesets.flatMap fun e => (List.range 64).flatMap fun i => leBytes 4 (assocGet 0#32 e.2.uregs i).toNat
    let s1 := (s.storeWrite x.square x.base (cont ++ us)).perfCount x.square 0x07 1
    let order := (s.groups.map fun e => e.2.suspOrder).foldl Nat.max 0 + 1
    let s2 := s1.setGroup g { x with st := .suspended, preempt := false, suspOrder := order }
    match s2.job x.job with
    | none => s2
    | some j =>
      let Q := (s2.queue j.fn j.q).addStat 5 1
      (s2.setQueue j.fn j.q Q).setJob x.job { j with preempted := true }

/-- Uniform registers of laneset `i` as the save area holds them (R100). -/
def State.savedUregs (s : State) (x : Group) (i : Nat) : List (Nat × Word) :=
  assocSetMany 0#32 [] ((List.range 64).map fun k =>
    (k, BitVec.ofNat 32 (leNat (s.storeRead x.square (x.base + 64 + 256 * i + 4 * k) 4))))

/-- A group resumes from its continuation: registers as at group start, uniform registers as saved; a laneset that has ended stays so
(R60, R100, R109, R128). -/
def State.resumeGroup (s : State) (g : Nat) : State :=
  match s.group g with
  | none => s
  | some x =>
    let ls := x.lanesets.map fun e =>
      if e.2.exited == 0xFFFFFFFF#32 then e else (e.1, { (({} : Laneset)) with pc := x.contPc, uregs := s.savedUregs x e.1 })
    let s1 := s.setGroup g { x with st := .running, preempt := false, lanesets := ls }
    if s1.sqSt x.square = sqIdle then s1.setSqSt x.square sqRunning else s1

/-- Whether a square would hold a Class K group of a launch once the Q and P groups on it are suspended: the Class K portion of its store
has room, and so do the quads beside the Class K groups (R43, R59, R60). -/
def State.kRoom (s : State) (sq : Nat) (l : Launch) : Bool :=
  let b := s.storeBounds sq true
  let ks := ((s.groups.filter fun e => e.2.square == sq && ((s.job e.2.job).map Job.cls).getD 0 == 2)).map (·.2)
  decide ((s.groupsOn sq).length < 32) && quadFits ks l.nreg (l.gx * l.gy * l.gz / 32) &&
    (s.storeRoom sq b.1 b.2 (4096 * l.store4k)).isSome

/-- PREEMPTION: a Class K job's next group is ready for a reserved square on which Q or P groups run; the lowest-numbered
such square of KFILES that will hold it stops their new bundles (R60, R240). A job that has not started starts as the group is placed
(R185, R238). -/
def execPreemption (job : Nat) (s : State) : Out :=
  .next (match s.job job with
    | none => s
    | some j =>
      if !s.dspPlaces || j.cls != 2 || !s.wantsGroup j || !s.itsTurn job j || (s.placeOf j).isSome then s
      else
        match (s.jobSquares j).find? fun sq => s.inService sq && s.sqSt sq != sqPreempting &&
            ((s.lowGroups sq).any fun e => e.2.st == .running) && s.kRoom sq (s.launchOf j) with
        | none => s
        | some sq =>
          let x := s.square sq
          let s1 := s.setSquare sq { x with awaiting := x.awaiting ++ [{ job := job, index := j.next, replayOf := none }] }
          let s2 := s1.setJob job (if j.st = .waiting then { j with await := true } else j.advance)
          (s2.setSqSt sq sqPreempting).preemptLow sq)

/-- A group cannot be replayed: its job ends as for a cancellation, with REPLAY_FAILED (R588). -/
def State.replayFail (s : State) (id : Nat) : State :=
  ((s.bump 0 Fld.DEV_REPLAY_FAIL 1).raiseIrq 0x00 0 3).stopJob id .replayFailed 0 0

/-- A group that waited for victims waits on its square no longer: it is to be placed again; a replayed one finds no square (R588). -/
def State.unawait (s : State) (a : Await) : State :=
  match s.job a.job with
  | none => s
  | some j =>
    if j.st = .ended ∨ j.stop.isSome ∨ j.exc.isSome then s.settleJob a.job
    else if j.st = .waiting then s.setJob a.job { j with await := false }
    else if a.replayOf.isSome then s.replayFail a.job
    else s.setJob a.job { j with redo := j.redo ++ [a.index] }

/-- Place a group that waited for a square's victims; the first of a job starts it in this tick (R60, R185, R238). -/
def State.placeAwait (s : State) (sq : Nat) (a : Await) : State :=
  match s.job a.job with
  | none => s
  | some j => match s.roomOn sq true (s.launchOf j) with
    | none => s.unawait a
    | some b =>
      if j.st = .ended ∨ j.stop.isSome ∨ j.exc.isSome ∨ j.overdue s.now ∨ j.overrun s.ticks then s.unawait a
      else if j.st = .started then (s.placeGroup a.job a.index sq b a.replayOf).noteKint a.job
      else
        let (s1, ok) := s.startJob a.job { j with await := false }
        match ok, s1.job a.job with
        | true, some j1 => match s1.roomOn sq true (s1.launchOf j1) with
          | some b => (s1.setJob a.job j1.advance).placeGroup a.job a.index sq b none
          | none => s1
        | _, _ => s1

/-- Place the groups that waited for a square's victims. -/
def State.placeAwaited (s : State) (sq : Nat) (l : List Await) : State := l.foldl (fun s a => s.placeAwait sq a) s

/-- PREEMPTION_COMPLETE: every victim of a square is suspended or gone, and the Class K groups are placed (R60, R70). -/
def execPreemptionComplete (sq : Nat) (s : State) : Out :=
  .next (if s.sqSt sq = sqPreempting ∧ (s.lowGroups sq).all (fun e => e.2.st == .suspended) then
      let l := (s.square sq).awaiting
      let s1 := (s.setSquare sq { s.square sq with awaiting := [] }).setSqSt sq sqRunning
      ((s1.placeAwaited sq l).settleSquare sq).settleQueues
    else s)

/-- Whether groups that have been placed on a square run there: its file is ON, or waits for them to end (R67, R80). -/
def State.hosts (s : State) (sq : Nat) : Bool :=
  let p := s.pageSt (filePage (sqFile sq))
  (p == stOn || p == stStopping) && (s.sqSt sq == sqIdle || s.sqSt sq == sqRunning || s.sqSt sq == sqPreempting)

/-- GROUP_RESUME: the group suspended longest on a square resumes once the square has room, also where its file waits for its groups to
end (R60, R67). -/
def execGroupResume (sq : Nat) (s : State) : Out :=
  .next (
    let sus := (s.groups.filter fun e => e.2.square == sq && e.2.st == .suspended)
    match sus with
    | [] => s
    | e :: t =>
      let (g, x) := t.foldl (fun a b => if b.2.suspOrder < a.2.suspOrder then b else a) e
      if s.hosts sq && s.sqSt sq != sqPreempting && s.quadRoom sq x.nreg x.nls &&
          (!s.fileKres (sqFile sq) || s.bundleOk x.bundleLen) then s.resumeGroup g
      else s)

/-- Copy a group's store region to another square as a mover does: poisoned lines arrive marked poisoned (R52, R59). -/
def State.copyRegion (s : State) (x : Group) (sq b : Nat) : State :=
  let s0 := s.storeScan x.square x.base x.size
  let bad := (List.range (x.size / 64)).filter fun k => s0.storePoisoned x.square (x.base + 64 * k) 64
  bad.foldl (fun s k => s.poisonStore sq (b + 64 * k) 64) (s0.storeWrite sq b (s0.storeRead x.square x.base x.size))

/-- GROUP_MOVE: a Q or P group on a reserved square whose bundle breaks the range is preempted, and once suspended moves
with its whole region to a square of the partition's other files (R59). -/
def execGroupMove (g : Nat) (s : State) : Out :=
  .next (match s.group g with
    | none => s
    | some x => match s.job x.job with
      | none => s
      | some j =>
        if j.cls = 2 || !s.fileKres (sqFile x.square) || s.bundleOk x.bundleLen then s
        else match x.st with
          | .running => s.setGroup g { x with preempt := true }
          | .ending => s
          | .suspended =>
            let cands := (fileSquares (s.partFiles j.fn)).filter fun sq => !s.fileKres (sqFile sq)
            match cands.findSome? fun sq => (s.roomOn sq false (s.launchOf j)).map fun b => (sq, b) with
            | none => s
            | some (sq, b) =>
              let s1 := (s.copyRegion x sq b).setGroup g { x with
                square := sq, base := b, start := s.fileCyc (sqFile sq), ran := x.ran + (s.fileCyc (sqFile x.square) - x.start) }
              (s1.resumeGroup g).settleSquare x.square)

/-! ## Square faults (R71, R585 to R588) -/

/-- Record a single fault in DEV_FLT (R594), raise IRQ FAULT of page 0x00 and log it (R639). -/
def State.noteFault (s : State) (kind wh : Nat) : State :=
  let s1 := (s.setF 0 Fld.DEV_FLT_KIND kind).setF 0 Fld.DEV_FLT_WHERE wh
  let s2 := s1.set64 0 Fld.DEV_FLT_TICK_LO Fld.DEV_FLT_TICK_HI s.now
  (s2.raiseIrq 0x00 0 2).logEvent 1 0x00 0xFF 5 0 [kind, wh]

/-- Drop a group from a faulted square: its engine work goes with it (R587 step 1). -/
def State.dropFaulted (s : State) (g : Nat) (x : Group) : State :=
  ((s.setSquare x.square ((s.square x.square).dropWork g)).dropGroup g).settleFrees

/-- The replay square of a job whose Class K portion is empty, the lowest-numbered of KFILES (R587). -/
def State.replaySquare (s : State) (j : Job) : Option Nat :=
  match s.image j.fn j.image with
  | none => none
  | some im =>
    (List.range 256).find? fun sq => im.replaySquares.contains sq && bit (s.queue j.fn j.q).kfiles (sqFile sq) &&
      s.inService sq && !(im.swaps.any fun p => p.2 == sq) &&
      !((s.groupsOn sq).any fun g => ((s.group g).bind fun x => s.job x.job).any fun k => k.cls == 2)

/-- Note in one image that a replay square stands in for a faulted square (R587). -/
def addSwap (key sq t : Nat) (e : Nat × Image) : Nat × Image :=
  if e.1 = key ∧ !e.2.swaps.contains (sq, t) then (e.1, { e.2 with swaps := e.2.swaps ++ [(sq, t)] }) else e

/-- Replay one group of a faulted square, or fail its job (R587, R588). -/
def State.replayGroup (s : State) (sq : Nat) (x : Group) : State :=
  match s.job x.job with
  | none => s
  | some j =>
    if j.stop.isSome || j.exc.isSome then s.settleJob x.job
    else if x.replayOf.isSome || ((s.imgJob j).map ImgJob.noReplay).getD false then s.replayFail x.job
    else
      let s0 := s.setJob x.job { j with replayOf := j.replayOf.orElse (fun _ => some sq) }
      if j.cls = 2 then
        let stand : Option Nat := match s.image j.fn j.image with
          | some im => (im.swaps.find? fun p => p.1 == sq).map (·.2)
          | none => none
        match stand.orElse (fun _ => s0.replaySquare j) with
        | none => s.replayFail x.job
        | some t =>
          let s1 := s0.bump 0 Fld.DEV_REPLAYS 1
          let s2 := { s1 with images := s1.images.map (addSwap (j.fn * 32768 + j.image) sq t) }
          let digest := ((s.image j.fn j.image).map Image.digest).getD 0
          let s3 := s2.storeWrite t 0 (Config.replayCopy digest sq)
          let j3 := { (s3.job x.job).getD j with faultTick := some s.ticks }
          let s4 := s3.setJob x.job j3
          if (s4.lowGroups t).any (fun e => e.2.st == .running) then
            let y := s4.square t
            let s5 := s4.setSquare t { y with
              awaiting := y.awaiting ++ [{ job := x.job, index := x.index, replayOf := some sq }] }
            (s5.setSqSt t sqPreempting).preemptLow t
          else match s4.roomOn t true (s4.launchOf j) with
            | some b => (s4.placeGroup x.job x.index t b (some sq)).noteKint x.job
            | none => s.replayFail x.job
      else
        match (fileSquares (s.partFiles j.fn)).findSome? fun t =>
            (s.roomOn t false (s.launchOf j)).map fun b => (t, b) with
        | none => s.replayFail x.job
        | some (t, b) =>
          (s0.bump 0 Fld.DEV_REPLAYS 1).placeGroup x.job x.index t b (some sq)

/-- A new home for a faulted home square: the lowest-numbered square of the partition that is ON, not faulted and not home to
another layer of any set (R269). -/
def State.newHome (s : State) (fn : Nat) : Option Nat :=
  let homes := (s.images.filter fun e => decide (e.1 / 32768 = fn)).flatMap fun e =>
    e.2.sets.flatMap fun d => d.homes.flatMap fun l => l
  (fileSquares (s.partFiles fn)).find? fun sq => s.inService sq && !homes.contains sq

/-- One set's homes after the move of a faulted home square. -/
def moveHome (sq : Nat) (t : Option Nat) (d : SetDecl) : SetDecl :=
  if d.homes.any (fun l => l.contains sq) then
    match t with
    | some n => { d with homes := d.homes.map (fun l => l.map (fun q => if q = sq then n else q)) }
    | none => { d with broken := true }
  else d

/-- Move the homes of a partition's stream sets off a faulted square (R269). -/
def State.moveHomes (s : State) (fn sq : Nat) : State :=
  let t := s.newHome fn
  let move := fun (e : Nat × Image) =>
    if e.1 / 32768 = fn then (e.1, { e.2 with sets := e.2.sets.map (moveHome sq t) }) else e
  { s with images := s.images.map move }

/-- Handles of a partition's streams in a set that hold a slot. -/
def State.slotStreams (s : State) (fn set : Nat) : List Nat :=
  (s.streams.filter fun e => decide (e.1 / 16384 = fn) && handleSet (e.1 % 16384) == set && e.2.slot.isSome).map
    fun e => e.1 % 16384

/-- A stream whose home square faulted is restored from its shadow, or torn (R286). -/
def State.restoreStream (s : State) (fn h : Nat) : State :=
  let x := s.stream fn h
  match x.shadow, x.slot with
  | some (b, g), some k => (s.setStream fn h { x with gen := g }).slotWrite fn h k b
  | _, _ => s.tearStream fn h

/-- What a fault of a home square does to the streams with a slot there and to the calls that run on them (R269, R286). -/
def State.faultStreams (s : State) (fn sq : Nat) : State :=
  let sets := (List.range 4).filter fun k => match s.setDecl fn k with
    | some d => d.homes.any fun l => l.contains sq
    | none => false
  let s1 := s.moveHomes fn sq
  sets.foldl (fun s k =>
    let hs := s.slotStreams fn k
    let shadow := ((s.setDecl fn k).map SetDecl.shadow).getD false
    let calls := s.jobs.filter fun e => e.2.fn == fn && e.2.st == .started &&
      e.2.streams.any fun a => handleSet a.1 == k
    if shadow then
      let s2 := hs.foldl (fun s h => s.restoreStream fn h) s
      calls.foldl (fun s e =>
        let s3 := (s.jobGroups e.1).foldl (fun s g => (s.dropFaulted g.1 g.2).settleSquare g.2.square) s
        match s3.job e.1 with
        | some j => s3.setJob e.1
            { j with placed := 0, redo := [], ended := 0, steps := [], replayOf := j.replayOf.orElse (fun _ => some sq) }
        | none => s3) s2
    else
      let s2 := (hs.filter fun h => (s.stream fn h).st != .busy).foldl (fun s h => s.tearStream fn h) s
      calls.foldl (fun s e => s.replayFail e.1) s2) s1

/-- The groups that waited for victims on a square that fails are handed to containment; a job that has not started waits again. -/
def State.replayAwaits (s : State) (sq : Nat) (l : List Await) : State :=
  l.foldl (fun s a => match s.job a.job with
    | none => s
    | some j =>
      if j.st = .started then s.replayGroup sq { job := a.job, index := a.index, square := sq, replayOf := a.replayOf }
      else s.unawait a) s

/-- A square fault: the square stops, its bit is set, and its groups are replayed or ended (R70, R71, R587). -/
def State.squareFault (s : State) (sq : Nat) : State :=
  let st := s.sqSt sq
  if st = sqIdle ∨ st = sqTest ∨ st = sqRunning ∨ st = sqPreempting then
    let page := filePage (sqFile sq)
    let fn := (s.fileHolder (sqFile sq)).getD 0
    let s1 := ((s.setSqSt sq sqFaultSt).setF 0 (sqFaultFld sq) 1).raiseIrq page fn 0
    let s2 := ((s1.noteFault 1 sq).setSquare sq {}).settleFrees
    let gs := (s2.groups.filter fun e => e.2.square == sq)
    let waits := (s.square sq).awaiting
    let s3 := gs.foldl (fun s e => s.dropFaulted e.1 e.2) s2
    let s4 := s3.faultStreams fn sq
    let s5 := gs.foldl (fun s e =>
      match s.job e.2.job with
      | some j => if j.streams.isEmpty then s.replayGroup sq e.2 else s.settleJob e.2.job
      | none => s) s4
    (s5.replayAwaits sq waits).settleQueues
  else s

/-- SQUARE_FAULT: parity, a poisoned read or a residue mismatch stops a square (R71). -/
def execSquareFault (sq : Nat) (s : State) : Out := .next (s.squareFault sq)

/-- SQUARE_STALL_WATCHDOG: 65,536 cycles with resident groups, nothing retired and no mover descriptor outstanding (R71). -/
def execSquareStallWatchdog (sq : Nat) (s : State) : Out :=
  .next (
    let x := s.square sq
    if (s.groupsOn sq).isEmpty || decide (s.fileCyc (sqFile sq) < s.retiredAt sq + 65536 * 250) || x.mv0.flight.isSome ||
      x.mv1.flight.isSome || !x.mv0.issued.isEmpty ||
        !x.mv1.issued.isEmpty then s
    else s.squareFault sq)

/-! ## Deadlines (R243) -/

/-- JOB_DEADLINE_EXPIRY: a job whose deadline tick has ended never starts, or is stopped, with TIMEOUT (R243). -/
def execJobDeadlineExpiry (job : Nat) (s : State) : Out :=
  .next (match s.job job with
    | some j => if j.overdue s.now = true ∧ j.st ≠ .ended ∧ j.stop.isNone then (s.stopJob job .timeout 0 2).settleQueues else s
    | none => s)

/-- JOB_RUNTIME_EXPIRY: a started job's TIMEOUT has passed (R243); TIMEOUT is in µs. DETAIL is 0 where its deadline has expired too
(R245). -/
def execJobRuntimeExpiry (job : Nat) (s : State) : Out :=
  .next (match s.job job with
    | some j =>
      if j.overrun s.ticks = true ∧ j.stop.isNone then
        let detail := if j.overdue s.now then 0 else 1
        (s.stopJob job .timeout detail detail).settleQueues
      else s
    | none => s)

end Sys2Proof.Machine
end

