-- ==== Sys2Proof/Machine/Code.lean ====
section
/-! DEFINITION. How device memory stores bytes (R196 to R202): rows, banks and bursts, the tag burst, the symbols of a protected unit, the
RS(144,128) code over GF(2^8), and what its decoder does with errors and erasures. -/

namespace Sys2Proof.Machine

/-! ## Rows, banks and bursts (R196, R197) -/

/-- Size of device memory, and units of one channel. -/
def devBytes : Nat := 0x700000000
def chanUnits : Nat := 7340032

/-- Unit (PA / 512) at place `w` of a channel (R197). -/
def unitAt (chan w : Nat) : Nat := w * 8 + Nat.xor (Nat.xor (chan % 8) (bits w 2 0)) (bits w 5 3)

/-- Place of a unit in its channel, its row, and the first of its nine bursts there. -/
def unitPlace (unit : Nat) : Nat := unit / 8
def rowOf (w : Nat) : Nat := w / 7
def burstOf (w : Nat) : Nat := 9 * (w % 7)

/-- Bank of a row, and its row address in the bank. -/
def rowBank (r : Nat) : Nat := Nat.xor (bits r 3 0) (bits r 7 4)
def rowAddr (r : Nat) : Nat := bits r 19 4

/-- Units whose poison bits the tag burst of a row holds, by bit (R198). -/
def tagUnits (chan r : Nat) : List Nat := (List.range 7).map fun i => unitAt chan (7 * r + i)

/-! ## Symbols (R199, R200) -/

/-- Symbol of a data slot: 8 successive beats of one pin, its first beat bit 0. -/
def dataSym (data : List Byte) (pin slot : Nat) : Nat :=
  ((List.range 8).map fun t =>
    let byte := (data.getD (64 * (slot / 2) + 4 * (8 * (slot % 2) + t) + pin / 8) 0).toNat
    (if bit byte (pin % 8) then 1 else 0) * 2 ^ t).sum

/-- The 512 data bytes that the symbols of slots 0 to 15 spell. -/
def unitBytes (sym : Nat → Nat → Nat) : List Byte :=
  (List.range 512).map fun n =>
    let beat := n % 64 / 4
    BitVec.ofNat 8 (((List.range 8).map fun i =>
      (if bit (sym (8 * (n % 4) + i) (2 * (n / 64) + beat / 8)) (beat % 8) then 1 else 0) * 2 ^ i).sum)

/-- Codeword of a symbol, given as (pin, slot). -/
def cwOf (e : Nat × Nat) : Nat := (e.1 + e.2) % 4

/-- The symbols of a codeword in ascending order of 32 s + p (R201). -/
def cwPlaces (c : Nat) : List (Nat × Nat) :=
  ((List.range 18).flatMap fun s => (List.range 32).map fun p => (p, s)).filter fun e => cwOf e == c

/-! ## GF(2^8) and the code (R201) -/

/-- α·a, α^n·a, and the product of two field elements, modulo x^8 + x^4 + x^3 + x^2 + 1. -/
def gfDouble (a : Nat) : Nat := if 128 ≤ a then Nat.xor (2 * a) 0x11D else 2 * a
def gfShift (a : Nat) : Nat → Nat
  | 0 => a
  | n + 1 => gfDouble (gfShift a n)
def gfMul (a b : Nat) : Nat := (List.range 8).foldl (fun z i => if bit b i then Nat.xor z (gfShift a i) else z) 0

/-- g(x) = (x − α^0) … (x − α^15), highest coefficient first. -/
def genPoly : List Nat :=
  (List.range 16).foldl (fun g i => List.zipWith Nat.xor (g ++ [0]) (0 :: g.map (gfMul (gfShift 1 i)))) [1]

/-- The 16 check symbols of some data symbols: the remainder of the data times x^16 by g(x). -/
def checkSyms (d : List Nat) : List Nat :=
  d.foldl (fun r x =>
    let q := Nat.xor (r.headD 0) x
    List.zipWith Nat.xor (r.tail ++ [0]) (genPoly.tail.map (gfMul q))) (List.replicate 16 0)

/-- A codeword of a unit: 128 data symbols, then the check symbols. -/
def codeword (data : List Byte) (c : Nat) : List Nat :=
  let d := ((cwPlaces c).take 128).map fun e => dataSym data e.1 e.2
  d ++ checkSyms d

/-- Whether 144 symbols are a codeword. -/
def isCodeword (w : List Nat) : Bool := w.length == 144 && w.all (fun x => decide (x < 256)) && w.drop 128 == checkSyms (w.take 128)

/-! ## Decoding (R202, R209) -/

/-- Erasures of a codeword: the symbols of each retired pin (R209). -/
def erasuresIn (retired : List Nat) (c : Nat) : Nat :=
  (retired.map fun p => ((List.range 18).filter fun k => cwOf (p, k) == c).length).sum

/-- Symbol errors that lie outside the retired pins. -/
def liveErrs (retired : List Nat) (errs : List (Nat × Nat)) : List (Nat × Nat) :=
  (errs.filter fun e => decide (e.1 < 32) && decide (e.2 < 18) && !retired.contains e.1).eraseDups

/-- Errors in a codeword. -/
def errsIn (es : List (Nat × Nat)) (c : Nat) : Nat := (es.filter fun e => cwOf e == c).length

/-- Codewords beyond what the code corrects: 2 × errors + erasures above 16 (R202). -/
def failedCws (retired : List Nat) (es : List (Nat × Nat)) : List Nat :=
  indices 4 fun c => decide (16 < 2 * errsIn es c + erasuresIn retired c)

/-- A codeword as it is read: each symbol in error differs by a free value that is not 0 (log entry 21). -/
def received (free : Nat) (data : List Byte) (es : List (Nat × Nat)) (c : Nat) : List Nat :=
  List.zipWith (fun e x => if es.contains e then Nat.xor x (1 + (Config.free (free + 32 * e.2 + e.1) 8).toNat % 255) else x)
    (cwPlaces c) (codeword data c)

/-- Symbols outside the retired pins in which two words differ. -/
def differIn (retired : List Nat) (c : Nat) (v w : List Nat) : Nat :=
  ((List.zip (cwPlaces c) (List.zip v w)).filter fun e => !retired.contains e.1.1 && e.2.1 != e.2.2).length

/-- The wrong word that a codeword beyond correction decodes to, if there is one within the decoder's reach and it is the one found; its
failure is reported otherwise (R202). -/
def wrongWord (free : Nat) (retired : List Nat) (data : List Byte) (es : List (Nat × Nat)) (c : Nat) : Option (List Nat) :=
  let r := received free data es c
  let w := Config.wrongWord r retired
  if isCodeword w && decide (2 * differIn retired c r w + erasuresIn retired c ≤ 16) then some w else none

/-- Codewords whose failure the decoder reports. -/
def reportedCws (free : Nat) (retired : List Nat) (data : List Byte) (es : List (Nat × Nat)) : List Nat :=
  (failedCws retired es).filter fun c => (wrongWord free retired data es c).isNone

/-- The data that leaves a decoder which reports nothing: wrong words take their codewords' places. -/
def decodedBytes (free : Nat) (retired : List Nat) (data : List Byte) (es : List (Nat × Nat)) : List Byte :=
  match failedCws retired es with
  | [] => data
  | cs =>
    let ws := cs.filterMap fun c => (wrongWord free retired data es c).map fun w => (c, w)
    unitBytes fun p k => match ws.find? fun e => e.1 == cwOf (p, k) with
      | some e => ((List.zip (cwPlaces e.1) e.2).find? fun x => x.1 == (p, k)).elim 0 (·.2)
      | none => dataSym data p k

/-! ## The tag burst (R198) -/

/-- Copies of bit `i` that a read of a tag burst finds flipped. An error of a read is given as a pin and 18 or 19 for beat 0 or 1: eight
copies lie on four byte lanes in two beats (log entry 21). -/
def tagFlips (errs : List (Nat × Nat)) (i : Nat) : Nat :=
  ((errs.filter fun e => (e.2 == 18 || e.2 == 19) && decide (e.1 < 32) && e.1 % 8 == i).eraseDups).length

/-- The vote of eight copies of which `flips` are wrong: five or more decide, and four to four reads as 1. -/
def tagVote (stored : Bool) (flips : Nat) : Bool := decide (4 ≤ if stored then 8 - flips else flips)

/-- Whether the copies of any bit disagree. -/
def tagTorn (errs : List (Nat × Nat)) : Bool := (List.range 8).any fun i => tagFlips errs i != 0

end Sys2Proof.Machine
end

