-- ==== Sys2Proof/Machine/Mem.lean ====
section
/-! DEFINITION. Device memory and its code (R195 to R218): reads, writes and poison, scrubbing and pin retirement, training, refresh
and temperature, self-refresh. A command gives a unit's symbol errors as (pin, slot) pairs. -/

namespace Sys2Proof.Machine

/-! ## Retired pins (R209) -/

/-- MEM_RETIREDn of a channel: the place of its half. -/
def retiredFld (chan hi lo : Nat) : Fld :=
  { page := 0x07, off := 0x080 + 4 * (chan / 2), hi := hi + 16 * (chan % 2), lo := lo + 16 * (chan % 2) }

/-- Retired pins of a channel. -/
def State.retiredPins (s : State) (chan : Nat) : List Nat :=
  (if s.flag 0 (retiredFld chan 5 5) then [s.getF 0 (retiredFld chan 4 0)] else []) ++
    (if s.flag 0 (retiredFld chan 13 13) then [s.getF 0 (retiredFld chan 12 8)] else [])

/-! ## Error records (R203, R206, R216 to R218) -/

/-- A page-0x07 interrupt: the owner's. -/
def State.memIrq (s : State) (i : Nat) : State := s.raiseIrq 0x07 0 i

/-- MEM_CHn_ERR of a channel. -/
def chErr (f : Fld) (chan : Nat) : Fld := f.plus (4 * chan)

/-- A corrected unit: counted, recorded, its pins' reads noted while AUTORET is 1, and a write-back scheduled (R203, R208, R209). -/
def State.noteCe (s : State) (unit src : Nat) (es : List (Nat × Nat)) : State :=
  let chan := chanOf (unit * 512)
  let most := ((List.range 4).map (errsIn es)).foldl Nat.max 0
  let pins := (es.map (·.1)).eraseDups
  let s1 := s.bump 0 (chErr Fld.MEM_CHn_ERR_CE chan) 1
  let s2 := s1.setReg 0 0x07 0x090 (BitVec.ofNat 32 unit)
  let s3 := s2.setReg 0 0x07 0x094 (BitVec.ofNat 32 (2 ^ 31 + chan * 2 ^ 28 +
    maskOf (indices 4 fun c => errsIn es c != 0) * 2 ^ 24 + most * 2 ^ 20 + src * 2 ^ 16))
  let s4 := (s3.setReg 0 0x07 0x098 (BitVec.ofNat 32 (maskOf pins))).memIrq 0
  let c := s4.mem.ctl
  let reads := if !s.flag 0 Fld.MEM_CTL_AUTORET then c.pinReads
    else pins.foldl (fun l p => assocSet [] l (chan * 32 + p) ((s.ticks :: assocGet [] l (chan * 32 + p)).take 255))
    c.pinReads
  let wb := if s.flag 0 Fld.MEM_CTL_DEMAND && src != 2 && !assocGet false s.mem.devPoison unit && !c.writeBacks.contains unit
    then c.writeBacks ++ [unit] else c.writeBacks
  { s4 with mem := { s4.mem with ctl := { c with pinReads := reads, writeBacks := wb } } }

/-- An uncorrectable unit: poisoned, counted and recorded (R206). -/
def State.noteUe (s : State) (unit src : Nat) (cws : List Nat) : State :=
  let chan := chanOf (unit * 512)
  let s1 := s.bump 0 (chErr Fld.MEM_CHn_ERR_UE chan) 1
  let s2 := s1.setReg 0 0x07 0x09C (BitVec.ofNat 32 unit)
  let s3 := s2.setReg 0 0x07 0x0A0 (BitVec.ofNat 32 (2 ^ 31 + chan * 2 ^ 28 + maskOf cws * 2 ^ 24 + src * 2 ^ 16))
  let s4 := { s3 with mem := { s3.mem with devPoison := assocSet false s3.mem.devPoison unit true } }
  s4.memIrq 1

/-- The tag burst of a unit's row is read: where copies disagree it is rewritten with the voted byte, which counts once in CE; a unit whose
bit so becomes 1 is poisoned (R198, R218). -/
def State.readTags (s : State) (unit : Nat) (errs : List (Nat × Nat)) : State :=
  if !tagTorn errs then s
  else
    let chan := chanOf (unit * 512)
    let us := (tagUnits chan (rowOf (unitPlace unit))).zipIdx
    let new := us.any fun u => !assocGet false s.mem.devPoison u.1 && tagVote false (tagFlips errs u.2)
    let p := us.foldl (fun p u => assocSet false p u.1 (tagVote (assocGet false s.mem.devPoison u.1) (tagFlips errs u.2))) s.mem.devPoison
    let s1 := { s with mem := { s.mem with devPoison := p } }.bump 0 (chErr Fld.MEM_CHn_ERR_CE chan) 1
    if new then s1.memIrq 1 else s1

/-- Data that a read of a unit decodes to. -/
def State.decoded (s : State) (unit : Nat) (errs : List (Nat × Nat)) : List Byte :=
  let ret := s.retiredPins (chanOf (unit * 512))
  decodedBytes s.free ret (s.devRead (unit * 512) 512) (liveErrs ret errs)

/-- Whether a read of a unit meets codewords beyond correction that all decode to wrong words (R202). -/
def State.misled (s : State) (unit : Nat) (errs : List (Nat × Nat)) : Bool :=
  let ret := s.retiredPins (chanOf (unit * 512))
  let es := liveErrs ret errs
  !(failedCws ret es).isEmpty && (reportedCws s.free ret (s.devRead (unit * 512) 512) es).isEmpty

/-- Decode a unit: what its tag burst and its symbol errors leave behind (R198, R202, R203, R206). -/
def State.decodeUnit (s : State) (unit src : Nat) (errs : List (Nat × Nat)) : State :=
  let ret := s.retiredPins (chanOf (unit * 512))
  let es := liveErrs ret errs
  let s1 := s.readTags unit errs
  match reportedCws s.free ret (s.devRead (unit * 512) 512) es with
  | [] =>
    if es.isEmpty then s1
    else
      let s2 := s1.noteCe unit src es
      if s.misled unit errs && s2.mem.ctl.writeBacks.contains unit then
        { s2 with mem := { s2.mem with ctl := { s2.mem.ctl with wbData := assocInsert unit (s.decoded unit errs) s2.mem.ctl.wbData } } }
      else s2
  | cws => s1.noteUe unit src cws

/-- A request while the memory is HELD is not served: ACCESS_DENIED is recorded; in other states it waits (R213). -/
def State.memRefuse (s : State) : State := s.noteHeld

/-- MEM_READ: a unit is read and decoded; `readData` holds its 512 bytes, free where the unit is poisoned (R203, R206). -/
def execMemRead (pa : Nat) (errs : List (Nat × Nat)) (s : State) : Out :=
  if devBytes ≤ pa then .fault .noSuchUnit
  else .next (
    let unit := pa / 512
    if !s.chanServes (chanOf pa) then s.memRefuse
    else
      let s1 := s.decodeUnit unit 0 errs
      if assocGet false s1.mem.devPoison unit then
        { s1.drawFree with readData := (Config.free s1.free 4096).toNat }
      else { s1 with readData := leNat (s.decoded unit errs) })

/-- MEM_WRITE: a whole unit is encoded and written and its poison cleared; a smaller write is a read-modify-write (R204). -/
def execMemWrite (pa : Nat) (data : List Byte) (errs : List (Nat × Nat)) (s : State) : Out :=
  if devBytes ≤ pa then .fault .noSuchUnit
  else .next (
    let unit := pa / 512
    if data.isEmpty || decide (512 < pa % 512 + data.length) then s
    else if !s.chanServes (chanOf pa) then s.memRefuse
    else
      if data.length = 512 then s.devWrite pa data
      else
        let s1 := s.decodeUnit unit 1 errs
        (if s.misled unit errs then s1.devWrite (unit * 512) (s.decoded unit errs) else s1).devWrite pa data)

/-! ## Scrubbing (R207, R208) -/

/-- PATROL_SCRUB: a channel reads its unit at the patrol position; the position, common to all channels, moves on when the eighth
has read its own (R207). -/
def execPatrolScrub (chan : Nat) (errs : List (Nat × Nat)) (s : State) : Out :=
  .next (
    let c := s.mem.ctl
    if !s.flag 0 Fld.MEM_CTL_PATROL || decide (8 ≤ chan) || !s.chanServes chan || c.scrubbed.contains chan then s
    else
      let w := s.getF 0 Fld.MEM_SCRUB_POS_UNIT
      let u := unitAt chan w
      let s0 := s.decodeUnit u 2 errs
      let s1 := if s.misled u errs && !assocGet false s0.mem.devPoison u then s0.devWrite (u * 512) (s.decoded u errs) else s0
      let done := chan :: s1.mem.ctl.scrubbed
      let put := fun (s : State) l => { s with mem := { s.mem with ctl := { s.mem.ctl with scrubbed := l } } }
      if done.length < 8 then put s1 done
      else
        let s2 := put s1 []
        if w + 1 < chanUnits then s2.setF 0 Fld.MEM_SCRUB_POS_UNIT (w + 1)
        else (s2.setF 0 Fld.MEM_SCRUB_POS_UNIT 0).setF 0 Fld.MEM_SCRUB_POS_PASSES
          ((s2.getF 0 Fld.MEM_SCRUB_POS_PASSES + 1) % 256))

/-- DEMAND_WRITEBACK: the scheduled write-back of a corrected unit issues; a poisoned unit is never written (R208). -/
def execDemandWriteback (unit : Nat) (s : State) : Out :=
  if devBytes ≤ unit * 512 then .fault .noSuchUnit
  else .next (
    let c := s.mem.ctl
    let st := s.pageSt 0x07
    if !c.writeBacks.contains unit || (st != stOn && st != stStopping) then s
    else
      let s1 := match c.wbData.find? fun e => e.1 == unit with
        | some e => s.devWrite (unit * 512) e.2
        | none => s
      { s1 with mem := { s1.mem with ctl := { c with writeBacks := c.writeBacks.erase unit, wbData := assocErase unit c.wbData } } })

/-! ## Pin retirement (R209) -/

/-- Retire a pin of a channel that holds fewer than two. -/
def State.retirePin (s : State) (chan pin : Nat) : State :=
  if s.flag 0 (retiredFld chan 5 5) then (s.setF 0 (retiredFld chan 12 8) pin).setF 0 (retiredFld chan 13 13) 1
  else (s.setF 0 (retiredFld chan 4 0) pin).setF 0 (retiredFld chan 5 5) 1

/-- Reads within WINDOW in which a pin carried a corrected symbol. -/
def State.pinCount (s : State) (chan pin : Nat) : Nat :=
  ((assocGet [] s.mem.ctl.pinReads (chan * 32 + pin)).filter fun t =>
    decide (s.ticks ≤ t + s.getF 0 Fld.MEM_PINRET_WINDOW * 250000)).length

/-- AUTO_PIN_RETIRE: a pin that reaches COUNT corrected reads within WINDOW is retired, or marks the channel DEGRADED (R209). -/
def execAutoPinRetire (chan pin : Nat) (s : State) : Out :=
  .next (
    if !s.flag 0 Fld.MEM_CTL_AUTORET || decide (8 ≤ chan) || decide (32 ≤ pin) || (s.retiredPins chan).contains pin ||
        decide (s.pinCount chan pin < s.getF 0 Fld.MEM_PINRET_COUNT) then s
    else if (s.retiredPins chan).length < 2 then
      ((s.retirePin chan pin).memIrq 2).noteFault 5 (chan * 32 + pin)
    else
      let d := s.getF 0 Fld.MEM_TRAIN_STS_DEGRADED
      (s.setF 0 Fld.MEM_TRAIN_STS_DEGRADED (if bit d chan then d else d + 2 ^ chan)).memIrq 2)

/-- A write of MEM_CMD: the owner's (R216, R217). -/
def State.memCmd (s : State) (fn v op : Nat) (f : State × Option Status) : State :=
  s.pageCmdLong fn 0x07 0x050 v op (s.isOwner fn) .owned 0 Fld.MEM_CMD_STS_STATUS (some 3) f

/-- MEM_RETIRE (R209, R217). -/
def execMemRetire (fn v : Nat) (s : State) : Out :=
  let chan := bits v 26 24
  let pin := bits v 4 0
  .next (s.memCmd fn v 1 (
    if (s.retiredPins chan).contains pin then (s, some .ok)
    else if (s.retiredPins chan).length < 2 then ((s.retirePin chan pin).memIrq 2, some .ok)
    else (s, some .retireLimit)))

/-- MEM_UNRETIRE (R217). -/
def execMemUnretire (fn v : Nat) (s : State) : Out :=
  let chan := bits v 26 24
  let pin := bits v 4 0
  .next (s.memCmd fn v 2 (
    let s1 := if s.flag 0 (retiredFld chan 5 5) && s.getF 0 (retiredFld chan 4 0) == pin then
        (s.setF 0 (retiredFld chan 5 5) 0).setF 0 (retiredFld chan 4 0) 0 else s
    let s2 := if s.flag 0 (retiredFld chan 13 13) && s.getF 0 (retiredFld chan 12 8) == pin then
        (s1.setF 0 (retiredFld chan 13 13) 0).setF 0 (retiredFld chan 12 8) 0 else s1
    (s2, some .ok)))

/-! ## Training, refresh and temperature (R210, R211) -/

/-- The channel in training. -/
def State.setTraining (s : State) (c : Option Nat) : State :=
  { s with mem := { s.mem with ctl := { s.mem.ctl with training := c } } }

/-- MEM_RETRAIN: full training of one channel, whose requests wait (R210). -/
def execMemRetrain (fn v : Nat) (s : State) : Out :=
  .next (s.memCmd fn v 3 (
    if s.anyKres then (s, some .retrainRefused) else (s.setTraining (some (bits v 26 24)), none)))

/-- MEM_RETRAIN_DONE: the training of a channel ends: TRAINED or FAILED, and the command completes (R210, R217). -/
def execMemRetrainDone (ok : Bool) (s : State) : Out :=
  .next (match s.mem.ctl.training with
    | none => s
    | some c =>
      let t := s.getF 0 Fld.MEM_TRAIN_STS_TRAINED
      let f := s.getF 0 Fld.MEM_TRAIN_STS_FAILED
      let on := fun m => if bit m c then m else m + 2 ^ c
      let off := fun m => if bit m c then m - 2 ^ c else m
      let s1 := s.setTraining none
      let s2 := if ok then (s1.setF 0 Fld.MEM_TRAIN_STS_TRAINED (on t)).setF 0 Fld.MEM_TRAIN_STS_FAILED (off f)
        else ((s1.setF 0 Fld.MEM_TRAIN_STS_TRAINED (off t)).setF 0 Fld.MEM_TRAIN_STS_FAILED (on f)).memIrq 5
      (s2.finishCmd 0 Fld.MEM_CMD_STS_STATUS (if ok then .ok else .internalError)).memIrq 3)

/-- Note a device temperature: MEM_TEMP shows the hottest device, the lowest channel on a tie; the refresh window is 32 ms up to 85 °C and
16 ms above, and from 95 °C on the channel halves the issue rate of Classes Q and P (R211, R217). -/
def State.noteTemp (s : State) (chan : Nat) (t : Int) : State :=
  let ts := assocInsert chan t s.mem.ctl.temps
  let hot := ts.foldl (fun (a : Nat × Int) b => if a.2 < b.2 then b else a) (ts.headD (chan, t))
  let was := s.flag 0 Fld.MEM_TEMP_HOT
  let is := decide (95 ≤ hot.2)
  let c := s.mem.ctl
  let s1 := { s with mem := { s.mem with ctl := { c with
    temps := ts, window := assocSet 32 c.window chan (if t ≤ 85 then 32 else 16)
    halved := if 95 ≤ t then (if c.halved.contains chan then c.halved else c.halved ++ [chan]) else c.halved.erase chan } } }
  let s2 := ((s1.setF 0 Fld.MEM_TEMP_MAXT (ofSigned 8 hot.2)).setF 0 Fld.MEM_TEMP_HOTCH hot.1).setFlag 0 Fld.MEM_TEMP_HOT is
  if is && !was then s2.memIrq 4 else s2

/-- MEM_TRACKING: a channel re-centres its phases, 250 ms after the last time or after a move of 4 °C (R211). -/
def execMemTracking (chan : Nat) (temp : Int) (s : State) : Out :=
  .next (
    let c := s.mem.ctl
    let due := decide (assocGet 0 c.trackAt chan + 62500000 ≤ s.ticks) ||
      decide (4 ≤ (temp - assocGet 0 c.trackTemp chan).natAbs)
    if decide (8 ≤ chan) || !s.chanServes chan || !due then s
    else
      let c := { c with trackAt := assocSet 0 c.trackAt chan s.ticks, trackTemp := assocSet 0 c.trackTemp chan temp }
      ({ s with mem := { s.mem with ctl := c } }).noteTemp chan temp)

/-- Whether a bank has been refreshed within the window in force (R211). -/
def State.refreshed (s : State) (chan bank : Nat) : Bool :=
  decide (s.ticks ≤ assocGet 0 s.mem.ctl.refreshAt (chan * 16 + bank) + assocGet 32 s.mem.ctl.window chan * 250000)

/-- BANK_REFRESH: a bank is refreshed; its contents stay (R211). -/
def execBankRefresh (chan bank : Nat) (s : State) : Out :=
  .next (
    let c := s.mem.ctl
    if decide (8 ≤ chan) || decide (16 ≤ bank) || !s.chanServes chan then s
    else
      let c := { c with refreshAt := assocSet 0 c.refreshAt (chan * 16 + bank) s.ticks }
      { s with mem := { s.mem with ctl := c } })

/-- MEM_TEMP_HOT: a device reaches 95 °C; TEMP_HOT is raised (R211). -/
def execMemTempHot (chan : Nat) (temp : Int) (s : State) : Out :=
  .next (if decide (8 ≤ chan) || decide (temp < 95) then s else s.noteTemp chan temp)

/-! ## Self-refresh (R213, R214) -/

/-- MEM_SELF_REFRESH_ENTRY: accepted requests and write-backs are done; the device enters self-refresh (R213). -/
def execMemSelfRefreshEntry (s : State) : Out :=
  .next (if s.pageSt 0x07 = stStopping ∧ s.mem.ctl.writeBacks.isEmpty ∧ s.mem.ctl.training.isNone then s.setPageSt 0x07 stHeld
    else s)

/-- MEM_READY: tracking completes after self-refresh exit (R213). -/
def execMemReady (s : State) : Out := .next (if s.pageSt 0x07 = stStarting then s.setPageSt 0x07 stOn else s)

end Sys2Proof.Machine
end

