-- ==== Sys2Proof/Machine/Files.lean ====
section
/-! DEFINITION. The file pages: the state table of R67 to R70, resets, self-tests and link failures (R65, R82, R579, R590). -/

namespace Sys2Proof.Machine

/-- Squares of one file. -/
def squaresOf (f : Nat) : List Nat := (List.range 16).map fun r => 16 * f + r

/-- Change the STATE of a file page; a change raises IRQ STATE (R75). -/
def State.setFileSt (s : State) (f st : Nat) : State :=
  if s.pageSt (filePage f) = st then s
  else (s.setPageSt (filePage f) st).raiseIrq (filePage f) ((s.fileHolder f).getD 0) 3

/-- Groups resident on a file. -/
def State.fileGroups (s : State) (f : Nat) : List (Nat × Group) := s.groups.filter fun e => sqFile e.2.square == f

/-- Groups that waited for victims on a file's squares wait to be placed elsewhere. -/
def State.unawaitFile (s : State) (f : Nat) : State :=
  (squaresOf f).foldl (fun s sq =>
    let l := (s.square sq).awaiting
    l.foldl State.unawait (s.setSquare sq { s.square sq with awaiting := [] })) s

/-- The file loses power: squares not in FAULT are GATED, stores and square state are lost (R69, R70). A square whose self-test this cuts
short takes it at the next start (R82). -/
def State.gateFile (s : State) (f : Nat) : State :=
  let cut := ((squaresOf f).filter fun sq => s.sqSt sq == sqTest).map sqRank
  let s0 := s.unawaitFile f
  let s1 := if cut.isEmpty then s0 else s0.setFile f { s0.file f with retest := (s0.file f).retest ++ cut }
  (squaresOf f).foldl (fun s sq =>
    let s1 := (s.storeClear sq).setSquare sq {}
    if s1.sqSt sq = sqFaultSt then s1 else s1.setSqSt sq sqGated) s1

/-- Put the squares whose self-test was cut short to the test, as their file starts (R82). -/
def State.retestFile (s : State) (f : Nat) : State :=
  let l := (s.file f).retest
  let s1 := l.foldl (fun s r => s.setSqSt (16 * f + r) sqTest) s
  s1.setFile f { s1.file f with retest := [], testing := (s1.file f).testing + l.length }

/-- Start a file from OFF (R67). -/
def State.startFile (s : State) (f : Nat) : State :=
  let s1 := s.setFile f { s.file f with byReset := false, recEnable := false, recReset := false, testing := 0, startTick := s.ticks }
  (s1.retestFile f).setFileSt f stStarting

/-- The power cycle of a RESET: SQ_FAULT is cleared, the squares whose bits were set take the self-test, replay squares
return to their role, and the file starts (R67, R69, R82, R587). -/
def State.resetFile (s : State) (f : Nat) : State :=
  let bad := (squaresOf f).filter fun sq => s.getF 0 (sqFaultFld sq) == 1
  let s1 := s.gateFile f
  let s2 := bad.foldl (fun s sq => (s.setF 0 (sqFaultFld sq) 0).setSqSt sq sqTest) s1
  let back := fun (e : Nat × Image) => (e.1, { e.2 with swaps := e.2.swaps.filter fun p => sqFile p.1 != f })
  let s3 := { s2 with images := s2.images.map back }
  let s4 := s3.setFile f { s3.file f with
    byReset := true, recReset := false, recEnable := false, testing := bad.length, startTick := s3.ticks }
  (s4.retestFile f).setFileSt f stStarting

/-- A stopped file reaches OFF and follows what was recorded (R67). -/
def State.fileOff (s : State) (f : Nat) : State :=
  let x := s.file f
  let s1 := (s.gateFile f).setFileSt f stOff
  if x.recReset then s1.resetFile f
  else if x.recEnable then s1.startFile f
  else s1

/-- Stop a file: no group is placed, and it waits for its resident groups (R67). -/
def State.stopFile (s : State) (f : Nat) : State := s.setFileSt f stStopping

/-- RESET in ON: quiesce first, then the power cycle (R69). -/
def State.resetOn (s : State) (f : Nat) : State :=
  if (s.fileGroups f).isEmpty then s.resetFile f
  else (s.setFile f { s.file f with recReset := true }).stopFile f

/-- Whether a function may write a file page; otherwise ACCESS_DENIED is recorded (R67, R73). -/
def State.holdsFile (s : State) (fn f : Nat) : Bool := s.fileHolder f == some fn

/-- Whether the power state keeps files from starting: in Hold and Sleep, and from step 5 of an entry on (R557, R559). -/
def State.filesDown (s : State) : Bool :=
  let step := s.getF 0 Fld.PWR_STATE_STEP
  s.getF 0 Fld.PWR_STATE_STATE != 0 || (s.flag 0 Fld.PWR_STATE_BUSY && decide (5 ≤ step) && decide (step < 0x80))

/-- CTL.ENABLE of a file page (R67, R683). While the power state keeps files from starting, an ENABLE of a file in OFF, for which R67 has
no row, is recorded in HELD for the exit (DESIGN CHOICE, log entry 69). -/
def State.fileEnable (s : State) (fn f : Nat) (on : Bool) : State :=
  let page := filePage f
  if !s.holdsFile fn f then s.recErr page fn .accessDenied 0x008
  else
    let st := s.pageSt page
    let x := s.file f
    if !on && s.fileKres f && (st == stOn || st == stStarting) then s.recErr page fn .accessDenied 0x008
    else
      let s1 := s.setEnableReq page on
      if st = stOff then
        if on then if s.filesDown then s1.setFileSt f stHeld else s1.startFile f else s1.setFile f { x with recEnable := false }
      else if st = stOn then if on then s1 else s1.stopFile f
      else if st = stStarting then s1
      else if st = stStopping then s1.setFile f { x with recEnable := on }
      else s1.setFile f { x with recQuiesce := x.recQuiesce && !on }

/-- CTL.QUIESCE of a file page (R67, R683). -/
def State.fileQuiesce (s : State) (fn f : Nat) : State :=
  let page := filePage f
  if !s.holdsFile fn f then s.recErr page fn .accessDenied 0x008
  else
    let st := s.pageSt page
    if s.fileKres f && (st == stOn || st == stStarting) then s.recErr page fn .accessDenied 0x008
    else if st = stOn then s.stopFile f
    else if st = stStarting ∨ st = stFault then s.setFile f { s.file f with recQuiesce := true }
    else s

/-- CTL.RESET of a file page (R67, R69). While the power state keeps files from starting, a RESET of a file in OFF or FAULT, for which R67
has no row, is recorded in HELD for the exit (DESIGN CHOICE, log entry 69). -/
def State.fileReset (s : State) (fn f : Nat) : State :=
  let page := filePage f
  if !s.holdsFile fn f then s.recErr page fn .accessDenied 0x008
  else
    let st := s.pageSt page
    if st = stOff ∨ st = stFault then
      if s.filesDown then (s.setFile f { s.file f with recReset := true }).setFileSt f stHeld else s.resetFile f
    else if st = stOn then s.resetOn f
    else s.setFile f { s.file f with recReset := true }

/-- FILE_ENABLE (R67). -/
def execFileEnable (fn file : Nat) (on : Bool) (s : State) : Out := .next (s.gated fn (filePage file) 0x008 (s.fileEnable fn file on))

/-- FILE_QUIESCE (R67). -/
def execFileQuiesce (fn file : Nat) (s : State) : Out := .next (s.gated fn (filePage file) 0x008 (s.fileQuiesce fn file))

/-- FILE_RESET (R69). -/
def execFileReset (fn file : Nat) (s : State) : Out := .next (s.gated fn (filePage file) 0x008 (s.fileReset fn file))

/-- A file reaches ON: squares not in FAULT go to IDLE, and what was recorded is followed (R67); a reserved file's Class K portions are
loaded (R240). -/
def State.fileOn (s : State) (f : Nat) : State :=
  let s1 := (squaresOf f).foldl (fun s sq => if s.sqSt sq = sqFaultSt then s else s.setSqSt sq sqIdle) s
  let s2 := s1.setFileSt f stOn
  let x := s2.file f
  let s3 := s2.setFile f { x with recQuiesce := false, recReset := false, byReset := false, testing := 0 }
  if x.recReset then s3.resetOn f
  else if !s3.enableReq (filePage f) || x.recQuiesce then s3.stopFile f
  else s3.loadFilePortions f

/-- FILE_START_DONE: power good, clocks, clearing, microcode and any self-test complete (R67). The files
that bring-up and BIST test go back to OFF instead (R573, R580). -/
def execFileStartDone (file : Nat) (s : State) : Out :=
  .next (if s.pageSt (filePage file) = stStarting ∧ (squaresOf file).all (fun sq => s.sqSt sq != sqTest) ∧ !s.rst.bist.contains file ∧
      s.getF 0 Fld.DEV_BOOT_STAGE = 7 then s.fileOn file
    else s)

/-- FILE_START_TIMEOUT: power good is absent 50 µs after the request (R67). -/
def execFileStartTimeout (file : Nat) (s : State) : Out :=
  .next (if s.pageSt (filePage file) = stStarting ∧ (s.file file).startTick + 12500 ≤ s.ticks then
      ((s.gateFile file).recErrBlock (filePage file) ((s.fileHolder file).getD 0) .internalError).setFileSt file stFault
    else s)

/-- FILE_STOP_DONE: the last resident group of a STOPPING file has ended, and its power is gated (R67). -/
def execFileStopDone (file : Nat) (s : State) : Out :=
  .next (if s.pageSt (filePage file) = stStopping ∧ (s.fileGroups file).isEmpty then s.fileOff file else s)

/-- SQUARE_SELFTEST_DONE: a square under test goes to IDLE, or to FAULT with its bit set (R70, R579); at bring-up a failure
marks the boot DEGRADED (R576). -/
def execSquareSelftestDone (sq : Nat) (pass : Bool) (s : State) : Out :=
  .next (if s.sqSt sq = sqTest then
      let f := sqFile sq
      let s1 := s.setFile f { s.file f with testing := (s.file f).testing - 1 }
      if pass then s1.setSqSt sq sqIdle
      else
        let s2 := ((s1.setSqSt sq sqFaultSt).setF 0 (sqFaultFld sq) 1).raiseIrq (filePage f) ((s.fileHolder f).getD 0) 0
        if s2.getF 0 Fld.DEV_BOOT_STAGE = 6 then
          (s2.setFlag 0 Fld.DEV_BOOT_DEGRADED true).setF 0 Fld.DEV_BOOT_STATUS Status.selftestFailed.code
        else s2
    else s)

/-- FLIT_RETRY: a receiver of one of the file's links asked for a retry, which is counted and its tick noted (R65, R84, R585). -/
def execFlitRetry (file : Nat) (s : State) : Out :=
  let s := s.setFile file { s.file file with retries := (s.ticks :: (s.file file).retries).take 16 }
  .next (((s.bump 0 (Fld.FIL_LINK_ERR_RETRIES.onPage (filePage file)) 1).raiseIrq (filePage file)
    ((s.fileHolder file).getD 0) 2).noteFault 4 0)

/-- A column link failed: the file above it enters FAULT, and its groups are replayed elsewhere or fail (R65, R67, R590). -/
def State.failFile (s : State) (f : Nat) : State :=
  let gs := s.fileGroups f
  let waits := (squaresOf f).map fun sq => (sq, (s.square sq).awaiting)
  let s0 := (squaresOf f).foldl (fun s sq => s.setSquare sq { s.square sq with awaiting := [] }) s
  let s1 := gs.foldl (fun s e => s.dropFaulted e.1 e.2) s0
  let s2 := (s1.gateFile f).setFileSt f stFault
  let s3 := gs.foldl (fun s e => s.replayGroup e.2.square e.2) s2
  (waits.foldl (fun s w => s.replayAwaits w.1 w.2) s3).settleQueues

/-- Whether the links of a file have needed 16 retries within 1 µs (R65; log entry 69). -/
def State.linkLost (s : State) (f : Nat) : Bool :=
  let l := (s.file f).retries
  decide (16 ≤ l.length) && decide (l.headD 0 ≤ l.getLastD 0 + 250)

/-- An east link is routed round and shown in FIL_DETOUR and DEV_DETOUR (R85, R590). -/
def State.detour (s : State) (file link : Nat) : State :=
  let d := s.getF 0 (Fld.FIL_DETOUR_EAST.onPage (filePage file))
  let n := s.getF 0 Fld.DEV_DETOUR_FILES
  (s.setF 0 (Fld.FIL_DETOUR_EAST.onPage (filePage file)) (if bit d link then d else d + 2 ^ link)).setF 0
    Fld.DEV_DETOUR_FILES (if bit n file then n else n + 2 ^ file)

/-- LINK_FAILED: a column link takes the file down; an east link is routed round and shown in FIL_DETOUR and DEV_DETOUR; file p
has no east links (R65, R84, R85, R590). -/
def execLinkFailed (file link : Nat) (east : Bool) (s : State) : Out :=
  .next (
    let fn := (s.fileHolder file).getD 0
    if !s.linkLost file then s
    else if east then
      if file = 15 ∨ 19 ≤ link then s
      else (s.detour file link).raiseIrq (filePage file) fn 4
    else if 18 ≤ link then s
    else (s.raiseIrq (filePage file) fn 4).failFile file)

end Sys2Proof.Machine
end

