-- ==== Sys2Proof/Machine/Power.lean ====
section
/-! DEFINITION. The power page: grants, fractions, limiting, operating points and thermal limiting (R542 to R556). -/

namespace Sys2Proof.Machine

/-- Raise an interrupt bit of page 0x03: the owner's (R570). -/
def State.pwrIrq (s : State) (i : Nat) : State := s.raiseIrq 0x03 0 i

/-! ## The K floor and KNEED (R551, R553) -/

/-- Voltage of an operating point, mV (R549). -/
def oppMv (o : Nat) : Nat := [550, 580, 610, 640, 670, 700, 735, 770, 800, 850, 900].getD o 900

/-- Class K images that hold reserved files: those of partitions with KRES files. -/
def State.reservedImages (s : State) : List Image :=
  ((List.range 64).filter fun fn => !(s.partKFiles fn).isEmpty).flatMap s.kImages

/-- The highest compiled operating point among the reserved Class K images (R551). -/
def State.kFloor (s : State) : Nat := s.reservedImages.foldl (fun m im => Nat.max m im.kopp) 0

/-- KMW of an image, scaled from KOPP to the K floor by f × V² (R553). -/
def scaledKmw (kmw kopp floor : Nat) : Nat :=
  cdiv (kmw * oppMhz floor * oppMv floor ^ 2) (oppMhz kopp * oppMv kopp ^ 2)

/-- Whether a file is powered. -/
def State.filePowered (s : State) (f : Nat) : Bool :=
  s.pageSt (filePage f) == stStarting || s.pageSt (filePage f) == stOn || s.pageSt (filePage f) == stStopping

/-- The need of one file, mW, at a K floor (R553). -/
def State.fileNeed (s : State) (floor f : Nat) : Nat :=
  let ks := match s.fileHolder f with
    | some p => if s.fileKres f then s.kImages p else []
    | none => []
  match ks with
  | im :: _ => scaledKmw im.kmw im.kopp floor
  | [] => if s.filePowered f then Config.fileFloorMw [f, floor, s.getF 0 Fld.PWR_TJ_DEGC, s.pow.refits] else 0

/-- KNEED, mW (R553). -/
def State.kneed (s : State) : Nat := ((List.range 16).map (s.fileNeed s.kFloor)).sum

/-- BELOWK follows the operating point and the K floor (R551). -/
def State.showBelowK (s : State) : State :=
  s.setFlag 0 Fld.PWR_LIMIT_BELOWK (decide (s.getF 0 Fld.PWR_OPP_CUR < s.getF 0 Fld.PWR_OPP_KFLOOR))

/-- The K floor and KNEED are shown as the loaded images and the partitions now give them (R551, R553). -/
def State.showKneed (s : State) : State :=
  ((s.setF 0 Fld.PWR_OPP_KFLOOR s.kFloor).setF 0 Fld.PWR_KNEED (s.kneed % 2 ^ 32)).showBelowK

/-! ## Limits (R543, R544, R547) -/

/-- Fraction of a domain, percent. -/
def State.fracOf (s : State) (d : Nat) : Nat := s.pow.frac.getD d 0

/-- AON reserve, mW, for an AON fraction and a cap in units of 100 mW (R544). -/
def aonReserve (aon cap : Nat) : Nat := 600 - aon * cap

/-- The test of R553: whether the BRD limit that a cap and fractions set covers a need. -/
def capMeets (brd aon cap need : Nat) : Bool := decide (need + aonReserve aon cap ≤ brd * cap)

/-- The cap accepted last: one that waits to come into force, or the one in force. -/
def State.acceptedCap (s : State) : Nat :=
  match s.pow.grant with
  | some g => g.1
  | none => s.getF 0 Fld.PWR_CAP_CAP

/-- Whether the cap accepted last was forced. -/
def State.capForced (s : State) : Bool :=
  match s.pow.grant with
  | some g => g.2.2
  | none => s.flag 0 Fld.PWR_CAP_FORCED

/-- The limit of a domain, mW, at a cap (R542, R544). -/
def State.limitAt (s : State) (cap d : Nat) : Nat :=
  if d = 6 then Nat.max (s.fracOf 6 * cap) 600
  else if d = 0 then s.fracOf 0 * cap - aonReserve (s.fracOf 6) cap
  else s.fracOf d * cap

/-- Whether the guard is in force (R547). -/
def State.guarding (s : State) : Bool := match s.pow.guard with
  | some g => decide (s.ticks < g.1)
  | none => false

/-- The limit of a domain in force, mW: scaled by the guard for domains 0 to 3 (R547). -/
def State.limitOf (s : State) (d : Nat) : Nat :=
  let l := s.limitAt s.acceptedCap d
  match s.pow.guard with
  | some g => if s.guarding && decide (d ≤ 3) then l * g.2.1 / Nat.max 1 g.2.2 else l
  | none => l

/-- PWR_DOMn of a domain. -/
def domFld (f : Fld) (d : Nat) : Fld := f.plus (4 * d)

/-! ## Class K suspension (R555) -/

/-- Set KSUSP; a change raises IRQ KSUSP (R555, R570). -/
def State.suspend (s : State) : State :=
  if s.flag 0 Fld.PWR_CAP_KSUSP then s else (s.setFlag 0 Fld.PWR_CAP_KSUSP true).pwrIrq 5

/-- KBOUND_RESTORE: the suspension ends once the test passes after a later accepted change, or the thermal force has ended, and the
operating point is at or above the K floor (R552, R555). -/
def execKboundRestore (s : State) : Out :=
  let meets := match s.pow.failing with
    | some g => decide (s.getF 0 Fld.DEV_GEN ≠ g) && capMeets (s.fracOf 0) (s.fracOf 6) s.acceptedCap s.kneed
    | none => true
  .next (if s.flag 0 Fld.PWR_CAP_KSUSP && !s.flag 0 Fld.PWR_LIMIT_THERM && meets &&
      decide (s.getF 0 Fld.PWR_OPP_KFLOOR ≤ s.getF 0 Fld.PWR_OPP_CUR) then
      let s1 := (s.setFlag 0 Fld.PWR_CAP_KSUSP false).pwrIrq 5
      { s1 with pow := { s1.pow with failing := none }, suspEnd := s1.now + 1 }
    else s)

/-! ## Grants (R553 to R556, R566) -/

/-- A grant completes in PWR_GRANT_STS (R554). -/
def State.grantDone (s : State) (st : Status) : State := (s.finishCmd 0 Fld.PWR_GRANT_STS_STATUS st).pwrIrq 1

/-- A cap comes into force in this tick (R554). -/
def State.capInForce (s : State) (cap id : Nat) (force : Bool) : State :=
  let s1 := ((s.setF 0 Fld.PWR_CAP_CAP cap).setF 0 Fld.PWR_CAP_GRANT_ID id).setFlag 0 Fld.PWR_CAP_FORCED force
  ({ s1 with pow := { s1.pow with grant := none } }.set64 0 Fld.PWR_TEFF_LO Fld.PWR_TEFF_HI s.now).grantDone .ok

/-- Whether a written grant is malformed (R556, R681). -/
def grantBad (v : Nat) : Bool := resvHit 0x03 0x04C v || decide (bits v 26 16 < 250) || decide (1600 < bits v 26 16)

/-- Test a grant and, where it is accepted, put it in force at once or leave it to wait for the estimates (R553 to R555). -/
def State.newGrant (s : State) (v : Nat) : State :=
  let cap := bits v 26 16
  let id := bits v 15 0
  let force := bit v 31
  let meets := capMeets (s.fracOf 0) (s.fracOf 6) cap s.kneed
  if grantBad v then s.grantDone .powerMalformed
  else if !force && !meets then s.grantDone .powerLimited
  else
    let s1 := s.genChange 1
    let s2 := if meets then s1 else { s1 with pow := { s1.pow with failing := some (s1.getF 0 Fld.DEV_GEN) } }.suspend
    if s.getF 0 Fld.PWR_CAP_CAP ≤ cap then s2.capInForce cap id force
    else ({ s2 with pow := { s2.pow with grant := some (cap, id, force) } }).startCmd 0 Fld.PWR_GRANT_STS_DONE

/-- A grant that is not DONE ends; the Arbiter logs it as CANCELLED (R556, R566, R639). -/
def State.cancelGrant (s : State) : State :=
  match s.pow.grant with
  | none => s
  | some g => { s with pow := { s.pow with grant := none } }.logEvent 2 0x03 0xFF 7 Status.cancelled.code [g.1, g.2.1]

/-- POWER_GRANT: a write to PWR_GRANT (R553 to R556, R566). -/
def execPowerGrant (fn v : Nat) (s : State) : Out :=
  .next (s.gated fn 0x03 0x04C (
    if !s.isOwner fn then s.recErr 0x03 fn .owned 0x04C
    else if s.cmdDone 0 Fld.PWR_GRANT_STS_DONE then s.newGrant v
    else if grantBad v then s.recErr 0x03 fn .powerMalformed 0x04C
    else s.cancelGrant.newGrant v))

/-- GRANT_IN_FORCE: a lowered cap is in force once every domain's estimate is within its new limit (R554). -/
def execGrantInForce (s : State) : Out :=
  .next (match s.pow.grant with
    | some g =>
      if (List.range 7).all (fun d => decide (s.getF 0 (domFld Fld.PWR_DOMn_EST d) * 10 ≤ s.limitAt g.1 d)) then
        s.capInForce g.1 g.2.1 g.2.2
      else s
    | none => s)

/-- FRACTION_COMMIT: a write to PWR_FRAC1 commits the fractions of both registers, or is refused (R544, R553, R569). -/
def execFractionCommit (fn v : Nat) (s : State) : Out :=
  .next (s.gated fn 0x03 0x064 (
    let p := fun f => s.getF 0 f
    let fr := [p Fld.PWR_FRAC0_BRD, p Fld.PWR_FRAC0_MEM, p Fld.PWR_FRAC0_NOC, p Fld.PWR_FRAC0_PV, bits v 7 0, bits v 15 8, bits v 23 16]
    if !s.isOwner fn then s.recErr 0x03 fn .owned 0x064
    else if s.flag 0 (Fld.LOCK_LOCKDOWN.onPage 0x03) then s.recErr 0x03 fn .accessDenied 0x064
    else if resvHit 0x03 0x064 v || fr.sum != 100 || decide (bits v 7 0 < 4) || decide (bits v 15 8 < 2) || bits v 23 16 == 0 then
      s.recErr 0x03 fn .powerMalformed 0x064
    else if !capMeets (fr.getD 0 0) (fr.getD 6 0) s.acceptedCap s.kneed then s.recErr 0x03 fn .powerLimited 0x064
    else
      let s1 := (s.setReg 0 0x03 0x064 (BitVec.ofNat 32 v)).genChange 1
      { s1 with pow := { s1.pow with frac := fr } }))

/-! ## Operating points (R549 to R551) -/

/-- The operating point that the requests made so far lead to. -/
def State.oppTarget (s : State) : Nat :=
  match s.pow.nextOpp, s.pow.change with
  | some o, _ => o
  | none, some o => o
  | none, none => s.getF 0 Fld.PWR_OPP_CUR

/-- Request an operating point: one change runs at a time, and only the latest waiting request is kept (R550). -/
def State.requestOpp (s : State) (o : Nat) : State :=
  if o = s.oppTarget then s
  else match s.pow.change with
    | none => { s with pow := { s.pow with change := some o } }
    | some _ => { s with pow := { s.pow with nextOpp := some o } }

/-- The square clock runs at an operating point, which every file shows (R79, R549). -/
def State.setOpp (s : State) (o : Nat) : State :=
  let s1 := (List.range 16).foldl (fun (s : State) f => s.setClk f o) (s.setF 0 Fld.PWR_OPP_CUR o)
  s1.showBelowK

/-- OPP_CHANGE_DONE: the frequency has changed, in the order that R550 gives, and the waiting request may start. -/
def execOppChangeDone (s : State) : Out :=
  .next (match s.pow.change with
    | none => s
    | some o =>
      let s1 := s.setOpp o
      let nxt := match s1.pow.nextOpp with
        | some n => if n = o then none else some n
        | none => none
      { s1 with pow := { s1.pow with change := nxt, nextOpp := none } })

/-- Tj, °C. -/
def State.tj (s : State) : Int := toSigned 8 (s.getF 0 Fld.PWR_TJ_DEGC)

/-- Whether a boost point may be entered or kept: Tj below 95 °C, and the BRD estimate at it within its limit (R549). -/
def State.boostOk (s : State) (o : Nat) : Bool :=
  let est := s.getF 0 Fld.PWR_DOMn_EST
  let cur := s.getF 0 Fld.PWR_OPP_CUR
  let at_ := if o = cur then est else Config.brdAt [est, cur, o, s.getF 0 Fld.PWR_TJ_DEGC]
  decide (s.tj < 95) && decide (at_ * 10 ≤ s.limitOf 0)

/-! ## Limiting (R546) -/

/-- Most steps of the limiting actions of MEM, NOC and PV. -/
def domSteps (d : Nat) : Nat := if d = 1 ∨ d = 2 then 2 else if d = 3 then 1 else 0

/-- Show a bit of ATLIM: a domain that begins limiting raises IRQ LIMIT (R569, R570). -/
def State.setAtlim (s : State) (d : Nat) (b : Bool) : State :=
  let a := s.getF 0 Fld.PWR_LIMIT_ATLIM
  if bit a d = b then s
  else if b then (s.setF 0 Fld.PWR_LIMIT_ATLIM (a + 2 ^ d)).pwrIrq 0
  else s.setF 0 Fld.PWR_LIMIT_ATLIM (a - 2 ^ d)

/-- One step of the actions or of the release of MEM, NOC and PV. -/
def State.limitDomain (s : State) (d : Nat) (isOver calm : Bool) : State :=
  let n := assocGet 0 s.pow.steps d
  let n' := if isOver then Nat.min (n + 1) (domSteps d) else if calm then n - 1 else n
  ({ s with pow := { s.pow with steps := assocSet 0 s.pow.steps d n' } }).setAtlim d (isOver || n' != 0)

/-- One step of BRD: under limiting, the operating point down to the floor, then the throttle, then, only under a forced cap or R552,
below the floor; the release in reverse, up to the highest point that the range allows (R546, R549, R551). -/
def State.limitBrd (s : State) (isOver calm : Bool) : State :=
  let thr := s.getF 0 Fld.PWR_LIMIT_QPTHR
  let o := s.oppTarget
  let floor := s.minOpp
  let max := Nat.max (s.getF 0 Fld.PWR_OPP_MAX) floor
  let free := s.capForced || s.flag 0 Fld.PWR_LIMIT_THERM
  let s1 :=
    if o < floor && !free then s.requestOpp floor
    else if isOver then
      if floor < o then s.requestOpp (o - 1)
      else if thr < 8 then s.setF 0 Fld.PWR_LIMIT_QPTHR (thr + 1)
      else if free then s.requestOpp (o - 1)
      else s
    else if max < o then s.requestOpp (o - 1)
    else if 8 < o && !s.boostOk o then s.requestOpp (o - 1)
    else if calm then
      if o < floor then s.requestOpp (o + 1)
      else if 0 < thr then s.setF 0 Fld.PWR_LIMIT_QPTHR (thr - 1)
      else if o < max && (decide (o < 8) || s.boostOk (o + 1)) then s.requestOpp (o + 1)
      else s
    else s
  let done := s1.getF 0 Fld.PWR_LIMIT_QPTHR == 0 && decide (Nat.min max 8 ≤ s1.oppTarget)
  s1.setAtlim 0 (isOver || (bit (s.getF 0 Fld.PWR_LIMIT_ATLIM) 0 && !done))

/-- Take the estimates of one evaluation: the registers, and how long each domain has stayed below 95% of its limit. -/
def State.noteEstimates (s : State) (est : List Nat) : State :=
  (List.range 7).foldl (fun (s : State) d =>
    let e := Nat.min (est.getD d 0) 0xFFFF
    let l := s.limitOf d
    let s1 := (s.setF 0 (domFld Fld.PWR_DOMn_EST d) e).setF 0 (domFld Fld.PWR_DOMn_LIMIT d) (Nat.min (l / 10) 0xFFFF)
    let n := if e * 10 * 100 < 95 * l then Nat.min (assocGet 0 s.pow.calm d + 1) 11 else 0
    { s1 with pow := { s1.pow with calm := assocSet 0 s1.pow.calm d n } }) s

/-- POWER_EVALUATION: each µs the estimates (10 mW units) are compared with the limits, and each domain takes one step (R545, R546). -/
def execPowerEvaluation (est : List Nat) (s : State) : Out :=
  let s0 := if s.guarding then s else ({ s with pow := { s.pow with guard := none } }).setFlag 0 Fld.PWR_LIMIT_GUARD false
  let s1 := s0.noteEstimates est
  let isOver := fun d => decide (s1.limitOf d < s1.getF 0 (domFld Fld.PWR_DOMn_EST d) * 10)
  let calm := fun d => decide (11 ≤ assocGet 0 s1.pow.calm d)
  let s2 := s1.limitBrd (isOver 0 || s1.flag 0 Fld.PWR_LIMIT_THERM) (calm 0)
  .next ([1, 2, 3].foldl (fun (s : State) d => s.limitDomain d (isOver d) (calm d)) s2)

/-- POWER_GUARD: a measurement of the input power in mW, averaged over 10 µs; above the cap the guard takes effect for 100 µs, and a
1 ms window whose average exceeds the cap counts (R547). -/
def execPowerGuard (mw : Nat) (s : State) : Out :=
  let cap := s.getF 0 Fld.PWR_CAP_CAP
  let s1 := s.setF 0 Fld.PWR_IN_POWER (Nat.min (mw / 10) 0xFFFF)
  let s2 := if cap * 100 < mw then
      ({ s1 with pow := { s1.pow with guard := some (s.ticks + 25000, cap * 100, mw) } }).setFlag 0 Fld.PWR_LIMIT_GUARD true
    else s1
  let w := (s.pow.window.1 + mw, s.pow.window.2 + 1)
  .next (if w.2 < 100 then { s2 with pow := { s2.pow with window := w } }
    else
      let s3 := { s2 with pow := { s2.pow with window := (0, 0) } }
      if cap * 100 * 100 < w.1 then (s3.bump 0 Fld.PWR_OVERCAP 1).pwrIrq 6 else s3)

/-- POWER_REFIT: the terms of the estimates are refitted, and KNEED follows (R545, R553). -/
def execPowerRefit (s : State) : Out := .next ({ s with pow := { s.pow with refits := s.pow.refits + 1 } }).showKneed

/-- DROOP: a file's square clock is stretched, which counts (R548). -/
def execDroop (file : Nat) (s : State) : Out := .next (if s.filePowered file then s.bump 0 Fld.PWR_DROOP 1 else s)

/-! ## Temperature (R552) -/

/-- Show the hottest junction. -/
def State.setTj (s : State) (sensor temp : Nat) : State :=
  (s.setF 0 Fld.PWR_TJ_SENSOR (sensor % 32)).setF 0 Fld.PWR_TJ_DEGC (temp % 256)

/-- THERMAL_LIMIT: Tj reaches 100 °C: BRD is limited at every evaluation, and the Class K bounds are suspended (R552, R555). -/
def execThermalLimit (sensor temp : Nat) (s : State) : Out :=
  .next (if temp < 100 then s
    else
      let s1 := s.setTj sensor (Nat.min temp 127)
      if s1.flag 0 Fld.PWR_LIMIT_THERM then s1 else ((s1.setFlag 0 Fld.PWR_LIMIT_THERM true).suspend).pwrIrq 7)

/-- THERMAL_RELEASE: Tj falls below 97 °C; where in that range is a free value (R552; log entry 30). -/
def execThermalRelease (s : State) : Out :=
  .next (if !s.flag 0 Fld.PWR_LIMIT_THERM then s
    else
      let t : Int := 96 - (Config.free s.free 8).toNat % 137
      (((s.setTj (Config.free (s.free + 1) 5).toNat (ofSigned 8 t)).drawFree.drawFree).setFlag 0 Fld.PWR_LIMIT_THERM false))

end Sys2Proof.Machine
end

