-- ==== Sys2Proof/Machine/Blocks.lean ====
section
/-! DEFINITION. The state table that the block pages share (R676, R683): OFF, STARTING, ON, STOPPING, FAULT, HELD, and the
requests that each records. What a block does as it starts or stops is an argument. -/

namespace Sys2Proof.Machine

/-- Requests that a page has recorded. -/
def State.ctl (s : State) (page : Nat) : PageCtl := assocGet {} s.ctls page

/-- Replace the requests that a page has recorded. -/
def State.setCtl (s : State) (page : Nat) (c : PageCtl) : State := { s with ctls := assocSet {} s.ctls page c }

/-- Start a page from OFF: nothing stays recorded, and the block does what its table gives. -/
def State.blockStart (s : State) (page : Nat) (start : State → State) : State :=
  start ((s.setCtl page {}).setPageSt page stStarting)

/-- Stop a page; a stop for a Hold or Sleep entry stays one. -/
def State.blockStop (s : State) (page : Nat) (stop : State → State) : State :=
  stop ((s.setCtl page { hold := (s.ctl page).hold }).setPageSt page stStopping)

/-- A write to CTL: ignored while the page is not served, refused with `deny` where the writer may not, VERSION_UNSUPPORTED
without a HELLO. -/
def State.ctlWrite (s : State) (fn page : Nat) (may : Bool) (deny : Status) (f : State) : State :=
  s.gated fn page 0x008 (if may then f else s.recErr page fn deny 0x008)

/-- Whether a Hold or Sleep entry has come to a step from `n` on. -/
def State.entryFrom (s : State) (n : Nat) : Bool :=
  s.flag 0 Fld.PWR_STATE_BUSY && decide (n ≤ s.getF 0 Fld.PWR_STATE_STEP) && decide (s.getF 0 Fld.PWR_STATE_STEP < 0x80)

/-- Whether the power state keeps a page from starting: the Dispatcher, the Solver engine, the Input pipeline and the Edge engine in
Hold and from step 2 of an entry on, the others in Sleep and from step 8 on (R557, R559). -/
def State.domainDown (s : State) (page : Nat) : Bool :=
  let st := s.getF 0 Fld.PWR_STATE_STATE
  if page = 0x05 ∨ page = 0x0C ∨ page = 0x0E ∨ page = 0x0F then st != 0 || s.entryFrom 2 else st == 2 || s.entryFrom 8

/-- CTL.ENABLE (R683); a page that cannot be powered is HELD until the exit (R560). -/
def State.blockEnable (s : State) (page : Nat) (on : Bool) (start stop : State → State) : State :=
  let st := s.pageSt page
  let c := s.ctl page
  let s1 := s.setEnableReq page on
  if st = stOff then
    if on then if s.domainDown page then s1.setPageSt page stHeld else s1.blockStart page start
    else s1.setCtl page { c with recEnable := false }
  else if st = stOn then if on then s1 else s1.blockStop page stop
  else if st = stStopping then s1.setCtl page { c with recEnable := on }
  else s1

/-- CTL.QUIESCE (R683). -/
def State.blockQuiesce (s : State) (page : Nat) (stop : State → State) : State :=
  let st := s.pageSt page
  if st = stOn then s.blockStop page stop
  else if st = stStarting then s.setCtl page { s.ctl page with recQuiesce := true }
  else s

/-- A start completes: ON, or at once STOPPING where ENABLE reads 0 or a QUIESCE was recorded (R683). -/
def State.blockOn (s : State) (page : Nat) (ready stop : State → State) : State :=
  if s.pageSt page ≠ stStarting then s
  else
    let halt := !s.enableReq page || (s.ctl page).recQuiesce
    let s1 := ready (s.setPageSt page stOn)
    if halt then s1.blockStop page stop else s1

/-- A stop completes: OFF, and a start where ENABLE was recorded (R683); HELD where a Hold or Sleep entry stopped the page. -/
def State.blockOff (s : State) (page : Nat) (start : State → State) : State :=
  if s.pageSt page ≠ stStopping then s
  else if (s.ctl page).hold then (s.setCtl page {}).setPageSt page stHeld
  else
    let s1 := s.setPageSt page stOff
    if (s.ctl page).recEnable then s1.blockStart page start else s1

/-- CTL.RESET in OFF or FAULT: a power cycle (R683). -/
def State.blockReset (s : State) (page : Nat) (start : State → State) : State := s.blockStart page start

end Sys2Proof.Machine
end

