-- ==== Sys2Proof/Machine/Queues.lean ====
section
/-! DEFINITION. Queue pairs and the Dispatcher (R219 to R256): doorbells, taking entries, LAUNCH, NOP and CANCEL, the queue
commands, and the Dispatcher's state table. -/

namespace Sys2Proof.Machine

/-! ## Doorbells (R232 to R235) -/

/-- QCOUNT of a partition. -/
def State.qcount (s : State) (fn : Nat) : Nat := s.getF fn Fld.DSP_QRANGE_QCOUNT

/-- A doorbell is dropped and counted. -/
def State.dropDb (s : State) (fn : Nat) : State := s.bump fn Fld.DSP_DB_DROP 1

/-- A doorbell outside the ring: DOORBELL_INVALID, IRQ DB_ERROR, counted (R233). -/
def State.badDb (s : State) (fn : Nat) : State :=
  ((s.recErr 0x05 fn .doorbellInvalid 0xFFFF).raiseIrq 0x05 fn 2).dropDb fn

/-- A tail outside a unit's ring: DOORBELL_INVALID in its page, IRQ DB_ERROR, counted (R233). -/
def State.badTail (s : State) (fn page off : Nat) : State := ((s.recErr page fn .doorbellInvalid off).raiseIrq 0x05 fn 2).dropDb fn

/-- Whether a queue takes doorbells: ACTIVE, and no RESET or DELETE of it runs (R249). -/
def Queue.takesDb (Q : Queue) : Bool := Q.st == .active && Q.cmd == .none

/-- Whether the completion queue has a slot for a further entry (R231). -/
def Queue.slotFree (Q : Queue) : Bool := decide (sub32 Q.cqTail Q.cqHead + Q.inflight < 2 ^ Q.cqsz)

/-- What holds as a tail is accepted (R247, R282). -/
def State.bellAt (s : State) (fn q t : Nat) : Bell :=
  let Q := s.queue fn q
  { tail := t
    alone := sub32 t Q.sqTail == 1 && Q.sqHead == Q.sqTail && Q.fetched.isNone && Q.slotFree &&
      (s.queueJobs fn q).all fun e => e.2.st != .waiting
    idle := (s.streams.filter fun e => decide (e.1 / 16384 = fn) && e.2.st == .store && e.2.pend == 0).map fun e => e.1 % 16384 }

/-- A submission tail as R233 takes it. -/
def State.acceptTail (s : State) (fn q t : Nat) : State :=
  let Q := s.queue fn q
  if !Q.takesDb then s.dropDb fn
  else if sub32 t Q.sqHead ≤ sub32 Q.sqTail Q.sqHead then s
  else if sub32 t Q.sqHead ≤ 2 ^ Q.sqsz then
    s.setQueue fn q { Q with
      sqTail := t % 2 ^ 32, stamps := (t % 2 ^ 32, s.now) :: Q.stamps, bells := s.bellAt fn q (t % 2 ^ 32) :: Q.bells }
  else s.badDb fn

/-- A completion head (R232, R233). -/
def State.acceptHead (s : State) (fn q h : Nat) : State :=
  let Q := s.queue fn q
  if !Q.takesDb then s.dropDb fn
  else if sub32 h Q.cqHead ≤ sub32 Q.cqTail Q.cqHead then s.setQueue fn q { Q with cqHead := h % 2 ^ 32 }
  else s.badDb fn

/-- Whether a held doorbell is of the host's submission tail, or of its completion head. -/
def HeldDb.isHost : HeldDb → Bool
  | .host _ => true
  | _ => false
def HeldDb.isHead : HeldDb → Bool
  | .head _ => true
  | _ => false

/-- What a read of a doorbell in BAR4 returns (R232). -/
def State.doorbellWord (_ : State) (_fn _q : Nat) : Nat := 0

/-- Apply one held doorbell; an internal one advances the tail by one (R234, R235). -/
def State.applyDb (s : State) (fn q : Nat) : HeldDb → State
  | .host t => s.acceptTail fn q t
  | .head h => s.acceptHead fn q h
  | .internal => s.acceptTail fn q ((s.queue fn q).sqTail + 1)

/-- Keep a doorbell while the Dispatcher is not ON: the last host write of each half takes its place (R235). -/
def State.holdDb (s : State) (fn q : Nat) (d : HeldDb) : State :=
  let Q := s.queue fn q
  let rest := Q.held.filter fun e => !(d.isHost && e.isHost) && !(d.isHead && e.isHead)
  s.setQueue fn q { Q with held := rest ++ [d] }

/-- A doorbell as the endpoint meets it: dropped beyond QCOUNT or without a HELLO, held while the Dispatcher is not ON. -/
def State.doorbell (s : State) (fn q : Nat) (d : HeldDb) : State :=
  if s.qcount fn ≤ q ∨ s.unsupported fn then s.dropDb fn
  else if s.dspOn then s.applyDb fn q d
  else s.holdDb fn q d

/-- An internal doorbell (R234, R235). -/
def State.internalDb (s : State) (fn q : Nat) : State :=
  if s.qcount fn ≤ q then s.dropDb fn
  else if s.dspOn then s.applyDb fn q .internal
  else s.holdDb fn q .internal

/-- A host's write to BAR4 as a doorbell: from READY on, in Sleep too, where it is held (R232, R233, R235, R564). -/
def State.hostDb (s : State) (fn q : Nat) (d : HeldDb) : State :=
  if s.getF 0 Fld.DEV_BOOT_STAGE = 7 then s.doorbell fn q d else s

/-! ## Submission entries (R225, R226) -/

/-- A decoded submission entry. -/
structure Entry where
  opc : Nat := 0
  vsel : Nat := 0
  cbytag : Bool := false
  irqNow : Bool := false
  ordered : Bool := false
  dlrel : Bool := false
  dl : Bool := false
  idem : Bool := false
  cid : Nat := 0
  image : Nat := 0
  job : Nat := 0
  tag : Nat := 0
  argVa : Nat := 0
  deadline : Nat := 0
  timeout : Nat := 0
  tq : Nat := 0
  tcid : Nat := 0
  rest : Nat := 0
  deriving DecidableEq, Repr, Inhabited

/-- The fields of a submission entry (R225). -/
def parseEntry (b : List Byte) : Entry :=
  let f := leField b 1 1
  { opc := leField b 0 1, vsel := bits f 7 6, cbytag := bit f 5, irqNow := bit f 4, ordered := bit f 3, dlrel := bit f 2,
    dl := bit f 1, idem := bit f 0, cid := leField b 2 2, image := leField b 4 2, job := leField b 6 2, tag := leField b 8 8,
    argVa := leField b 16 8, deadline := leField b 24 8, timeout := leField b 32 4, tq := leField b 36 2,
    tcid := leField b 38 2, rest := leField b 40 24 }

/-- Whether an entry is malformed (R226). -/
def Entry.malformed (e : Entry) : Bool :=
  decide (2 < e.opc) || e.vsel == 3 || e.rest != 0 || (e.dlrel && !e.dl) ||
    (e.dlrel && decide (2 ^ 32 ≤ e.deadline)) || e.argVa % 64 != 0 ||
    (match e.opc with
     | 0 => e.vsel != 0 || e.cbytag || e.dlrel || e.dl || e.idem || e.image != 0 || e.job != 0 || e.tag != 0 ||
        e.argVa != 0 || e.deadline != 0 || e.timeout != 0 || e.tq != 0 || e.tcid != 0
     | 1 => e.cbytag || e.tq != 0 || e.tcid != 0 || (!e.idem && e.tag != 0) || (!e.dl && e.deadline != 0)
     | 2 => e.idem || e.dl || e.vsel != 0 || e.ordered || e.image != 0 || e.job != 0 || e.argVa != 0 || e.deadline != 0 ||
        e.timeout != 0 || (!e.cbytag && e.tag != 0) || (e.cbytag && e.tcid != 0)
     | _ => true)

/-- Acceptance stamp of an entry: that of the oldest accepted tail beyond it (R233). -/
def stampOf (stamps : List (Nat × Nat)) (i : Nat) : Nat :=
  match (stamps.filter fun e => decide (0 < sub32 e.1 i) && decide (sub32 e.1 i < 2 ^ 31)).getLast? with
  | some e => e.2
  | none => 0

/-- What held at the doorbell of an entry: at the oldest accepted tail beyond it. -/
def bellOf (bells : List Bell) (i : Nat) : Bell :=
  ((bells.filter fun b => decide (0 < sub32 b.tail i) && decide (sub32 b.tail i < 2 ^ 31)).getLast?).getD {}

/-- Whether a LAUNCH waits because the duplicate window holds 1,024 PENDING tags, none of them its own (R242). -/
def Queue.windowFull (Q : Queue) (e : Entry) : Bool :=
  !e.malformed && e.opc == 1 && e.idem && (windowFind Q.window e.tag).isNone &&
    decide (1024 ≤ (Q.window.filter fun x => !x.done).length)

/-- ENTRY_TAKE: the Dispatcher reads the entry at the head and takes it, if its completion has a slot; while the memory does not serve the
read, the entry waits (R213, R231, R238, R249). -/
def execEntryTake (fn q : Nat) (s : State) : Out :=
  let Q := s.queue fn q
  .next (if !s.dspOn || Q.st != .active || Q.cmd != .none || Q.fetched.isSome || Q.sqHead == Q.sqTail || !Q.slotFree then s
    else match s.vaRead fn .dispatcher (Q.sqBase + 64 * (Q.sqHead % 2 ^ Q.sqsz)) 64 with
      | (s1, .error .held) => s1
      | (s1, .error e) => (s1.queueError fn q (if e = .poison then 3 else 1)).settleQueues
      | (s1, .ok b) =>
        if Q.windowFull (parseEntry b) then s1
        else
          let h := add32 Q.sqHead 1
          s1.setQueue fn q { Q with
            fetched := some (b, Q.sqHead, stampOf Q.stamps Q.sqHead), sqHead := h, inflight := Q.inflight + 1,
            stamps := Q.stamps.filter fun e => decide (0 < sub32 e.1 h) && decide (sub32 e.1 h < 2 ^ 31)
            bells := Q.bells.filter fun b => decide (0 < sub32 b.tail h) && decide (sub32 b.tail h < 2 ^ 31)
            bell := bellOf Q.bells Q.sqHead })

/-- Complete an entry that has no job. -/
def State.completeEntry (s : State) (fn q : Nat) (e : Entry) (stamp : Nat) (st : Status) (detail : Nat) : State :=
  let r := s.displace (s.queue fn q).cls stamp st detail
  (s.writeCq fn q e.cid r.1.code r.2 false false e.irqNow).settleQueues

/-- Handle the entry that a queue has taken, if its OPC is the one asked for; a malformed entry completes as such, and one
with a reserved OPC does so whichever command handles it (R226). -/
def State.withEntry (s : State) (fn q opc : Nat) (f : State → Entry → Nat → Nat → State) : State :=
  match (s.queue fn q).fetched with
  | none => s
  | some (b, i, stamp) =>
    let e := parseEntry b
    if e.opc ≠ opc ∧ e.opc ≤ 2 then s
    else
      let s1 := s.setQueue fn q { s.queue fn q with fetched := none }
      if (s1.queue fn q).st = .error then s1.completeEntry fn q e stamp .cancelled 4
      else if e.malformed then s1.completeEntry fn q e stamp .entryMalformed 0
      else f s1 e i stamp

/-- Groups of a launch that an empty square holds within its Class K portion (R43, R56, R59). -/
def State.kCapacity (s : State) (sq : Nat) (l : Launch) : Nat :=
  let nls := l.gx * l.gy * l.gz / 32
  let hi := (s.storeBounds sq true).2
  let fits := fun n => decide (n ≤ 32) && decide (n * (4096 * l.store4k) ≤ hi) && (List.range 4).all fun q =>
    decide (n * inQuad nls q ≤ 32) && decide (n * inQuad nls q * lanesetRegs l.nreg ≤ 16384)
  ((List.range 33).filter fits).length - 1

/-- Whether a Class K launch cannot have all its groups resident at once (R241). -/
def State.kTooLarge (s : State) (j : Job) : Bool :=
  let l := s.launchOf j
  decide ((((s.jobSquares j).map fun sq => s.kCapacity sq l).sum) < l.nx * l.ny * l.nz)

/-- Why a LAUNCH is refused, if it is (R226, R241, R650). -/
def State.launchFault (s : State) (e : Entry) (j : Job) : Option Status :=
  match s.image j.fn j.image with
  | none => some .imageUnknown
  | some im => match im.jobs[j.job]? with
    | none => some .imageUnknown
    | some ij =>
      if im.unloading || (e.vsel == 2 && !ij.hasVariant) then some .imageUnknown
      else if j.cls = 2 && (!im.kimg || s.kTooLarge j) then some .accessDenied
      else if e.argVa ≠ 0 && (s.vaCheck j.fn e.argVa 64 .read).isSome then some .accessDenied
      else none

/-- The job of a LAUNCH entry. -/
def State.entryJob (s : State) (fn q : Nat) (e : Entry) (i stamp : Nat) : Job :=
  let Q := s.queue fn q
  { fn := fn, q := q, cls := Q.cls, cid := e.cid, image := e.image, job := e.job, vsel := e.vsel, tag := e.tag, idem := e.idem,
    ordered := e.ordered, irqNow := e.irqNow, argVa := e.argVa,
    deadline := if !e.dl then none else some (if e.dlrel then stamp + e.deadline else e.deadline),
    timeout := if e.timeout = 0 then Q.timeout else e.timeout, accepted := stamp, sqIndex := i, gen := s.getF 0 Fld.DEV_GEN,
    alone := Q.bell.alone, idle := Q.bell.idle }

/-- Put a job into the job table under the next number. -/
def State.addJob (s : State) (j : Job) : State := { s.setJob s.nextJob j with nextJob := s.nextJob + 1 }

/-- A LAUNCH that a queue has taken: the checks of R226, the duplicate window of R242, and the job (R238). -/
def State.takeLaunch (s : State) (fn q : Nat) : State :=
  s.withEntry fn q 1 fun s e i stamp =>
    let j := s.entryJob fn q e i stamp
    let s0 := if e.argVa = 0 then s else s.vaTrace fn .dispatcher e.argVa 64 .read
    match s0.launchFault e j with
    | some st => s0.completeEntry fn q e stamp st 0
    | none =>
      let Q := s0.queue fn q
      if !e.idem then s0.addJob j
      else match windowFind Q.window e.tag with
        | some w => if w.done then s0.completeEntry fn q e stamp .okDuplicate w.status
          else s0.addJob { j with st := .held }
        | none => (s0.setQueue fn q { Q with window := windowAdd Q.window e.tag }).addJob j

/-- SQ_LAUNCH (R226, R238, R242). -/
def execSqLaunch (fn q : Nat) (s : State) : Out := .next (s.takeLaunch fn q)

/-- Complete the NOPs of a queue that the Dispatcher has reached in the queue's order. `fuel` bounds them. -/
def State.settleNops (s : State) (fn q : Nat) : Nat → State
  | 0 => s
  | fuel + 1 =>
    match (s.queueJobs fn q).find? fun e => e.2.nop && e.2.st == .waiting && s.inOrder e.2 with
    | none => s
    | some e => (s.endJob e.1 false).settleNops fn q fuel

/-- SQ_NOP: a NOP entry waits for its turn and completes with OK; without an entry, the NOPs whose turn has come complete
(R227, R238). -/
def execSqNop (fn q : Nat) (s : State) : Out :=
  let s1 := s.withEntry fn q 0 fun s e i stamp =>
    let Q := s.queue fn q
    s.addJob { fn := fn, q := q, cls := Q.cls, cid := e.cid, ordered := e.ordered, irqNow := e.irqNow, accepted := stamp,
               sqIndex := i, nop := true }
  .next (s1.settleNops fn q ((s1.queueJobs fn q).length)).settleQueues

/-! ## Cancellation (R244) -/

/-- The target of a cancellation: the match accepted last that has not completed; otherwise one that ended in this tick. -/
def State.cancelTarget (s : State) (fn q : Nat) (p : Job → Bool) : Option (Nat × Job) :=
  let l := s.jobs.filter fun e => e.2.fn == fn && e.2.q == q && !e.2.nop && p e.2
  match (l.filter fun e => e.2.st != .ended).getLast? with
  | some e => some e
  | none => (l.filter fun e => e.2.endTick == s.ticks).getLast?

/-- Cancel a target: the state after it, and the result of R244. A LAUNCH that the queue has taken is a job already. -/
def State.cancel (s : State) (fn q detail : Nat) (p : Job → Bool) : State × Nat :=
  let s := s.takeLaunch fn q
  match s.cancelTarget fn q p with
  | none => (s, 0)
  | some (id, j) => match j.st with
    | .ended => (s, 3)
    | .started => (s.stopJob id .cancelled detail detail, 2)
    | _ => (s.stopJob id .cancelled detail detail, 1)

/-- SQ_CANCEL (R244). -/
def execSqCancel (fn q : Nat) (s : State) : Out :=
  .next (s.withEntry fn q 2 fun s e _ stamp =>
    if s.qcount fn ≤ e.tq then s.completeEntry fn q e stamp .accessDenied 0
    else
      let r := s.cancel fn e.tq 0 fun j => if e.cbytag then j.idem && j.tag == e.tag else j.cid == e.tcid
      r.1.completeEntry fn q e stamp .ok r.2)

/-- A write to DSP_CANCEL (R244, R253). -/
def State.dspCancel (s : State) (fn v : Nat) : State :=
  if !s.cmdDone fn Fld.DSP_CANCEL_STS_DONE then s
  else
    let tq := bits v 15 0
    let tcid := bits v 31 16
    if s.qcount fn ≤ tq then
      ((s.setF fn Fld.DSP_CANCEL_STS_RESULT 0).finishCmd fn Fld.DSP_CANCEL_STS_STATUS .accessDenied).raiseIrq 0x05 fn 5
    else
      let r := s.cancel fn tq 3 fun j => j.cid == tcid
      (((r.1.setF fn Fld.DSP_CANCEL_STS_RESULT r.2).finishCmd fn Fld.DSP_CANCEL_STS_STATUS .ok).raiseIrq 0x05 fn 5).settleQueues

/-- DSP_CANCEL (R244, R253). -/
def execDspCancel (fn v : Nat) (s : State) : Out := .next (s.gated fn 0x05 0x084 (s.dspCancel fn v))

/-- CQ_IRQ_TIMER: the oldest completion not signalled has waited TIME µs (R236). -/
def execCqIrqTimer (fn q : Nat) (s : State) : Out :=
  let Q := s.queue fn q
  .next (if Q.unsig ≠ 0 ∧ Q.modTime ≠ 0 ∧ Q.unsigAt + 1000 * Q.modTime ≤ s.now then s.signalCq fn q else s)

/-! ## Queue commands (R222 to R224, R249) -/

/-- A 52-bit address in a LO and HI pair. -/
def State.va52 (s : State) (fn : Nat) (lo hi : Fld) : Nat := s.getF fn lo + 2 ^ 32 * (s.getF fn hi % 2 ^ 20)

/-- Class K queues of a partition. -/
def State.kQueues (s : State) (fn : Nat) : Nat :=
  (s.queues.filter fun e => decide (e.1 / 65536 = fn) && e.2.st != .disabled && e.2.cls == 2).length

/-- Whether every page of a ring lies in the Reserve and in the locked translation set (R224). -/
def State.ringLocked (s : State) (fn va n : Nat) : Bool :=
  (List.range (cdiv (va % 4096 + n) 4096)).all fun i =>
    s.mem.locked.any fun e => e.1 == tlbKey fn (va + 4096 * i) && e.2.tier == 1

/-- Whether a CREATE passes R224. -/
def State.createOk (s : State) (fn q : Nat) : Bool :=
  let cls := s.getF fn Fld.DSP_Q_CFG_CLASS
  let sqsz := s.getF fn Fld.DSP_Q_CFG_SQSZ
  let cqsz := s.getF fn Fld.DSP_Q_CFG_CQSZ
  let sq := s.va52 fn Fld.DSP_Q_SQBASE_LO Fld.DSP_Q_SQBASE_HI
  let cq := s.va52 fn Fld.DSP_Q_CQBASE_LO Fld.DSP_Q_CQBASE_HI
  let kf := indices 16 fun f => bit (s.getF fn Fld.DSP_Q_KFILES_FILES) f
  s.hasPart fn && decide (q < s.qcount fn) && (s.queue fn q).st == .disabled && cls != 3 &&
    decide (4 ≤ sqsz) && decide (sqsz ≤ 16) && decide (4 ≤ cqsz) && decide (cqsz ≤ 16) &&
    sq % (64 * 2 ^ sqsz) == 0 && cq % (16 * 2 ^ cqsz) == 0 &&
    (cls != 2 || (decide (s.kQueues fn < s.getF fn Fld.DSP_QRANGE_KQ) && !kf.isEmpty &&
      kf.all (fun f => (s.partKFiles fn).contains f) && s.ringLocked fn sq (64 * 2 ^ sqsz)))

/-- The queue that CREATE makes. -/
def State.newQueue (s : State) (fn : Nat) : Queue :=
  { st := .active, cls := s.getF fn Fld.DSP_Q_CFG_CLASS, sqsz := s.getF fn Fld.DSP_Q_CFG_SQSZ,
    cqsz := s.getF fn Fld.DSP_Q_CFG_CQSZ, ien := s.flag fn Fld.DSP_Q_CFG_IEN, vec := s.getF fn Fld.DSP_Q_CFG_VEC,
    sqBase := s.va52 fn Fld.DSP_Q_SQBASE_LO Fld.DSP_Q_SQBASE_HI, cqBase := s.va52 fn Fld.DSP_Q_CQBASE_LO Fld.DSP_Q_CQBASE_HI,
    modTime := s.getF fn Fld.DSP_Q_MOD_TIME, modCount := s.getF fn Fld.DSP_Q_MOD_COUNT,
    kfiles := s.getF fn Fld.DSP_Q_KFILES_FILES, timeout := s.getF fn Fld.DSP_Q_TIMEOUT, gen := s.getF 0 Fld.DEV_GEN }

/-- A queue command completes (R253, R254). -/
def State.qcmdDone (s : State) (fn : Nat) (st : Status) : State :=
  (s.finishCmd fn Fld.DSP_QCMD_STS_STATUS st).raiseIrq 0x05 fn 0

/-- End the jobs of a queue for RESET, DELETE or a quiesce: CANCELLED, DETAIL 2. An entry taken and not yet handled ends the
same way. -/
def State.clearQueue (s : State) (fn q : Nat) (silent : Bool) : State :=
  let s1 := match (s.queue fn q).fetched with
    | none => s
    | some (b, _, _) =>
      let s0 := s.setQueue fn q { s.queue fn q with fetched := none }
      if silent then s0.setQueue fn q { s0.queue fn q with inflight := (s0.queue fn q).inflight - 1 }
      else s0.writeCq fn q (parseEntry b).cid Status.cancelled.code 2 false false (parseEntry b).irqNow
  s1.stopQueueJobs fn q 2 silent

/-- A DSP_QCMD write that is not ignored: RESET and DELETE run until the queue's last job has ended (R249, R253). -/
def State.qcmd (s : State) (fn v : Nat) : State :=
  let q := s.getF fn Fld.DSP_QSEL_QUEUE
  let Q := s.queue fn q
  if !s.cmdDone fn Fld.DSP_QCMD_STS_DONE then s
  else if resvHit 0x05 0x044 v then s.qcmdDone fn .entryMalformed
  else match opCode v with
    | 1 => if s.createOk fn q then (s.setQueue fn q (s.newQueue fn)).qcmdDone fn .ok else s.qcmdDone fn .queueRefused
    | 2 => if Q.st = .disabled then s.qcmdDone fn .queueRefused
      else (((s.setQueue fn q { Q with cmd := .delete }).startCmd fn Fld.DSP_QCMD_STS_DONE).clearQueue fn q false).settleQueues
    | 3 => if Q.st = .disabled ∨ s.qcount fn ≤ q then s.qcmdDone fn .queueRefused
      else (((s.setQueue fn q { Q with cmd := .reset }).startCmd fn Fld.DSP_QCMD_STS_DONE).clearQueue fn q false).settleQueues
    | _ => s.qcmdDone fn .entryMalformed

/-- DSP_QCMD CREATE (R224, R249). -/
def execDspQcmdCreate (fn v : Nat) (s : State) : Out := .next (if opCode v = 1 then s.gated fn 0x05 0x044 (s.qcmd fn v) else s)

/-- DSP_QCMD DELETE (R249). -/
def execDspQcmdDelete (fn v : Nat) (s : State) : Out := .next (if opCode v = 2 then s.gated fn 0x05 0x044 (s.qcmd fn v) else s)

/-- DSP_QCMD RESET (R249). -/
def execDspQcmdReset (fn v : Nat) (s : State) : Out := .next (if opCode v = 3 then s.gated fn 0x05 0x044 (s.qcmd fn v) else s)

/-- The context of a queue after RESET: indices 0, window and statistics cleared (R249, R253). -/
def Queue.afterReset (Q : Queue) : Queue :=
  { st := .active, cls := Q.cls, sqsz := Q.sqsz, cqsz := Q.cqsz, ien := Q.ien, vec := Q.vec, sqBase := Q.sqBase,
    cqBase := Q.cqBase, modTime := Q.modTime, modCount := Q.modCount, kfiles := Q.kfiles, timeout := Q.timeout, gen := Q.gen }

/-- QUEUE_CMD_DONE: the last job of a queue under RESET or DELETE has ended (R249). -/
def execQueueCmdDone (fn : Nat) (s : State) : Out :=
  .next (match s.queues.find? fun e => decide (e.1 / 65536 = fn) && e.2.cmd != .none with
    | none => s
    | some (k, Q) =>
      let q := k % 65536
      if !(s.queueJobs fn q).isEmpty then s
      else (s.setQueue fn q (if Q.cmd = .delete then {} else Q.afterReset)).qcmdDone fn .ok)

/-- Quiesce a queue: its jobs end as for RESET and it enters QUIESCED (R249). -/
def State.quiesceQueue (s : State) (fn q : Nat) (silent : Bool) : State :=
  let Q := s.queue fn q
  if Q.st = .active ∨ Q.st = .error then
    (((s.setQueue fn q { Q with st := .quiesced, errsrc := 0 }).clearQueue fn q silent)).raiseIrq 0x05 fn 4
  else s

/-- Local indices of a partition's queues. -/
def State.partQueues (s : State) (fn : Nat) : List Nat :=
  (s.queues.filter fun e => decide (e.1 / 65536 = fn)).map fun e => e.1 % 65536

/-- Quiesce every queue of a partition (R34, R221). -/
def State.quiesceQueues (s : State) (fn : Nat) (silent : Bool) : State :=
  ((s.partQueues fn).foldl (fun s q => s.quiesceQueue fn q silent) s).settleQueues

/-- The registers of DSP_Q that stage values, as a queue's context gives them. -/
def Queue.cfgWord (Q : Queue) : Nat :=
  Q.vec + (if Q.ien then 2 ^ 11 else 0) + 2 ^ 20 * Q.cqsz + 2 ^ 25 * Q.sqsz + 2 ^ 30 * Q.cls

/-- Load the DSP_Q registers from the selected queue, or with zeros (R252). -/
def State.loadQsel (s : State) (fn q : Nat) : State :=
  let Q := s.queue fn q
  let Q : Queue := if Q.st = .disabled then {} else Q
  let ws : List (Nat × Nat) := [
    (0x04C, Q.cfgWord), (0x050, Q.sqBase % 2 ^ 32), (0x054, Q.sqBase / 2 ^ 32), (0x058, Q.cqBase % 2 ^ 32),
    (0x05C, Q.cqBase / 2 ^ 32), (0x060, Q.modCount + 2 ^ 16 * Q.modTime), (0x064, Q.kfiles), (0x068, Q.timeout)]
  ws.foldl (fun s e => s.setReg fn 0x05 e.1 (BitVec.ofNat 32 e.2)) s

/-- DSP_QSEL_WRITE (R252, R681). -/
def execDspQselWrite (fn v : Nat) (s : State) : Out :=
  .next (s.gated fn 0x05 0x040 (
    if resvHit 0x05 0x040 v then s.recErr 0x05 fn .entryMalformed 0x040
    else (s.setF fn Fld.DSP_QSEL_QUEUE (bits v 15 0)).loadQsel fn (bits v 15 0)))

/-- A statistic of a queue (R253). -/
def State.qstat (s : State) (fn stat q : Nat) : Nat := if stat ≤ 7 then assocGet 0 (s.queue fn q).stats stat else 0

/-- DSP_STAT_LO_READ: the low half, and the high half latched (R253). -/
def execDspStatLoRead (fn : Nat) (s : State) : Out :=
  .next (if s.serves 0x05 then
      let v := s.qstat fn (s.getF fn Fld.DSP_STAT_SEL_STAT) (s.getF fn Fld.DSP_STAT_SEL_QUEUE)
      { s.setF fn Fld.DSP_STAT_HI (v / 2 ^ 32) with readData := v % 2 ^ 32 }
    else { s with readData := 0 })

/-! ## The Dispatcher's state table (R255) -/

/-- Jobs that have started. -/
def State.startedJobs (s : State) : List (Nat × Job) := s.jobs.filter fun e => e.2.st == .started

/-- Stop every started job with CANCELLED. -/
def State.stopStarted (s : State) (detail : Nat) : State :=
  (s.startedJobs.foldl (fun s e => s.stopJob e.1 .cancelled detail detail) s).settleQueues

/-- What the Dispatcher does as it stops: running jobs end at their boundaries with CANCELLED, DETAIL 2. -/
def State.dspStop (s : State) : State := s.stopStarted 2

/-- Queues that hold doorbells, by global queue number (R235). -/
def State.heldQueues (s : State) : List (Nat × Nat) :=
  (s.queues.filter fun e => !e.2.held.isEmpty).foldl
    (fun l e => assocInsert ((assocGet {} s.parts (e.1 / 65536)).qbase + e.1 % 65536) e.1 l) []

/-- Apply the held doorbells (R235). -/
def State.applyHeld (s : State) : State :=
  s.heldQueues.foldl (fun s e =>
    let fn := e.2 / 65536
    let q := e.2 % 65536
    let ds := (s.queue fn q).held
    ds.foldl (fun s d => s.applyDb fn q d) (s.setQueue fn q { s.queue fn q with held := [] })) s

/-- CTL.ENABLE of the Dispatcher: the owner's (R255, R683). -/
def execDispatcherEnable (fn : Nat) (on : Bool) (s : State) : Out :=
  .next (s.ctlWrite fn 0x05 (s.isOwner fn) .owned (s.blockEnable 0x05 on (fun s => s) State.dspStop))

/-- CTL.QUIESCE of the Dispatcher (R255, R683). -/
def execDispatcherQuiesce (fn : Nat) (s : State) : Out :=
  .next (s.ctlWrite fn 0x05 (s.isOwner fn) .owned (s.blockQuiesce 0x05 State.dspStop))

/-- DISPATCHER_START_DONE: the cores run, and held doorbells are applied (R255). -/
def execDispatcherStartDone (s : State) : Out := .next (s.blockOn 0x05 State.applyHeld State.dspStop)

/-- DISPATCHER_STOP_DONE: the last group has ended (R255). -/
def execDispatcherStopDone (s : State) : Out :=
  .next (if s.groups.isEmpty then s.blockOff 0x05 (fun s => s) else s)

end Sys2Proof.Machine
end

