-- ==== Sys2Proof/Machine/Image.lean ====
section
/-! DEFINITION. Touth images: LOAD, UNLOAD and REPLACE (R645 to R651). -/

namespace Sys2Proof.Machine

/-- Stepping in force: ID[7:0] (R2). -/
def stepB0 : Nat := 0x10

/-! ## Layout (R645, R646) -/

/-- Fields of an image header. -/
def ihBytes (b : List Byte) : Nat := leField b 8 4
def ihNfiles (b : List Byte) : Nat := leField b 12 2
def ihKimg (b : List Byte) : Bool := bit (leField b 7 1) 7
def ihKopp (b : List Byte) : Nat := leField b 14 1
def ihKmw (b : List Byte) : Nat := leField b 16 4
def ihNjobs (b : List Byte) : Nat := leField b 20 2
def ihNlock (b : List Byte) : Nat := leField b 22 2
def ihDigest (b : List Byte) : Nat := leField b 24 8
def ihJobOff (b : List Byte) : Nat := leField b 32 4
def ihLockOff (b : List Byte) : Nat := leField b 36 4
def ihStreamOff (b : List Byte) : Nat := leField b 40 4
def ihLibOff (b : List Byte) : Nat := leField b 44 4
def ihWoff (b : List Byte) : Nat := leField b 48 4

/-- Whether a section of `n` bytes lies between byte 64 and WOFF, at a multiple of 64. -/
def imgSection (h : List Byte) (off n : Nat) : Bool := off % 64 == 0 && decide (64 ≤ off) && decide (off + n ≤ ihWoff h)

/-- Whether a header is one of R645, beside its digest. -/
def headerOk (h : List Byte) : Bool :=
  let k := ihKimg h
  leField h 0 4 == 0x4854594B && leField h 4 2 == 1 && leField h 6 1 == stepB0 && leField h 7 1 % 128 == 0 && leField h 15 1 == 0 &&
    leField h 52 12 == 0 && decide (1 ≤ ihNfiles h) && decide (ihNfiles h ≤ 16) && decide (1 ≤ ihNjobs h) && decide (ihNjobs h ≤ 4096) &&
    decide (ihNlock h ≤ 512) && (k || (ihKopp h == 0 && ihKmw h == 0 && ihNlock h == 0)) && decide (ihKopp h ≤ 10) &&
    ihWoff h % 64 == 0 && decide (ihWoff h ≤ ihBytes h) && imgSection h (ihJobOff h) (64 * ihNjobs h) &&
    (if ihNlock h = 0 then ihLockOff h == 0 else imgSection h (ihLockOff h) (8 * ihNlock h)) &&
    (ihStreamOff h == 0 || imgSection h (ihStreamOff h) 1) && (ihLibOff h == 0 || imgSection h (ihLibOff h) 16)

/-- Whether a job entry is one of R646. -/
def jobEntryOk (h e : List Byte) : Bool :=
  let f := leField e 0 1
  f / 16 == 0 && f % 4 != 3 && leField e 1 3 == 0 && leField e 20 44 == 0 && imgSection h (leField e 4 4) 1 &&
    (if bit f 2 then imgSection h (leField e 8 4) 1 else leField e 8 4 == 0) &&
    (leField e 12 4 == 0 || (ihKimg h && imgSection h (leField e 12 4) 1))

/-- A job of an image: its entry, and what its program blocks declare (log entry 7). -/
def parseJob (digest i : Nat) (e : List Byte) : ImgJob :=
  let f := leField e 0 1
  let aux := Config.jobAux digest i
  { aux with
    kind := f % 4, noReplay := bit f 3, hasVariant := bit f 2, wcet := leField e 16 4,
    prim := Config.programBlock digest (leField e 4 4),
    var := if bit f 2 then Config.programBlock digest (leField e 8 4) else {} }

/-- Entries of the job table of an image's bytes. -/
def jobEntries (b : List Byte) : List (List Byte) :=
  (List.range (ihNjobs b)).map fun i => (b.drop (ihJobOff b + 64 * i)).take 64

/-- The first 8 bytes of SHAKE256 over bytes 64 to WOFF − 1. -/
def progDigest (b : List Byte) : Nat := leNat ((Config.shake256 ((b.take (ihWoff b)).drop 64)).take 8)

/-- Whether bytes up to WOFF make an image of R645 and R646. -/
def imageOk (b : List Byte) : Bool :=
  headerOk b && progDigest b == ihDigest b && (jobEntries b).all (jobEntryOk b)

/-- Whether a launch meets R42 and R55, and one of its groups fits an empty square (R43, R56). -/
def launchOk (l : Launch) : Bool :=
  let g := l.gx * l.gy * l.gz
  let nls := g / 32
  decide (16 ≤ l.nreg) && decide (l.nreg ≤ 255) && decide (32 ≤ g) && decide (g ≤ 4096) && g % 32 == 0 &&
    decide (1 ≤ l.nx * l.ny * l.nz) && decide (g * l.nx * l.ny * l.nz ≤ 2 ^ 32) &&
    decide (4096 * l.store4k ≤ 786432) && (List.range 4).all fun q =>
      decide (inQuad nls q ≤ 32) && decide (inQuad nls q * lanesetRegs l.nreg ≤ 16384)

/-- The image that bytes up to WOFF at a VA make. -/
def parseImage (va : Nat) (b : List Byte) : Image :=
  let d := ihDigest b
  let k := Config.kImage d
  { va := va, bytes := ihBytes b, header := b.take 64, digest := d, kimg := ihKimg b, kopp := ihKopp b, kmw := ihKmw b,
    nfiles := ihNfiles b, jobs := (jobEntries b).zipIdx.map (fun e => parseJob d e.2 e.1),
    sets := if ihStreamOff b = 0 then [] else Config.setDecls d,
    locks := (List.range (ihNlock b)).map (fun i => leField b (ihLockOff b + 8 * i) 8),
    ksize := if ihKimg b then k.1 else 0, replaySquares := if ihKimg b then k.2.1 else [] }

/-- Reserve pages that an image pins: its replay copies, and a shadow for every slot of a set with SHADOW (R285, R586; log entry 33). -/
def pinnedPages (im : Image) : Nat :=
  (if im.kimg then (Config.kImage im.digest).2.2 else 0) +
    ((im.sets.filter fun d => d.shadow).map fun d => 32 * d.slotBlk * cdiv (64 * d.lines) 4096).sum

/-! ## The locked set and the Class K registers (R59, R166, R551) -/

/-- Take the locked translations of a partition's Class K image from its page list (R166). -/
def State.lockPages (s : State) (fn : Nat) (vas : List Nat) : State :=
  let rest := s.mem.locked.filter fun e => decide (e.1 / 2 ^ 52 ≠ fn)
  let l := vas.foldl (fun (l : List (Nat × Xlat)) va => match s.walk fn va with
    | .ok x => assocInsert (tlbKey fn va) x l
    | .error _ => l) rest
  (({ s with mem := { s.mem with locked := l } }).countWalks fn vas.length).showLocked fn

/-- FIL_SPLIT of a partition's KRES files, and 0 on every other file (R59, R79). -/
def State.showSplit (s : State) : State :=
  (List.range 16).foldl (fun (s : State) f =>
    let k := match s.fileHolder f with
      | some p => if s.fileKres f then ((s.kImages p).headD {}).ksize else 0
      | none => 0
    s.setF 0 (Fld.FIL_SPLIT_KSIZE.onPage (filePage f)) (Nat.min k 24)) s

/-- What a change of the loaded images or of the reserved files shows (R79, R551, R553). -/
def State.showImages (s : State) : State := s.showSplit.showKneed

/-! ## Commands (R648 to R651) -/

/-- Key of an image: function and handle. -/
def imageKey (fn h : Nat) : Nat := fn * 32768 + h

/-- Images of a partition. -/
def State.partImages (s : State) (fn : Nat) : List (Nat × Image) := s.images.filter fun e => decide (e.1 / 32768 = fn)

/-- DSP_IMG_VA. -/
def State.imgVa (s : State) (fn : Nat) : Nat :=
  bits (s.getReg fn 0x05 0x1C0).toNat 31 12 * 4096 + 2 ^ 32 * ((s.getReg fn 0x05 0x1C4).toNat % 2 ^ 20)

/-- Read an image up to WOFF: what its reads leave in the MMU, and its bytes or why they cannot be read (R649). -/
def State.readTouth (s : State) (fn va : Nat) : State × Except Status (List Byte) :=
  match s.vaRead fn .dispatcher va 64 with
  | (s1, .error e) => (s1, .error (readStatus e))
  | (s1, .ok h) =>
    let n := Nat.max 64 (ihBytes h)
    let s2 := s1.vaTrace fn .dispatcher va n .read
    if (s2.vaCheck fn va n .read).isSome then (s2, .error .accessDenied)
    else match s2.vaBytes fn va (Nat.max 64 (Nat.min (ihWoff h) n)) (n / 4096 + 2) with
      | .error e => (s2, .error (readStatus e))
      | .ok b => (s2, .ok b)

/-- Why a LOAD is refused after its reads, if it is (R649). -/
def State.loadFault (s : State) (fn : Nat) (b : List Byte) (im : Image) : Option Status :=
  let kf := (s.partKFiles fn).length
  if !imageOk b then some .imageRejected
  else if !(im.jobs.all (fun j => launchOk j.prim && (!j.hasVariant || launchOk j.var))) then some .imageRejected
  else if decide ((s.partFiles fn).length < im.nfiles) || (im.kimg && (im.nfiles != kf || !(s.kImages fn).isEmpty)) ||
      decide (64 ≤ (s.partImages fn).length) then some .imageRejected
  else if decide (s.pinFloor fn < s.rsvPinned fn + pinnedPages im) then some .pinLimit
  else if im.kimg && !capMeets (s.fracOf 0) (s.fracOf 6) s.acceptedCap
      ({ s with images := assocInsert (imageKey fn 0) im s.images }.kneed) then some .powerLimited
  else none

/-- The lowest handle that a partition does not use (log entry 33). -/
def State.freeHandle (s : State) (fn : Nat) : Nat :=
  ((List.range 65).find? fun h => decide (1 ≤ h) && (s.image fn h).isNone).getD 0

/-- LOAD: the checks of R649, and what a passing one takes from the image. -/
def State.imgLoad (s : State) (fn : Nat) : State × Status :=
  let va := s.imgVa fn
  match s.readTouth fn va with
  | (s1, .error st) => (s1, st)
  | (s1, .ok b) =>
    let im := parseImage va b
    match s1.loadFault fn b im with
    | some st => (s1, st)
    | none => match s1.allocMapped fn (pinnedPages im) (s1.homeSlice fn) with
      | (s2, .error st) => (s2, st)
      | (s2, .ok ps) =>
        let h := s2.freeHandle fn
        let s3 := { s2 with images := assocInsert (imageKey fn h) { im with replayPages := ps } s2.images }
        let s4 := if im.kimg then s3.lockPages fn im.locks else s3
        let s5 := s4.showImages
        let s6 := if im.kimg then s5.loadPortions fun f => s5.fileHolder f == some fn else s5
        (s6.setF fn Fld.DSP_IMG_STS_HANDLE h, .ok)

/-- Jobs of an image that have not ended. -/
def State.imageJobs (s : State) (fn h : Nat) : List (Nat × Job) :=
  s.jobs.filter fun e => e.2.fn == fn && e.2.image == h && !e.2.nop && e.2.st != .ended

/-- An unloaded image is gone: its pages, and the locked set and the K floor of a Class K image (R650). -/
def State.dropImage (s : State) (fn h : Nat) : State :=
  match s.image fn h with
  | none => s
  | some im =>
    let s1 := { s.releasePages im.replayPages with images := assocErase (imageKey fn h) s.images }
    let s2 := if im.kimg then s1.lockPages fn [] else s1
    s2.showImages

/-- UNLOAD: the handle takes no further entry; the end of its last job completes the command (R650). -/
def State.imgUnload (s : State) (fn h : Nat) : State × Option Status :=
  match s.image fn h with
  | none => (s, some .imageUnknown)
  | some im =>
    if im.kimg && !(s.partKFiles fn).isEmpty then (s, some .imageRejected)
    else ({ s with images := assocInsert (imageKey fn h) { im with unloading := true } s.images }, none)

/-- REPLACE: a new weight section under the handle, from this tick on (R651). -/
def State.imgReplace (s : State) (fn h : Nat) : State × Option Status :=
  match s.image fn h with
  | none => (s, some .imageUnknown)
  | some im =>
    let va := s.imgVa fn
    match s.readTouth fn va with
    | (s1, .error st) => (s1, some st)
    | (s1, .ok b) =>
      let fixed := fun (x : List Byte) => x.take 8 ++ (x.take 48).drop 12 ++ (x.take 64).drop 52
      if !imageOk b || fixed b != fixed im.header || ihDigest b != im.digest then (s1, some .imageRejected)
      else
        let im' := { im with va := va, bytes := ihBytes b, header := b.take 64, replacing := some s1.ticks }
        ({ s1 with images := assocInsert (imageKey fn h) im' s1.images }, none)

/-- A write to DSP_IMG_CMD (R648). -/
def State.imgCmd (s : State) (fn v op : Nat) (f : State × Option Status) : State :=
  s.pageCmdLong fn 0x05 0x1C8 v op true .owned fn Fld.DSP_IMG_STS_STATUS none f

/-- IMAGE_LOAD (R649). -/
def execImageLoad (fn v : Nat) (s : State) : Out :=
  let r := s.imgLoad fn
  .next (s.imgCmd fn v 1 (r.1, some r.2))

/-- IMAGE_UNLOAD (R650). -/
def execImageUnload (fn v : Nat) (s : State) : Out := .next (s.imgCmd fn v 2 (s.imgUnload fn (bits v 15 0)))

/-- IMAGE_REPLACE (R651). -/
def execImageReplace (fn v : Nat) (s : State) : Out := .next (s.imgCmd fn v 3 (s.imgReplace fn (bits v 15 0)))

/-- IMAGE_UNLOAD_DONE: the image's last job has ended; where the host asked for the UNLOAD, the command completes (R650). -/
def execImageUnloadDone (fn h : Nat) (s : State) : Out :=
  .next (match s.image fn h with
    | none => s
    | some im =>
      if !im.unloading || !(s.imageJobs fn h).isEmpty then s
      else
        let s1 := s.dropImage fn h
        if s.cmdDone fn Fld.DSP_IMG_STS_STATUS then s1 else s1.finishCmd fn Fld.DSP_IMG_STS_STATUS .ok)

/-- IMAGE_REPLACE_DONE: the last job that runs the old image has ended (R651). -/
def execImageReplaceDone (fn h : Nat) (s : State) : Out :=
  .next (match s.image fn h with
    | none => s
    | some im => match im.replacing with
      | none => s
      | some t =>
        if (s.imageJobs fn h).any (fun e => e.2.st == .started && decide (e.2.startTick ≤ t)) then s
        else
          let s1 := { s with images := assocInsert (imageKey fn h) { im with replacing := none } s.images }
          s1.finishCmd fn Fld.DSP_IMG_STS_STATUS .ok)

end Sys2Proof.Machine
end

