-- ==== Sys2Proof/Machine/Seq.lean ====
section
/-! DEFINITION. Sequence calls and streams (R268 to R289): taking and starting a call, the stream commands, swapping; and the check of
a page table that a taken call names (R300). -/

namespace Sys2Proof.Machine

/-! ## Page tables at take (R297, R300) -/

/-- Whether a table header is malformed for an image's geometry (HKV, DB, NLAYER, FMT) and `tq` further positions. -/
def headBad (geo : Nat × Nat × Nat × Nat) (b : List Byte) (tq : Nat) : Bool :=
  leField b 19 1 / 16 != 0 || leField b 32 32 != 0 || (ptHkv b, ptDb b, ptNlayer b, ptFmt b) != geo ||
    decide (ptNtok b < ptRstpos b) || decide (1048576 < ptNtok b + tq)

/-- Addresses of the entries that a call needs, in order; `none` stands for an entry beyond NPAGE. -/
def neededEntries (va : Nat) (b : List Byte) (upTo : Nat) : List (Option Nat) :=
  let lo := ptRstpos b / 64
  (List.range (ptNlayer b)).flatMap fun y =>
    (List.range (cdiv upTo 64 - lo)).flatMap fun i => (List.range (ptHkv b)).map fun h =>
      if ptNpage b ≤ lo + i then none else some (ptEntryVa va b y (lo + i) h)

/-- What is wrong with one needed entry, if anything. -/
def State.entryErr (s : State) (fn : Nat) : Option Nat → Option Status
  | none => some .pageMissing
  | some a => match s.vaBytes fn a 8 2 with
    | .error e => some (readStatus e)
    | .ok b =>
      let e := leNat b
      if bits e 63 52 != 0 || bits e 9 1 != 0 then some .attMalformed
      else if bit e 0 then none else some .pageMissing

/-- What is wrong with a table that a call names, if anything (R300). -/
def State.tableErr (s : State) (fn : Nat) (geo : Nat × Nat × Nat × Nat) (tq : Nat) (appends : Bool) (va : Nat) : Option Status :=
  if va % 64 ≠ 0 then some .attMalformed
  else match s.vaBytes fn va 64 2 with
    | .error e => some (readStatus e)
    | .ok b =>
      if headBad geo b tq then some .attMalformed
      else if ptNtok b + (if appends then tq else 0) ≤ ptRstpos b then none
      else (neededEntries va b (ptNtok b + if appends then tq else 0)).findSome? (s.entryErr fn)

/-- What the reads of a table leave in the MMU. -/
def State.tableTrace (s : State) (fn tq : Nat) (appends : Bool) (va : Nat) : State :=
  let s1 := s.vaTrace fn .dispatcher va 64 .read
  match s.vaBytes fn va 64 2 with
  | .error _ => s1
  | .ok b => (neededEntries va b (ptNtok b + if appends then tq else 0)).foldl (fun s a => match a with
    | some a => s.vaTrace fn .dispatcher a 8 .read
    | none => s) s1

/-- A list of 16-byte table entries: table VA and EXPGEN; none where a reserved field is not zero or a table is named twice (R298). -/
def parseTables (b : List Byte) (n : Nat) : Option (List (Nat × Nat)) :=
  let l := (List.range n).map fun i => (leField b (16 * i) 8, leField b (16 * i + 8) 4)
  if (List.range n).any (fun i => leField b (16 * i + 12) 4 != 0) || !decide (l.map (·.1)).Nodup then none else some l

/-- Read and check the tables that a call names: the list, or why the call is not taken. -/
def State.readTables (s : State) (fn va n tq : Nat) (geo : Nat × Nat × Nat × Nat) (appends : Bool) :
    State × Except Status (List (Nat × Nat)) :=
  match s.vaRead fn .dispatcher va (16 * n) with
  | (s1, .error e) => (s1, .error (readStatus e))
  | (s1, .ok b) => match parseTables b n with
    | none => (s1, .error .attMalformed)
    | some l =>
      let s2 := l.foldl (fun s t => s.tableTrace fn tq appends t.1) s1
      match l.findSome? fun t => s.tableErr fn geo tq appends t.1 with
      | some st => (s2, .error st)
      | none => (s2, .ok l)

/-! ## Taking (R273, R280, R281) -/

/-- Whether the Dispatcher takes a call now: entries of a queue in order, at most 64 taken and not started (R273). -/
def State.mayTake (s : State) (id kind : Nat) (j : Job) : Bool :=
  s.dspPlaces && j.st == .waiting && !j.taken && j.stop.isNone && !j.nop && s.jobKind j == kind &&
    (s.queueJobs j.fn j.q).all (fun e => e.1 == id || e.2.st != .waiting || e.2.taken || s.jobKind e.2 == 0 ||
      decide (sub32 j.sqIndex e.2.sqIndex = 0) || decide (2 ^ 31 ≤ sub32 j.sqIndex e.2.sqIndex)) &&
    decide (((s.queueJobs j.fn j.q).filter fun e => e.2.taken && e.2.st == .waiting).length < 64)

/-- A call that names a stream is taken: the pending count rises; a swap-in starts, or a swap-out begun in this tick does not begin
(R279 to R281, R283). -/
def State.takeStream (s : State) (fn cls h : Nat) : State :=
  let x := s.stream fn h
  let x := { x with pend := x.pend + 1, takenTick := s.ticks, kheld := x.kheld || cls == 2 }
  match x.st with
  | .zero | .resv | .outer => s.setStream fn h { x with st := .inn, src := x.st }
  | .out =>
    if x.beginTick ≠ s.ticks then s.setStream fn h x
    else
      let park := if x.byPark then some x.toOuter else none
      if x.src = .store then
        (s.setStream fn h { x with st := .store, copy := [], parkWait := park }).bump fn Fld.DSP_SEQ_SWCAN 1
      else s.setStream fn h { x with st := .inn, parkWait := park }
  | _ => s.setStream fn h x

/-- A call is not taken: it completes at once (R275). -/
def State.notTaken (s : State) (id : Nat) (st : Status) : State := (s.stopJob id st 0 0).settleQueues

/-- Note what a stream command of this tick finds (R283). -/
def State.noteUndo (s : State) (fn h : Nat) (bytes : List Byte) : State :=
  { s with seqUndo := (s.seqUndo.filter fun u => u.tick == s.ticks) ++
      [{ tick := s.ticks, fn := fn, h := h, stream := s.stream fn h, bytes := bytes }] }

/-- Put a stream back to where a command of this tick found it, with its state's bytes, and the command refused with STREAM_REFUSED; none
where no place is left for them. -/
def State.undoCmd (s : State) (u : SeqUndo) : Option State :=
  let x := u.stream
  let s0 := s.freeCopies u.fn u.h
  let done := fun (s : State) => s.setF u.fn Fld.DSP_SEQ_CMD_STS_STATUS Status.streamRefused.code
  let taken := fun k => (s0.streams.any fun e => decide (e.1 / 16384 = u.fn) && handleSet (e.1 % 16384) == handleSet u.h &&
    e.2.slot == some k)
  match x.st, x.slot with
  | .store, some k => if taken k then none else some (done ((s0.setStream u.fn u.h x).slotWrite u.fn u.h k u.bytes))
  | .resv, _ => match s0.allocMapped u.fn x.pages.length (s0.homeSlice u.fn) with
    | (s1, .ok ps) => some (done ((s1.setStream u.fn u.h { x with pages := ps }).pagesWrite ps u.bytes))
    | _ => none
  | _, _ => some (done (s0.setStream u.fn u.h x))

/-- A call taken in the tick of stream commands is ordered before them (R283): they are undone for the streams that it names. -/
def State.callFirst (s : State) (fn : Nat) (hs : List Nat) : State :=
  let named := fun (u : SeqUndo) => u.tick == s.ticks && u.fn == fn && hs.contains u.h
  (s.seqUndo.filter named).foldr (fun u s => (s.undoCmd u).getD s) { s with seqUndo := s.seqUndo.filter fun u => !named u }

/-- Mark a job taken, with what its argument block and lists gave. -/
def State.markTaken (s : State) (id : Nat) (j : Job) : State :=
  { s.setJob id { j with taken := true, takeNo := s.nextJob + 1, attCfg := s.attSettings j.fn } with nextJob := s.nextJob + 1 }

/-- Whether a sequence call block is malformed (R273, R275). -/
def seqBlockBad (b : List Byte) (slots : Nat) : Bool :=
  let n := leField b 2 2
  let t := leField b 4 4
  leField b 0 1 != 1 || leField b 1 1 / 4 != 0 || leField b 1 1 % 4 == 3 || n == 0 || decide (slots < n) || t == 0 ||
    decide (1048576 < t) || leField b 8 8 % 8 != 0 || leField b 16 8 % 4 != 0 || leField b 24 8 % 8 != 0 ||
    leField b 32 8 % 64 != 0 || leField b 40 8 % 64 != 0

/-- A stream list: handles with EXPGEN; none where reserved bits are set or a handle stands twice (R274, R275). -/
def parseStreams (b : List Byte) (n : Nat) : Option (List (Nat × Nat)) :=
  let l := (List.range n).map fun i => (leField b (8 * i) 2, leField b (8 * i + 4) 4)
  if (List.range n).any (fun i => leField b (8 * i + 2) 2 != 0) || !decide (l.map (·.1)).Nodup then none else some l

/-- What is wrong with the streams and the mask and write-back addresses of a call, if anything (R269, R275). -/
def State.seqErr (s : State) (fn : Nat) (d : SetDecl) (arg : List Byte) (l : List (Nat × Nat)) : Option Status :=
  let n := leField arg 2 2
  let mask := leField arg 16 8
  let gen := leField arg 24 8
  if l.any (fun a => decide (2 ^ 14 ≤ a.1) || handleSet a.1 != d.set || (s.stream fn a.1).st == .closed) then some .streamUnknown
  else if l.any (fun a => (s.stream fn a.1).st == .torn) then some .stateTorn
  else if d.broken then some .internalError
  else if mask ≠ 0 ∧ (s.vaCheck fn mask (4 * leField arg 4 4 * cdiv n 32) .read).isSome then some .accessDenied
  else if gen ≠ 0 ∧ (s.vaCheck fn gen (8 * n) .write).isSome then some .accessDenied
  else none

/-- Take a sequence call whose block has been read: the stream list, the checks of R275, and, for attention layers, the table list of
R299. -/
def State.seqTake (s : State) (id : Nat) (j : Job) (ij : ImgJob) (arg : List Byte) : State :=
  match s.setDecl j.fn ij.set with
  | none => s.notTaken id .streamUnknown
  | some d =>
    let n := leField arg 2 2
    if seqBlockBad arg (32 * d.slotBlk) then s.notTaken id .seqMalformed
    else match s.vaRead j.fn .dispatcher (leField arg 8 8) (8 * n) with
      | (s1, .error e) => s1.notTaken id (readStatus e)
      | (s1, .ok b) => match parseStreams b n with
        | none => s1.notTaken id .seqMalformed
        | some l => match (s1.callFirst j.fn (l.map (·.1))).seqErr j.fn d arg l with
          | some st => s1.notTaken id st
          | none =>
            let t := leField arg 4 4
            let (s2, tabs) := if ij.attLayers then s1.readTables j.fn (leField arg 48 8) n t ij.att true else (s1, .ok [])
            match tabs with
            | .error st => s2.notTaken id st
            | .ok ts =>
              let s3 := (s2.callFirst j.fn (l.map (·.1))).markTaken id { j with
                arg := arg, streams := l, tables := ts, genVa := leField arg 24 8, appends := ij.attLayers, append := t }
              l.foldl (fun s a => s.takeStream j.fn j.cls a.1) s3

/-- SEQ_CALL_TAKE: the Dispatcher reads a call block and its stream list, checks them and raises pending counts (R273, R275). -/
def execSeqCallTake (job : Nat) (s : State) : Out :=
  .next (match s.job job with
    | none => s
    | some j => match s.imgJob j with
      | none => s
      | some ij =>
        if !s.mayTake job 1 j then s
        else match s.readArg j with
          | (s1, .error e) => s1.notTaken job (readStatus e)
          | (s1, .ok b) => s1.seqTake job j ij b)

/-- SEQ_CALL_START: a taken call whose streams have all come to STORE compares its generations and starts; a stream that became TORN
completes it (R272, R275, R281). -/
def execSeqCallStart (job : Nat) (s : State) : Out :=
  .next (match s.job job with
    | none => s
    | some j =>
      if !s.dspPlaces || s.jobKind j != 1 || j.st != .waiting || j.stop.isSome || !s.atCheck j then s
      else match j.streams.find? fun a => (s.stream j.fn a.1).st == .torn with
        | some a => s.notTaken job (((s.stream j.fn a.1).why).getD .stateTorn)
        | none =>
          if !j.streams.all (fun a => (s.stream j.fn a.1).st == .store) then s
          else if !s.streamsFresh j || !s.tablesFresh j then s.genMismatch job j
          else if !s.itsTurn job j || (s.placeOf j).isNone then s
          else (s.placeNext job).settleQueues)

/-! ## Stream commands (R283, R284, R288, R289) -/

/-- Handle in DSP_SEQ_SEL. -/
def State.seqSel (s : State) (fn : Nat) : Nat := bits (s.getReg fn 0x05 0x100).toNat 13 0

/-- Bytes of a stream's state. -/
def State.stateBytes (s : State) (fn h : Nat) : Nat := 64 * s.setLines fn (handleSet h)

/-- Whether a stream's park region can take it: it is set, and every page translates writable to device or host memory (R278, R289). -/
def State.parkOk (s : State) (fn h : Nat) : Bool :=
  let va := s.parkAddr fn h
  let n := s.stateBytes fn h
  s.parkVa fn (handleSet h) != 0 && (s.vaCheck fn va n .write).isNone &&
    (List.range (cdiv (va % 4096 + n) 4096)).all fun i => match s.translate fn (va / 4096 * 4096 + 4096 * i) .write with
      | .ok (t, _) => t != 1
      | .error _ => false

/-- Handles of a partition's set that are not CLOSED. -/
def State.openStreams (s : State) (fn set : Nat) : List (Nat × Stream) :=
  (s.streams.filter fun e => decide (e.1 / 16384 = fn) && handleSet (e.1 % 16384) == set && e.2.st != .closed).map
    fun e => (e.1 % 16384, e.2)

/-- The bytes of a stream's copy in a slot or in Reserve pages. -/
def State.streamCopy (s : State) (fn h : Nat) : List Byte :=
  let x := s.stream fn h
  match x.st, x.slot with
  | .store, some k => s.slotBytes fn h k
  | .resv, _ => s.pagesRead x.pages (s.stateBytes fn h)
  | _, _ => []

/-- OPEN. -/
def State.seqOpen (s : State) (fn h : Nat) : State × Status :=
  if (s.setDecl fn (handleSet h)).isNone then (s, .streamUnknown)
  else if (s.stream fn h).st ≠ .closed then (s, .streamRefused)
  else ((s.noteUndo fn h []).setStream fn h { st := .zero, idleSince := s.now }, .ok)

/-- States in which a stream rests: none of its bytes move and no call runs on it. -/
def StreamSt.rests : StreamSt → Bool
  | .zero | .store | .resv | .outer | .torn => true
  | _ => false

/-- CLOSE. -/
def State.seqClose (s : State) (fn h : Nat) : State × Status :=
  let x := s.stream fn h
  if x.st = .closed then (s, .streamUnknown)
  else if !x.st.rests || x.pend != 0 then (s, .streamRefused)
  else (((s.noteUndo fn h (s.streamCopy fn h)).freeCopies fn h).setStream fn h {}, .ok)

/-- PARK: to RESV, or to OUTER; it waits while calls are pending (R283). -/
def State.seqPark (s : State) (fn h : Nat) (outer : Bool) : State × Status :=
  let x := s.stream fn h
  if x.st = .closed then (s, .streamUnknown)
  else if x.st = .torn then (s, .streamRefused)
  else if outer && !s.parkOk fn h then (s, .accessDenied)
  else
    let s1 := s.setStream fn h { x with kheld := false }
    if x.pend ≠ 0 ∨ x.st = .busy ∨ x.st = .inn then (s1.setStream fn h { x with kheld := false, parkWait := some outer }, .ok)
    else if x.st = .store ∨ (x.st = .resv ∧ outer) then
      let s2 := s1.beginOut fn h outer
      (s2.setStream fn h { s2.stream fn h with byPark := true }, .ok)
    else (s1, .ok)

/-- UNPARK. -/
def State.seqUnpark (s : State) (fn h : Nat) : State × Status :=
  let x := s.stream fn h
  match x.st with
  | .closed => (s, .streamUnknown)
  | .zero | .resv | .outer => (s.setStream fn h { x with st := .inn, src := x.st }, .ok)
  | .store | .busy | .inn => (s, .ok)
  | _ => (s, .streamRefused)

/-- SRESET: the generation advances and the copies are freed (R271, R283). -/
def State.seqReset (s : State) (fn h : Nat) : State × Status :=
  let x := s.stream fn h
  if x.st = .closed then (s, .streamUnknown)
  else if !x.st.rests || x.pend != 0 then (s, .streamRefused)
  else
    let s1 := (s.noteUndo fn h (s.streamCopy fn h)).freeCopies fn h
    let s2 := s1.setStream fn h { s1.stream fn h with
      st := .zero, gen := nextGen x.gen, why := none, parkWait := none, idleSince := s.now }
    (s2.shadowStream fn h (List.replicate (s.stateBytes fn h) 0#8), .ok)

/-- The bytes of a resting stream's state, or why they cannot be read. -/
def State.streamBytes (s : State) (fn h : Nat) : Except Status (List Byte) :=
  let x := s.stream fn h
  let n := s.stateBytes fn h
  match x.st with
  | .store => match x.slot with
    | some k => if s.slotPoisoned fn h k then .error .eccUncorrectable else .ok (s.slotBytes fn h k)
    | none => .ok (List.replicate n 0#8)
  | .resv => if x.copyPoison then .error .eccUncorrectable else .ok (s.pagesRead x.pages n)
  | .outer => match s.vaBytes fn (s.parkAddr fn h) n (n / 4096 + 2) with
    | .ok b => .ok b
    | .error e => .error (readStatus e)
  | _ => .ok (List.replicate n 0#8)

/-- VA of the state image. -/
def State.imageVa (s : State) (fn : Nat) : Nat := s.va52 fn Fld.DSP_SEQ_VA_LO Fld.DSP_SEQ_VA_HI

/-- SSAVE: the state image goes to DSP_SEQ_VA (R284). -/
def State.seqSave (s : State) (fn h : Nat) : State × Status :=
  let x := s.stream fn h
  if x.st = .closed then (s, .streamUnknown)
  else if !x.st.rests || x.st == .torn || x.pend != 0 then (s, .streamRefused)
  else
    let s := match x.st, x.slot with
      | .store, some k => s.slotScan fn h k
      | _, _ => s
    match s.streamBytes fn h with
    | .error e => (s, e)
    | .ok b =>
      let head := leBytes 4 x.gen ++ leBytes 2 h ++ leBytes 2 (handleSet h) ++ leBytes 4 (s.setLines fn (handleSet h)) ++
        leBytes 52 0
      match s.vaWrite fn .dispatcher (s.imageVa fn) (head ++ b) with
      | (s1, .error e) => (s1, e.status)
      | (s1, .ok _) => (s1, .ok)

/-- SLOAD: the image goes into Reserve pages of the partition; the stream's generation advances (R284). -/
def State.seqLoad (s : State) (fn h : Nat) : State × Status :=
  let x := s.stream fn h
  let n := s.stateBytes fn h
  if x.st = .closed then (s, .streamUnknown)
  else if !x.st.rests || x.pend != 0 then (s, .streamRefused)
  else match s.vaRead fn .dispatcher (s.imageVa fn) (64 + n) with
    | (s1, .error e) => (s1, readStatus e)
    | (s1, .ok b) =>
      if leField b 6 2 ≠ handleSet h ∨ leField b 8 4 ≠ s.setLines fn (handleSet h) ∨ leField b 12 52 ≠ 0 then (s1, .seqMalformed)
      else match s1.allocMapped fn (cdiv n 4096) (s1.homeSlice fn) with
        | (s2, .error e) => (s2, e)
        | (s2, .ok ps) =>
          let s3 := ((s2.noteUndo fn h (s.streamCopy fn h)).freeCopies fn h).pagesWrite ps (b.drop 64)
          let s4 := s3.setStream fn h { s3.stream fn h with
            st := .resv, gen := nextGen x.gen, pages := ps, copyGen := nextGen x.gen, why := none, parkWait := none,
            idleSince := s.now }
          (s4.shadowStream fn h (b.drop 64), .ok)

/-- A write to DSP_SEQ_CMD. -/
def State.seqCmd (s : State) (fn v op : Nat) (f : State × Status) : State :=
  s.pageCmd fn 0x05 0x104 v op true .owned fn Fld.DSP_SEQ_CMD_STS_STATUS none f

/-- STREAM_OPEN (R283, R289). -/
def execStreamOpen (fn v : Nat) (s : State) : Out := .next (s.seqCmd fn v 1 (s.seqOpen fn (s.seqSel fn)))

/-- STREAM_CLOSE (R283). -/
def execStreamClose (fn v : Nat) (s : State) : Out := .next (s.seqCmd fn v 2 (s.seqClose fn (s.seqSel fn)))

/-- STREAM_PARK (R283). -/
def execStreamPark (fn v : Nat) (s : State) : Out := .next (s.seqCmd fn v 3 (s.seqPark fn (s.seqSel fn) (bit v 27)))

/-- STREAM_UNPARK (R283). -/
def execStreamUnpark (fn v : Nat) (s : State) : Out := .next (s.seqCmd fn v 4 (s.seqUnpark fn (s.seqSel fn)))

/-- STREAM_SRESET (R283). -/
def execStreamSreset (fn v : Nat) (s : State) : Out := .next (s.seqCmd fn v 5 (s.seqReset fn (s.seqSel fn)))

/-- STREAM_SSAVE (R284). -/
def execStreamSsave (fn v : Nat) (s : State) : Out := .next (s.seqCmd fn v 6 (s.seqSave fn (s.seqSel fn)))

/-- STREAM_SLOAD (R284). -/
def execStreamSload (fn v : Nat) (s : State) : Out := .next (s.seqCmd fn v 7 (s.seqLoad fn (s.seqSel fn)))

/-! ## Swapping (R278 to R283) -/

/-- STREAM_IDLE_S_EXPIRY: a STORE stream idle for IDLE_S µs begins its swap-out; a call taken in this tick or earlier wins, which is
counted, and the timer starts again (R279, R281). -/
def execStreamIdleSExpiry (fn h : Nat) (s : State) : Out :=
  let x := s.stream fn h
  let t := s.getF (setBank fn (handleSet h)) Fld.DSP_SEQ_IDLE_IDLE_S
  .next (
    if !s.dspOn || t = 0 || x.st != .store || x.kheld || decide (s.now < x.idleSince + 1000 * t) then s
    else if x.pend ≠ 0 then (s.setStream fn h { x with idleSince := s.now }).bump fn Fld.DSP_SEQ_SWCAN 1
    else s.beginOut fn h false)

/-- STREAM_IDLE_R_EXPIRY: a RESV stream idle for IDLE_R ms begins its move to OUTER (R279). -/
def execStreamIdleRExpiry (fn h : Nat) (s : State) : Out :=
  let x := s.stream fn h
  let t := s.getF (setBank fn (handleSet h)) Fld.DSP_SEQ_IDLE_IDLE_R
  .next (
    if !s.dspOn || t = 0 || x.st != .resv || x.kheld || x.pend != 0 || decide (s.now < x.idleSince + 1000000 * t) then s
    else s.beginOut fn h true)

/-- Put a stream's outward copy into its park region; where there is none, or it fails translation, the stream is TORN (R286). -/
def State.outToOuter (s : State) (fn h : Nat) : State :=
  let x := s.stream fn h
  if !s.parkOk fn h then s.tearStream fn h
  else match s.vaWrite fn .dispatcher (s.parkAddr fn h) x.copy with
    | (s1, .error _) => s1.tearStream fn h
    | (s1, .ok _) => (s1.releasePages x.pages).setStream fn h { x with st := .outer, slot := none, pages := [], copy := [] }

/-- Complete a swap-out: to Reserve pages, or to OUTER where the Reserve refuses (R279, R283). -/
def State.outDone (s : State) (fn h : Nat) : State :=
  let x := s.stream fn h
  if x.toOuter then s.outToOuter fn h
  else match s.allocMapped fn (cdiv (s.stateBytes fn h) 4096) (s.homeSlice fn) with
    | (s1, .error _) => s1.outToOuter fn h
    | (s1, .ok ps) => (s1.pagesWrite ps x.copy).setStream fn h { x with st := .resv, slot := none, pages := ps, copy := [] }

/-- STREAM_SWAP_OUT_DONE: an outward copy completes and its source is freed; a call taken meanwhile swaps it in again (R281, R283). -/
def execStreamSwapOutDone (fn h : Nat) (s : State) : Out :=
  let x := s.stream fn h
  .next (
    if x.st ≠ .out then s
    else
      let s1 := s.outDone fn h
      let y := s1.stream fn h
      if y.st = .torn then s1
      else
        let s2 := if x.src = .store then s1.bump fn Fld.DSP_SEQ_SWOUT 1 else s1
        if 0 < y.pend then s2.setStream fn h { y with st := .inn, src := y.st } else s2)

/-- The lowest slot of a set that no stream holds (R270; log entry 9). -/
def State.freeSlot (s : State) (fn set : Nat) : Option Nat :=
  let n := 32 * ((s.setDecl fn set).map SetDecl.slotBlk).getD 0
  let used := (s.openStreams fn set).filterMap fun e => e.2.slot
  (List.range n).find? fun k => !used.contains k

/-- The STORE stream of a set that pressure moves out: pending count 0, not K-held, idle longest (R279). -/
def State.pressed (s : State) (fn set : Nat) : Option Nat :=
  match (s.openStreams fn set).filter fun e => e.2.st == .store && e.2.pend == 0 && !e.2.kheld with
  | [] => none
  | e :: t => some (t.foldl (fun a b => if b.2.idleSince < a.2.idleSince then b else a) e).1

/-- A swap-in that fails leaves the stream TORN, with the status its waiting calls get (R281). -/
def State.tearIn (s : State) (fn h : Nat) (why : Status) : State :=
  let s1 := s.tearStream fn h
  s1.setStream fn h { s1.stream fn h with why := some why }

/-- The bytes that a swap-in reads, or why it fails (R280, R281). -/
def State.inBytes (s : State) (fn h : Nat) : Except Status (List Byte) :=
  let x := s.stream fn h
  let n := s.stateBytes fn h
  if x.src = .zero then .ok (List.replicate n 0#8)
  else if x.copyGen ≠ x.gen then .error .internalError
  else if x.copyPoison then .error .eccUncorrectable
  else if x.src = .resv then .ok (s.pagesRead x.pages n)
  else match s.vaBytes fn (s.parkAddr fn h) n (n / 4096 + 2) with
    | .ok b => .ok b
    | .error e => .error (readStatus e)

/-- STREAM_SWAP_IN_DONE: the copy is written to a slot and its source freed; with no slot free, pressure moves a stream out
(R270, R279 to R281, R283). -/
def execStreamSwapInDone (fn h : Nat) (s : State) : Out :=
  let x := s.stream fn h
  let set := handleSet h
  .next (
    if x.st ≠ .inn then s
    else match s.freeSlot fn set with
      | none => match s.pressed fn set with
        | some v => s.beginOut fn v false
        | none => s
      | some k => match s.inBytes fn h with
        | .error why => s.tearIn fn h why
        | .ok b =>
          let s1 := (s.slotWrite fn h k b).releasePages x.pages
          let s2 := (s1.setStream fn h { x with
            st := .store, slot := some k, pages := [], idleSince := s.now }).bump fn Fld.DSP_SEQ_SWIN 1
          s2.parkIfDue fn h)

end Sys2Proof.Machine
end

