-- ==== Sys2Proof/Machine/Att.lean ====
section
/-! DEFINITION. Attention calls (R298 to R304): taking an ATTEND or an APPEND, and the count that a group's page ring has consumed. -/

namespace Sys2Proof.Machine

/-- Whether an attention argument block is malformed for its AOP (R298, R300). -/
def attBlockBad (b : List Byte) : Bool :=
  let op := leField b 0 1
  let n := leField b 2 2
  let tq := leField b 4 2
  (op != 1 && op != 2) || leField b 1 1 / 2 != 0 || leField b 6 2 != 0 || (op == 1 && leField b 1 1 % 2 != 0) || n == 0 ||
    decide (256 < n) || tq == 0 || decide (4096 < tq)

/-- Take an attention call whose block has been read (R298, R300). -/
def State.attTake (s : State) (id : Nat) (j : Job) (ij : ImgJob) (arg : List Byte) : State :=
  let n := leField arg 2 2
  let tq := leField arg 4 2
  let app := leField arg 0 1 == 2
  let gen := leField arg 16 8
  if attBlockBad arg then s.notTaken id .attMalformed
  else match s.readTables j.fn (leField arg 8 8) n tq ij.att app with
    | (s1, .error st) => s1.notTaken id st
    | (s1, .ok ts) =>
      s1.markTaken id { j with arg := arg, tables := ts, genVa := gen, appends := app, append := tq }

/-- Take a call if its AOP is one of those that a command handles. -/
def State.attCall (s : State) (id op : Nat) : State :=
  match s.job id with
  | none => s
  | some j => match s.imgJob j with
    | none => s
    | some ij =>
      if !s.mayTake id 2 j then s
      else match s.readArg j with
        | (s1, .error e) => s1.notTaken id (readStatus e)
        | (s1, .ok b) => if leField b 0 1 = 3 - op then s else s1.attTake id j ij b

/-- ATT_ATTEND: a call with AOP ATTEND is taken and checked against its tables (R298, R300); a reserved AOP is malformed. -/
def execAttAttend (job : Nat) (s : State) : Out := .next (s.attCall job 1)

/-- ATT_APPEND: a call with AOP APPEND is taken and checked; its end advances GEN and NTOK (R298, R300, R302). -/
def execAttAppend (job : Nat) (s : State) : Out := .next (s.attCall job 2)

/-- PAGE_RING_CONSUMED: a group stores the count it has consumed, and the walk emits further pages (R304). A group's own instructions
that store to CONSUMED do the same. -/
def execPageRingConsumed (g count : Nat) (s : State) : Out :=
  .next (match s.group g with
    | none => s
    | some x =>
      let r := s.pageRing g
      (s.storeWrite x.square (x.base + r.consumedAt) (leBytes 4 count)).consume g x r)

end Sys2Proof.Machine
end

