-- ==== Sys2Proof/Machine/FusMath.lean ====
section
/-! DEFINITION. The Fusion engine's arithmetic: world detections, prediction, gates and updates (R392 to R394, R397, R401, R404).

The order of operations of every sum is open (log entry 67). A detection is nine FP32 codes: position, then covariance xx, xy, xz, yy, yz,
zz. A track's covariance is the upper triangle of 9 × 9, row by row (R391). -/

namespace Sys2Proof.Machine

/-- Half, as an FP32 code. -/
def fHalf : Nat := 0x3F000000

/-- Entry of a symmetric matrix of side `n` given by its upper triangle. -/
def triAt (n : Nat) (p : List Nat) (i j : Nat) : Nat :=
  let (r, c) := (min i j, max i j)
  p.getD (r * n - r * (r - 1) / 2 + (c - r)) 0

/-- Rows of a symmetric matrix, and its upper triangle. -/
def triRows (n : Nat) (p : List Nat) : List (List Nat) := (List.range n).map fun i => (List.range n).map fun j => triAt n p i j
def triOf (n : Nat) (m : List (List Nat)) : List Nat := (List.range n).flatMap fun i => (List.range (n - i)).map fun k => (m.getD i []).getD (i + k) 0

/-- A point through a transform: T + R(q) x, of a pose's translation and quaternion; and back. -/
def fPlace (site pose x : List Nat) : List Nat :=
  let r := fmtFp32.rot (0 :: site) (pose.drop 3)
  (List.range 3).map fun i => fmtFp32.sum (i :: 1 :: site) (.val (pose.getD i 0) :: List.zipWith .prod (r.getD i []) x)
def fUnplace (site pose x : List Nat) : List Nat :=
  fmtFp32.mulVec (1 :: site) (columnsOf 3 (fmtFp32.rot (0 :: site) (pose.drop 3))) (fmtFp32.vsub x (pose.take 3))

/-- Q R Qᵀ. -/
def fTurnCov (site : List Nat) (n : Nat) (q r : List (List Nat)) : List (List Nat) :=
  if Config.formOf site % 2 = 0 then fmtFp32.mulMat (2 :: site) n (fmtFp32.mulMat (3 :: site) n q r) (columnsOf n q)
  else fmtFp32.mulMat (2 :: site) n q (fmtFp32.mulMat (3 :: site) n r (columnsOf n q))

/-- World detection of an extrinsic, a body pose and a sensor detection: the position, and Rw = Q R Qᵀ with Q the rotation from sensor to
world (R392). -/
def fusWorld (ext body det : List Nat) : List Nat :=
  let q := fmtFp32.mulMat [30] 3 (fmtFp32.rot [31] (body.drop 3)) (fmtFp32.rot [32] (ext.drop 3))
  fPlace [33] body (fPlace [34] ext (det.take 3)) ++ triOf 3 (fTurnCov [35] 3 q (triRows 3 (det.drop 3)))

/-- A time in ns as seconds. -/
def fSeconds (ns : Nat) : Nat :=
  if Config.formOf [36] % 2 = 0 then fmtFp32.ratio ns 1000000000 else fmtFp32.mul (fmtFp32.ofInt ns) (fmtFp32.ratio 1 1000000000)

/-- Transition of a model over Δt: constant velocity, or constant acceleration (R391, R394). -/
def fTransition (model dt : Nat) : List (List Nat) :=
  let h := fmtFp32.mul fHalf (fmtFp32.mul dt dt)
  (List.range 9).map fun i => (List.range 9).map fun j =>
    if i = j then (if 6 ≤ i ∧ model = 0 then 0 else fmtFp32.one)
    else if j = i + 3 then (if 3 ≤ i ∧ model = 0 then 0 else dt)
    else if j = i + 6 ∧ model = 1 then h
    else 0

/-- State and covariance predicted between two times: X' = F X and P' = F P Fᵀ + Q, with Q from QPROC (R392, R394). -/
def fusPredict (model qproc : Nat) (x p : List Nat) (t0 t1 : Nat) : List Nat × List Nat :=
  let dt := fSeconds (t1 - t0)
  let f := fTransition model dt
  let q := (List.range 9).map fun i => (List.range 9).map fun j => Config.fusNoise model qproc dt (min i j) (max i j)
  (fmtFp32.mulVec [37] f x, triOf 9 (fmtFp32.addMat (fTurnCov [38] 9 f (triRows 9 p)) q))

/-- The inverse of a symmetric 3 × 3 matrix: by its adjugate, or by a Cholesky factor. -/
def fInv3 (site : List Nat) (m : List (List Nat)) : List (List Nat) :=
  let f := fmtFp32
  let e := fun i j => (m.getD (i % 3) []).getD (j % 3) 0
  let viaChol := match f.chol (0 :: site) 0 m [] with
    | .ok l => if Config.formOf site % 2 = 1 then
        some (columnsOf 3 ((List.range 3).map fun k =>
          f.cholSolve (k :: 1 :: site) l ((List.range 3).map fun i => if i = k then f.one else 0)))
      else none
    | .error _ => none
  match viaChol with
  | some inv => inv
  | none =>
    let cof := fun i j => f.sum (i :: j :: site) [.prod (e (i + 1) (j + 1)) (e (i + 2) (j + 2)),
      .prod (f.neg (e (i + 1) (j + 2))) (e (i + 2) (j + 1))]
    let det := f.dot (2 :: site) (m.getD 0 []) ((List.range 3).map fun j => cof 0 j)
    (List.range 3).map fun i => (List.range 3).map fun j => f.div (cof j i) det

/-- νᵀ S⁻¹ ν. -/
def fMaha (site nu : List Nat) (s : List (List Nat)) : Nat :=
  fmtFp32.dot (5 :: site) nu (fmtFp32.mulVec (6 :: site) (fInv3 (7 :: site) s) nu)

/-- S = H P Hᵀ + Rw, with H the selection of position (R393). -/
def fInnov (p z : List Nat) : List (List Nat) :=
  fmtFp32.addMat ((List.range 3).map fun i => (List.range 3).map fun j => triAt 9 p i j) (triRows 3 (z.drop 3))

/-- d² of a world detection against a predicted state (R393). -/
def fusD2 (x p z : List Nat) : Nat := fMaha [40] (fmtFp32.vsub (z.take 3) (x.take 3)) (fInnov p z)

/-- d² of two world detections (R397). -/
def fusMutual (zi zj : List Nat) : Nat :=
  fMaha [41] (fmtFp32.vsub (zi.take 3) (zj.take 3)) (fmtFp32.addMat (triRows 3 (zi.drop 3)) (triRows 3 (zj.drop 3)))

/-- State and covariance after the filter's update with a world detection: K = P Hᵀ S⁻¹, X + K ν, and P by one of the forms
(I − K H) P, P − K S Kᵀ and (I − K H) P (I − K H)ᵀ + K Rw Kᵀ, which agree exactly (R394). -/
def fusUpdate (x p z : List Nat) : List Nat × List Nat :=
  let f := fmtFp32
  let pm := triRows 9 p
  let s := fInnov p z
  let ph := pm.map fun r => r.take 3
  let k := f.mulMat [42] 3 ph (fInv3 [43] s)
  let nu := f.vsub (z.take 3) (x.take 3)
  let x1 := (List.range 9).map fun i => f.sum [44, i] (.val (x.getD i 0) :: List.zipWith .prod (k.getD i []) nu)
  let ikh := (List.range 9).map fun i => (List.range 9).map fun j =>
    let u := if i = j then f.one else 0
    if j < 3 then f.sub u ((k.getD i []).getD j 0) else u
  let kt := columnsOf 3 k
  let p1 := match Config.formOf [45] % 3 with
    | 0 => f.mulMat [46] 9 ikh pm
    | 1 => List.zipWith (fun a b => f.vsub a b) pm (f.mulMat [47] 9 (f.mulMat [48] 3 k s) kt)
    | _ => f.addMat (f.mulMat [49] 9 (f.mulMat [50] 9 ikh pm) (columnsOf 9 ikh)) (f.mulMat [51] 9 (f.mulMat [52] 3 k (triRows 3 (z.drop 3))) kt)
  (x1, triOf 9 p1)

/-- The rotation from EXT to an extrinsic, the norm of its vector part, and the shift. -/
def fusTurn (ext0 ext : List Nat) : List Nat := fmtFp32.qmul [53] (fmtFp32.qconj (ext0.drop 3)) (ext.drop 3)
def fusShift (ext0 ext : List Nat) : List Nat := fmtFp32.vsub (ext.take 3) (ext0.take 3)

/-- Whether a unit quaternion turns by at most an angle c of radians: from π on every one does; below, ‖v‖ cos(c/2) ≤ |w| sin(c/2). -/
def fusTurnsIn (q : List Nat) (c : Nat) : Bool :=
  let f := fmtFp32
  let h := f.mul c fHalf
  f.le 0x40490FDB c ||
    f.le (f.mul (f.norm [53, 1] (q.drop 1)) (Config.fusTrig 0 h)) (f.mul (f.abs (q.getD 0 0)) (Config.fusTrig 1 h))

/-- Whether an extrinsic lies within CALMAX of EXT: the angle between the rotations, and the distance of the translations (R384,
R401). -/
def fusWithin (ext0 ext calmax : List Nat) : Bool :=
  fusTurnsIn (fusTurn ext0 ext) (calmax.getD 0 0) && fmtFp32.le (fmtFp32.norm [54] (fusShift ext0 ext)) (calmax.getD 1 0)

/-- An extrinsic clamped to CALMAX: where the rotation or the shift departs further, its part at CALMAX along the same axis or line
(R401; log entry 27). -/
def fusClamp (ext0 ext calmax : List Nat) : List Nat :=
  let f := fmtFp32
  let (ca, ct) := (calmax.getD 0 0, calmax.getD 1 0)
  let q := fusTurn ext0 ext
  let d := fusShift ext0 ext
  let nt := f.norm [54] d
  let t := if f.le nt ct then ext.take 3 else f.vadd (ext0.take 3) (d.map fun x => f.div (f.mul x ct) nt)
  let h := f.mul ca fHalf
  let nv := f.norm [53, 1] (q.drop 1)
  let sg := if f.lt (q.getD 0 0) 0 then f.neg else id
  let cut := Config.fusTrig 0 h :: (q.drop 1).map fun x => sg (f.div (f.mul x (Config.fusTrig 1 h)) nv)
  t ++ if fusTurnsIn q ca then ext.drop 3 else f.qmul [53, 2] (ext0.drop 3) cut

/-- The calibration filter's covariance after Δt: process noise CALQ × Δt on the rotation and on the translation (R401). -/
def fusDrift (calq cov : List Nat) (dt : Nat) : List Nat :=
  triOf 6 ((List.range 6).map fun i => (List.range 6).map fun j =>
    let c := triAt 6 cov i j
    if i = j then fmtFp32.add c (fmtFp32.mul (calq.getD (if i < 3 then 0 else 1) 0) dt) else c)

/-- The 6-state error filter takes one residual: a detection, the track's position in the body frame by the other sources, and σ. With
the residual ν = position − (T + R(q) detection) and its 3 × 6 Jacobian H by the error state: K = P Hᵀ (H P Hᵀ + σ² I)⁻¹, the error K ν is
put into the extrinsic, and P follows by one of two forms that agree exactly. The manual names the filter and not its
parametrization: H and how a rotation error enters the quaternion are open (R401; log entry 27). -/
def fusRefine (a : List Nat × List Nat) (r : List Nat) : List Nat × List Nat :=
  let f := fmtFp32
  let (ext, pm) := (a.1, triRows 6 a.2)
  let h := (List.range 3).map fun i => (List.range 6).map fun j => Config.fusJac ext r i j
  let ph := f.mulMat [60] 3 pm (columnsOf 6 h)
  let v := f.mul (r.getD 6 0) (r.getD 6 0)
  let s := f.addMat (f.mulMat [61] 3 h ph) ((List.range 3).map fun i => (List.range 3).map fun j => if i = j then v else 0)
  let k := f.mulMat [62] 3 ph (fInv3 [63] s)
  let e := f.mulVec [64] k (f.vsub ((r.drop 3).take 3) (fPlace [65] ext (r.take 3)))
  let p := if Config.formOf [66] % 2 = 0 then
      let ikh := List.zipWith (fun (x : List Nat) (i : Nat) => x.zipIdx.map fun (c : Nat × Nat) => f.sub (if i = c.2 then f.one else 0) c.1)
        (f.mulMat [67] 6 k h) (List.range 6)
      f.mulMat [68] 6 ikh pm
    else List.zipWith (fun x y => f.vsub x y) pm (f.mulMat [69] 6 (f.mulMat [70] 3 k s) (columnsOf 3 k))
  (f.vadd (ext.take 3) (e.drop 3) ++ (List.range 4).map fun i => Config.fusSpin (ext.drop 3) (e.take 3) i, triOf 6 p)

/-- Where the ray of pixel (u, v) ends at a range along the optical axis, in the world frame; and where it starts (R404). -/
def fusRayEnd (ext body intr : List Nat) (u v range : Nat) : List Nat :=
  let f := fmtFp32
  let half := if Config.formOf [55] % 2 = 0 then fHalf else 0
  let side := fun (i pix : Nat) =>
    let d := f.sub (f.add (f.ofInt pix) half) (intr.getD (2 + i) 0)
    if Config.formOf [56] % 2 = 0 then f.mul (f.div d (intr.getD i 0)) range else f.div (f.mul d range) (intr.getD i 0)
  fPlace [57] body (fPlace [58] ext [side 0 u, side 1 v, range])
def fusRayStart (ext body : List Nat) : List Nat := fPlace [57] body (ext.take 3)

end Sys2Proof.Machine
end

