-- ==== Sys2Proof/Machine/EngRing.lean ====
section
/-! DEFINITION. What the Edge engine, Knight and the Solver engine share (R334, R336, R427, R465): a descriptor ring per function, two
contexts, the doorbell, taking, finishing, residue mismatches and the state table's actions. -/

namespace Sys2Proof.Machine

/-- Register bank of a capture channel (R373) and of a Fusion source (R411). -/
def vcBank (v : Nat) : Nat := 400 + v
def srcBank (n : Nat) : Nat := 500 + n

/-- A ring engine: its page, the offset of its RING_LO register, descriptor bytes, and its RING_ERR, ERROR and DONE interrupts. -/
structure RingEng where
  page : Nat
  reg : Nat
  size : Nat
  irqRing : Nat
  irqErr : Nat
  irqDone : Nat
  deriving DecidableEq, Repr

/-- The three ring engines. -/
def edgeR : RingEng := { page := 0x0F, reg := 0x040, size := 64, irqRing := 3, irqErr := 1, irqDone := 0 }
def knightR : RingEng := { page := 0x0B, reg := 0x06C, size := 128, irqRing := 3, irqErr := 2, irqDone := 1 }
def solverR : RingEng := { page := 0x0C, reg := 0x040, size := 128, irqRing := 2, irqErr := 1, irqDone := 0 }

/-- Registers of a ring: CFG, TAIL, HEAD and DONE follow the two halves of its VA. -/
def RingEng.cfg (e : RingEng) (hi lo : Nat) : Fld := { page := e.page, off := e.reg + 8, hi := hi, lo := lo }
def RingEng.tail (e : RingEng) : Fld := { page := e.page, off := e.reg + 0xC, hi := 31, lo := 0 }
def RingEng.head (e : RingEng) : Fld := { page := e.page, off := e.reg + 0x10, hi := 31, lo := 0 }
def RingEng.done (e : RingEng) : Fld := { page := e.page, off := e.reg + 0x14, hi := 31, lo := 0 }

/-- The shared state of an engine, by its page. -/
def State.engSt (s : State) (e : RingEng) : EngSt :=
  if e.page = 0x0F then s.edge.eng else if e.page = 0x0B then s.knight.eng else s.solver.eng

/-- Replace the shared state of an engine. -/
def State.setEngSt (s : State) (e : RingEng) (x : EngSt) : State :=
  if e.page = 0x0F then { s with edge := { s.edge with eng := x } }
  else if e.page = 0x0B then { s with knight := { s.knight with eng := x } }
  else { s with solver := { s.solver with eng := x } }

/-- The task of a context. -/
def State.task (s : State) (e : RingEng) (ctx : Nat) : Option Task := ((s.engSt e).tasks.find? fun t => t.1 == ctx).map (·.2)

/-- Replace the task of a context. -/
def State.setTask (s : State) (e : RingEng) (ctx : Nat) (t : Task) : State :=
  s.setEngSt e { s.engSt e with tasks := assocInsert ctx t (s.engSt e).tasks }

/-- Free a context. -/
def State.dropTask (s : State) (e : RingEng) (ctx : Nat) : State :=
  s.setEngSt e { s.engSt e with tasks := assocErase ctx (s.engSt e).tasks }

/-- Ring VA of a function. -/
def State.engVa (s : State) (e : RingEng) (fn : Nat) : Nat :=
  bits (s.getReg fn e.page e.reg).toNat 31 6 * 64 + (s.getReg fn e.page (e.reg + 4)).toNat % 2 ^ 20 * 2 ^ 32

/-- Accepted tails of a function's ring. -/
def State.engStamps (s : State) (e : RingEng) (fn : Nat) : List (Nat × Nat) := assocGet [] (s.engSt e).stamps fn

/-- A write to a ring's TAIL (R233, R334). -/
def State.engTail (s : State) (e : RingEng) (fn v : Nat) : State :=
  s.gated fn e.page e.tail.off (
    let h := s.getF fn e.head
    let t := v % 2 ^ 32
    if !s.flag fn (e.cfg 31 31) then s.dropDb fn
    else if sub32 t h ≤ sub32 (s.getF fn e.tail) h then s.dropDb fn
    else if sub32 t h ≤ 2 ^ s.getF fn (e.cfg 3 0) then
      let x := s.engSt e
      (s.setF fn e.tail t).setEngSt e { x with stamps := assocSet [] x.stamps fn ((t, s.now) :: s.engStamps e fn) }
    else ((s.recErr e.page fn .doorbellInvalid e.tail.off).raiseIrq e.page fn e.irqRing).dropDb fn)

/-- Whether a function's ring has a descriptor to take. -/
def State.ringReady (s : State) (e : RingEng) (fn : Nat) : Bool := s.flag fn (e.cfg 31 31) && s.getF fn e.head != s.getF fn e.tail

/-- Context of a class (R328). -/
def ctxOf (cls : Nat) : Nat := if cls = 2 then 0 else 1

/-- Whether an engine takes descriptors: ON, and not while a compute reset runs (R338). -/
def State.engTakes (s : State) (e : RingEng) : Bool :=
  s.pageSt e.page == stOn && (match s.rst.run with
    | some (true, _) => false
    | _ => true)

/-- Rings with a descriptor to take, with their classes; Fusion's calibration problem is one further ring of the Solver engine, of
Class P and after every function's (R467). -/
def State.readyRings (s : State) (e : RingEng) : List (Nat × Nat) :=
  (((List.range 64).filter (s.ringReady e)).map fun f => (f, s.getF f (e.cfg 5 4))) ++
    (if e.page = 0x0C ∧ s.solver.cal then [(64, 0)] else [])

/-- Whether a ring of a class goes before every other of its context: of the Class K rings the one with the oldest accepted tail, of
the others the one whose turn in the round robin it is (R27, R334; log entry 10). -/
def State.ringTurn (s : State) (e : RingEng) (fn cls : Nat) : Bool :=
  let age := fun f => stampOf (s.engStamps e f) (s.getF f e.head)
  let key := fun f c => (s.engSt e).turns.key c f
  (s.readyRings e).all fun r => r.1 == fn || ctxOf r.2 != ctxOf cls ||
    (if cls = 2 then decide (age fn ≤ age r.1) else decide (key fn cls ≤ key r.1 r.2))

/-- Whether a function's ring is served next: its context is free, and it is the ring's turn (R334). -/
def State.ringServed (s : State) (e : RingEng) (fn : Nat) : Bool :=
  let cls := s.getF fn (e.cfg 5 4)
  s.engTakes e && s.ringReady e fn && (s.task e (ctxOf cls)).isNone && s.ringTurn e fn cls

/-- A context's turn to run a segment: when context 0 has one ready, it runs next, and context 1 ends at most the one under way
(R334). -/
def State.ctxMay (s : State) (e : RingEng) (ctx : Nat) (ready0 : Bool) : Bool := ctx == 0 || !ready0 || !(s.engSt e).late

/-- A context has run a segment. -/
def State.ctxRan (s : State) (e : RingEng) (ctx : Nat) (ready0 : Bool) : State :=
  s.setEngSt e { s.engSt e with late := ctx != 0 && ready0 }

/-- A ring has been served: the round robin goes on, and a descriptor new in context 0 waits for the segment under way. -/
def State.ringTaken (s : State) (e : RingEng) (fn cls : Nat) : State :=
  let x := s.engSt e
  s.setEngSt e (if cls = 2 then { x with late := false } else { x with turns := x.turns.serve cls fn })

/-- The descriptor at the head of a function's ring. -/
def State.ringDesc (s : State) (e : RingEng) (fn : Nat) : State × Nat × Except VaErr (List Byte) :=
  let va := s.engVa e fn + e.size * (s.getF fn e.head % 2 ^ s.getF fn (e.cfg 3 0))
  let r := s.vaRead fn .engine va e.size
  (r.1, va, r.2)

/-- Take the descriptor: the head advances, and it becomes the task of its context. -/
def State.takeTask (s : State) (e : RingEng) (fn va : Nat) (b : List Byte) : State :=
  let cls := s.getF fn (e.cfg 5 4)
  let h := add32 (s.getF fn e.head) 1
  let x := s.engSt e
  let st := (s.engStamps e fn).filter fun t => decide (0 < sub32 t.1 h) && decide (sub32 t.1 h < 2 ^ 31)
  let s1 := ((s.setF fn e.head h).setEngSt e { x with stamps := assocSet [] x.stamps fn st }).ringTaken e fn cls
  s1.setTask e (ctxOf cls) { fn := fn, va := va, desc := b, cls := cls, started := s.ticks }

/-- Finish a task: DONE advances, the interrupts are raised, and a success with NEXT rings its doorbell (R336). -/
def State.finishTask (s : State) (e : RingEng) (ctx : Nat) (t : Task) (st : Status) (next : Option Nat) : State :=
  let s1 := (s.dropTask e ctx).setF t.fn e.done (add32 (s.getF t.fn e.done) 1)
  let s2 := s1.raiseIrq e.page t.fn e.irqDone
  if st.isSuccess then match next with
    | some q => s2.internalDb t.fn q
    | none => s2
  else s2.raiseIrq e.page t.fn e.irqErr

/-- Charge a context for the engine's time since it last did work (R432; log entry 22). -/
def State.chargeTask (s : State) (e : RingEng) (ctx : Nat) : State :=
  match s.task e ctx with
  | none => s
  | some t =>
    let d := s.ticks - Nat.max (s.engSt e).lastAt t.started
    let s1 := s.setTask e ctx { t with used := t.used + d }
    s1.setEngSt e { s1.engSt e with lastAt := s.ticks }

/-- Ask every running task to stop at its next boundary. -/
def State.stopTasks (s : State) (e : RingEng) (st : Status) : State :=
  let x := s.engSt e
  s.setEngSt e { x with tasks := x.tasks.map fun t => (t.1, { t.2 with stop := t.2.stop.orElse fun _ => some st }) }

/-- Residue mismatches of the last second (R337). -/
def State.noteMism (s : State) (e : RingEng) (f : Fld) : State :=
  let x := s.engSt e
  (s.bump 0 f 1).setEngSt e { x with mism := s.ticks :: x.mism.filter fun t => decide (s.ticks < t + 250000000) }

/-- Whether three mismatches fell within the last second. -/
def State.thirdMism (s : State) (e : RingEng) : Bool :=
  decide (3 ≤ ((s.engSt e).mism.filter fun t => decide (s.ticks < t + 250000000)).length)

/-- A function level reset or the release of a partition: its running task goes without output, and EN is cleared (R338). -/
def State.engRelease (s : State) (e : RingEng) (fn : Nat) : State :=
  let x := s.engSt e
  (s.setEngSt e { x with
    tasks := x.tasks.filter (fun t => t.2.fn != fn), stamps := assocErase fn x.stamps }).setF fn (e.cfg 31 31) 0

/-- CTL of a ring engine's page: the owner's (R337, R442, R470). -/
def State.engCtl (s : State) (e : RingEng) (fn : Nat) (f : State) : State := s.ctlWrite fn e.page (s.isOwner fn) .owned f

/-- Whether a run of bytes translates for an access, over its whole extent. -/
def State.extentOk (s : State) (fn va n : Nat) (acc : Acc) : Bool := n == 0 || (s.vaCheck fn va n acc).isNone

/-- Read a run of bytes as an engine does; none where it is poisoned or fails translation. -/
def State.engRead (s : State) (fn va n : Nat) : Except Status (List Byte) :=
  match s.vaBytes fn va n (n / 4096 + 2) with
  | .ok b => .ok b
  | .error e => .error (readStatus e)

/-- Whether any page of a run lies in a tier. -/
def State.runInTier (s : State) (fn va n tier : Nat) : Bool :=
  (List.range (cdiv (va % 4096 + n) 4096)).any fun i => match s.translate fn (va / 4096 * 4096 + 4096 * i) .read with
    | .ok (t, _) => t == tier
    | .error _ => false

end Sys2Proof.Machine
end

