-- ==== Sys2Proof/Machine/KnightMap.lean ====
section
/-! DEFINITION. Knight's map, clearance field, libraries and sphere tests (R414 to R426). -/

namespace Sys2Proof.Machine

/-! ## The map (R416 to R419) -/

/-- Voxels of the map in each direction. -/
def State.mapDims (s : State) : Nat × Nat × Nat :=
  let c := s.knight.geom.1
  (32 * bits c 3 0, 32 * bits c 7 4, 16 * bits c 11 8)

/-- Key of a voxel in the occupancy tables. -/
def voxKey (x y z : Nat) : Nat := z * 65536 + y * 256 + x

/-- Region of a voxel (R417). -/
def voxRegion (x y z : Nat) : Nat := z / 16 * 64 + y / 32 * 8 + x / 32

/-- Region of a voxel's key. -/
def keyRegion (k : Nat) : Nat := voxRegion (k % 256) (k / 256 % 256) (k / 65536)

/-- Whether a place is an obstacle under occupancy codes and UNKOBS (R418). -/
def obstacle (dims : Nat × Nat × Nat) (occ : List (Nat × Nat)) (unk : Bool) (x y z : Int) : Bool :=
  if x < 0 ∨ y < 0 ∨ z < 0 ∨ (dims.1 : Int) ≤ x ∨ (dims.2.1 : Int) ≤ y ∨ (dims.2.2 : Int) ≤ z then true
  else
    let c := assocGet 0 occ (voxKey x.toNat y.toNat z.toNat)
    c == 2 || (c == 0 && unk)

/-- Largest k up to `n` with k² ≤ `m`. -/
def sqrtUpTo (m : Nat) : Nat → Nat
  | 0 => 0
  | n + 1 => if (n + 1) * (n + 1) ≤ m then n + 1 else sqrtUpTo m n

/-- Clearance of a voxel: the distance to the nearest obstacle voxel in whole voxels, up to 15 (R418). -/
def clearance (dims : Nat × Nat × Nat) (occ : List (Nat × Nat)) (unk : Bool) (x y z : Nat) : Nat :=
  let d := (List.range 31).foldl (fun (m i : Nat) => (List.range 31).foldl (fun (m j : Nat) => (List.range 31).foldl (fun (m k : Nat) =>
    let (dx, dy, dz) := ((i : Int) - 15, (j : Int) - 15, (k : Int) - 15)
    let q := (dx * dx + dy * dy + dz * dz).toNat
    if q < m ∧ obstacle dims occ unk (x + dx) (y + dy) (z + dz) then q else m) m) m) 225
  sqrtUpTo d 15

/-- Clearance that a sphere test reads: while an update runs, the old or the new value (R419). -/
def State.clrRead (s : State) (seed x y z : Nat) : Nat :=
  let k := s.knight
  let old := clearance s.mapDims k.clrOcc k.clrUnk x y z
  if k.update.isNone then old
  else if Config.free (s.free + seed) 1 = 0#1 then old
  else clearance s.mapDims k.occ (s.flag 0 Fld.KNT_MAP_CFG_UNKOBS) x y z

/-- Version of a region. -/
def State.kVer (s : State) (r : Nat) : Nat := assocGet 0 s.knight.vers r

/-- Add one to the versions of regions, in one cycle (R405, R419). -/
def State.bumpVers (s : State) (rs : List Nat) : State :=
  let s1 := { s with knight := { s.knight with
    vers := rs.foldl (fun v r => assocSet 0 v r (add32 (assocGet 0 v r) 1)) s.knight.vers } }
  match s.ownerFn with
  | some o => if rs.isEmpty then s1 else s1.raiseIrq 0x0B o 0
  | none => s1

/-- All regions. -/
def allRegions : List Nat := List.range 512

/-- Begin a clearance update after a write set, for the regions in which codes changed. -/
def State.clrBegin (s : State) (rs : List Nat) : State :=
  { s with knight := { s.knight with update := some (s.knight.update.getD [] ++ rs) } }

/-- Regions in which a clearance value changes although no code there did (R419). -/
def State.clrChanged (s : State) (rs : List Nat) : List Nat :=
  let k := s.knight
  let unk := s.flag 0 Fld.KNT_MAP_CFG_UNKOBS
  let d := s.mapDims
  allRegions.filter fun r => !rs.contains r && (List.range 16384).any fun i =>
    let (x, y, z) := (r % 8 * 32 + i % 32, r / 8 % 8 * 32 + i / 32 % 32, r / 64 * 16 + i / 1024)
    decide (x < d.1) && decide (y < d.2.1) && decide (z < d.2.2) &&
      clearance d k.clrOcc k.clrUnk x y z != clearance d k.occ unk x y z

/-! ## Libraries (R425) -/

/-- A signed little-endian field. -/
def sField (b : List Byte) (off k : Nat) : Int := toSigned (8 * k) (leField b off k)

/-- Fields of a library's header. -/
def libNJ (b : List Byte) : Nat := leField b 2 1
def libNVC (b : List Byte) : Nat := leField b 3 1
def libNSPH (b : List Byte) : Nat := leField b 4 2
def libNPRIM (b : List Byte) : Nat := leField b 6 2
def libJ (b : List Byte) (j : Nat) : Nat := leField b 12 4 + 64 * j
def libS (b : List Byte) (i : Nat) : Nat := leField b 16 4 + 32 * i
def libP (b : List Byte) (p : Nat) : Nat := leField b 20 4 + 32 * p

/-- Joint limits and heuristic cost. -/
def jLo (b : List Byte) (j : Nat) : Int := sField b (libJ b j + 48) 2
def jHi (b : List Byte) (j : Nat) : Int := sField b (libJ b j + 50) 2
def jHw (b : List Byte) (j : Nat) : Nat := leField b (libJ b j + 52) 4

/-- Fields of a primitive. -/
def pStart (b : List Byte) (p : Nat) : Nat := leField b (libP b p) 1 % 16
def pEnd (b : List Byte) (p : Nat) : Nat := leField b (libP b p) 1 / 16
def pNsamp (b : List Byte) (p : Nat) : Nat := leField b (libP b p + 1) 1
def pDelta (b : List Byte) (p j : Nat) : Int := sField b (libP b p + 2 + j) 1
def pCost (b : List Byte) (p : Nat) : Nat := leField b (libP b p + 16) 4
def pDur (b : List Byte) (p : Nat) : Nat := leField b (libP b p + 20) 4
def pSamp (b : List Byte) (p : Nat) : Nat := leField b (libP b p + 24) 4

/-- Samples of a primitive: joint offsets in units of STEP / 256. -/
def pSamples (b : List Byte) (p : Nat) : List (List Int) :=
  (List.range (pNsamp b p)).map fun i => (List.range (libNJ b)).map fun j => sField b (pSamp b p + (i * libNJ b + j) * 2) 2

/-- Brake table entry `i` of a class; none for 0xFFFF. -/
def libBrake (b : List Byte) (v i : Nat) : Option Nat :=
  let p := leField b (leField b 24 4 + (v * 4 + i) * 2) 2
  if p = 0xFFFF then none else some p

/-- Whether a table of `n` entries of `k` bytes at an offset lies in the library. -/
def libFits (b : List Byte) (off n k : Nat) : Bool := decide (off + n * k ≤ b.length)

/-- The checks of R425 on a library's bytes. -/
def libOk (b : List Byte) : Bool :=
  let within := fun lo hi v => decide (lo ≤ v) && decide (v ≤ hi)
  let zero := fun off n => (List.range n).all fun i => leField b (off + i) 1 == 0
  decide (64 ≤ b.length) && leField b 0 2 == 1 && within 1 12 (libNJ b) && within 1 16 (libNVC b) && within 1 256 (libNSPH b) &&
  within 1 4096 (libNPRIM b) && leField b 8 4 == b.length && within 64 245760 b.length && zero 28 36 &&
  libFits b (leField b 12 4) (libNJ b) 64 && libFits b (leField b 16 4) (libNSPH b) 32 &&
  libFits b (leField b 20 4) (libNPRIM b) 32 && libFits b (leField b 24 4) (libNVC b * 4) 2 &&
  ((List.range (libNJ b)).all fun j => decide (leField b (libJ b j) 1 ≤ 1) && zero (libJ b j + 1) 3 && zero (libJ b j + 56) 8) &&
  ((List.range (libNSPH b)).all fun i => decide (leField b (libS b i) 1 ≤ libNJ b) && decide (leField b (libS b i + 1) 1 ≤ 1) &&
    zero (libS b i + 2) 2 && zero (libS b i + 20) 12) &&
  ((List.range (libNPRIM b)).all fun p => decide (pStart b p < libNVC b) && decide (pEnd b p < libNVC b) &&
    within 1 32 (pNsamp b p) && zero (libP b p + 14) 2 && decide (0 < pCost b p) && zero (libP b p + 28) 4 &&
    libFits b (pSamp b p) (pNsamp b p * libNJ b) 2) &&
  ((List.range (libNVC b * 4)).all fun i => match libBrake b 0 i with
    | some p => decide (p < libNPRIM b)
    | none => true)

/-- Largest whole number at or below a quotient of finite values, the divisor above 0. -/
def floorQuot : FVal → FVal → Option Int
  | .fin s1 m1 e1, .fin s2 m2 e2 =>
    if m2 = 0 ∨ s2 then none
    else
      let q := min e1 e2
      some ((FVal.scaled s1 m1 e1 q) / (FVal.scaled false m2 e2 q))
  | _, _ => none

/-- RAD of a library sphere: ⌈16 r / VOX⌉ (R420); a radius that is no finite number has none. -/
def State.sphereRad (s : State) (b : List Byte) (i : Nat) : Option Int :=
  (floorQuot (FVal.neg (FVal.scale 4 (fpVal (leField b (libS b i + 4) 4)))) (fpVal s.knight.geom.2.1)).map fun q => -q

/-- Whether every sphere's RAD stays within the limit with a margin (R420). -/
def State.radsOk (s : State) (b : List Byte) (margin : Nat) : Bool :=
  (List.range (libNSPH b)).all fun i => match s.sphereRad b i with
    | some r => decide (r + margin ≤ 211)
    | none => false

/-- Whether a sphere carries FLAGS.BASE. -/
def sphereBase (b : List Byte) (i : Nat) : Bool := leField b (libS b i + 1) 1 % 2 == 1

/-- Whether every BASE sphere has its centre on the base axis (R424). -/
def libOnAxis (b : List Byte) : Bool :=
  (List.range (libNSPH b)).all fun i => !sphereBase b i ||
    ((fpVal (leField b (libS b i + 8) 4)).isZero && (fpVal (leField b (libS b i + 12) 4)).isZero)

/-! ## Queries (R428) -/

/-- A query descriptor. -/
structure KQuery where
  op : Nat
  next : Bool
  watch : Bool
  reload : Bool
  mode : Nat
  margin : Nat
  vstart : Nat
  vgoal : Nat
  budget : Nat
  maxStates : Nat
  bw : Nat
  nextq : Nat
  lib : Nat
  out : Nat
  scr : Nat
  t0 : Nat
  start : List Int
  goal : List Int
  gtol : List Nat
  outMax : Nat
  base : List Nat
  deriving DecidableEq, Repr

/-- Number of indices of a state: the library's joints, or the cell. -/
def kIdx (mode nj : Nat) : Nat := if mode = 0 then nj else 2

/-- Parse a query; all twelve entries of its lists. -/
def parseQuery (b : List Byte) : KQuery :=
  let f := leField b 1 1
  { op := leField b 0 1, next := bit f 4, watch := bit f 3, reload := bit f 2, mode := f % 4, margin := leField b 2 1,
    vstart := leField b 3 1 % 16, vgoal := leField b 3 1 / 16, budget := leField b 4 4, maxStates := leField b 8 4,
    bw := leField b 12 2, nextq := leField b 14 2, lib := leField b 16 8, out := leField b 24 8, scr := leField b 32 8,
    t0 := leField b 40 8, start := (List.range 12).map fun j => sField b (48 + 2 * j) 2,
    goal := (List.range 12).map fun j => sField b (72 + 2 * j) 2, gtol := (List.range 12).map fun j => leField b (96 + j) 1,
    outMax := leField b 108 2, base := (List.range 4).map fun j => leField b (112 + 4 * j) 4 }

/-! ## Sphere positions (R421, R422, R424) -/

/-- Fields of a joint and of a sphere: TYPE, AXIS, the fixed transform (translation, quaternion) and STEP; LINK and the centre. -/
def jPrismatic (b : List Byte) (j : Nat) : Bool := leField b (libJ b j) 1 == 1
def jAxis (b : List Byte) (j : Nat) : List Nat := (List.range 3).map fun i => leField b (libJ b j + 4 + 4 * i) 4
def jFixed (b : List Byte) (j : Nat) : List Nat := (List.range 7).map fun i => leField b (libJ b j + 16 + 4 * i) 4
def jStep (b : List Byte) (j : Nat) : Nat := leField b (libJ b j + 44) 4
def sphLink (b : List Byte) (i : Nat) : Nat := leField b (libS b i) 1
def sphCentre (b : List Byte) (i : Nat) : List Nat := (List.range 3).map fun k => leField b (libS b i + 8 + 4 * k) 4

/-- Where joint j stands: its index and the sample's offset in units of STEP / 256 (R422). -/
def jointAt (b : List Byte) (n off : List Int) (j : Nat) : Nat :=
  let f := fmtFp32
  let m := f.ofInt (256 * n.getD j 0 + off.getD j 0)
  let part := f.ratio 1 256
  if Config.formOf [70] % 2 = 0 then f.mul m (f.mul (jStep b j) part) else f.mul (f.mul m (jStep b j)) part

/-- A frame: rows of a rotation, and a translation. -/
def frameMove (site : List Nat) (fr : List (List Nat) × List Nat) (v : List Nat) : List Nat :=
  (List.range 3).map fun i => fmtFp32.sum (i :: site) (.val (fr.2.getD i 0) :: List.zipWith .prod (fr.1.getD i []) v)

/-- The frame of the base: BASE's yaw about z, and its position. -/
def baseFrame (base : List Nat) : List (List Nat) × List Nat :=
  let (c, s) := (Config.kntFn 0 (base.getD 3 0), Config.kntFn 1 (base.getD 3 0))
  ([[c, fmtFp32.neg s, 0], [s, c, 0], [0, 0, fmtFp32.one]], base.take 3)

/-- The frame of the next link: the fixed transform, then the joint's turn about its axis or shift along it (R421, R425). -/
def nextFrame (b : List Byte) (n off : List Int) (fr : List (List Nat) × List Nat) (j : Nat) : List (List Nat) × List Nat :=
  let f := fmtFp32
  let t := jFixed b j
  let r1 := f.mulMat [71, j] 3 fr.1 (f.rot [72, j] (t.drop 3))
  let t1 := frameMove [73, j] fr (t.take 3)
  let x := jointAt b n off j
  if jPrismatic b j then (r1, frameMove [74, j] (r1, t1) ((jAxis b j).map fun a => f.mul a x))
  else
    let h := f.mul 0x3F000000 x
    let q := Config.kntFn 0 h :: (jAxis b j).map fun a => f.mul a (Config.kntFn 1 h)
    (f.mulMat [75, j] 3 r1 (f.rot [76, j] q), t1)

/-- World position of a library sphere, as FP32 codes: by the joint chain in LATTICE mode; about the centre of its cell in GRID2; in the
grid modes a sphere of the base stands by BASE.z. Where the spec does not say how a mode places a sphere it is open (log entry 25). -/
def State.spherePos (s : State) (q : KQuery) (lib : List Byte) (n : List Int) (head : Nat) (off : List Int) (i : Nat) : Nat × Nat × Nat :=
  let f := fmtFp32
  let three := fun (p : List Nat) => (p.getD 0 0, p.getD 1 0, p.getD 2 0)
  if q.mode = 0 then
    three (frameMove [77] ((List.range (sphLink lib i)).foldl (nextFrame lib n off) (baseFrame q.base)) (sphCentre lib i))
  else if sphLink lib i ≠ 0 then Config.spherePos q.mode lib n head off q.base i
  else
    let cell := fun (k o : Nat) => f.sum [78, k] [.val o, .prod s.knight.geom.2.1 (f.add (f.ofInt (n.getD k 0)) 0x3F000000)]
    let z := f.add (q.base.getD 2 0) ((sphCentre lib i).getD 2 0)
    if q.mode = 1 then (cell 0 s.knight.geom.2.2.1, cell 1 s.knight.geom.2.2.2, z)
    else
      let p := Config.spherePos q.mode lib n head off q.base i
      (p.1, p.2.1, z)

/-! ## Sphere tests (R420, R424) -/

/-- The voxel that holds a world position, if it lies in the map. -/
def State.kVoxel (s : State) (p : Nat × Nat × Nat) : Option (Nat × Nat × Nat) :=
  let g := s.knight.geom
  let d := s.mapDims
  let ax := fun (v o n : Nat) => match floorQuot (FVal.add 0 (fpVal v) (FVal.neg (fpVal o))) (fpVal g.2.1) with
    | some i => if 0 ≤ i ∧ i < (n : Int) then some i.toNat else none
    | none => none
  match ax p.1 g.2.2.1 d.1, ax p.2.1 g.2.2.2 d.2.1, ax p.2.2 s.knight.orgz d.2.2 with
  | some x, some y, some z => some (x, y, z)
  | _, _, _ => none

/-- Spheres that a mode tests. -/
def kSpheres (mode : Nat) (lib : List Byte) : List Nat :=
  (List.range (libNSPH lib)).filter fun i => mode == 0 || sphereBase lib i

/-- One sphere test, and the region of the clearance value it reads. -/
def State.kSphere (s : State) (q : KQuery) (lib : List Byte) (n : List Int) (head : Nat) (off : List Int) (seed i : Nat) :
    Bool × Option Nat :=
  match s.kVoxel (s.spherePos q lib n head off i) with
  | none => (false, none)
  | some (x, y, z) =>
    let c : Int := s.clrRead seed x y z
    (match s.sphereRad lib i with
      | some r => decide (16 * c > r + q.margin + 28)
      | none => false, some (voxRegion x y z))

/-- Every sphere test of a posture: whether all pass, and the regions they touch. -/
def State.kPosture (s : State) (q : KQuery) (lib : List Byte) (n : List Int) (head seed : Nat) (off : List Int) :
    Bool × List Nat :=
  let r := (kSpheres q.mode lib).map fun i => s.kSphere q lib n head off (seed * 256 + i) i
  (r.all fun (e : Bool × Option Nat) => e.1, r.filterMap fun (e : Bool × Option Nat) => e.2)

/-- The eight moves of GRID2, counter-clockwise from +x. -/
def gridMove (p : Nat) : Int × Int :=
  [(1, 0), (1, 1), (0, 1), (-1, 1), (-1, 0), (-1, -1), (0, -1), (1, -1)].getD p (0, 0)

/-- Where a primitive or move leads, and its end class. -/
def kEnd (q : KQuery) (lib : List Byte) (n : List Int) (p : Nat) : List Int × Nat :=
  if q.mode = 1 then ([n.getD 0 0 + (gridMove p).1, n.getD 1 0 + (gridMove p).2], 0)
  else (n.zipIdx.map fun (e : Int × Nat) => e.1 + pDelta lib p e.2, pEnd lib p)

/-- Sphere tests of a primitive's samples from a state; a GRID2 move tests its end cell. -/
def State.kSegTests (s : State) (q : KQuery) (lib : List Byte) (n : List Int) (v p seed : Nat) : Bool × List Nat :=
  if q.mode = 1 then s.kPosture q lib (kEnd q lib n p).1 0 seed []
  else
    let r := (pSamples lib p).zipIdx.map fun (e : List Int × Nat) => s.kPosture q lib n (if q.mode = 2 then v else 0) (seed * 32 + e.2) e.1
    (r.all fun (e : Bool × List Nat) => e.1, r.flatMap fun (e : Bool × List Nat) => e.2)

/-- Whether indices lie in their joints' ranges or in the map. -/
def State.kInside (s : State) (q : KQuery) (lib : List Byte) (n : List Int) : Bool :=
  if q.mode = 0 then n.zipIdx.all fun (e : Int × Nat) => decide (jLo lib e.2 ≤ e.1) && decide (e.1 ≤ jHi lib e.2)
  else
    let d := s.mapDims
    decide (0 ≤ n.getD 0 0) && decide (n.getD 0 0 < d.1) && decide (0 ≤ n.getD 1 0) && decide (n.getD 1 0 < d.2.1)

/-- Cost and duration of a primitive or move. -/
def kCost (q : KQuery) (lib : List Byte) (p : Nat) : Nat × Nat :=
  if q.mode = 1 then (if p % 2 = 0 then 10 else 14, 0) else (pCost lib p, pDur lib p)

/-- Primitives or moves that apply to a class. -/
def kPrims (q : KQuery) (lib : List Byte) (v : Nat) : List Nat :=
  if q.mode = 1 then List.range 8 else (List.range (libNPRIM lib)).filter fun p => pStart lib p == v

/-- The heuristic (R431). -/
def kHeur (q : KQuery) (lib : List Byte) (goal n : List Int) : Nat :=
  let d := fun j => (n.getD j 0 - goal.getD j 0).natAbs
  if q.mode = 0 then ((List.range n.length).map fun j => jHw lib j * d j).foldl (· + ·) 0
  else
    let oct := 10 * (Nat.max (d 0) (d 1) - Nat.min (d 0) (d 1)) + 14 * Nat.min (d 0) (d 1)
    if q.mode = 1 then oct else jHw lib 0 * oct / 10

end Sys2Proof.Machine
end

