-- ==== Sys2Proof/Machine/KnightPlan.lean ====
section
/-! DEFINITION. Knight's search, brakes, output and commit (R430 to R440). -/

namespace Sys2Proof.Machine

/-! ## The search (R431) -/

/-- A search with its start state in its band. -/
def kSearchFrom (q : KQuery) (lib : List Byte) (n : List Int) (v : Nat) (goal : List Int) (tol : List Nat) (vgoal : Nat) :
    KSearch :=
  { states := [{ n := n, v := v, g := 0, h := kHeur q lib goal n }], next := 1, goal := goal, tol := tol, vgoal := vgoal }

/-- Indices of a query's start and goal in its mode. -/
def KQuery.idx (q : KQuery) (lib : List Byte) (l : List Int) : List Int := l.take (kIdx q.mode (libNJ lib))

/-- Velocity class or heading of the start; GRID2 has none. -/
def KQuery.v0 (q : KQuery) : Nat := if q.mode = 1 then 0 else q.vstart

/-- The search of a query from START to its goal. -/
def kSearchMain (q : KQuery) (lib : List Byte) : KSearch :=
  kSearchFrom q lib (q.idx lib q.start) q.v0 (q.idx lib q.goal) q.gtol q.vgoal

/-- Whether a state is a goal state; GRID2 has no class. -/
def KSearch.isGoal (k : KSearch) (q : KQuery) (x : KState) : Bool :=
  (q.mode == 1 || x.v == k.vgoal) && x.n.zipIdx.all fun (e : Int × Nat) =>
    decide ((e.1 - k.goal.getD e.2 0).natAbs ≤ k.tol.getD e.2 0)

/-- Numbers of a batch: up to 64 states of the lowest band, in insertion order. -/
def KSearch.batch (k : KSearch) (bw : Nat) : List Nat :=
  let l := (List.range k.states.length).filter fun i => (k.states.getD i {}).isOpen
  let band := fun i => ((k.states.getD i {}).g + (k.states.getD i {}).h) / bw
  let b := l.foldl (fun m i => match m with
    | none => some (band i)
    | some x => some (Nat.min x (band i))) (none : Option Nat)
  let mine := l.filter fun i => some (band i) == b
  (mine |> sortedBy fun i j => decide ((k.states.getD i {}).order ≤ (k.states.getD j {}).order)).take 64

/-- Enter a successor: a new state, or one whose cost improves, opens in its band; the number of the state that opens. -/
def KSearch.enter (k : KSearch) (q : KQuery) (lib : List Byte) (limit : Nat) (n : List Int) (v g parent prim : Nat) :
    KSearch × Option Nat :=
  match k.states.findIdx? fun x => decide (x.n = n) && x.v == v with
  | some i =>
    let x := k.states.getD i {}
    if g < x.g then
      ({ k with
        states := k.states.set i { x with g := g, parent := some parent, prim := prim, order := k.next, isOpen := true }
        next := k.next + 1 }, some i)
    else (k, none)
  | none =>
    if limit ≤ k.states.length then ({ k with full := true }, none)
    else
      let x : KState := { n := n, v := v, g := g, h := kHeur q lib k.goal n, parent := some parent, prim := prim, order := k.next }
      ({ k with states := k.states ++ [x], next := k.next + 1 }, some k.states.length)

/-- Most sphere tests that the expansion of a state of a class runs. -/
def kMost (q : KQuery) (lib : List Byte) (v : Nat) : Nat :=
  ((kPrims q lib v).map fun p => (if q.mode = 1 then 1 else pNsamp lib p) * (kSpheres q.mode lib).length).foldl (· + ·) 0

/-- States of a batch that surely fit in `room` sphere tests, from the first. -/
def kSure (q : KQuery) (lib : List Byte) (k : KSearch) : Nat → List Nat → Nat
  | _, [] => 0
  | room, i :: l =>
    let n := kMost q lib (k.states.getD i {}).v
    if n ≤ room then kSure q lib k (room - n) l + 1 else 0

/-- The states of a batch that it expands: all where their tests fit in 8,192 cycles of the 32 checker lanes, else at least one and those
that surely fit (R415, R427; log entry 25). -/
def State.kCut (s : State) (q : KQuery) (lib : List Byte) (k : KSearch) (b : List Nat) : List Nat :=
  let lo := Nat.max 1 (kSure q lib k 262144 b)
  if b.length ≤ lo then b
  else
    let x := s.knight
    let site := q.mode :: q.margin :: x.geom.1 :: x.geom.2.1 :: x.geom.2.2.1 :: x.geom.2.2.2 :: x.orgz :: x.clrUnk.toNat :: q.base
    let at' := fun i => ((k.states.getD i {}).n, (k.states.getD i {}).v)
    b.take (lo + Config.kntCut x.clrOcc lib site (b.map at') % (b.length - lo + 1))

/-- Expand a batch: the search after it, the reached goal of least cost, and the sphere tests of the primitives applied. -/
def State.kExpand (s : State) (q : KQuery) (lib : List Byte) (k : KSearch) : KSearch × Option Nat × Nat :=
  let b := s.kCut q lib k (k.batch q.bw)
  let k0 := { k with
    states := k.states.zipIdx.map (fun (e : KState × Nat) => if b.contains e.2 then { e.1 with isOpen := false } else e.1)
    expanded := k.expanded + b.length }
  let lane := fun (a : KSearch × List Nat × Nat) (i : Nat) =>
    let x := k.states.getD i {}
    (kPrims q lib x.v).foldl (fun (a : KSearch × List Nat × Nat) p =>
      let (n, v) := kEnd q lib x.n p
      let tests := a.2.2 + (if q.mode = 1 then 1 else pNsamp lib p) * (kSpheres q.mode lib).length
      if !s.kInside q lib n then a
      else if !(s.kSegTests q lib x.n x.v p (x.order * 4096 + p)).1 then (a.1, a.2.1, tests)
      else
        let r := a.1.enter q lib q.maxStates n v (x.g + (kCost q lib p).1) i p
        (r.1, a.2.1 ++ r.2.toList, tests)) a
  let r := b.foldl lane (k0, b, 0)
  let k1 := r.1
  let goals := r.2.1.filter fun i => k1.isGoal q (k1.states.getD i {})
  let best := goals.foldl (fun (m : Option Nat) i => match m with
    | none => some i
    | some j => if (k1.states.getD i {}).g < (k1.states.getD j {}).g then some i else some j) none
  (k1, best, r.2.2)

/-- The segments from the start of a search to a state. -/
def kPathTo (q : KQuery) (lib : List Byte) (k : KSearch) : Nat → Nat → List KSeg → List KSeg
  | 0, _, acc => acc
  | fuel + 1, i, acc =>
    let x := k.states.getD i {}
    match x.parent with
    | none => acc
    | some j =>
      let y := k.states.getD j {}
      let c := kCost q lib x.prim
      kPathTo q lib k fuel j ({ prim := x.prim, n := y.n, v := y.v, vend := x.v, cost := c.1, dur := c.2 } :: acc)

/-- The path to a state. -/
def KSearch.path (k : KSearch) (q : KQuery) (lib : List Byte) (i : Nat) : List KSeg := kPathTo q lib k k.states.length i []

/-- The state of the open set with the least h, then the lesser g, then the earlier insertion (R433). -/
def KSearch.nearest (k : KSearch) : Nat :=
  let better := fun (a b : KState) => decide (a.h < b.h) || (a.h == b.h && (decide (a.g < b.g) ||
    (a.g == b.g && decide (a.order < b.order))))
  ((List.range k.states.length).foldl (fun (m : Option Nat) i =>
    let x := k.states.getD i {}
    if !x.isOpen then m else match m with
      | none => some i
      | some j => if better x (k.states.getD j {}) then some i else some j) none).getD 0

/-! ## Trajectories and brakes (R433) -/

/-- End state of a path that leads from a state. -/
def kPathEnd (q : KQuery) (lib : List Byte) (n : List Int) (v : Nat) (p : List KSeg) : List Int × Nat :=
  match p.getLast? with
  | some g => ((kEnd q lib g.n g.prim).1, g.vend)
  | none => (n, v)

/-- Brakes from a state to class 0, at most `fuel` of them, each joined to the class it starts from (R423, R433); none where no checked way
to stop exists. -/
def State.kBrakes (s : State) (q : KQuery) (lib : List Byte) : Nat → List Int → Nat → Option (List KSeg)
  | fuel, n, v =>
    if v = 0 then some []
    else match fuel with
      | 0 => none
      | fuel + 1 =>
        let ok := fun p => pStart lib p == v && s.kInside q lib (kEnd q lib n p).1 && (s.kSegTests q lib n v p (4096 * fuel + p)).1
        match (List.range 4).findSome? fun i => (libBrake lib v i).filter ok with
        | none => none
        | some p =>
          let g : KSeg := { prim := p, brake := true, n := n, v := v, vend := pEnd lib p, cost := pCost lib p, dur := pDur lib p }
          (s.kBrakes q lib fuel (kEnd q lib n p).1 (pEnd lib p)).map fun l => g :: l

/-- Brakes from a state in LATTICE mode, with FLAGS.NOBRAKE; grid trajectories carry none (R424). -/
def State.kBrakeFrom (s : State) (q : KQuery) (lib : List Byte) (n : List Int) (v : Nat) : List KSeg × Nat :=
  if q.mode ≠ 0 then ([], 0)
  else match s.kBrakes q lib 4 n v with
    | some l => (l, 0)
    | none => ([], 2)

/-- Brakes from START, for an ending without a trajectory: LATTICE mode with VSTART other than 0. -/
def State.kBrakeStart (s : State) (q : KQuery) (lib : List Byte) : List KSeg × Nat :=
  if q.vstart = 0 then ([], 0) else s.kBrakeFrom q lib (q.idx lib q.start) q.vstart

/-- Regions that a segment touches. -/
def State.kTouch (s : State) (q : KQuery) (lib : List Byte) (g : KSeg) : List Nat := (s.kSegTests q lib g.n g.v g.prim 0).2

/-- Whether a segment's tests pass. -/
def State.kPasses (s : State) (q : KQuery) (lib : List Byte) (seed : Nat) (g : KSeg) : Bool :=
  (s.kSegTests q lib g.n g.v g.prim seed).1

/-- Regions whose version differs from a snapshot. -/
def State.kChanged (s : State) (snap : List (Nat × Nat)) : List Nat :=
  allRegions.filter fun r => s.kVer r != assocGet 0 snap r

/-! ## Output (R439) -/

/-- The bytes of a segment entry. -/
def segBytes (tstart : Nat) (g : KSeg) : List Byte :=
  leBytes 2 g.prim ++ leBytes 1 (if g.brake then 1 else 0) ++ leBytes 1 g.vend ++ leBytes 4 tstart ++ leBytes 4 g.dur ++
    leBytes 4 g.cost ++ ((List.range 12).flatMap fun j => leBytes 2 (ofSigned 16 (g.n.getD j 0))) ++ leBytes 8 0

/-- Segment entries in order, with their start times. -/
def segsBytes : Nat → List KSeg → List Byte
  | _, [] => []
  | t, g :: l => segBytes t g ++ segsBytes (t + g.dur) l

/-- An output: header and entries. -/
def kOutput (q : KQuery) (st : Status) (path brakes : List KSeg) (flags rounds hend expanded detail vtick rev : Nat) :
    List Byte :=
  leBytes 4 rev ++ leBytes 2 st.code ++ leBytes 2 (path.length + brakes.length) ++ leBytes 2 brakes.length ++
    leBytes 1 flags ++ leBytes 1 rounds ++ leBytes 4 ((path.map KSeg.cost).foldl (· + ·) 0) ++ leBytes 4 hend ++
    leBytes 4 expanded ++ leBytes 4 detail ++ leBytes 4 0 ++ leBytes 8 q.t0 ++ leBytes 8 vtick ++ leBytes 12 0 ++
    leBytes 4 rev ++ segsBytes 0 (path ++ brakes)

/-- HALF of a watched output (R440). -/
def KQuery.half (q : KQuery) : Nat := cdiv (64 + 48 * q.outMax) 64 * 64

/-- Bytes of a query's output area. -/
def KQuery.outBytes (q : KQuery) : Nat := if q.watch then q.half + 64 + 48 * q.outMax else 64 + 48 * q.outMax

/-- A watch slot that is free. -/
def State.freeWatch (s : State) : Option Nat := (List.range 4).find? fun i => !s.knight.watches.any fun w => w.1 == i

/-- KNT_WATCH_STS.ACTIVE follows the slots. -/
def State.showWatches (s : State) : State :=
  s.setF 0 { page := 0x0B, off := 0x090, hi := 31, lo := 28 } (maskOf (s.knight.watches.map (·.1)))

/-- Start to watch a trajectory, with FLAGS.NOWATCH where no slot is free (R440). -/
def State.watchStart (s : State) (fn : Nat) (q : KQuery) (desc lib : List Byte) (path brakes : List KSeg) : State × Nat :=
  if !q.watch then (s, 0)
  else match s.freeWatch with
    | none => (s, 16)
    | some i =>
      let w : Watch := { fn := fn, desc := desc, lib := lib, snap := s.knight.vers, path := path, brakes := brakes, rev := 1 }
      (({ s with knight := { s.knight with watches := assocInsert i w s.knight.watches } }).showWatches, 0)

/-- VTICK: the tick of the stable comparison, free where an output had none (R439; log entry 25). -/
def State.kVtick (s : State) (stable : Bool) : Nat := if stable then s.now else (Config.free s.free 64).toNat

/-- Write an output and finish the query (R336, R439): a trajectory beyond OUTMAX completes with PLAN_LIMIT and the brake from START
alone, if that fits. -/
def State.kPublish (s : State) (ctx : Nat) (t : Task) (run : KnightRun) (st : Status) (path brakes : List KSeg)
    (flags detail : Nat) : State :=
  let q := parseQuery t.desc
  let big := decide (q.outMax < path.length + brakes.length)
  let b := s.kBrakeStart q run.lib
  let bs := if q.outMax < b.1.length then ([], 2) else b
  let (st, path, brakes, flags) := if big then (Status.planLimit, [], bs.1, bs.2) else (st, path, brakes, flags)
  let w := if st = .ok ∧ q.op = 1 then s.watchStart t.fn q t.desc run.lib path brakes else (s, 0)
  let e := kPathEnd q run.lib (q.idx run.lib q.start) q.v0 path
  let hend := kHeur q run.lib (q.idx run.lib q.goal) e.1
  let stable := st == .ok || st == .outOfTime || st == .stalemate || st == .planLimit || !brakes.isEmpty
  let out := kOutput q st path brakes (flags + w.2) run.rounds hend (run.expanded + run.search.expanded) detail (s.kVtick stable) 0
  let s1 := (w.1.drawFree.vaWrite t.fn .engine q.out out).1
  let s2 := { s1 with knight := { s1.knight with runs := assocErase ctx s1.knight.runs } }
  let s3 := if st = .mapChanged then s2.bump 0 { page := 0x0B, off := 0x09C, hi := 31, lo := 0 } 1 else s2
  s3.finishTask knightR ctx t st (if q.next then some q.nextq else none)

/-- Finish a query with a header alone. -/
def State.kRefuse (s : State) (ctx : Nat) (t : Task) (st : Status) : State :=
  let q := parseQuery t.desc
  let s1 := (s.drawFree.vaWrite t.fn .engine q.out (kOutput q st [] [] 0 0 0 0 0 (s.kVtick false) 0)).1
  let s2 := { s1 with knight := { s1.knight with runs := assocErase ctx s1.knight.runs } }
  s2.finishTask knightR ctx t st (if q.next then some q.nextq else none)

/-! ## Commit and repair (R435 to R437) -/

/-- What a running query does next: go on, or finish with a result. -/
inductive KNext where
  | go (run : KnightRun)
  | done (run : KnightRun) (st : Status) (path brakes : List KSeg) (flags : Nat)
  deriving DecidableEq, Repr

/-- The path cut before segment `f`, with brakes from there: OUT_OF_TIME (R433, R435). -/
def State.kTruncate (s : State) (q : KQuery) (run : KnightRun) (f : Nat) : KnightRun :=
  let p := run.path.take f
  let e := kPathEnd q run.lib (q.idx run.lib q.start) q.v0 p
  let b := s.kBrakeFrom q run.lib e.1 e.2
  { run with path := p, brakes := b.1, flags := run.flags ||| 1 ||| b.2, status := .outOfTime, phase := .commit }

/-- The local search of R436 around segment `f` of a path. -/
def kRepairSearch (q : KQuery) (lib : List Byte) (path : List KSeg) (f : Nat) : KSearch :=
  let a := path.getD (f - 1) {}
  if path.length ≤ f + 1 then kSearchFrom q lib a.n a.v (q.idx lib q.goal) q.gtol q.vgoal
  else
    let z := path.getD (f + 1) {}
    kSearchFrom q lib a.n a.v (kEnd q lib z.n z.prim).1 [] z.vend

/-- One turn of the commit of MAP_CHANGED's brake from START, after `n` rounds: re-checks only, and one that cannot be made stable
within three rounds is not given (R437). -/
def State.kBrakeTurn (s : State) (q : KQuery) (run : KnightRun) (n : Nat) : KNext :=
  let ch := s.kChanged run.snap
  let touches := fun g => (s.kTouch q run.lib g).any fun r => ch.contains r
  let fails := fun (e : KSeg × Nat) => touches e.1 && !s.kPasses q run.lib (e.2 * 4096) e.1
  if !run.brakes.any touches then .done run .mapChanged [] run.brakes run.flags
  else if n = 3 || run.brakes.zipIdx.any fails then .done run .mapChanged [] [] 2
  else .go { run with snap := s.knight.vers, phase := .brake (n + 1) }

/-- One turn of the commit loop (R435): `spent` says that the budget is exhausted, as it is for a trajectory that MAXSTATES ended
(R432). -/
def State.kCommit (s : State) (q : KQuery) (run : KnightRun) (spent : Bool) : KNext :=
  let ch := s.kChanged run.snap
  let touches := fun g => (s.kTouch q run.lib g).any fun r => ch.contains r
  if !((run.path ++ run.brakes).any touches) then .done run run.status run.path run.brakes run.flags
  else if run.rounds = 3 then
    let b := s.kBrakeStart q run.lib
    if b.1.isEmpty then .done run .mapChanged [] [] b.2
    else .go { run with path := [], brakes := b.1, flags := b.2, snap := s.knight.vers, phase := .brake 0 }
  else
    let r := { run with rounds := run.rounds + 1, snap := s.knight.vers, phase := KPhase.commit }
    let fails := fun (e : KSeg × Nat) => touches e.1 && !s.kPasses q run.lib (e.2 * 4096) e.1
    match run.path.zipIdx.find? fails with
    | some (_, f) =>
      if spent || run.status == .outOfTime then .go (s.kTruncate q r f)
      else .go { r with phase := .repair f, search := kRepairSearch q run.lib run.path f, expanded := r.expanded + r.search.expanded }
    | none =>
      if !run.brakes.zipIdx.any fails then .go r
      else
        let e := kPathEnd q run.lib (q.idx run.lib q.start) q.v0 run.path
        let b := s.kBrakeFrom q run.lib e.1 e.2
        .go { r with brakes := b.1, flags := r.flags ||| b.2 }

/-- The search of a query, or of a repair, has ended; the commit follows at once. -/
def State.kEnded (s : State) (q : KQuery) (run : KnightRun) (goal : Option Nat) (spent : Bool) : KNext :=
  match run.phase, goal with
  | .repair f, some i =>
    let p := run.path.take (f - 1) ++ run.search.path q run.lib i ++ run.path.drop (f + 2)
    s.kCommit q { run with path := p, flags := run.flags ||| 4, phase := .commit } spent
  | .repair f, none =>
    if spent || run.search.full then
      s.kCommit q (s.kTruncate q { run with flags := run.flags ||| (if run.search.full then 8 else 0) } f) true
    else .go { run with
      phase := .search true, begun := false, search := kSearchMain q run.lib, expanded := run.expanded + run.search.expanded }
  | _, some i =>
    s.kCommit q { run with
      path := run.search.path q run.lib i, brakes := [], phase := .commit
      flags := if run.phase = .search true then run.flags ||| 4 else run.flags } spent
  | _, none =>
    let fl := if run.search.full then 8 else 0
    if spent || run.search.full then
      let p := run.search.path q run.lib run.search.nearest
      let e := kPathEnd q run.lib (q.idx run.lib q.start) q.v0 p
      let b := s.kBrakeFrom q run.lib e.1 e.2
      s.kCommit q { run with
        path := p, brakes := b.1, flags := run.flags ||| 1 ||| b.2 ||| fl, status := .outOfTime, phase := .commit } true
    else
      let b := s.kBrakeStart q run.lib
      s.kCommit q { run with path := [], brakes := b.1, flags := run.flags ||| b.2, status := .stalemate, phase := .commit } spent

/-- One batch of a query (R431, R435): the start's tests, an expansion, or a turn of the commit; `spent` is asked after the batch. The
snapshot is taken as the search starts (R434). -/
def State.kTurn (s : State) (q : KQuery) (run : KnightRun) (spent : Bool) : KNext × Nat :=
  match run.phase with
  | .commit => (s.kCommit q run spent, 0)
  | .brake n => (s.kBrakeTurn q run n, 0)
  | _ =>
    let startOk := (s.kPosture q run.lib (q.idx run.lib q.start) (if q.mode = 2 then q.vstart else 0) 0 []).1
    let isMain := match run.phase with
      | .search _ => true
      | _ => false
    let run := if run.phase = .search false && !run.begun then { run with snap := s.knight.vers } else run
    if isMain && !run.begun && !startOk then (.done run .startBlocked [] [] 0, (kSpheres q.mode run.lib).length)
    else if (run.search.batch q.bw).isEmpty then (s.kEnded q run none false, 0)
    else
      let r := s.kExpand q run.lib run.search
      let run1 := { run with begun := true, search := r.1 }
      if r.2.1.isSome || spent || r.1.full || (r.1.batch q.bw).isEmpty then (s.kEnded q run1 r.2.1 spent, r.2.2)
      else (.go run1, r.2.2)

/-- The scratch table of a query whose states go beyond the local table: Knight's layout of it is its own (R430; log entry 25). -/
def State.kSpill (s : State) (fn : Nat) (q : KQuery) (k : KSearch) : State :=
  if k.states.length ≤ 24576 then s
  else
    let n := 64 * q.maxStates
    ({ s with free := s.free + n }.vaWrite fn .engine q.scr ((List.range n).map fun i => Config.free (s.free + i) 8)).1

/-- Sphere tests run count in KNT_CHECKS in units of 1,024; tests that stop at a first failure are not run, which leaves the number
free up to all of them (log entry 25). -/
def State.kCount (s : State) (most : Nat) : State :=
  let d := (Config.free s.free 32).toNat % (most + 1) + s.knight.tests
  let s1 := { s with knight := { s.knight with tests := d % 1024 } }
  (s1.bump 0 { page := 0x0B, off := 0x094, hi := 31, lo := 0 } (d / 1024)).drawFree

end Sys2Proof.Machine
end

