-- ==== Sys2Proof/Machine/Knight.lean ====
section
/-! DEFINITION. The commands of the Knight motion planner (chapter 13). -/

namespace Sys2Proof.Machine

/-- Whether an access must wait because device memory does not serve: Hold (R443, R449). -/
def State.needsDev (s : State) (fn va n : Nat) : Bool := !s.memOn && n != 0 && s.runInTier fn va n 0

/-! ## Taking a query (R426, R429) -/

/-- What the descriptor alone shows to be malformed. -/
def State.kMalformed (s : State) (fn : Nat) (b : List Byte) : Bool :=
  let q := parseQuery b
  let within := fun lo hi v => decide (lo ≤ v) && decide (v ≤ hi)
  (q.op != 1 && q.op != 2) || q.mode == 3 || decide (32 ≤ leField b 1 1) || leField b 110 2 != 0 || !within 1 1000000 q.budget ||
    !within 1 65535 q.bw || decide (q.maxStates < 64) || !within 1 4096 q.outMax || q.lib % 64 != 0 || q.out % 64 != 0 ||
    (q.op == 1 && q.scr % 64 != 0) || (q.watch && q.op == 2) || (q.next && decide (s.qcount fn ≤ q.nextq))

/-- What the library shows to be malformed (R424, R425, R429). -/
def kLibMalformed (q : KQuery) (lib : List Byte) : Bool :=
  let k := kIdx q.mode (libNJ lib)
  !libOk lib || decide (libNVC lib ≤ q.vstart) || decide (libNVC lib ≤ q.vgoal) ||
    (q.start.drop k).any (fun x => x != 0) || (q.goal.drop k).any (fun x => x != 0) || (q.gtol.drop k).any (fun x => x != 0) ||
    (q.mode == 1 && !libOnAxis lib)

/-- Whether a limit is passed (R420, R429, R430). -/
def State.kOverLimit (s : State) (cls : Nat) (q : KQuery) (lib : List Byte) : Bool :=
  let top := if cls = 2 then 8192 else if q.op = 1 ∧ q.scr ≠ 0 then 4194304 else 24576
  decide (top < q.maxStates) || (cls == 2 && q.op == 1 && q.scr != 0) || !s.radsOk lib q.margin ||
    !s.kInside q lib (q.idx lib q.start) || !s.kInside q lib (q.idx lib q.goal)

/-- The library of a query in a context: the cached copy, or the one read from memory (R426). -/
def State.kLibrary (s : State) (ctx fn : Nat) (q : KQuery) : Except Status (List Byte) :=
  let load := fun _ : Unit => match s.engRead fn q.lib 64 with
    | .error e => Except.error e
    | .ok h =>
      let n := leField h 8 4
      if n < 64 ∨ 245760 < n then .error .planMalformed
      else if !s.extentOk fn q.lib n .read then .error .accessDenied
      else s.engRead fn q.lib n
  match s.knight.caches.find? fun e => e.1 == ctx with
  | some (_, f, va, b) => if f = fn ∧ va = q.lib ∧ !q.reload then .ok b else load ()
  | none => load ()

/-- Whether a query in Hold waits before it starts (R443). -/
def State.kHeld (s : State) (ctx fn : Nat) (q : KQuery) : Bool :=
  let cached := s.knight.caches.any fun e => e.1 == ctx && e.2.1 == fn && e.2.2.1 == q.lib && !q.reload
  (!cached && s.needsDev fn q.lib 64) || s.needsDev fn q.out q.outBytes ||
    (q.scr != 0 && s.needsDev fn q.scr (if q.op = 1 then 64 * q.maxStates else 64))

/-- Take a query: what refuses it, or its library, which the context caches from then on. -/
def State.kAccept (s : State) (ctx fn cls : Nat) (b : List Byte) : Except Status (State × List Byte) :=
  let q := parseQuery b
  if s.kMalformed fn b then .error .planMalformed
  else match s.kLibrary ctx fn q with
    | .error e => .error e
    | .ok lib =>
      let s1 := { s with knight := { s.knight with caches := assocInsert ctx (fn, q.lib, lib) s.knight.caches } }
      if kLibMalformed q lib then .error .planMalformed
      else if s.kOverLimit cls q lib then .error .planLimit
      else if !s.extentOk fn q.out q.outBytes .write then .error .accessDenied
      else if q.op = 1 ∧ q.scr ≠ 0 ∧ !s.extentOk fn q.scr (64 * q.maxStates) .write then .error .accessDenied
      else .ok (s1, lib)

/-- The segments of a trajectory in the output format, path and brakes together (R438, R439). -/
def kParseSegs (q : KQuery) (lib b : List Byte) : Nat → Nat → Nat → List KSeg
  | 0, _, _ => []
  | k + 1, off, v =>
    let e := b.drop off
    let g : KSeg := { prim := leField e 0 2, brake := leField e 2 1 == 1,
                      n := (List.range (kIdx q.mode (libNJ lib))).map fun j => sField e (16 + 2 * j) 2,
                      v := v, vend := leField e 3 1, cost := leField e 12 4, dur := leField e 8 4 }
    g :: kParseSegs q lib b k (off + 48) (leField e 3 1)

/-- CHECK: the trajectory at SCRVA is tested segment by segment (R438). -/
def State.kCheck (s : State) (ctx : Nat) (t : Task) (lib : List Byte) : State :=
  let q := parseQuery t.desc
  match s.engRead t.fn q.scr 64 with
  | .error e => s.kRefuse ctx t e
  | .ok h =>
    let n := leField h 6 2
    if !s.extentOk t.fn q.scr (64 + 48 * n) .read then s.kRefuse ctx t .accessDenied
    else match s.engRead t.fn q.scr (64 + 48 * n) with
      | .error e => s.kRefuse ctx t e
      | .ok b =>
        let segs := kParseSegs q lib b n 64 q.v0
        let top := if q.mode = 1 then 8 else libNPRIM lib
        if segs.any fun g => decide (top ≤ g.prim) then s.kRefuse ctx t .planMalformed
        else
          let tests := (segs.map fun g => if q.mode = 1 then 1 else pNsamp lib g.prim).foldl (· + ·) 0 * (kSpheres q.mode lib).length
          let run : KnightRun := { lib := lib, snap := s.knight.vers }
          let s1 := s.kCount tests
          match segs.zipIdx.find? fun (e : KSeg × Nat) => !s.kPasses q lib (e.2 * 4096) e.1 with
          | some (_, f) => s1.kPublish ctx t run .pathBlocked [] [] 0 f
          | none => s1.kPublish ctx t run .ok (segs.filter fun g => !g.brake) (segs.filter fun g => g.brake) 0 0

/-- Take the query at the head of a function's ring. -/
def State.kTake (s : State) (fn op : Nat) : State :=
  if !s.ringServed knightR fn then s
  else
    let cls := s.getF fn (knightR.cfg 5 4)
    let ctx := ctxOf cls
    let r := s.ringDesc knightR fn
    match r.2.2 with
    | .error .held => s
    | .error e =>
      let s2 := r.1.takeTask knightR fn r.2.1 (List.replicate 128 0#8)
      match s2.task knightR ctx with
      | some t => s2.finishTask knightR ctx t (readStatus e) none
      | none => s2
    | .ok b =>
      let q := parseQuery b
      if q.op = 3 - op ∨ s.kHeld ctx fn q then s
      else
        let s2 := r.1.takeTask knightR fn r.2.1 b
        match s2.task knightR ctx with
        | none => s2
        | some t => match s2.kAccept ctx fn cls b with
          | .error e => s2.kRefuse ctx t e
          | .ok (s3, lib) =>
            if q.op = 2 then s3.kCheck ctx t lib
            else
              let run : KnightRun := { lib := lib, search := kSearchMain q lib }
              { s3 with knight := { s3.knight with runs := assocInsert ctx run s3.knight.runs } }

/-- KNIGHT_PLAN: a PLAN query, or one with a reserved OP, is taken (R429). -/
def execKnightPlan (fn : Nat) (s : State) : Out := .next (s.kTake fn 1)

/-- KNIGHT_CHECK: a CHECK query is taken (R438). -/
def execKnightCheck (fn : Nat) (s : State) : Out := .next (s.kTake fn 2)

/-- KNIGHT_TAIL_DOORBELL (R427). -/
def execKnightTailDoorbell (fn v : Nat) (s : State) : Out := .next (s.engTail knightR fn v)

/-! ## Batches (R431 to R437) -/

/-- Put the state of a running query back. -/
def State.setKRun (s : State) (ctx : Nat) (run : KnightRun) : State :=
  { s with knight := { s.knight with runs := assocInsert ctx run s.knight.runs } }

/-- Whether a running query waits at its batch boundary for device memory (R443). -/
def State.kWaits (s : State) (fn : Nat) (q : KQuery) : Bool :=
  s.needsDev fn q.out q.outBytes || (q.scr != 0 && s.needsDev fn q.scr (64 * q.maxStates))

/-- Whether context 0 has a batch ready. -/
def State.kReady0 (s : State) : Bool :=
  match s.task knightR 0 with
  | some t => (s.knight.runs.any fun e => e.1 == 0) && !s.kWaits t.fn (parseQuery t.desc)
  | none => false

/-- An uncorrectable error in the occupancy or clearance plane, met by a batch: the voxel is OCCUPIED, and clearance is rebuilt around it
(R443). -/
def State.planeErr (s : State) : State :=
  match s.localErr 0x0B 2 with
  | some (k, s1) => ({ s1 with knight := { s1.knight with occ := assocSet 0 s1.knight.occ k 2 } }).clrBegin [keyRegion k]
  | none => s

/-- KNIGHT_BATCH: one batch of a context's query, at whose boundary the budget is asked; an uncorrectable error of the context's state
table ends the query (R427, R431, R432, R443). -/
def execKnightBatch (ctx : Nat) (s : State) : Out :=
  .next (match s.task knightR ctx, s.knight.runs.find? fun e => e.1 == ctx with
    | some t, some (_, run) =>
      let q := parseQuery t.desc
      let busy := s.kReady0
      if s.kWaits t.fn q then s.setEngSt knightR { s.knight.eng with lastAt := s.ticks }
      else if !s.ctxMay knightR ctx busy then s
      else match s.localErr 0x0B ctx, t.stop with
        | some (_, s0), _ => s0.kRefuse ctx t .eccUncorrectable
        | none, some st => s.kRefuse ctx t st
        | none, none =>
          let s1 := ((s.planeErr).chargeTask knightR ctx).ctxRan knightR ctx busy
          let t1 := (s1.task knightR ctx).getD t
          let spent := decide (250 * q.budget ≤ t1.used)
          let r := s1.kTurn q run spent
          let s2 := ((s1.setTask knightR ctx { t1 with mism := false }).kCount r.2).drawFree
          let rep := fun (x : KnightRun) (s : State) => match run.phase, x.phase with
            | .repair _, .repair _ => s
            | _, .repair _ => s.bump 0 { page := 0x0B, off := 0x098, hi := 31, lo := 0 } 1
            | _, _ => s
          match r.1 with
          | .go x => rep x ((s2.setKRun ctx x).kSpill t.fn q x.search)
          | .done x st path brakes flags => (s2.kSpill t.fn q x.search).kPublish ctx t1 x st path brakes flags 0
    | _, _ => s)

/-! ## Watched trajectories (R440, R448) -/

/-- Take a watch out of its slot. -/
def State.watchDrop (s : State) (i : Nat) : State :=
  ({ s with knight := { s.knight with watches := assocErase i s.knight.watches } }).showWatches

/-- Write a revision of a watched trajectory. -/
def State.watchWrite (s : State) (i : Nat) (w : Watch) (st : Status) (path brakes : List KSeg) (flags : Nat) : State :=
  let q := parseQuery w.desc
  let e := kPathEnd q w.lib (q.idx w.lib q.start) q.v0 path
  let hend := kHeur q w.lib (q.idx w.lib q.goal) e.1
  let out := kOutput q st path brakes flags 0 hend 0 0 (s.kVtick (st == .ok || !brakes.isEmpty)) w.rev
  let r := s.drawFree.vaWrite w.fn .engine (q.out + w.rev % 2 * q.half) out
  match r.2 with
  | .error _ => r.1
  | .ok _ =>
    let w1 := { w with rev := add32 w.rev 1, path := path, brakes := brakes, snap := s.knight.vers }
    ({ r.1 with knight := { r.1.knight with watches := assocInsert i w1 r.1.knight.watches } }).raiseIrq 0x0B w.fn 5

/-- End a watch with a final revision (R448). -/
def State.watchEnd (s : State) (i : Nat) (st : Status) : State :=
  match s.knight.watches.find? fun w => w.1 == i with
  | none => s
  | some (_, w) => (s.watchWrite i w st [] [] 0).watchDrop i

/-- End the watches that a test picks. -/
def State.watchEndAll (s : State) (p : Watch → Bool) (st : Status) : State :=
  (s.knight.watches.filter fun e => p e.2).foldl (fun s e => s.watchEnd e.1 st) s

/-- Segments with their start times after T0. -/
def kTimed : Nat → List KSeg → List (KSeg × Nat)
  | _, [] => []
  | t, g :: l => (g, t) :: kTimed (t + g.dur) l

/-- Run a search to its end: the reached goal, or none. `fuel` bounds the batches, which the budget does on the device. -/
def State.kRunSearch (s : State) (q : KQuery) (lib : List Byte) (k : KSearch) : Nat → KSearch × Option Nat
  | 0 => (k, none)
  | fuel + 1 =>
    if (k.batch q.bw).isEmpty then (k, none)
    else
      let r := s.kExpand q lib k
      if r.2.1.isSome then (r.1, r.2.1)
      else if r.1.full then (r.1, none)
      else s.kRunSearch q lib r.1 fuel

/-- Repair a watched path around segment `f`, no segment before the anchor `a` being changed (R436, R440): the local search, and a
re-plan from the anchor where it finds nothing or other live segments still fail. -/
def State.watchRepair (s : State) (q : KQuery) (lib : List Byte) (path : List KSeg) (a f : Nat) (bad : KSeg → Bool) :
    Option (List KSeg) :=
  let fuel := q.budget * 1000
  let lo := Nat.max (f - 1) a
  let x := path.getD lo {}
  let z := path.getD (f + 1) {}
  let k := if path.length ≤ f + 1 then kSearchFrom q lib x.n x.v (q.idx lib q.goal) q.gtol q.vgoal
    else kSearchFrom q lib x.n x.v (kEnd q lib z.n z.prim).1 [] z.vend
  let r := s.kRunSearch q lib k fuel
  let loc := r.2.map fun i => path.take lo ++ r.1.path q lib i ++ path.drop (f + 2)
  match loc.filter fun p => !(p.drop a).any bad with
  | some p => some p
  | none =>
    let y := path.getD a {}
    let r := s.kRunSearch q lib (kSearchFrom q lib y.n y.v (q.idx lib q.goal) q.gtol q.vgoal) fuel
    r.2.map fun i => path.take a ++ r.1.path q lib i

/-- KNIGHT_WATCH_RECHECK: a version change re-checks the live segments that touch a changed region (R440). -/
def execKnightWatchRecheck (slot : Nat) (s : State) : Out :=
  .next (match s.knight.watches.find? fun w => w.1 == slot with
    | none => s
    | some (_, w) =>
      let q := parseQuery w.desc
      let ch := s.kChanged w.snap
      if ch.isEmpty || s.pageSt 0x0B != stOn || s.needsDev w.fn q.out q.outBytes then s
      else
        let touches := fun g => (s.kTouch q w.lib g).any fun r => ch.contains r
        let timed := (kTimed 0 w.path).zipIdx
        let live := fun (e : (KSeg × Nat) × Nat) => decide (s.now < q.t0 + e.1.2 + e.1.1.dur)
        let fails := fun (e : (KSeg × Nat) × Nat) => live e && touches e.1.1 && !s.kPasses q w.lib (e.2 * 4096) e.1.1
        let far := s.now + 1000 * s.getF w.fn { page := 0x0B, off := 0x088, hi := 19, lo := 0 }
        let s0 := s.drawFree
        match timed.find? fails with
        | none => { s0 with knight := { s0.knight with watches := assocInsert slot { w with snap := s.knight.vers } s0.knight.watches } }
        | some (g, f) =>
          if q.t0 + g.2 < far then (s0.watchWrite slot w .pathBlocked [] [] 0).watchDrop slot
          else
            let a := ((timed.find? fun (e : (KSeg × Nat) × Nat) => decide (far ≤ q.t0 + e.1.2)).map (·.2)).getD f
            let bad := fun g => touches g && !s.kPasses q w.lib 0 g
            let s1 := s0.bump 0 { page := 0x0B, off := 0x098, hi := 31, lo := 0 } 1
            match s.watchRepair q w.lib w.path a f bad with
            | some p => if q.outMax < p.length then (s1.watchWrite slot w .planLimit [] [] 0).watchDrop slot
              else s1.watchWrite slot w .ok p [] 4
            | none =>
              let keep := w.path.take a
              let e := kPathEnd q w.lib (q.idx w.lib q.start) q.v0 keep
              let b := s.kBrakeFrom q w.lib e.1 e.2
              (s1.watchWrite slot w .pathBlocked keep b.1 b.2).watchDrop slot)

/-- KNIGHT_WATCH_EXPIRE: the last segment has ended (R440). -/
def execKnightWatchExpire (slot : Nat) (s : State) : Out :=
  .next (match s.knight.watches.find? fun w => w.1 == slot with
    | none => s
    | some (_, w) =>
      let d := (w.path.map KSeg.dur).foldl (· + ·) 0
      if (parseQuery w.desc).t0 + d ≤ s.now then s.watchDrop slot else s)

/-- KNIGHT_WATCH_END_CMD: a slot of another function records ACCESS_DENIED (R440, R446). -/
def execKnightWatchEndCmd (fn v : Nat) (s : State) : Out :=
  .next (s.gated fn 0x0B 0x08C (
    if resvHit 0x0B 0x08C v then s.recErr 0x0B fn .planMalformed 0x08C
    else match s.knight.watches.find? fun w => w.1 == v % 4 with
      | none => s
      | some (i, w) => if w.fn = fn then s.watchDrop i else s.recErr 0x0B fn .accessDenied 0x08C))

/-! ## Map commands (R441) -/

/-- Complete every running query; `out` writes their headers. -/
def State.knightEndAll (s : State) (st : Status) : State :=
  s.knight.eng.tasks.foldl (fun s t => s.kRefuse t.1 t.2 st) s

/-- Begin the clearance update of a map command, which ends it. -/
def State.mapBegin (s : State) (fn : Nat) : State :=
  let s1 := s.clrBegin allRegions
  { s1 with knight := { s1.knight with mapEnd := some fn } }

/-- VA of the map image. -/
def State.mapVa (s : State) : Nat := s.getF 0 Fld.KNT_MAP_VA_LO + 2 ^ 32 * (s.getF 0 Fld.KNT_MAP_VA_HI % 2 ^ 20)

/-- Header of the map image of the geometry in force. -/
def State.mapHeader (s : State) : List Byte :=
  let g := s.knight.geom
  leBytes 1 (bits g.1 3 0) ++ leBytes 1 (bits g.1 7 4) ++ leBytes 1 (bits g.1 11 8) ++ leBytes 1 0 ++ leBytes 4 g.2.1 ++
    leBytes 4 g.2.2.1 ++ leBytes 4 g.2.2.2 ++ leBytes 4 s.knight.orgz ++ leBytes 44 0

/-- Voxel of an index of a map image. -/
def State.mapVoxel (s : State) (i : Nat) : Nat × Nat × Nat :=
  let d := s.mapDims
  (i % d.1, i / d.1 % d.2.1, i / (d.1 * d.2.1))

/-- Number of voxels of the map. -/
def State.mapCount (s : State) : Nat := s.mapDims.1 * s.mapDims.2.1 * s.mapDims.2.2

/-- The occupancy plane of the map, as an image spells it. -/
def State.mapPlane (s : State) : List Byte :=
  (List.range (s.mapCount / 4)).map fun i => BitVec.ofNat 8 ((List.range 4).foldl (fun a k =>
    let v := s.mapVoxel (4 * i + k)
    a + assocGet 0 s.knight.occ (voxKey v.1 v.2.1 v.2.2) * 4 ^ k) 0)

/-- Occupancy codes that the plane of an image gives. -/
def State.mapCodes (s : State) (plane : List Byte) : List (Nat × Nat) :=
  (List.range s.mapCount).foldl (fun o i =>
    let v := s.mapVoxel i
    assocSet 0 o (voxKey v.1 v.2.1 v.2.2) ((plane.getD (i / 4) 0#8).toNat / 4 ^ (i % 4) % 4)) []

/-- What a map command does; no status where a clearance update ends it. -/
def State.mapRun (s : State) (op fn : Nat) : State × Option Status :=
  if s.pageSt 0x0B ≠ stOn then (s, some .cancelled)
  else match op with
    | 1 =>
      let s1 := (s.knightEndAll .cancelled).watchEndAll (fun _ => true) .cancelled
      let g := (s1.getF 0 Fld.KNT_MAP_CFG, s1.getF 0 Fld.KNT_MAP_VOX, s1.getF 0 Fld.KNT_MAP_ORGX, s1.getF 0 Fld.KNT_MAP_ORGY)
      (({ s1 with knight := { s1.knight with
        geom := g, orgz := s1.getF 0 Fld.KNT_MAP_ORGZ, occ := [], caches := [] } }).mapBegin fn, none)
    | 2 => match s.engRead fn s.mapVa (64 + s.mapCount / 4) with
      | .error e => (s, some e)
      | .ok b =>
        let o := s.mapCodes (b.drop 64)
        if b.take 64 ≠ s.mapHeader ∨ o.any (fun e => e.2 == 3) then (s, some .planMalformed)
        else (({ s with knight := { s.knight with occ := o } }).mapBegin fn, none)
    | 3 =>
      let r := s.vaWrite fn .engine s.mapVa (s.mapHeader ++ s.mapPlane)
      (r.1, some (match r.2 with
        | .ok _ => .ok
        | .error e => readStatus e))
    | _ => (({ s with knight := { s.knight with occ := [] } }).mapBegin fn, none)

/-- A write to KNT_MAP_CMD: the operation waits for a running occupancy pass (R441). -/
def State.mapWrite (s : State) (fn v op : Nat) : State :=
  s.pageCmdLong fn 0x0B 0x054 v op (s.isOwner fn) .owned 0 Fld.KNT_MAP_CMD_STS (some 4)
    (if s.fusion.pass.isSome then ({ s with knight := { s.knight with mapCmd := some (op, fn) } }, none) else s.mapRun op fn)

/-- A map command that has waited runs as the pass ends. -/
def State.mapResume (s : State) : State :=
  match s.knight.mapCmd with
  | none => s
  | some (op, fn) =>
    let r := ({ s with knight := { s.knight with mapCmd := none } }).mapRun op fn
    match r.2 with
    | none => r.1
    | some st => (r.1.finishCmd 0 Fld.KNT_MAP_CMD_STS st).raiseIrq 0x0B fn 4

/-- MAPCFG (R441). -/
def execMapcfg (fn v : Nat) (s : State) : Out := .next (s.mapWrite fn v 1)

/-- MAPLOAD (R441). -/
def execMapload (fn v : Nat) (s : State) : Out := .next (s.mapWrite fn v 2)

/-- MAPSAVE (R441). -/
def execMapsave (fn v : Nat) (s : State) : Out := .next (s.mapWrite fn v 3)

/-- MAPCLEAR (R441). -/
def execMapclear (fn v : Nat) (s : State) : Out := .next (s.mapWrite fn v 4)

/-- CLEARANCE_UPDATE_DONE: the clearance plane follows the map, and in the same cycle the versions advance (R405, R419). -/
def execClearanceUpdateDone (s : State) : Out :=
  .next (match s.knight.update with
    | none => s
    | some rs =>
      let more := s.clrChanged rs
      let s1 := { s with knight := { s.knight with
        clrOcc := s.knight.occ, clrUnk := s.flag 0 Fld.KNT_MAP_CFG_UNKOBS, update := none, mapEnd := none } }
      let s2 := s1.bumpVers (rs ++ more)
      match s.knight.mapEnd with
      | none => s2
      | some fn => (s2.finishCmd 0 Fld.KNT_MAP_CMD_STS .ok).raiseIrq 0x0B fn 4)

/-- A change of UNKOBS rebuilds clearance and adds one to every version (R445). -/
def State.unkobsChanged (s : State) : State :=
  ({ s with knight := { s.knight with clrUnk := s.flag 0 Fld.KNT_MAP_CFG_UNKOBS } }).bumpVers allRegions

/-! ## States, resets and faults (R442, R443) -/

/-- What Knight does as it starts: its local memory is cleared. -/
def State.knightStart (s : State) : State :=
  let k := s.knight
  let s1 := { s with knight := { k with
    eng := { k.eng with tasks := [], mism := [] }, runs := [], occ := [], clrOcc := []
    clrUnk := s.flag 0 Fld.KNT_MAP_CFG_UNKOBS, update := none, vers := [], caches := [], watches := []
    mapCmd := none, mapEnd := none } }
  (if k.mapCmd.isSome || k.mapEnd.isSome then s1.finishCmd 0 Fld.KNT_MAP_CMD_STS .cancelled else s1).showWatches

/-- What it does as it stops: running queries end at batch boundaries with CANCELLED, watches end, and the caches are emptied. -/
def State.knightStop (s : State) : State :=
  let s1 := (s.stopTasks knightR .cancelled).watchEndAll (fun _ => true) .cancelled
  { s1 with knight := { s1.knight with caches := [] } }

/-- KNIGHT_ENABLE (R442, R683). -/
def execKnightEnable (fn : Nat) (on : Bool) (s : State) : Out :=
  .next (s.engCtl knightR fn (s.blockEnable 0x0B on State.knightStart State.knightStop))

/-- KNIGHT_QUIESCE (R442, R683). -/
def execKnightQuiesce (fn : Nat) (s : State) : Out := .next (s.engCtl knightR fn (s.blockQuiesce 0x0B State.knightStop))

/-- KNIGHT_RESET (R442, R683). -/
def execKnightReset (fn : Nat) (s : State) : Out :=
  .next (s.engCtl knightR fn (if s.pageSt 0x0B = stFault then s.blockReset 0x0B State.knightStart else s))

/-- KNIGHT_START_DONE (R442). -/
def execKnightStartDone (s : State) : Out := .next (s.blockOn 0x0B (fun s => s) State.knightStop)

/-- KNIGHT_STOP_DONE: both contexts are idle (R442). -/
def execKnightStopDone (s : State) : Out :=
  .next (if s.knight.eng.tasks.isEmpty then s.blockOff 0x0B State.knightStart else s)

/-- KNIGHT_RESIDUE_MISMATCH: the batch is recomputed once; a second mismatch in it fails the query (R443). -/
def execKnightResidueMismatch (ctx : Nat) (s : State) : Out :=
  .next (match s.task knightR ctx with
    | none => s
    | some t =>
      let s1 := s.noteMism knightR { page := 0x0B, off := 0x0A0, hi := 31, lo := 0 }
      if t.mism then s1.kRefuse ctx t .internalError else s1.setTask knightR ctx { t with mism := true })

/-- KNIGHT_THIRD_MISMATCH: a third mismatch within 1 s faults the page (R442). -/
def execKnightThirdMismatch (s : State) : Out :=
  .next (if s.pageSt 0x0B = stOn ∧ s.thirdMism knightR then
    ((s.knightEndAll .internalError).watchEndAll (fun _ => true) .cancelled).setPageSt 0x0B stFault
  else s)

/-- A function level reset, or the release of a partition (R443, R448). -/
def State.knightRelease (s : State) (fn : Nat) : State :=
  let s1 := s.watchEndAll (fun w => w.fn == fn) .cancelled
  let mine := (s1.knight.eng.tasks.filter fun t => t.2.fn == fn).map (·.1)
  let s2 := { s1 with knight := { s1.knight with runs := s1.knight.runs.filter fun e => !mine.contains e.1 } }
  s2.engRelease knightR fn

/-- Whether a query's library, output or scratch lies in the Reserve tier. -/
def State.kInReserve (s : State) (fn : Nat) (desc lib : List Byte) : Bool :=
  let q := parseQuery desc
  s.runInTier fn q.lib lib.length 1 || s.runInTier fn q.out q.outBytes 1 || (q.scr != 0 && s.runInTier fn q.scr (64 * q.maxStates) 1)

/-- A Board reset cancels what lies in the Reserve tier (R443). -/
def State.knightBoard (s : State) : State :=
  let hit := s.knight.eng.tasks.filter fun t => s.kInReserve t.2.fn t.2.desc (assocGet {} s.knight.runs t.1).lib
  let s1 := hit.foldl (fun s t => s.kRefuse t.1 t.2 .cancelled) s
  let s2 := s1.watchEndAll (fun w => s.kInReserve w.fn w.desc w.lib) .cancelled
  { s2 with knight := { s2.knight with
    caches := s2.knight.caches.filter fun e => !s.runInTier e.2.1 e.2.2.1 e.2.2.2.length 1 } }

end Sys2Proof.Machine
end

