-- ==== Sys2Proof/Machine/SolverProb.lean ====
section
/-! DEFINITION. The Solver engine's problems: layout, checks and the structural check (R451, R454 to R459, R463, R466). -/

namespace Sys2Proof.Machine

/-! ## binary64 (R451) -/

/-- Value and code of binary64. -/
def dVal (c : Nat) : FVal := fmtFp64.decode c
def dCode (x : FVal) : Nat := fmtFp64.encode 0 0 x

/-- One operation, rounded to nearest even. -/
def dAdd (a b : Nat) : Nat := dCode (FVal.add 0 (dVal a) (dVal b))
def dSub (a b : Nat) : Nat := dCode (FVal.add 0 (dVal a) (FVal.neg (dVal b)))
def dMul (a b : Nat) : Nat := dCode (FVal.mul (dVal a) (dVal b))
def dDiv (a b : Nat) : Nat := dCode (FVal.div (dVal a) (dVal b))
def dFma (a b c : Nat) : Nat := dCode (FVal.add 0 (FVal.mul (dVal a) (dVal b)) (dVal c))

/-- Whether a code is finite. -/
def dFinite (c : Nat) : Bool := match dVal c with
  | .fin _ _ _ => true
  | _ => false

/-- Strict order and order of codes; false where one is NaN. -/
def dLt (a b : Nat) : Bool := !(dVal a).isNan && !(dVal b).isNan && decide (FVal.cmp (dVal a) (dVal b) < 0)
def dLe (a b : Nat) : Bool := !(dVal a).isNan && !(dVal b).isNan && decide (FVal.cmp (dVal a) (dVal b) ≤ 0)

/-! ## Problems (R454 to R457) -/

/-- A problem descriptor. -/
structure SProb where
  op : Nat
  next : Bool
  lm : Bool
  npose : Nat
  nlmk : Nat
  nblk : Nat
  maxit : Nat
  nextq : Nat
  pose : Nat
  lmk : Nat
  blk : Nat
  out : Nat
  scr : Nat
  gtol : Nat
  ftol : Nat
  xtol : Nat
  pivtol : Nat
  lambda0 : Nat
  lmax : Nat
  budget : Nat
  nhalf : Nat
  bnd : Nat
  deriving DecidableEq, Repr

/-- Parse a problem descriptor. -/
def parseProb (b : List Byte) : SProb :=
  { op := leField b 0 1, next := bit (leField b 1 1) 1, lm := bit (leField b 1 1) 0, npose := leField b 2 2, nlmk := leField b 4 4,
    nblk := leField b 8 4, maxit := leField b 12 2, nextq := leField b 14 2, pose := leField b 16 8, lmk := leField b 24 8,
    blk := leField b 32 8, out := leField b 40 8, scr := leField b 48 8, gtol := leField b 56 8, ftol := leField b 64 8,
    xtol := leField b 72 8, pivtol := leField b 80 8, lambda0 := leField b 88 8, lmax := leField b 96 8, budget := leField b 104 4,
    nhalf := leField b 108 1, bnd := leField b 112 8 }

/-- Number of variables. -/
def SProb.nvar (p : SProb) : Nat := p.npose + p.nlmk

/-- Offset of a variable's entry in a problem's data, and of a block's and a bound's. -/
def SProb.varOff (p : SProb) (v : Nat) : Nat := if v < p.npose then 128 + 64 * v else 128 + 64 * p.npose + 32 * (v - p.npose)
def SProb.blkOff (p : SProb) (b : Nat) : Nat := 128 + 64 * p.npose + 32 * p.nlmk + 64 * b
def SProb.bndOff (p : SProb) (i : Nat) : Nat := p.blkOff p.nblk + 48 * i

/-- Flags byte of a variable: FIXED and BOUNDED; and its bound entry. -/
def SProb.varFlags (p : SProb) (d : List Byte) (v : Nat) : Nat := leField d (p.varOff v + if v < p.npose then 56 else 24) 1
def SProb.fixed (p : SProb) (d : List Byte) (v : Nat) : Bool := bit (p.varFlags d v) 0
def SProb.bounded (p : SProb) (d : List Byte) (v : Nat) : Bool := bit (p.varFlags d v) 1
def SProb.bndIdx (p : SProb) (d : List Byte) (v : Nat) : Nat := leField d (p.varOff v + if v < p.npose then 60 else 28) 4

/-- Codes of a variable's start value: seven of a pose, three of a landmark. -/
def SProb.startOf (p : SProb) (d : List Byte) (v : Nat) : List Nat :=
  (List.range (if v < p.npose then 7 else 3)).map fun i => leField d (p.varOff v + 8 * i) 8

/-- Kind, rows and indices of a block. -/
def SProb.kind (p : SProb) (d : List Byte) (b : Nat) : Nat := leField d (p.blkOff b) 1
def SProb.rows (p : SProb) (d : List Byte) (b : Nat) : Nat :=
  match p.kind d b with
  | 1 => 2
  | 2 => 3
  | 3 => 6
  | 4 => 6
  | _ => 3
def SProb.idxA (p : SProb) (d : List Byte) (b : Nat) : Nat := leField d (p.blkOff b + 4) 4
def SProb.idxB (p : SProb) (d : List Byte) (b : Nat) : Nat := leField d (p.blkOff b + 8) 4
def SProb.hard (p : SProb) (d : List Byte) (b : Nat) : Bool := bit (leField d (p.blkOff b + 1) 1) 4

/-- Variables that a block joins. -/
def SProb.vars (p : SProb) (d : List Byte) (b : Nat) : List Nat :=
  match p.kind d b with
  | 1 => [p.idxA d b, p.npose + p.idxB d b]
  | 2 => [p.idxA d b, p.npose + p.idxB d b]
  | 3 => [p.idxA d b, p.idxB d b]
  | 4 => [p.idxA d b]
  | _ => [p.npose + p.idxB d b]

/-- Free poses and free landmarks; SCRBYTES (R463). -/
def SProb.freePoses (p : SProb) (d : List Byte) : Nat := ((List.range p.npose).filter fun v => !p.fixed d v).length
def SProb.freeLmks (p : SProb) (d : List Byte) : Nat := ((List.range p.nlmk).filter fun j => !p.fixed d (p.npose + j)).length
def SProb.scrBytes (p : SProb) (d : List Byte) : Nat :=
  144 * p.freePoses d * (p.freePoses d + 1) + 128 * p.freeLmks d + 4096

/-- Bytes of the result with its values. -/
def SProb.outBytes (p : SProb) : Nat := 64 + 64 * p.npose + 32 * p.nlmk

/-! ## Checks (R466) -/

/-- What the descriptor alone shows to be malformed. -/
def State.slvMalformed (s : State) (fn : Nat) (b : List Byte) : Bool :=
  let p := parseProb b
  let zero := fun off n => leField b off n == 0
  let notNeg := fun c => !(dVal c).isNan && dLe 0 c
  (p.op != 1 && p.op != 2) || decide (4 ≤ leField b 1 1) || !zero 109 3 || !zero 120 8 ||
    (fn < 64 && p.next && decide (s.qcount fn ≤ p.nextq)) ||
    (if p.op = 2 then leField b 1 1 % 2 != 0 || !zero 2 12 || !zero 32 72 || !zero 108 20
     else p.nvar == 0 || p.nblk == 0 || p.pose % 64 != 0 || p.lmk % 32 != 0 || p.blk % 64 != 0 || p.out % 64 != 0 || p.scr % 64 != 0 ||
      !notNeg p.gtol || !notNeg p.ftol || !notNeg p.xtol || !dLt 0 p.pivtol ||
      (if p.lm then !dLt 0 p.lambda0 || !dLe p.lambda0 p.lmax else p.lambda0 != 0 || p.lmax != 0))

/-- Whether a count is beyond its limit. -/
def slvOverLimit (p : SProb) : Bool :=
  let within := fun lo hi v => decide (lo ≤ v) && decide (v ≤ hi)
  !within 1 60000000 p.budget || (p.op == 1 && (decide (256 < p.npose) || decide (65536 < p.nlmk) || decide (1048576 < p.nblk) ||
    !within 1 1000 p.maxit || decide (16 < p.nhalf)))

/-- Squared norm of a quaternion, exact. -/
def quatSq (q : List Nat) : FVal := q.foldl (fun a c => FVal.add 0 a (FVal.mul (dVal c) (dVal c))) (.fin false 0 0)

/-- Whether a quaternion's norm lies within 10^−6 of 1. -/
def quatOk (q : List Nat) : Bool :=
  let n := FVal.mul (quatSq q) (.fin false (10 ^ 12) 0)
  decide (FVal.cmp (.fin false (999999 ^ 2) 0) n ≤ 0) && decide (FVal.cmp n (.fin false (1000001 ^ 2) 0) ≤ 0)

/-- Whether a variable's entry is malformed. -/
def SProb.varBad (p : SProb) (d : List Byte) (v : Nat) : Bool :=
  let o := p.varOff v
  let q := (p.startOf d v).drop 3
  decide (4 ≤ p.varFlags d v) || leField d (o + if v < p.npose then 57 else 25) 3 != 0 || (p.bounded d v && p.bnd == 0) ||
    (decide (v < p.npose) && q.all dFinite && !quatOk q)

/-- Whether a residual block is malformed. -/
def SProb.blkBad (p : SProb) (d : List Byte) (b : Nat) : Bool :=
  let o := p.blkOff b
  let k := p.kind d b
  let f := leField d (o + 1) 1
  let (a, c) := (p.idxA d b, p.idxB d b)
  let none32 := 0xFFFFFFFF
  let used := if k = 1 then 52 else if k = 2 ∨ k = 5 then 44 else 60
  k == 0 || decide (5 < k) || decide (32 ≤ f) || decide (2 < f % 16) || (bit f 4 && f % 16 != 0) || leField d (o + 2) 2 != 0 ||
    (if k = 5 then a != none32 else decide (p.npose ≤ a)) ||
    (if k = 4 then c != none32 else if k = 3 then decide (p.npose ≤ c) else decide (p.nlmk ≤ c)) ||
    leField d (o + used) (64 - used) != 0

/-- Bounds that a problem names. -/
def SProb.nbnd (p : SProb) (d : List Byte) : Nat :=
  ((List.range p.nvar).filter fun v => p.bounded d v).foldl (fun m v => Nat.max m (p.bndIdx d v + 1)) 0

/-- Function in whose address space a task works: the owner's for Fusion's problem, shown as 64 (R467). -/
def State.slvFn (s : State) (fn : Nat) : Nat := if fn = 64 then s.ownerFn.getD 0 else fn

/-- Read a problem's data: descriptor, poses, landmarks, blocks and bounds, or what refuses it (R465, R466). -/
def State.slvData (s : State) (fn : Nat) (b : List Byte) : Except Status (List Byte) :=
  let p := parseProb b
  let get := fun va n acc (k : List Byte → Except Status (List Byte)) =>
    if !s.extentOk fn va n acc then Except.error Status.accessDenied
    else match s.engRead fn va n with
      | .error e => .error e
      | .ok x => k x
  if !s.extentOk fn p.out p.outBytes .write then .error .accessDenied
  else get p.pose (64 * p.npose) .read fun x => get p.lmk (32 * p.nlmk) .read fun y => get p.blk (64 * p.nblk) .read fun z =>
    let d := b ++ x ++ y ++ z
    if ((List.range p.nvar).any fun v => p.varBad d v) || ((List.range p.nblk).any fun i => p.blkBad d i) then .error .solverMalformed
    else if 1048576 < ((List.range p.nblk).map fun i => p.rows d i).foldl (· + ·) 0 then .error .solverLimit
    else if !s.extentOk fn p.scr (p.scrBytes d) .write then .error .accessDenied
    else get p.bnd (48 * p.nbnd d) .read fun w => .ok (d ++ w)

/-! ## The structural check (R459, R461) -/

/-- Join the component numbers of the free variables that a block joins. -/
def joinComp (comp : List Nat) (vs : List Nat) : List Nat :=
  match vs with
  | [] => comp
  | v :: _ =>
    let m := vs.foldl (fun m w => Nat.min m (comp.getD w 0)) (comp.getD v 0)
    let old := vs.map fun w => comp.getD w 0
    comp.map fun c => if old.contains c then m else c

/-- Components of the free variables, each named by its lowest variable. -/
def SProb.comps (p : SProb) (d : List Byte) : List Nat :=
  (List.range p.nblk).foldl (fun comp b => joinComp comp ((p.vars d b).filter fun v => !p.fixed d v)) (List.range p.nvar)

/-- Whether a component has an anchor of R459 that fixes it, scale included. -/
def SProb.anchored (p : SProb) (d : List Byte) (comp : List Nat) (c : Nat) : Bool :=
  let mine := (List.range p.nblk).filter fun b => (p.vars d b).any fun v => !p.fixed d v && comp.getD v 0 == c
  let fixedOf := fun b => (p.vars d b).filter fun v => p.fixed d v
  let prior := mine.any fun b => p.kind d b == 4 || p.kind d b == 5
  let fx := (mine.flatMap fixedOf).eraseDups
  let scaleFree := match fx with
    | [v] => decide (v < p.npose) && mine.all fun b => !(fixedOf b).contains v || p.kind d b == 1
    | _ => false
  prior || (!fx.isEmpty && !scaleFree)

/-- Whether a free landmark has a POINT3 or PRIORPT block, or REPROJ blocks to two distinct poses. -/
def SProb.lmkOk (p : SProb) (d : List Byte) (j : Nat) : Bool :=
  let mine := (List.range p.nblk).filter fun b => p.idxB d b == j && (p.kind d b == 1 || p.kind d b == 2 || p.kind d b == 5)
  (mine.any fun b => p.kind d b != 1) || decide (2 ≤ ((mine.map fun b => p.idxA d b).eraseDups).length)

/-- The lowest variable of a failing component, if one fails. -/
def SProb.rankBad (p : SProb) (d : List Byte) : Option Nat :=
  let comp := p.comps d
  (List.range p.nvar).find? fun v => !p.fixed d v &&
    (!p.anchored d comp (comp.getD v 0) || (decide (p.npose ≤ v) && !p.lmkOk d (v - p.npose)))

/-- Codes of a bound: LO, then HI. -/
def SProb.bound (p : SProb) (d : List Byte) (v i : Nat) : Nat × Nat :=
  let o := p.bndOff (p.bndIdx d v)
  (leField d (o + 8 * i) 8, leField d (o + 24 + 8 * i) 8)

/-- A BOUNDED variable whose bound has LO above HI. -/
def SProb.boundBad (p : SProb) (d : List Byte) : Option Nat :=
  (List.range p.nvar).find? fun v => p.bounded d v && (List.range 3).any fun i => dLt (p.bound d v i).2 (p.bound d v i).1

end Sys2Proof.Machine
end

