-- ==== Sys2Proof/Machine/SolverMath.lean ====
section
/-! DEFINITION. The Solver engine's arithmetic: residuals, losses, normal equations and steps (R453, R457, R458, R460).

The order of operations of every sum is open (log entry 67). -/

namespace Sys2Proof.Machine

/-- The binary64 code of an FP32 code. -/
def widen (c : Nat) : Nat := dCode (fpVal c)

/-- 10^−6, and one half. -/
def dMicro : Nat := fmtFp64.ratio 1 1000000
def dHalf : Nat := 0x3FE0000000000000

/-! ## Points (R453) -/

/-- Place of a variable's codes in a point. -/
def SProb.at (p : SProb) (v : Nat) : Nat := if v < p.npose then 7 * v else 7 * p.npose + 3 * (v - p.npose)

/-- Codes of a variable in a point: T and Q of a pose, X of a landmark. -/
def SProb.get (p : SProb) (x : List Nat) (v : Nat) : List Nat := (x.drop (p.at v)).take (if v < p.npose then 7 else 3)

/-- Project a variable's codes into its box. -/
def SProb.clamp (p : SProb) (d : List Byte) (v : Nat) (x : List Nat) : List Nat :=
  if p.fixed d v || !p.bounded d v then x
  else x.zipIdx.map fun (e : Nat × Nat) =>
    if 3 ≤ e.2 then e.1
    else
      let b := p.bound d v e.2
      if dLt e.1 b.1 then b.1 else if dLt b.2 e.1 then b.2 else e.1

/-- The start point, projected into its bounds. -/
def SProb.x0 (p : SProb) (d : List Byte) : List Nat := (List.range p.nvar).flatMap fun v => p.clamp d v (p.startOf d v)

/-- exp(δθ / 2) as a quaternion: cos(φ / 2) and sin(φ / 2) δθ / φ, with φ = ‖δθ‖. -/
def slvExp (w : List Nat) : List Nat :=
  let n := fmtFp64.norm [60] w
  if (dVal n).isZero then [fmtFp64.one, 0, 0, 0]
  else
    let h := dMul dHalf n
    let s := Config.slvFn 1 h
    Config.slvFn 0 h :: w.map fun c => if Config.formOf [60] % 2 = 0 then dMul (dDiv s n) c else dDiv (dMul s c) n

/-- Degrees of freedom of a variable, and its place in a step: six for each pose, three for each landmark. -/
def SProb.dof (p : SProb) (v : Nat) : Nat := if v < p.npose then 6 else 3
def SProb.stepAt (p : SProb) (v : Nat) : Nat := if v < p.npose then 6 * v else 6 * p.npose + 3 * (v - p.npose)

/-- project(x + d): T := T + δT and q := q ⊗ exp(δθ / 2). -/
def SProb.move (p : SProb) (d : List Byte) (x step : List Nat) : List Nat :=
  (List.range p.nvar).flatMap fun v =>
    let c := p.get x v
    if p.fixed d v then c
    else
      let o := p.stepAt v
      let t := (List.range 3).map fun i => dAdd (c.getD i 0) (step.getD (o + i) 0)
      let q := if v < p.npose then fmtFp64.qmul [61] (c.drop 3) (slvExp ((step.drop (o + 3)).take 3)) else []
      p.clamp d v (t ++ q)

/-! ## Residual blocks (R457) -/

/-- What a block gives at a point: its rows, each row's derivatives by variable, and whether its landmark lies at depth 10^−6 m or
nearer, where it gives no rows. -/
structure SEval where
  rows : List Nat := []
  jac : List (List (Nat × List Nat)) := []
  behind : Bool := false
  deriving DecidableEq, Repr, Inhabited

/-- The derivatives of a row by the pose (translation, then rotation) and by the point, where the row depends on Rᵀ(X − T), worth `c`,
with derivatives `a`. -/
def chainRow (site : List Nat) (r : List (List Nat)) (c a : List Nat) : List Nat × List Nat :=
  let f := fmtFp64
  let pt := (List.range 3).map fun k => f.dot (k :: site) a (r.getD k [])
  let g := fun i => a.getD i 0
  let h := fun i => c.getD i 0
  let turn := [
    f.sum (3 :: site) [.prod (g 1) (h 2), .prod (f.neg (g 2)) (h 1)],
    f.sum (4 :: site) [.prod (g 2) (h 0), .prod (f.neg (g 0)) (h 2)],
    f.sum (5 :: site) [.prod (g 0) (h 1), .prod (f.neg (g 1)) (h 0)]]
  (pt.map f.neg ++ turn, pt)

/-- A row of zeros but for one code. -/
def unitRow (n i c : Nat) : List Nat := (List.range n).map fun k => if k = i then c else 0

/-- FX x / z + CX. -/
def pinhole (site : List Nat) (fx x z cx : Nat) : Nat :=
  match Config.formOf site % 3 with
  | 0 => dAdd (dDiv (dMul fx x) z) cx
  | 1 => dAdd (dMul fx (dDiv x z)) cx
  | _ => dFma fx (dDiv x z) cx

/-- dq of a BETWEEN or PRIORPOSE block: vector part and w = √(1 − |v|²). -/
def SProb.dq (p : SProb) (d : List Byte) (b : Nat) : List Nat :=
  let v := (List.range 3).map fun i => widen (leField d (p.blkOff b + 40 + 4 * i) 4)
  fmtFp64.sqrt (fmtFp64.less [62] fmtFp64.one v v) :: v

/-- The three rows of log(e) / σ: their values, and their derivatives by the rotation on side `k` (log entry 26). -/
def logRows (e other : List Nat) (k sigma : Nat) : List Nat × List (List Nat) :=
  ((Config.slvLog e).map fun c => dDiv c sigma,
   (List.range 3).map fun i => (Config.slvLogJac k e other i).map fun c => dDiv c sigma)

/-- Evaluate a block at a point. -/
def SProb.evalBlock (p : SProb) (d : List Byte) (x : List Nat) (b : Nat) : SEval :=
  let f := fmtFp64
  let o := p.blkOff b
  let d64 := fun i => leField d (o + i) 8
  let d32 := fun i => widen (leField d (o + i) 4)
  let (va, vb) := (p.idxA d b, p.npose + p.idxB d b)
  let pose := p.get x va
  let r := f.rot [b, 0] (pose.drop 3)
  let rel := fun y => f.mulVec [b, 1] (columnsOf 3 r) (f.vsub y (pose.take 3))
  match p.kind d b with
  | 1 =>
    let c := rel (p.get x vb)
    let (z, sg) := (c.getD 2 0, d32 48)
    if dLe z dMicro then { behind := true }
    else
      let row := fun k => dDiv (dSub (pinhole [b, 2, k] (d32 (32 + 4 * k)) (c.getD k 0) z (d32 (40 + 4 * k))) (d64 (16 + 8 * k))) sg
      let grad := fun k =>
        let fz := dDiv (d32 (32 + 4 * k)) z
        (unitRow 2 k (dDiv fz sg)) ++ [f.neg (dDiv (dMul fz (dDiv (c.getD k 0) z)) sg)]
      { rows := [row 0, row 1]
        jac := (List.range 2).map fun k =>
          let j := chainRow [b, 3, k] r c (grad k)
          [(va, j.1), (vb, j.2)] }
  | 2 =>
    let c := rel (p.get x vb)
    let sg := d32 40
    { rows := (List.range 3).map fun i => dDiv (dSub (c.getD i 0) (d64 (16 + 8 * i))) sg
      jac := (List.range 3).map fun i =>
        let j := chainRow [b, 3, i] r c (unitRow 3 i (dDiv f.one sg))
        [(va, j.1), (vb, j.2)] }
  | 3 =>
    let vc := p.idxB d b
    let other := p.get x vc
    let c := rel (other.take 3)
    let (st, sr) := (d32 52, d32 56)
    let (qa, qb, dq) := (f.qconj (pose.drop 3), other.drop 3, f.qconj (p.dq d b))
    let e := if Config.formOf [63] % 2 = 0 then f.qmul [b, 5] (f.qmul [b, 6] dq qa) qb else f.qmul [b, 5] dq (f.qmul [b, 6] qa qb)
    let ja := logRows e (f.qmul [b, 7] qa qb) 0 sr
    let jb := logRows e (f.qmul [b, 7] qa qb) 1 sr
    { rows := ((List.range 3).map fun i => dDiv (dSub (c.getD i 0) (d64 (16 + 8 * i))) st) ++ ja.1
      jac := ((List.range 3).map fun i =>
          let j := chainRow [b, 3, i] r c (unitRow 3 i (dDiv f.one st))
          [(va, j.1), (vc, j.2 ++ [0, 0, 0])]) ++
        (List.range 3).map fun i => [(va, [0, 0, 0] ++ ja.2.getD i []), (vc, [0, 0, 0] ++ jb.2.getD i [])] }
  | 4 =>
    let (st, sr) := (d32 52, d32 56)
    let jb := logRows (f.qmul [b, 5] (f.qconj (p.dq d b)) (pose.drop 3)) (pose.drop 3) 1 sr
    { rows := ((List.range 3).map fun i => dDiv (dSub (pose.getD i 0) (d64 (16 + 8 * i))) st) ++ jb.1
      jac := ((List.range 3).map fun i => [(va, unitRow 6 i (dDiv f.one st))]) ++
        (List.range 3).map fun i => [(va, [0, 0, 0] ++ jb.2.getD i [])] }
  | _ =>
    let sg := d32 40
    let y := p.get x vb
    { rows := (List.range 3).map fun i => dDiv (dSub (y.getD i 0) (d64 (16 + 8 * i))) sg
      jac := (List.range 3).map fun i => [(vb, unitRow 3 i (dDiv f.one sg))] }

/-- Every block at a point. -/
def SProb.evals (p : SProb) (d : List Byte) (x : List Nat) : List SEval := (List.range p.nblk).map fun b => p.evalBlock d x b

/-- Blocks without rows at a point. -/
def SProb.behind (p : SProb) (d : List Byte) (x : List Nat) : Nat := ((p.evals d x).filter fun e => e.behind).length

/-- The lowest block whose residual or Jacobian is not finite. -/
def SProb.badBlock (p : SProb) (d : List Byte) (x : List Nat) : Option Nat :=
  (List.range p.nblk).find? fun b =>
    let e := p.evalBlock d x b
    !e.rows.all dFinite || !e.jac.all fun r => r.all fun (g : Nat × List Nat) => p.fixed d g.1 || g.2.all dFinite

/-! ## Losses (R458) -/

/-- A block's squared weighted norm, and the norm that a HARD block is held to (R461). -/
def slvSq (b : Nat) (e : SEval) : Nat := fmtFp64.dot [b, 8] e.rows e.rows
def SProb.hardNorm (p : SProb) (d : List Byte) (x : List Nat) (b : Nat) : Nat := fmtFp64.sqrt (slvSq b (p.evalBlock d x b))

/-- ρ and ρ′ of a block's loss at s. -/
def SProb.rho (p : SProb) (d : List Byte) (b s : Nat) : Nat :=
  let c := widen (leField d (p.blkOff b + 12) 4)
  let c2 := dMul c c
  match leField d (p.blkOff b + 1) 1 % 16 with
  | 0 => s
  | 1 => if dLe s c2 then s else fmtFp64.sum [b, 9] [.prod (dMul (fmtFp64.ofInt 2) c) (fmtFp64.sqrt s), .prod (fmtFp64.neg c) c]
  | _ => dMul c2 (Config.slvFn 2 (dAdd fmtFp64.one (dDiv s c2)))
def SProb.weight (p : SProb) (d : List Byte) (b s : Nat) : Nat :=
  let c := widen (leField d (p.blkOff b + 12) 4)
  let c2 := dMul c c
  match leField d (p.blkOff b + 1) 1 % 16 with
  | 0 => fmtFp64.one
  | 1 => if dLe s c2 then fmtFp64.one else dDiv c (fmtFp64.sqrt s)
  | _ => dDiv fmtFp64.one (dAdd fmtFp64.one (dDiv s c2))

/-- ½ Σ ρ over all blocks. -/
def SProb.cost (p : SProb) (d : List Byte) (x : List Nat) : Nat :=
  dMul dHalf (fmtFp64.sum [10] ((p.evals d x).zipIdx.map fun (e : SEval × Nat) => .val (p.rho d e.2 (slvSq e.2 e.1))))

/-! ## Normal equations (R460) -/

/-- Derivatives of a row by a variable: zeros where the row does not depend on it. -/
def jacOf (row : List (Nat × List Nat)) (v : Nat) : Option (List Nat) :=
  match row.filter fun (e : Nat × List Nat) => e.1 == v with
  | [] => none
  | e :: l => some (l.foldl (fun a e => fmtFp64.vadd a e.2) e.2)

/-- Weighted rows: the block's weight, the row's value and its derivatives. -/
def SProb.wrows (p : SProb) (d : List Byte) (x : List Nat) : List (Nat × Nat × List (Nat × List Nat)) :=
  (p.evals d x).zipIdx.flatMap fun (e : SEval × Nat) =>
    (e.1.rows.zip e.1.jac).map fun r => (p.weight d e.2 (slvSq e.2 e.1), r.1, r.2)

/-- The block of Jᵀ W J for two variables, and that of Jᵀ W r for one. -/
def SProb.hBlock (p : SProb) (ws : List (Nat × Nat × List (Nat × List Nat))) (u v : Nat) : List (List Nat) :=
  (List.range (p.dof u)).map fun i => (List.range (p.dof v)).map fun j =>
    fmtFp64.sum [11, u, v, i, j] (ws.filterMap fun r => match jacOf r.2.2 u, jacOf r.2.2 v with
      | some a, some b => some (FpTerm.prod (dMul r.1 (a.getD i 0)) (b.getD j 0))
      | _, _ => none)
def SProb.gBlock (p : SProb) (ws : List (Nat × Nat × List (Nat × List Nat))) (u : Nat) : List Nat :=
  (List.range (p.dof u)).map fun i =>
    fmtFp64.sum [12, u, i] (ws.filterMap fun r => (jacOf r.2.2 u).map fun a => FpTerm.prod (dMul r.1 (a.getD i 0)) r.2.1)

/-- Free poses, and free landmarks, as variables. -/
def SProb.freeP (p : SProb) (d : List Byte) : List Nat := (List.range p.npose).filter fun v => !p.fixed d v
def SProb.freeL (p : SProb) (d : List Byte) : List Nat := ((List.range p.nlmk).map fun j => p.npose + j).filter fun v => !p.fixed d v

/-- ‖g‖∞. -/
def SProb.gnorm (p : SProb) (d : List Byte) (x : List Nat) : Nat :=
  let ws := p.wrows d x
  ((p.freeP d ++ p.freeL d).flatMap fun v => p.gBlock ws v).foldl
    (fun m c => if dLt m (fmtFp64.abs c) then fmtFp64.abs c else m) 0

/-- H + λ diag(H) under LM: the diagonal of a variable's own block. -/
def SProb.damp (p : SProb) (lambda : Nat) (m : List (List Nat)) : List (List Nat) :=
  if !p.lm then m
  else m.zipIdx.map fun (r : List Nat × Nat) => r.1.zipIdx.map fun (c : Nat × Nat) =>
    if r.2 = c.2 then (if Config.formOf [64] % 2 = 0 then dAdd c.1 (dMul lambda c.1) else dFma lambda c.1 c.1) else c.1

/-- The largest diagonal of a matrix. -/
def maxDiag (m : List (List Nat)) : Nat :=
  m.zipIdx.foldl (fun a (r : List Nat × Nat) => if dLt a (r.1.getD r.2 0) then r.1.getD r.2 0 else a) 0

/-- A landmark's 3 × 3 block inverted, or none where a pivot is small. -/
def SProb.invert (p : SProb) (v : Nat) (m : List (List Nat)) : Option (List (List Nat)) :=
  match fmtFp64.chol [13, v] (dMul p.pivtol (maxDiag m)) m [] with
  | .error _ => none
  | .ok l => some (columnsOf 3 ((List.range 3).map fun k => fmtFp64.cholSolve [14, v, k] l (unitRow 3 k fmtFp64.one)))

/-- A trial's linear solve: the variable of the first small pivot, if there is one, and otherwise the step d. -/
def SProb.solve (p : SProb) (d : List Byte) (x : List Nat) (lambda : Nat) : Option Nat × List Nat :=
  let f := fmtFp64
  let ws := p.wrows d x
  let (ps, ls) := (p.freeP d, p.freeL d)
  let inv := ls.map fun v => (v, p.invert v (p.damp lambda (p.hBlock ws v v)))
  match inv.find? fun e => e.2.isNone with
  | some e => (some e.1, [])
  | none =>
    let hpl := fun u => ls.flatMap fun v => [p.hBlock ws u v]
    -- row i of Hpl for a pose, and of Hpl Hll⁻¹, along all free landmarks
    let rowH := fun u i => (hpl u).flatMap fun m => m.getD i []
    let rowY := fun u i => ((hpl u).zip inv).flatMap fun e =>
      f.mulVec [15, u, i, e.2.1] (columnsOf 3 (e.2.2.getD [])) (e.1.getD i [])
    let gl := ls.flatMap fun v => p.gBlock ws v
    let sMat := ps.flatMap fun u => (List.range 6).map fun i => ps.flatMap fun v => (List.range 6).map fun j =>
      let h := if u = v then (p.damp lambda (p.hBlock ws u v)) else p.hBlock ws u v
      f.less [16, u, i, v, j] ((h.getD i []).getD j 0) (rowY u i) (rowH v j)
    let rhs := ps.flatMap fun u => (List.range 6).map fun i =>
      f.neg (f.less [17, u, i] ((p.gBlock ws u).getD i 0) (rowY u i) gl)
    match f.chol [18] (dMul p.pivtol (maxDiag sMat)) sMat [] with
    | .error k => (some (ps.getD (k / 6) 0), [])
    | .ok l =>
      let dp := f.cholSolve [19] l rhs
      let dl := inv.map fun e =>
        let cols := columnsOf 3 (ps.flatMap fun u => p.hBlock ws u e.1)
        let t := (List.range 3).map fun b =>
          f.sum [20, e.1, b] (.val ((p.gBlock ws e.1).getD b 0) :: List.zipWith .prod (cols.getD b []) dp)
        (e.1, (f.mulVec [21, e.1] (e.2.getD []) t).map f.neg)
      (none, (List.range p.nvar).flatMap fun v =>
        if v < p.npose then
          match ps.findIdx? fun u => u == v with
          | some k => (dp.drop (6 * k)).take 6
          | none => List.replicate 6 0
        else ((dl.find? fun (e : Nat × List Nat) => e.1 == v).map (·.2)).getD [0, 0, 0])

/-- Euclidean norm of a step or of a point (R460). -/
def slvNorm (l : List Nat) : Nat := fmtFp64.norm [22] l

end Sys2Proof.Machine
end

