-- ==== Sys2Proof/Machine/Solver.lean ====
section
/-! DEFINITION. The Solver engine: trials, schedules, commands and states (chapter 14). -/

namespace Sys2Proof.Machine

/-! ## Trials (R460, R461) -/

/-- Cycles of a trial (R464). -/
def SProb.trialCycles (p : SProb) (d : List Byte) : Nat :=
  let rows := ((List.range p.nblk).map fun b => p.rows d b).foldl (· + ·) 0
  let links := fun j => ((List.range p.nblk).filter fun b => p.kind d b != 3 && p.kind d b != 4 && p.kind d b != 5 && p.idxB d b == j &&
    !p.fixed d (p.idxA d b)).length
  let ks := ((List.range p.nlmk).filter fun j => !p.fixed d (p.npose + j)).map fun j => links j * links j
  let n := 6 * p.freePoses d
  2000 + 40 * rows + 12 * p.freeLmks d + 3 * ks.foldl (· + ·) 0 + cdiv (n * n * n) 96

/-- Whether a bound is active at a point. -/
def SProb.boundAct (p : SProb) (d : List Byte) (x : List Nat) : Bool :=
  (List.range p.nvar).any fun v => !p.fixed d v && p.bounded d v && (List.range 3).any fun i =>
    let c := (p.get x v).getD i 0
    let b := p.bound d v i
    (dLe c b.1 && dLe b.1 c) || (dLe c b.2 && dLe b.2 c)

/-- The loop stops with a solution: HARD blocks are evaluated (R461). -/
def SProb.stopWith (p : SProb) (r : SolverRun) (maxit : Bool) : SolverRun :=
  let hard := (List.range p.nblk).find? fun b => p.hard r.data b &&
    !dLe (p.hardNorm r.data r.x b) (dCode (fpVal (leField r.data (p.blkOff b + 12) 4)))
  let fl := (if maxit then 1 else 0) + (if p.boundAct r.data r.x then 2 else 0)
  match hard with
  | some b => { r with result := some (.infeasible, 2 ^ 31 + b, if maxit then 1 else 0) }
  | none => { r with result := some (.ok, 0, fl) }

/-- Whether an accepted step from `x` to `x'` by `step` converges. -/
def SProb.converged (p : SProb) (c c' g : Nat) (step x : List Nat) : Bool :=
  dLe g p.gtol || dLe (dDiv (dSub c c') c) p.ftol ||
    dLe (slvNorm step) (dMul p.xtol (dAdd (slvNorm x) p.xtol))

/-- An accepted step: the point moves, and the loop stops where it has converged or MAXIT is reached. -/
def SProb.accept (p : SProb) (r : SolverRun) (x' step : List Nat) : SolverRun :=
  let c' := p.cost r.data x'
  let conv := p.converged r.cost c' r.gnorm step r.x
  let r1 := { r with
    x := x', cost := c', accepted := r.accepted + 1, gnorm := p.gnorm r.data x'
    lambda := if p.lm then dDiv r.lambda 0x4008000000000000 else 0 }
  if conv then p.stopWith r1 false else if p.maxit ≤ r1.trials then p.stopWith r1 true else r1

/-- A rejected trial under LM: λ grows, up to LMAX. -/
def SProb.reject (p : SProb) (r : SolverRun) : SolverRun :=
  let r1 := { r with lambda := dMul 0x4010000000000000 r.lambda }
  if dLt p.lmax r1.lambda then { r1 with result := some (.noDescent, r1.trials, 0) }
  else if p.maxit ≤ r1.trials then p.stopWith r1 true
  else r1

/-- Gauss-Newton halvings of a step until the cost falls: each counts toward MAXIT. -/
def SProb.halve (p : SProb) : Nat → SolverRun → List Nat → SolverRun
  | k, r, step =>
    let x' := p.move r.data r.x step
    let r1 := { r with trials := r.trials + 1, behind := r.behind + p.behind r.data x' }
    let c' := p.cost r.data x'
    if dFinite c' && dLt c' r.cost then p.accept r1 x' step
    else match k with
      | 0 => { r1 with result := some (.noDescent, r1.trials, 0) }
      | k + 1 => if p.maxit ≤ r1.trials then p.stopWith r1 true else p.halve k r1 (step.map fun c => dMul c dHalf)

/-- One trial (R460). -/
def SProb.trial (p : SProb) (r : SolverRun) : SolverRun :=
  let (piv, step) := p.solve r.data r.x r.lambda
  match piv with
  | some v => if p.lm then p.reject { r with trials := r.trials + 1 } else { r with result := some (.rankDeficient, v, 0) }
  | none =>
    if p.lm then
      let x' := p.move r.data r.x step
      let r1 := { r with trials := r.trials + 1, behind := r.behind + p.behind r.data x' }
      let c' := p.cost r.data x'
      if dFinite c' && dLt c' r.cost then p.accept r1 x' step else p.reject r1
    else p.halve p.nhalf r step

/-- Setup and the structural check; the run before its first trial (R459, R460). -/
def SProb.setup (p : SProb) (d : List Byte) : SolverRun :=
  let x := p.x0 d
  let r : SolverRun := { data := d, x := x, begun := true, lambda := if p.lm then p.lambda0 else 0 }
  let stop := fun st det => { r with result := some (st, det, 0) }
  match p.rankBad d, p.boundBad d with
  | some v, _ => stop .rankDeficient v
  | none, some v => stop .infeasible v
  | none, none => match (List.range p.nvar).find? fun v => !(p.startOf d v).all dFinite with
    | some v => stop .nonfinite v
    | none => match p.badBlock d x with
      | some b => stop .nonfinite (2 ^ 31 + b)
      | none =>
        let c := p.cost d x
        { r with
          cost0 := c, cost := c, gnorm := p.gnorm d x, behind := p.behind d x, left := p.trialCycles d }

/-! ## KY2100 schedules (R468, R469) -/

/-- One operation of a schedule: the value array after it, or how the replay ends. -/
def slvOp (w : Nat) (vals : List Nat) : Except (Status × Bool) (List Nat) :=
  let (opc, di, ai, bi, ci) := (bits w 63 58, bits w 55 42, bits w 41 28, bits w 27 14, bits w 13 0)
  let n := vals.length
  if bits w 57 56 ≠ 0 ∨ 7 < opc then .error (.solverMalformed, false)
  else if opc = 7 then .error (.ok, true)
  else if n ≤ di ∨ n ≤ ai ∨ n ≤ bi ∨ n ≤ ci then .error (.solverMalformed, false)
  else
    let (a, b, c) := (vals.getD ai 0, vals.getD bi 0, vals.getD ci 0)
    let r := match opc with
      | 0 => dFma a b c
      | 1 => dCode (FVal.add 0 (dVal c) (FVal.neg (FVal.mul (dVal a) (dVal b))))
      | 2 => dDiv a b
      | 3 => dCode (FVal.sqrt (dVal a))
      | 4 => dMul a b
      | 5 => dAdd a b
      | _ => a
    if dFinite r then .ok (vals.set di r) else .error (.nonfinite, false)

/-- Up to `fuel` operations of a replay. -/
def slvReplay : Nat → SolverRun → SolverRun
  | 0, r => r
  | fuel + 1, r =>
    match r.result with
    | some _ => r
    | none =>
      if r.ops.length ≤ r.pc then { r with result := some (.ok, 0, 0) }
      else match slvOp (r.ops.getD r.pc 0) r.vals with
        | .ok v => slvReplay fuel { r with vals := v, pc := r.pc + 1 }
        | .error (st, _) => { r with result := some (st, r.pc, 0) }

/-- The words of eight bytes of a run of bytes. -/
def words8 (n : Nat) (b : List Byte) : List Nat := (List.range n).map fun i => leField b (8 * i) 8

/-- Load a schedule and its values (R468). -/
def State.slvSchedule (s : State) (fn : Nat) (p : SProb) : Except Status SolverRun :=
  if !s.extentOk fn p.pose 64 .read then .error .accessDenied
  else match s.engRead fn p.pose 64 with
    | .error e => .error e
    | .ok h =>
      let (nops, nval) := (leField h 4 4, leField h 8 4)
      if leField h 0 2 ≠ 0x2100 ∨ leField h 2 2 ≠ 1 ∨ leField h 12 52 ≠ 0 ∨ nops = 0 ∨ nval = 0 then .error .solverMalformed
      else if 16777216 < nops ∨ 16384 < nval then .error .solverLimit
      else if !s.extentOk fn (p.pose + 64) (8 * nops) .read ∨ !s.extentOk fn p.lmk (8 * nval) .write then .error .accessDenied
      else match s.engRead fn (p.pose + 64) (8 * nops), s.engRead fn p.lmk (8 * nval) with
        | .ok o, .ok v => .ok { replay := true, ops := words8 nops o, vals := words8 nval v }
        | .error e, _ => .error e
        | _, .error e => .error e

/-! ## Completion (R462, R463) -/

/-- The result header. -/
def slvHeader (r : SolverRun) (st : Status) (detail flags : Nat) : List Byte :=
  leBytes 2 st.code ++ leBytes 1 flags ++ leBytes 1 0 ++ leBytes 2 r.accepted ++ leBytes 2 r.trials ++ leBytes 4 detail ++
    leBytes 4 r.behind ++ leBytes 8 r.cost0 ++ leBytes 8 r.cost ++ leBytes 8 r.gnorm ++ leBytes 8 r.lambda ++ leBytes 16 0

/-- The solved variables in the format of R455. -/
def SProb.values (p : SProb) (r : SolverRun) : List Byte :=
  (List.range p.nvar).flatMap fun v =>
    let n := if v < p.npose then 64 else 32
    let k := if v < p.npose then 56 else 24
    ((p.get r.x v).flatMap fun c => leBytes 8 c) ++ ((r.data.drop (p.varOff v + k)).take (n - k))

/-- Write the values and the header, and finish the problem; Fusion's problem raises CAL instead of a function's interrupts and hands
its status and pose to Fusion (R463, R467, R475). -/
def State.slvFinish (s : State) (ctx : Nat) (t : Task) (r : SolverRun) (st : Status) (detail flags : Nat) : State :=
  let p := parseProb t.desc
  let fn := s.slvFn t.fn
  let s1 := if p.op = 2 then
      if st = .ok ∧ r.replay then (s.vaWrite fn .engine p.lmk (r.vals.flatMap fun c => leBytes 8 c)).1 else s
    else
      let s0 := if st = .ok then (s.vaWrite fn .engine (p.out + 64) (p.values r)).1 else s
      (s0.vaWrite fn .engine p.out (slvHeader r st detail flags)).1
  let s2 := { s1 with solver := { s1.solver with runs := assocErase ctx s1.solver.runs } }
  if t.fn = 64 then
    let s3 := (s2.dropTask solverR ctx).raiseIrq 0x0C fn 3
    { s3 with
      solver := { s3.solver with cal := false }
      fusion := { s3.fusion with batchDone := some (st.code, p.get r.x 0) } }
  else
    let s3 := s2.finishTask solverR ctx t st (if p.next then some p.nextq else none)
    if st.isSuccess then s3 else s3.bump t.fn Fld.SLV_FAILS 1

/-- Put the state of a running problem back. -/
def State.setSRun (s : State) (ctx : Nat) (r : SolverRun) : State :=
  { s with solver := { s.solver with runs := assocInsert ctx r s.solver.runs } }

/-- Scratch from the taking of a problem on: what the engine keeps there is its own (R463; log entry 26). -/
def State.slvScribble (s : State) (fn : Nat) (p : SProb) (d : List Byte) : State :=
  let n := p.scrBytes d
  ({ s with free := s.free + n }.vaWrite fn .engine p.scr ((List.range n).map fun i => Config.free (s.free + i) 8)).1

/-- Check a taken descriptor, and begin setup (R464), or run the first panel of a schedule. -/
def State.slvBegin (s : State) (ctx : Nat) (t : Task) : State :=
  let p := parseProb t.desc
  let fn := s.slvFn t.fn
  if s.slvMalformed t.fn t.desc then s.slvFinish ctx t {} .solverMalformed 0 0
  else if slvOverLimit p then s.slvFinish ctx t {} .solverLimit 0 0
  else if p.op = 2 then match s.slvSchedule fn p with
    | .error e => s.slvFinish ctx t {} e 0 0
    | .ok r => s.setSRun ctx (slvReplay 16384 r)
  else match s.slvData fn t.desc with
    | .error e => s.slvFinish ctx t {} e 0 0
    | .ok d => (s.slvScribble fn p d).setSRun ctx { data := d, left := 5000 + 8 * p.nblk }

/-- VA of the calibration area (R467). -/
def State.calVa (s : State) : Nat :=
  s.getF 0 Fld.SLV_CAL_LO_VA * 2 ^ 21 + 2 ^ 32 * (s.getF 0 Fld.SLV_CAL_HI % 2 ^ 20)

/-- Take the descriptor at the head of a function's ring, or Fusion's calibration problem as function 64. -/
def State.slvTake (s : State) (fn op : Nat) : State :=
  if fn = 64 then
    if op ≠ 1 ∨ !s.solver.cal ∨ !s.engTakes solverR ∨ (s.task solverR 1).isSome ∨ !s.ringTurn solverR 64 0 then s
    else
      let t : Task := { fn := 64, va := s.calVa, cls := 0, started := s.ticks }
      let s := s.ringTaken solverR 64 0
      match s.engRead (s.slvFn 64) s.calVa 128 with
      | .error e => (s.setTask solverR 1 t).slvFinish 1 t {} e 0 0
      | .ok b =>
        let t1 := { t with desc := b }
        (s.setTask solverR 1 t1).slvBegin 1 t1
  else if !s.ringServed solverR fn then s
  else
    let ctx := ctxOf (s.getF fn (solverR.cfg 5 4))
    let r := s.ringDesc solverR fn
    match r.2.2 with
    | .error .held => s
    | .error e =>
      let s2 := r.1.takeTask solverR fn r.2.1 (List.replicate 128 0#8)
      match s2.task solverR ctx with
      | some t => (s2.finishTask solverR ctx t (readStatus e) none).bump fn Fld.SLV_FAILS 1
      | none => s2
    | .ok b =>
      if leField b 0 1 = 3 - op then s
      else
        let s2 := r.1.takeTask solverR fn r.2.1 b
        match s2.task solverR ctx with
        | none => s2
        | some t => s2.slvBegin ctx t

/-- SOLVER_SOLVE: a SOLVE descriptor, one with a reserved OP, or Fusion's problem is taken (R465 to R467). -/
def execSolverSolve (fn : Nat) (s : State) : Out := .next (s.slvTake fn 1)

/-- SOLVER_REPLAY: a REPLAY descriptor is taken and its schedule runs (R468, R469). -/
def execSolverReplay (fn : Nat) (s : State) : Out := .next (s.slvTake fn 2)

/-- SOLVER_TAIL_DOORBELL (R465). -/
def execSolverTailDoorbell (fn v : Nat) (s : State) : Out := .next (s.engTail solverR fn v)

/-- Whether context 0 has a panel ready. -/
def State.slvReady0 (s : State) : Bool :=
  (s.task solverR 0).isSome && s.solver.runs.any fun e => e.1 == 0 && e.2.result.isNone

/-- SOLVER_PANEL: a panel of at most 16,384 cycles ends; setup and a trial take effect with their last panel; at its boundary an
exhausted BUDGET is TIMEOUT; an uncorrectable error of the
context's local memory ends the problem (R460, R461, R464 to R466, R473). -/
def execSolverPanel (ctx : Nat) (s : State) : Out :=
  .next (match s.task solverR ctx, s.solver.runs.find? fun e => e.1 == ctx with
    | some t, some (_, r) =>
      let p := parseProb t.desc
      let busy := s.slvReady0
      let s1 := (s.chargeTask solverR ctx)
      let t1 := (s1.task solverR ctx).getD t
      let s2 := (s1.setTask solverR ctx { t1 with mism := false }).ctxRan solverR ctx busy
      if !s.ctxMay solverR ctx busy then s
      else match s2.localErr 0x0C ctx with
      | some (_, s3) => s3.slvFinish ctx t1 r .eccUncorrectable 0 0
      | none => match t.stop with
      | some st => s2.slvFinish ctx t1 r st (if st = .timeout then r.trials else 0) 0
      | none =>
        if r.result.isSome then s2
        else if 250 * p.budget ≤ t1.used then s2.slvFinish ctx t1 r .timeout r.trials 0
        else if r.replay then s2.setSRun ctx (slvReplay 16384 r)
        else if 16384 < r.left then s2.setSRun ctx { r with left := r.left - 16384 }
        else if !r.begun then s2.setSRun ctx (p.setup r.data)
        else
          let r1 := { p.trial r with left := p.trialCycles r.data }
          let s3 := s2.setSRun ctx r1
          if t.fn = 64 then s3 else s3.bump t.fn Fld.SLV_TRIALS (r1.trials - r.trials)
    | _, _ => s)

/-- SOLVER_BUDGET_EXPIRY: the problem completes with TIMEOUT at its next panel boundary (R461). -/
def execSolverBudgetExpiry (ctx : Nat) (s : State) : Out :=
  .next (
    let s1 := s.chargeTask solverR ctx
    match s1.task solverR ctx with
    | none => s
    | some t =>
      let done := (assocGet {} s.solver.runs ctx).result.isSome
      if t.used < 250 * (parseProb t.desc).budget || done then s1
      else s1.setTask solverR ctx { t with stop := t.stop.orElse fun _ => some .timeout })

/-- SOLVER_PROBLEM_COMPLETE: a problem that has ended writes its values and header (R463). -/
def execSolverProblemComplete (ctx : Nat) (s : State) : Out :=
  .next (match s.task solverR ctx, (assocGet {} s.solver.runs ctx).result with
    | some t, some (st, det, fl) => s.slvFinish ctx t (assocGet {} s.solver.runs ctx) st det fl
    | _, _ => s)

/-! ## States, resets and faults (R470, R471) -/

/-- Complete every running problem. -/
def State.slvEndAll (s : State) (st : Status) : State :=
  s.solver.eng.tasks.foldl (fun s t => s.slvFinish t.1 t.2 (assocGet {} s.solver.runs t.1) st 0 0) s

/-- What the engine does as it starts and stops. -/
def State.slvStart (s : State) : State := s.setEngSt solverR { s.solver.eng with mism := [] }
def State.slvStop (s : State) : State := s.stopTasks solverR .cancelled

/-- SOLVER_ENABLE (R470, R683). -/
def execSolverEnable (fn : Nat) (on : Bool) (s : State) : Out :=
  .next (s.engCtl solverR fn (s.blockEnable 0x0C on State.slvStart State.slvStop))

/-- SOLVER_QUIESCE (R470, R683). -/
def execSolverQuiesce (fn : Nat) (s : State) : Out := .next (s.engCtl solverR fn (s.blockQuiesce 0x0C State.slvStop))

/-- SOLVER_RESET (R470, R683). -/
def execSolverReset (fn : Nat) (s : State) : Out :=
  .next (s.engCtl solverR fn (if s.pageSt 0x0C = stFault then s.blockReset 0x0C State.slvStart else s))

/-- SOLVER_START_DONE (R470). -/
def execSolverStartDone (s : State) : Out := .next (s.blockOn 0x0C (fun s => s) State.slvStop)

/-- SOLVER_STOP_DONE: both contexts are idle (R470). -/
def execSolverStopDone (s : State) : Out :=
  .next (if s.solver.eng.tasks.isEmpty then s.blockOff 0x0C State.slvStart else s)

/-- SOLVER_RESIDUE_MISMATCH: the panel is recomputed once; a second mismatch in it fails the problem (R471). -/
def execSolverResidueMismatch (ctx : Nat) (s : State) : Out :=
  .next (match s.task solverR ctx with
    | none => s
    | some t =>
      let s1 := s.noteMism solverR Fld.SLV_RESIDUE
      if t.mism then s1.slvFinish ctx t (assocGet {} s.solver.runs ctx) .internalError 0 0
      else s1.setTask solverR ctx { t with mism := true })

/-- SOLVER_THIRD_MISMATCH: a third mismatch within 1 s faults the page (R470). -/
def execSolverThirdMismatch (s : State) : Out :=
  .next (if s.pageSt 0x0C = stOn ∧ s.thirdMism solverR then (s.slvEndAll .internalError).setPageSt 0x0C stFault else s)

/-- A function level reset, or the release of a partition (R471). -/
def State.slvRelease (s : State) (fn : Nat) : State :=
  let mine := (s.solver.eng.tasks.filter fun t => t.2.fn == fn).map (·.1)
  let s1 := { s with solver := { s.solver with runs := s.solver.runs.filter fun e => !mine.contains e.1 } }
  s1.engRelease solverR fn

/-- A Board reset cancels problems with an array, output or scratch in the Reserve tier (R471). -/
def State.slvBoard (s : State) : State :=
  let inRsv := fun (t : Nat × Task) =>
    let p := parseProb t.2.desc
    let fn := s.slvFn t.2.fn
    let r := assocGet {} s.solver.runs t.1
    if p.op = 2 then s.runInTier fn p.pose (64 + 8 * r.ops.length) 1 || s.runInTier fn p.lmk (8 * r.vals.length) 1
    else s.runInTier fn p.out p.outBytes 1 || s.runInTier fn p.pose (64 * p.npose) 1 || s.runInTier fn p.lmk (32 * p.nlmk) 1 ||
      s.runInTier fn p.blk (64 * p.nblk) 1 || s.runInTier fn p.scr (p.scrBytes r.data) 1 || s.runInTier fn p.bnd (48 * p.nbnd r.data) 1
  (s.solver.eng.tasks.filter inRsv).foldl (fun s t => s.slvFinish t.1 t.2 (assocGet {} s.solver.runs t.1) .cancelled 0 0) s

end Sys2Proof.Machine
end

