-- ==== Sys2Proof/Machine/FusTrack.lean ====
section
/-! DEFINITION. Fusion's sources, events, tracks, contradiction and slip (R380 to R400). -/

namespace Sys2Proof.Machine

/-! ## FP32 comparisons -/

/-- Order of FP32 codes; false where one is NaN. -/
def fLt (a b : Nat) : Bool := !(fpVal a).isNan && !(fpVal b).isNan && decide (FVal.cmp (fpVal a) (fpVal b) < 0)
def fLe (a b : Nat) : Bool := !(fpVal a).isNan && !(fpVal b).isNan && decide (FVal.cmp (fpVal a) (fpVal b) ≤ 0)

/-- Difference of FP32 codes. -/
def fpSub (a b : Nat) : Nat := fpCode (FVal.add 0 (fpVal a) (FVal.neg (fpVal b)))

/-! ## Blocks (R384, R396) -/

/-- Fields of a source parameter block. -/
def sbGate (b : List Byte) : Nat := leField b 0 4
def sbPeriod (b : List Byte) : Nat := leField b 4 4
def sbPoll (b : List Byte) : Bool := bit (leField b 8 1) 3
def sbCal (b : List Byte) : Bool := bit (leField b 8 1) 2
def sbTrig (b : List Byte) : Bool := bit (leField b 8 1) 1
def sbMaxr (b : List Byte) : Nat := leField b 12 4
def sbExt (b : List Byte) : List Nat := (List.range 7).map fun i => leField b (16 + 4 * i) 4
def sbDw (b : List Byte) : Nat := leField b 76 2
def sbDh (b : List Byte) : Nat := leField b 78 2
def sbDecim (b : List Byte) : Nat := leField b 80 1

/-- Bytes of a depth image. -/
def sbImage (b : List Byte) : Nat := cdiv (2 * sbDw b) 64 * 64 * sbDh b

/-- Whether a source parameter block is malformed for a kind. -/
def srcBlockBad (kind : Nat) (b : List Byte) : Bool :=
  let within := fun lo hi v => decide (lo ≤ v) && decide (v ≤ hi)
  !fLt 0 (sbGate b) || !within 100 1000000 (sbPeriod b) || leField b 8 1 / 16 != 0 || leField b 8 1 % 2 != 0 || leField b 9 3 != 0 ||
    leField b 81 47 != 0 || (kind == 3 && (!within 8 1024 (sbDw b) || !within 8 1024 (sbDh b) || !within 1 16 (sbDecim b)))

/-- Fields of the engine parameter block. -/
def ebModel (b : List Byte) : Nat := leField b 0 1 % 2
def ebM (b : List Byte) : Nat := leField b 1 1
def ebN (b : List Byte) : Nat := leField b 2 1
def ebK (b : List Byte) : Nat := leField b 3 1
def ebTrmax (b : List Byte) : Nat := leField b 4 4
def ebVinit (b : List Byte) : Nat := leField b 8 4
def ebQproc (b : List Byte) : Nat := leField b 12 4
def ebMutgate (b : List Byte) : Nat := leField b 16 4
def ebMutn (b : List Byte) : Nat := leField b 20 1
def ebClearn (b : List Byte) : Nat := leField b 21 1
def ebAucmax (b : List Byte) : Nat := leField b 22 2
def ebEps (b : List Byte) : Nat := leField b 24 4
def ebGcell (b : List Byte) : Nat := leField b 28 4

/-- BODYSRC, if a source is named; none without a block (log entry 28). -/
def ebBody (b : List Byte) : Option Nat := if b.isEmpty ∨ leField b 32 1 = 0xFF then none else some (leField b 32 1)

/-- Whether an engine parameter block is malformed. -/
def engBlockBad (b : List Byte) : Bool :=
  let within := fun lo hi v => decide (lo ≤ v) && decide (v ≤ hi)
  decide (2 ≤ leField b 0 1) || !within 1 15 (ebM b) || !within (ebM b) 15 (ebN b) || !within 1 255 (ebK b) || !within 1 255 (ebMutn b) ||
    !within 1 3 (ebClearn b) || decide (ebAucmax b = 0) || !fLt 0 (ebEps b) ||
    !fLe 0x3D4CCCCD (ebGcell b) || !fLe (ebGcell b) 0x41200000 || (decide (31 < leField b 32 1) && leField b 32 1 != 0xFF) ||
    leField b 33 31 != 0

/-! ## Sources and events -/

/-- A source. -/
def State.fusSrc (s : State) (n : Nat) : FusSrc := assocGet {} s.fusion.srcs n

/-- Replace a source. -/
def State.setFusSrc (s : State) (n : Nat) (x : FusSrc) : State :=
  { s with fusion := { s.fusion with srcs := assocSet {} s.fusion.srcs n x } }

/-- Whether a source is enabled; its kind and partition. -/
def State.srcOn (s : State) (n : Nat) : Bool := s.flag (srcBank n) Fld.FUS_SRC_CFG_EN
def State.srcKind (s : State) (n : Nat) : Nat := s.getF (srcBank n) Fld.FUS_SRC_CFG_KIND
def State.srcPart (s : State) (n : Nat) : Nat := s.getF (srcBank n) Fld.FUS_SRC_CFG_PART

/-- An interrupt of page 0x0D goes to the owner (R413). -/
def State.fusIrq (s : State) (i : Nat) : State := match s.ownerFn with
  | some o => s.raiseIrq 0x0D o i
  | none => s

/-- A failure of a source's record or block: FUS_SRC_STS.STATUS and IRQ SRC_ERR. -/
def State.srcFail (s : State) (n : Nat) (st : Status) : State := (s.setF (srcBank n) Fld.FUS_SRC_STS_STATUS st.code).fusIrq 1

/-- The state of a source: 0 off, 1 running, 2 ERROR. -/
def State.setSrcState (s : State) (n st : Nat) : State := s.setF (srcBank n) Fld.FUS_SRC_STS_STATE st

/-- CALGEN advances by one, and its register shows it. -/
def State.calBump (s : State) (n : Nat) : State :=
  let x := s.fusSrc n
  (s.setFusSrc n { x with calgen := add32 x.calgen 1 }).setF (srcBank n) Fld.FUS_SRC_STS_CALGEN (add32 x.calgen 1)

/-- VA of a pair of registers. -/
def State.fusVa (s : State) (n : Nat) (lo hi : Fld) : Nat := s.getF n lo + 2 ^ 32 * (s.getF n hi % 2 ^ 20)

/-- TID of a track's index (R391). -/
def State.tid (s : State) (i : Nat) : Nat := i + assocGet 0 s.fusion.reuse i * 4096

/-- Write an event (R407); one that cannot be written counts in FUS_OVERRUN in Hold (R409). -/
def State.fusEvent (s : State) (tick kind a b : Nat) (st trk trkb : Nat) : State :=
  if !s.flag 0 Fld.FUS_EVT_CFG_EN then s
  else
    let n := s.getF 0 Fld.FUS_EVT_WRITTEN
    let fn := s.getF 0 Fld.FUS_EVT_CFG_PART
    let va := s.fusVa 0 Fld.FUS_EVT_LO Fld.FUS_EVT_HI + 32 * (n % 2 ^ s.getF 0 Fld.FUS_EVT_CFG_SZ)
    let body := leBytes 1 kind ++ leBytes 1 a ++ leBytes 1 b ++ leBytes 1 0 ++ leBytes 2 st ++ leBytes 2 trk ++ leBytes 8 tick ++
      leBytes 4 n ++ leBytes 2 trkb ++ leBytes 10 0
    if s.needsDev fn va 32 then s.bump 0 Fld.FUS_OVERRUN 1
    else (s.vaWrite fn .engine va body).1.setF 0 Fld.FUS_EVT_WRITTEN (add32 n 1)

/-! ## Tracks (R391 to R395) -/

/-- A detection assigned to a track: its source, its codes in the world and in the sensor frame, and its record's STAMP. -/
structure FusHit where
  track : Nat
  src : Nat
  world : List Nat
  det : List Nat
  stamp : Nat
  deriving DecidableEq, Repr

/-- Work of a tick: the state, what was assigned, the tracks as they stood before any of it, indices deleted in this tick, and the time
used so far (R388). -/
structure FusWork where
  s : State
  got : List FusHit := []
  fresh : List (Nat × Track) := []
  gone : List Nat := []
  ns : Nat := 0
  deriving DecidableEq, Repr

/-- A track. -/
def State.track (s : State) (i : Nat) : Track := assocGet {} s.fusion.tracks i

/-- Replace a track. -/
def State.setTrack (s : State) (i : Nat) (t : Track) : State :=
  { s with fusion := { s.fusion with tracks := assocInsert i t s.fusion.tracks } }

/-- Whether a source feeds a track (R398). -/
def Track.fedBy (t : Track) (src : Nat) : Bool := t.notFed != some src

/-- Whether a track is in CONFLICT. -/
def Track.conflict (t : Track) : Bool := t.st == .conflictA || t.st == .conflictB

/-- The lowest free index that was not deleted in this tick. -/
def FusWork.freeIdx (w : FusWork) : Option Nat :=
  (List.range 4096).find? fun i => !(w.s.fusion.tracks.any fun e => e.1 == i) && !w.gone.contains i

/-- Body pose: the latest value of BODYSRC, or the identity (R392). -/
def State.bodyPose (s : State) : List Nat :=
  match ebBody s.fusion.block with
  | some n => match (s.fusSrc n).latest with
    | some r => (List.range 7).map fun i => leField r (24 + 4 * i) 4
    | none => [0, 0, 0, 0x3F800000, 0, 0, 0]
  | none => [0, 0, 0, 0x3F800000, 0, 0, 0]

/-- Cube of a position along an axis (R393). -/
def cubeOf (g p : Nat) : Int := (floorQuot (fpVal p) (fpVal g)).getD 0

/-- Squared distance of two positions, exact. -/
def distSq (a b : List Nat) : FVal :=
  (List.range 3).foldl (fun acc i =>
    let d := FVal.add 0 (fpVal (a.getD i 0)) (FVal.neg (fpVal (b.getD i 0)))
    FVal.add 0 acc (FVal.mul d d)) fvPlusZero
where
  /-- Plus zero. -/
  fvPlusZero : FVal := .fin false 0 0

/-- Candidates of a detection among predicted tracks: its cube and the 26 around it, up to the 64 nearest (R393). -/
def candidates (gcell : Nat) (pred : List (Nat × List Nat × List Nat)) (w : List Nat) : List (Nat × List Nat × List Nat) :=
  let near := pred.filter fun (e : Nat × List Nat × List Nat) => (List.range 3).all fun i =>
    decide ((cubeOf gcell (e.2.1.getD i 0) - cubeOf gcell (w.getD i 0)).natAbs ≤ 1)
  (near |> sortedBy fun a b =>
    let c := FVal.cmp (distSq a.2.1 w) (distSq b.2.1 w)
    decide (c < 0) || (c == 0 && decide (a.1 ≤ b.1))).take 64

/-- Of the two hypotheses of a conflict that a source feeds, the one with the lower d² represents both; the key is the lower index
(R394). Pairs are (key, track, d²). -/
def State.representatives (s : State) (src : Nat) (l : List (Nat × Nat)) : List (Nat × Nat × Nat) :=
  l.filterMap fun (e : Nat × Nat) =>
    let t := s.track e.1
    match t.twin with
    | none => some (e.1, e.1, e.2)
    | some j =>
      if !(s.track j).fedBy src || !t.fedBy src then some (e.1, e.1, e.2)
      else match l.find? fun (o : Nat × Nat) => o.1 == j with
        | none => some (Nat.min e.1 j, e.1, e.2)
        | some o => if fLt e.2 o.2 || (!fLt o.2 e.2 && decide (e.1 < j)) then some (Nat.min e.1 j, e.1, e.2) else none

/-- State of an auction: price and holder by key, what each detection holds, those out of it, and bids made. -/
structure Auction where
  price : List (Nat × Nat) := []
  holder : List (Nat × Nat) := []
  out : List Nat := []
  bids : Nat := 0
  deriving DecidableEq, Repr

/-- What a detection holds. -/
def Auction.held (a : Auction) (d : Nat) : Option Nat := (a.holder.find? fun (e : Nat × Nat) => e.2 == d).map (·.1)

/-- The bid of a detection: GATE − d² less the price, for its best pair, against the second best or staying unassigned (R394). -/
def Auction.bid (gate eps : Nat) (pairs : List (Nat × Nat × Nat)) (a : Auction) (d : Nat) : Auction :=
  let val := fun (e : Nat × Nat × Nat) => fpSub (fpSub gate e.2.2) (assocGet 0 a.price e.1)
  let best := pairs.foldl (fun (m : Option (Nat × Nat × Nat)) e => match m with
    | none => some e
    | some b => if fLt (val b) (val e) || (!fLt (val e) (val b) && decide (e.1 < b.1)) then some e else some b) none
  match best with
  | none => { a with out := d :: a.out }
  | some b =>
    if fLt (val b) 0 then { a with out := d :: a.out }
    else
      let second := (pairs.filter fun e => e.1 != b.1).foldl (fun m e => if fLt m (val e) then val e else m) 0
      let p := fpAdd (fpAdd (assocGet 0 a.price b.1) (fpSub (val b) second)) eps
      { a with price := assocSet 0 a.price b.1 p, holder := assocInsert b.1 d a.holder, bids := a.bids + 1 }

/-- Auction rounds, bids in ascending detection index, until every detection holds a track or is out (R394); none left unassigned
within `fuel` rounds answers false. -/
def auctionRounds (gate eps : Nat) (pairs : List (List (Nat × Nat × Nat))) : Nat → Auction → Auction × Bool
  | 0, a => (a, true)
  | fuel + 1, a =>
    let waits := fun (a : Auction) d => (a.held d).isNone && !a.out.contains d
    let a1 := (List.range pairs.length).foldl (fun a d => if waits a d then a.bid gate eps (pairs.getD d []) d else a) a
    if (List.range pairs.length).any fun d => waits a1 d then auctionRounds gate eps pairs fuel a1 else (a1, false)

/-- A hit or a miss of a track (R395). -/
def Track.tally (t : Track) (b : List Byte) (hit : Bool) : Track :=
  let t1 := if hit then { t with hits := satAdd 255 t.hits 1, misses := 0, updates := satAdd 255 t.updates 1 }
    else { t with misses := satAdd 255 t.misses 1, updates := satAdd 255 t.updates 1 }
  if t1.st = .tentative ∧ ebM b ≤ t1.hits ∧ t1.updates ≤ ebN b then { t1 with st := .confirmed } else t1

/-- Apply a detection to a track. -/
def FusWork.assign (w : FusWork) (i src stamp : Nat) (px pp world : List Nat) (det : List Byte) : FusWork :=
  let t := w.s.track i
  let b := w.s.fusion.block
  let u := fusUpdate px pp world
  let first := !w.got.any fun (g : FusHit) => g.track == i
  let mask := if first then 2 ^ src else t.srcmask ||| 2 ^ src
  let t1 := { t with
    x := u.1, p := u.2, lastUpd := Nat.max stamp t.lastUpd, srcmask := mask, cls := leField det 36 2, score := leField det 38 2 }
  { w with
    s := w.s.setTrack i (t1.tally b true), ns := w.ns + 60
    got := w.got ++ [{ track := i, src := src, world := world, det := (List.range 9).map fun k => leField det (4 * k) 4, stamp := stamp }]
    fresh := if first then assocInsert i t w.fresh else w.fresh }

/-- A track born from a detection (R395). -/
def FusWork.birth (w : FusWork) (src stamp : Nat) (world : List Nat) (det : List Byte) : FusWork :=
  match w.freeIdx with
  | none => { w with s := w.s.bump 0 Fld.FUS_NOSLOT 1 }
  | some i =>
    let b := w.s.fusion.block
    let top := if ebModel b = 1 then 9 else 6
    let cell := fun (r c : Nat) => if r < 3 ∧ c < 3 then world.getD (3 + ([0, 3, 5].getD r 0) + (c - r)) 0
      else if r = c ∧ r < top then ebVinit b else 0
    let p := (List.range 9).flatMap fun r => (List.range (9 - r)).map fun k => cell r (r + k)
    let t : Track := { model := ebModel b, lastUpd := stamp, x := world.take 3 ++ List.replicate 6 0, p := p, srcmask := 2 ^ src,
                       cls := leField det 36 2, score := leField det 38 2 }
    { w with s := w.s.setTrack i (t.tally b true) }

/-- Process a DETECT record (R387, R392 to R395). -/
def FusWork.detect (w : FusWork) (src : Nat) (rcd list : List Byte) : FusWork :=
  let s := w.s
  let b := s.fusion.block
  let x := s.fusSrc src
  let stamp := leField rcd 0 8
  let n := leField rcd 12 2
  if b.isEmpty ∨ x.block.isEmpty then w
  else
    let dets := (List.range n).map fun d => (list.drop (48 * d)).take 48
    let body := s.bodyPose
    let worlds := dets.map fun d => fusWorld x.ext body ((List.range 9).map fun k => leField d (4 * k) 4)
    let fed := s.fusion.tracks.filter fun e => e.2.fedBy src
    let pred := fed.map fun (e : Nat × Track) =>
      (e.1, fusPredict e.2.model (ebQproc b) e.2.x e.2.p e.2.lastUpd (Nat.max stamp e.2.lastUpd))
    let gate := sbGate x.block
    let gated := worlds.map fun z =>
      let c := (candidates (ebGcell b) pred z).map fun (e : Nat × List Nat × List Nat) => (e.1, fusD2 e.2.1 e.2.2 z)
      s.representatives src (c.filter fun (e : Nat × Nat) => fLe e.2 gate)
    let r := auctionRounds gate (ebEps b) gated (ebAucmax b) {}
    let oos := s.fusion.tracks.any fun e => e.2.fedBy src && decide (stamp < e.2.lastUpd)
    let s1 := if oos then s.bump 0 Fld.FUS_OOS 1 else s
    let s2 := if r.2 then s1.bump 0 Fld.FUS_AUCLIM 1 else s1
    let w1 : FusWork := { w with
      s := s2, ns := w.ns + 500 + 30 * n + 40 * (gated.map List.length).foldl (· + ·) 0 + 10 * r.1.bids }
    let targets := fun (k : Nat) => match (s.track k).twin with
      | some j => if (s.track k).fedBy src && (s.track j).fedBy src then [k, j] else [k]
      | none => [k]
    let w2 := (List.range n).foldl (fun (w : FusWork) d => match r.1.held d with
      | none => w
      | some k => (targets k).foldl (fun (w : FusWork) i =>
        let p := ((pred.find? fun (e : Nat × List Nat × List Nat) => e.1 == i).map (·.2)).getD ([], [])
        w.assign i src stamp p.1 p.2 (worlds.getD d []) (dets.getD d [])) w) w1
    let hitIdx := ((List.range n).filterMap fun d => r.1.held d).flatMap targets
    let w3 := fed.foldl (fun (w : FusWork) e =>
      if hitIdx.contains e.1 then w else { w with s := w.s.setTrack e.1 ((w.s.track e.1).tally b false) }) w2
    let lost := (List.range n).filter fun d => (r.1.held d).isNone
    let w4 := lost.foldl (fun (w : FusWork) d => w.birth src stamp (worlds.getD d []) (dets.getD d [])) w3
    let x4 := w4.s.fusSrc src
    { w4 with s := w4.s.setFusSrc src { x4 with figs := [n, n - lost.length, w4.s.fusion.tracks.length - w3.s.fusion.tracks.length] } }

/-! ## Contradiction (R397 to R399) -/

/-- A track forks into two hypotheses, each fed by all sources but one of the pair (R398). -/
def FusWork.fork (w : FusWork) (tick i a b : Nat) : FusWork :=
  let t := w.s.track i
  match w.freeIdx with
  | none =>
    let s1 := (w.s.setTrack i { t with st := .conflictA, count := 0 }).bump 0 Fld.FUS_NOSLOT 1
    { w with s := (s1.fusEvent tick 1 a b Status.conflict.code (s1.tid i) 0xFFFF).fusIrq 3 }
  | some k =>
    let s1 := (w.s.setTrack i { t with st := .conflictA, twin := some k, notFed := some b, count := 0 }).setTrack k
      { t with st := .conflictB, twin := some i, notFed := some a, count := 0 }
    { w with s := (s1.fusEvent tick 1 a b Status.conflict.code (s1.tid i) (s1.tid k)).fusIrq 3 }

/-- Test the mutual gates of a track that two or more sources updated at this tick (R397). -/
def FusWork.mutual (w : FusWork) (tick i : Nat) : FusWork :=
  let t := w.s.track i
  let b := w.s.fusion.block
  let mine := w.got.filter fun (g : FusHit) => g.track == i
  if t.conflict then w
  else
    let pairs := mine.flatMap fun (g : FusHit) =>
      (mine.filter fun (h : FusHit) => decide (g.src < h.src)).map fun h =>
        (g.src, h.src, fusMutual g.world h.world)
    let fails := pairs.filter fun (p : Nat × Nat × Nat) => !fLe p.2.2 (ebMutgate b)
    let worst := fails.foldl (fun (m : Option (Nat × Nat × Nat)) p => match m with
      | none => some p
      | some q => if fLt q.2.2 p.2.2 || (!fLt p.2.2 q.2.2 && (decide (p.1 < q.1) || (p.1 == q.1 && decide (p.2.1 < q.2.1)))) then some p
        else some q) none
    match worst with
    | some (a, c, _) =>
      let n := if t.pair = (a, c) ∧ t.count ≠ 0 then t.count + 1 else 1
      let w1 := { w with s := w.s.setTrack i { t with pair := (a, c), count := n } }
      if ebMutn b ≤ n then w1.fork tick i a c else w1
    | none =>
      if pairs.any fun (p : Nat × Nat × Nat) => (p.1, p.2.1) == t.pair then { w with s := w.s.setTrack i { t with count := 0 } } else w

/-- Delete a track; its index is free from the next tick, and its reuse count advances (R395). -/
def FusWork.delete (w : FusWork) (i : Nat) : FusWork :=
  let f := w.s.fusion
  { w with
    s := { w.s with fusion := { f with
      tracks := assocErase i f.tracks, reuse := assocSet 0 f.reuse i ((assocGet 0 f.reuse i + 1) % 16) } }
    gone := i :: w.gone }

/-- A hypothesis becomes CONFIRMED, fed by all sources: event RESOLVED (R399). -/
def FusWork.resolve (w : FusWork) (tick i other : Nat) : FusWork :=
  let t := w.s.track i
  let s1 := w.s.setTrack i { t with st := .confirmed, twin := none, notFed := none, count := 0 }
  { w with s := s1.fusEvent tick 2 0xFF 0xFF 0 (s1.tid i) other }

/-- Delete tracks, resolving the conflicts they leave (R395, R399). -/
def FusWork.deleteAll (w : FusWork) (tick : Nat) (l : List Nat) : FusWork :=
  let twins := l.map fun i => (i, w.s.tid i, (w.s.track i).twin)
  let w1 := l.foldl (fun (w : FusWork) i => w.delete i) w
  twins.foldl (fun (w : FusWork) (e : Nat × Nat × Option Nat) => match e.2.2 with
    | none => w
    | some j => if l.contains j then { w with s := w.s.fusEvent tick 6 0xFF 0xFF 0 e.2.1 0xFFFF } else w.resolve tick j e.2.1) w1

/-- Uncorrectable errors in entries of the track table, met at a tick: the tracks are deleted, with event DELETED and ECC_UNCORRECTABLE
(R395). -/
def FusWork.trackErrs (w : FusWork) (tick : Nat) : Nat → FusWork
  | 0 => w
  | n + 1 => match w.s.localErr 0x0D 0 with
    | none => w
    | some (i, s1) =>
      if (s1.fusion.tracks.find? fun e => e.1 == i).isNone then ({ w with s := s1 } : FusWork).trackErrs tick n
      else
        let s2 := s1.fusEvent tick 6 0xFF 0xFF Status.eccUncorrectable.code (s1.tid i) 0xFFFF
        (({ w with s := s2 } : FusWork).deleteAll tick [i]).trackErrs tick n

/-- Trace of the position block of P. -/
def Track.trace (t : Track) : Nat := fpAdd (fpAdd (t.p.getD 0 0) (t.p.getD 9 0)) (t.p.getD 17 0)

/-- Tracks that their life ends at this tick. -/
def State.deadTracks (s : State) : List Nat :=
  let b := s.fusion.block
  (s.fusion.tracks.filter fun (e : Nat × Track) =>
    let t := e.2
    (t.st == .tentative && decide (ebN b ≤ t.updates)) || (t.st != .tentative && decide (ebK b ≤ t.misses)) ||
      fLt (ebTrmax b) t.trace).map (·.1)

/-! ## Slip (R400) -/

/-- Drift of a source. -/
def FusSrc.drift (x : FusSrc) : Int :=
  if sbTrig x.block then 0
  else match x.base, x.delays with
    | some b, d :: l => l.foldl min d - b
    | _, _ => 0

/-- Note the delay of a record taken; the baseline is the minimum at the first record after EN or REBASE. -/
def FusSrc.noteDelay (x : FusSrc) (d : Int) : FusSrc :=
  { x with base := some (x.base.getD (x.delays.foldl min d)), delays := (d :: x.delays).take 16 }

/-- Sources that take part in slip tests: enabled, with a block and a record. -/
def State.slipSrcs (s : State) : List Nat :=
  (List.range 32).filter fun n => s.srcOn n && !(s.fusSrc n).block.isEmpty && (s.fusSrc n).latest.isSome

/-- FUS_SLIP follows the slipping pairs. -/
def State.showSlip (s : State) : State :=
  s.setF 0 Fld.FUS_SLIP (maskOf (s.fusion.slips.flatMap fun (p : Nat × Nat) => [p.1, p.2]))

/-- Set or clear a pair: event, IRQ SLIP. -/
def State.slipChange (s : State) (tick i j : Nat) (on : Bool) : State :=
  let l := s.fusion.slips.filter fun (p : Nat × Nat) => p != (i, j)
  let s1 := ({ s with fusion := { s.fusion with slips := if on then l ++ [(i, j)] else l } }).showSlip
  (s1.fusEvent tick (if on then 3 else 4) i j (if on then Status.slip.code else 0) 0xFFFF 0xFFFF).fusIrq 4

/-- Test every pair of sources for slip. -/
def State.slipTest (s : State) (tick : Nat) : State :=
  let l := s.slipSrcs
  let pairs := l.flatMap fun i => (l.filter fun j => decide (i < j)).map fun j => (i, j)
  pairs.foldl (fun s (p : Nat × Nat) =>
    let (a, b) := (s.fusSrc p.1, s.fusSrc p.2)
    let d := (a.drift - b.drift).natAbs
    let top := 1000 * Nat.max (sbPeriod a.block) (sbPeriod b.block)
    let on := s.fusion.slips.contains p
    if !on && decide (top < d) then s.slipChange tick p.1 p.2 true
    else if on && decide (2 * d ≤ top) then s.slipChange tick p.1 p.2 false
    else s) s

end Sys2Proof.Machine
end

