-- ==== Sys2Proof/Machine/Approx.lean ====
section
/-! DEFINITION. The approximate functions (R151): exact results to some 2^−120 in fixed point, the bounds, and the implementation's choice
of a result within them (log entry 12). -/

namespace Sys2Proof.Machine

/-! ## Fixed point: integers in units of 2^−200 -/

/-- 1, ln 2, π and √(8 / π). -/
def fxOne : Int := 2 ^ 200
def fxLn2 : Int := 0xb17217f7d1cf79abc9e3b39803f2f6af40f343267298b62d8a
def fxPi : Int := 0x3243f6a8885a308d313198a2e03707344a4093822299f31d008
def fxRt8Pi : Int := 0x19884533d436508d0fcb3c500bab8e2ff4e0a7cc1449c1b6301

def fxMul (a b : Int) : Int := a * b / fxOne
def fxDiv (a b : Int) : Int := a * fxOne / b

/-- A value in fixed point. -/
def FVal.fx : FVal → Int
  | .fin s m e =>
    let n : Int := (roundTo 1 s m e (-200) 0 : Nat)
    if s then -n else n
  | _ => 0

/-- The value of a fixed-point number. -/
def fxVal (v : Int) : FVal := FVal.ofInt v (-200) false

/-- 1 + y / k × (1 + y / (k + 1) × …): the tail of e^y. -/
def fxExpTail (y : Int) : Nat → Nat → Int
  | 0, _ => fxOne
  | n + 1, k => fxOne + fxMul y (fxExpTail y n (k + 1)) / k

/-- e^y as a significand in fixed point, in [1, 2), and a power of two. -/
def fxExp (y : Int) : Int × Int := (fxExpTail (y % fxLn2) 60 1, y / fxLn2)

/-- e^y as a value; below 2^−400 it is 2^−400, far under every bound of R151. -/
def fxExpVal (y : Int) : FVal :=
  if y < -(300 * fxOne) then .fin false 1 (-400) else FVal.scale (fxExp y).2 (fxVal (fxExp y).1)

/-- Sum of t, −t z / (k (k + 1)), …: the series of sine and cosine, with z = r². -/
def fxAlt (z : Int) : Nat → Int → Nat → Int
  | 0, _, _ => 0
  | n + 1, t, k => t + fxAlt z n (-(fxMul t z / (k * (k + 1) : Nat))) (k + 2)

/-- Sine and cosine. -/
def fxSin (x : Int) : Int :=
  let r := (x + fxPi) % (2 * fxPi) - fxPi
  fxAlt (fxMul r r) 40 r 2
def fxCos (x : Int) : Int :=
  let r := (x + fxPi) % (2 * fxPi) - fxPi
  fxAlt (fxMul r r) 40 fxOne 1

/-- The logistic function 1 / (1 + e^−x), and tanh x = 1 − 2 / (1 + e^2x); past ±64 they are at their limits to 2^−90. -/
def fxSigmoid (x : Int) : Int :=
  if 64 * fxOne ≤ x then fxOne
  else if x ≤ -(64 * fxOne) then 0
  else
    let e := fxExp (-x)
    fxDiv fxOne (fxOne + (if 0 ≤ e.2 then e.1 * 2 ^ e.2.toNat else e.1 / 2 ^ (-e.2).toNat))
def fxTanh (x : Int) : Int := 2 * fxSigmoid (2 * x) - fxOne

/-- Bits of log2 y after the point, for y in [1, 2), as a number of `n` bits. -/
def fxLogBits : Nat → Int → Nat → Nat
  | 0, _, acc => acc
  | n + 1, y, acc =>
    let z := fxMul y y
    if 2 * fxOne ≤ z then fxLogBits n (z / 2) (2 * acc + 1) else fxLogBits n z (2 * acc)

/-- log2 of m × 2^e. -/
def log2Val (m : Nat) (e : Int) : FVal :=
  let k := Nat.log2 m
  let y : Int := if k ≤ 200 then m * 2 ^ (200 - k) else m / 2 ^ (k - 200)
  FVal.ofInt ((e + k) * 2 ^ 72 + (fxLogBits 72 y 0 : Nat)) (-72) false

/-! ## Bounds and choice -/

/-- One ulp of FP32 at a value (R151). -/
def ulpAt : FVal → FVal
  | .fin _ m e =>
    let lead : Int := e + (Nat.log2 m : Int)
    .fin false 1 ((if m = 0 ∨ lead < -126 then -126 else lead) - 23)
  | _ => .fin false 0 0

/-- `k` ulp of a value; a magnitude of `k` bits; and the larger of two bounds. -/
def ulps (k : Nat) (x : FVal) : FVal := FVal.mul (.fin false k 0) (ulpAt x)
def pow2Val (k : Int) : FVal := .fin false 1 k
def FVal.magnitude : FVal → FVal
  | .fin _ m e => .fin false m e
  | x => x
def FVal.larger (a b : FVal) : FVal := if FVal.cmp a b < 0 then b else a

/-- The implementation's result of function `which` on operand `a`: any FP32 value within `bound` of the exact `x` (log entry 12). Where
the constant is none, the exact result rounded, which is. -/
def approxFn (which a : Nat) (x bound : FVal) : Nat :=
  let y := (Config.approx which a).toNat
  match fpVal y with
  | .fin s m e => if FVal.cmp (FVal.add 0 (.fin s m e) x.neg).magnitude bound ≤ 0 then y else fpCode x
  | _ => fpCode x

/-! ## The functions on finite operands -/

/-- 2^x. -/
def exp2Val (x : FVal) : FVal :=
  let v := x.fx
  if FVal.cmp x (.fin true 300 0) < 0 then .fin false 1 (-400)
  else FVal.scale (v / fxOne) (fxVal (fxExpTail (fxMul (v % fxOne) fxLn2) 60 1))

/-- x σ(x), and x σ(√(8/π) (x + 0.044715 x³)), GELU's tanh form (R113); past ±64 the factor is at its limit. -/
def siluVal (x : FVal) : FVal := FVal.mul x (fxVal (fxSigmoid x.fx))
def geluVal (x : FVal) : FVal :=
  let v := x.fx
  let u := if v ≤ -(64 * fxOne) ∨ 64 * fxOne ≤ v then v else fxMul fxRt8Pi (v + fxMul v (fxMul v v) * 44715 / 1000000)
  FVal.mul x (fxVal (fxSigmoid u))

/-- The gate pipeline's bound: the larger of relative 2^−20 and absolute 2^−24. -/
def gateBound (x : FVal) : FVal := (FVal.scale (-20) x.magnitude).larger (pow2Val (-24))

end Sys2Proof.Machine
end

