-- ==== Sys2Proof/Machine/RingFrame.lean ====
section
/-! DEFINITION. What Tempo and the Joint Ring share: cycles and instants (R477), the ring's images, and the form of a ring frame
(R505 to R508). -/

namespace Sys2Proof.Machine

/-! ## Cycles -/

/-- TMP_CYCLE in ns. -/
def State.cycleNs (s : State) : Nat := s.getF 0 Fld.TMP_CYCLE_NS

/-- TMP_EPOCH. -/
def State.epoch (s : State) : Nat := s.get64 0 Fld.TMP_EPOCH_LO Fld.TMP_EPOCH_HI

/-- Instant of cycle `c`. -/
def State.instant (s : State) (c : Nat) : Nat := s.epoch + c * s.cycleNs

/-- The current cycle, once cycle 0 has begun. -/
def State.cycleNow (s : State) : Option Nat := if s.now < s.epoch then none else some ((s.now - s.epoch) / s.cycleNs)

/-- Staging deadline of an output cycle: its instant less 48 ns (R481). -/
def State.stagingDeadline (s : State) (c : Nat) : Nat := s.instant c - 48

/-- JRG_CFG.MODE in force: 0 IDLE, 1 MASTER, 2 NODE. -/
def State.ringMode (s : State) : Nat := s.getF 0 Fld.JRG_STS_MODE

/-- TMP_RTTMAX in ns. -/
def State.rttMax (s : State) : Nat := s.getF 0 Fld.TMP_RTTMAX_NS

/-! ## Images -/

/-- Base offsets of the transmit and the receive image in page 0x0A (R536). -/
def txBase : Nat := 0x1000
def rxBase : Nat := 0x2000

/-- Bytes of each image. -/
def imgBytes : Nat := 1536

/-- One byte of a page register. -/
def State.regByte (s : State) (page a : Nat) : Byte :=
  BitVec.ofNat 8 ((s.getReg 0 page (a / 4 * 4)).toNat / 2 ^ (8 * (a % 4)))

/-- Bytes of an image. -/
def State.imgRead (s : State) (base off n : Nat) : List Byte :=
  (List.range n).map fun i => s.regByte 0x0A (base + off + i)

/-- Write one byte of a page register. -/
def State.setRegByte (s : State) (page a : Nat) (b : Byte) : State :=
  let k := a % 4
  s.setReg 0 page (a / 4 * 4) (BitVec.ofNat 32 (withBits (s.getReg 0 page (a / 4 * 4)).toNat (8 * k + 7) (8 * k) b.toNat))

/-- Write bytes of an image; what lies beyond the image is dropped. -/
def State.imgWrite (s : State) (base off : Nat) (data : List Byte) : State :=
  data.zipIdx.foldl (fun s b => if off + b.2 < imgBytes then s.setRegByte 0x0A (base + off + b.2) b.1 else s) s

/-! ## Frames -/

/-- CRC-32 of IEEE 802.3, one byte at a time. -/
def crcByte (c : Nat) (b : Byte) : Nat :=
  (List.range 8).foldl (fun c _ => if c % 2 = 1 then Nat.xor (c / 2) 0xEDB88320 else c / 2) (Nat.xor c b.toNat)

/-- The FCS of some bytes. -/
def crc32 (b : List Byte) : Nat := Nat.xor (b.foldl crcByte 0xFFFFFFFF) 0xFFFFFFFF

/-- A frame's bytes without its FCS. -/
def frameBody (f : List Byte) : List Byte := f.take (f.length - 4)

/-- A body with the FCS of its bytes, or with that FCS inverted where the incoming one was bad (R510). -/
def withFcs (body : List Byte) (good : Bool) : List Byte :=
  body ++ leBytes 4 (if good then crc32 body else Nat.xor (crc32 body) 0xFFFFFFFF)

/-- Big-endian 16-bit field of the Ethernet header. -/
def beField2 (b : List Byte) (off : Nat) : Nat := leField b off 1 * 256 + leField b (off + 1) 1

/-- EtherType, VER, FTYPE, COPY and SEQ of a frame (R505, R506). -/
def frEtype (f : List Byte) : Nat := beField2 f 12
def frVer (f : List Byte) : Nat := bits (leField f 14 1) 7 4
def frType (f : List Byte) : Nat := bits (leField f 14 1) 3 0
def frCopy (f : List Byte) : Bool := bit (leField f 15 1) 7
def frSeq (f : List Byte) : Nat := leField f 16 2

/-- One datagram: where it starts in the frame, and the fields of its header (R507). -/
structure Dg where
  pos : Nat := 0
  cmd : Nat := 0
  more : Bool := false
  len : Nat := 0
  addr : Nat := 0
  offset : Nat := 0
  rd : Nat := 0
  wr : Nat := 0
  deriving DecidableEq, Repr, Inhabited

/-- The header of a datagram. -/
def parseDg (f : List Byte) (pos : Nat) : Dg :=
  let c := leField f pos 2
  { pos := pos, cmd := bits c 15 13, more := bit c 12, len := bits c 10 0, addr := leField f (pos + 2) 2,
    offset := leField f (pos + 4) 4, rd := leField f (pos + 9) 1, wr := leField f (pos + 8) 1 }

/-- The chain of datagrams from `pos` on, each wholly before `limit`; and whether it ends with MORE 0. -/
def parseChain (f : List Byte) (limit pos : Nat) : Nat → List Dg × Bool
  | 0 => ([], false)
  | fuel + 1 =>
    let d := parseDg f pos
    if limit < pos + 10 ∨ limit < pos + 10 + d.len then ([], false)
    else if d.more then
      let r := parseChain f limit (pos + 10 + d.len) fuel
      (d :: r.1, r.2)
    else ([d], true)

/-- The datagrams of a frame. -/
def frameDgs (f : List Byte) : List Dg := (parseChain f (f.length - 4) 22 160).1

/-- Whether `n` image bytes at `off` lie inside the DATA of one datagram of a master's frame (R513). -/
def inData (dgs : List Dg) (off n : Nat) : Bool :=
  dgs.any fun d => decide (d.pos + 10 ≤ off + 14) && decide (off + 14 + n ≤ d.pos + 10 + d.len)

end Sys2Proof.Machine
end

