-- ==== Sys2Proof/Machine/TempoMath.lean ====
section
/-! DEFINITION. The arithmetic of Tempo (R478 to R480), its loop images (R487 to R489), its test signals (R493, R494) and its
oscillation detector (R492), as functions of plain data. -/

namespace Sys2Proof.Machine

/-! ## Arithmetic (R480) -/

/-- Clamp an integer. -/
def clampI (lo hi v : Int) : Int := max lo (min hi v)

/-- Saturate to 32 bits, and whether that changed the value. -/
def satI32 (v : Int) : Int × Nat :=
  let r := clampI (-(2 ^ 31)) (2 ^ 31 - 1) v
  (r, if r = v then 0 else 1)

/-- Saturate to 64 bits, counting. -/
def satAcc (a : Int × Nat) (t : Int) : Int × Nat :=
  let v := a.1 + t
  let r := clampI (-(2 ^ 63)) (2 ^ 63 - 1) v
  (r, a.2 + if r = v then 0 else 1)

/-- The product of a coefficient, its shift and a value. -/
def coefTerm (c : Int) (s : Nat) (v : Int) : Int := if s = 0 then c * v else (c * v + 2 ^ (s - 1)) / 2 ^ s

/-- A sum of terms in one accumulator, saturated to 32 bits, and the saturations counted. -/
def accumulate (ts : List Int) : Int × Nat :=
  let a := ts.foldl satAcc (0, 0)
  let r := satI32 a.1
  (r.1, a.2 + r.2)

/-! ## Loop images (R487) -/

/-- Bytes padded to 64. -/
def pad64 (n : Nat) : Nat := cdiv n 64 * 64

/-- Bytes of a matrix of `n` values with their shifts. -/
def matBytes (n : Nat) : Nat := pad64 (4 * n) + pad64 n

/-- A matrix of an image: where it lies, its rows and columns. -/
structure Mat where
  base : Nat := 0
  rows : Nat := 0
  cols : Nat := 0
  deriving DecidableEq, Repr, Inhabited

/-- Lay matrices out one after another from an offset; the second part is the offset after the last. -/
def layMats (off : Nat) : List (Nat × Nat) → List Mat × Nat
  | [] => ([], off)
  | (r, c) :: t =>
    let rest := layMats (off + matBytes (r * c)) t
    ({ base := off, rows := r, cols := c } :: rest.1, rest.2)

/-- Fields of an image header. -/
structure LoopHdr where
  lver : Nat := 0
  nx : Nat := 0
  ny : Nat := 0
  nu : Nat := 0
  nw : Nat := 0
  safe : Bool := false
  bytes : Nat := 0
  moff : Nat := 0
  ooff : Nat := 0
  coff : Nat := 0
  xoff : Nat := 0
  rsv : Bool := false
  deriving DecidableEq, Repr, Inhabited

/-- Parse an image header. -/
def parseLoopHdr (b : List Byte) : LoopHdr :=
  { lver := leField b 0 2, nx := leField b 2 1, ny := leField b 3 1, nu := leField b 4 1, nw := leField b 5 1,
    safe := bit (leField b 6 1) 0, bytes := leField b 8 4, moff := leField b 12 4, ooff := leField b 16 4,
    coff := leField b 20 4, xoff := leField b 24 4,
    rsv := bits (leField b 6 1) 7 1 != 0 || leField b 7 1 != 0 || leField b 28 36 != 0 }

/-- Matrices of an image: A, B, C, L, K, G, or Ks, Gs; and where d lies. -/
def LoopHdr.mats (h : LoopHdr) : List Mat × Nat :=
  if h.safe then layMats h.coff [(h.nu, h.nx), (h.nu, h.nw)]
  else layMats h.coff [(h.nx, h.nx), (h.nx, h.nu), (h.ny, h.nx), (h.nx, h.ny), (h.nu, h.nx), (h.nu, h.nw)]

/-- Coefficient words that an image takes: one for each matrix entry and each element of d. -/
def LoopHdr.words (h : LoopHdr) : Nat := (h.mats.1.map fun m => m.rows * m.cols).sum + h.nu

/-- TCOMP in ns (R482). -/
def LoopHdr.tcomp (h : LoopHdr) : Nat :=
  300 + h.ny + h.nu + cdiv (h.nx ^ 2 + 2 * h.nx * h.ny + 3 * h.nx * h.nu + 2 * h.nu * h.nw) 4

/-- Whether the dimensions of two images agree. -/
def LoopHdr.sameDims (a b : LoopHdr) : Bool := a.nx == b.nx && a.ny == b.ny && a.nu == b.nu && a.nw == b.nw

/-- Signed 32-bit values of an image. -/
def int32At (b : List Byte) (off : Nat) : Int := toSigned 32 (leField b off 4)

/-- A coefficient and its shift. -/
def Mat.coef (m : Mat) (b : List Byte) (i j : Nat) : Int × Nat :=
  let k := i * m.cols + j
  (int32At b (m.base + 4 * k), leField b (m.base + pad64 (4 * (m.rows * m.cols)) + k) 1 % 32)

/-- The terms of one row of a matrix times a vector. -/
def Mat.rowTerms (m : Mat) (b : List Byte) (i : Nat) (v : List Int) : List Int :=
  (List.range m.cols).map fun j =>
    let c := m.coef b i j
    coefTerm c.1 c.2 (v.getD j 0)

/-- A section of an image: a multiple of 64, beyond the header, and within BYTES. -/
def sectionOk (bytes off n : Nat) : Bool := off % 64 == 0 && decide (64 ≤ off) && decide (off + n ≤ bytes)

/-- Whether a matrix has a reserved bit beside a shift. -/
def Mat.badShift (m : Mat) (b : List Byte) : Bool :=
  (List.range (m.rows * m.cols)).any fun k => decide (32 ≤ leField b (m.base + pad64 (4 * (m.rows * m.cols)) + k) 1)

/-- Measurement map entry `j` and output map entry `i` (R488). -/
structure MeasMap where
  off : Nat := 0
  dgi : Nat := 0xFF
  ty : Nat := 0
  shl : Nat := 0
  bias : Int := 0
  deriving DecidableEq, Repr, Inhabited

structure OutMap where
  off : Nat := 0
  ty : Nat := 0
  shr : Nat := 0
  umin : Int := 0
  umax : Int := 0
  rsv : Bool := false
  deriving DecidableEq, Repr, Inhabited

/-- A measurement map entry of a primary image. -/
def measAt (b : List Byte) (h : LoopHdr) (j : Nat) : MeasMap :=
  let p := h.moff + 8 * j
  { off := leField b p 2, dgi := leField b (p + 2) 1, ty := bits (leField b (p + 3) 1) 7 5,
    shl := bits (leField b (p + 3) 1) 4 0, bias := int32At b (p + 4) }

/-- An output map entry of a primary image. -/
def outAt (b : List Byte) (h : LoopHdr) (i : Nat) : OutMap :=
  let p := h.ooff + 16 * i
  { off := leField b p 2, ty := bits (leField b (p + 3) 1) 7 5, shr := bits (leField b (p + 3) 1) 4 0,
    umin := int32At b (p + 4), umax := int32At b (p + 8), rsv := leField b (p + 2) 1 != 0 || leField b (p + 12) 4 != 0 }

/-- Whether the header of an image is malformed (R487, R489). -/
def LoopHdr.malformed (h : LoopHdr) : Bool :=
  h.lver != 1 || h.rsv || h.nx == 0 || decide (128 < h.nx) || h.ny == 0 || decide (96 < h.ny) || h.nu == 0 ||
    decide (48 < h.nu) || decide (64 < h.nw) || !sectionOk h.bytes h.coff (h.mats.2 + pad64 (4 * h.nu) - h.coff) ||
    (if h.safe then h.moff != 0 || h.ooff != 0 || h.xoff != 0
     else !sectionOk h.bytes h.moff (8 * h.ny) || !sectionOk h.bytes h.ooff (16 * h.nu) ||
       !sectionOk h.bytes h.xoff (4 * h.nx))

/-- Whether the sections of an image are malformed. -/
def imageBad (b : List Byte) (h : LoopHdr) : Bool :=
  (h.mats.1.any fun m => m.badShift b) ||
    (!h.safe && (((List.range h.ny).any fun j => decide (2 < (measAt b h j).ty)) ||
      (List.range h.nu).any fun i =>
        let o := outAt b h i
        o.rsv || (o.ty != 0 && o.ty != 2) || decide (o.umax < o.umin)))

/-- Bytes of a raw measurement, and of a setpoint. -/
def measBytes (ty : Nat) : Nat := if ty = 2 then 4 else 2
def outBytes (ty : Nat) : Nat := if ty = 2 then 4 else 2

/-- A measurement from its raw bytes (R488). -/
def MeasMap.value (m : MeasMap) (raw : Nat) : Int :=
  let r : Int := if m.ty = 0 then toSigned 16 raw else if m.ty = 1 then (raw : Int) else toSigned 32 raw
  (satI32 (r * 2 ^ m.shl - m.bias)).1

/-- The bytes of a setpoint (R488). -/
def OutMap.setpoint (o : OutMap) (u : Int) : List Byte :=
  let v := u / 2 ^ o.shr
  if o.ty = 0 then leBytes 2 (ofSigned 16 (clampI (-(2 ^ 15)) (2 ^ 15 - 1) v))
  else leBytes 4 (ofSigned 32 (clampI (-(2 ^ 31)) (2 ^ 31 - 1) v))

/-! ## The computation (R478) -/

/-- The sums −K x + G w + d of one bank, before injection and clamp; and saturations. -/
def bankSums (bank : List Byte) (x w : List Int) : List (Int × Nat) :=
  let h := parseLoopHdr bank
  let k := h.mats.1.length - 2
  let mk := h.mats.1.getD k {}
  let mg := h.mats.1.getD (k + 1) {}
  (List.range h.nu).map fun i =>
    accumulate ((mk.rowTerms bank i x).map (fun t => -t) ++ mg.rowTerms bank i w ++ [int32At bank (h.mats.2 + 4 * i)])

/-- Clamp outputs to the limits of the output map, `inj` added to one of them first. -/
def clampOut (prim : List Byte) (inj : Option (Nat × Int)) (v : List Int) : List Int :=
  v.zipIdx.map fun e =>
    let o := outAt prim (parseLoopHdr prim) e.2
    let d := match inj with
      | some (i, d) => if i = e.2 then d else 0
      | none => 0
    clampI o.umin o.umax (e.1 + d)

/-- A x̂ + B u, with saturations. -/
def predict (prim : List Byte) (xhat u : List Int) : List (Int × Nat) :=
  let h := parseLoopHdr prim
  let ma := h.mats.1.getD 0 {}
  let mb := h.mats.1.getD 1 {}
  (List.range h.nx).map fun i => accumulate (ma.rowTerms prim i xhat ++ mb.rowTerms prim i u)

/-- What one computation gives. -/
structure StepOut where
  e : List Int := []
  xhat : List Int := []
  /-- Outputs before and after injection at u. -/
  u0 : List Int := []
  u : List Int := []
  xbar : List Int := []
  us : List Int := []
  sats : Nat := 0
  deriving DecidableEq, Repr, Inhabited

/-- Add a signal to one element of a vector, saturating. -/
def addAt (v : List Int) (i : Nat) (d : Int) : List Int :=
  v.zipIdx.map fun e => if e.2 = i then (satI32 (e.1 + d)).1 else e.1

/-- The observer: e and x̂ from the measurements, those not valid giving e = 0. -/
def observe (prim : List Byte) (xbar y : List Int) (valid : List Bool) : List Int × List Int × Nat :=
  let h := parseLoopHdr prim
  let mc := h.mats.1.getD 2 {}
  let ml := h.mats.1.getD 3 {}
  let e := (List.range h.ny).map fun j =>
    if !valid.getD j false then ((0 : Int), 0)
    else
      let c := accumulate (mc.rowTerms prim j xbar)
      let r := satI32 (y.getD j 0 - c.1)
      (r.1, c.2 + r.2)
  let ev := e.map (·.1)
  let x := (List.range h.nx).map fun i => accumulate (xbar.getD i 0 :: ml.rowTerms prim i ev)
  (ev, x.map (·.1), (e.map (·.2)).sum + (x.map (·.2)).sum)

/-- One computation (R478): `wInj` is w with the injection at w, `injU` the injection at u. -/
def tempoStep (prim safe : List Byte) (useSafe : Bool) (xbar y : List Int) (valid : List Bool) (w wInj : List Int)
    (injU : Option (Nat × Int)) : StepOut :=
  let o := observe prim xbar y valid
  let sums := bankSums (if useSafe then safe else prim) o.2.1 wInj
  let u := clampOut prim injU (sums.map (·.1))
  let xb := predict prim o.2.1 u
  let us := bankSums safe (xb.map (·.1)) w
  { e := o.1, xhat := o.2.1, u0 := clampOut prim none (sums.map (·.1)), u := u, xbar := xb.map (·.1),
    us := clampOut prim none (us.map (·.1)),
    sats := o.2.2 + (sums.map (·.2)).sum + (xb.map (·.2)).sum + (us.map (·.2)).sum }

/-! ## Test signals (R493, R494) -/

/-- Tap stages of the shift register of `n` stages. -/
def prbsTaps (n : Nat) : List Nat :=
  match n with
  | 3 => [3, 2] | 4 => [4, 3] | 5 => [5, 3] | 6 => [6, 5] | 7 => [7, 6] | 8 => [8, 6, 5, 4] | 9 => [9, 5] | 10 => [10, 7]
  | 11 => [11, 9] | 12 => [12, 6, 4, 1] | 13 => [13, 4, 3, 1] | 14 => [14, 5, 3, 1] | 15 => [15, 14] | 16 => [16, 15, 13, 4]
  | 17 => [17, 14] | 18 => [18, 11] | 19 => [19, 6, 2, 1] | 20 => [20, 17] | 21 => [21, 19] | 22 => [22, 21] | 23 => [23, 18]
  | _ => []

/-- Advance the register: stage i is bit i − 1; the new stage 1 is the XOR of the tap stages. -/
def prbsNext (n r : Nat) : Nat :=
  let fb := ((prbsTaps n).filter fun t => bit r (t - 1)).length % 2
  (2 * r + fb) % 2 ^ n

/-- Fields of an injection block. -/
def Inj.sig (i : Inj) : Nat := leField i.blk 0 1
def Inj.point (i : Inj) : Nat := bits (leField i.blk 1 1) 1 0
def Inj.index (i : Inj) : Nat := leField i.blk 2 1
def Inj.nbit (i : Inj) : Nat := leField i.blk 3 1
def Inj.amp (i : Inj) : Nat := leField i.blk 4 4
def Inj.dur (i : Inj) : Nat := leField i.blk 8 4
def Inj.hold (i : Inj) : Nat := leField i.blk 12 2
def Inj.mode (i : Inj) : Nat := leField i.blk 24 1

/-- Whether an injection block breaks the ranges of R493 for a loop's dimensions. -/
def injBad (b : List Byte) (h : LoopHdr) : Bool :=
  let i : Inj := { blk := b }
  let seed := leField b 28 4
  decide (i.sig < 1) || decide (4 < i.sig) || bits (leField b 1 1) 7 2 != 0 || i.point == 3 ||
    (match i.point with
     | 0 => decide (h.nw ≤ i.index)
     | 1 => decide (h.nu ≤ i.index)
     | _ => decide (h.ny ≤ i.index)) ||
    (if i.sig = 1 then decide (i.nbit < 3) || decide (23 < i.nbit) else i.nbit != 0) ||
    decide (2 ^ 31 ≤ i.amp) || (i.sig == 4 && i.amp != 0) || (i.sig == 2 && i.dur == 0) ||
    ((i.sig == 1 || i.sig == 3) && i.hold == 0) || leField b 14 2 != 0 ||
    (i.sig == 2 && (decide (2 ^ 31 ≤ leField b 16 4) || decide (2 ^ 31 ≤ leField b 20 4) || decide (1 < i.mode))) ||
    (i.sig == 4 && (i.mode == 0 || decide (16 < i.mode))) || leField b 25 3 != 0 ||
    (i.sig == 1 && (seed % 2 ^ i.nbit == 0 || decide (2 ^ i.nbit ≤ seed))) ||
    (i.sig != 4 && leField b 32 8 != 0) || leField b 40 24 != 0

/-- AMP × sin(2π φ / 2^32) as a whole number: any that rounding leaves of a sine within 2^−20 of the exact one (R494; log entry 12). -/
def sineOf (which amp phase : Nat) : Int :=
  let x := (amp : Int) * fxSin (2 * fxPi * phase / 2 ^ 32)
  let y := toSigned 33 (Config.unstated which (amp + 2 ^ 32 * phase)).toNat
  let near := decide (2 ^ 20 * (y * fxOne - x).natAbs ≤ (amp + 2 ^ 19) * fxOne.natAbs)
  clampI (-(amp : Int)) amp (if near then y else (x + fxOne / 2) / fxOne)

/-- Whether `y` is within 1 of the value that leads linearly from `a` to `b` at `t` of `d` periods. -/
def nearLinear (a b d t y : Nat) : Bool :=
  decide (0 < d) && decide (t ≤ d) && decide (((y * d : Nat) - (a * (d - t) + b * t : Nat) : Int).natAbs ≤ d)

/-- Whether `y` is within 1 of the value that leads geometrically from `a` to `b` at `t` of `d` periods. -/
def nearGeometric (a b d t y : Nat) : Bool :=
  let p := a ^ (d - t) * b ^ t
  decide (0 < d) && decide (t ≤ d) && decide ((y - 1) ^ d ≤ p) && decide (p ≤ (y + 1) ^ d)

/-- Largest `d`-th root of at most `p`, from its highest bits down. -/
def rootOf (p d : Nat) : Nat → Nat → Nat
  | 0, y => y
  | k + 1, y => if (y + 2 ^ k) ^ d ≤ p then rootOf p d k (y + 2 ^ k) else rootOf p d k y

/-- The frequency of a swept sine's current period: F0 at first, and from there to F1 over DUR periods, linearly or geometrically, within
1 of the exact value, whether F1 is reached with the last period or after it; open from or to 0 geometrically (R494; log entry 12). -/
def Inj.freq (i : Inj) : Nat :=
  let a := leField i.blk 16 4
  let b := leField i.blk 20 4
  let (d, t) := (i.dur, i.t)
  let y := Nat.max (Nat.min a b) (Nat.min (Nat.max a b) ((Config.unstated 22 (leNat i.blk + 2 ^ 512 * t)).toNat % 2 ^ 32))
  let near := if i.mode = 0 then nearLinear a b else nearGeometric a b
  if t = 0 then a
  else if d ≤ t then b
  else if (i.mode ≠ 0 ∧ (a = 0 ∨ b = 0)) ∨ near d t y ∨ near (d - 1) t y then y
  else if i.mode = 0 then (a * (d - t) + b * t) / d
  else rootOf (a ^ (d - t) * b ^ t) d 32 0

/-- Whether DUR periods have passed. -/
def Inj.ended (i : Inj) : Bool := i.dur != 0 && decide (i.dur ≤ i.t)

/-- The injection signal of the current period; 0 after DUR periods. -/
def Inj.value (i : Inj) : Int :=
  if i.ended then 0
  else match i.sig with
    | 1 => if bit i.reg (i.nbit - 1) then (i.amp : Int) else -(i.amp : Int)
    | 2 => sineOf 21 i.amp i.phase
    | 3 => if i.t < i.hold then 0 else i.amp
    | _ => (satI32 (((List.range i.mode).map fun k =>
        let f := leField i.table (12 * k) 4
        let ph := leField i.table (12 * k + 4) 4
        sineOf 21 (leField i.table (12 * k + 8) 4) ((f * i.t + ph) % 2 ^ 32)).sum)).1

/-- The injection after one more period. -/
def Inj.advance (i : Inj) : Inj :=
  let t := i.t + 1
  { i with
    t := t, phase := if i.sig = 2 then (i.phase + i.freq) % 2 ^ 32 else 0,
    reg := if i.sig = 1 ∧ t % i.hold = 0 then prbsNext i.nbit i.reg else i.reg }

/-! ## The oscillation detector (R492) -/

/-- One output's detector after a period: the last sign (1 or −1), the reversals newest first. -/
def oscNext (amin win : Nat) (prev cur : Int) (sign : Int) (rev : List Bool) : Int × List Bool :=
  let d := cur - prev
  let sg : Int := if 0 < d then 1 else if d < 0 then -1 else 0
  if sg ≠ 0 ∧ amin ≤ d.natAbs then (sg, ((decide (sign ≠ 0) && decide (sign ≠ sg)) :: rev).take win)
  else (sign, (false :: rev).take win)

end Sys2Proof.Machine
end

