-- ==== Sys2Proof/Machine/Tempo.lean ====
section
/-! DEFINITION. Tempo (R476 to R502): its commands, its loops' instants and computations, the mailbox, capture, the checker, and
the page's state table. -/

namespace Sys2Proof.Machine

/-! ## Loops -/

/-- A loop. -/
def State.loop (s : State) (l : Nat) : Loop := assocGet {} s.tempo.loops l

/-- Replace a loop. -/
def State.setLoop (s : State) (l : Nat) (x : Loop) : State :=
  { s with tempo := { s.tempo with loops := assocSet {} s.tempo.loops l x } }

/-- Register field of loop `l`. -/
def Fld.loop (f : Fld) (l : Nat) : Fld := f.plus (0x40 * l)

/-- TMP_Ln_STS.STATE codes. -/
def loopEmpty : Nat := 0
def loopReady : Nat := 1
def loopArmed : Nat := 2
def loopRunning : Nat := 3

/-- State of a loop. -/
def State.loopSt (s : State) (l : Nat) : Nat := s.getF 0 (Fld.TMP_Ln_STS_STATE.loop l)

/-- Set the state of a loop. -/
def State.setLoopSt (s : State) (l st : Nat) : State := s.setF 0 (Fld.TMP_Ln_STS_STATE.loop l) st

/-- Whether a loop is ARMED or RUNNING. -/
def State.loopActive (s : State) (l : Nat) : Bool := s.loopSt l == loopArmed || s.loopSt l == loopRunning

/-- Whether any loop is ARMED or RUNNING. -/
def State.anyLoopActive (s : State) : Bool := (List.range 4).any fun l => s.loopActive l

/-- Whether Tempo is ON. -/
def State.tempoOn (s : State) : Bool := s.pageSt 0x09 == stOn

/-- DIV and PHASE of a loop. -/
def State.loopDiv (s : State) (l : Nat) : Nat := s.getF 0 (Fld.TMP_Ln_CFG_DIV.loop l)
def State.loopPhase (s : State) (l : Nat) : Nat := s.getF 0 (Fld.TMP_Ln_CFG_PHASE.loop l)

/-- Raise an interrupt bit of page 0x09 (R502). -/
def State.tempoIrq (s : State) (i : Nat) : State := s.raiseIrq 0x09 0 i

/-- Mailbox words as signed values. -/
def mbxVals (m : List (Nat × Word)) (nw : Nat) : List Int := (List.range nw).map fun i => toSigned 32 (assocGet 0#32 m i).toNat

/-! ## Banks (R490, R491) -/

/-- Select the safe bank from the next sample instant, with a cause; no change where it is selected already. -/
def State.selectSafe (s : State) (l cause : Nat) : State :=
  let x := s.loop l
  let already := (s.flag 0 (Fld.TMP_Ln_STS_BANK.loop l) && x.toSafe != some false) || x.toSafe == some true
  if !s.loopActive l || already then s
  else ((s.setLoop l { x with toSafe := some true }).setF 0 (Fld.TMP_Ln_STS_SAFECAUSE.loop l) cause).tempoIrq 1

/-- End an injection. -/
def State.endInj (s : State) (l : Nat) : State :=
  (s.setLoop l { s.loop l with inj := none, injNow := 0 }).setFlag 0 (Fld.TMP_Ln_STS_INJ.loop l) false

/-- The bank changes at a sample instant: an injection ends and the detector's history restarts (R492, R494). -/
def State.flipBank (s : State) (l : Nat) : State :=
  match (s.loop l).toSafe with
  | none => s
  | some b =>
    if s.flag 0 (Fld.TMP_Ln_STS_BANK.loop l) = b then s.setLoop l { s.loop l with toSafe := none }
    else
      let s1 := (s.setFlag 0 (Fld.TMP_Ln_STS_BANK.loop l) b).endInj l
      s1.setLoop l { s1.loop l with toSafe := none, oscU := [], sign := [], rev := [] }

/-- Whether the tick of the loop's sampled instant is not over: a write stamped now still takes part in its period (R20). -/
def State.sampleTickOpen (s : State) (l : Nat) : Bool := (s.loop l).last.any fun c => decide (s.now ≤ s.instant c)

/-- A command in the tick of a sample instant acts on the computations that start after that tick: the one that instant has begun to wait
for among them (R490). -/
def State.actNow (s : State) (l : Nat) (f : State → Nat → State) : State :=
  if (s.loop l).await.isSome && s.sampleTickOpen l then f s l else s

/-- A cause of R491 that persists at a sample instant, if there is one. -/
def State.lastingCause (s : State) (l : Nat) : Option Nat :=
  let m := s.getF 0 (Fld.TMP_Ln_GUARD_MISSMAX.loop l)
  let g := s.getF 0 (Fld.TMP_Ln_GUARD_MBXMAX.loop l)
  if s.rst.run.isSome then some 5
  else if !s.flag 0 (Fld.TMP_Ln_STS_PLOAD.loop l) then some 7
  else if m ≠ 0 ∧ m ≤ (s.loop l).miss ∧ s.flag 0 (Fld.TMP_Ln_CFG_MISSACT.loop l) then some 4
  else if g ≠ 0 ∧ g < s.getF 0 (Fld.TMP_Ln_MBXAGE_VALUE.loop l) ∧ s.flag 0 (Fld.TMP_Ln_CFG_MBXACT.loop l) then some 3
  else none

/-- A cause that persists selects the safe bank again at the next instant after SELECT_PRIMARY (R490). -/
def State.reselectSafe (s : State) (l : Nat) : State :=
  match (s.loop l).toSafe, s.lastingCause l with
  | some false, some cause =>
    ((s.setLoop l { s.loop l with toSafe := some true }).setF 0 (Fld.TMP_Ln_STS_SAFECAUSE.loop l) cause).tempoIrq 1
  | _, _ => s

/-- Causes 5 and 6 of R491: every loop turns safe and its mailbox is frozen; with cause 6 capture stops and injections end. -/
def State.tempoFreeze (s : State) (cause : Nat) : State :=
  let s1 := (List.range 4).foldl (fun s l =>
    if !s.loopActive l then s
    else
      let s1 := (s.setLoop l { s.loop l with frozen := true }).selectSafe l cause
      if cause = 6 then s1.endInj l else s1) s
  if cause = 6 then s1.setFlag 0 Fld.TMP_CAP_CFG_RUN false else s1

/-- A new writer of the mailboxes is allowed (R491). -/
def State.tempoThaw (s : State) : State :=
  { s with tempo := { s.tempo with loops := s.tempo.loops.map fun e => (e.1, { e.2 with frozen := false }) } }

/-! ## Staging with the ring (R481) -/

/-- Setpoint bytes of a set of outputs, by image offset. -/
def setpoints (prim : List Byte) (u : List Int) : List (Nat × List Byte) :=
  let h := parseLoopHdr prim
  u.zipIdx.map fun e =>
    let o := outAt prim h e.2
    (o.off, o.setpoint e.1)

/-- The sets that the ring holds for a loop. -/
def State.outSet (s : State) (l : Nat) : OutSet := assocGet {} s.ring.outs l

/-- Replace the sets that the ring holds for a loop. -/
def State.setOutSet (s : State) (l : Nat) (o : OutSet) : State :=
  { s with ring := { s.ring with outs := assocSet {} s.ring.outs l o } }

/-! ## Mailbox (R485, R486) -/

/-- Accept a mailbox write as one unit, stamped with this tick (R20, R485). -/
def State.mailboxAccept (s : State) (l : Nat) (ws : List (Nat × Word)) : State :=
  let x := s.loop l
  let x1 := { x with mbx := assocSetMany 0#32 x.mbx ws }
  let s1 := if s.sampleTickOpen l then
      (s.setLoop l { x1 with snap := assocSetMany 0#32 x.snap ws }).setF 0 (Fld.TMP_Ln_MBXAGE_VALUE.loop l) 0
    else s.setLoop l { x1 with fresh := x.fresh ++ [(s.now, ws)] }
  s1.bump 0 (Fld.TMP_Ln_MBXCNT.loop l) 1

/-- Whether a mover may write a range of page 0x09: line tiles within one loop's mailbox, from the control-owner partition. -/
def State.mailboxOk (s : State) (fn off n : Nat) : Bool :=
  s.isCtlOwner fn && decide (0x1000 ≤ off) && decide (n ≠ 0) && decide (off + n ≤ 0x1400) &&
    (off - 0x1000) / 0x100 == (off + n - 1 - 0x1000) / 0x100

/-- A mover's STORE to a loop's mailbox; it is dropped where R485 refuses it, while the mailbox is frozen, and while the page is
not ON. -/
def State.mailboxStore (s : State) (fn off : Nat) (data : List Byte) : State :=
  let l := (off - 0x1000) / 0x100
  if !s.mailboxOk fn off data.length || !s.tempoOn || (s.loop l).frozen then s
  else s.mailboxAccept l ((List.range (data.length / 4)).map fun i =>
    ((off % 0x100) / 4 + i, BitVec.ofNat 32 (leField data (4 * i) 4)))

/-- TEMPO_MAILBOX_STORE (R485). -/
def execTempoMailboxStore (fn off : Nat) (data : List Byte) (s : State) : Out := .next (s.mailboxStore fn off data)

/-- TEMPO_MAILBOX_COMMIT: the staged words of the named loops are accepted (R485). -/
def execTempoMailboxCommit (fn v : Nat) (s : State) : Out :=
  .next (s.gated fn 0x09 0x090 (
    if !s.isCtlOwner fn then s.recErr 0x09 fn .accessDenied 0x090
    else if resvHit 0x09 0x090 v then s.recErr 0x09 fn .tempoMalformed 0x090
    else (List.range 4).foldl (fun s l =>
      let x := s.loop l
      if !bit v l || !s.tempoOn || x.frozen then s
      else (s.setLoop l { x with staged := [] }).mailboxAccept l x.staged) s))

/-- TEMPO_MBX_STALE: the age exceeds MBXMAX; with MBXACT the safe bank is selected (R486). -/
def execTempoMbxStale (loop : Nat) (s : State) : Out :=
  .next (
    let m := s.getF 0 (Fld.TMP_Ln_GUARD_MBXMAX.loop loop)
    if s.tempoOn && m != 0 && decide (m < s.getF 0 (Fld.TMP_Ln_MBXAGE_VALUE.loop loop)) &&
        s.flag 0 (Fld.TMP_Ln_CFG_MBXACT.loop loop) then s.selectSafe loop 3
    else s)

/-- TEMPO_MISSMAX: consecutive periods with an invalid measurement reach MISSMAX; with MISSACT the safe bank is selected (R479,
R491). -/
def execTempoMissmax (loop : Nat) (s : State) : Out :=
  .next (
    let m := s.getF 0 (Fld.TMP_Ln_GUARD_MISSMAX.loop loop)
    if s.tempoOn && m != 0 && decide (m ≤ (s.loop loop).miss) && s.flag 0 (Fld.TMP_Ln_CFG_MISSACT.loop loop) then
      s.selectSafe loop 4
    else s)

/-! ## The period (R477 to R481) -/

/-- Free the words of a bank that a new image replaces. -/
def State.freeWordsOf (s : State) (b : List Byte) : State :=
  if b.isEmpty then s else s.setF 0 Fld.TMP_FREE_WORDS (s.getF 0 Fld.TMP_FREE_WORDS + (parseLoopHdr b).words)

/-- Images loaded while the loop ran take effect, and the words of the old ones are freed (R489). -/
def State.swapImages (s : State) (l : Nat) : State :=
  let x := s.loop l
  let s1 := match x.newPrim with
    | some b => ((s.freeWordsOf x.prim).setLoop l { x with prim := b, newPrim := none }).setFlag 0 (Fld.TMP_Ln_STS_PLOAD.loop l) true
    | none => s
  let y := s1.loop l
  match y.newSafe with
  | some b => ((s1.freeWordsOf y.safe).setLoop l { y with safe := b, newSafe := none }).setFlag 0 (Fld.TMP_Ln_STS_SLOAD.loop l) true
  | none => s1

/-- The cycle that a loop samples now, if it is due. -/
def State.sampleCycle (s : State) (l : Nat) : Option Nat :=
  match s.cycleNow with
  | none => none
  | some c =>
    let x := s.loop l
    let first := s.loopSt l == loopArmed
    if s.tempoOn && s.ringMode == 1 && s.loopActive l && c % s.loopDiv l == s.loopPhase l && x.last != some c &&
        x.await.isNone && (!first || decide (x.startAt + s.cycleNs ≤ s.instant c)) then some c
    else none

/-- The mailbox writes that are stamped at or before a tick, and those stamped later (R20). -/
def Loop.stampedBy (x : Loop) (t : Nat) : List (Nat × List (Nat × Word)) := x.fresh.filter fun e => decide (e.1 ≤ t)
def Loop.stampedAfter (x : Loop) (t : Nat) : List (Nat × List (Nat × Word)) := x.fresh.filter fun e => decide (t < e.1)

/-- TEMPO_SAMPLE_INSTANT: mailbox snapshot as of the instant, mailbox age, bank and images that take effect now; an ARMED loop runs
(R20, R478, R486, R489, R490). -/
def execTempoSampleInstant (loop : Nat) (s : State) : Out :=
  .next (match s.sampleCycle loop with
    | none => s
    | some c =>
      let s1 := s.swapImages loop
      let x := s1.loop loop
      let f := Fld.TMP_Ln_MBXAGE_VALUE.loop loop
      let on := x.stampedBy (s.instant c)
      let s2 := ((if on.isEmpty then s1.bump 0 f 1 else s1.setF 0 f 0).reselectSafe loop).flipBank loop
      let s3 := s2.setLoop loop { s2.loop loop with
        fresh := x.stampedAfter (s.instant c), snap := on.foldl (fun m e => assocSetMany 0#32 m e.2) x.snap, last := some c,
          await := some c, mism := false, abandoned := false }
      s3.setLoopSt loop loopRunning)

/-- Whether a loop's computation may start before every other one that waits for the same cycle: the earliest staging deadline
first, the lower number on a tie (R482). -/
def State.computesFirst (s : State) (l : Nat) : Bool :=
  (List.range 4).all fun k =>
    k == l || (s.loop k).await != (s.loop l).await || (s.loop k).abandoned ||
      decide (s.loopDiv l < s.loopDiv k) || (s.loopDiv l == s.loopDiv k && decide (l < k))

/-- Capture writes one sample after a computation (R495). -/
def State.captureSignal (s : State) (l ch : Nat) : Nat :=
  let x := s.loop l
  let h := parseLoopHdr x.prim
  let i := bits ch 6 0
  let pick := fun (v : List Int) => match v[i]? with
    | some a => ofSigned 32 a
    | none => (Config.unstated 1 ch).toNat % 2 ^ 32
  match bits ch 14 12 with
  | 1 => pick x.y
  | 2 => pick x.u
  | 3 => pick x.xhat
  | 4 => pick (mbxVals x.snap h.nw)
  | 5 => pick x.e
  | 6 => ofSigned 32 x.injNow
  | _ => 0

/-- TMP_CAP_VA. -/
def State.capVa (s : State) : Nat := s.getF 0 Fld.TMP_CAP_VA_LO_VA * 64 + 2 ^ 32 * (s.getF 0 Fld.TMP_CAP_VA_HI % 2 ^ 20)

/-- One capture sample of a loop: a failed write takes none. -/
def State.capture (s : State) (l : Nat) : State :=
  let count := s.getF 0 Fld.TMP_CAP_CFG_COUNT
  if !s.flag 0 Fld.TMP_CAP_CFG_RUN || s.getF 0 Fld.TMP_CAP_CFG_LOOP != l || count == 0 then s
  else match s.ctlOwner with
    | none => s
    | some fn =>
      let n := s.getF 0 Fld.TMP_CAP_WRITTEN
      let data := (List.range 8).flatMap fun c =>
        leBytes 4 (s.captureSignal l (bits (s.getF 0 (Fld.TMP_CAP_SELn.plus (4 * (c / 2)))) (16 * (c % 2) + 15) (16 * (c % 2))))
      match s.vaWrite fn .engine (s.capVa + 32 * (n % count)) data with
      | (s1, .error _) => s1
      | (s1, .ok _) =>
        let s2 := s1.setF 0 Fld.TMP_CAP_WRITTEN (add32 n 1)
        if !s.flag 0 Fld.TMP_CAP_CFG_WRAP && n + 1 == count then (s2.setFlag 0 Fld.TMP_CAP_CFG_RUN false).tempoIrq 6 else s2

/-- The oscillation detector after a computation whose outputs before injection are `u` (R492). -/
def State.detect (s : State) (l : Nat) (u : List Int) : State :=
  let x := s.loop l
  let amin := s.getF 0 (Fld.TMP_Ln_AMIN_AMIN.loop l)
  let win := s.getF 0 (Fld.TMP_Ln_OSC_WIN.loop l)
  if x.oscU.isEmpty then s.setLoop l { x with oscU := u }
  else
    let r := u.zipIdx.map fun e => oscNext amin win (x.oscU.getD e.2 0) e.1 (x.sign.getD e.2 0) (x.rev.getD e.2 [])
    let s1 := s.setLoop l { x with oscU := u, sign := r.map (·.1), rev := r.map (·.2) }
    match r.findIdx? fun e => decide (s.getF 0 (Fld.TMP_Ln_OSC_NCROSS.loop l) ≤ (e.2.filter fun b => b).length) with
    | none => s1
    | some i =>
      let s2 := (s1.setF 0 (Fld.TMP_Ln_STS_OSCOUT.loop l) i).tempoIrq 2
      if s2.flag 0 (Fld.TMP_Ln_CFG_OSCACT.loop l) then s2.selectSafe l 2 else s2

/-- Raw bytes of measurement `j` in the receive image. -/
def State.rawMeas (s : State) (m : MeasMap) : Nat := leNat (s.imgRead rxBase m.off (measBytes m.ty))

/-- Complete a computation of a loop for cycle `c`; `back` says that the frame has returned. -/
def State.tempoCompute (s : State) (l c : Nat) (back : Bool) : State :=
  let x := s.loop l
  let h := parseLoopHdr x.prim
  let inj := (x.inj.map Inj.value).getD 0
  let point := (x.inj.map Inj.point).getD 3
  let idx := (x.inj.map Inj.index).getD 0
  let maps := (List.range h.ny).map fun j => measAt x.prim h j
  let valid := maps.map fun m => back && (m.dgi == 0xFF || s.ring.pass.getD m.dgi false)
  let y0 := maps.map fun m => m.value (s.rawMeas m)
  let y := if point = 2 then addAt y0 idx inj else y0
  let w := mbxVals x.snap h.nw
  let wi := if point = 0 then addAt w idx inj else w
  let o := tempoStep x.prim x.safe (s.flag 0 (Fld.TMP_Ln_STS_BANK.loop l)) x.xbar y valid w wi
    (if point = 1 then some (idx, inj) else none)
  let out := c + s.loopDiv l
  let x' := { x with
    await := none, xbar := o.xbar, xhat := o.xhat, u := o.u, fall := o.us, y := y, e := o.e, injNow := inj,
    miss := if valid.all (fun b => b) then 0 else x.miss + 1, inj := x.inj.map Inj.advance }
  let s1 := s.setLoop l x'
  let os := s1.outSet l
  let s2 := s1.setOutSet l { os with
    staged := some (out, setpoints x.prim o.u), fall := some (out + s.loopDiv l, setpoints x.prim o.us) }
  let s3 := s2.bump 0 (Fld.TMP_Ln_SAT.loop l) o.sats
  let s4 := { s3 with tempo := { s3.tempo with
    slacks := (s.ticks, s.stagingDeadline out - s.now) :: s3.tempo.slacks.filter fun e => decide (s.ticks < e.1 + 250000000) } }
  (s4.detect l o.u0).capture l

/-- STOP of a loop: no further staging; the sets staged last remain with the ring (R490). -/
def State.stopLoop (s : State) (l : Nat) : State :=
  if !s.loopActive l then s
  else
    let s1 := (s.swapImages l).endInj l
    let s2 := s1.setLoop l { s1.loop l with await := none, toSafe := none, mism := false, abandoned := false }
    s2.setLoopSt l loopReady

/-- An uncorrectable error in K, G or d of the primary bank (area `l`): safe bank, cause 7, PLOAD cleared. One in another word (area
4 + `l`, an odd place lying in the safe bank): the loop stops, and the bank's load bit is cleared (R497; log entry 70). -/
def State.loopErr (s : State) (l : Nat) : State :=
  match s.localErr 0x09 l, s.localErr 0x09 (4 + l) with
  | some (_, s1), _ => (s1.selectSafe l 7).setFlag 0 (Fld.TMP_Ln_STS_PLOAD.loop l) false
  | none, some (k, s1) =>
    ((s1.stopLoop l).setFlag 0 (if k % 2 = 1 then Fld.TMP_Ln_STS_SLOAD.loop l else Fld.TMP_Ln_STS_PLOAD.loop l) false).recErrBlock
      0x09 0 .eccUncorrectable
  | none, none => s

/-- TEMPO_COMPUTE: the frame of the sample instant has returned, and the loop's set is staged in time (R478, R479, R481). The
computation meets the errors of the loop's words (R497). -/
def execTempoCompute (loop : Nat) (s : State) : Out :=
  .next (
    let x := s.loop loop
    match x.await with
    | none => s
    | some c =>
      if s.tempoOn && !x.abandoned && s.ring.returned == some c && s.computesFirst loop &&
          decide (s.now ≤ s.stagingDeadline (c + s.loopDiv loop)) then
        let s1 := s.loopErr loop
        if s1.loopActive loop then s1.tempoCompute loop c true else s1
      else s)

/-- TEMPO_RTT_EXPIRY: the tick of instant + TMP_RTTMAX is over (R13), its frame's merge, where there was one, is made, and the frame has
not returned: every measurement is invalid (R479). -/
def execTempoRttExpiry (loop : Nat) (s : State) : Out :=
  .next (
    let x := s.loop loop
    match x.await with
    | none => s
    | some c =>
      if s.tempoOn && !x.abandoned && s.ring.returned != some c && (s.ring.flight.all fun fl => fl.cycle != c) &&
          decide (s.instant c + s.rttMax < s.now) &&
          decide (s.now ≤ s.stagingDeadline (c + s.loopDiv loop)) then
        ((s.bump 0 (Fld.TMP_Ln_LATE.loop loop) 1).tempoIrq 5).tempoCompute loop c false
      else s)

/-- TEMPO_OVERRUN: the staging deadline has passed; the frame carries the fallback set, and the period becomes a prediction-only
step (R481). -/
def execTempoOverrun (loop : Nat) (s : State) : Out :=
  .next (
    let x := s.loop loop
    match x.await with
    | none => s
    | some c =>
      let out := c + s.loopDiv loop
      if !s.tempoOn || decide (s.now ≤ s.stagingDeadline out) then s
      else
        let w := mbxVals x.snap (parseLoopHdr x.prim).nw
        let xb := predict x.prim x.xbar x.fall
        let us := bankSums x.safe (xb.map (·.1)) w
        let fall := clampOut x.prim none (us.map (·.1))
        let s1 := s.setLoop loop { x with
          await := none, mism := false, abandoned := false, xhat := x.xbar, u := x.fall, xbar := xb.map (·.1), fall := fall,
          inj := x.inj.map Inj.advance }
        let s2 := s1.setOutSet loop { s1.outSet loop with
          staged := some (out, setpoints x.prim x.fall), fall := some (out + s.loopDiv loop, setpoints x.prim fall) }
        let s3 := s2.bump 0 (Fld.TMP_Ln_SAT.loop loop) ((xb.map (·.2)).sum + (us.map (·.2)).sum)
        let s4 := { s3 with tempo := { s3.tempo with slacks := (s.ticks, 0) :: s3.tempo.slacks } }
        ((s4.bump 0 (Fld.TMP_Ln_OVERRUN.loop loop) 1).tempoIrq 4).detect loop x.fall)

/-! ## Commands (R489, R490, R493, R495) -/

/-- LOOP of a TMP_CMD write. -/
def cmdLoop (v : Nat) : Nat := bits v 27 26

/-- TMP_CMD_VA. -/
def State.tempoVa (s : State) : Nat := s.getF 0 Fld.TMP_CMD_VA_LO_VA * 64 + 2 ^ 32 * (s.getF 0 Fld.TMP_CMD_VA_HI % 2 ^ 20)

/-- A TMP_CMD write: the control-owner's, refused while the page is not ON (R498, R501). -/
def State.tempoCmd (s : State) (fn v op : Nat) (f : State × Status) : State :=
  s.pageCmd fn 0x09 0x050 v op (s.isCtlOwner fn) .accessDenied 0 Fld.TMP_CMD_STS_STATUS (some 0)
    (if s.tempoOn then f else (s, .tempoRefused))

/-- Read a loop image: the header, then BYTES. -/
def State.readImage (s : State) (fn va : Nat) : State × Except Status (List Byte) :=
  match s.vaRead fn .engine va 64 with
  | (s1, .error e) => (s1, .error (readStatus e))
  | (s1, .ok b) =>
    let n := (parseLoopHdr b).bytes
    if (parseLoopHdr b).malformed then (s1, .ok b)
    else match s1.vaRead fn .engine va n with
      | (s2, .error e) => (s2, .error (readStatus e))
      | (s2, .ok b') => (s2, .ok b')

/-- Put a loaded image into its bank; a running loop takes it at its next sample instant. -/
def State.putImage (s : State) (l : Nat) (b : List Byte) : State :=
  let h := parseLoopHdr b
  let x := s.loop l
  let s1 := s.setF 0 Fld.TMP_FREE_WORDS (s.getF 0 Fld.TMP_FREE_WORDS - h.words)
  if s.loopActive l then
    if h.safe then (s1.freeWordsOf (x.newSafe.getD [])).setLoop l { x with newSafe := some b }
    else (s1.freeWordsOf (x.newPrim.getD [])).setLoop l { x with newPrim := some b }
  else
    let s2 := if h.safe then
        ((s1.freeWordsOf x.safe).setLoop l { x with safe := b }).setFlag 0 (Fld.TMP_Ln_STS_SLOAD.loop l) true
      else ((s1.freeWordsOf x.prim).setLoop l { x with prim := b }).setFlag 0 (Fld.TMP_Ln_STS_PLOAD.loop l) true
    let s3 := s2.setF 0 (Fld.TMP_Ln_TCOMP_VALUE.loop l) h.tcomp
    if s3.flag 0 (Fld.TMP_Ln_STS_SLOAD.loop l) && s3.flag 0 (Fld.TMP_Ln_STS_PLOAD.loop l) then s3.setLoopSt l loopReady else s3

/-- LOAD (R489): refused, malformed and limit cases in that order. -/
def State.tempoLoad (s : State) (fn l : Nat) : State × Status :=
  match s.readImage fn s.tempoVa with
  | (s1, .error st) => (s1, st)
  | (s1, .ok b) =>
    let h := parseLoopHdr b
    let x := s1.loop l
    let other := if h.safe then x.prim else x.safe
    if h.malformed then (s1, .tempoMalformed)
    else if s.loopActive l && !h.safe && !(parseLoopHdr x.prim).sameDims h then (s1, .tempoRefused)
    else if imageBad b h || (!other.isEmpty && !(parseLoopHdr other).sameDims h) then (s1, .tempoMalformed)
    else if s1.getF 0 Fld.TMP_FREE_WORDS < h.words then (s1, .tempoLimit)
    else ((s1.putImage l b).actNow l State.swapImages, .ok)

/-- TEMPO_LOAD (R489, R490). -/
def execTempoLoad (fn v : Nat) (s : State) : Out := .next (s.tempoCmd fn v 1 (s.tempoLoad fn (cmdLoop v)))

/-- Whether some of the loops' cycles meet: pairwise equal phases modulo the common divisor of their DIV. -/
def State.meetInCycle (s : State) (ls : List Nat) : Bool :=
  ls.all fun a => ls.all fun b =>
    let g := Nat.gcd (s.loopDiv a) (s.loopDiv b)
    s.loopPhase a % g == s.loopPhase b % g

/-- Whether R483 holds with a further loop: twice the computation times of every set of loops that sample in one cycle. -/
def State.timingOk (s : State) (l : Nat) : Bool :=
  (List.range 16).all fun m =>
    let ls := (List.range 4).filter fun k => bit m k && (k == l || s.loopActive k)
    !s.meetInCycle ls ||
      decide (2 * (ls.map fun k => s.getF 0 (Fld.TMP_Ln_TCOMP_VALUE.loop k)).sum + s.rttMax + 48 ≤ s.cycleNs)

/-- Byte ranges of a loop's output map. -/
def outRanges (prim : List Byte) : List (Nat × Nat) :=
  let h := parseLoopHdr prim
  (List.range h.nu).map fun i =>
    let o := outAt prim h i
    (o.off, outBytes o.ty)

/-- Whether a loop's maps lie in the ring's images and its outputs clear of the other active loops' (R489, R513). -/
def State.mapsOk (s : State) (l : Nat) : Bool :=
  let x := s.loop l
  let h := parseLoopHdr x.prim
  let dgs := match s.ring.tmpl with
    | some t => (parseChain t.frame (t.len - 4) 22 160).1
    | none => []
  let meas := (List.range h.ny).map fun j =>
    let m := measAt x.prim h j
    (m.off, measBytes m.ty)
  let outs := outRanges x.prim
  (meas ++ outs).all (fun r => inData dgs r.1 r.2) &&
    (List.range 4).all fun k => k == l || !s.loopActive k ||
      (outRanges (s.loop k).prim).all fun r => outs.all fun q => !spansMeet r q

/-- START (R477, R483, R489, R490), refused too where an error has cleared a load bit (R497; log entry 43): the first output instant's fallback set, which the manual does not give, is free. -/
def State.tempoStart (s : State) (l : Nat) : State × Status :=
  let loaded := s.flag 0 (Fld.TMP_Ln_STS_PLOAD.loop l) && s.flag 0 (Fld.TMP_Ln_STS_SLOAD.loop l)
  if s.loopSt l ≠ loopReady ∨ s.ringMode ≠ 1 ∨ !loaded then (s, .tempoRefused)
  else if !s.mapsOk l then (s, .tempoMalformed)
  else
    let period := s.loopDiv l * s.cycleNs
    if period < 62500 ∨ 4000000 < period ∨ !s.timingOk l then (s, .tempoLimit)
    else
      let x := s.loop l
      let h := parseLoopHdr x.prim
      let fall := (List.range h.nu).map fun i =>
        let o := outAt x.prim h i
        clampI o.umin o.umax (toSigned 32 (Config.free (s.free + i) 32).toNat)
      let x' := { x with
        startAt := s.now, gen := s.getF 0 Fld.DEV_GEN, last := none, await := none,
          xbar := (List.range h.nx).map fun i => int32At x.prim (h.xoff + 4 * i),
        xhat := [], u := [], fall := fall, y := [], e := [], injNow := 0, miss := 0, toSafe := none, oscU := [], sign := [],
        rev := [], inj := none, mism := false, abandoned := false, fresh := [], snap := x.mbx }
      let s1 := { s.setLoop l x' with free := s.free + h.nu }
      let zero := [Fld.TMP_Ln_SAT, Fld.TMP_Ln_LATE, Fld.TMP_Ln_OVERRUN, Fld.TMP_Ln_MBXCNT, Fld.TMP_Ln_MBXAGE_VALUE,
        Fld.TMP_Ln_STS_BANK, Fld.TMP_Ln_STS_INJ, Fld.TMP_Ln_STS_SAFECAUSE]
      let s2 := zero.foldl (fun s f => s.setF 0 (f.loop l) 0) s1
      let s3 := s2.setOutSet l { s2.outSet l with staged := none, fall := none }
      (s3.setLoopSt l loopArmed, .ok)

/-- TEMPO_START (R490). -/
def execTempoStart (fn v : Nat) (s : State) : Out := .next (s.tempoCmd fn v 2 (s.tempoStart (cmdLoop v)))

/-- TEMPO_STOP (R490). -/
def execTempoStop (fn v : Nat) (s : State) : Out :=
  .next (s.tempoCmd fn v 3 (if s.loopActive (cmdLoop v) then (s.stopLoop (cmdLoop v), .ok) else (s, .tempoRefused)))

/-- TEMPO_SELECT_PRIMARY: the primary bank from the next sample instant; SAFECAUSE 0 (R490). -/
def execTempoSelectPrimary (fn v : Nat) (s : State) : Out :=
  let l := cmdLoop v
  .next (s.tempoCmd fn v 4 (
    if s.loopSt l = loopRunning then
      (((s.setLoop l { s.loop l with toSafe := some false }).setF 0 (Fld.TMP_Ln_STS_SAFECAUSE.loop l) 0).actNow l State.flipBank, .ok)
    else (s, .tempoRefused)))

/-- TEMPO_SELECT_SAFE: the safe bank from the next sample instant, cause 1 (R490, R491). -/
def execTempoSelectSafe (fn v : Nat) (s : State) : Out :=
  .next (s.tempoCmd fn v 5 (
    if s.loopSt (cmdLoop v) = loopRunning then ((s.selectSafe (cmdLoop v) 1).actNow (cmdLoop v) State.flipBank, .ok) else (s, .tempoRefused)))

/-- Start capture: the buffer must translate (R495). -/
def State.capStart (s : State) (fn : Nat) : State × Status :=
  let count := s.getF 0 Fld.TMP_CAP_CFG_COUNT
  if count = 0 then (s, .tempoMalformed)
  else match s.vaCheck fn s.capVa (32 * count) .write with
    | some (a, c) => (s.mmuFault fn .engine a c, .accessDenied)
    | none => ((s.setF 0 Fld.TMP_CAP_WRITTEN 0).setFlag 0 Fld.TMP_CAP_CFG_RUN true, .ok)

/-- INJECT: reads the injection block, and the component table of a multisine (R493, R495). -/
def State.tempoInject (s : State) (fn l : Nat) : State × Status :=
  let x := s.loop l
  if s.loopSt l ≠ loopRunning ∨ s.flag 0 (Fld.TMP_Ln_STS_BANK.loop l) ∨ x.inj.any (fun i => !i.ended) then (s, .tempoRefused)
  else match s.vaRead fn .engine s.tempoVa 64 with
    | (s1, .error e) => (s1, readStatus e)
    | (s1, .ok b) =>
      let i : Inj := { blk := b, reg := leField b 28 4 }
      if injBad b (parseLoopHdr x.prim) then (s1, .tempoMalformed)
      else
        let r := if i.sig = 4 then s1.vaRead fn .engine (leField b 32 8) (12 * i.mode) else (s1, .ok [])
        match r with
        | (s2, .error e) => (s2, readStatus e)
        | (s2, .ok tb) =>
          let s3 := (s2.setLoop l { x with inj := some { i with table := tb } }).setFlag 0 (Fld.TMP_Ln_STS_INJ.loop l) true
          if s3.flag 0 Fld.TMP_CAP_CFG_ONINJ && s3.getF 0 Fld.TMP_CAP_CFG_LOOP == l then ((s3.capStart fn).1, .ok)
          else (s3, .ok)

/-- TEMPO_INJECT (R493). -/
def execTempoInject (fn v : Nat) (s : State) : Out := .next (s.tempoCmd fn v 6 (s.tempoInject fn (cmdLoop v)))

/-- TEMPO_INJSTOP (R494). -/
def execTempoInjstop (fn v : Nat) (s : State) : Out := .next (s.tempoCmd fn v 7 (s.endInj (cmdLoop v), .ok))

/-- TEMPO_INJECTION_END: DUR periods have passed (R494). -/
def execTempoInjectionEnd (loop : Nat) (s : State) : Out :=
  .next (match (s.loop loop).inj with
    | some i => if i.ended then s.endInj loop else s
    | none => s)

/-- TEMPO_CAPSTART (R495). -/
def execTempoCapstart (fn v : Nat) (s : State) : Out := .next (s.tempoCmd fn v 8 (s.capStart fn))

/-- TEMPO_CAPSTOP (R495). -/
def execTempoCapstop (fn v : Nat) (s : State) : Out :=
  .next (s.tempoCmd fn v 9 (s.setFlag 0 Fld.TMP_CAP_CFG_RUN false, .ok))

/-- Free a loop's words: EMPTY, the mailbox kept (R485, R490). -/
def State.unloadLoop (s : State) (l : Nat) : State :=
  let x := s.loop l
  let s1 := (s.freeWordsOf x.prim).freeWordsOf x.safe
  let s2 := s1.setLoop l { mbx := x.mbx, snap := x.mbx, staged := x.staged, frozen := x.frozen }
  let s3 := (s2.setFlag 0 (Fld.TMP_Ln_STS_PLOAD.loop l) false).setFlag 0 (Fld.TMP_Ln_STS_SLOAD.loop l) false
  s3.setLoopSt l loopEmpty

/-- TEMPO_UNLOAD (R490). -/
def execTempoUnload (fn v : Nat) (s : State) : Out :=
  .next (s.tempoCmd fn v 10 (
    if s.loopActive (cmdLoop v) then (s, .tempoRefused) else (s.unloadLoop (cmdLoop v), .ok)))

/-! ## The checker (R496) -/

/-- Mismatches of the last second. -/
def State.recentMismatches (s : State) : List Nat := s.tempo.mism.filter fun t => decide (s.ticks < t + 250000000)

/-- TEMPO_CHECKER_MISMATCH: the first in a computation recomputes it, a second (`again`) abandons it. -/
def execTempoCheckerMismatch (loop : Nat) (again : Bool) (s : State) : Out :=
  .next (
    let x := s.loop loop
    if !s.tempoOn || x.await.isNone || x.abandoned || x.mism != again then s
    else
      let s0 := { s with tempo := { s.tempo with mism := s.ticks :: s.recentMismatches } }
      let s1 := s0.noteFault 3 loop
      if again then (s1.bump 0 Fld.TMP_MISMATCH_DOUBLE 1).setLoop loop { x with abandoned := true }
      else ((s1.bump 0 Fld.TMP_MISMATCH_SINGLE 1).setLoop loop { x with mism := true }).tempoIrq 3)

/-! ## The page (R498) -/

/-- The local memory is lost: loops EMPTY, mailboxes 0, every word free. -/
def State.tempoClear (s : State) : State :=
  let s1 := { s with tempo := {} }
  let s2 := (List.range 4).foldl (fun s l => s.setReg 0 0x09 (0x104 + 0x40 * l) 0#32) s1
  (s2.setF 0 Fld.TMP_FREE_WORDS 81920).setFlag 0 Fld.TMP_CAP_CFG_RUN false

/-- Every loop stops as by STOP. -/
def State.tempoHalt (s : State) : State := (List.range 4).foldl (fun s l => s.stopLoop l) s

/-- TEMPO_THIRD_MISMATCH: the page enters FAULT; the ring keeps each loop's last staged fallback set from its next output instant
on (R496, R498). -/
def execTempoThirdMismatch (s : State) : Out :=
  .next (if s.tempoOn && decide (3 ≤ s.recentMismatches.length) then
      let keep := fun (o : OutSet) => match o.staged, o.fall with
        | some (c, _), some (_, b) => { o with staged := none, fall := some (c, b) }
        | _, _ => o
      let s1 := { s with ring := { s.ring with outs := s.ring.outs.map fun (e : Nat × OutSet) => (e.1, keep e.2) } }
      ((s1.tempoClear).setPageSt 0x09 stFault).tempoIrq 7
    else s)

/-- A CTL write of page 0x09: the control-owner's. -/
def State.tempoCtl (s : State) (fn : Nat) (f : State) : State := s.ctlWrite fn 0x09 (s.isCtlOwner fn) .accessDenied f

/-- TEMPO_ENABLE (R498, R683). -/
def execTempoEnable (fn : Nat) (on : Bool) (s : State) : Out :=
  .next (s.tempoCtl fn (s.blockEnable 0x09 on State.tempoClear State.tempoHalt))

/-- TEMPO_QUIESCE (R498, R683). -/
def execTempoQuiesce (fn : Nat) (s : State) : Out := .next (s.tempoCtl fn (s.blockQuiesce 0x09 State.tempoHalt))

/-- TEMPO_RESET: acts in FAULT (R498, R683). -/
def execTempoReset (fn : Nat) (s : State) : Out :=
  .next (s.tempoCtl fn (if s.pageSt 0x09 = stFault then s.blockReset 0x09 State.tempoClear else s))

/-- TEMPO_START_DONE: the local memory is cleared (R498). -/
def execTempoStartDone (s : State) : Out := .next (s.blockOn 0x09 (fun s => s) State.tempoHalt)

/-- TEMPO_STOP_DONE: every loop has stopped, and the local memory is lost (R498). -/
def execTempoStopDone (s : State) : Out :=
  .next (if s.pageSt 0x09 = stStopping then (s.tempoClear).blockOff 0x09 State.tempoClear else s)

end Sys2Proof.Machine
end

