-- ==== Sys2Proof/Machine/Ring.lean ====
section
/-! DEFINITION. The Joint Ring (R503 to R520, R534 to R538): the master's frames and their merge, the node, acyclic frames, links
and the page. -/

namespace Sys2Proof.Machine

/-- Whether the ring page is ON. -/
def State.ringOn (s : State) : Bool := s.pageSt 0x0A == stOn

/-- Raise an interrupt bit of page 0x0A (R538). -/
def State.ringIrq (s : State) (i : Nat) : State := s.raiseIrq 0x0A 0 i

/-! ## Links and loops (R509) -/

/-- LINK and LOOP bits of a port. -/
def linkFld (p : Nat) : Fld := if p = 0 then Fld.JRG_STS_LINK0 else Fld.JRG_STS_LINK1
def loopFld (p : Nat) : Fld := if p = 0 then Fld.JRG_STS_LOOP0 else Fld.JRG_STS_LOOP1

/-- In NODE and IDLE a port is looped while the other port's link is down; a master loops none. -/
def State.showLoops (s : State) : State :=
  let loopP := fun p => s.ringMode != 1 && !s.flag 0 (linkFld (1 - p))
  (s.setFlag 0 (loopFld 0) (loopP 0)).setFlag 0 (loopFld 1) (loopP 1)

/-- RING_LINK_DOWN: a port's link is lost, and a node loops the other port. -/
def execRingLinkDown (port : Nat) (s : State) : Out :=
  .next (if s.ringOn && s.flag 0 (linkFld port) then
      let s1 := s.setFlag 0 (linkFld port) false
      (if s1.ringMode = 1 then s1 else s1.setFlag 0 (loopFld (1 - port)) true).ringIrq 1
    else s)

/-- A port's link comes up. -/
def State.ringUp (s : State) (port : Nat) : State :=
  if s.ringOn && !s.flag 0 (linkFld port) then
    let s1 := s.setFlag 0 (linkFld port) true
    ({ s1 with ring := { s1.ring with upAt := assocSet 0 s1.ring.upAt port s1.ticks } }).ringIrq 1
  else s

/-- RING_LINK_UP_SETTLED: once the link has been up for 10 ms, the node returns to through forwarding. -/
def execRingLinkUpSettled (port : Nat) (s : State) : Out :=
  .next (if s.ringOn && s.flag 0 (linkFld port) && s.flag 0 (loopFld (1 - port)) &&
        decide (assocGet 0 s.ring.upAt port + 2500000 ≤ s.ticks) then
      (s.setFlag 0 (loopFld (1 - port)) false).ringIrq 1
    else s)

/-! ## The transmit image (R514, R519) -/

/-- The cycle that the master launches next. -/
def State.nextLaunch (s : State) : Nat :=
  match s.cycleNow with
  | none => 0
  | some c => if s.ring.lastLaunch = some c then c + 1 else c

/-- Write bytes of the transmit image; after the staging deadline the next launch still carries what stood there (R514). -/
def State.txWrite (s : State) (off : Nat) (data : List Byte) : State :=
  let keep := if s.ringMode = 1 ∧ s.stagingDeadline s.nextLaunch < s.now then
      (data.zipIdx.filter fun e => decide (off + e.2 < imgBytes)).foldl (fun l e =>
        if l.any (fun x => x.1 == off + e.2) then l else l ++ [(off + e.2, s.regByte 0x0A (txBase + off + e.2))]) s.ring.late
    else s.ring.late
  ({ s with ring := { s.ring with late := keep } }).imgWrite txBase off data

/-! ## Master (R513 to R517) -/

/-- Put bytes into a frame. -/
def putBytes (f : List Byte) (off : Nat) (b : List Byte) : List Byte :=
  f.zipIdx.map fun e => if off ≤ e.2 ∧ e.2 < off + b.length then b.getD (e.2 - off) 0 else e.1

/-- A frame that the master launches: the ring header, every WKC 0, and the TIME datagram over the bytes of `f` (R506, R507, R512). -/
def State.launchBody (s : State) (t : Tmpl) (f : List Byte) (ftype seq t0 : Nat) (copy : Bool) : List Byte :=
  let f := putBytes f 14 ([BitVec.ofNat 8 (0x10 + ftype), if copy then 0x80#8 else 0#8] ++ leBytes 2 seq ++ leBytes 4 s.cycleNs)
  let dgs := (parseChain t.frame (t.len - 4) 22 160).1
  let f := dgs.foldl (fun f d => putBytes f (d.pos + 8) [0#8, 0#8]) f
  match dgs[t.timedg]? with
  | some d => putBytes f (d.pos + 10) (leBytes 8 t0 ++ leBytes 4 (s.getF 0 Fld.JRG_NODE_DNDLY))
  | none => f

/-- The body of a cyclic frame: the template's Ethernet header and the image, with the loops' sets (R481, R514). -/
def State.cyclicBody (s : State) (t : Tmpl) (c seq : Nat) (copy : Bool) : List Byte :=
  let img := (s.imgRead txBase 0 (t.len - 18)).zipIdx.map fun e =>
    match s.ring.late.find? fun x => x.1 == e.2 with
    | some x => x.2
    | none => e.1
  let outs := s.ring.outs.flatMap fun e => e.2.cur
  s.launchBody t (outs.foldl (fun f o => putBytes f (14 + o.1) o.2) (t.frame.take 14 ++ img)) 0 seq (s.instant c) copy

/-- The sets that a loop's frames carry from cycle `c` on: the staged one, otherwise the fallback set (R481). -/
def OutSet.atCycle (o : OutSet) (c : Nat) : OutSet :=
  match o.staged, o.fall with
  | some (k, b), _ => if k = c then { o with cur := b, staged := none } else o
  | none, some (k, b) => if k ≤ c then { o with cur := b } else o
  | none, none => o

/-- A loaded template takes effect at the first instant whose staging deadline follows its LOAD (R513). -/
def State.takeTemplate (s : State) (c : Nat) : State :=
  match s.ring.next with
  | none => s
  | some (t0, t) =>
    if s.stagingDeadline c ≤ t0 then s
    else
      let s1 := { s with ring := { s.ring with tmpl := some t, next := none, late := [] } }
      (s1.imgWrite txBase 0 (t.frame.drop 14)).setF 0 Fld.JRG_STS_NDG t.ndg

/-- Working counter of a datagram in a copy, and its data. -/
def dgWkc (f : List Byte) (d : Dg) : Nat × Nat := (leField f (d.pos + 9) 1, leField f (d.pos + 8) 1)
def dgData (f : List Byte) (d : Dg) : List Byte := (f.drop (d.pos + 10)).take d.len

/-- The frame that a copy carries, if it was taken. -/
def RingCopy.frame? : RingCopy → Option (List Byte)
  | .taken _ f => some f
  | _ => none

/-- Merge one datagram of two copies into a frame: tallies summed, data of the primary where it was acted on (R515). -/
def mergeDg (launched : List Byte) (f0 f1 : Option (List Byte)) (f : List Byte) (d : Dg) : List Byte :=
  let w0 := (f0.map fun b => dgWkc b d).getD (0, 0)
  let w1 := (f1.map fun b => dgWkc b d).getD (0, 0)
  let rd := Nat.min 255 (w0.1 + w1.1)
  let wr := Nat.min 255 (w0.2 + w1.2)
  let data := if w0 ≠ (0, 0) then (f0.map fun b => dgData b d).getD []
    else if w1 ≠ (0, 0) then (f1.map fun b => dgData b d).getD []
    else dgData launched d
  putBytes (putBytes f (d.pos + 10) data) (d.pos + 8) (leBytes 1 wr ++ leBytes 1 rd)

/-- Whether the ring shows open after a merge: the primary copy came back at port 0; at port 1 it is closed (R517). -/
def State.showOpen (s : State) (t : Tmpl) (dgs : List Dg) (c0 : RingCopy) : State :=
  match c0 with
  | .taken 0 f =>
    let brk := ((dgs[t.timedg]?).map fun d => (dgWkc f d).1).getD 0
    let s1 := s.setF 0 Fld.JRG_STS_BREAK brk
    if s1.flag 0 Fld.JRG_STS_OPEN then s1 else ((s1.setFlag 0 Fld.JRG_STS_OPEN true).ringIrq 0).noteFault 7 0
  | .taken _ _ => if s.flag 0 Fld.JRG_STS_OPEN then (s.setFlag 0 Fld.JRG_STS_OPEN false).ringIrq 0 else s
  | _ => s

/-- Merge the copies of the frame under way (R515). -/
def State.ringMerge (s : State) : State :=
  match s.ring.flight, s.ring.tmpl with
  | some fl, some t =>
    let f0 := fl.c0.frame?
    let f1 := fl.c1.frame?
    let s1 := { s with ring := { s.ring with flight := none } }
    if f0.isNone && f1.isNone then (s1.bump 0 Fld.JRG_LATE 1).ringIrq 2
    else
      let dgs := (parseChain t.frame (t.len - 4) 22 160).1
      let merged := dgs.foldl (mergeDg fl.frame f0 f1) fl.frame
      let pass := dgs.zipIdx.map fun d =>
        let w := dgWkc merged d.1
        256 * w.1 + w.2 == t.exp.getD d.2 0
      let fails := maskOf ((pass.zipIdx.filter fun p => !p.1).map (·.2))
      let s2 := s1.imgWrite rxBase 0 (merged.drop 14)
      let s3 := s2.set64 0 Fld.JRG_WKCFAIL_LO Fld.JRG_WKCFAIL_HI fails
      let s4 := { s3 with ring := { s3.ring with returned := some fl.cycle, pass := pass } }
      (s4.bump 0 Fld.JRG_FRAMES 1).showOpen t dgs fl.c0
  | _, _ => s

/-- Merge once both copies are taken or discarded. -/
def State.mergeIfDone (s : State) : State :=
  match s.ring.flight with
  | some fl => if fl.c0 ≠ .away ∧ fl.c1 ≠ .away then s.ringMerge else s
  | none => s

/-- Launch both copies of the cyclic frame at an instant (R514). -/
def State.cyclicLaunch (s : State) : State :=
  match s.cycleNow with
  | none => s
  | some c =>
    if !s.ringOn || s.ringMode != 1 || s.ring.flight.isSome || s.ring.lastLaunch == some c ||
        decide (s.stagingDeadline c ≤ s.ring.modeAt) then s
    else
      let s1 := s.takeTemplate c
      match s1.ring.tmpl with
      | none => s1
      | some t =>
        let s2 := { s1 with ring := { s1.ring with outs := s1.ring.outs.map fun (e : Nat × OutSet) => (e.1, e.2.atCycle c) } }
        let seq := (s2.getF 0 Fld.JRG_SEQ + 1) % 65536
        let body := s2.cyclicBody t c seq false
        let s3 := s2.setF 0 Fld.JRG_SEQ seq
        { s3 with ring := { s3.ring with
          lastLaunch := some c, late := [], flight := some { cycle := c, seq := seq, frame := body },
          sent := [(0, withFcs body true), (1, withFcs (s2.cyclicBody t c seq true) true)] } }

/-- RING_CYCLIC_LAUNCH: the master launches both copies at an instant (R514), after the merge of a frame whose time is up (R515). -/
def execRingCyclicLaunch (s : State) : Out :=
  .next (match s.ring.flight with
    | some fl => if s.instant fl.cycle + s.rttMax ≤ s.now ∧ s.cycleNow ≠ some fl.cycle then s.ringMerge.cyclicLaunch else s.cyclicLaunch
    | none => s.cyclicLaunch)

/-- Record a copy of the frame under way. -/
def State.setCopy (s : State) (fl : RingFlight) (redundant : Bool) (c : RingCopy) : State :=
  let fl' := if redundant then { fl with c1 := c } else { fl with c0 := c }
  ({ s with ring := { s.ring with flight := some fl' } }).mergeIfDone

/-- A merge that was due at instant + TMP_RTTMAX stands before whatever comes later (R515). -/
def State.mergeIfLate (s : State) : State :=
  match s.ring.flight with
  | some fl => if s.instant fl.cycle + s.rttMax < s.now then s.ringMerge else s
  | none => s

/-- A copy that comes back: taken, or discarded and counted where its FCS is bad or its SEQ is not the one launched (R515). -/
def State.copyBack (s : State) (port : Nat) (good : Bool) (frame : List Byte) : State :=
  match s.ring.flight with
  | none =>
    if !good then (s.bump 0 Fld.JRG_CRCERR 1).ringIrq 3
    else if frSeq frame ≠ s.getF 0 Fld.JRG_SEQ then s.bump 0 Fld.JRG_STALE 1
    else s
  | some fl =>
    if !good then ((s.bump 0 Fld.JRG_CRCERR 1).ringIrq 3).setCopy fl (frCopy frame) .discarded
    else if frSeq frame ≠ fl.seq then s.bump 0 Fld.JRG_STALE 1
    else
      let t := (s.ring.tmpl.map Tmpl.len).getD 64
      let s1 := if !frCopy frame && port == 1 then
          s.setF 0 Fld.JRG_LOOPT (s.now - s.instant fl.cycle - 8 * (t + 8))
        else s
      s1.setCopy fl (frCopy frame) (.taken port frame)

/-- RING_COPY_RETURN: a copy of a master's frame comes back at a port (R515). -/
def execRingCopyReturn (port : Nat) (good : Bool) (frame : List Byte) (s : State) : Out :=
  .next (if !s.ringOn || s.ringMode != 1 then s else s.mergeIfLate.copyBack port good frame)

/-- RING_MERGE_DEADLINE: the tick of instant + TMP_RTTMAX is over, so that no copy can come in time any more (R13, R515). -/
def execRingMergeDeadline (s : State) : Out := .next s.mergeIfLate

/-! ## Node (R508 to R512, R519) -/

/-- Whether this node acts on a datagram (R508): IDLE's address matches nothing. -/
def State.nodeActs (s : State) (d : Dg) : Bool :=
  let inside := decide (d.offset + d.len ≤ imgBytes)
  let mine := s.ringMode == 2 && d.addr == s.getF 0 Fld.JRG_NODE_ADDR && d.addr != 0 && d.addr != 0xFFFF
  match d.cmd with
  | 1 => mine && inside
  | 2 => mine && inside
  | 3 => mine && inside
  | 4 => inside
  | 5 => d.len == 16
  | _ => false

/-- What the node does to one datagram of the outgoing frame: tallies first, then DATA. -/
def State.nodeDg (s : State) (f : List Byte) (d : Dg) : List Byte :=
  if !s.nodeActs d then f
  else
    let rd := if d.cmd = 1 ∨ d.cmd = 3 ∨ d.cmd = 5 then Nat.min 255 (d.rd + 1) else d.rd
    let wr := if d.cmd = 2 ∨ d.cmd = 3 ∨ d.cmd = 4 then Nat.min 255 (d.wr + 1) else d.wr
    let f := putBytes f (d.pos + 8) (leBytes 1 wr ++ leBytes 1 rd)
    match d.cmd with
    | 1 => putBytes f (d.pos + 10) (s.imgRead txBase d.offset d.len)
    | 3 => putBytes f (d.pos + 10) (s.imgRead txBase d.offset d.len)
    | 5 =>
      let passage := 312 + (Config.free s.free 32).toNat % 17
      let acc := leField f (d.pos + 18) 4 + passage + s.getF 0 Fld.JRG_NODE_DNDLY
      putBytes f (d.pos + 18) (leBytes 4 acc)
    | _ => f

/-- Whether a datagram writes into the receive image at commit. -/
def State.nodeWrites (s : State) (d : Dg) : Bool := s.nodeActs d && (d.cmd == 2 || d.cmd == 3 || d.cmd == 4)

/-- Whether a node processes a frame that travels forward: an own frame of a known type, not WAKE, not too short. -/
def State.nodeTakes (s : State) (f : List Byte) : Bool :=
  decide (64 ≤ f.length) && frEtype f == s.getF 0 Fld.JRG_ETYPE_ETYPE && frVer f == 1 && decide (frType f ≤ 1)

/-- Commit a good frame (R510, R519). -/
def State.nodeCommit (s : State) (f : List Byte) (dgs : List Dg) : State :=
  let ws := dgs.filter fun d => s.nodeWrites d
  let s1 := ws.foldl (fun s d => s.imgWrite rxBase d.offset (dgData f d)) s
  let s2 := ((s1.setF 0 Fld.JRG_SEQ (frSeq f)).bump 0 Fld.JRG_FRAMES 1).ringIrq 4
  match s2.ctlOwner with
  | some fn => if s2.flag 0 Fld.JRG_CFG_NEXT && frType f == 0 && !ws.isEmpty then
      s2.internalDb fn (s2.getF 0 Fld.JRG_CFG_NEXTQ)
    else s2
  | none => s2

/-- A frame leaves by a port. -/
def State.ringSend (s : State) (port : Nat) (f : List Byte) : State :=
  { s with ring := { s.ring with sent := assocSet [] s.ring.sent port f } }

/-- RING_NODE_FRAME: a frame passes the node, forward, in reverse or turned (R509 to R512); in wake loopback it returns unprocessed
through the port that it came in by (R520). -/
def execRingNodeFrame (inPort : Nat) (good : Bool) (frame : List Byte) (s : State) : Out :=
  .next (if !s.ringOn && s.getF 0 Fld.PWR_STATE_STATE == 2 then s.ringSend inPort frame
    else if !s.ringOn || s.ringMode == 1 then s
    else
      let turned := s.flag 0 (loopFld inPort)
      let out := if turned then inPort else 1 - inPort
      let s0 := if good then s else (s.bump 0 Fld.JRG_CRCERR 1).ringIrq 3
      let pass := fun (s : State) => s.ringSend out frame
      if !(inPort == 0 || turned) || !s.nodeTakes frame then pass s0
      else if frType frame = 0 ∧ s.ring.seqKept = some (frSeq frame) then pass (s0.bump 0 Fld.JRG_STALE 1)
      else
        let dgs := frameDgs frame
        let body := dgs.foldl (fun f d => s0.nodeDg f d) (frameBody frame)
        let s1 := s0.drawFree.ringSend out (withFcs body good)
        let s2 := if frType frame = 0 then { s1 with ring := { s1.ring with seqKept := some (frSeq frame) } } else s1
        if good then s2.nodeCommit frame dgs else s2)

/-! ## Page writes (R504, R513, R518, R537) -/

/-- RING_MODE_WRITE: a write of JRG_CFG (R504, R537). -/
def execRingModeWrite (fn v : Nat) (s : State) : Out :=
  .next (s.gated fn 0x0A 0x040 (
    let bad := fun st => s.recErr 0x0A fn st 0x040
    if !s.isCtlOwner fn then bad .accessDenied
    else if resvHit 0x0A 0x040 v || bits v 1 0 == 3 ||
        ((bit v 8 || bits v 31 16 != 0) && decide (s.qcount fn ≤ bits v 31 16)) then bad .ringMalformed
    else if bits v 1 0 ≠ s.getF 0 Fld.JRG_CFG_MODE ∧ s.anyLoopActive then bad .ringRefused
    else
      let s1 := s.setReg 0 0x0A 0x040 (BitVec.ofNat 32 v)
      if bits v 1 0 = s.ringMode then s1
      else
        let s2 := { s1 with ring := { s1.ring with modeAt := s1.now, flight := none, seqKept := none, late := [] } }
        (s2.setF 0 Fld.JRG_STS_MODE (bits v 1 0)).showLoops))

/-- JRG_CMD_VA. -/
def State.ringVa (s : State) : Nat := s.getF 0 Fld.JRG_CMD_VA_LO + 2 ^ 32 * (s.getF 0 Fld.JRG_CMD_VA_HI % 2 ^ 20)

/-- A template from its bytes. -/
def parseTmpl (b : List Byte) : Tmpl :=
  { len := leField b 2 2, ndg := leField b 4 1, timedg := leField b 5 1,
    exp := (List.range 64).map fun d => leField b (64 + 2 * d) 2, frame := b.drop 256 }

/-- Whether a template's header is malformed, and whether its frame is (R513). -/
def tmplHdrBad (b : List Byte) : Bool :=
  let t := parseTmpl b
  leField b 0 2 != 1 || decide (t.len < 64) || decide (1518 < t.len) || t.ndg == 0 || decide (64 < t.ndg) || leField b 6 58 != 0

def State.tmplBad (s : State) (b : List Byte) : Bool :=
  let t := parseTmpl b
  let ch := parseChain t.frame (t.len - 4) 22 160
  leField b 192 64 != 0 || frEtype t.frame != s.getF 0 Fld.JRG_ETYPE_ETYPE || !ch.2 || ch.1.length != t.ndg ||
    (t.timedg != 0xFF && (match ch.1[t.timedg]? with
      | some d => d.cmd != 5 || d.len != 16
      | none => true)) ||
    (ch.1.any fun d => d.rd != 0 || d.wr != 0 || bit (leField t.frame d.pos 2) 11) || decide (s.cycleNs < 8 * (t.len + 20))

/-- Read a template: its status, or its bytes. -/
def State.readTmpl (s : State) (fn va : Nat) : State × Except Status (List Byte) :=
  match s.vaRead fn .engine va 64 with
  | (s1, .error e) => (s1, .error (readStatus e))
  | (s1, .ok b) =>
    if va % 64 ≠ 0 ∨ tmplHdrBad b then (s1, .error .ringMalformed)
    else match s1.vaRead fn .engine va (256 + (leField b 2 2 - 4)) with
      | (s2, .error e) => (s2, .error (readStatus e))
      | (s2, .ok f) => (s2, if s2.tmplBad f then .error .ringMalformed else .ok f)

/-- A JRG_CMD write: the control-owner's. -/
def State.ringCmd (s : State) (fn v op : Nat) (f : State × Status) : State :=
  s.pageCmd fn 0x0A 0x050 v op (s.isCtlOwner fn) .accessDenied 0 Fld.JRG_CMD_STS_STATUS (some 5) f

/-- RING_LOAD (R513). -/
def execRingLoad (fn v : Nat) (s : State) : Out :=
  .next (s.ringCmd fn v 1 (
    if !s.ringOn || s.anyLoopActive then (s, .ringRefused)
    else match s.readTmpl fn s.ringVa with
      | (s1, .error st) => (s1, st)
      | (s1, .ok b) => ({ s1 with ring := { s1.ring with next := some (s1.now, parseTmpl b) } }, .ok)))

/-- When an acyclic frame of `la` bytes leaves: in the first gap between cyclic frames that holds it (R518). -/
def State.acycTime (s : State) (la : Nat) : Option Nat :=
  let lc := (s.ring.tmpl.map Tmpl.len).getD 64
  let c := s.cycleNow.getD 0
  let start := fun k => s.instant k + 8 * (lc + 20)
  let last := fun k => s.stagingDeadline (k + 1) - 8 * (la + 20)
  if last c < start c then none
  else if s.now ≤ last c then some (Nat.max s.now (start c))
  else some (start (c + 1))

/-- RING_ACYC: one acyclic frame; the command completes when it has returned or timed out (R518). -/
def execRingAcyc (fn v : Nat) (s : State) : Out :=
  .next (if opCode v ≠ 2 then s
    else s.gated fn 0x0A 0x050 (
      let done := fun (s : State) st => (s.finishCmd 0 Fld.JRG_CMD_STS_STATUS st).ringIrq 5
      if !s.isCtlOwner fn then s.recErr 0x0A fn .accessDenied 0x050
      else if !s.cmdDone 0 Fld.JRG_CMD_STS_STATUS then s
      else if resvHit 0x0A 0x050 v then done s .ringMalformed
      else if !s.ringOn || s.ringMode != 1 then done s .ringRefused
      else match s.readTmpl fn s.ringVa with
        | (s1, .error st) => done s1 st
        | (s1, .ok b) =>
          let t := parseTmpl b
          let at_ := s1.acycTime t.len
          let s2 := (s1.startCmd 0 Fld.JRG_CMD_STS_STATUS)
          let s3 := { s2 with ring := { s2.ring with acyc := some (s.ringVa, at_) } }
          match at_ with
          | some a =>
            let body := fun copy => withFcs (s1.launchBody t t.frame 1 (frSeq t.frame) a copy) true
            (s3.ringSend 0 (body false)).ringSend 1 (body true)
          | none => s3))

/-- RING_ACYC_RETURN: the merged frame, written to JRG_CMD_VA + 256, or none within TMP_RTTMAX (R518). -/
def execRingAcycReturn (ret : Option (List Byte)) (s : State) : Out :=
  .next (match s.ring.acyc, s.ctlOwner with
    | some (va, some t), some fn =>
      let s0 := { s with ring := { s.ring with acyc := none } }
      let done := fun (s : State) st => (s.finishCmd 0 Fld.JRG_CMD_STS_STATUS st).ringIrq 5
      match ret with
      | none => if t + s.rttMax < s.now then done s0 .ringTimeout else s
      | some f =>
        if s.now < t ∨ t + s.rttMax < s.now then s
        else match s0.vaWrite fn .engine (va + 256) (frameBody f) with
          | (s1, .error e) => done s1 e.status
          | (s1, .ok _) => done s1 .ok
    | _, _ => s)

/-! ## The page (R534) -/

/-- A CTL write of page 0x0A. -/
def State.ringCtl (s : State) (fn : Nat) (f : State) : State := s.ctlWrite fn 0x0A (s.isCtlOwner fn) .accessDenied f

/-- Both links are held down; an ACYC under way ends with CANCELLED. -/
def State.ringDark (s : State) : State :=
  let s1 := (s.setFlag 0 (linkFld 0) false).setFlag 0 (linkFld 1) false
  let s2 := if s.ring.acyc.isSome then (s1.finishCmd 0 Fld.JRG_CMD_STS_STATUS .cancelled).ringIrq 5 else s1
  { s2 with ring := { s2.ring with flight := none, acyc := none } }

/-- RING_ENABLE (R534, R683). -/
def execRingEnable (fn : Nat) (on : Bool) (s : State) : Out :=
  .next (s.ringCtl fn (s.blockEnable 0x0A on State.ringDark (fun s => s)))

/-- RING_QUIESCE (R534, R683). -/
def execRingQuiesce (fn : Nat) (s : State) : Out := .next (s.ringCtl fn (s.blockQuiesce 0x0A (fun s => s)))

/-- RING_START_DONE: the page reaches ON (R534). -/
def execRingStartDone (s : State) : Out := .next (s.blockOn 0x0A State.showLoops (fun s => s))

/-- RING_STOP_DONE: the page is OFF, with both links down (R534). -/
def execRingStopDone (s : State) : Out :=
  .next (if s.pageSt 0x0A = stStopping then (s.ringDark).blockOff 0x0A State.ringDark else s)

end Sys2Proof.Machine
end

