-- ==== Sys2Proof/Machine/Time.lean ====
section
/-! DEFINITION. The timebase (R521 to R525), the trigger outputs and the capture inputs (R527, R528). The alarm stands with the
wake events. -/

namespace Sys2Proof.Machine

/-- Raise an interrupt bit of page 0x04 (R540). -/
def State.timeIrq (s : State) (i : Nat) : State := s.raiseIrq 0x04 0 i

/-- Whether the device is in Sleep. -/
def State.asleep (s : State) : Bool := s.getF 0 Fld.PWR_STATE_STATE == 2

/-! ## Sources (R523 to R525) -/

/-- Source codes of TMB_SRC_STS.SRC. -/
def srcFree : Nat := 0
def srcRing : Nat := 1
def srcPtp : Nat := 2

/-- STATE codes of TMB_SRC_STS. -/
def tmFree : Nat := 0
def tmAcquiring : Nat := 1
def tmLocked : Nat := 2
def tmHoldover : Nat := 3

/-- A source beside its registers. -/
def State.timeSrc (s : State) (k : Nat) : TimeSrc := if k = srcPtp then s.time.ptp else s.time.ring

/-- Replace a source. -/
def State.setTimeSrc (s : State) (k : Nat) (x : TimeSrc) : State :=
  { s with time := if k = srcPtp then { s.time with ptp := x } else { s.time with ring := x } }

/-- A source is available while it has delivered a valid offset within the last LOSSTO ms (R524). -/
def State.srcAvailable (s : State) (k : Nat) : Bool :=
  match (s.timeSrc k).lastAt with
  | some t => decide (s.ticks ≤ t + s.getF 0 Fld.TMB_SRC_CFG_LOSSTO * 250000)
  | none => false

/-- A source has been available for QUAL s. -/
def State.srcQualified (s : State) (k : Nat) : Bool :=
  s.srcAvailable k && decide ((s.timeSrc k).since + s.getF 0 Fld.TMB_SRC_CFG_QUAL * 250000000 ≤ s.ticks)

/-- Offset register and availability bit of a source. -/
def ofsFld (k : Nat) : Fld := if k = srcPtp then Fld.TMB_OFS_PTP else Fld.TMB_OFS_RING
def avFld (k : Nat) : Fld := if k = srcPtp then Fld.TMB_SRC_STS_PTPAV else Fld.TMB_SRC_STS_RINGAV

/-- Show the availability of a source; an unavailable one's offset reads 0x8000_0000. -/
def State.showSource (s : State) (k : Nat) : State :=
  if s.srcAvailable k then s.setFlag 0 (avFld k) true
  else if s.flag 0 (avFld k) then (s.setFlag 0 (avFld k) false).setF 0 (ofsFld k) 0x80000000
  else s

/-- Show both sources. -/
def State.showSources (s : State) : State := (s.showSource srcPtp).showSource srcRing

/-- Last offset of a source, ns. -/
def State.srcOffset (s : State) (k : Nat) : Int := toSigned 32 (s.getF 0 (ofsFld k))

/-- SRC and STATE change together; a change raises IRQ SOURCE. -/
def State.setSource (s : State) (src st : Nat) : State :=
  if s.getF 0 Fld.TMB_SRC_STS_SRC = src ∧ s.getF 0 Fld.TMB_SRC_STS_STATE = st then s
  else ((s.setF 0 Fld.TMB_SRC_STS_SRC src).setF 0 Fld.TMB_SRC_STS_STATE st).timeIrq 2

/-! ## Triggers and steps (R522, R527) -/

/-- A trigger output. -/
def State.trigger (s : State) (n : Nat) : Trigger := assocGet {} s.time.trg n

/-- Replace a trigger output. -/
def State.setTrigger (s : State) (n : Nat) (x : Trigger) : State :=
  { s with time := { s.time with trg := assocSet {} s.time.trg n x } }

/-- START and PERIOD of a trigger. -/
def State.trgStart (s : State) (n : Nat) : Nat :=
  s.get64 0 (Fld.TMB_TRGn_START_LO.plus (16 * n)) (Fld.TMB_TRGn_START_HI.plus (16 * n))
def State.trgPeriod (s : State) (n : Nat) : Nat := s.getF 0 (Fld.TMB_TRGn_PERIOD.plus (16 * n))

/-- Whether a trigger is periodic. -/
def State.trgPeriodic (s : State) (n : Nat) : Bool := s.flag 0 (Fld.TMB_TRGn_CFG_PER.plus (16 * n))

/-- Count firings not made (R527). -/
def State.missTrigger (s : State) (n k : Nat) : State :=
  if k = 0 then s else (s.bump 0 (Fld.TMB_TRGn_CFG_MISSED.plus (16 * n)) k).timeIrq 5

/-- The first scheduled time after `t` of a periodic trigger. -/
def firstAfter (start period t : Nat) : Nat :=
  if t < start then start else start + ((t - start) / period + 1) * period

/-- EN of a trigger is written 1: a periodic one fires at every scheduled time that follows; a one-shot whose START has passed does
not fire and counts (R527). -/
def State.armTrigger (s : State) (n : Nat) : State :=
  let x := s.trigger n
  if s.trgPeriodic n then
    s.setTrigger n { x with next := if s.trgPeriod n = 0 then none else some (firstAfter (s.trgStart n) (s.trgPeriod n) s.now) }
  else if s.now < s.trgStart n then s.setTrigger n { x with next := some (s.trgStart n) }
  else (s.setTrigger n { x with next := none }).missTrigger n 1

/-- After a step a periodic trigger fires next at its first scheduled time that follows; those skipped are counted (R522). -/
def State.stepTrigger (s : State) (n : Nat) : State :=
  let x := s.trigger n
  match x.next with
  | none => s
  | some t =>
    if !s.trgPeriodic n || s.trgPeriod n == 0 then s
    else
      let t' := firstAfter (s.trgStart n) (s.trgPeriod n) s.now
      (s.setTrigger n { x with next := some t' }).missTrigger n ((t' - t) / s.trgPeriod n)

/-- Step the count by a signed number of ns in one tick (R522). -/
def State.stepTime (s : State) (d : Int) : State :=
  (List.range 16).foldl State.stepTrigger { s with now := ofSigned 64 (s.now + d) }

/-- Select a source: a step of minus its offset where that is at least STEPMIN and no loop is active, otherwise slewing alone
(R522, R524). -/
def State.selectSource (s : State) (k : Nat) : State :=
  let ofs := s.srcOffset k
  let s1 := { s with time := { s.time with close := 0 } }
  let s2 := if (s.getF 0 Fld.TMB_STEPMIN : Int) ≤ ofs.natAbs ∧ !s1.anyLoopActive then (s1.stepTime (-ofs)).timeIrq 1 else s1
  s2.setSource k tmAcquiring

/-! ## Commands -/

/-- TIMEBASE_TICK: the count advances by TMB_INCR (R521); the upsets of memory that the tick brings are its free values (R52; log entry
70). -/
def execTimebaseTick (s : State) : Out :=
  let f := s.nowFrac + s.getF 0 Fld.TMB_INCR_FRAC
  let n := s.now + s.getF 0 { Fld.TMB_INCR_INT with hi := 7, lo := 0 } + f / 2 ^ 32
  .next ({ s with now := n % 2 ^ 64, nowFrac := f % 2 ^ 32, ticks := s.ticks + 1 }).showSources.upsets

/-- TMB_TIME_LO_READ: the low half, with the rest latched from the same tick (R521). -/
def execTmbTimeLoRead (_fn : Nat) (s : State) : Out :=
  .next (if s.serves 0x04 then
      { (s.setF 0 Fld.TMB_TIME_HI (s.now / 2 ^ 32)).setF 0 Fld.TMB_TIME_FRAC s.nowFrac with readData := s.now % 2 ^ 32 }
    else { s with readData := 0 })

/-- TIMEBASE_STEP: a write to TMB_STEP_HI steps the count, unless a loop is active (R522). -/
def execTimebaseStep (fn v : Nat) (s : State) : Out :=
  .next (s.gated fn 0x04 0x058 (
    if !s.isOwner fn then s.recErr 0x04 fn .owned 0x058
    else if !s.cmdDone 0 Fld.TMB_STEP_STS_STATUS then s
    else if s.anyLoopActive then (s.finishCmd 0 Fld.TMB_STEP_STS_STATUS .timeRefused).timeIrq 1
    else
      let d := toSigned 64 (s.getF 0 Fld.TMB_STEP_LO + 2 ^ 32 * (v % 2 ^ 32))
      ((s.stepTime d).finishCmd 0 Fld.TMB_STEP_STS_STATUS .ok).timeIrq 1))

/-- Whether a source can deliver an offset now: allowed by TMB_SRC_CFG, PTP with the Arbiter running, the ring in NODE mode, and
not in Sleep (R17, R524, R533). -/
def State.srcAllowed (s : State) (k : Nat) : Bool :=
  !s.asleep &&
    ((k == srcPtp && s.getF 0 Fld.TMB_SRC_CFG_PTPROLE == 1 && !s.arb.restarting) ||
     (k == srcRing && s.flag 0 Fld.TMB_SRC_CFG_RINGEN && s.ringOn && s.ringMode == 2))

/-- The servo's increment after a measurement: a free value within TMB_SLEW parts per billion of 4.0 ns (R523). -/
def State.servo (s : State) : State :=
  let nom := 4 * 2 ^ 32
  let span := nom * s.getF 0 Fld.TMB_SLEW / 1000000000
  let incr := nom - span + (Config.free s.free 64).toNat % (2 * span + 1)
  ((s.setF 0 Fld.TMB_INCR_INT (incr / 2 ^ 32)).setF 0 Fld.TMB_INCR_FRAC (incr % 2 ^ 32)).drawFree

/-- Compare the offsets of two available sources (R525). -/
def State.compareSources (s : State) : State :=
  if !s.srcAvailable srcPtp || !s.srcAvailable srcRing then { s with time := { s.time with disagree := 0 } }
  else
    let d := (s.srcOffset srcPtp - s.srcOffset srcRing).natAbs
    let lim := s.getF 0 Fld.TMB_DISAGREE
    if lim < d then
      let s1 := { s with time := { s.time with disagree := s.time.disagree + 1 } }
      if s1.time.disagree < 3 || s1.flag 0 Fld.TMB_SRC_STS_DISAGREE then s1
      else ((s1.setFlag 0 Fld.TMB_SRC_STS_DISAGREE true).timeIrq 3).logEvent 2 0x04 0xFF 7 0 [d]
    else
      let s1 := { s with time := { s.time with disagree := 0 } }
      if 2 * d ≤ lim then s1.setFlag 0 Fld.TMB_SRC_STS_DISAGREE false else s1

/-- A measurement of the selected source: the servo acts, and 16 close ones in a row lock (R523, R524). -/
def State.followSource (s : State) (ofs : Int) : State :=
  let near := decide (8 * ofs.natAbs ≤ s.getF 0 Fld.TMB_STEPMIN)
  let k := if near then s.time.close + 1 else 0
  let s1 := ({ s with time := { s.time with close := k } }).servo
  if s1.getF 0 Fld.TMB_SRC_STS_STATE = tmAcquiring ∧ 16 ≤ k then s1.setSource (s1.getF 0 Fld.TMB_SRC_STS_SRC) tmLocked else s1

/-- TIMEBASE_OFFSET: a source delivers a valid offset (R523 to R525). -/
def execTimebaseOffset (src : Nat) (ofs : Int) (s : State) : Out :=
  .next (if !s.srcAllowed src then s
    else
      let x := s.timeSrc src
      let since := if s.srcAvailable src then x.since else s.ticks
      let s1 := s.setTimeSrc src { lastAt := some s.ticks, since := since }
      let top : Int := 0x7FFFFFFF
      let s2 := (s1.showSources).setF 0 (ofsFld src) (ofSigned 32 (if ofs < -top then -top else if top < ofs then top else ofs))
      let s3 := if s2.getF 0 Fld.TMB_SRC_STS_SRC = src then s2.followSource ofs else s2
      s3.compareSources)

/-- TIMEBASE_SOURCE_QUALIFIED: a source has been available for QUAL s; the highest such is selected where none is, or where it goes
before the selected one (R524). -/
def execTimebaseSourceQualified (src : Nat) (s : State) : Out :=
  .next (
    let st := s.getF 0 Fld.TMB_SRC_STS_STATE
    let selected := st == tmAcquiring || st == tmLocked
    if !(src == srcRing || src == srcPtp) || !s.srcQualified src || s.asleep then s
    else if selected && decide (src ≤ s.getF 0 Fld.TMB_SRC_STS_SRC) then s
    else if src = srcRing ∧ s.srcQualified srcPtp then s
    else s.selectSource src)

/-- TIMEBASE_SOURCE_LOST: the selected source is unavailable; the next available one is selected, or the increment is held
(R524). -/
def execTimebaseSourceLost (s : State) : Out :=
  .next (
    let st := s.getF 0 Fld.TMB_SRC_STS_STATE
    let cur := s.getF 0 Fld.TMB_SRC_STS_SRC
    let s1 := s.showSources
    if !(st == tmAcquiring || st == tmLocked) || s.srcAvailable cur then s
    else if s.srcAvailable srcPtp then s1.selectSource srcPtp
    else if s.srcAvailable srcRing then s1.selectSource srcRing
    else s1.setSource srcFree tmHoldover)

/-- TRIGGER_FIRE: a trigger's firing time has come, and its pulse starts (R527). -/
def execTriggerFire (trg : Nat) (s : State) : Out :=
  .next (
    let x := s.trigger trg
    match x.next with
    | none => s
    | some t =>
      if 16 ≤ trg ∨ s.now < t ∨ !s.flag 0 (Fld.TMB_TRGn_CFG_EN.plus (16 * trg)) ∨ s.asleep then s
      else s.setTrigger trg {
        next := if s.trgPeriodic trg then some (t + s.trgPeriod trg) else none,
        pulseEnd := t + s.getF 0 (Fld.TMB_TRGn_CFG_WIDTH.plus (16 * trg)),
        high := s.flag 0 (Fld.TMB_TRGn_CFG_POL.plus (16 * trg)), fired := some t })

/-- Stamps queued at a capture input. -/
def State.capQueue (s : State) (n : Nat) : List (Nat × Bool) := assocGet [] s.time.cap n

/-- Replace the stamps of a capture input, and show their number. -/
def State.setCapQueue (s : State) (n : Nat) (q : List (Nat × Bool)) : State :=
  ({ s with time := { s.time with cap := assocSet [] s.time.cap n q } }).setF 0 (Fld.TMB_CAPn_STS_COUNT.plus (16 * n)) q.length

/-- CAPTURE_EDGE: an accepted edge of the selected kind is stamped and queued, or lost (R528). -/
def execCaptureEdge (cap : Nat) (rise : Bool) (s : State) : Out :=
  .next (
    let e := s.getF 0 (Fld.TMB_CAPn_CFG_EDGE.plus (16 * cap))
    if 16 ≤ cap ∨ !s.flag 0 (Fld.TMB_CAPn_CFG_EN.plus (16 * cap)) ∨ s.asleep ∨
        !(e == 3 || (e == 1 && rise) || (e == 2 && !rise)) then s
    else if 8 ≤ (s.capQueue cap).length then s.bump 0 (Fld.TMB_CAPn_STS_LOST.plus (16 * cap)) 1
    else
      let t := ofSigned 64 ((s.now : Int) - ((2 + s.getF 0 (Fld.TMB_CAPn_CFG_FILT.plus (16 * cap))) * 4 : Nat))
      (s.setCapQueue cap (s.capQueue cap ++ [(t, rise)])).timeIrq 4)

/-- TMB_CAP_LO_READ: the head stamp; the owner's read removes it and latches the rest (R528). -/
def execTmbCapLoRead (fn cap : Nat) (s : State) : Out :=
  .next (
    match s.capQueue cap with
    | [] => { s with readData := 0 }
    | (t, rise) :: rest =>
      if 16 ≤ cap ∨ !s.serves 0x04 then { s with readData := 0 }
      else if !s.isOwner fn then { s with readData := t % 2 ^ 32 }
      else
        let s1 := (s.setCapQueue cap rest).setF 0 (Fld.TMB_CAPn_HI.plus (16 * cap)) (t / 2 ^ 32)
        { s1.setFlag 0 (Fld.TMB_CAPn_STS_RISE.plus (16 * cap)) rise with readData := t % 2 ^ 32 })

end Sys2Proof.Machine
end

