-- ==== Sys2Proof/Machine/Fusion.lean ====
section
/-! DEFINITION. The Fusion engine's ticks, commands, calibration, occupancy passes and states (chapter 12). -/

namespace Sys2Proof.Machine

/-! ## Rings and blocks (R381, R384, R396) -/

/-- Take a new tail of a source's ring (R233, R381). -/
def State.fusTail (s : State) (n v time : Nat) : State :=
  let x := s.fusSrc n
  let t := v % 2 ^ 32
  let fn := s.srcPart n
  if !s.srcOn n ∨ sub32 t x.head ≤ sub32 x.tail x.head then s
  else if sub32 t x.head ≤ 2 ^ s.getF (srcBank n) Fld.FUS_SRC_CFG_SZ then s.setFusSrc n { x with tail := t, stamps := (t, time) :: x.stamps }
  else s.badTail fn 0x0D (0x100 + 4 * n)

/-- FUS_TAIL_WRITE: the function of the source's PART advances its tail (R381, R411). -/
def execFusTailWrite (fn src v : Nat) (s : State) : Out :=
  .next (s.gated fn 0x0D (0x100 + 4 * src) (
    if fn = s.srcPart src then s.fusTail src v s.now else s.recErr 0x0D fn .accessDenied (0x100 + 4 * src)))

/-- FUSION_SRC_PB_LOAD: a write to FUS_SRC_PB_HI reads the selected source's block (R384). -/
def execFusionSrcPbLoad (fn v : Nat) (s : State) : Out :=
  .next (s.gated fn 0x0D 0x084 (
    if !s.isOwner fn then s.recErr 0x0D fn .owned 0x084
    else if 2 ^ 20 ≤ v then s.recErr 0x0D fn .fusionMalformed 0x084
    else
      let n := s.getF 0 Fld.FUS_SRCSEL_SRC
      let s1 := s.setF (srcBank n) Fld.FUS_SRC_PB_HI v
      match s1.engRead (s1.srcPart n) (s1.fusVa (srcBank n) Fld.FUS_SRC_PB_LO Fld.FUS_SRC_PB_HI) 128 with
      | .error e => s1.srcFail n e
      | .ok b =>
        if srcBlockBad (s1.srcKind n) b then s1.srcFail n .fusionMalformed
        else (s1.setFusSrc n { s1.fusSrc n with newBlock := some b, ext := sbExt b, calLimit := false }).calBump n))

/-- FUSION_PB_LOAD: a write to FUS_PB_HI reads the engine block (R396). -/
def execFusionPbLoad (fn v : Nat) (s : State) : Out :=
  .next (s.gated fn 0x0D 0x04C (
    if !s.isOwner fn then s.recErr 0x0D fn .owned 0x04C
    else if 2 ^ 20 ≤ v then s.recErr 0x0D fn .fusionMalformed 0x04C
    else
      let s1 := s.setF 0 Fld.FUS_PB_HI v
      match s1.engRead fn (s1.fusVa 0 Fld.FUS_PB_LO Fld.FUS_PB_HI) 64 with
      | .error e => s1.recErr 0x0D fn e 0x04C
      | .ok b =>
        if engBlockBad b then s1.recErr 0x0D fn .fusionMalformed 0x04C
        else { s1 with fusion := { s1.fusion with newBlock := some b } }))

/-! ## Latest values (R385, R386) -/

/-- Whether a record is malformed for its source's kind. -/
def recordBad (kind : Nat) (r : List Byte) : Bool :=
  let n := leField r 12 2
  let va := leField r 16 8
  leField r 14 2 != 0 || (if kind = 2 then decide (256 < n) else n != 0) ||
    (if kind = 2 then va % 16 != 0 else if kind = 3 then va % 64 != 0 else va != 0) || (decide (2 ≤ kind) && leField r 24 40 != 0)

/-- Bytes that a record points at. -/
def State.recordBytes (s : State) (n : Nat) (r : List Byte) : Nat :=
  match s.srcKind n with
  | 2 => 48 * leField r 12 2
  | 3 => sbImage (s.fusSrc n).block
  | _ => 0

/-- The TAIL word that POLL reads at a tick. -/
def State.fusPoll (s : State) (n tick : Nat) : State :=
  if !sbPoll (s.fusSrc n).block then s
  else match s.engRead (s.srcPart n) (s.fusVa (srcBank n) Fld.FUS_SRC_RING_LO Fld.FUS_SRC_RING_HI) 4 with
    | .error e => (s.srcFail n e).setSrcState n 2
    | .ok b => s.fusTail n (leNat b) tick

/-- Take a source's latest value at a tick; a record that is new, with the bytes it points at. -/
def State.fusLatest (s : State) (tick n : Nat) : State × Option (List Byte × List Byte) :=
  let fn := s.srcPart n
  let ring := s.fusVa (srcBank n) Fld.FUS_SRC_RING_LO Fld.FUS_SRC_RING_HI
  if !s.srcOn n ∨ s.getF (srcBank n) Fld.FUS_SRC_STS_STATE = 2 ∨
    s.needsDev fn ring (64 + 64 * 2 ^ s.getF (srcBank n) Fld.FUS_SRC_CFG_SZ) then (s, none)
  else
    let s1 := s.fusPoll n tick
    let x := s1.fusSrc n
    match x.stamps.find? fun (e : Nat × Nat) => decide (e.2 ≤ tick) with
    | none => (s1, none)
    | some (t, acc) =>
      if t = x.head then (s1, none)
      else
        let va := ring + 64 + 64 * ((t + 2 ^ 32 - 1) % 2 ^ s.getF (srcBank n) Fld.FUS_SRC_CFG_SZ)
        let later := x.stamps.filter fun (e : Nat × Nat) => decide (tick < e.2)
        let take := fun (s : State) => ((s.setFusSrc n { s.fusSrc n with head := t, stamps := later }).bump 0 Fld.FUS_SUPERSEDED
          (sub32 t x.head - 1)).setF (srcBank n) Fld.FUS_SRC_HEAD t
        match s1.vaBytes fn va 64 2 with
        | .error .poison => ((take s1).srcFail n .eccUncorrectable, none)
        | .error e => ((s1.srcFail n e.status).setSrcState n 2, none)
        | .ok r =>
          if recordBad (s1.srcKind n) r then ((take s1).srcFail n .fusionMalformed, none)
          else
            let k := s1.recordBytes n r
            if s1.needsDev fn (leField r 16 8) k then (s1, none)
            else if k ≠ 0 ∧ !s1.extentOk fn (leField r 16 8) k .read then ((take s1).srcFail n .accessDenied, none)
            else match s1.engRead fn (leField r 16 8) k with
              | .error e => ((take s1).srcFail n e, none)
              | .ok b =>
                let s2 := take s1
                let y := (s2.fusSrc n).noteDelay ((acc : Int) - leField r 0 8)
                (s2.setFusSrc n { y with latest := some r }, some (r, b))

/-- Take every source's latest value; the new records by source. -/
def State.fusTake (s : State) (tick : Nat) : State × List (Nat × List Byte × List Byte) :=
  (List.range 32).foldl (fun (a : State × List (Nat × List Byte × List Byte)) n =>
    let r := a.1.fusLatest tick n
    match r.2 with
    | none => (r.1, a.2)
    | some e => (r.1, a.2 ++ [(n, e.1, e.2)])) (s, [])

/-! ## Commands (R399, R402, R403, R406) -/

/-- The calibration record of a source (R403). -/
def State.calRecord (s : State) (n : Nat) : List Byte :=
  let x := s.fusSrc n
  leBytes 4 x.calgen ++ leBytes 1 n ++ leBytes 3 0 ++ ((List.range 7).flatMap fun i => leBytes 4 (x.ext.getD i 0)) ++
    ((List.range 6).flatMap fun i => leBytes 4 (triAt 6 x.cov i i)) ++ leBytes 2 x.lastCal ++ leBytes 2 0

/-- The descriptor of a calibration problem of `n` residuals (R454, R467). -/
def calDesc (va n : Nat) : List Byte :=
  let open' := fun a k => (List.range k).map fun i => Config.fusProblem (a + i)
  [1#8, 1#8] ++ leBytes 2 1 ++ leBytes 4 n ++ leBytes 4 n ++ open' 12 2 ++ leBytes 2 0 ++ leBytes 8 (va + 0x100) ++
    leBytes 8 (va + 0x1000) ++ leBytes 8 (va + 0x41000) ++ leBytes 8 (va + 0xC1000) ++ leBytes 8 (va + 0x102000) ++ open' 56 53 ++
    leBytes 3 0 ++ leBytes 8 0 ++ leBytes 8 0

/-- Lay a calibration problem out in the calibration area (R467). -/
def State.calWriteProblem (s : State) (fn src : Nat) (rs : List (List Nat)) : State :=
  let va := s.calVa
  let put := fun (s : State) (off : Nat) (b : List Byte) => (s.vaWrite fn .engine (va + off) b).1
  let codes := fun (l : List Nat) => l.flatMap fun c => leBytes 8 (widen c)
  let pose := codes ((List.range 7).map fun i => (s.fusSrc src).ext.getD i 0) ++ leBytes 8 0
  let lmks := rs.flatMap fun r => codes ((r.drop 3).take 3) ++ [1#8] ++ leBytes 7 0
  let blks := rs.zipIdx.flatMap fun (e : List Nat × Nat) => leBytes 4 2 ++ leBytes 4 0 ++ leBytes 4 e.2 ++ leBytes 4 0 ++
    codes (e.1.take 3) ++ leBytes 4 (e.1.getD 6 0) ++ leBytes 20 0
  put (put (put (put s 0 (calDesc va rs.length)) 0x100 pose) 0x1000 lmks) 0x41000 blks

/-- CALBATCH of a source (R402, R467). -/
def State.calBatch (s : State) (fn src : Nat) : State × Status :=
  let rs := (s.fusion.resid.filter fun (e : Nat × List Nat) => e.1 == src).map (·.2)
  if !s.flag 0 Fld.SLV_CAL_LO_EN then (s, .accessDenied)
  else if s.fusion.batch.isSome ∨ rs.length < 32 then (s, .calRejected)
  else
    let s1 := s.calWriteProblem fn src rs
    ({ s1 with
      solver := { s1.solver with cal := true }
      fusion := { s1.fusion with batch := some (src, (s.fusSrc src).calgen), batchDone := none } }, .ok)

/-- What a command does at the tick. -/
def FusWork.command (w : FusWork) (tick fn v : Nat) : FusWork × Status :=
  let s := w.s
  let i := v % 4096
  let src := bits v 16 12
  let t := s.track i
  let live := s.fusion.tracks.any fun e => e.1 == i
  let va := s.fusVa 0 Fld.FUS_CMD_VA_LO Fld.FUS_CMD_VA_HI
  match opCode v with
  | 1 =>
    if !live || !t.conflict then (w, .fusionMalformed)
    else match t.twin with
      | none => (w.resolve tick i 0xFFFF, .ok)
      | some j => ((w.delete j).resolve tick i (s.tid j), .ok)
  | 2 => if !live then (w, .fusionMalformed) else (w.deleteAll tick [i], .ok)
  | 3 =>
    let s1 := s.fusion.slips.foldl (fun s (p : Nat × Nat) => s.slipChange tick p.1 p.2 false) s
    let f := s1.fusion
    ({ w with s := { s1 with fusion := { f with srcs := f.srcs.map fun (e : Nat × FusSrc) => (e.1, { e.2 with base := none }) } } }, .ok)
  | 4 =>
    if s.srcKind src ≠ 2 then (w, .fusionMalformed)
    else
      let r := s.calBatch fn src
      ({ w with s := r.1 }, r.2)
  | 5 =>
    if s.srcKind src ≠ 2 ∨ va % 64 ≠ 0 then (w, .fusionMalformed)
    else
      let r := s.vaWrite fn .engine va (s.calRecord src)
      ({ w with s := r.1 }, match r.2 with
        | .ok _ => .ok
        | .error e => readStatus e)
  | 6 =>
    if s.srcKind src ≠ 2 ∨ va % 64 ≠ 0 then (w, .fusionMalformed)
    else match s.engRead fn va 64 with
      | .error e => (w, e)
      | .ok b =>
        if leField b 4 4 ≠ src ∨ leField b 62 2 ≠ 0 then (w, .fusionMalformed)
        else
          let x := { s.fusSrc src with
            ext := (List.range 7).map fun k => leField b (8 + 4 * k) 4
            cov := triOf 6 ((List.range 6).map fun i => (List.range 6).map fun j =>
              if i = j then leField b (36 + 4 * i) 4 else Config.fusCross b (6 * i + j)) }
          ({ w with s := (s.setFusSrc src x).calBump src }, .ok)
  | _ => (w, .fusionMalformed)

/-- A write to FUS_CMD waits for the next tick (R406). -/
def State.fusCmd (s : State) (fn v op : Nat) : State :=
  s.pageCmdLong fn 0x0D 0x090 v op (s.isOwner fn) .owned 0 Fld.FUS_CMD_STS (some 6)
    ({ s with fusion := { s.fusion with cmd := some (v, fn) } }, none)

/-- FUSION_RESOLVE (R399). -/
def execFusionResolve (fn v : Nat) (s : State) : Out := .next (s.fusCmd fn v 1)

/-- FUSION_DROPTRK (R406). -/
def execFusionDroptrk (fn v : Nat) (s : State) : Out := .next (s.fusCmd fn v 2)

/-- FUSION_REBASE (R406). -/
def execFusionRebase (fn v : Nat) (s : State) : Out := .next (s.fusCmd fn v 3)

/-- FUSION_CALBATCH (R402). -/
def execFusionCalbatch (fn v : Nat) (s : State) : Out := .next (s.fusCmd fn v 4)

/-- FUSION_CALREAD (R403). -/
def execFusionCalread (fn v : Nat) (s : State) : Out := .next (s.fusCmd fn v 5)

/-- FUSION_CALWRITE (R403). -/
def execFusionCalwrite (fn v : Nat) (s : State) : Out := .next (s.fusCmd fn v 6)

/-- The command that waits takes effect. -/
def FusWork.runCommand (w : FusWork) (tick : Nat) : FusWork :=
  match w.s.fusion.cmd with
  | none => w
  | some (v, fn) =>
    let s0 := { w.s with fusion := { w.s.fusion with cmd := none } }
    let r := ({ w with s := s0 } : FusWork).command tick fn v
    { r.1 with s := (r.1.s.finishCmd 0 Fld.FUS_CMD_STS r.2).fusIrq 6 }

/-! ## Calibration (R401, R402) -/

/-- A track's state as the sources other than one updated it at this tick (R401). -/
def FusWork.byOthers (w : FusWork) (src i : Nat) : List Nat :=
  let q := ebQproc w.s.fusion.block
  let t0 := assocGet (w.s.track i) w.fresh i
  ((w.got.filter fun (g : FusHit) => g.track == i && g.src != src).foldl (fun (t : Track) g =>
    let at1 := Nat.max g.stamp t.lastUpd
    let p := fusPredict t.model q t.x t.p t.lastUpd at1
    let u := fusUpdate p.1 p.2 g.world
    { t with x := u.1, p := u.2, lastUpd := at1 }) t0).x

/-- Residuals of a source at this tick: its detections assigned to CONFIRMED tracks that other sources updated too, each with the track's
position in the body frame, by the others, and its σ (R401, R467). -/
def FusWork.residuals (w : FusWork) (src : Nat) : List (List Nat) :=
  let body := w.s.bodyPose
  w.got.filterMap fun (g : FusHit) =>
    let t := w.s.track g.track
    if g.src = src ∧ t.st = .confirmed ∧ w.got.any (fun (h : FusHit) => h.track == g.track && h.src != src) then
      some (g.det.take 3 ++ fUnplace [59] body ((w.byOthers src g.track).take 3) ++ [Config.fusSigma t.p g.det])
    else none

/-- CALQ and CALMAX of a source parameter block. -/
def sbCalq (b : List Byte) : List Nat := (List.range 2).map fun i => leField b (44 + 4 * i) 4
def sbCalmax (b : List Byte) : List Nat := (List.range 2).map fun i => leField b (52 + 4 * i) 4

/-- Update the filter of a source with CAL set; a result beyond CALMAX from EXT is clamped (R401). -/
def FusWork.calibrate (w : FusWork) (tick src : Nat) : FusWork :=
  let x := w.s.fusSrc src
  let rs := w.residuals src
  if !sbCal x.block || rs.isEmpty then w
  else
    let (e, cov) := rs.foldl fusRefine (x.ext, fusDrift (sbCalq x.block) x.cov (fSeconds (tick - x.calAt)))
    let clamped := !fusWithin (sbExt x.block) e (sbCalmax x.block)
    let ext := if clamped then fusClamp (sbExt x.block) e (sbCalmax x.block) else e
    let s1 := w.s.setFusSrc src { x with ext := ext, cov := cov, calLimit := clamped, calAt := tick }
    let f := s1.fusion
    let l := f.resid ++ rs.map fun r => (src, r)
    let s2 := { s1 with fusion := { f with resid := l.drop (l.length - 8192) } }
    { w with s := if clamped && !x.calLimit then (s2.fusEvent tick 7 src 0xFF 0 0xFFFF 0xFFFF).fusIrq 5 else s2 }

/-- Adopt or reject the result of a calibration batch (R402). -/
def State.calAdopt (s : State) (tick : Nat) : State :=
  match s.fusion.batch, s.fusion.batchDone with
  | some (src, gen), some (st, pose) =>
    let x := s.fusSrc src
    let ext := pose.map fun c => fpCode (dVal c)
    let fits := decide (x.calgen = gen) && fusWithin (sbExt x.block) ext (sbCalmax x.block)
    let st1 := if st ≠ 0 ∨ fits then st else Status.calRejected.code
    let s0 := { s with fusion := { s.fusion with batch := none, batchDone := none } }
    let s1 := if st = 0 ∧ fits then
        (s0.setFusSrc src { x with ext := ext, cov := (List.range 21).map (Config.fusBatchCov pose), lastCal := st1 }).calBump src
      else s0.setFusSrc src { x with lastCal := st1 }
    (s1.fusEvent tick 5 src 0xFF st1 0xFFFF 0xFFFF).fusIrq 5
  | _, _ => s

/-! ## Fused records (R389 to R391) -/

/-- A source entry. -/
def State.srcEntry (s : State) (tick n : Nat) : List Byte :=
  let x := s.fusSrc n
  let kind := s.srcKind n
  let slip := if bit (s.getF 0 Fld.FUS_SLIP) n then 64 else 0
  match x.latest with
  | none => leBytes 1 n ++ leBytes 1 (128 + slip + kind) ++ leBytes 62 0
  | some r =>
    let f := fun i => x.figs.getD i 0
    let data := match kind with
      | 2 => leBytes 2 (f 0) ++ leBytes 2 (f 1) ++ leBytes 2 (f 2) ++ leBytes 34 0
      | 3 => leBytes 4 (f 0) ++ leBytes 4 (f 1) ++ leBytes 2 (f 2) ++ leBytes 30 0
      | _ => (r.drop 24).take 40
    leBytes 1 n ++ leBytes 1 (slip + kind) ++ leBytes 2 0 ++ leBytes 4 (leField r 8 4) ++ leBytes 8 (leField r 0 8) ++
      leBytes 8 (ofSigned 64 ((tick : Int) - leField r 0 8)) ++ data

/-- A track entry, predicted to the tick. -/
def State.trackEntry (s : State) (tick i : Nat) (t : Track) : List Byte :=
  let p := fusPredict t.model (ebQproc s.fusion.block) t.x t.p t.lastUpd tick
  let x := (List.range 9).map fun k => if 6 ≤ k ∧ t.model = 0 then 0 else p.1.getD k 0
  leBytes 2 (s.tid i) ++ leBytes 1 t.st.code ++ leBytes 1 t.model ++
    leBytes 2 (match t.twin with
      | some j => s.tid j
      | none => 0xFFFF) ++ leBytes 1 t.misses ++ leBytes 1 t.hits ++ leBytes 4 t.srcmask ++ leBytes 2 t.cls ++ leBytes 2 t.score ++
    leBytes 8 t.lastUpd ++ (x.flatMap fun c => leBytes 4 c) ++ ((List.range 45).flatMap fun k => leBytes 4 (p.2.getD k 0)) ++
    leBytes 16 0

/-- Write the record of a tick. -/
def State.fusRecord (s : State) (tick : Nat) : State :=
  if !s.flag 0 Fld.FUS_OUT_CFG_EN then s
  else
    let f := s.fusion
    let fn := s.getF 0 Fld.FUS_OUT_CFG_PART
    let maxOut := s.getF 0 Fld.FUS_OUT_CFG_MAXOUT
    let va := s.fusVa 0 Fld.FUS_OUT_LO Fld.FUS_OUT_HI + (2112 + 256 * maxOut) * (f.written % 2 ^ s.getF 0 Fld.FUS_OUT_CFG_SZ)
    let srcs := (List.range 32).filter fun n => s.srcOn n
    let trks := f.tracks.filter fun (e : Nat × Track) => e.2.st != .tentative || s.flag 0 Fld.FUS_OUT_CFG_TENT
    let noBody := match ebBody f.block with
      | some n => (s.fusSrc n).latest.isNone
      | none => false
    let flags := (if maxOut < trks.length then 1 else 0) + (if noBody then 2 else 0)
    let seq := f.written % (2 ^ 32 - 1)
    let out := trks.take maxOut
    let body := leBytes 4 seq ++ leBytes 2 srcs.length ++ leBytes 2 out.length ++ leBytes 8 tick ++ leBytes 4 (s.getF 0 Fld.FUS_SLIP) ++
      leBytes 4 flags ++ leBytes 4 f.skipped ++ leBytes 32 0 ++ leBytes 4 seq ++ (srcs.flatMap fun n => s.srcEntry tick n) ++
      (out.flatMap fun (e : Nat × Track) => s.trackEntry tick e.1 e.2)
    if s.needsDev fn va body.length then s.bump 0 Fld.FUS_OVERRUN 1
    else match s.vaWrite fn .engine va body with
      | (s1, .error e) => s1.recErrBlock 0x0D 0 (readStatus e)
      | (s1, .ok _) =>
        let s2 := { s1 with fusion := { s1.fusion with written := f.written + 1, skipped := 0 } }
        (s2.setF 0 Fld.FUS_OUT_SEQ seq).fusIrq 0

/-! ## Occupancy passes (R404, R405) -/

/-- DEPTH records new at a tick wait for a pass; one starts if none runs and Knight is ON. -/
def State.passStart (s : State) (news : List (Nat × List Byte × List Byte)) : State :=
  let depth := news.filter fun (e : Nat × List Byte × List Byte) => s.srcKind e.1 == 3
  let s1 := depth.foldl (fun (s : State) (e : Nat × List Byte × List Byte) =>
    let x := s.fusSrc e.1
    let s1 := if x.waiting.isSome then s.bump 0 Fld.FUS_SUPERSEDED 1 else s
    s1.setFusSrc e.1 { x with waiting := some e.2 }) s
  let body := s.bodyPose
  let l := (List.range 32).filterMap fun n => (s1.fusSrc n).waiting.map fun (e : List Byte × List Byte) =>
    ({ src := n, block := (s1.fusSrc n).block, image := e.2, ext := (s1.fusSrc n).ext, body := body } : PassSrc)
  if s1.fusion.pass.isSome || s1.pageSt 0x0B != stOn || l.isEmpty then s1
  else
    let f := s1.fusion
    { s1 with fusion := { f with pass := some l, srcs := f.srcs.map fun (e : Nat × FusSrc) => (e.1, { e.2 with waiting := none }) } }

/-- Voxels seen free and seen occupied by the rays of a source, and the number of rays (R404). -/
def State.castRays (s : State) (p : PassSrc) : List Nat × List Nat × Nat :=
  let b := p.block
  let pitch := cdiv (2 * sbDw b) 64 * 64
  let step := sbDecim b
  let pix := (List.range (cdiv (sbDh b) step)).flatMap fun v => (List.range (cdiv (sbDw b) step)).map fun u => (u * step, v * step)
  let g := s.knight.geom
  let geo := [g.1, g.2.1, g.2.2.1, g.2.2.2, s.knight.orgz]
  let intr := (List.range 4).map fun i => leField b (60 + 4 * i) 4
  let d := s.mapDims
  let inside := fun (k : Nat) => decide (k % 256 < d.1) && decide (k / 256 % 256 < d.2.1) && decide (k / 65536 < d.2.2)
  pix.foldl (fun (a : List Nat × List Nat × Nat) (e : Nat × Nat) =>
    let r := fpCode (fmtFp16.decode (leField p.image (e.2 * pitch + 2 * e.1) 2))
    match fpVal r with
    | .fin false (_ + 1) _ =>
      let hit := fLe r (sbMaxr b)
      let stop := fusRayEnd p.ext p.body intr e.1 e.2 (if hit then r else sbMaxr b)
      let free := (Config.fusRay (fusRayStart p.ext p.body) stop geo).filter inside
      let occ := match s.kVoxel (stop.getD 0 0, stop.getD 1 0, stop.getD 2 0) with
        | some (x, y, z) => if hit then [voxKey x y z] else []
        | none => []
      (a.1 ++ free, a.2.1 ++ occ, a.2.2 + 1)
    | _ => a) ([], [], 0)

/-- One voxel at the end of a pass: occupancy codes, clear counters and voxels changed. -/
def passVoxel (clearn : Nat) (occ : Bool) (a : List (Nat × Nat) × List (Nat × Nat) × List Nat) (k : Nat) :
    List (Nat × Nat) × List (Nat × Nat) × List Nat :=
  let old := assocGet 0 a.1 k
  let set := fun v => (assocSet 0 a.1 k v, assocSet 0 a.2.1 k 0, if old = v then a.2.2 else k :: a.2.2)
  if occ then set 2
  else if old = 2 then
    let c := assocGet 0 a.2.1 k + 1
    if clearn ≤ c then set 1 else (a.1, assocSet 0 a.2.1 k c, a.2.2)
  else set 1

/-- Uncorrectable errors in clear counters, met as a pass ends: the counters are 0 (R409). -/
def State.counterErrs (s : State) : Nat → State
  | 0 => s
  | n + 1 => match s.localErr 0x0D 1 with
    | some (k, s1) => ({ s1 with fusion := { s1.fusion with clear := assocSet 0 s1.fusion.clear k 0 } }).counterErrs n
    | none => s

/-- Write the voxels of a pass that `p` keeps, by their place in it; the regions that changed advance as the clearance update completes
(R404, R405, R419). -/
def State.passWrite (s : State) (casts : List (Nat × List Nat × List Nat × Nat)) (p : Nat → Bool) : State × Nat × Nat :=
  let occ := (casts.flatMap fun e => e.2.2.1).eraseDups
  let free := ((casts.flatMap fun e => e.2.1).eraseDups).filter fun k => !occ.contains k
  let all := occ.map (fun k => (k, true)) ++ free.map fun k => (k, false)
  let r := (all.zipIdx.filter fun e => p e.2).foldl (fun a e => passVoxel (ebClearn s.fusion.block) e.1.2 a e.1.1)
    (s.knight.occ, s.fusion.clear, [])
  let regions := (r.2.2.map keyRegion).eraseDups
  let s1 := { s with knight := { s.knight with occ := r.1 }, fusion := { s.fusion with clear := r.2.1 } }
  (if regions.isEmpty then s1 else s1.clrBegin regions, r.2.2.length, regions.length)

/-- OCCUPANCY_PASS_DONE: the writes of a pass have performed (R404, R405). -/
def execOccupancyPassDone (s : State) : Out :=
  .next (match s.fusion.pass with
    | none => s
    | some l =>
      let s := s.counterErrs s.mem.localErrs.length
      let s0 := { s with fusion := { s.fusion with pass := none } }
      if s.pageSt 0x0B ≠ stOn then s0.mapResume
      else
        let casts := l.map fun p => (p.src, s.castRays p)
        let r := s0.passWrite casts fun _ => true
        (casts.foldl (fun (s : State) e => s.setFusSrc e.1 { s.fusSrc e.1 with figs := [e.2.2.2, r.2.1, r.2.2] }) r.1).mapResume)

/-- A pass is abandoned: which of its voxels it has written is free, and the regions of those that changed advance (R405; log entry
28). -/
def State.passAbandon (s : State) : State :=
  match s.fusion.pass with
  | none => s
  | some l =>
    let s0 := { s with fusion := { s.fusion with pass := none } }
    if s.pageSt 0x0B ≠ stOn then s0.mapResume
    else
      let done := (s0.passWrite (l.map fun p => (p.src, s.castRays p)) fun i => Config.free (s.free + i) 1 == 1#1).1
      ({ done with free := s.free + 2 ^ 24 }).mapResume

/-! ## Ticks (R386 to R388) -/

/-- The tick instant that has come last: a multiple of the period, or a firing of the trigger. -/
def State.tickInstant (s : State) : Option Nat :=
  if s.flag 0 Fld.FUS_CTL_TSRC then (s.trigger (s.getF 0 Fld.FUS_CTL_TRIG)).fired
  else some (s.now / (1000 * s.getF 0 Fld.FUS_PERIOD_US) * (1000 * s.getF 0 Fld.FUS_PERIOD_US))

/-- A tick that is skipped counts in FUS_OVERRUN and raises OVERRUN (R388). -/
def State.tickSkip (s : State) (tick : Nat) : State :=
  let f := s.fusion
  (({ s with fusion := { f with skipped := f.skipped + 1, lastTick := tick, mismTick := 0 } }).bump 0 Fld.FUS_OVERRUN 1).fusIrq 2

/-- Blocks loaded since the last tick come into force. -/
def State.fusBlocks (s : State) : State :=
  let f := s.fusion
  { s with fusion := { f with
    block := f.newBlock.getD f.block, newBlock := none
    srcs := f.srcs.map fun (e : Nat × FusSrc) => (e.1, { e.2 with block := e.2.newBlock.getD e.2.block, newBlock := none }) } }

/-- FUS_TRKS follows the tracks. -/
def State.showTracks (s : State) : State :=
  let t := s.fusion.tracks
  (s.setF 0 Fld.FUS_TRKS_CONF (t.filter fun e => e.2.st != .tentative).length).setF 0 Fld.FUS_TRKS_TENT
    (t.filter fun e => e.2.st == .tentative).length

/-- A tick in its order (R387). -/
def State.fusTick (s : State) (tick : Nat) : State :=
  let s0 := { s.fusBlocks with fusion := { s.fusBlocks.fusion with lastTick := tick, mismTick := 0 } }
  let w0 := (({ s := s0, ns := 1500 + 12 * s0.fusion.tracks.length } : FusWork).trackErrs tick s0.mem.localErrs.length).runCommand tick
  let r := w0.s.fusTake tick
  let s1 := r.1.slipTest tick
  let dets := (r.2.filter fun (e : Nat × List Byte × List Byte) => s1.srcKind e.1 == 2) |> sortedBy fun a b =>
    decide (leField a.2.1 0 8 < leField b.2.1 0 8) || (leField a.2.1 0 8 == leField b.2.1 0 8 && decide (a.1 ≤ b.1))
  let w1 := dets.foldl (fun (w : FusWork) (e : Nat × List Byte × List Byte) => w.detect e.1 e.2.1 e.2.2) { w0 with s := s1 }
  let w2 := ((w1.got.map fun (g : FusHit) => g.track).eraseDups).foldl (fun (w : FusWork) i => w.mutual tick i) w1
  let w3 := if w2.s.fusion.block.isEmpty then w2 else w2.deleteAll tick w2.s.deadTracks
  let pre := w3.s.fusion.srcs.map fun e => (e.1, e.2.ext)
  let w4 := (List.range 32).foldl (fun (w : FusWork) n => w.calibrate tick n) w3
  let s5 := ((w4.s.calAdopt tick).showTracks).fusRecord tick
  let exts := s5.fusion.srcs.map fun e => (e.1, e.2.ext)
  let put := fun (s : State) (l : List (Nat × List Nat)) => { s with fusion := { s.fusion with
    srcs := s.fusion.srcs.map fun (e : Nat × FusSrc) => (e.1, { e.2 with ext := assocGet e.2.ext l e.1 }) } }
  let s6 := put ((put s5 pre).passStart r.2) exts
  { s6 with fusion := { s6.fusion with busyUntil := tick + w4.ns } }

/-- FUSION_TICK: a tick instant that does not fall within the last tick's work; a tick with a second residue mismatch is abandoned
(R387, R409). -/
def execFusionTick (s : State) : Out :=
  .next (match s.tickInstant with
    | none => s
    | some tick =>
      if s.pageSt 0x0D ≠ stOn ∨ tick = s.fusion.lastTick ∨ tick < s.fusion.busyUntil then s
      else if 2 ≤ s.fusion.mismTick then s.tickSkip tick
      else s.fusTick tick)

/-- FUSION_TICK_SKIPPED: a tick instant falls while the last tick's work runs (R388). -/
def execFusionTickSkipped (s : State) : Out :=
  .next (match s.tickInstant with
    | none => s
    | some tick =>
      if s.pageSt 0x0D = stOn ∧ tick ≠ s.fusion.lastTick ∧ tick < s.fusion.busyUntil then s.tickSkip tick else s)

/-! ## States, resets and faults (R408, R409) -/

/-- A command that waits for a tick that does not come ends with CANCELLED. -/
def State.fusDropCmd (s : State) : State :=
  match s.fusion.cmd with
  | none => s
  | some _ => (({ s with fusion := { s.fusion with cmd := none } }).finishCmd 0 Fld.FUS_CMD_STS .cancelled).fusIrq 6

/-- What Fusion does as it starts: its local memory is cleared, and extrinsics come from the parameter blocks. -/
def State.fusStart (s : State) : State :=
  let f := s.fusion
  let fresh := fun (x : FusSrc) => { x with
    ext := sbExt (x.newBlock.getD x.block), cov := (List.range 21).map (Config.fusCross []), waiting := none, calAt := s.now,
      calLimit := false, base := none, delays := [], figs := [] }
  let s1 := { s with fusion := { f with
    srcs := f.srcs.map fun (e : Nat × FusSrc) => (e.1, fresh e.2), tracks := [], reuse := [], slips := [], resid := [], batch := none
    batchDone := none, clear := [], pass := none, busyUntil := 0, mismTick := 0, mism := [] } }
  s1.showSlip.showTracks

/-- What it does as it reaches ON: ticks from the next instant. -/
def State.fusReady (s : State) : State :=
  { s with fusion := { s.fusion with lastTick := s.tickInstant.getD 0 } }

/-- What it does as it stops. -/
def State.fusStop (s : State) : State := s.fusDropCmd

/-- A write to CTL of page 0x0D: the owner's (R411). -/
def State.fusCtl (s : State) (fn : Nat) (f : State) : State := s.ctlWrite fn 0x0D (s.isOwner fn) .owned f

/-- FUSION_ENABLE (R408, R683). -/
def execFusionEnable (fn : Nat) (on : Bool) (s : State) : Out :=
  .next (s.fusCtl fn (s.blockEnable 0x0D on State.fusStart State.fusStop))

/-- FUSION_QUIESCE (R408, R683). -/
def execFusionQuiesce (fn : Nat) (s : State) : Out := .next (s.fusCtl fn (s.blockQuiesce 0x0D State.fusStop))

/-- FUSION_RESET (R408, R683). -/
def execFusionReset (fn : Nat) (s : State) : Out :=
  .next (s.fusCtl fn (if s.pageSt 0x0D = stFault then s.blockReset 0x0D State.fusStart else s))

/-- FUSION_START_DONE (R408). -/
def execFusionStartDone (s : State) : Out := .next (s.blockOn 0x0D State.fusReady State.fusStop)

/-- FUSION_STOP_DONE: the running tick and pass have ended (R408). -/
def execFusionStopDone (s : State) : Out :=
  .next (if s.fusion.pass.isNone && decide (s.fusion.busyUntil ≤ s.now) then s.blockOff 0x0D State.fusStart else s)

/-- FUSION_RESIDUE_MISMATCH: the coming tick is recomputed once; a second mismatch in it abandons it (R409). -/
def execFusionResidueMismatch (s : State) : Out :=
  let f := s.fusion
  .next { s with fusion := { f with
    mismTick := f.mismTick + 1, mism := s.ticks :: f.mism.filter fun t => decide (s.ticks < t + 250000000) } }

/-- FUSION_THIRD_MISMATCH: a third mismatch within 1 s faults the page, and a pass is abandoned (R408). -/
def execFusionThirdMismatch (s : State) : Out :=
  let n := (s.fusion.mism.filter fun t => decide (s.ticks < t + 250000000)).length
  .next (if s.pageSt 0x0D = stOn ∧ 3 ≤ n then
    s.passAbandon.fusDropCmd.setPageSt 0x0D stFault
  else s)

/-- A compute reset abandons a tick whose work has not been done, as a skipped one, and a running pass (R409). -/
def State.fusCompute (s : State) : State :=
  let s1 := match s.tickInstant with
    | some tick => if s.pageSt 0x0D = stOn ∧ tick ≠ s.fusion.lastTick ∧ s.fusion.busyUntil ≤ tick then s.tickSkip tick else s
    | none => s
  s1.passAbandon

/-- Clear EN of a source. -/
def State.srcOff (s : State) (n : Nat) : State := (s.setF (srcBank n) Fld.FUS_SRC_CFG_EN 0).setSrcState n 0

/-- A function level reset, or the release of a partition: its sources, rings and events have EN cleared (R409). -/
def State.fusRelease (s : State) (fn : Nat) : State :=
  let s1 := (List.range 32).foldl (fun (s : State) n => if s.srcOn n && s.srcPart n == fn then s.srcOff n else s) s
  let s2 := if s1.getF 0 Fld.FUS_OUT_CFG_PART = fn then s1.setF 0 Fld.FUS_OUT_CFG_EN 0 else s1
  if s2.getF 0 Fld.FUS_EVT_CFG_PART = fn then s2.setF 0 Fld.FUS_EVT_CFG_EN 0 else s2

/-- A Board reset clears EN of sources and rings in Reserve-tier pages (R409). -/
def State.fusBoard (s : State) : State :=
  let s1 := (List.range 32).foldl (fun (s : State) n =>
    if s.srcOn n && s.runInTier (s.srcPart n) (s.fusVa (srcBank n) Fld.FUS_SRC_RING_LO Fld.FUS_SRC_RING_HI)
        (64 + 64 * 2 ^ s.getF (srcBank n) Fld.FUS_SRC_CFG_SZ) 1 then
      (s.srcOff n).setF (srcBank n) Fld.FUS_SRC_STS_STATUS Status.cancelled.code
    else s) s
  let ring := fun (s : State) (en part lo hi : Fld) (n : Nat) =>
    if s.flag 0 en && s.runInTier (s.getF 0 part) (s.fusVa 0 lo hi) n 1 then
      (s.setF 0 en 0).recErrBlock 0x0D (s.getF 0 part) .cancelled
    else s
  let out := (2112 + 256 * s.getF 0 Fld.FUS_OUT_CFG_MAXOUT) * 2 ^ s.getF 0 Fld.FUS_OUT_CFG_SZ
  let s2 := ring s1 Fld.FUS_OUT_CFG_EN Fld.FUS_OUT_CFG_PART Fld.FUS_OUT_LO Fld.FUS_OUT_HI out
  ring s2 Fld.FUS_EVT_CFG_EN Fld.FUS_EVT_CFG_PART Fld.FUS_EVT_LO Fld.FUS_EVT_HI (32 * 2 ^ s.getF 0 Fld.FUS_EVT_CFG_SZ)

end Sys2Proof.Machine
end

