-- ==== Sys2Proof/Machine/Operands.lean ====
section
/-! DEFINITION. Ferlith instructions as a laneset meets them: fetch (R87, R89, R100, R101), the fields of the formats
(R88 to R93), operands and their checks (R42, R89, R95, R96), active lanes (R40, R97), the advance of the program counter and
the reconvergence of R106. -/

namespace Sys2Proof.Machine

/-! ## Opcodes -/

/-- The opcodes that the table of R102 lists. -/
def listedOp (op : Nat) : Bool :=
  decide (op ≤ 0x003) || (decide (0x008 ≤ op) && decide (op ≤ 0x013)) || (decide (0x018 ≤ op) && decide (op ≤ 0x01E)) ||
  (decide (0x020 ≤ op) && decide (op ≤ 0x025)) || (decide (0x028 ≤ op) && decide (op ≤ 0x02C)) || op == 0x030 ||
  (decide (0x038 ≤ op) && decide (op ≤ 0x03A)) || (decide (0x040 ≤ op) && decide (op ≤ 0x045)) ||
  (decide (0x048 ≤ op) && decide (op ≤ 0x04B)) || (decide (0x080 ≤ op) && decide (op ≤ 0x08A)) ||
  (decide (0x090 ≤ op) && decide (op ≤ 0x099)) || (decide (0x100 ≤ op) && decide (op ≤ 0x102)) ||
  (decide (0x140 ≤ op) && decide (op ≤ 0x143)) || op == 0x148 || op == 0x149 || (decide (0x1C0 ≤ op) && decide (op ≤ 0x1C2)) ||
  op == 0x1E0 || (decide (0x1F0 ≤ op) && decide (op ≤ 0x1F2)) || op == 0x1F8 || (decide (0x200 ≤ op) && decide (op ≤ 0x204)) ||
  (decide (0x240 ≤ op) && decide (op ≤ 0x245))

/-! ## Fields (R88, R90 to R93) -/

def fOP (w : Nat) : Nat := bits w 63 54
def fPG (w : Nat) : Nat := bits w 53 51
def fPN (w : Nat) : Bool := bit w 50
def fD (w : Nat) : Nat := bits w 49 42
def fA (w : Nat) : Nat := bits w 41 34
def fB (w : Nat) : Nat := bits w 33 26
def fC (w : Nat) : Nat := bits w 25 18
def fTY (w : Nat) : Nat := bits w 17 14
def fRM (w : Nat) : Nat := bits w 13 11
def fPD (w : Nat) : Nat := bits w 10 8
def fDU (w : Nat) : Bool := bit w 7
def fAU (w : Nat) : Bool := bit w 6
def fBU (w : Nat) : Bool := bit w 5
def fCU (w : Nat) : Bool := bit w 4
/-- Formats I and M have DU and AU at bits 33 and 32. -/
def fDUi (w : Nat) : Bool := bit w 33
def fAUi (w : Nat) : Bool := bit w 32
def fIMM (w : Nat) : Nat := bits w 31 0
def fSZ (w : Nat) : Nat := bits w 31 29
def fSCOPE (w : Nat) : Nat := bits w 26 25
def fSX (w : Nat) : Bool := bit w 24
def fOFF (w : Nat) : Int := toSigned 24 (bits w 23 0)
def fRDISP (w : Nat) : Int := toSigned 24 (bits w 49 26)
def fTDISP (w : Nat) : Int := toSigned 26 (bits w 25 0)

/-! ## A laneset at an instruction -/

/-- A laneset that executes an instruction: group and laneset numbers, the group, the laneset, the word, and the word that
follows it. -/
structure Ctx where
  g : Nat
  l : Nat
  x : Group
  ls : Laneset
  w : Nat
  lit : Nat
  deriving DecidableEq, Repr

/-- Predicate of a lane; p7 is constant true (R39). -/
def Laneset.pred (ls : Laneset) (lane p : Nat) : Bool :=
  if p % 8 = 7 then true else bit (assocGet 0#8 ls.preds lane).toNat (p % 8)

/-- Write a predicate of a lane; a write of p7 is ignored (R39). -/
def Laneset.setPred (ls : Laneset) (lane p : Nat) (b : Bool) : Laneset :=
  if p % 8 = 7 then ls
  else
    let v := (assocGet 0#8 ls.preds lane).toNat
    { ls with preds := assocSet 0#8 ls.preds lane (BitVec.ofNat 8 (withBits v (p % 8) (p % 8) (if b then 1 else 0))) }

/-- A thread register of a lane. -/
def Laneset.reg (ls : Laneset) (lane r : Nat) : Nat := (assocGet 0#32 ls.regs (lane * 256 + r)).toNat

/-- Write a thread register of a lane. -/
def Laneset.setReg (ls : Laneset) (lane r v : Nat) : Laneset :=
  { ls with regs := assocSet 0#32 ls.regs (lane * 256 + r) (BitVec.ofNat 32 v) }

/-- A uniform register. -/
def Laneset.ureg (ls : Laneset) (r : Nat) : Nat := (assocGet 0#32 ls.uregs (r % 64)).toNat

/-- Write a uniform register. -/
def Laneset.setUreg (ls : Laneset) (r v : Nat) : Laneset :=
  { ls with uregs := assocSet 0#32 ls.uregs (r % 64) (BitVec.ofNat 32 v) }

/-- Lanes of the active mask. -/
def Laneset.active (ls : Laneset) : List Nat := indices 32 fun i => bit ls.mask.toNat i

/-- Whether a laneset has ended (R109). -/
def Laneset.ended (ls : Laneset) : Bool := ls.exited == 0xFFFFFFFF#32

/-- The guard of an instruction in a lane (R88). -/
def Ctx.guard (c : Ctx) (lane : Nat) : Bool := c.ls.pred lane (fPG c.w) != fPN c.w

/-- Lanes that execute the instruction: active, with the guard true (R40, R97). -/
def Ctx.lanes (c : Ctx) : List Nat := c.ls.active.filter fun i => c.guard i

/-- Byte offset of a text word in the square's store. -/
def Group.textAt (x : Group) (pc : Nat) : Nat := x.base + textOff x.nls + 8 * pc

/-- One text word. -/
def State.textWord (s : State) (x : Group) (pc : Nat) : Nat := leNat (s.storeRead x.square (x.textAt pc) 8)

/-- Whether a laneset can issue: its group runs on a square in service, and it neither waits nor has ended. -/
def State.canIssue (s : State) (x : Group) (ls : Laneset) : Bool :=
  x.st == .running && (s.sqSt x.square == sqRunning || s.sqSt x.square == sqPreempting) &&
    s.pageSt (filePage (sqFile x.square)) != stOff && !ls.ended && ls.bar.isNone

/-- The laneset's next instruction, if it can issue. -/
def State.ctx (s : State) (g l : Nat) : Option Ctx :=
  match s.group g with
  | none => none
  | some x => match x.lanesets.find? fun e => e.1 == l with
    | none => none
    | some e =>
      if s.canIssue x e.2 then
        some ⟨g, l, x, e.2, s.textWord x e.2.pc, s.textWord x (e.2.pc + 1)⟩
      else none

/-- Put a laneset back into its group. -/
def State.setLaneset (s : State) (g l : Nat) (ls : Laneset) : State :=
  match s.group g with
  | none => s
  | some x => s.setGroup g { x with lanesets := assocInsert l ls x.lanesets }

/-- Whether an opcode is LDG, STG or ATG, whose exceptions are not precise (R130); and whether it is an engine issue instruction. -/
def impreciseOp (op : Nat) : Bool := op == 0x142 || op == 0x143 || op == 0x149
def engineOp (op : Nat) : Bool := (decide (0x1C0 ≤ op) && decide (op ≤ 0x1C2)) || op == 0x1E0 || op == 0x1F0

/-- Raise an exception of the laneset's instruction: precise but for LDG, STG and ATG, and marked as raised by an engine issue
instruction where it is one (R130, R131). -/
def State.except (s : State) (c : Ctx) (cause : Nat) (st : Status) (lanes : List Nat) (addr detail : Nat) : State :=
  let e : Exc := {
    cause := cause, status := st, pc := c.ls.pc, lset := c.l, lanes := maskOf lanes, addr := addr, detail := detail
    precise := !impreciseOp (fOP c.w), engine := engineOp (fOP c.w) }
  (s.raiseExc c.g e).settleQueues

/-- EX_STORE_RANGE of a fetch of word `pc` outside the region, whatever instruction it belongs to (R100). -/
def State.exFetch (s : State) (c : Ctx) (pc : Nat) : State :=
  let e : Exc := {
    cause := 0x04, status := .accessDenied, pc := c.ls.pc, lset := c.l, lanes := maskOf c.ls.active, addr := textOff c.x.nls + 8 * pc }
  (s.raiseExc c.g e).settleQueues

/-- EX_OPCODE (R95, R129). -/
def State.exOpcode (s : State) (c : Ctx) : State := s.except c 0x01 .internalError c.ls.active 0 0

/-- EX_REGISTER (R42, R96, R99). -/
def State.exRegister (s : State) (c : Ctx) (r : Nat) : State := s.except c 0x02 .internalError c.lanes 0 r

/-! ## Reconvergence and the program counter (R87, R89, R106) -/

/-- Pop what the control stack has for lanes that stand at `pc`: pending lanes run before the join restores its mask. Lanes
that have exited are in no mask (R109). -/
def reconv (ls : Laneset) : Nat → Laneset
  | 0 => ls
  | fuel + 1 =>
    match ls.stack with
    | .pend p m :: .join r jm :: rest =>
      if ls.pc = r ∨ ls.mask = 0#32 then
        let m' := m &&& ~~~ls.exited
        if m' = 0#32 then reconv { ls with pc := r, mask := 0#32, stack := .join r jm :: rest } fuel
        else reconv { ls with pc := p, mask := m', stack := .join r jm :: rest } fuel
      else ls
    | .join r jm :: rest =>
      if ls.pc = r ∨ ls.mask = 0#32 then
        reconv { ls with pc := r, mask := jm &&& ~~~ls.exited, stack := rest } fuel
      else ls
    | .ret _ :: rest => if ls.mask = 0#32 then reconv { ls with stack := rest } fuel else ls
    | _ => ls

/-- Move to an instruction and reconverge. -/
def Laneset.goto (ls : Laneset) (pc : Nat) : Laneset := reconv { ls with pc := pc } 80

/-- A program counter after a signed displacement (R93). -/
def pcPlus (pc : Nat) (d : Int) : Nat := ofSigned 32 (pc + d)

/-- The instruction is done: the laneset moves past its words. -/
def State.retire (s : State) (c : Ctx) (ls : Laneset) (words : Nat) : State :=
  ((s.perfCount c.x.square 0x01 1).noteRetire c.x.square).setLaneset c.g c.l (ls.goto (c.ls.pc + words))

/-! ## Operands (R42, R89, R95, R96) -/

/-- A source or destination field: its 8 bits, its kind bit, and how many registers it names. -/
structure Reg where
  v : Nat
  u : Bool
  n : Nat := 1
  deriving DecidableEq, Repr

/-- Whether a field names no register: 255 with the kind bit 0 (R89). -/
def Reg.none? (r : Reg) : Bool := !r.u && r.v == 255

/-- A uniform field with [7:6] not 0: a reserved field (R89, R95). -/
def Reg.badField (r : Reg) : Bool := r.u && decide (64 ≤ r.v)

/-- A register at or above N, an odd pair or a misaligned quad (R42, R96). -/
def Reg.badReg (nreg : Nat) (r : Reg) : Bool :=
  !r.none? && (decide (r.v % r.n ≠ 0) || (!r.u && decide (nreg ≤ r.v + r.n - 1)))

/-- Value of a source of one register or a pair in a lane: a literal word where it names no register (R89, R96). -/
def Ctx.read (c : Ctx) (lane : Nat) (r : Reg) : Nat :=
  if r.none? then (if r.n = 1 then c.lit % 2 ^ 32 else c.lit)
  else
    let get := fun k => if r.u then c.ls.ureg (r.v + k) else c.ls.reg lane (r.v + k)
    if r.n = 1 then get 0 else get 0 + 2 ^ 32 * get 1

/-- Write a destination of one register, a pair or a quad in a lane; one that names no register discards (R89). -/
def Laneset.write (ls : Laneset) (lane : Nat) (r : Reg) (v : Nat) : Laneset :=
  if r.none? then ls
  else (List.range r.n).foldl (fun ls k =>
    let x := v / 2 ^ (32 * k) % 2 ^ 32
    if r.u then ls.setUreg (r.v + k) x else ls.setReg lane (r.v + k) x) ls

/-- The first register fault among some fields, as EX_REGISTER reports it. -/
def firstBadReg (nreg : Nat) (rs : List Reg) : Option Nat := (rs.find? fun r => r.badReg nreg).map Reg.v

/-- The register fault that an instruction raises: none where no lane executes, since a lane inactive under the mask or the guard
raises nothing (R40, R132). -/
def Ctx.firstBad (c : Ctx) (rs : List Reg) : Option Nat := if c.lanes.isEmpty then none else firstBadReg c.x.nreg rs

/-- Words that an instruction occupies: two when a source names the literal word (R89). -/
def wordsOf (srcs : List Reg) : Nat := if srcs.any (fun r => r.none?) then 2 else 1

/-- Whether text word `pc` lies outside the group's region (R100). -/
def Ctx.outside (c : Ctx) (pc : Nat) : Bool := decide (c.x.size < textOff c.x.nls + 8 * pc + 8)

/-- The state after a fetch of text word `pc`, and whether that fetch hits a poisoned line (R52, R101). -/
def State.fetch (s : State) (c : Ctx) (pc : Nat) : State := s.storeScan c.x.square (c.x.textAt pc) 8
def State.fetchBad (s : State) (c : Ctx) (pc : Nat) : Bool := (s.fetch c pc).storePoisoned c.x.square (c.x.textAt pc) 8

/-- Meet an instruction of opcode `op`: nothing happens where the laneset cannot issue or stands at another listed opcode; an
unlisted opcode raises EX_OPCODE (R95); a fetch of a poisoned line is a square fault (R101); a fetch outside the region raises
EX_STORE_RANGE (R100). `f` says what the instruction does after its fetch. -/
def State.meet (s : State) (g l op : Nat) (f : State → Ctx → State) : State :=
  match s.ctx g l with
  | none => s
  | some c =>
    if c.outside c.ls.pc then s.exFetch c c.ls.pc
    else if s.fetchBad c c.ls.pc then (s.fetch c c.ls.pc).squareFault c.x.square
    else if !listedOp (fOP c.w) then (s.fetch c c.ls.pc).exOpcode c
    else if fOP c.w ≠ op then s
    else f (s.fetch c c.ls.pc) c

/-- Whether an instruction whose sources are `srcs` has a literal word (R89). -/
def Ctx.literal (srcs : List Reg) : Bool := srcs.any fun r => r.none?

/-- The operands of an instruction whose encoding is good: its literal word is fetched, where it has one, and its register fields are
checked; `k` goes on. A poisoned line under the literal is a square fault, which goes before an exception; a register out of range is
cause 0x02, a literal outside the region 0x04 (R89, R96, R100, R101, R132). -/
def State.operands (s : State) (c : Ctx) (srcs regs : List Reg) (k : State → State) : State :=
  let lit := Ctx.literal srcs && !c.outside (c.ls.pc + 1)
  let s1 := if lit then s.fetch c (c.ls.pc + 1) else s
  if lit && s.fetchBad c (c.ls.pc + 1) then s1.squareFault c.x.square
  else match c.firstBad regs with
    | some r => s1.exRegister c r
    | none => if Ctx.literal srcs && c.outside (c.ls.pc + 1) then s1.exFetch c (c.ls.pc + 1) else k s1

/-! ## Format R, lane by lane -/

/-- What a lane's operation sees beside its sources. -/
structure LaneEnv where
  c : Ctx
  lane : Nat
  ty : Ty
  rm : Nat
  /-- p[PD] of the lane, the literal in field C, the old value of D, and the draw of R153. -/
  pd : Bool
  lit : Nat
  old : Nat
  r : Nat

/-- A Format R operation that writes a register: which sources it reads, the types and rounding modes it accepts, the width of
each operand, and its result. -/
structure ROp where
  op : Nat
  useA : Bool := true
  useB : Bool := false
  useC : Bool := false
  tyOk : Ty → Bool
  rmMax : Nat := 3
  wideA : Ty → Bool := Ty.wide
  wideB : Ty → Bool := Ty.wide
  wideC : Ty → Bool := Ty.wide
  wideD : Ty → Bool := Ty.wide
  f : LaneEnv → Nat → Nat → Nat → Nat

/-- Registers that a width names. -/
def nOf (b : Bool) : Nat := if b then 2 else 1

/-- Source fields of a Format R operation. -/
def ROp.srcs (o : ROp) (w : Nat) (t : Ty) : List Reg :=
  (if o.useA then [{ v := fA w, u := fAU w, n := nOf (o.wideA t) }] else []) ++
  (if o.useB then [{ v := fB w, u := fBU w, n := nOf (o.wideB t) }] else []) ++
  (if o.useC then [{ v := fC w, u := fCU w, n := nOf (o.wideC t) }] else [])

/-- Destination field of a Format R operation. -/
def ROp.dst (o : ROp) (w : Nat) (t : Ty) : Reg := { v := fD w, u := fDU w, n := nOf (o.wideD t) }

/-- Lanes in which an instruction writes: with a uniform destination once, as the lowest executing lane (R97, R98). -/
def Ctx.runLanes (c : Ctx) (du : Bool) : List Nat := if du then c.lanes.take 1 else c.lanes

/-- One lane's write of a Format R operation; sources are read in the laneset as it was before the instruction. -/
def ROp.lane (o : ROp) (c : Ctx) (t : Ty) (draw : Nat) (ls : Laneset) (lane : Nat) : Laneset :=
  let a := if o.useA then c.read lane { v := fA c.w, u := fAU c.w, n := nOf (o.wideA t) } else 0
  let b := if o.useB then c.read lane { v := fB c.w, u := fBU c.w, n := nOf (o.wideB t) } else 0
  let cc := if o.useC then c.read lane { v := fC c.w, u := fCU c.w, n := nOf (o.wideC t) } else 0
  let d := o.dst c.w t
  let env : LaneEnv := {
    c := c, lane := lane, ty := t, rm := fRM c.w, pd := c.ls.pred lane (fPD c.w), lit := fC c.w,
    old := if d.none? then 0 else c.read lane d, r := (Config.free (draw + lane) 16).toNat }
  ls.write lane d (o.f env a b cc)

/-- Whether an encoding of a Format R operation is one that R95 turns into EX_OPCODE. -/
def ROp.bad (o : ROp) (w : Nat) (t : Ty) : Bool :=
  !o.tyOk t || decide (o.rmMax < fRM w) || decide (bits w 3 0 ≠ 0) || (o.srcs w t).any (fun r => r.badField) ||
    (o.dst w t).badField || (fDU w && (o.srcs w t).any fun r => !r.u && !r.none?)

/-- Run a Format R operation that writes a register in every executing lane. -/
def State.runR (s : State) (g l : Nat) (o : ROp) : State :=
  s.meet g l o.op fun s c =>
    match tyOf (fTY c.w) with
    | none => s.exOpcode c
    | some t =>
      if o.bad c.w t then s.exOpcode c
      else s.operands c (o.srcs c.w t) (o.srcs c.w t ++ [o.dst c.w t]) fun s =>
        let ls := (c.runLanes (fDU c.w)).foldl (o.lane c t s.free) c.ls
        let s1 := if fRM c.w = 4 then { s with free := s.free + 32 } else s
        s1.retire c ls (wordsOf (o.srcs c.w t))

/-- Run a Format I operation: D := f A IMM in every executing lane (R91). -/
def State.runI (s : State) (g l op : Nat) (useA : Bool) (f : Nat → Nat → Nat) : State :=
  s.meet g l op fun s c =>
    let a : Reg := { v := fA c.w, u := fAUi c.w }
    let d : Reg := { v := fD c.w, u := fDUi c.w }
    let srcs := if useA then [a] else []
    if srcs.any (fun r => r.badField) || d.badField || (fDUi c.w && srcs.any (fun r => !r.u && !r.none?)) then s.exOpcode c
    else s.operands c srcs (srcs ++ [d]) fun s =>
      let ls := (c.runLanes (fDUi c.w)).foldl (fun ls lane =>
        ls.write lane d (f (if useA then c.read lane a else 0) (fIMM c.w))) c.ls
      s.retire c ls (wordsOf srcs)

end Sys2Proof.Machine
end

