-- ==== Sys2Proof/Machine/Flags.lean ====
section
/-! DEFINITION. Predicates: the comparisons of ISETP and FSETP (R103, R150), the logic of PLOP, the votes, and the instructions
that write predicates (R102). -/

namespace Sys2Proof.Machine

/-- Comparison literal of ISETP: 0 EQ, 1 NE, 2 LT, 3 LE, 4 GT, 5 GE (R103). -/
def cmpInt (k : Nat) (a b : Int) : Bool :=
  match k with
  | 0 => decide (a = b) | 1 => decide (a ≠ b) | 2 => decide (a < b) | 3 => decide (a ≤ b)
  | 4 => decide (b < a) | _ => decide (b ≤ a)

/-- Comparison literal of FSETP: an unordered pair is false for EQ, LT, LE, GT and GE and true for NE; 6 UNORD, 7 ORD
(R103, R150). -/
def cmpFp (k : Nat) (a b : FVal) : Bool :=
  let un := a.isNan || b.isNan
  match k with
  | 6 => un
  | 7 => !un
  | 1 => un || decide (FVal.cmp a b ≠ 0)
  | _ => !un && cmpInt k (FVal.cmp a b) 0

/-- Logic literal of PLOP: AND, OR, XOR, AND-NOT (R102). -/
def plopFn (k : Nat) (a b : Bool) : Bool :=
  match k % 4 with
  | 0 => a && b | 1 => a || b | 2 => a != b | _ => a && !b

/-- Write p[PD] in the executing lanes, and go on. -/
def State.putPreds (s : State) (c : Ctx) (words : Nat) (f : Nat → Bool) : State :=
  s.retire c (c.lanes.foldl (fun ls i => ls.setPred i (fPD c.w) (f i)) c.ls) words

/-- DU set with a thread source (R95). -/
def mixedDU (w : Nat) (srcs : List Reg) : Bool := fDU w && srcs.any fun r => !r.u && !r.none?

/-- Reserved bits and codes that the Format R instructions without a register result check; RM 4 is for conversions only (R90, R95). -/
def badR (w : Nat) (srcs : List Reg) : Bool :=
  decide (3 < fRM w) || decide (bits w 3 0 ≠ 0) || decide (fTY w = 15) || (srcs.any fun r => r.badField) || mixedDU w srcs

/-- ISETP (R102, R103): p[PD] := A cmp B; a literal of 6 or 7, or a type that is no integer, raises EX_OPCODE. -/
def execIsetp (g l : Nat) (s : State) : Out :=
  .next (s.meet g l 0x030 fun s c =>
    match tyOf (fTY c.w) with
    | none => s.exOpcode c
    | some t =>
      let a : Reg := { v := fA c.w, u := fAU c.w, n := nOf t.wide }
      let b : Reg := { v := fB c.w, u := fBU c.w, n := nOf t.wide }
      if !t.isInt || badR c.w [a, b] || decide (6 ≤ fC c.w % 8) then s.exOpcode c
      else s.operands c [a, b] [a, b] fun s => s.putPreds c (wordsOf [a, b]) fun i =>
        cmpInt (fC c.w % 8) (t.toInt (c.read i a)) (t.toInt (c.read i b)))

/-- FSETP (R103, R150) on FP32 operands. -/
def execFsetp (g l : Nat) (s : State) : Out :=
  .next (s.meet g l 0x088 fun s c =>
    let a : Reg := { v := fA c.w, u := fAU c.w }
    let b : Reg := { v := fB c.w, u := fBU c.w }
    if decide (fTY c.w ≠ 0) || badR c.w [a, b] then s.exOpcode c
    else s.operands c [a, b] [a, b] fun s => s.putPreds c (wordsOf [a, b]) fun i =>
      cmpFp (fC c.w % 8) (fpVal (c.read i a)) (fpVal (c.read i b)))

/-- PLOP (R102): p[PD] := p[A[2:0]] op p[B[2:0]]. -/
def execPlop (g l : Nat) (s : State) : Out :=
  .next (s.meet g l 0x038 fun s c =>
    if badR c.w [] then s.exOpcode c
    else s.putPreds c 1 fun i => plopFn (fC c.w) (c.ls.pred i (fA c.w)) (c.ls.pred i (fB c.w)))

/-- PLOAD (R102): p0 to p6 := A[6:0]. -/
def execPload (g l : Nat) (s : State) : Out :=
  .next (s.meet g l 0x03A fun s c =>
    let a : Reg := { v := fA c.w, u := fAU c.w }
    if badR c.w [a] then s.exOpcode c
    else s.operands c [a] [a] fun s =>
      let ls := c.lanes.foldl (fun ls i => (List.range 7).foldl (fun ls k => ls.setPred i k (bit (c.read i a) k)) ls) c.ls
      s.retire c ls (wordsOf [a]))

/-- VOTEANY (R102): p[PD] := any active lane's p[A[2:0]]. The active lanes of VOTEANY, VOTEALL, BALLOT, REDUX and T2U are taken as those
that execute: in the mask and with the guard true (DESIGN CHOICE, log entry 68). -/
def execVoteany (g l : Nat) (s : State) : Out :=
  .next (s.meet g l 0x042 fun s c =>
    if badR c.w [] then s.exOpcode c
    else s.putPreds c 1 fun _ => c.lanes.any fun k => c.ls.pred k (fA c.w))

/-- VOTEALL (R102): p[PD] := all active lanes' p[A[2:0]], the active lanes being those that execute (DESIGN CHOICE, log entry 68). -/
def execVoteall (g l : Nat) (s : State) : Out :=
  .next (s.meet g l 0x043 fun s c =>
    if badR c.w [] then s.exOpcode c
    else s.putPreds c 1 fun _ => c.lanes.all fun k => c.ls.pred k (fA c.w))

end Sys2Proof.Machine
end

