-- ==== Sys2Proof/Machine/IsaInt.lean ====
section
/-! DEFINITION. Ferlith moves, integer arithmetic, logic, shifts, bit fields, lane exchange and special registers
(R97 to R99, R102, R104). -/

namespace Sys2Proof.Machine

/-- Any type code but the reserved one. -/
def anyTy : Ty → Bool := fun _ => true

/-- No operand of two registers. -/
def narrow : Ty → Bool := fun _ => false

/-- A result of an integer type; one outside the type's range, where the manual states no result, is a free value of the
operand (log entry 13). -/
def inRange (t : Ty) (k a : Nat) (v : Int) : Nat :=
  if t.intRange.1 ≤ v ∧ v ≤ t.intRange.2 then ofSigned t.width v else (Config.unstated k a).toNat % 2 ^ t.width

/-- An integer operation of one or two sources on the type's width. The bitwise, shift, bit-count, bit-field and REDUX instructions, for
which R102 names no types, accept S32, U32, S64 and U64 only (DESIGN CHOICE, log entry 68). -/
def intOp (op : Nat) (useB : Bool) (f : Ty → Nat → Nat → Nat) : ROp :=
  { op := op, useB := useB, tyOk := Ty.isInt, f := fun e a b _ => f e.ty a b % 2 ^ e.ty.width }

/-- IDIV: by zero all ones; the most negative value by −1 gives the dividend (R104). -/
def idiv (t : Ty) (a b : Nat) : Nat :=
  let x := t.toInt a
  let y := t.toInt b
  if y = 0 then 2 ^ t.width - 1 else ofSigned t.width (x.tdiv y)

/-- IREM: by zero the dividend (R104). -/
def irem (t : Ty) (a b : Nat) : Nat :=
  let x := t.toInt a
  let y := t.toInt b
  if y = 0 then a else ofSigned t.width (x.tmod y)

/-- The number of one bits. -/
def popc (w n : Nat) : Nat := (indices w fun i => bit n i).length

/-- The number of leading zeros. -/
def clz (w n : Nat) : Nat := if n = 0 then w else w - 1 - Nat.log2 n

/-- Bits in reverse order. -/
def brev (w n : Nat) : Nat := maskOf ((indices w fun i => bit n i).map fun i => w - 1 - i)

/-- Arithmetic shift right by a count below the width. -/
def sar (w a k : Nat) : Nat := ofSigned w (toSigned w a / 2 ^ k)

/-- BFE: the field at position B[7:0] of width B[15:8], extended by TY; bits beyond the width of TY read 0 (R102). -/
def bfe (t : Ty) (a b : Nat) : Nat :=
  let pos := b % 256
  let w := Nat.min (b / 256 % 256) t.width
  let v := a / 2 ^ pos % 2 ^ w
  if t.signed && decide (0 < w) then ofSigned t.width (toSigned w v) else v

/-- BFI: C with the low B[15:8] bits of A at position B[7:0] (R102). -/
def bfi (t : Ty) (a b c : Nat) : Nat :=
  let pos := b % 256
  let w := Nat.min (b / 256 % 256) t.width
  let m := (2 ^ w - 1) * 2 ^ pos % 2 ^ t.width
  (c &&& (2 ^ t.width - 1 - m)) ||| (a * 2 ^ pos &&& m)

/-- A of another lane: the value of that lane's register, active or not (R104). -/
def LaneEnv.ofLane (e : LaneEnv) (k : Nat) : Nat :=
  e.c.read k { v := fA e.c.w, u := fAU e.c.w, n := nOf e.ty.wide }

/-- A over the active lanes, as integers of the type. -/
def LaneEnv.allA (e : LaneEnv) : List Int := e.c.lanes.map fun k => e.ty.toInt (e.ofLane k)

/-- REDUX: sum, minimum or maximum (R102). -/
def redux (k : Nat) : List Int → Int
  | [] => 0
  | x :: t => match k with
    | 0 => t.foldl (· + ·) x
    | 1 => t.foldl min x
    | _ => t.foldl max x

/-- NOP: no effect (R102). -/
def execNop (g l : Nat) (s : State) : Out :=
  .next (s.meet g l 0x000 fun s c => if badR c.w [] then s.exOpcode c else s.retire c c.ls 1)

/-- MOV: D := A. -/
def execMov (g l : Nat) (s : State) : Out :=
  .next (s.runR g l { op := 0x001, tyOk := anyTy, f := fun _ a _ _ => a })

/-- MOVI: D := IMM. -/
def execMovi (g l : Nat) (s : State) : Out :=
  .next (s.runI g l 0x002 false fun _ i => i)

/-- SEL: D := p[PD] ? A : B. -/
def execSel (g l : Nat) (s : State) : Out :=
  .next (s.runR g l { op := 0x003, useB := true, tyOk := anyTy, f := fun e a b _ => if e.pd then a else b })

/-- IADD: wrapping. -/
def execIadd (g l : Nat) (s : State) : Out :=
  .next (s.runR g l (intOp 0x008 true fun _ a b => a + b))

/-- IADDI: S32 immediate. -/
def execIaddi (g l : Nat) (s : State) : Out :=
  .next (s.runI g l 0x009 true fun a i => (a + i) % 2 ^ 32)

/-- ISUB: wrapping. -/
def execIsub (g l : Nat) (s : State) : Out :=
  .next (s.runR g l (intOp 0x00A true fun t a b => a + 2 ^ t.width - b))

/-- IMUL: wrapping. -/
def execImul (g l : Nat) (s : State) : Out :=
  .next (s.runR g l (intOp 0x00B true fun _ a b => a * b))

/-- IMULH: the high half of the product, signed or unsigned by TY. -/
def execImulh (g l : Nat) (s : State) : Out :=
  .next (s.runR g l (intOp 0x00C true fun t a b => ofSigned t.width (t.toInt a * t.toInt b / 2 ^ t.width)))

/-- IMAD: D := A × B + C. -/
def execImad (g l : Nat) (s : State) : Out :=
  .next (s.runR g l {
    op := 0x00D, useB := true, useC := true, tyOk := Ty.isInt,
    f := fun e a b c => (a * b + c) % 2 ^ e.ty.width })

/-- IDIV (R104). -/
def execIdiv (g l : Nat) (s : State) : Out :=
  .next (s.runR g l (intOp 0x00E true fun t a b => idiv t a b))

/-- IREM (R104). -/
def execIrem (g l : Nat) (s : State) : Out :=
  .next (s.runR g l (intOp 0x00F true fun t a b => irem t a b))

/-- IMIN, by TY. -/
def execImin (g l : Nat) (s : State) : Out :=
  .next (s.runR g l (intOp 0x010 true fun t a b => if t.toInt a ≤ t.toInt b then a else b))

/-- IMAX, by TY. -/
def execImax (g l : Nat) (s : State) : Out :=
  .next (s.runR g l (intOp 0x011 true fun t a b => if t.toInt a ≤ t.toInt b then b else a))

/-- IABS; a result outside the type is a free value (log entry 13). -/
def execIabs (g l : Nat) (s : State) : Out :=
  .next (s.runR g l (intOp 0x012 false fun t a _ => inRange t 0 a (if t.toInt a < 0 then -t.toInt a else t.toInt a)))

/-- INEG; a result outside the type is a free value (log entry 13). -/
def execIneg (g l : Nat) (s : State) : Out :=
  .next (s.runR g l (intOp 0x013 false fun t a _ => inRange t 1 a (-t.toInt a)))

/-- AND. -/
def execAndB (g l : Nat) (s : State) : Out :=
  .next (s.runR g l (intOp 0x018 true fun _ a b => a &&& b))

/-- OR. -/
def execOrB (g l : Nat) (s : State) : Out :=
  .next (s.runR g l (intOp 0x019 true fun _ a b => a ||| b))

/-- XOR. -/
def execXorB (g l : Nat) (s : State) : Out :=
  .next (s.runR g l (intOp 0x01A true fun _ a b => a ^^^ b))

/-- NOT. -/
def execNotB (g l : Nat) (s : State) : Out :=
  .next (s.runR g l (intOp 0x01B false fun t a _ => 2 ^ t.width - 1 - a))

/-- ANDI. -/
def execAndi (g l : Nat) (s : State) : Out :=
  .next (s.runI g l 0x01C true fun a i => a &&& i)

/-- ORI. -/
def execOri (g l : Nat) (s : State) : Out :=
  .next (s.runI g l 0x01D true fun a i => a ||| i)

/-- XORI. -/
def execXori (g l : Nat) (s : State) : Out :=
  .next (s.runI g l 0x01E true fun a i => a ^^^ i)

/-- SHL: the count modulo the width (R104). -/
def execShl (g l : Nat) (s : State) : Out :=
  .next (s.runR g l (intOp 0x020 true fun t a b => a * 2 ^ (b % t.width)))

/-- SHR: the count modulo the width (R104). -/
def execShr (g l : Nat) (s : State) : Out :=
  .next (s.runR g l (intOp 0x021 true fun t a b => a / 2 ^ (b % t.width)))

/-- SAR: the count modulo the width (R104). -/
def execSar (g l : Nat) (s : State) : Out :=
  .next (s.runR g l (intOp 0x022 true fun t a b => sar t.width a (b % t.width)))

/-- SHLI: on 32 bits, the count modulo 32. -/
def execShli (g l : Nat) (s : State) : Out :=
  .next (s.runI g l 0x023 true fun a i => a * 2 ^ (i % 32) % 2 ^ 32)

/-- SHRI: on 32 bits. -/
def execShri (g l : Nat) (s : State) : Out :=
  .next (s.runI g l 0x024 true fun a i => a / 2 ^ (i % 32))

/-- SARI: on 32 bits. -/
def execSari (g l : Nat) (s : State) : Out :=
  .next (s.runI g l 0x025 true fun a i => sar 32 a (i % 32))

/-- POPC. -/
def execPopc (g l : Nat) (s : State) : Out :=
  .next (s.runR g l (intOp 0x028 false fun t a _ => popc t.width a))

/-- CLZ. -/
def execClz (g l : Nat) (s : State) : Out :=
  .next (s.runR g l (intOp 0x029 false fun t a _ => clz t.width a))

/-- BREV. -/
def execBrev (g l : Nat) (s : State) : Out :=
  .next (s.runR g l (intOp 0x02A false fun t a _ => brev t.width a))

/-- BFE. -/
def execBfe (g l : Nat) (s : State) : Out :=
  .next (s.runR g l (intOp 0x02B true fun t a b => bfe t a b))

/-- BFI. -/
def execBfi (g l : Nat) (s : State) : Out :=
  .next (s.runR g l { op := 0x02C, useB := true, useC := true, tyOk := Ty.isInt, f := fun e a b c => bfi e.ty a b c })

/-- PSAVE: D := p0 to p7 in bits [7:0]. -/
def execPsave (g l : Nat) (s : State) : Out :=
  .next (s.runR g l {
    op := 0x039, useA := false, tyOk := anyTy, wideD := narrow,
    f := fun e _ _ _ => maskOf (indices 8 fun k => e.c.ls.pred e.lane k) })

/-- SHFL: D := A of lane B[4:0] (R104). -/
def execShfl (g l : Nat) (s : State) : Out :=
  .next (s.runR g l { op := 0x040, useB := true, tyOk := anyTy, wideB := narrow, f := fun e _ b _ => e.ofLane (b % 32) })

/-- SHFLX: D := A of lane LANEID xor B[4:0] (R104). -/
def execShflx (g l : Nat) (s : State) : Out :=
  .next (s.runR g l {
    op := 0x041, useB := true, tyOk := anyTy, wideB := narrow,
    f := fun e _ b _ => e.ofLane (e.lane ^^^ (b % 32)) })

/-- BALLOT: D := mask of active lanes whose p[A[2:0]] is true. -/
def execBallot (g l : Nat) (s : State) : Out :=
  .next (s.runR g l {
    op := 0x044, useA := false, tyOk := anyTy, wideD := narrow,
    f := fun e _ _ _ => maskOf (e.c.lanes.filter fun k => e.c.ls.pred k (fA e.c.w)) })

/-- REDUX: sum, minimum or maximum of A over the active lanes by literal C[1:0]; 3 raises EX_OPCODE (R95, R102). -/
def execRedux (g l : Nat) (s : State) : Out :=
  .next (
    let o : ROp := {
      op := 0x045, tyOk := Ty.isInt,
      f := fun e _ _ _ => inRange e.ty 2 (redux (e.lit % 4) e.allA).natAbs (redux (e.lit % 4) e.allA) }
    match s.ctx g l with
    | some c => if fOP c.w = 0x045 ∧ fC c.w % 4 = 3 then s.meet g l 0x045 State.exOpcode else s.runR g l o
    | none => s)

/-! ## Special registers (R99) -/

/-- Index in a shape, x fastest: the x, y or z part of a linear index. -/
def unlin (x y k i : Nat) : Nat :=
  match k with
  | 0 => i % x | 1 => i / x % y | _ => i / (x * y)

/-- The special register that a literal names, for a lane (R99); none where R99 lists no such register. -/
def State.sreg (s : State) (c : Ctx) (lane n : Nat) : Option Nat :=
  let j := (s.job c.x.job).getD {}
  let la := s.launchOf j
  let tid := 32 * c.l + lane
  match n with
  | 0x00 => some lane
  | 0x01 => some c.l
  | 0x02 => some c.x.nls
  | 0x03 => some (unlin la.gx la.gy 0 tid)
  | 0x04 => some (unlin la.gx la.gy 1 tid)
  | 0x05 => some (unlin la.gx la.gy 2 tid)
  | 0x06 => some (unlin la.nx la.ny 0 c.x.index)
  | 0x07 => some (unlin la.nx la.ny 1 c.x.index)
  | 0x08 => some (unlin la.nx la.ny 2 c.x.index)
  | 0x09 => some la.nx
  | 0x0A => some la.ny
  | 0x0B => some la.nz
  | 0x0C => some la.gx
  | 0x0D => some la.gy
  | 0x0E => some la.gz
  | 0x0F => some ((c.x.index * (la.gx * la.gy * la.gz) + tid) % 2 ^ 32)
  | 0x10 => some c.x.square
  | 0x11 => some j.fn
  | 0x12 => some j.cls
  | 0x13 => some c.x.base
  | 0x14 => some c.x.size
  | 0x15 => some c.x.nreg
  | 0x16 => some (s.getF 0 (Fld.FIL_CLK_MHZ.onPage (filePage (sqFile c.x.square))))
  | 0x17 => some c.x.bundle
  | _ => none

/-- SREG as a Format R operation: D := the special register named by literal A (R99). -/
def State.sregOp (s : State) : ROp := {
  op := 0x048, useA := false, tyOk := anyTy, wideD := narrow, f := fun e _ _ _ => (s.sreg e.c e.lane (fA e.c.w)).getD 0 }

/-- SREG: a value of literal A that names no special register raises EX_REGISTER in the executing lanes (R99, R132). -/
def execSreg (g l : Nat) (s : State) : Out :=
  .next (match s.ctx g l with
    | none => s
    | some c =>
      if fOP c.w = 0x048 ∧ (s.sreg c 0 (fA c.w)).isNone ∧ c.lanes ≠ [] ∧
          ((tyOf (fTY c.w)).map (s.sregOp.bad c.w)) = some false then
        s.meet g l 0x048 fun s c => s.exRegister c (fA c.w)
      else s.runR g l s.sregOp)

/-- TIME: D, D+1 := the timebase, in ns (R24, R102). -/
def execTimeR (g l : Nat) (s : State) : Out :=
  .next (s.runR g l { op := 0x049, useA := false, tyOk := anyTy, wideD := anyTy, f := fun _ _ _ _ => s.now })

/-- Square cycles since a group started (R102). -/
def State.clk (s : State) (x : Group) : Nat := (x.ran + (s.fileCyc (sqFile x.square) - x.start)) / 250

/-- CLK: D, D+1 := square cycles since group start (R102). -/
def execClk (g l : Nat) (s : State) : Out :=
  .next (s.runR g l { op := 0x04A, useA := false, tyOk := anyTy, wideD := anyTy, f := fun e _ _ _ => s.clk e.c.x })

/-- T2U: u[D] := A of the lowest active lane (R98). -/
def execT2u (g l : Nat) (s : State) : Out :=
  .next (s.meet g l 0x04B fun s c =>
    let a : Reg := { v := fA c.w, u := fAU c.w }
    let d : Reg := { v := fD c.w, u := true }
    if badR c.w [d] || a.badField then s.exOpcode c
    else s.operands c [a] [a] fun s =>
      let ls := match c.lanes with
        | [] => c.ls
        | k :: _ => c.ls.write k d (c.read k a)
      s.retire c ls (wordsOf [a]))

end Sys2Proof.Machine
end

