-- ==== Sys2Proof/Machine/IsaFp.lean ====
section
/-! DEFINITION. Ferlith floating point: arithmetic (R150), the approximate functions (R151) and the conversions
(R137, R152, R153). -/

namespace Sys2Proof.Machine

/-- Types of the floating instructions: FP32, or packed FP16 or BF16 pairs (R102). -/
def fpTy (t : Ty) : Bool := t == .fp32 || t == .fp16 || t == .bf16

/-- FP32 only. -/
def fp32Ty (t : Ty) : Bool := t == .fp32

/-- The format of a floating instruction's type. -/
def Ty.arith (t : Ty) : Fmt := (t.fmt?).getD fmtFp32

/-- Apply an operation on codes to an FP32 value or to both halves of a pair (R104). -/
def packed (t : Ty) (f : Nat → Nat → Nat → Nat) (a b c : Nat) : Nat :=
  if t = .fp32 then f a b c
  else f (a % 65536) (b % 65536) (c % 65536) + 65536 * f (a / 65536 % 65536) (b / 65536 % 65536) (c / 65536 % 65536)

/-- A floating operation that rounds once under RM 0 to 3 (R150). -/
def fpOp (op : Nat) (useB useC : Bool) (f : Nat → FVal → FVal → FVal → FVal) : ROp :=
  { op := op, useB := useB, useC := useC, tyOk := fpTy, f := fun e a b c =>
      let m := e.ty.arith
      packed e.ty (fun x y z => m.encode e.rm 0 (f e.rm (m.decode x) (m.decode y) (m.decode z))) a b c }

/-- An operation on the codes themselves. -/
def bitOp (op : Nat) (f : Fmt → Nat → Nat) : ROp :=
  { op := op, tyOk := fpTy, f := fun e a _ _ => packed e.ty (fun x _ _ => f e.ty.arith x) a 0 0 }

/-- An FP32 operation of one source on codes. -/
def fp32Op (op : Nat) (useB : Bool) (f : Nat → Nat → Nat → Nat) : ROp :=
  { op := op, useB := useB, tyOk := fp32Ty, f := fun e a b _ => f e.rm a b }

/-! ## Approximate functions (R151) -/

def fpNan : Nat := 0x7FC00000
def fpInf : Nat := 0x7F800000
def fpNegInf : Nat := 0xFF800000
def fpOne : Nat := 0x3F800000
def fpNegOne : Nat := 0xBF800000

/-- RCP, within 1 ulp. -/
def rcpFn (a : Nat) : Nat :=
  match fpVal a with
  | .nan => fpNan
  | .inf s => if s then 0x80000000 else 0
  | .fin s m e =>
    if m = 0 then (if s then fpNegInf else fpInf)
    else
      let x := FVal.div (.fin false 1 0) (.fin s m e)
      approxFn 0 a x (ulps 1 x)

/-- RSQ, within 2 ulp. RSQ of −0 is stated by no rule and is a free value. -/
def rsqFn (a : Nat) : Nat :=
  match fpVal a with
  | .nan => fpNan
  | .inf s => if s then fpNan else 0
  | .fin s m e =>
    if m = 0 then (if s then (Config.approx 1 a).toNat else fpInf)
    else if s then fpNan
    else
      let x := FVal.div (.fin false 1 0) (FVal.sqrt (.fin false m e))
      approxFn 1 a x (ulps 2 x)

/-- EXP2, within 2 ulp; a result beyond the largest finite value is +infinity. -/
def exp2Fn (a : Nat) : Nat :=
  match fpVal a with
  | .nan => fpNan
  | .inf s => if s then 0 else fpInf
  | .fin s m e =>
    if 0 ≤ FVal.cmp (.fin s m e) (.fin false 128 0) then fpInf
    else
      let x := exp2Val (.fin s m e)
      approxFn 2 a x (ulps 2 x)

/-- LOG2, within 2 ulp, or within 2^−22 for an operand in [0.5, 2]. -/
def log2Fn (a : Nat) : Nat :=
  match fpVal a with
  | .nan => fpNan
  | .inf s => if s then fpNan else fpInf
  | .fin s m e =>
    if m = 0 then fpNegInf
    else if s then fpNan
    else
      let x := log2Val m e
      let near := decide (FVal.cmp (.fin false 1 (-1)) (.fin s m e) ≤ 0) && decide (FVal.cmp (.fin s m e) (.fin false 2 0) ≤ 0)
      approxFn 3 a x (if near then pow2Val (-22) else ulps 2 x)

/-- SIN (4) and COS (5): within 2^−21 where |x| is at most 2^15, and in [−1, 1] beyond. -/
def trigFn (which a : Nat) : Nat :=
  match fpVal a with
  | .nan => fpNan
  | .inf _ => fpNan
  | .fin s m e =>
    if FVal.cmp (.fin false m e) (.fin false 32768 0) ≤ 0 then
      let v := (FVal.fin s m e).fx
      approxFn which a (fxVal (if which = 4 then fxSin v else fxCos v)) (pow2Val (-21))
    else
      let y := (Config.approx which a).toNat
      match fpVal y with
      | .nan => fpOne
      | v => if FVal.cmp v (.fin false 1 0) = 1 then fpOne
        else if FVal.cmp v (.fin true 1 0) = -1 then fpNegOne else y

/-- TANH, within the larger of 2 ulp and 2^−23; ±inf gives ±1. -/
def tanhFn (a : Nat) : Nat :=
  match fpVal a with
  | .nan => fpNan
  | .inf s => if s then fpNegOne else fpOne
  | .fin s m e =>
    let x := fxVal (fxTanh (FVal.fin s m e).fx)
    approxFn 6 a x ((ulps 2 x).larger (pow2Val (-23)))

/-! ## Conversions -/

/-- Place of an element slot in a thread register: slots, and bits from slot to slot (R137). -/
def Ty.slots (t : Ty) : Nat × Nat :=
  match t with
  | .fp16 => (2, 16) | .bf16 => (2, 16) | .e4m3 => (4, 8) | .e5m2 => (4, 8) | .int8 => (4, 8) | .e3m2 => (4, 8)
  | .e2m3 => (4, 8) | .fp4 => (8, 4) | .fp4e => (8, 4) | .int4 => (8, 4) | _ => (1, 32)

/-- Types with element slots. -/
def slotTy (t : Ty) : Bool := decide (1 < t.slots.1)

/-- Convert one code between types under a mode. -/
def convert (src dst : Ty) (rm r a : Nat) : Nat := dst.code rm r (src.value (a % 2 ^ src.width))

/-- Whether a type is a packed pair in ALU use (R94). -/
def Ty.pair (t : Ty) : Bool := t == .fp16 || t == .bf16

/-- CVT: pair to pair converts both halves; otherwise the low element (R102, R104; log entry 14). -/
def cvtFn (src dst : Ty) (rm r a : Nat) : Nat :=
  if src.pair && dst.pair then convert src dst rm r a + 65536 * convert src dst rm r (a / 65536)
  else convert src dst rm r a

/-- FADD. -/
def execFadd (g l : Nat) (s : State) : Out :=
  .next (s.runR g l (fpOp 0x080 true false fun rm a b _ => FVal.add rm a b))

/-- FSUB. -/
def execFsub (g l : Nat) (s : State) : Out :=
  .next (s.runR g l (fpOp 0x081 true false fun rm a b _ => FVal.add rm a b.neg))

/-- FMUL. -/
def execFmul (g l : Nat) (s : State) : Out :=
  .next (s.runR g l (fpOp 0x082 true false fun _ a b _ => FVal.mul a b))

/-- FFMA: A × B + C with one rounding. -/
def execFfma (g l : Nat) (s : State) : Out :=
  .next (s.runR g l (fpOp 0x083 true true fun rm a b c => FVal.add rm (FVal.mul a b) c))

/-- FMIN. -/
def execFmin (g l : Nat) (s : State) : Out :=
  .next (s.runR g l (fpOp 0x084 true false fun _ a b _ => FVal.minMax false a b))

/-- FMAX. -/
def execFmax (g l : Nat) (s : State) : Out :=
  .next (s.runR g l (fpOp 0x085 true false fun _ a b _ => FVal.minMax true a b))

/-- FABS: only the sign bit changes. -/
def execFabs (g l : Nat) (s : State) : Out :=
  .next (s.runR g l (bitOp 0x086 fun m x => x % m.signBit))

/-- FNEG: only the sign bit changes. -/
def execFneg (g l : Nat) (s : State) : Out :=
  .next (s.runR g l (bitOp 0x087 fun m x => (x + m.signBit) % (2 * m.signBit)))

/-- FADDI: FP32, to nearest even. -/
def execFaddi (g l : Nat) (s : State) : Out :=
  .next (s.runI g l 0x089 true fun a i => fpAdd a i)

/-- FMULI: FP32, to nearest even. -/
def execFmuli (g l : Nat) (s : State) : Out :=
  .next (s.runI g l 0x08A true fun a i => fpMul a i)

/-- RCP (R151). -/
def execRcp (g l : Nat) (s : State) : Out :=
  .next (s.runR g l (fp32Op 0x090 false fun _ a _ => rcpFn a))

/-- RSQ (R151). -/
def execRsq (g l : Nat) (s : State) : Out :=
  .next (s.runR g l (fp32Op 0x091 false fun _ a _ => rsqFn a))

/-- SQRT, correctly rounded. -/
def execSqrt (g l : Nat) (s : State) : Out :=
  .next (s.runR g l (fp32Op 0x092 false fun rm a _ => fmtFp32.encode rm 0 (FVal.sqrt (fpVal a))))

/-- EXP2 (R151). -/
def execExp2 (g l : Nat) (s : State) : Out :=
  .next (s.runR g l (fp32Op 0x093 false fun _ a _ => exp2Fn a))

/-- LOG2 (R151). -/
def execLog2 (g l : Nat) (s : State) : Out :=
  .next (s.runR g l (fp32Op 0x094 false fun _ a _ => log2Fn a))

/-- SIN (R151). -/
def execSin (g l : Nat) (s : State) : Out :=
  .next (s.runR g l (fp32Op 0x095 false fun _ a _ => trigFn 4 a))

/-- COS (R151). -/
def execCos (g l : Nat) (s : State) : Out :=
  .next (s.runR g l (fp32Op 0x096 false fun _ a _ => trigFn 5 a))

/-- TANH (R151). -/
def execTanh (g l : Nat) (s : State) : Out :=
  .next (s.runR g l (fp32Op 0x097 false fun _ a _ => tanhFn a))

/-- FDIV, correctly rounded. -/
def execFdiv (g l : Nat) (s : State) : Out :=
  .next (s.runR g l (fp32Op 0x098 true fun rm a b => fmtFp32.encode rm 0 (FVal.div (fpVal a) (fpVal b))))

/-- FSCL: D := A × 2^(B[7:0] − 127). -/
def execFscl (g l : Nat) (s : State) : Out :=
  .next (s.runR g l (fp32Op 0x099 true fun rm a b =>
    fmtFp32.encode rm 0 (FVal.scale ((b % 256 : Nat) - 127 : Int) (fpVal a))))

/-- CVT: D := A converted from type literal C[3:0] to TY under RM; a reserved source type raises EX_OPCODE (R95, R102). -/
def execCvt (g l : Nat) (s : State) : Out :=
  .next (match s.ctx g l with
    | none => s
    | some c => match tyOf (fC c.w % 16) with
      | none => if fOP c.w = 0x100 then s.meet g l 0x100 State.exOpcode else s
      | some src =>
        s.runR g l {
          op := 0x100, tyOk := anyTy, rmMax := 4, wideA := fun _ => src.wide,
          f := fun e a _ _ => cvtFn src e.ty e.rm e.r a })

/-- CVTPK: element slot B[2:0] of D := A converted from FP32 (R137); FP6 slots keep their upper bits 0. -/
def execCvtpk (g l : Nat) (s : State) : Out :=
  .next (s.runR g l {
    op := 0x101, useB := true, tyOk := slotTy, rmMax := 4,
    f := fun e a b _ =>
      let (n, w) := e.ty.slots
      let k := b % 8 % n
      withBits e.old (k * w + w - 1) (k * w) (convert .fp32 e.ty e.rm e.r a) })

/-- CVTUP: D := FP32 value of element slot B[2:0] of A (R137). -/
def execCvtup (g l : Nat) (s : State) : Out :=
  .next (s.runR g l {
    op := 0x102, useB := true, tyOk := slotTy,
    f := fun e a b _ =>
      let (n, w) := e.ty.slots
      convert e.ty .fp32 0 0 (a / 2 ^ (b % 8 % n * w)) })

end Sys2Proof.Machine
end

