-- ==== Sys2Proof/Machine/IsaMem.lean ====
section
/-! DEFINITION. Ferlith loads, stores, atomics and semaphores (R92, R100, R119 to R123, R126). -/

namespace Sys2Proof.Machine

/-! ## The group's store region (R100) -/

/-- Whether bytes lie in a group's region. -/
def Group.holds (x : Group) (off n : Nat) : Bool := decide (off + n ≤ x.size)

/-- Whether bytes lie in a group's data area: not in the save area and not in the program text. -/
def Group.data (x : Group) (off n : Nat) : Bool := x.holds off n && decide (textOff x.nls + x.text ≤ off)

/-- Bytes of a group's region. -/
def State.regionRead (s : State) (x : Group) (off n : Nat) : List Byte := s.storeRead x.square (x.base + off) n

/-- Write bytes of a group's region. -/
def State.regionWrite (s : State) (x : Group) (off : Nat) (b : List Byte) : State := s.storeWrite x.square (x.base + off) b

/-! ## Overlaps with engine work (R120) -/

/-- Bytes of a matrix tile in a format (R158). -/
def tileBytes (fmt : Nat) (sparse : Bool) : Nat :=
  let l := match fmt with
    | 0x0 => 128 | 0xB => 128 | 0x1 => 64 | 0x2 => 64 | 0x3 => 32 | 0x4 => 32 | 0x9 => 32 | 0x5 => 24 | 0x6 => 24 | _ => 16
  32 * (if sparse then l / 2 else l)

/-- Bytes of the sidecar that a tile carries (R142). -/
def sideBytes (fmt scm : Nat) (sparse : Bool) : Nat :=
  if sparse then 256 else if scm = 2 ∨ fmt = 8 then 128 else if scm = 1 then 64 else 0

/-- TILE, SIDE and SCM of a tile operand (R110). -/
def opTILE (w : Nat) : Nat := bits w 13 0
def opSIDE (w : Nat) : Nat := bits w 27 14
def opSCM (w : Nat) : Nat := bits w 29 28

/-- Region-relative ranges that an operand of a matrix step reads: its tile, and its sidecar where it has one. -/
def operandSpans (fmt : Nat) (sparse : Bool) (w : Nat) : List (Nat × Nat) :=
  [(64 * opTILE w, tileBytes fmt sparse), (64 * opSIDE w, sideBytes fmt (opSCM w) sparse)].filter fun r => r.2 != 0

/-- Fields of a drain as its entry keeps them: bits [46:29] of the instruction (R113). -/
def ctlST (k : Nat) : Bool := bit k 17
def ctlFIN (k : Nat) : Bool := bit k 16
def ctlSCL (k : Nat) : Nat := bits k 15 14
def ctlBIAS (k : Nat) : Bool := bit k 13
def ctlACT (k : Nat) : Nat := bits k 12 9
def ctlREC (k : Nat) : Bool := bit k 8
def ctlSMX (k : Nat) : Bool := bit k 7
def ctlOFMT (k : Nat) : Nat := bits k 6 3
def ctlRM (k : Nat) : Nat := bits k 2 0

/-- Entry `i` of a drain operand list (R114). -/
def State.drnEntry (s : State) (y : Group) (ops i : Nat) : Nat := leNat (s.regionRead y (ops + 4 * i) 4)

/-- Bytes of `n` elements of a type code. -/
def codeBytes (code n : Nat) : Nat := ((tyOf code).map fun t => n * t.width / 8).getD 0

/-- Operand-list entries that a drain reads, with the elements that each names. -/
def ctlInputs (k : Nat) : List (Nat × Nat) :=
  (if bit (ctlSCL k) 0 then [(0, 32)] else []) ++ (if bit (ctlSCL k) 1 then [(1, 32)] else []) ++
  (if ctlBIAS k then [(2, 32)] else []) ++ (if 6 ≤ ctlACT k then [(3, 1024)] else []) ++
  (if ctlREC k then [(4, 1024), (5, 1024), (6, 1024)] else [])

/-- Entries of the operand list that a drain reads: those of its inputs, DECAY's place for the correction tile, and SMSTAT's on FIN;
entries for bypassed steps are not read (R114, R292). -/
def ctlEntries (k : Nat) : List Nat :=
  (ctlInputs k).map (fun e => e.1) ++ (if ctlSMX k then [4] else []) ++ (if ctlSMX k && ctlFIN k then [7] else [])

/-- Bytes of the operand list that a drain reads. -/
def ctlList (k ops : Nat) : List (Nat × Nat) := (ctlEntries k).map fun i => (ops + 4 * i, 4)

/-- Region-relative ranges of a drain's inputs. -/
def State.drnInputs (s : State) (y : Group) (ctl ops : Nat) : List (Nat × Nat) :=
  (ctlInputs ctl).map fun e =>
    let w := s.drnEntry y ops e.1
    (bits w 19 0, codeBytes (bits w 23 20) e.2)

/-- Region-relative ranges that a drain reads. -/
def State.drnReads (s : State) (y : Group) (ctl ops : Nat) : List (Nat × Nat) := ctlList ctl ops ++ s.drnInputs y ctl ops

/-- Region-relative ranges that a drain writes: its output tile and sidecar, STATE, the correction tile, and SMSTAT. -/
def State.drnWrites (s : State) (y : Group) (ctl out ops : Nat) : List (Nat × Nat) :=
  [(64 * opTILE out, tileBytes (ctlOFMT ctl) false)] ++
  (if opSCM out ≠ 0 then [(64 * opSIDE out, sideBytes (ctlOFMT ctl) (opSCM out) false)] else []) ++
  (if ctlREC ctl then [(bits (s.drnEntry y ops 6) 19 0, 4096)] else []) ++
  (if ctlSMX ctl then [(bits (s.drnEntry y ops 4) 19 0, 4096)] else []) ++
  (if ctlSMX ctl && ctlFIN ctl then [(bits (s.drnEntry y ops 7) 19 0, 256)] else [])

/-- Region-relative ranges that an engine entry reads. -/
def State.engReads (s : State) (y : Group) : EngOp → List (Nat × Nat)
  | .mma sp _ _ fa fb a b => operandSpans fa sp a.toNat ++ operandSpans fb false b.toNat
  | .mld _ _ a => [(64 * opTILE a.toNat, 4096)]
  | .drn _ ctl _ ops => s.drnReads y ctl ops.toNat
  | .tmv _ off _ _ => [(off, 64)]

/-- Bytes that one tile of a geometry takes in storage, rounded up to whole lines (R158). -/
def geomBytes (geom fmt : Nat) (sparse : Bool) : Nat :=
  let el := if fmt = 0 ∨ fmt = 0xB then 4 else if fmt = 1 ∨ fmt = 2 then 2 else 1
  match geom with
  | 0 => cdiv (tileBytes fmt sparse) 64 * 64
  | 1 => 512 * el
  | 2 => 1024 * el
  | _ => 64

/-- Region-relative tiles in the store of a descriptor, and sidecars where SADDR is not 0 or it is a BCAST STORE (R167). -/
def descSpans (b : List Byte) : List (Nat × Nat) :=
  let k := leField b 1 1
  let g := bits (leField b 2 1) 1 0
  let n := leField b 4 2
  (64 * leField b 6 2, n * geomBytes g (bits k 3 0) (bit k 6)) ::
    (if leField b 16 8 = 0 ∧ !bit (leField b 3 1) 6 then [] else [(64 * leField b 30 2, n * sideBytes (bits k 3 0) (bits k 5 4) (bit k 6))])

/-- A write into lines of a square that issued engine work still reads leaves what that work reads open (R120). -/
def State.taintSpan (s : State) (sq off n : Nat) : State :=
  let q := s.square sq
  let meets := fun (g : Nat) (f : Group → List (Nat × Nat)) =>
    match s.group g with
    | none => false
    | some y => (f y).any fun r => spansMeet (off, n) (y.base + r.1, r.2)
  let hit := fun (e : EngEntry) => meets e.group fun y => s.engReads y e.op
  let hitD := fun (d : MovDesc) => meets d.group fun _ => [(d.off, 64)]
  let src := fun (b : List Byte) => if leField b 0 1 = 2 then descSpans b else []
  let hitS := fun (d : MovDesc) => meets d.group fun y => src (s.regionRead y d.off 64)
  let mark := fun (d : MovDesc) => { d with taint := d.taint || hitD d, dtaint := d.dtaint || hitS d }
  let markF := fun (f : Flight) => { f with taint := f.taint || meets f.d.group fun _ => src f.desc }
  let mv := fun (m : Mover) => { m with issued := m.issued.map mark, flight := m.flight.map markF }
  let q' := { q with
    queue := q.queue.map (fun e => { e with taint := e.taint || hit e }), mv0 := mv q.mv0, mv1 := mv q.mv1 }
  if q' = q then s else s.setSquare sq q'

/-- A thread store of a group (R120). -/
def State.taintReads (s : State) (x : Group) (off n : Nat) : State := s.taintSpan x.square (x.base + off) n

/-! ## Addresses -/

/-- Bytes of an access size; 5 to 7 are reserved (R92). -/
def szBytes (k : Nat) : Nat := 2 ^ k

/-- Registers of the data of an access size. -/
def szRegs (k : Nat) : Nat := if k = 4 then 4 else if k = 3 then 2 else 1

/-- Lanes at fault, and the address of the lowest. -/
def faulting (ls : List (Nat × Nat)) (p : Nat → Bool) : Option (List Nat × Nat) :=
  match ls.filter fun e => p e.2 with
  | [] => none
  | e :: t => some ((e :: t).map (·.1), e.2)

/-- Format M fields checked: SZ, SCOPE, register fields, and DU with a thread source (R92, R95). -/
def badM (w : Nat) (a d : Reg) (load : Bool) : Bool :=
  decide (4 < fSZ w) || decide (fSCOPE w = 3) || a.badField || d.badField ||
    (fDUi w && ((!a.u && !a.none?) || (!load && !d.u && !d.none?)))

/-- Address field of a Format M instruction. -/
def regAM (w : Nat) (wide : Bool) : Reg := { v := fA w, u := fAUi w, n := nOf wide }

/-- Data field of a Format M instruction. -/
def regDM (w : Nat) : Reg := { v := fD w, u := fDUi w, n := szRegs (fSZ w) }

/-- Extend a loaded value: zeros, or the sign for 8 and 16 bits with SX (R92). -/
def extend (w v : Nat) : Nat :=
  if fSX w ∧ fSZ w < 2 then ofSigned 32 (toSigned (8 * szBytes (fSZ w)) v) else v

/-- Store data of a lane: the registers, or the literal word, in both halves for 128 bits (R89). -/
def Ctx.storeData (c : Ctx) (lane : Nat) : Nat :=
  let d := regDM c.w
  let v := if d.none? then c.lit + 2 ^ 64 * c.lit
    else ((List.range d.n).map fun k =>
      (if d.u then c.ls.ureg (d.v + k) else c.ls.reg lane (d.v + k)) * 2 ^ (32 * k)).sum
  v % 2 ^ (8 * szBytes (fSZ c.w))

/-- Status of an exception cause (R129). -/
def causeStatus (k : Nat) : Status :=
  if k = 4 ∨ k = 5 then .accessDenied else if k = 6 then .eccUncorrectable else .internalError

/-- The exception that lanes at fault raise, each with its cause and address: the lowest cause number, with the lanes of that cause and
the address of the lowest (R131, R132); none where no lane is at fault. -/
def State.raiseLanes (s : State) (c : Ctx) (l : List (Nat × Nat × Nat)) : Option State :=
  match l with
  | [] => none
  | e :: t =>
    let k := t.foldl (fun k e => Nat.min k e.2.1) e.2.1
    let bad := (e :: t).filter fun e => e.2.1 == k
    some (s.except c k (causeStatus k) (bad.map (·.1)) ((bad.head?.map fun e => e.2.2).getD 0) 0)

/-- Reads of `n` bytes at region offsets: words with one wrong bit are corrected, lines with more become poisoned (R52). -/
def State.scanLanes (s : State) (x : Group) (as : List (Nat × Nat)) (n : Nat) : State :=
  as.foldl (fun s e => s.storeScan x.square (x.base + e.2) n) s

/-- Whether one of the lanes' accesses of `n` bytes, aligned and inside the region, meets a poisoned line. -/
def State.lanesPoisoned (s : State) (x : Group) (as : List (Nat × Nat)) (n : Nat) : Bool :=
  as.any fun e => decide (e.2 % n = 0) && x.holds e.2 n && s.storePoisoned x.square (x.base + e.2) n

/-- Lanes at fault in a store access of `n` bytes: EX_MISALIGNED, or EX_STORE_RANGE where `ok` does not hold (R100, R123). -/
def laneFaults (as : List (Nat × Nat)) (n : Nat) (ok : Nat → Bool) : List (Nat × Nat × Nat) :=
  as.filterMap fun e => if e.2 % n ≠ 0 then some (e.1, 3, e.2) else if ok e.2 then none else some (e.1, 4, e.2)

/-- Bank-conflict retries of one access: the lines that lanes reach in one bank beyond its first (R50, R51, R86; log entry 68). -/
def bankRetries (lines : List Nat) : Nat :=
  ((List.range 24).map fun b => ((lines.eraseDups.filter fun l => l % 24 == b).length) - 1).sum

/-- Count the bank-conflict retries of the lanes' accesses. -/
def State.countBanks (s : State) (x : Group) (as : List (Nat × Nat)) : State :=
  s.perfCount x.square 0x04 (bankRetries (as.map fun e => (x.base + e.2) / 64))

/-- Store offsets of the executing lanes of LDS and STS: address plus offset modulo 2^32 (R92). -/
def Ctx.storeAddrs (c : Ctx) (ls : List Nat) : List (Nat × Nat) :=
  ls.map fun i => (i, ofSigned 32 (c.read i (regAM c.w false) + fOFF c.w))

/-- Virtual addresses of the executing lanes of LDG and STG. -/
def Ctx.globalAddrs (c : Ctx) (ls : List Nat) : List (Nat × Nat) :=
  ls.map fun i => (i, ofSigned 64 (c.read i (regAM c.w true) + fOFF c.w))

/-- LDS (R92, R100, R119): a poisoned line is a square fault, which goes before an exception (R132); a misaligned lane raises
EX_MISALIGNED, one outside the region EX_STORE_RANGE. -/
def execLds (g l : Nat) (s : State) : Out :=
  .next (s.meet g l 0x140 fun s c =>
    let a := regAM c.w false
    let d := regDM c.w
    let n := szBytes (fSZ c.w)
    if badM c.w a d true then s.exOpcode c
    else s.operands c [a] [a, d] fun s =>
      let as := c.storeAddrs (c.runLanes (fDUi c.w))
      let s1 := s.scanLanes c.x as n
      if s1.lanesPoisoned c.x as n then s1.squareFault c.x.square
      else match s1.raiseLanes c (laneFaults as n fun x => c.x.holds x n) with
        | some t => t
        | none =>
          let ls := as.foldl (fun ls e => ls.write e.1 d (extend c.w (leNat (s.regionRead c.x e.2 n)))) c.ls
          (s1.countBanks c.x as).retire c ls (wordsOf [a]))

/-- STS (R92, R100, R119): lanes store in ascending order, so the highest lane's value remains. -/
def execSts (g l : Nat) (s : State) : Out :=
  .next (s.meet g l 0x141 fun s c =>
    let a := regAM c.w false
    let d := regDM c.w
    let n := szBytes (fSZ c.w)
    if badM c.w a d false then s.exOpcode c
    else s.operands c [a, d] [a, d] fun s =>
      let as := c.storeAddrs (c.runLanes (fDUi c.w))
      match s.raiseLanes c (laneFaults as n fun x => c.x.data x n) with
      | some t => t
      | none =>
        let s1 := as.foldl (fun s e =>
          (s.taintReads c.x e.2 n).regionWrite c.x e.2 (leBytes n (c.storeData e.1))) (s.countBanks c.x as)
        (s1.retire c c.ls (wordsOf [a, d])).noteConsumed g as n)

/-- Function of a group's job. -/
def State.ctxFn (s : State) (c : Ctx) : Nat := ((s.job c.x.job).map Job.fn).getD 0

/-- Cause 5 or 6 of a failed access: EX_POISON for poisoned data or a poisoned table entry (R129, R163). -/
def VaErr.cause : VaErr → Nat
  | .xlat c => if c = 7 then 6 else 5
  | .poison => 6
  | .held => 0

/-- Whether an access stalls on a memory that does not serve (R213). -/
def VaErr.isHeld : VaErr → Bool
  | .held => true
  | _ => false

/-- What one lane's global read meets. -/
def State.vaFail (s : State) (fn va n : Nat) : Option VaErr :=
  match s.vaBytes fn va n 2 with
  | .ok _ => none
  | .error e => some e

/-- What one lane's global write or atomic meets; an atomic on host memory fails (R123, R163). -/
def State.vaFailW (s : State) (fn va : Nat) (acc : Acc) : Option VaErr :=
  match s.translate fn va acc with
  | .error c => some (.ofCause c)
  | .ok (tier, _) =>
    if tier = 2 ∧ acc = .atomic then some (.xlat 2)
    else if tier = 0 ∧ !s.memOn then some .held else none

/-- Lanes at fault in a global access: misaligned, or failing with cause 5 or 6 (R129). -/
def globalFaults (as : List (Nat × Nat)) (n : Nat) (fail : Nat → Option VaErr) : List (Nat × Nat × Nat) :=
  as.filterMap fun e =>
    if e.2 % n ≠ 0 then some (e.1, 3, e.2)
    else match fail e.2 with
      | some x => if x.isHeld then none else some (e.1, x.cause, e.2)
      | none => none

/-- A global access of `n` bytes in some lanes: the MMU's traces, then the lanes at fault; it waits on a memory that does not serve,
ACCESS_DENIED being recorded where that is HELD (R213), and on a channel in training (R210); `k` performs it. -/
def State.global (s : State) (c : Ctx) (as : List (Nat × Nat)) (n : Nat) (acc : Acc) (fail : Nat → Option VaErr) (k : State → State) :
    State :=
  let bad := globalFaults as n fail
  let s1 := if bad.any (fun e => e.2.1 == 3) then s else as.foldl (fun s e => s.vaTrace (s.ctxFn c) .thread e.2 n acc) s
  match s1.raiseLanes c bad with
  | some t => t
  | none => if as.any (fun e => (fail e.2).isSome || s.inTraining (s.ctxFn c) e.2 acc) then s.noteHeld else k s1

/-- LDG (R121, R123, R129): EX_MISALIGNED, EX_ACCESS or EX_POISON by the lanes at fault; it waits on a HELD memory (R213). -/
def execLdg (g l : Nat) (s : State) : Out :=
  .next (s.meet g l 0x142 fun s c =>
    let a := regAM c.w true
    let d := regDM c.w
    let n := szBytes (fSZ c.w)
    if badM c.w a d true then s.exOpcode c
    else s.operands c [a] [a, d] fun s =>
      let fn := s.ctxFn c
      let as := c.globalAddrs (c.runLanes (fDUi c.w))
      s.global c as n .read (fun x => s.vaFail fn x n) fun s1 =>
        let ls := as.foldl (fun ls e => match s.vaBytes fn e.2 n 2 with
          | .ok b => ls.write e.1 d (extend c.w (leNat b))
          | .error _ => ls) c.ls
        s1.retire c ls (wordsOf [a]))

/-- STG (R121, R123, R129). Nothing is stored where a lane is at fault (log entry 15). Accesses to different addresses, which may perform
in any order, and the two atoms of a 128-bit access perform here as the instruction issues, in program order (DESIGN CHOICE, log entry
68). -/
def execStg (g l : Nat) (s : State) : Out :=
  .next (s.meet g l 0x143 fun s c =>
    let a := regAM c.w true
    let d := regDM c.w
    let n := szBytes (fSZ c.w)
    if badM c.w a d false then s.exOpcode c
    else s.operands c [a, d] [a, d] fun s =>
      let fn := s.ctxFn c
      let as := c.globalAddrs (c.runLanes (fDUi c.w))
      s.global c as n .write (fun x => s.vaFailW fn x .write) fun s1 =>
        (as.foldl (fun s e => s.vaPut fn e.2 (leBytes n (c.storeData e.1)) 2) s1).retire c c.ls (wordsOf [a, d]))

/-! ## Atomics (R103, R119, R123) -/

/-- New value of an atomic: ADD, MIN, MAX, AND, OR, XOR, EXCH, CAS, which compares with C and writes B. -/
def atomFn (t : Ty) (k old b c : Nat) : Nat :=
  match k with
  | 0 => if t = .fp32 then fpAdd old b else (old + b) % 2 ^ t.width
  | 1 => if t.toInt old ≤ t.toInt b then old else b
  | 2 => if t.toInt old ≤ t.toInt b then b else old
  | 3 => old &&& b
  | 4 => old ||| b
  | 5 => old ^^^ b
  | 6 => b
  | _ => if old = c then b else old

/-- Types of an atomic: the integers, and FP32 for ATG ADD (R103). ATS does not accept FP32, of which the rule speaks for ATG only
(DESIGN CHOICE, log entry 68). -/
def atomTy (global : Bool) (t : Ty) (k : Nat) : Bool := t.isInt || (global && t == .fp32 && k == 0)

/-- Fields of an atomic: destination, address, operand, and the comparand of CAS. -/
def atomRegs (w : Nat) (t : Ty) (global : Bool) : Reg × Reg × Reg × Reg :=
  ({ v := fD w, u := fDU w, n := nOf t.wide }, { v := fA w, u := fAU w, n := nOf global },
   { v := fB w, u := fBU w, n := nOf t.wide }, { v := fC w, u := fCU w, n := nOf t.wide })

/-- Source fields of an atomic. -/
def atomSrcs (w : Nat) (t : Ty) (global : Bool) : List Reg :=
  let r := atomRegs w t global
  if fRM w = 7 then [r.2.1, r.2.2.1, r.2.2.2] else [r.2.1, r.2.2.1]

/-- Whether an atomic's encoding raises EX_OPCODE. -/
def atomBad (w : Nat) (t : Ty) (global : Bool) : Bool :=
  !atomTy global t (fRM w) || decide (bits w 3 0 ≠ 0) || (atomSrcs w t global).any (fun r => r.badField) ||
    (fDU w && decide (64 ≤ fD w)) || (fDU w && (atomSrcs w t global).any fun r => !r.u && !r.none?)

/-- One lane's atomic on a word of the group's region. -/
def atsLane (c : Ctx) (t : Ty) (st : State × Laneset) (e : Nat × Nat) : State × Laneset :=
  let r := atomRegs c.w t false
  let n := t.width / 8
  let old := leNat (st.1.regionRead c.x e.2 n)
  let v := atomFn t (fRM c.w) old (c.read e.1 r.2.2.1) (if fRM c.w = 7 then c.read e.1 r.2.2.2 else 0)
  ((st.1.taintReads c.x e.2 n).regionWrite c.x e.2 (leBytes n v), st.2.write e.1 r.1 old)

/-- ATS: an atomic on a 32- or 64-bit word of the square store, lanes in ascending order (R119, R123). -/
def execAts (g l : Nat) (s : State) : Out :=
  .next (s.meet g l 0x148 fun s c =>
    match tyOf (fTY c.w) with
    | none => s.exOpcode c
    | some t =>
      if atomBad c.w t false then s.exOpcode c
      else s.operands c (atomSrcs c.w t false) ((atomRegs c.w t false).1 :: atomSrcs c.w t false) fun s =>
        let n := t.width / 8
        let as := (c.runLanes (fDU c.w)).map fun i => (i, c.read i (atomRegs c.w t false).2.1)
        let s1 := s.scanLanes c.x as n
        if s1.lanesPoisoned c.x as n then s1.squareFault c.x.square
        else match s1.raiseLanes c (laneFaults as n fun x => c.x.data x n) with
          | some t => t
          | none =>
            let r := as.foldl (atsLane c t) (s1.countBanks c.x as, c.ls)
            (r.1.retire c r.2 (wordsOf (atomSrcs c.w t false))).noteConsumed g as n)

/-- One lane's atomic on a global word. -/
def atgLane (c : Ctx) (t : Ty) (fn : Nat) (st : State × Laneset) (e : Nat × Nat) : State × Laneset :=
  let r := atomRegs c.w t true
  let n := t.width / 8
  match st.1.vaBytes fn e.2 n 2 with
  | .error _ => st
  | .ok b =>
    let old := leNat b
    let v := atomFn t (fRM c.w) old (c.read e.1 r.2.2.1) (if fRM c.w = 7 then c.read e.1 r.2.2.2 else 0)
    (st.1.vaPut fn e.2 (leBytes n v) 2, st.2.write e.1 r.1 old)

/-- What a global atomic of a lane meets. -/
def State.atgFail (s : State) (fn va n : Nat) : Option VaErr :=
  match s.vaFailW fn va .atomic with
  | some e => some e
  | none => s.vaFail fn va n

/-- ATG: an atomic on a 32- or 64-bit global word; on host memory it raises EX_ACCESS (R123). -/
def execAtg (g l : Nat) (s : State) : Out :=
  .next (s.meet g l 0x149 fun s c =>
    match tyOf (fTY c.w) with
    | none => s.exOpcode c
    | some t =>
      if atomBad c.w t true then s.exOpcode c
      else s.operands c (atomSrcs c.w t true) ((atomRegs c.w t true).1 :: atomSrcs c.w t true) fun s =>
        let n := t.width / 8
        let fn := s.ctxFn c
        let as := (c.runLanes (fDU c.w)).map fun i => (i, c.read i (atomRegs c.w t true).2.1)
        s.global c as n .atomic (fun x => s.atgFail fn x n) fun s1 =>
          let r := as.foldl (atgLane c t fn) (s1, c.ls)
          r.1.retire c r.2 (wordsOf (atomSrcs c.w t true)))

/-! ## Semaphores (R126) -/

/-- Address and value fields of SEMP and SEMW. -/
def semRegs (w : Nat) : Reg × Reg :=
  ({ v := fA w, u := fAU w, n := nOf (bit w 3) }, { v := fB w, u := fBU w })

/-- What a lane's access to a semaphore word meets: cause and address of the exception, 0 for a memory that does not serve. SEMP is an
access that writes; host memory serves it, since only ATG is refused there (R123, R129). Poisoned data or a poisoned table entry raises
EX_POISON for SEMP too, of which R129 and R206 do not speak (DESIGN CHOICE, log entry 68). -/
def State.semFault (s : State) (c : Ctx) (write : Bool) (a : Nat) : Option (Nat × Nat) :=
  if a % 4 ≠ 0 then some (3, a)
  else if bit c.w 3 then
    match (if write then (s.vaFailW (s.ctxFn c) a .write).orElse fun _ => s.vaFail (s.ctxFn c) a 4 else s.vaFail (s.ctxFn c) a 4) with
    | some e => some (e.cause, a)
    | none => none
  else if if write then c.x.data a 4 else c.x.holds a 4 then none
  else some (4, a)

/-- The semaphore word at an address that can be read. -/
def State.semWord (s : State) (c : Ctx) (a : Nat) : Nat :=
  if bit c.w 3 then match s.vaBytes (s.ctxFn c) a 4 2 with
    | .ok b => leNat b
    | .error _ => 0
  else leNat (s.regionRead c.x a 4)

/-- Access semaphore words in some lanes: a poisoned store line is a square fault, lanes at fault raise the lowest cause, a memory that
does not serve stalls the laneset; `k` goes on (R132, R213). -/
def State.semAccess (s : State) (c : Ctx) (as : List (Nat × Nat)) (write : Bool) (k : State → State) : State :=
  let s1 := if bit c.w 3 then as.foldl (fun s e => s.vaTrace (s.ctxFn c) .thread e.2 4 (if write then .write else .read)) s
    else s.scanLanes c.x as 4
  if !bit c.w 3 && s1.lanesPoisoned c.x as 4 then s1.squareFault c.x.square
  else
    let bad := as.filterMap fun e => (s.semFault c write e.2).map fun f => (e.1, f)
    match s1.raiseLanes c (bad.filter fun e => e.2.1 != 0) with
    | some t => t
    | none =>
      let waits := bit c.w 3 && as.any fun e => s.inTraining (s.ctxFn c) e.2 (if write then .write else .read)
      if bad.isEmpty && !waits then k s1 else s.noteHeld

/-- Set p[PD] in every lane. -/
def Laneset.setAll (ls : Laneset) (p : Nat) (b : Bool) : Laneset :=
  (List.range 32).foldl (fun ls i => ls.setPred i p b) ls

/-- Whether a SEMW's encoding raises EX_OPCODE: TMO 0 among others. -/
def semwBad (w : Nat) : Bool :=
  decide (bits w 25 14 = 0) || decide (bits w 2 0 ≠ 0) || decide (3 < fRM w) || (semRegs w).1.badField || (semRegs w).2.badField ||
    mixedDU w [(semRegs w).1, (semRegs w).2]

/-- Whether a SEMP's encoding raises EX_OPCODE: bits [25:14] are reserved. -/
def sempBad (w : Nat) : Bool :=
  decide (bits w 25 14 ≠ 0) || decide (bits w 2 0 ≠ 0) || decide (3 < fRM w) || (semRegs w).1.badField || (semRegs w).2.badField ||
    mixedDU w [(semRegs w).1, (semRegs w).2]

/-- SEMW: p[PD] := true once (word − B) as a signed difference is at least 0; until then the laneset waits (R126). It runs once for its
laneset, on the operands of the lowest executing lane. -/
def execSemw (g l : Nat) (s : State) : Out :=
  .next (s.meet g l 0x202 fun s c =>
    let r := semRegs c.w
    if semwBad c.w then s.exOpcode c
    else s.operands c [r.1, r.2] [r.1, r.2] fun s => match c.lanes with
      | [] => s.retire c c.ls (wordsOf [r.1, r.2])
      | i :: _ => s.semAccess c [(i, c.read i r.1)] false fun s =>
          if sub32 (s.semWord c (c.read i r.1)) (c.read i r.2) < 2 ^ 31 then
            s.retire c { c.ls.setAll (fPD c.w) true with sem := none } (wordsOf [r.1, r.2])
          else s.setLaneset g l { c.ls with sem := some (c.ls.sem.getD (s.fileCyc (sqFile c.x.square))) })

/-- SEMW_TIMEOUT: TMO × 8 square cycles have passed without the condition, so p[PD] is set false (R126). -/
def execSemwTimeout (g l : Nat) (s : State) : Out :=
  .next (s.meet g l 0x202 fun s c =>
    match c.ls.sem with
    | none => s
    | some t =>
      if s.fileCyc (sqFile c.x.square) - t < bits c.w 25 14 * 8 * 250 then s
      else
        let r := semRegs c.w
        s.retire c { c.ls.setAll (fPD c.w) false with sem := none } (wordsOf [r.1, r.2]))

/-- One lane's SEMP. -/
def sempLane (c : Ctx) (s : State) (e : Nat × Nat) : State :=
  let b := leBytes 4 (add32 (s.semWord c e.2) (c.read e.1 (semRegs c.w).2))
  if bit c.w 3 then s.vaPut (s.ctxFn c) e.2 b 2 else (s.taintReads c.x e.2 4).regionWrite c.x e.2 b

/-- SEMP: atomically adds B to the word, lanes in ascending order; with DU once for its laneset (R97, R126). -/
def execSemp (g l : Nat) (s : State) : Out :=
  .next (s.meet g l 0x203 fun s c =>
    let r := semRegs c.w
    if sempBad c.w then s.exOpcode c
    else s.operands c [r.1, r.2] [r.1, r.2] fun s =>
      let as := (c.runLanes (fDU c.w)).map fun i => (i, c.read i r.1)
      s.semAccess c as true fun s =>
        let t := (as.foldl (sempLane c) s).retire c c.ls (wordsOf [r.1, r.2])
        if bit c.w 3 then t else t.noteConsumed g as 4)

end Sys2Proof.Machine
end

