-- ==== Sys2Proof/Machine/Engine.lean ====
section
/-! DEFINITION. What the engine instructions and the engines share: the engine queue (R41, R53), the matrix lease (R118), the
operands (R110, R138 to R144), and the end of a group whose engine work is done (R109). -/

namespace Sys2Proof.Machine

/-! ## The engine queue -/

/-- Whether an entry is a TMV for a mover. -/
def EngEntry.isTmv (e : EngEntry) (mv : Nat) : Bool :=
  match e.op with
  | .tmv m _ _ _ => m == mv
  | _ => false

/-- Hand the first waiting TMV entry of a mover over, while the mover holds fewer than 16 descriptors (R53). -/
def Square.feed (x : Square) (mv : Nat) : Nat → Square
  | 0 => x
  | fuel + 1 =>
    if 16 ≤ (x.mover mv).held then x
    else match x.queue.find? (fun e => e.isTmv mv) with
      | none => x
      | some e => match e.op with
        | .tmv _ off seq stamp =>
          let d : MovDesc := {
            group := e.group, lset := e.lset, pc := e.pc, off := off, seq := seq, stamp := stamp, taint := e.taint, ord := e.ord }
          let m := x.mover mv
          let x' := ({ x with queue := x.queue.erase e }).setMover mv { m with issued := m.issued ++ [d] }
          x'.feed mv fuel
        | _ => x

/-- Put an entry into the engine queue of the group's square (R41). -/
def State.enqueue (s : State) (c : Ctx) (op : EngOp) (taint : Bool) : State :=
  let x := s.square c.x.square
  let e : EngEntry := { group := c.g, lset := c.l, pc := c.ls.pc, op := op, taint := taint, ord := x.issues }
  s.setSquare c.x.square (((({ x with queue := x.queue ++ [e], issues := x.issues + 1 }).feed 0 16)).feed 1 16)

/-- Whether the engine queue is full, so that the laneset stalls (R41). -/
def State.engFull (s : State) (sq : Nat) : Bool := decide (16 ≤ (s.square sq).queue.length)

/-- Take the matrix lease, or find it held by another group (R118). -/
def State.takeLease (s : State) (c : Ctx) : Option State :=
  let x := s.square c.x.square
  match x.lease with
  | some g => if g = c.g then some s else none
  | none => some (s.setSquare c.x.square { x with lease := some c.g, acc := [], accInt := 0#8, smx := [] })

/-- Run an instruction once for its laneset, if its guard is true in an active lane (R97); an encoding that `bad` refuses raises
EX_OPCODE as it reaches issue, whatever the guard (R95). -/
def State.meetU (s : State) (g l op : Nat) (bad : Nat → Bool) (f : State → Ctx → State) : State :=
  s.meet g l op fun s c => if bad c.w then s.exOpcode c else if c.lanes.isEmpty then s.retire c c.ls 1 else f s c

/-- Issue a matrix or drain instruction: it stalls on a full queue or on another group's lease. -/
def State.issue (s : State) (c : Ctx) (op : EngOp) (taint : Bool) : State :=
  if s.engFull c.x.square then s
  else match s.takeLease c with
    | none => s
    | some s1 => (s1.enqueue c op taint).retire c c.ls 1

/-- Raise an exception against an engine instruction that has entered the queue (R130). -/
def State.exceptEng (s : State) (g lset pc cause : Nat) (st : Status) (addr : Nat) : State :=
  let e : Exc := {
    cause := cause, status := st, pc := pc, lset := lset, addr := addr, precise := false, engine := true }
  (s.raiseExc g e).settleQueues

/-- A group ends when all its lanesets have ended and no engine work of it is outstanding (R109, R130). -/
def State.settleGroup (s : State) (g : Nat) : State :=
  match s.group g with
  | none => s
  | some x =>
    if (x.lanesets.all fun e => e.2.ended) && x.st != .suspended && !(s.square x.square).outstanding g then
      (s.endGroup g).settleQueues
    else s

/-! ## Tile operands (R138 to R144) -/

/-- Element codes of tile lines, in storage order: `n` elements of width `w` in each of 32 lines (R136, R158). -/
def tileCodes (w n : Nat) (b : List Byte) : List Nat :=
  (List.range 32).flatMap fun i =>
    let line := leNat ((b.drop (i * (n * w / 8))).take (n * w / 8))
    (List.range n).map fun k => line / 2 ^ (w * k) % 2 ^ w

/-- Number the escapes of FP4E codes in storage order: each code with the count of escapes before it (R138). -/
def numberEscapes : List Nat → Nat → List (Nat × Nat)
  | [], _ => []
  | c :: t, k => (c, k) :: numberEscapes t (if c = 8 then k + 1 else k)

/-- A tile as a matrix step sees it. -/
structure TileIn where
  ty : Ty := .e4m3
  scm : Nat := 0
  sparse : Bool := false
  codes : List (Nat × Nat) := []
  side : List Byte := []
  deriving DecidableEq, Repr, Inhabited

/-- TSCALE of a sidecar (R142). -/
def TileIn.tscale (t : TileIn) : FVal := fpVal (leField t.side 64 4)

/-- Whether TSCALE is present. -/
def TileIn.hasT (t : TileIn) : Bool := t.scm == 2 || t.ty == .fp4e

/-- Whether every element of the tile reads as NaN: TSCALE not finite, or OCOUNT above 16 (R140, R141). -/
def TileIn.allNan (t : TileIn) : Bool :=
  (t.hasT && (match t.tscale with
    | .fin _ _ _ => false
    | _ => true)) || (t.ty == .fp4e && decide (16 < leField t.side 68 1))

/-- Scale of a block: line `i`, logical K element `k`; NaN, or none for SCM 0 (R141). -/
def TileIn.scale (t : TileIn) (i k : Nat) : Option FVal :=
  match t.scm with
  | 1 =>
    let x := leField t.side i 1
    if x = 0xFF then some .nan else some (.fin false 1 ((x : Int) - 127))
  | 2 =>
    let x := leField t.side (2 * i + k / 16) 1
    if 0x7F ≤ x then some .nan else some (fmtE4m3.decode x)
  | _ => none

/-- Value of the element stored at position `j` of line `i`, which is logical K element `k` (R138 to R141, log entry 16). An escaped FP4E
element of a block whose scale is NaN reads as NaN (DESIGN CHOICE, log entry 68). -/
def TileIn.at (t : TileIn) (i j k : Nat) : FVal :=
  let n := if t.sparse then 16 else 32
  let c := t.codes.getD (i * n + j) (0, 0)
  let sc := t.scale i k
  if t.allNan || sc == some .nan then .nan
  else if t.ty = .fp4e ∧ c.1 = 8 then
    if leField t.side 68 1 ≤ c.2 then .nan
    else FVal.mul (fmtE4m3.decode (leField t.side (72 + c.2) 1)) t.tscale
  else match sc with
    | none => t.ty.value c.1
    | some x => if x.isZero then .fin false 0 0
      else
        let v := FVal.mul (t.ty.value c.1) x
        if t.scm = 2 then FVal.mul v t.tscale else v

/-- Positions of the kept elements of a row, as META gives them (R143). -/
def TileIn.meta (t : TileIn) (i : Nat) : List Nat :=
  let w := leField t.side (128 + 4 * i) 4
  (List.range 16).map fun j => bits w (2 * j + 1) (2 * j)

/-- Whether a row's metadata break the order of R144. -/
def TileIn.badRow (t : TileIn) (i : Nat) : Bool :=
  t.sparse && (List.range 8).any fun g => decide ((t.meta i).getD (2 * g + 1) 0 ≤ (t.meta i).getD (2 * g) 0)

/-- The 32 logical K values of a line. -/
def TileIn.line (t : TileIn) (i : Nat) : List FVal :=
  if !t.sparse then (List.range 32).map fun k => t.at i k k
  else
    let ps := t.meta i
    (List.range 32).map fun k =>
      match (List.range 2).find? fun h => ps.getD (2 * (k / 4) + h) 0 == k % 4 with
      | some h => t.at i (2 * (k / 4) + h) k
      | none => .fin false 0 0

/-- A tile operand as it stands in a group's region. -/
def State.tileIn (s : State) (y : Group) (fmt : Nat) (sparse : Bool) (w : Nat) : TileIn :=
  let ty := (tyOf fmt).getD .e4m3
  let n := if sparse then 16 else 32
  { ty := ty, scm := opSCM w, sparse := sparse,
    codes := numberEscapes (tileCodes ty.width n (s.regionRead y (64 * opTILE w) (tileBytes fmt sparse))) 0,
    side := s.regionRead y (64 * opSIDE w) (sideBytes fmt (opSCM w) sparse) }

/-! ## Accumulators (R45, R112, R145, R146) -/

/-- Replace the values of `n` consecutive keys of a table. -/
def blockSet {α : Type} [DecidableEq α] (d : α) (l : List (Nat × α)) (lo : Nat) (vs : List α) : List (Nat × α) :=
  (l.filter fun e => decide (e.1 < lo)) ++
    ((vs.zipIdx.map fun v => (lo + v.2, v.1)).filter fun e => decide (e.2 ≠ d)) ++
    (l.filter fun e => decide (lo + vs.length ≤ e.1))

/-- The cell (r, c) of an accumulator. -/
def Square.cell (x : Square) (acc r c : Nat) : Nat := (assocGet 0#32 x.acc (acc * 1024 + 32 * r + c)).toNat

/-- Kind INT of an accumulator. -/
def Square.isInt (x : Square) (acc : Nat) : Bool := bit x.accInt.toNat acc

/-- Replace an accumulator and its kind. -/
def Square.setAcc (x : Square) (acc : Nat) (int : Bool) (vs : List Word) : Square :=
  { x with
    acc := blockSet 0#32 x.acc (acc * 1024) vs,
    accInt := BitVec.ofNat 8 (withBits x.accInt.toNat acc acc (if int then 1 else 0)) }

/-- Sum of exact products in the manner of R145: NaN, an infinity, or the products cut to 31 bits below the largest. -/
def stepSum (ps : List FVal) : FVal :=
  if ps.any FVal.isNan then .nan
  else if ps.contains (.inf false) && ps.contains (.inf true) then .nan
  else if ps.contains (.inf false) then .inf false
  else if ps.contains (.inf true) then .inf true
  else
    let lead := ps.filterMap fun p => match p with
      | .fin _ m e => if m = 0 then none else some (e + (Nat.log2 m : Int))
      | _ => none
    match lead with
    | [] => .fin false 0 0
    | e0 :: t =>
      let q := (t.foldl max e0) - 30
      let cut := fun (p : FVal) => match p with
        | .fin sg m e => let n : Int := roundTo 1 sg m e q 0
                         if sg then -n else n
        | _ => (0 : Int)
      FVal.ofInt ((ps.map cut).sum) q false

/-- A whole number that a value holds. -/
def FVal.int : FVal → Int
  | .fin sg m e => let n : Int := m * 2 ^ e.toNat
                   if sg then -n else n
  | _ => 0

/-- Saturate to S32 (R146). -/
def sat32 (v : Int) : Word := BitVec.ofNat 32 (ofSigned 32 (max (-(2 ^ 31)) (min (2 ^ 31 - 1) v)))

/-- One cell of a matrix step (R145, R146). -/
def stepCell (int z : Bool) (old : Nat) (a b : List FVal) : Word :=
  let ps := List.zipWith FVal.mul a b
  if int then sat32 ((if z then 0 else toSigned 32 old) + (ps.map FVal.int).sum)
  else
    let sum := stepSum ps
    BitVec.ofNat 32 (fpCode (if z then sum else FVal.add 0 (fpVal old) sum))

/-- Kind that an operand format implies: integer formats give INT (R112). -/
def fmtInt (f : Nat) : Bool := f == 9 || f == 10

/-- All cells of a matrix step, row by row; a row whose metadata break R144 is NaN. -/
def stepCells (x : Square) (acc : Nat) (int z : Bool) (a b : TileIn) : List Word :=
  let cols := (List.range 32).map fun j => b.line j
  (List.range 32).flatMap fun i =>
    let row := a.line i
    cols.zipIdx.map fun c =>
      if a.badRow i then BitVec.ofNat 32 fmtFp32.nanCode else stepCell int z (x.cell acc i c.2) row c.1

end Sys2Proof.Machine
end

