-- ==== Sys2Proof/Machine/IsaEng.lean ====
section
/-! DEFINITION. Ferlith engine issue (R110 to R118), barriers, fences and bundle boundaries (R122, R125, R127, R128). -/

namespace Sys2Proof.Machine

/-! ## Matrix and drain issue -/

/-- Scale modes that an operand format accepts (R111). -/
def scmOk (fmt scm : Nat) : Bool :=
  if fmt = 1 ∨ fmt = 2 ∨ fmt = 9 ∨ fmt = 10 then scm == 0 else scm == 1 || scm == 2

/-- Formats that MMA and MMASP accept (R111, R144). -/
def mmaFmtOk (sparse : Bool) (f : Nat) : Bool :=
  if sparse then f == 3 || f == 4 || f == 7 else decide (1 ≤ f) && decide (f ≤ 10)

/-- Ranges of its region that a group's movers and drains still write (R120). -/
def State.groupWrites (s : State) (g : Nat) (y : Group) : List (Nat × Nat) :=
  let q := s.square y.square
  let fetch := fun (b : List Byte) => if leField b 0 1 = 1 then descSpans b else []
  let mv := fun (m : Mover) =>
    ((m.issued.filter fun d => d.group == g).flatMap fun d => fetch (s.regionRead y d.off 64)) ++
      (match m.flight with
        | some f => if f.d.group = g then fetch f.desc else []
        | none => [])
  (q.queue.flatMap fun e => if e.group ≠ g then [] else match e.op with
    | .drn _ ctl out ops => s.drnWrites y ctl out.toNat ops.toNat
    | .tmv _ off _ _ => fetch (s.regionRead y off 64)
    | _ => []) ++ mv q.mv0 ++ mv q.mv1

/-- Whether an engine operation reads what its group's engine work still writes. -/
def State.readsPending (s : State) (c : Ctx) (op : EngOp) : Bool :=
  (s.engReads c.x op).any fun r => (s.groupWrites c.g c.x).any fun w => spansMeet r w

/-- Whether the encoding of MMA or MMASP raises EX_OPCODE (R95, R111). -/
def mmaBad (sparse : Bool) (w : Nat) : Bool :=
  let fa := bits w 45 42
  let fb := bits w 41 38
  decide (bits w 25 0 ≠ 0) || !mmaFmtOk sparse fa || !mmaFmtOk sparse fb || fmtInt fa != fmtInt fb

/-- MMA and MMASP (R111). -/
def State.issueMma (s : State) (g l op : Nat) (sparse : Bool) : State :=
  s.meetU g l op (mmaBad sparse) fun s c =>
    let fa := bits c.w 45 42
    let fb := bits c.w 41 38
    let a := c.ls.ureg (bits c.w 37 32)
    let b := c.ls.ureg (bits c.w 31 26)
    if !scmOk fa (opSCM a) || !scmOk fb (opSCM b) || decide (bits a 31 30 ≠ 0) || decide (bits b 31 30 ≠ 0) then s.exOpcode c
    else
      let e : EngOp := .mma sparse (bits c.w 49 47) (bit c.w 46) fa fb (BitVec.ofNat 32 a) (BitVec.ofNat 32 b)
      s.issue c e (s.readsPending c e)

/-- MMA: a matrix step enters the engine queue. -/
def execMma (g l : Nat) (s : State) : Out := .next (s.issueMma g l 0x1C0 false)

/-- MMASP: a 2:4 sparse matrix step enters the engine queue. -/
def execMmasp (g l : Nat) (s : State) : Out := .next (s.issueMma g l 0x1C1 true)

/-- MLD: an accumulator load enters the engine queue; only TILE of its operand is used (R112). -/
def execMld (g l : Nat) (s : State) : Out :=
  .next (s.meetU g l 0x1C2 (fun w => decide (bits w 45 38 ≠ 0) || decide (bits w 31 0 ≠ 0)) fun s c =>
    let e : EngOp := .mld (bits c.w 49 47) (bit c.w 46) (BitVec.ofNat 32 (c.ls.ureg (bits c.w 37 32)))
    s.issue c e (s.readsPending c e))

/-- Whether a drain's fields raise EX_OPCODE at issue: reserved ACT, OFMT or RM codes; SMX with REC, or with an integer
output (R113, R293). -/
def drnBad (w : Nat) : Bool :=
  let k := bits w 46 29
  decide (bits w 16 0 ≠ 0) || decide (8 < ctlACT k) || !(decide (ctlOFMT k ≤ 9) || ctlOFMT k == 0xB) ||
    !(ctlRM k == 0 || ctlRM k == 4) || (ctlSMX k && (ctlREC k || ctlOFMT k == 9 || ctlOFMT k == 0xB))

/-- DRN: a drain enters the engine queue. -/
def execDrn (g l : Nat) (s : State) : Out :=
  .next (s.meetU g l 0x1E0 drnBad fun s c =>
    let e : EngOp := .drn (bits c.w 49 47) (bits c.w 46 29) (BitVec.ofNat 32 (c.ls.ureg (bits c.w 28 23)))
      (BitVec.ofNat 32 (c.ls.ureg (bits c.w 22 17)))
    s.issue c e false)

/-! ## Movers -/

/-- TMV: the descriptor's offset enters the queue with the tick, and UT receives the ticket (R115). -/
def execTmv (g l : Nat) (s : State) : Out :=
  .next (s.meetU g l 0x1F0 (fun w => bit w 48 || decide (bits w 35 0 ≠ 0)) fun s c =>
    if s.engFull c.x.square then s
    else
      let mv := if bit c.w 49 then 1 else 0
      let x := s.square c.x.square
      let m := x.mover mv
      let s1 := s.setSquare c.x.square (x.setMover mv { m with seq := (m.seq + 1) % 2 ^ 24 })
      let s2 := s1.enqueue c (.tmv mv (c.ls.ureg (bits c.w 47 42)) m.seq s.now) false
      s2.retire c (c.ls.setUreg (bits c.w 41 36) (mv * 2 ^ 31 + m.seq)) 1)

/-- Signed 24-bit difference. -/
def diff24 (a b : Nat) : Int := toSigned 24 (a + 2 ^ 24 - b % 2 ^ 24)

/-- What a ticket says: an error of R116, still open, or completed with a status. -/
inductive Ticket where
  | bad | waiting | done (st : Nat)
  deriving DecidableEq, Repr

/-- Look a ticket up on its mover. -/
def Square.ticket (x : Square) (t : Nat) : Ticket :=
  let m := x.mover (t / 2 ^ 31 % 2)
  let q := t % 2 ^ 24
  if 0 < diff24 q m.seq ∨ 32 < diff24 m.done q then .bad
  else match m.statuses.find? fun e => e.1 == q with
    | some e => if 0 < diff24 m.done q then .done e.2 else .waiting
    | none => .waiting

/-- EX_TICKET. -/
def State.exTicket (s : State) (c : Ctx) : State := s.except c 0x0A .internalError c.lanes 0 0

/-- TWAIT: stalls until the ticket's descriptor has completed, then writes its status to US (R116). -/
def execTwait (g l : Nat) (s : State) : Out :=
  .next (s.meetU g l 0x1F1 (fun w => decide (bits w 49 48 ≠ 0) || decide (bits w 35 0 ≠ 0)) fun s c =>
    match (s.square c.x.square).ticket (c.ls.ureg (bits c.w 47 42)) with
    | .bad => s.exTicket c
    | .waiting => s
    | .done st => s.retire c (c.ls.setUreg (bits c.w 41 36) st) 1)

/-- TTEST: p[PD] tells whether the descriptor has completed; US is written only then (R116). -/
def execTtest (g l : Nat) (s : State) : Out :=
  .next (s.meetU g l 0x1F2 (fun w => decide (bits w 49 48 ≠ 0) || decide (bits w 32 0 ≠ 0)) fun s c =>
    let pd := bits c.w 35 33
    match (s.square c.x.square).ticket (c.ls.ureg (bits c.w 47 42)) with
    | .bad => s.exTicket c
    | .waiting => s.retire c (c.ls.setAll pd false) 1
    | .done st => s.retire c ((c.ls.setAll pd true).setUreg (bits c.w 41 36) st) 1)

/-- Whether engine work of a group that an EWAIT names, issued before place `ord` of the square's order of issue, is outstanding
(R117). -/
def Square.waitsFor (x : Square) (g ord accmask : Nat) (mx : Bool) (mvmask : Nat) : Bool :=
  (x.queue.any fun e => e.group == g && decide (e.ord < ord) && match e.op with
    | .mma _ _ _ _ _ _ _ => mx
    | .mld _ _ _ => mx
    | .drn acc _ _ _ => bit accmask acc
    | .tmv mv _ _ _ => bit mvmask mv) ||
  (List.range 2).any fun mv => bit mvmask mv &&
    (((x.mover mv).issued.any fun d => d.group == g && d.walk.isNone && decide (d.ord < ord)) ||
      (x.mover mv).flight.any fun f => f.d.group == g && f.d.walk.isNone && decide (f.d.ord < ord))

/-- Wait for named engine work issued before the instruction first came to issue, and go on (R117, R122). -/
def State.waitWork (s : State) (c : Ctx) (accmask : Nat) (mx : Bool) (mvmask : Nat) : State :=
  let x := s.square c.x.square
  let ord := c.ls.waits.getD x.issues
  if x.waitsFor c.g ord accmask mx mvmask then s.setLaneset c.g c.l { c.ls with waits := some ord }
  else s.retire c { c.ls with waits := none } 1

/-- EWAIT: stalls while the engine work that it names, issued before it, is outstanding (R117). -/
def execEwait (g l : Nat) (s : State) : Out :=
  .next (s.meetU g l 0x1F8 (fun w => decide (bits w 38 0 ≠ 0)) fun s c =>
    s.waitWork c (bits c.w 49 42) (bit c.w 41) (bits c.w 40 39))

/-! ## Barriers and fences -/

/-- Whether a barrier's phase is complete (R125). -/
def barDone (x : Group) (b : Barrier) : Bool :=
  if b.count = 0 then !b.arrived.isEmpty && x.lanesets.all fun e => e.2.ended || b.arrived.contains e.1
  else decide (b.count ≤ b.arrived.length)

/-- Open every barrier of a group whose phase is complete. -/
def Group.openBars (x : Group) : Group :=
  (List.range 4).foldl (fun x i =>
    let b := assocGet {} x.barriers i
    if barDone x b then
      { x with
        barriers := assocSet {} x.barriers i {},
        lanesets := x.lanesets.map fun e => if e.2.bar = some i then (e.1, { e.2 with bar := none }) else e }
    else x) x

/-- Re-examine the barriers of a group. -/
def State.openBars (s : State) (g : Nat) : State :=
  match s.group g with
  | none => s
  | some x => s.setGroup g x.openBars

/-- EX_BARRIER. -/
def State.exBarrier (s : State) (c : Ctx) : State := s.except c 0x0C .internalError c.ls.active 0 0

/-- BAR: the laneset arrives and, unless ARV is set, waits until the count is reached (R125). A laneset that arrives twice in one phase
counts twice towards a count that is not 0 (DESIGN CHOICE, log entry 68). -/
def execBar (g l : Nat) (s : State) : Out :=
  .next (s.meetU g l 0x200 (fun w => decide (fIMM w / 2 ^ 11 ≠ 0)) fun s c =>
    let imm := fIMM c.w
    let i := bits imm 1 0
    let n := bits imm 9 2
    let b := assocGet {} c.x.barriers i
    if c.x.nls < n ∨ c.ls.mask ≠ 0xFFFFFFFF#32 ∨ (!b.arrived.isEmpty ∧ b.count ≠ n) then s.exBarrier c
    else
      let s1 := s.retire c { c.ls with bar := if bit imm 10 then none else some i } 1
      let s2 := match s1.group g with
        | none => s1
        | some x => s1.setGroup g { x with
            barriers := assocSet {} x.barriers i { count := n, arrived := b.arrived ++ [l] } }
      s2.openBars g)

/-- FENCE: accesses are performed in order; with IMM[2] it waits as an EWAIT that names everything (R122). -/
def execFence (g l : Nat) (s : State) : Out :=
  .next (s.meetU g l 0x201 (fun w => decide (fIMM w / 8 ≠ 0) || decide (fIMM w % 4 = 3)) fun s c =>
    if bit (fIMM c.w) 2 then s.waitWork c 0xFF true 3 else s.retire c c.ls 1)

/-! ## Bundle boundaries (R57, R60, R61, R127, R128) -/

/-- Every laneset that has not ended stands at the boundary. -/
def Group.atBndy (x : Group) : Bool := x.lanesets.all fun e => e.2.ended || e.2.bndy

/-- Finish a boundary that every laneset has reached, once no engine work of the group is outstanding: check stacks and masks,
release the lease, write the continuation; then the group ends if its job is stopped, or is suspended if a preemption waits. Where
lanesets stand at different BNDYs, which the manual only says must not be, each moves past its own and the continuation takes the last
arrival's position (DESIGN CHOICE, log entry 68). -/
def State.crossBndy (s : State) (c : Ctx) : State :=
  match s.group c.g with
  | none => s
  | some x =>
    if !x.atBndy || (s.square x.square).outstanding c.g then s
    else match x.lanesets.find? fun e => !e.2.ended && (!e.2.stack.isEmpty || e.2.mask != 0xFFFFFFFF#32) with
      | some e => s.except { c with l := e.1, ls := e.2 } 0x09 .internalError e.2.active 0 0
      | none =>
        let q := s.square x.square
        let s1 := if q.lease = some c.g then s.setSquare x.square { q with lease := none } else s
        let ls := x.lanesets.map fun e =>
          if e.2.ended then e else (e.1, ({ e.2 with bndy := false }).goto (e.2.pc + 1))
        let x' := { x with lanesets := ls, contPc := c.ls.pc + 1, bundle := x.bundle + 1 }
        let cont := x'.continuation
        let s2 := (s1.storeWrite x.square x.base cont).setGroup c.g x'
        if x.stop then (s2.endGroup c.g).settleQueues
        else if x.preempt then s2.suspendGroup c.g
        else s2

/-- BNDY: the laneset arrives; the last arrival finishes the boundary when the group's engine work has completed. -/
def execBndy (g l : Nat) (s : State) : Out :=
  .next (s.meetU g l 0x204 (fun w => decide (fIMM w ≠ 0)) fun s c =>
    let ls := { c.ls with bndy := true }
    let s1 := if c.ls.bndy then s else ((s.perfCount c.x.square 0x01 1).noteRetire c.x.square).setLaneset g l ls
    s1.crossBndy { c with ls := ls })

end Sys2Proof.Machine
end

