-- ==== Sys2Proof/Machine/IsaFlow.lean ====
section
/-! DEFINITION. Ferlith control flow: divergence and the control stack (R106 to R109), TRAP (R129). -/

namespace Sys2Proof.Machine

/-- EX_STACK and EX_DIVERGE. -/
def State.exStack (s : State) (c : Ctx) : State := s.except c 0x07 .internalError c.lanes 0 0
def State.exDiverge (s : State) (c : Ctx) : State := s.except c 0x08 .internalError c.ls.active 0 0

/-- The instruction is done and the laneset stands at `pc`. -/
def State.jump (s : State) (c : Ctx) (ls : Laneset) (pc : Nat) : State :=
  ((s.perfCount c.x.square 0x01 1).noteRetire c.x.square).setLaneset c.g c.l (ls.goto pc)

/-- A mask of lanes. -/
def laneMask (l : List Nat) : Word := BitVec.ofNat 32 (maskOf l)

/-- BRA: uniform, it jumps or falls through; divergent, it pushes a join and a pending entry and runs the lanes whose guard is
true (R106). -/
def execBra (g l : Nat) (s : State) : Out :=
  .next (s.meet g l 0x240 fun s c =>
    let target := pcPlus c.ls.pc (fTDISP c.w)
    let t := c.lanes
    if t.isEmpty then s.retire c c.ls 1
    else if t.length = c.ls.active.length then s.jump c c.ls target
    else if fRDISP c.w = 0 then s.exDiverge c
    else if 30 < c.ls.stack.length then s.exStack c
    else
      let rest := c.ls.active.filter fun i => !c.guard i
      let stack := .pend (c.ls.pc + 1) (laneMask rest) :: .join (pcPlus c.ls.pc (fRDISP c.w)) c.ls.mask :: c.ls.stack
      s.jump c { c.ls with stack := stack, mask := laneMask t } target)

/-- BRX: jumps to the index in A, which all active lanes hold (R108). -/
def execBrx (g l : Nat) (s : State) : Out :=
  .next (s.meet g l 0x241 fun s c =>
    let a : Reg := { v := fA c.w, u := fAU c.w }
    if badR c.w [a] then s.exOpcode c
    else s.operands c [a] [a] fun s => match c.lanes with
      | [] => s.retire c c.ls (wordsOf [a])
      | i :: _ =>
        let target := c.read i a
        if c.lanes.length ≠ c.ls.active.length ∨ !(c.ls.active.all fun j => c.read j a == target) then s.exDiverge c
        else s.jump c c.ls target)

/-- CALL: pushes the return address and jumps (R107). -/
def execCallB (g l : Nat) (s : State) : Out :=
  .next (s.meet g l 0x242 fun s c =>
    if c.lanes.isEmpty then s.retire c c.ls 1
    else if 31 < c.ls.stack.length then s.exStack c
    else if c.lanes.length ≠ c.ls.active.length then s.exDiverge c
    else s.jump c { c.ls with stack := .ret (c.ls.pc + 1) :: c.ls.stack } (pcPlus c.ls.pc (fTDISP c.w)))

/-- RET: pops a return address (R107). -/
def execRetB (g l : Nat) (s : State) : Out :=
  .next (s.meet g l 0x243 fun s c =>
    if badR c.w [] then s.exOpcode c
    else if c.lanes.isEmpty then s.retire c c.ls 1
    else match c.ls.stack with
      | .ret p :: t =>
        if c.lanes.length ≠ c.ls.active.length then s.exDiverge c else s.jump c { c.ls with stack := t } p
      | _ => s.exStack c)

/-- A boundary that waited for a laneset which has now ended. -/
def State.retryBndy (s : State) (c : Ctx) : State :=
  match s.group c.g with
  | none => s
  | some x => match x.lanesets.find? fun e => !e.2.ended && e.2.bndy with
    | none => s
    | some e => s.crossBndy { c with l := e.1, ls := e.2 }

/-- EXIT: ends lanes; a laneset ends with its last lane, a group with its last laneset and engine work, and a job with its last
group (R109). -/
def execExitL (g l : Nat) (s : State) : Out :=
  .next (s.meet g l 0x244 fun s c =>
    if badR c.w [] then s.exOpcode c
    else
      let m := laneMask c.lanes
      let ls := { c.ls with exited := c.ls.exited ||| m, mask := c.ls.mask &&& ~~~m }
      let s1 := s.retire c ls 1
      if ls.ended then (((s1.openBars g).retryBndy c).settleGroup g) else s1)

/-- TRAP: raises EX_TRAP with the code of IMM[15:0] (R129). -/
def execTrap (g l : Nat) (s : State) : Out :=
  .next (s.meetU g l 0x245 (fun w => decide (2 ^ 16 ≤ fIMM w)) fun s c =>
    s.except c 0x0D .internalError c.lanes 0 (fIMM c.w))

end Sys2Proof.Machine
end

