-- ==== Sys2Proof/Machine/MatrixUnit.lean ====
section
/-! DEFINITION. The matrix unit and the gate pipeline: MATRIX_STEP (R45, R46, R112, R145, R146) and GATE_DRAIN (R46, R48, R49,
R113, R114, R147 to R149, R262, R292, R293). Readings of the drain chain are log entry 16's. -/

namespace Sys2Proof.Machine

/-- Whether a square's engines run: the square is in service or its file still stops. -/
def State.engineOn (s : State) (sq : Nat) : Bool :=
  (s.sqSt sq == sqRunning || s.sqSt sq == sqPreempting) && s.pageSt (filePage (sqFile sq)) != stOff

/-- Accumulator of a matrix operation or of a drain. -/
def EngOp.matrixAcc : EngOp → Option Nat
  | .mma _ acc _ _ _ _ _ => some acc
  | .mld acc _ _ => some acc
  | _ => none

def EngOp.drainAcc : EngOp → Option Nat
  | .drn acc _ _ _ => some acc
  | _ => none

/-- First entry of a kind with no earlier entry of the other kind on its accumulator (R41, R46). -/
def nextEntry (mine other : EngOp → Option Nat) (q : List EngEntry) : Option EngEntry :=
  let before := q.takeWhile fun e => (mine e.op).isNone
  match (q.drop before.length) with
  | [] => none
  | e :: _ => if before.any (fun b => other b.op == mine e.op) then none else some e

/-- Take an entry out of the engine queue; TMV entries do not wait for it. -/
def State.unqueue (s : State) (sq : Nat) (e : EngEntry) : State :=
  let x := s.square sq
  s.setSquare sq { x with queue := x.queue.erase e }

/-- `n` fresh free words. -/
def State.freeWords (s : State) (n : Nat) : List Word := (List.range n).map fun i => Config.free (s.free + i) 32

/-- Square cycles of a matrix step (R45, R112). -/
def stepCycles : EngOp → Nat
  | .mma sp _ _ fa fb _ _ =>
    let k := fun f => if f = 1 ∨ f = 2 then 128 else if f = 7 ∨ f = 8 then 16 else 32
    Nat.max (k fa) (k fb) / (if sp then 2 else 1)
  | _ => 64

/-- New cells and kind that a matrix operation writes; none for EX_ACC_KIND. -/
def State.matrixCells (s : State) (x : Square) (y : Group) : EngOp → Option (Nat × Bool × List Word)
  | .mma sp acc z fa fb a b =>
    let int := fmtInt fa
    if !z && x.isInt acc != int then none
    else some (acc, int, stepCells x acc int z (s.tileIn y fa sp a.toNat) (s.tileIn y fb false b.toNat))
  | .mld acc int a =>
    let bs := s.regionRead y (64 * opTILE a.toNat) 4096
    some (acc, int, (List.range 1024).map fun i => BitVec.ofNat 32 (leField bs (4 * i) 4))
  | _ => none

/-- An engine's reads of ranges of a region: words with one wrong bit are corrected, lines with more become poisoned (R52); and whether
one of the ranges meets a poisoned line. -/
def State.scanRanges (s : State) (y : Group) (rs : List (Nat × Nat)) : State :=
  (rs.filter fun r => y.holds r.1 r.2).foldl (fun s r => s.storeScan y.square (y.base + r.1) r.2) s
def State.rangesPoisoned (s : State) (y : Group) (rs : List (Nat × Nat)) : Bool :=
  rs.any fun r => y.holds r.1 r.2 && s.storePoisoned y.square (y.base + r.1) r.2

/-- MATRIX_STEP: the matrix unit takes its next entry and performs it; a poisoned line is a square fault, which goes before an exception
(R52, R132). -/
def execMatrixStep (sq : Nat) (s : State) : Out :=
  .next (
    let x := s.square sq
    match nextEntry EngOp.matrixAcc EngOp.drainAcc x.queue with
    | none => s
    | some e => match s.group e.group with
      | none => s.unqueue sq e
      | some y =>
        let rs := s.engReads y e.op
        let s0 := s.scanRanges y rs
        if !s.engineOn sq then s
        else if s0.rangesPoisoned y rs then s0.squareFault sq
        else match rs.find? fun r => !y.holds r.1 r.2 with
          | some r => s0.exceptEng e.group e.lset e.pc 0x04 .accessDenied r.1
          | none => match s0.matrixCells x y e.op with
              | none => s0.exceptEng e.group e.lset e.pc 0x0B .internalError 0
              | some (acc, int, cells) =>
                let cells := if e.taint then s0.freeWords 1024 else cells
                let s1 := s0.setSquare sq ({ x with queue := x.queue.erase e }.setAcc acc int cells)
                let s2 := if e.taint then { s1 with free := s1.free + 1024 } else s1
                (s2.perfCount sq 0x02 (stepCycles e.op)).settleGroup e.group)

/-! ## The drain chain -/

/-- Round an exact value to FP32 (R147). -/
def rnd32 (x : FVal) : FVal := fpVal (fpCode x)

/-- Elements of `n` values of a type packed from a byte block. -/
def packedVals (t : Ty) (n : Nat) (b : List Byte) : List FVal :=
  let v := leNat b
  (List.range n).map fun k => t.value (v / 2 ^ (t.width * k) % 2 ^ t.width)

/-- Values of an input of the operand list. -/
def State.drnIn (s : State) (y : Group) (ops i n : Nat) : List FVal :=
  let w := s.drnEntry y ops i
  match tyOf (bits w 23 20) with
  | none => []
  | some t => packedVals t n (s.regionRead y (bits w 19 0) (codeBytes (bits w 23 20) n))

/-- A zero and a one. -/
def fvZero : FVal := .fin false 0 0
def fvOne : FVal := .fin false 1 0

/-- The exact value of an activation: 16 GELU, 17 SiLU, 18 sigmoid, 19 tanh, 20 exponential (R113, R292). -/
def actVal (which : Nat) (x : FVal) : FVal :=
  match which with
  | 16 => geluVal x
  | 17 => siluVal x
  | 18 => fxVal (fxSigmoid x.fx)
  | 19 => fxVal (fxTanh x.fx)
  | _ => fxExpVal x.fx

/-- An approximate activation (R151): its limits at the infinities, and otherwise a value within the gate pipeline's bound. -/
def actFn (which : Nat) (x : FVal) : FVal :=
  match which, x with
  | _, .nan => .nan
  | 16, .inf neg => if neg then fvZero else .inf false
  | 17, .inf neg => if neg then fvZero else .inf false
  | 18, .inf neg => if neg then fvZero else fvOne
  | 19, .inf neg => .fin neg 1 0
  | _, .inf neg => if neg then fvZero else .inf false
  | _, .fin s m e =>
    let v := actVal which (.fin s m e)
    fpVal (approxFn which (fpCode (.fin s m e)) v (gateBound v))

/-- Activation or gating product (R113). -/
def actStep (k : Nat) (x g : FVal) : FVal :=
  match k with
  | 0 => x
  | 1 => if x.isNan then .nan else if x.sign then fvZero else rnd32 x
  | 2 => actFn 16 x
  | 3 => actFn 17 x
  | 4 => actFn 18 x
  | 5 => actFn 19 x
  | 6 => rnd32 (FVal.mul x g)
  | 7 => rnd32 (FVal.mul (actFn 17 g) x)
  | _ => rnd32 (FVal.mul (actFn 18 g) x)

/-- Softmax state of a row (R49): maximum, sum. A cleared set holds −infinity and 0. -/
def Square.smxRow (x : Square) (acc r : Nat) : Nat × Nat :=
  ((assocGet 0xFF800000#32 x.smx (acc * 64 + 2 * r)).toNat, (assocGet 0#32 x.smx (acc * 64 + 2 * r + 1)).toNat)

/-- Replace the softmax state of a row. -/
def Square.setSmx (x : Square) (acc r m l : Nat) : Square :=
  let t := assocSet 0xFF800000#32 x.smx (acc * 64 + 2 * r) (BitVec.ofNat 32 m)
  { x with smx := assocSet 0#32 t (acc * 64 + 2 * r + 1) (BitVec.ofNat 32 l) }

/-- The softmax step of one row: its new maximum and sum, its correction, and its output values (R292). The order of the
additions is open (log entry 67). -/
def softmaxRow (st : Bool) (ml : Nat × Nat) (row : List FVal) : FVal × FVal × FVal × List FVal :=
  let m := if st then FVal.inf true else fpVal ml.1
  let l := if st then fvZero else fpVal ml.2
  if m.isNan || row.any FVal.isNan || row.contains (.inf false) then (.nan, .nan, .nan, row.map fun _ => .nan)
  else
    let top := row.foldl (FVal.minMax true) m
    if top = .inf true then (top, l, fvOne, row.map fun _ => fvZero)
    else
      let ex := fun (v : FVal) => rnd32 (actFn 20 (rnd32 (FVal.add 0 v top.neg)))
      let c := if m = .inf true then fvZero else ex m
      let out := row.map ex
      let sum := fmtFp32.sum [80] ((FVal.mul c l :: out).map fun v => .val (fpCode v))
      (top, fpVal sum, c, out)

/-- Everything a drain computes: rows of output values, new STATE rows, correction and softmax rows. -/
structure DrainOut where
  rows : List (List FVal) := []
  state : List FVal := []
  smx : List (FVal × FVal × FVal) := []
  deriving DecidableEq, Repr, Inhabited

/-- The chain of R48 up to the conversion. An `idle` row, of a stream that the call does not name, has the input and the output +0.0
(R263). -/
def State.drainChain (s : State) (x : Square) (y : Group) (acc k ops : Nat) (idle : Nat → Bool) : DrainOut :=
  let int := x.isInt acc
  let rs := s.drnIn y ops 0 32
  let cs := s.drnIn y ops 1 32
  let bs := s.drnIn y ops 2 32
  let gt := s.drnIn y ops 3 1024
  let a := s.drnIn y ops 4 1024
  let b := s.drnIn y ops 5 1024
  let h := s.drnIn y ops 6 1024
  let cell := fun (r c : Nat) =>
    let v := x.cell acc r c
    let v0 := if int then FVal.ofInt (toSigned 32 v) 0 false else fpVal v
    let v1 := if bit (ctlSCL k) 0 then rnd32 (FVal.mul v0 (rs.getD r fvZero)) else v0
    let v2 := if bit (ctlSCL k) 1 then rnd32 (FVal.mul v1 (cs.getD c fvZero)) else v1
    let v3 := if ctlBIAS k then rnd32 (FVal.add 0 v2 (bs.getD c fvZero)) else v2
    let v4 := if idle r then fvZero else actStep (ctlACT k) v3 (gt.getD (32 * r + c) fvZero)
    if ctlREC k then
      let i := 32 * r + c
      rnd32 (FVal.add 0 (rnd32 (FVal.mul (a.getD i fvZero) (h.getD i fvZero))) (rnd32 (FVal.mul (b.getD i fvZero) v4)))
    else v4
  let rows := (List.range 32).map fun r => (List.range 32).map fun c => cell r c
  if ctlSMX k then
    let sm := rows.zipIdx.map fun e => softmaxRow (ctlST k) (x.smxRow acc e.2) e.1
    { rows := sm.map fun e => e.2.2.2, smx := sm.map fun e => (e.1, e.2.1, e.2.2.1) }
  else
    { rows := rows.zipIdx.map fun r => if idle r.2 then r.1.map fun _ => fvZero else r.1
      state := if ctlREC k then rows.flatMap fun r => r else [] }

/-! ## Output quantisation (R148, R149) -/

/-- Convert with saturation: an overflow or an infinity gives the largest finite value (R149). -/
def encodeSat (t : Ty) (rm r : Nat) (x : FVal) : Nat :=
  match t.fmt? with
  | none => t.code rm r x
  | some f => match x with
    | .inf neg => (if neg then f.signBit else 0) + f.maxCode
    | _ =>
      let c := t.encodeF rm r x
      if c % f.signBit = f.maxCode + 1 ∧ !x.isNan then c - 1 else c

/-- Largest finite magnitude of a block. -/
def blockMax (l : List FVal) : FVal :=
  l.foldl (fun a v => match v with
    | .fin _ m e => FVal.minMax true a (.fin false m e)
    | _ => a) fvZero

/-- Value of the largest finite code, and emax (R133). -/
def Fmt.maxF (f : Fmt) : FVal := f.decode f.maxCode
def Fmt.emax (f : Fmt) : Int := match f.maxF with
  | .fin _ m e => e + (Nat.log2 m : Int)
  | _ => 0

/-- Exponent of the leading bit of a non-zero magnitude. -/
def leadExp : FVal → Int
  | .fin _ m e => e + (Nat.log2 m : Int)
  | _ => 0

/-- A value as whole numbers. -/
def FVal.key : FVal → List Nat
  | .nan => [2]
  | .inf neg => [3, if neg then 1 else 0]
  | .fin neg m e => [if neg then 1 else 0, m, e.toNat, (-e).toNat]

/-- An element of a block whose TSCALE is not positive and finite: the manual gives only the scale, so the element is a free function of
the block and TSCALE; FP4 and FP4E hold no −0.0 and no escape there (R139, R156). -/
def openElem (ty : Ty) (t : FVal) (l : List FVal) (i : Nat) : Nat :=
  let c := Config.blockElem ty.width (t.key ++ l.flatMap FVal.key) i % 2 ^ ty.width
  if ty.width = 4 ∧ c = 8 then 0 else c

/-- One block's scale code and element codes; `dr` numbers the draws, `t` is TSCALE (R149). -/
def quantBlock (ty : Ty) (scm rm : Nat) (t : FVal) (dr : Nat) (l : List FVal) : Nat × List Nat :=
  match ty.fmt? with
  | none => (0, [])
  | some f =>
    let rv := fun (i : Nat) => (Config.free (dr + i) 16).toNat
    let a := blockMax l
    let anyNan := l.any FVal.isNan
    if scm = 1 then
      if anyNan then (0xFF, l.map fun _ => 0)
      else
        let x : Int := if a.isZero then 0 else max (-127) (min 127 (leadExp a - f.emax))
        ((x + 127).toNat, l.zipIdx.map fun e => encodeSat ty rm (rv e.2) (FVal.scale (-x) e.1))
    else
      let tOk := match t with
        | .fin neg m _ => !neg && decide (m ≠ 0)
        | _ => false
      if anyNan then (0x7F, l.map fun _ => 0)
      else if !tOk then (0x7F, l.zipIdx.map fun e => openElem ty t l e.2)
      else if a.isZero then (0, l.map fun _ => 0)
      else
        let sc := Nat.min 0x7E (fmtE4m3.encode 2 0 (FVal.div a (FVal.mul f.maxF t)))
        let den := FVal.mul (fmtE4m3.decode sc) t
        (sc, l.zipIdx.map fun e => match e.1 with
          | .inf neg => encodeSat ty rm 0 (.inf neg)
          | v => encodeSat ty rm (rv e.2) (FVal.div v den))

/-- Bytes of element codes packed little-endian. -/
def packCodes (w : Nat) (l : List Nat) : List Byte :=
  leBytes (l.length * w / 8) (l.zipIdx.foldl (fun n e => n + e.1 % 2 ^ w * 2 ^ (w * e.2)) 0)

/-- Tile bytes and (sidecar offset, byte) writes of a drained tile. -/
def drainBytes (ty : Ty) (scm rm : Nat) (t : FVal) (dr : Nat) (rows : List (List FVal)) :
    List Byte × List (Nat × Nat) :=
  if scm = 0 then
    (rows.zipIdx.flatMap fun r => packCodes ty.width (r.1.zipIdx.map fun c =>
      ty.code rm (Config.free (dr + 32 * r.2 + c.2) 16).toNat c.1), [])
  else
    let per := if scm = 1 then 1 else 2
    let qs := rows.zipIdx.flatMap fun r => (List.range per).map fun h =>
      let n := 32 / per
      (per * r.2 + h, quantBlock ty scm rm t (dr + 32 * r.2 + n * h) ((r.1.drop (n * h)).take n))
    (qs.flatMap fun q => packCodes ty.width q.2.2, (qs.map fun q => (q.1, q.2.1)) ++ (if ty = .fp4e then [(68, 0)] else []))

/-- What a drain's output operand does not accept when it leaves the queue, as EX_OPCODE: the kind's OFMT and SCM (R113, R148). -/
def Square.drnBad (x : Square) (acc k out : Nat) : Bool :=
  let o := ctlOFMT k
  let scmBad := if o ≤ 2 ∨ o = 9 ∨ o = 0xB then opSCM out != 0 else !(opSCM out == 1 || opSCM out == 2)
  let kindBad := if x.isInt acc then !(o == 9 || o == 0xB) else decide (9 < o)
  scmBad || kindBad || decide (bits out 31 30 ≠ 0)

/-- What its operand list does not accept: reserved bits, and the type codes of STATE and DECAY (R114, R262, R293). -/
def State.drnListBad (s : State) (y : Group) (k ops : Nat) : Bool :=
    ((ctlEntries k).any fun i => decide (bits (s.drnEntry y ops i) 31 24 ≠ 0)) ||
    ((ctlInputs k).any fun e => bits (s.drnEntry y ops e.1) 23 20 == 15) ||
    (ctlREC k && bits (s.drnEntry y ops 6) 23 20 != 0) || (ctlSMX k && bits (s.drnEntry y ops 4) 23 20 != 0)

/-- Write region bytes as an engine does: what other engine work still reads there is left open (R120). -/
def State.engWrite (s : State) (y : Group) (off : Nat) (b : List Byte) : State :=
  (s.taintSpan y.square (y.base + off) b.length).regionWrite y off b

/-- What a drain writes into its region, in order: the tile, sidecar bytes, STATE, the correction tile and SMSTAT (R48, R292, R293). -/
def State.drainWrites (s : State) (y : Group) (k out ops : Nat) (d : DrainOut) : List (Nat × List Byte) :=
  let ty := (tyOf (ctlOFMT k)).getD .fp32
  let t := fpVal (leNat (s.regionRead y (64 * opSIDE out + 64) 4))
  let res := drainBytes ty (opSCM out) (ctlRM k) t s.free d.rows
  (64 * opTILE out, res.1) :: res.2.map (fun b => (64 * opSIDE out + b.1, leBytes 1 b.2)) ++
    (if ctlREC k then [(bits (s.drnEntry y ops 6) 19 0, d.state.flatMap fun v => leBytes 4 (fpCode v))] else []) ++
    (if ctlSMX k then [(bits (s.drnEntry y ops 4) 19 0, d.smx.flatMap fun r => (List.range 32).flatMap fun _ => leBytes 4 (fpCode r.2.2))]
      else []) ++
    (if ctlSMX k && ctlFIN k then
      [(bits (s.drnEntry y ops 7) 19 0, d.smx.flatMap fun r => leBytes 4 (fpCode r.1) ++ leBytes 4 (fpCode r.2.1))] else [])

/-! ## Rows of a sequence call (R263, R267) -/

/-- What the 32 rows of a REC drain's STATE tile are to the call of its group; other drains have plain rows. -/
def State.recRows (s : State) (y : Group) (k ops : Nat) : List RecRow :=
  match s.job y.job with
  | some j => if ctlREC k && !j.streams.isEmpty then
      (List.range 32).map fun r => s.recRow j y.square (y.base + bits (s.drnEntry y ops 6) 19 0 + 128 * r)
    else []
  | none => []

/-- Whether the items of a REC drain's rows have started or may start (R267). -/
def State.recMayRun (s : State) (y : Group) (k ops : Nat) : Bool :=
  match s.job y.job with
  | some j => !ctlREC k || j.streams.isEmpty ||
      (List.range 32).all fun r => s.recReady j y.square (y.base + bits (s.drnEntry y ops 6) 19 0 + 128 * r)
  | none => true

/-- Write one row of a recurrence operand with 32 equal values. -/
def State.recFill (s : State) (y : Group) (ops i r : Nat) (v : FVal) : State :=
  let w := s.drnEntry y ops i
  match tyOf (bits w 23 20) with
  | none => s
  | some t =>
    let row := packCodes t.width (List.replicate 32 (t.code 0 0 v))
    s.engWrite y (bits w 19 0 + row.length * r) row

/-- Before the drain a row that resets has DECAY and STATE written as +0.0; a row that the call does not name has DECAY 1.0 and GAIN
+0.0 (R263). -/
def State.recPrepare (s : State) (y : Group) (ops : Nat) (rows : List RecRow) : State :=
  rows.zipIdx.foldl (fun (s : State) e => match e.1 with
    | .plain => s
    | .reset => (s.recFill y ops 4 e.2 fvZero).recFill y ops 6 e.2 fvZero
    | .idle => (s.recFill y ops 4 e.2 fvOne).recFill y ops 5 e.2 fvZero) s

/-- Note the step that a REC drain has run for its call. -/
def State.recNote (s : State) (y : Group) (k ops : Nat) : State :=
  match s.job y.job with
  | some j => if ctlREC k && !j.streams.isEmpty then
      s.setJob y.job (j.noteSteps (y.square * 2 ^ 20 + y.base + bits (s.drnEntry y ops 6) 19 0))
    else s
  | none => s

/-- Writes whose bytes are free, from draw `n` on (R120). -/
def freeSpans : Nat → List (Nat × List Byte) → List (Nat × List Byte)
  | _, [] => []
  | n, w :: t => (w.1, (List.range w.2.length).map fun i => Config.free (n + i) 8) :: freeSpans (n + w.2.length) t

/-- Perform a drain whose checks have passed. Without SMX the flags ST and FIN do nothing (DESIGN CHOICE, log entry 68). What a drain of
overlapped inputs writes and leaves in the softmax sets is free (R120). -/
def State.drain (s : State) (sq : Nat) (y : Group) (e : EngEntry) (acc k out ops : Nat) : State :=
  let rows := s.recRows y k ops
  let s := (s.recPrepare y ops rows).recNote y k ops
  let x := s.square sq
  let d := s.drainChain x y acc k ops fun r => rows.getD r .plain == .idle
  let ws := s.drainWrites y k out ops d
  let n := (ws.map fun w => w.2.length).sum
  let ws := if e.taint then freeSpans (s.free + 1024) ws else ws
  let s0 := { s.setSquare sq { x with queue := x.queue.erase e } with free := s.free + 1024 + (if e.taint then n + 64 else 0) }
  let s1 := ws.foldl (fun s w => s.engWrite y w.1 w.2) s0
  let smx := if e.taint then d.smx.zipIdx.map fun r =>
      ((Config.free (s.free + 1024 + n + 2 * r.2) 32).toNat, (Config.free (s.free + 1024 + n + 2 * r.2 + 1) 32).toNat)
    else d.smx.map fun r => (fpCode r.1, fpCode r.2.1)
  if ctlSMX k then s1.setSquare sq (smx.zipIdx.foldl (fun x r => x.setSmx acc r.2 r.1.1 r.1.2) (s1.square sq)) else s1

/-- GATE_DRAIN: the gate pipeline takes its next entry and applies the chain. A poisoned line that it reads is a square fault, which goes
before an exception; of several causes the lowest is raised (R132). In a sequence call a REC drain waits for its item to start (R267). -/
def execGateDrain (sq : Nat) (s : State) : Out :=
  .next (
    let x := s.square sq
    match nextEntry EngOp.drainAcc EngOp.matrixAcc x.queue with
    | none => s
    | some e => match s.group e.group, e.op with
      | some y, .drn acc k outW opsW =>
        let out := outW.toNat
        let ops := opsW.toNat
        let list := ctlList k ops
        let listOk := decide (ops % 32 = 0) && list.all fun r => y.holds r.1 r.2
        let rs := (if listOk then list ++ s.drnInputs y k ops else []) ++ (if opSCM out = 2 then [(64 * opSIDE out + 64, 4)] else [])
        let s0 := s.scanRanges y rs
        let fail := fun c st a => s0.exceptEng e.group e.lset e.pc c st a
        if !s.engineOn sq || !s.recMayRun y k ops then s
        else if s0.rangesPoisoned y rs then s0.squareFault sq
        else if x.drnBad acc k out || (listOk && s0.drnListBad y k ops) then fail 0x01 .internalError 0
        else if ops % 32 ≠ 0 then fail 0x03 .internalError ops
        else if !listOk then fail 0x04 .accessDenied ops
        else match (rs.find? fun r => !y.holds r.1 r.2).orElse
              fun _ => (s.drnWrites y k out ops).find? fun r => !y.data r.1 r.2 with
          | some r => fail 0x04 .accessDenied r.1
          | none => ((s0.drain sq y e acc k out ops).perfCount sq 0x03 (if ctlSMX k then 16 else 8)).settleGroup e.group
      | _, _ => s.unqueue sq e)

end Sys2Proof.Machine
end

