-- ==== Sys2Proof/Machine/Edge.lean ====
section
/-! DEFINITION. The Edge engine (R317 to R342): its descriptor and checks, the convolution of one output row, segments, completion
and the page's state table. -/

namespace Sys2Proof.Machine

/-! ## The descriptor (R329) -/

/-- Fields of an Edge descriptor. -/
structure Conv where
  op : Nat := 1
  ifmt : Nat := 0
  ofmt : Nat := 0
  ilay : Nat := 0
  olay : Nat := 0
  oscm : Nat := 0
  act : Nat := 0
  next : Bool := false
  gen : Bool := false
  iw : Nat := 0
  ih : Nat := 0
  cin : Nat := 0
  cout : Nat := 0
  kw : Nat := 0
  kh : Nat := 0
  sx : Nat := 0
  sy : Nat := 0
  dx : Nat := 0
  dy : Nat := 0
  pl : Nat := 0
  pr : Nat := 0
  pt : Nat := 0
  pb : Nat := 0
  iaddr : Nat := 0
  ipitch : Nat := 0
  opitch : Nat := 0
  oaddr : Nat := 0
  waddr : Nat := 0
  nextq : Nat := 0
  deriving DecidableEq, Repr, Inhabited

/-- Read an Edge descriptor. -/
def parseConv (b : List Byte) : Conv :=
  let f := fun i => leField b i 1
  { op := f 0, ifmt := f 1 / 16, ofmt := f 1 % 16, ilay := bits (f 2) 7 6, olay := bits (f 2) 5 4, oscm := bits (f 2) 3 2,
    act := f 3 / 16, next := bit (f 3) 3, gen := bit (f 3) 2, iw := leField b 4 2, ih := leField b 6 2, cin := leField b 8 2,
    cout := leField b 10 2, kw := f 12, kh := f 13, sx := f 14, sy := f 15, dx := f 16, dy := f 17, pl := f 18, pr := f 19,
    pt := f 20, pb := f 21, iaddr := leField b 24 8, ipitch := leField b 32 4, opitch := leField b 36 4, oaddr := leField b 40 8,
    waddr := leField b 48 8, nextq := leField b 56 2 }

/-- Bytes of an input element and of an output element. -/
def Conv.ie (c : Conv) : Nat := if c.ifmt = 9 then 1 else 2
def Conv.oe (c : Conv) : Nat := if c.ofmt = 3 ∨ c.ofmt = 9 then 1 else 2

/-- Output extent of one dimension (R317, R318): 0 where it would fall below 1. -/
def convOut (transposed : Bool) (i k s d p0 p1 : Nat) : Nat :=
  if transposed then (i - 1) * s + d * (k - 1) + 1 - p0 - p1
  else if i + p0 + p1 < d * (k - 1) + 1 ∨ s = 0 then 0 else (i + p0 + p1 - d * (k - 1) - 1) / s + 1

/-- Output width and height. -/
def Conv.ow (c : Conv) : Nat := convOut (c.op == 2) c.iw c.kw c.sx c.dx c.pl c.pr
def Conv.oh (c : Conv) : Nat := convOut (c.op == 2) c.ih c.kh c.sy c.dy c.pt c.pb

/-- Bytes of a channel-blocked tile, and tiles of a tensor (R158, R159). -/
def ctileBytes (lay e : Nat) : Nat := (if lay = 1 then 512 else 1024) * e
def tensorTiles (lay w h ch : Nat) : Nat := cdiv ch (if lay = 1 then 16 else 32) * cdiv h 4 * cdiv w 8

/-- Bytes of the input, of the output with its sidecars, and of the weight blob (R329, R330). -/
def Conv.inBytes (c : Conv) : Nat :=
  if c.ilay = 0 then c.ipitch * c.ih * c.cin else tensorTiles c.ilay c.iw c.ih c.cin * ctileBytes c.ilay c.ie
def Conv.outBytes (c : Conv) : Nat :=
  if c.olay = 0 then c.opitch * c.oh * c.cout
  else tensorTiles c.olay c.ow c.oh c.cout * (ctileBytes c.olay c.oe + 64 * c.oscm)
def Conv.weightBytes (c : Conv) : Nat := cdiv (c.cout * c.cin * c.kh * c.kw * c.ie) 64 * 64
def Conv.blobBytes (c : Conv) : Nat := 64 + c.weightBytes + 8 * c.cout

/-- Lines of the line buffer (R328). -/
def Conv.bufLines (c : Conv) : Nat :=
  if c.op = 2 then cdiv (c.dy * (c.kh - 1) + 1) c.sy + 1 else c.dy * (c.kh - 1) + 1 + c.sy

/-! ## Pyramid levels (R355, R357) -/

/-- Fields of a pyramid section. -/
def pyrLevels (p : List Byte) : Nat := bits (leField p 0 1) 3 0
def pyrInt8 (p : List Byte) (l : Nat) : Bool := bit (leField p 1 1) l
def pyrCh (p : List Byte) : Nat := leField p 2 1

/-- Width and height of a level, from those of level 0. -/
def pyrDims (p : List Byte) (w h : Nat) : Nat → Nat × Nat
  | 0 => (w, h)
  | l + 1 =>
    let r := leField p (4 + 2 * l) 2
    let d := pyrDims p w h l
    (d.1 * r / 65536, d.2 * r / 65536)

/-- A capture channel. -/
def State.capChan (s : State) (v : Nat) : Capture := assocGet {} s.input.caps v

/-- Width, height, channels and format (9 for INT8) of a level of a capture channel whose block is in force. -/
def State.levelGeom (s : State) (vc l : Nat) : Option (Nat × Nat × Nat × Nat) :=
  match (s.capChan vc).block with
  | none => none
  | some b =>
    let p := (b.drop 48).take 32
    if pyrLevels p ≤ l then none
    else
      let d := pyrDims p (s.getF (vcBank vc) Fld.CSI_VC_GEOM_WIDTH) (s.getF (vcBank vc) Fld.CSI_VC_GEOM_HEIGHT) l
      some (d.1, d.2, pyrCh p, if pyrInt8 p l then 9 else 1)

/-- Channel and level that IADDR names. -/
def Conv.vc (c : Conv) : Nat := c.iaddr % 16
def Conv.level (c : Conv) : Nat := bits c.iaddr 6 4

/-! ## Checks (R332) -/

/-- Whether a descriptor is malformed. -/
def State.edgeMalformed (s : State) (fn : Nat) (b : List Byte) : Bool :=
  let c := parseConv b
  let pitchOk := fun (lay pitch w e : Nat) => if lay = 0 then pitch % 64 == 0 && decide (w * e ≤ pitch) else pitch == 0
  let scm := if c.ofmt = 3 ∧ c.olay = 2 then 1 else if c.ofmt = 3 ∧ c.olay = 1 then 2 else 0
  (c.op != 1 && c.op != 2) || c.olay == 3 || c.oscm == 3 || leField b 2 1 % 4 != 0 || leField b 3 1 % 4 != 0 ||
    leField b 22 2 != 0 || leField b 58 2 != 0 || (c.ifmt != 1 && c.ifmt != 9) ||
    (c.ofmt != 1 && c.ofmt != 2 && c.ofmt != 3 && c.ofmt != 9) || decide (5 < c.act) || c.oscm != scm ||
    !pitchOk c.ilay c.ipitch c.iw c.ie || !pitchOk c.olay c.opitch c.ow c.oe || c.oaddr % 64 != 0 || c.waddr % 64 != 0 ||
    (c.next && decide (s.qcount fn ≤ c.nextq)) ||
    (if c.ilay = 3 then decide (128 ≤ c.iaddr) || s.levelGeom c.vc c.level != some (c.iw, c.ih, c.cin, c.ifmt)
     else c.iaddr % 64 != 0)

/-- Whether a shape is beyond the engine's limits: R327, R328, the shape limits of R320, and the output (log entry 24). -/
def Conv.overLimit (c : Conv) : Bool :=
  let within := fun lo hi v => decide (lo ≤ v) && decide (v ≤ hi)
  let sd := if c.gen then 255 else 4
  let pads := if c.gen then 255 else 15
  !(within 1 256 c.cin && within 1 256 c.cout && (decide (c.cin < 16) || decide (c.cout < 16)) && within 1 4096 c.iw &&
    within 1 4096 c.ih && within 1 11 c.kw && within 1 11 c.kh && within 1 sd c.sx && within 1 sd c.sy && within 1 sd c.dx &&
    within 1 sd c.dy && within 0 pads c.pl && within 0 pads c.pr && within 0 pads c.pt && within 0 pads c.pb &&
    (c.gen || (c.ilay != 0 && c.olay != 0)) && decide (1 ≤ c.ow) && decide (1 ≤ c.oh) &&
    (c.oscm != 1 || decide (c.ow ≤ 2048)) && (c.oscm != 2 || decide (c.ow ≤ 1024)) && decide (c.blobBytes ≤ 98304) &&
    decide (c.bufLines * c.iw * c.cin * c.ie ≤ 147456))

/-- GENOK: in modes 1 to 3 (R325, R580). -/
def State.genOk (s : State) : Bool := s.getF 0 Fld.DEV_MODE_MODE != 0

/-- What refuses a descriptor at take, if anything. -/
def State.edgeRefusal (s : State) (fn : Nat) (b : List Byte) : Option Status :=
  let c := parseConv b
  if s.edgeMalformed fn b then some .edgeMalformed
  else if c.overLimit then some .edgeLimit
  else if c.gen && !s.genOk then some .genRefused
  else if !((c.ilay == 3 || s.extentOk fn c.iaddr c.inBytes .read) && s.extentOk fn c.oaddr c.outBytes .write &&
      s.extentOk fn c.waddr c.blobBytes .read) then some .accessDenied
  else none

/-! ## One output row (R317, R318, R331) -/

/-- The input index that output index `o` and tap `k` meet in one dimension. -/
def tapIndex (transposed : Bool) (o k i s d p : Nat) : Option Nat :=
  if transposed then
    if o + p < k * d ∨ (o + p - k * d) % s ≠ 0 ∨ i ≤ (o + p - k * d) / s then none else some ((o + p - k * d) / s)
  else if o * s + k * d < p ∨ i ≤ o * s + k * d - p then none else some (o * s + k * d - p)

/-- Input rows that an output row needs. -/
def Conv.rowsFor (c : Conv) (oy : Nat) : List Nat :=
  (List.range c.kh).filterMap fun ky => tapIndex (c.op == 2) oy ky c.ih c.sy c.dy c.pt

/-- Byte offset of an element of a tensor of `w` by `h` (R159). -/
def elemOff (lay pitch e w h ch y x : Nat) : Nat :=
  if lay = 0 then (ch * h + y) * pitch + x * e
  else
    let nb := if lay = 1 then 16 else 32
    let tile := (ch / nb * cdiv h 4 + y / 4) * cdiv w 8 + x / 8
    tile * ctileBytes lay e + ((8 * (y % 4) + x % 8) * nb + ch % nb) * e

/-- One input element. -/
def State.edgeElem (s : State) (fn : Nat) (c : Conv) (r : EdgeRun) (ci iy ix : Nat) : Except Status Nat :=
  if c.ilay = 3 then .ok ((assocGet [] r.lines iy).getD (ix * c.cin + ci) 0)
  else (s.engRead fn (c.iaddr + elemOff c.ilay c.ipitch c.ie c.iw c.ih ci iy ix) c.ie).map leNat

/-- Put a value into a list at a place. -/
def insertAt {α : Type} (l : List α) (k : Nat) (a : α) : List α := l.take k ++ a :: l.drop k

/-- A list in an order that the manual leaves open (log entry 23). -/
def anyOrder {α : Type} (seed : Nat) (l : List α) : List α :=
  l.zipIdx.foldl (fun acc e => insertAt acc (Config.accOrder seed e.2 % (acc.length + 1)) e.1) []

/-- Type of an element format code. -/
def fmtTy (f : Nat) : Ty := (tyOf f).getD .fp32

/-- Products of one output element: input and weight values. -/
def State.edgeProducts (s : State) (fn : Nat) (c : Conv) (r : EdgeRun) (co oy ox : Nat) : Except Status (List (FVal × FVal)) :=
  let taps := (List.range c.cin).flatMap fun ci => (List.range c.kh).flatMap fun ky => (List.range c.kw).filterMap fun kx =>
    match tapIndex (c.op == 2) oy ky c.ih c.sy c.dy c.pt, tapIndex (c.op == 2) ox kx c.iw c.sx c.dx c.pl with
    | some iy, some ix => some (ci, iy, ix, ((co * c.cin + ci) * c.kh + ky) * c.kw + kx)
    | _, _ => none
  taps.mapM fun (t : Nat × Nat × Nat × Nat) => (s.edgeElem fn c r t.1 t.2.1 t.2.2.1).map fun v =>
    ((fmtTy c.ifmt).value v, (fmtTy c.ifmt).value (leField r.blob (64 + t.2.2.2 * c.ie) c.ie))

/-- Accumulate products: exactly for INT8, whose sums of at most 256 * 121 products stay within INT32, or in FP32 in an open order
(R146, R331). -/
def convSum (isInt : Bool) (seed : Nat) (l : List (FVal × FVal)) : FVal :=
  if isInt then l.foldl (fun a p => FVal.add 0 a (FVal.mul p.1 p.2)) fvZero
  else (anyOrder seed l).foldl (fun a p => rnd32 (FVal.add 0 a (FVal.mul p.1 p.2))) fvZero

/-- Value of one output element before conversion. -/
def State.edgeValue (s : State) (fn : Nat) (c : Conv) (r : EdgeRun) (co oy ox seed : Nat) : Except Status FVal :=
  (s.edgeProducts fn c r co oy ox).map fun l =>
    let bias := leField r.blob (64 + c.weightBytes + 4 * co) 4
    let scl := leField r.blob (64 + c.weightBytes + 4 * c.cout + 4 * co) 4
    let t := rnd32 (FVal.add 0 (rnd32 (FVal.mul (convSum (c.ifmt == 9) seed l) (fpVal scl))) (fpVal bias))
    actStep c.act t fvZero

/-- Bytes of a pixel's block in a channel-blocked output, with its scale code. -/
def pixelBytes (c : Conv) (tscale : Nat) (vs : List FVal) : List Byte × Nat :=
  let ty := fmtTy c.ofmt
  if c.oscm = 0 then (packCodes ty.width (vs.map (ty.code 0 0)), 0)
  else
    let q := quantBlock ty c.oscm 0 (fpVal tscale) 0 vs
    (packCodes ty.width q.2, q.1)

/-- Write one block of a pixel, and its scale (R142, R329). -/
def State.putPixel (s : State) (fn : Nat) (c : Conv) (tscale blk y x : Nat) (vs : List FVal) : State :=
  let nb := if c.olay = 1 then 16 else 32
  let pb := pixelBytes c tscale vs
  let s1 := (s.vaWrite fn .engine (c.oaddr + elemOff c.olay 0 c.oe c.ow c.oh (blk * nb) y x) pb.1).1
  if c.oscm = 0 then s1
  else
    let tile := (blk * cdiv c.oh 4 + y / 4) * cdiv c.ow 8 + x / 8
    let side := c.oaddr + tensorTiles c.olay c.ow c.oh c.cout * ctileBytes c.olay c.oe + tile * (64 * c.oscm)
    let s2 := (s1.vaWrite fn .engine (side + 8 * (y % 4) + x % 8) (leBytes 1 pb.2)).1
    if c.oscm = 2 then (s2.vaWrite fn .engine (side + 64) (leBytes 4 tscale)).1 else s2

/-- Compute and write one output row, with the padding elements of its tiles as zero (R159, R329). -/
def State.edgeRow (s : State) (fn : Nat) (c : Conv) (r : EdgeRun) (oy : Nat) : Except Status State :=
  let vals := (List.range c.ow).mapM fun ox => (List.range c.cout).mapM fun co =>
    s.edgeValue fn c r co oy ox (s.free + ox * c.cout + co)
  vals.map fun px =>
    let s0 := { s with free := s.free + c.ow * c.cout }
    let ty := fmtTy c.ofmt
    if c.olay = 0 then
      (List.range c.cout).foldl (fun s co =>
        let row := px.map fun p => ty.code 0 0 (p.getD co fvZero)
        (s.vaWrite fn .engine (c.oaddr + (co * c.oh + oy) * c.opitch) (packCodes ty.width row)).1) s0
    else
      let nb := if c.olay = 1 then 16 else 32
      let tscale := leField r.blob 0 4
      let put := fun (s : State) (y x : Nat) (p : List FVal) => (List.range (cdiv c.cout nb)).foldl (fun s k =>
        s.putPixel fn c tscale k y x ((List.range nb).map fun i => p.getD (k * nb + i) fvZero)) s
      let s1 := (List.range (cdiv c.ow 8 * 8)).foldl (fun s x => put s oy x (px.getD x [])) s0
      if oy + 1 < c.oh then s1
      else (List.range (cdiv c.oh 4 * 4 - c.oh)).foldl (fun s k =>
        (List.range (cdiv c.ow 8 * 8)).foldl (fun s x => put s (c.oh + k) x []) s) s1

/-! ## Pyramid input (R335) -/

/-- Level buffer of a channel. -/
def State.levelBuf (s : State) (vc l : Nat) : LevelBuf := assocGet {} s.input.levels (vc * 8 + l)

/-- First input row that an output row needs, or those beyond it. -/
def Conv.firstRow (c : Conv) (oy : Nat) : Nat := (c.rowsFor oy).foldl Nat.min (if c.op = 2 then (oy + c.pt) / c.sy else oy * c.sy - c.pt)

/-- Lines of a frame that a level's buffer still gives: the last 32, and those overwritten in this very tick (R335). -/
def LevelBuf.kept (b : LevelBuf) (tick frame : Nat) : List (Nat × List Nat) :=
  ((b.lines ++ if b.spentAt = tick then b.spent else []).filter fun l => l.1 == frame).map (·.2)

/-- A level's buffer as new lines of its frame come: lines beyond the last 32 are overwritten. -/
def LevelBuf.put (b : LevelBuf) (tick top : Nat) (news : List (Nat × List Nat)) : LevelBuf :=
  let all := b.lines ++ news.map fun l => (b.frame, l)
  { b with
    offered := top, firstAt := if b.offered = 0 then tick else b.firstAt, lines := all.drop (all.length - 32)
    spent := (if b.spentAt = tick then b.spent else []) ++ all.take (all.length - 32), spentAt := tick }

/-- What the engine reads of a level as lines are offered: it binds to the first frame whose first line comes at or after the take,
and fills its line buffer. -/
def State.edgeFill (s : State) (ctx : Nat) : State :=
  match s.task edgeR ctx, s.edge.runs.find? fun e => e.1 == ctx with
  | some t, some (_, r) =>
    let c := parseConv t.desc
    if c.ilay ≠ 3 then s
    else
      let b := s.levelBuf c.vc c.level
      let r1 := if r.frame.isNone && decide (0 < b.offered) && decide (t.started ≤ b.firstAt) then { r with frame := some b.frame }
        else r
      let lo := c.firstRow r1.row
      let fresh := match r1.frame with
        | some f => (b.kept s.ticks f).filter fun (l : Nat × List Nat) => decide (lo ≤ l.1) && decide (l.1 < lo + c.bufLines)
        | none => []
      let kept := r1.lines.filter fun l => decide (lo ≤ l.1)
      let r2 := { r1 with lines := fresh.foldl (fun a (l : Nat × List Nat) => assocInsert l.1 l.2 a) kept }
      { s with edge := { s.edge with runs := assocInsert ctx r2 s.edge.runs } }
  | _, _ => s

/-- Whether a row's lines are all read; whether one of them can no longer be. -/
def State.rowLines (s : State) (c : Conv) (r : EdgeRun) : Bool × Bool :=
  if c.ilay ≠ 3 then (true, false)
  else
    let need := (c.rowsFor r.row).filter fun y => !r.lines.any fun l => l.1 == y
    let b := s.levelBuf c.vc c.level
    let gone := match r.frame with
      | some f => need.any fun y => !((b.kept s.ticks f).any fun l => l.1 == y) && (f != b.frame || decide (y < b.offered))
      | none => false
    (need.isEmpty && r.frame.isSome, gone)

/-! ## Taking, segments, completion (R333 to R336) -/

/-- Write WB_STATUS and WB_ROWS, and finish (R336). -/
def State.edgeFinish (s : State) (ctx : Nat) (t : Task) (rows : Nat) (st : Status) : State :=
  let c := parseConv t.desc
  let s1 := (s.vaWrite t.fn .engine (t.va + 60) (leBytes 2 st.code ++ leBytes 2 rows)).1
  let s2 := { s1 with edge := { s1.edge with runs := assocErase ctx s1.edge.runs } }
  let s3 := s2.finishTask edgeR ctx t st (if c.next then some c.nextq else none)
  if st = .edgeOverrun then (s3.bump t.fn Fld.EDG_OVERRUN 1).raiseIrq 0x0F t.fn 2 else s3

/-- Take the descriptor at the head of a function's ring: it is refused at once, or its weight blob is loaded (R330, R332). -/
def State.edgeTake (s : State) (fn op : Nat) : State :=
  if !s.ringServed edgeR fn then s
  else match s.ringDesc edgeR fn with
    | (s1, va, .error e) =>
      let s2 := s1.takeTask edgeR fn va (List.replicate 64 0#8)
      let ctx := ctxOf (s.getF fn (edgeR.cfg 5 4))
      match s2.task edgeR ctx with
      | some t => s2.finishTask edgeR ctx t (readStatus e) none
      | none => s2
    | (s1, va, .ok b) =>
      if leField b 0 1 = 3 - op then s
      else
        let ctx := ctxOf (s.getF fn (edgeR.cfg 5 4))
        let s2 := s1.takeTask edgeR fn va b
        match s2.task edgeR ctx with
        | none => s2
        | some t =>
          let c := parseConv b
          match s2.edgeRefusal fn b with
          | some st => s2.edgeFinish ctx t 0 st
          | none => match s2.engRead fn c.waddr c.blobBytes with
            | .error st => s2.edgeFinish ctx t 0 st
            | .ok blob =>
              if leField blob 4 60 ≠ 0 then s2.edgeFinish ctx t 0 .edgeMalformed
              else ({ s2 with edge := { s2.edge with runs := assocInsert ctx { blob := blob } s2.edge.runs } }).edgeFill ctx

/-- EDGE_CONV: a CONV descriptor, or one with a reserved OP, is taken (R332). -/
def execEdgeConv (fn : Nat) (s : State) : Out := .next (s.edgeTake fn 1)

/-- EDGE_CONVT: a CONVT descriptor is taken (R332). -/
def execEdgeConvt (fn : Nat) (s : State) : Out := .next (s.edgeTake fn 2)

/-- EDGE_TAIL_DOORBELL (R334). -/
def execEdgeTailDoorbell (fn v : Nat) (s : State) : Out := .next (s.engTail edgeR fn v)

/-- Smallest power of two at or above a number up to 32. -/
def pow2Up (n : Nat) : Nat := if n ≤ 1 then 1 else if n ≤ 2 then 2 else if n ≤ 4 then 4 else if n ≤ 8 then 8 else if n ≤ 16 then 16 else 32

/-- Engine cycles of one output row with the fast generator (R333). -/
def Conv.rowCycles (c : Conv) : Nat :=
  let pp := 32 / pow2Up (Nat.min c.cout 32)
  let kh := if c.op = 2 then cdiv c.kh c.sy else c.kh
  let kw := if c.op = 2 then cdiv c.kw c.sx else c.kw
  cdiv c.ow pp * kh * cdiv (c.cin * kw) 32 * cdiv c.cout 32

/-- Whether context 0 has a segment ready: rows are left, and their lines have come or it is to stop. -/
def State.edgeReady0 (s : State) : Bool :=
  match s.task edgeR 0, s.edge.runs.find? fun e => e.1 == 0 with
  | some t, some (_, r) =>
    let c := parseConv t.desc
    decide (r.row < c.oh) && ((s.rowLines c r).1 || t.stop.isSome || (c.gen && r.genFell))
  | _, _ => false

/-- EDGE_SEGMENT_END: a segment of a context's descriptor ends; its row is written with the row's last segment, and a descriptor that
is to stop stops here; an uncorrectable error of the context's local memory ends it (R326, R333, R334, R335, R337, R338). -/
def execEdgeSegmentEnd (ctx : Nat) (s : State) : Out :=
  .next (match s.task edgeR ctx, s.edge.runs.find? fun e => e.1 == ctx with
    | some t, some (_, r0) =>
      let c := parseConv t.desc
      let busy := s.edgeReady0
      let s0 := s.edgeFill ctx
      let r := ((s0.edge.runs.find? fun e => e.1 == ctx).map (·.2)).getD r0
      let put := fun (s : State) (r : EdgeRun) => { s with edge := { s.edge with runs := assocInsert ctx r s.edge.runs } }
      let (ready, lost) := s0.rowLines c r
      if lost then s0.edgeFinish ctx t r.row .edgeOverrun
      else if c.oh ≤ r.row then s
      else if !s.ctxMay edgeR ctx busy then s
      else if t.stop.isNone && !(c.gen && r.genFell) && !ready then s0
      else match s0.localErr 0x0F ctx with
      | some (_, s1) => s1.edgeFinish ctx t r.row .eccUncorrectable
      | none =>
        let cyc := Nat.min 4096 (c.rowCycles - 4096 * r.seg) * (if c.gen then 4 else 1)
        let s1 := ((s0.setTask edgeR ctx { t with mism := false }).ctxRan edgeR ctx busy).bump t.fn Fld.EDG_BUSY cyc
        let last := decide (c.rowCycles ≤ 4096 * (r.seg + 1))
        let go := fun (s : State) (r : EdgeRun) => match t.stop with
          | some st => s.edgeFinish ctx t r.row st
          | none => if c.gen && r.genFell then s.edgeFinish ctx t r.row .genRefused
            else (put s r).edgeFill ctx
        if !last then go s1 { r with seg := r.seg + 1 }
        else if !ready then s1.edgeFinish ctx t r.row (t.stop.getD .genRefused)
        else match s1.edgeRow t.fn c r r.row with
          | .error st => s1.edgeFinish ctx t r.row st
          | .ok s2 => go s2 { r with row := r.row + 1, seg := 0 }
    | _, _ => s)

/-- EDGE_DESCRIPTOR_COMPLETE: every output write has performed (R336). -/
def execEdgeDescriptorComplete (ctx : Nat) (s : State) : Out :=
  .next (match s.task edgeR ctx, s.edge.runs.find? fun e => e.1 == ctx with
    | some t, some (_, r) => if (parseConv t.desc).oh ≤ r.row then s.edgeFinish ctx t r.row .ok else s
    | _, _ => s)

/-! ## Faults and states (R337, R338) -/

/-- GENOK falls: every descriptor that runs stops at its next segment boundary if it has GEN set (R326). -/
def State.genFall (s : State) : State :=
  { s with edge := { s.edge with runs := s.edge.runs.map fun e => (e.1, { e.2 with genFell := true }) } }

/-- Rows that a context's descriptor has written. -/
def State.edgeRows (s : State) (ctx : Nat) : Nat := (assocGet {} s.edge.runs ctx).row

/-- Complete every running descriptor. -/
def State.edgeEndAll (s : State) (st : Status) : State :=
  (s.edge.eng.tasks).foldl (fun s t => s.edgeFinish t.1 t.2 (s.edgeRows t.1) st) s

/-- EDGE_RESIDUE_MISMATCH: the segment is recomputed once; a second mismatch in it fails the descriptor (R338). -/
def execEdgeResidueMismatch (ctx : Nat) (s : State) : Out :=
  .next (match s.task edgeR ctx with
    | none => s
    | some t =>
      let s1 := s.noteMism edgeR Fld.EDG_RESIDUE
      if t.mism then s1.edgeFinish ctx t (s.edgeRows ctx) .internalError else s1.setTask edgeR ctx { t with mism := true })

/-- EDGE_THIRD_MISMATCH: a third mismatch within 1 s faults the page (R337). -/
def execEdgeThirdMismatch (s : State) : Out :=
  .next (if s.pageSt 0x0F = stOn ∧ s.thirdMism edgeR then (s.edgeEndAll .internalError).setPageSt 0x0F stFault else s)

/-- What the engine does as it starts: the local memory is cleared. -/
def State.edgeStart (s : State) : State := s.setEngSt edgeR { s.edge.eng with mism := [] }

/-- What it does as it stops: running descriptors end at segment boundaries with CANCELLED. -/
def State.edgeStop (s : State) : State := s.stopTasks edgeR .cancelled

/-- EDGE_ENABLE (R337, R683). -/
def execEdgeEnable (fn : Nat) (on : Bool) (s : State) : Out :=
  .next (s.engCtl edgeR fn (s.blockEnable 0x0F on State.edgeStart State.edgeStop))

/-- EDGE_QUIESCE (R337, R683). -/
def execEdgeQuiesce (fn : Nat) (s : State) : Out := .next (s.engCtl edgeR fn (s.blockQuiesce 0x0F State.edgeStop))

/-- EDGE_RESET (R337, R683). -/
def execEdgeReset (fn : Nat) (s : State) : Out :=
  .next (s.engCtl edgeR fn (if s.pageSt 0x0F = stFault then s.blockReset 0x0F State.edgeStart else s))

/-- EDGE_START_DONE (R337). -/
def execEdgeStartDone (s : State) : Out := .next (s.blockOn 0x0F (fun s => s) State.edgeStop)

/-- EDGE_STOP_DONE: both contexts are idle (R337). -/
def execEdgeStopDone (s : State) : Out := .next (if s.edge.eng.tasks.isEmpty then s.blockOff 0x0F State.edgeStart else s)

end Sys2Proof.Machine
end

