-- ==== Sys2Proof/Machine/InputMath.lean ====
section
/-! DEFINITION. The Input pipeline's arithmetic: raw front end, pyramid levels, samples and noise (R349, R351, R355, R356, R361, R362,
R367; log entry 29).

A captured line's elements are pixels: a raw value; for RGB888 red in [23:16], green in [15:8] and blue in [7:0]; for YUV422 luma in
[15:8] and chroma in [7:0], U at even and V at odd columns. -/

namespace Sys2Proof.Machine

/-- A quotient rounded as the pipeline rounds it at a place: down, or to the nearest. -/
def inpDiv (site : List Nat) (n : Int) (d : Nat) : Int := if Config.formOf site % 2 = 0 then n / d else (2 * n + d) / (2 * d)

/-- Saturation to 16 bits unsigned. -/
def sat16 (n : Int) : Nat := if n < 0 then 0 else if 65535 < n then 65535 else n.toNat

/-! ## Raw front end (R348, R349) -/

/-- Bits per pixel of a data type; none where it is not supported (R345). -/
def dtBits (dt : Nat) : Option Nat :=
  match dt with
  | 0x2A => some 8
  | 0x2B => some 10
  | 0x2C => some 12
  | 0x2D => some 14
  | 0x2E => some 16
  | 0x1E => some 16
  | 0x24 => some 24
  | _ => none

/-- Flags of a front-end block. -/
def feFlag (b : List Byte) (i : Nat) : Bool := bit (leField b 0 1) i

/-- Place of a pixel in the colour filter's 2 × 2 square. -/
def cfaAt (x y : Nat) : Nat := 2 * (y % 2) + x % 2

/-- A raw pixel after black level, lens shading and white balance. -/
def rawPixel (b : List Byte) (dt w h : Nat) (lines : List (List Nat)) (x y : Nat) : Nat :=
  let p := cfaAt x y
  let raw := ((lines.getD y []).getD x 0) * 2 ^ (16 - (dtBits dt).getD 16)
  let x1 := sat16 ((raw : Int) - leField b (4 + 2 * p) 2)
  let gains := (List.range 221).map fun i => leField b (96 + 8 * i + 2 * p) 2
  let x2 := if feFlag b 3 then x1 else sat16 (inpDiv [80] (x1 * Config.lscGain gains w h x y) 4096)
  if feFlag b 2 then x2 else sat16 (inpDiv [81] (x2 * leField b (12 + 2 * p) 2) 4096)

/-- The colour matrix and offsets. -/
def colourMatrix (b : List Byte) (rgb : List Nat) : List Nat :=
  if feFlag b 4 then rgb
  else (List.range 3).map fun r =>
    let s := (List.range 3).foldl (fun (a : Int) k => a + toSigned 16 (leField b (20 + 6 * r + 2 * k) 2) * rgb.getD k 0) 0
    sat16 (inpDiv [82] s 4096 + toSigned 16 (leField b (38 + 2 * r) 2))

/-- The gamma table: linear between entries, entry 1,023 held to the end; a value of 65,536ths. -/
def gammaOf (b : List Byte) (x : Nat) : Nat :=
  if feFlag b 5 then x
  else
    let t := fun i => leField b (2048 + 2 * min 1023 i) 2
    (t (x / 64) + inpDiv [83] (((t (x / 64 + 1) : Int) - t (x / 64)) * (x % 64 : Nat)) 64).toNat

/-- Level 0 of a captured frame in 65,536ths: the front end, by channel. The demosaic reads the 5 × 5 pixels about its own. -/
def frontEnd (b : List Byte) (dt w h : Nat) (lines : List (List Nat)) (c x y : Nat) : Nat :=
  let px := (lines.getD y []).getD x 0
  let one := fun (rgb : List Nat) => if leField b 50 1 = 1 then Config.luma rgb else rgb.getD c 0
  if dt = 0x24 then gammaOf b (one ((List.range 3).map fun k => px / 2 ^ (16 - 8 * k) % 256 * 256))
  else if dt = 0x1E then
    let ch := fun i => ((lines.getD y []).getD i 0) % 256
    gammaOf b (one (Config.yuvRgb (px / 256 % 256) (ch (x / 2 * 2)) (ch (x / 2 * 2 + 1))))
  else if feFlag b 2 then gammaOf b (rawPixel b dt w h lines x y)
  else
    let near := (List.range 25).map fun (i : Nat) =>
      let (u, v) := ((x : Int) + (i % 5 : Nat) - 2, (y : Int) + (i / 5 : Nat) - 2)
      if u < 0 ∨ v < 0 ∨ (w : Int) ≤ u ∨ (h : Int) ≤ v then none else some (rawPixel b dt w h lines u.toNat v.toNat)
    gammaOf b (one (colourMatrix b (Config.demosaic (leField b 0 1 % 4) (cfaAt x y) near)))

/-! ## Levels (R355, R356) -/

/-- The code that a level holds for a value: FP16, or round(255 v) − 128. -/
def holdCode (int8 : Bool) (v : FVal) : Nat :=
  if !int8 then fmtFp16.encode 0 0 v
  else
    let x := FVal.mul (.fin false 255 0) v
    let n := if Config.formOf [84] % 2 = 0 then x.toIntSat 0 0 0 255 else (FVal.add 0 x (.fin false 1 (-1))).toIntSat 3 0 0 255
    ofSigned 8 (n - 128)

/-- The value of a code that a level holds, as an FP32 code; INT8 enters as (q + 128) / 255 (R362). -/
def heldValue (int8 : Bool) (c : Nat) : Nat :=
  if int8 then fmtFp32.encode 0 0 (FVal.div (FVal.ofInt (toSigned 8 c + 128) 0 false) (.fin false 255 0))
  else fpCode (fmtFp16.decode c)

/-- A column or row held inside a range, whose ends are replicated. -/
def replicated (lo n : Nat) (i : Int) : Nat := if i < lo then lo else if (lo + n : Int) ≤ i then lo + n - 1 else i.toNat

/-- One value of the 8-tap resampler: the taps of its phase against eight values, rounded as the pipeline rounds it. -/
def tap8 (num den phase : Nat) (vs : List Nat) : Nat :=
  let ts := (List.range 8).map fun k => Config.lanczos num den phase k
  let s := (ts.zip vs).foldl (fun a (e : Int × Nat) => FVal.add 0 a (FVal.mul (FVal.ofInt e.1 (-14) false) (fpVal e.2))) (.fin false 0 0)
  match s with
  | .fin neg m e => Config.tapRound (if neg then -(m : Int) else m) e
  | _ => fpCode s

/-- Resample an image by num / den source pixels for each output pixel, at an output place, its edges those of a window; in which
direction it goes first is open. -/
def resample (img : Nat → Nat → Nat) (x0 y0 w h : Nat) (nx dx ny dy u v : Nat) : Nat :=
  let px := Config.resPos nx dx u
  let py := Config.resPos ny dy v
  let xs := (List.range 8).map fun (k : Nat) => replicated x0 w (x0 + px.1 + k)
  let ys := (List.range 8).map fun (k : Nat) => replicated y0 h (y0 + py.1 + k)
  if Config.formOf [85] % 2 = 0 then tap8 ny dy (py.2 % 64) (ys.map fun y => tap8 nx dx (px.2 % 64) (xs.map fun x => img x y))
  else tap8 nx dx (px.2 % 64) (xs.map fun x => tap8 ny dy (py.2 % 64) (ys.map fun y => img x y))

/-- Code of an element of a pyramid level, from the values of level 0 (R355, R356). -/
def levelCode (pyr : List Byte) (w h : Nat) (base : Nat → Nat → Nat → FVal) : Nat → Nat → Nat → Nat → Nat
  | 0, c, x, y => holdCode (pyrInt8 pyr 0) (base c x y)
  | l + 1, c, x, y =>
    let d := pyrDims pyr w h l
    let r := leField pyr (4 + 2 * l) 2
    let img := fun u v => heldValue (pyrInt8 pyr l) (levelCode pyr w h base l c u v)
    holdCode (pyrInt8 pyr (l + 1)) (fpVal (resample img 0 0 d.1 d.2 65536 r 65536 r x y))

/-- Level 0 of a captured frame, as values. -/
def capBase (b : List Byte) (dt w h : Nat) (lines : List (List Nat)) (c x y : Nat) : FVal := .fin false (frontEnd b dt w h lines c x y) (-16)

/-- Elements of a line of a captured level, channels of a pixel together. -/
def pyrLine (b : List Byte) (dt w h : Nat) (lines : List (List Nat)) (l y : Nat) : List Nat :=
  let pyr := (b.drop 48).take 32
  (List.range (pyrDims pyr w h l).1).flatMap fun x =>
    (List.range (pyrCh pyr)).map fun c => levelCode pyr w h (capBase b dt w h lines) l c x y

/-- The last source line that a line of a level depends on. -/
def lineNeed (pyr : List Byte) (w h : Nat) : Nat → Nat → Nat
  | 0, y => min (h - 1) (y + 2)
  | l + 1, y =>
    let d := pyrDims pyr w h l
    lineNeed pyr w h l (replicated 0 d.2 ((Config.resPos 65536 (leField pyr (4 + 2 * l) 2) y).1 + 7))

/-! ## Samples (R361, R362) -/

/-- Largest of FP32 codes 0 and smallest of 1: clamp to [0, 1]. -/
def clamp01 (c : Nat) : Nat := if fmtFp32.lt c 0 then 0 else if fmtFp32.lt 0x3F800000 c then 0x3F800000 else c

/-- An FP16 field as an FP32 code. -/
def halfField (e : List Byte) (o : Nat) : Nat := fpCode (fmtFp16.decode (leField e o 2))

/-- The generator's 64 bits (R362). -/
def noiseHash (seed c p : Nat) : Nat :=
  let m := 2 ^ 64
  let z0 := ((seed * 2 ^ 32 ||| c * 2 ^ 28 ||| p) + 0x9E3779B97F4A7C15) % m
  let z1 := (z0 ^^^ (z0 / 2 ^ 30)) * 0xBF58476D1CE4E5B9 % m
  let z2 := (z1 ^^^ (z1 / 2 ^ 27)) * 0x94D049BB133111EB % m
  z2 ^^^ (z2 / 2 ^ 31)

/-- noise(SEED, c, p): √(−2 ln u1) × cos(2π u2), with u1 = (z[63:40] + 1) / 2^24 and u2 = z[39:16] / 2^24. -/
def noiseAt (seed c p : Nat) : Nat :=
  let z := noiseHash seed c p
  Config.deviate (bits z 63 40 + 1) (bits z 39 16)

/-- A value of a level through an affine entry: A × (u + 0.5, v + 0.5, 1) − 0.5, bilinear; MEAN outside the level. -/
def affineAt (e : List Byte) (img : Nat → Nat → Nat) (w h mean u v : Nat) : Nat :=
  let f := fmtFp32
  let half := 0x3F000000
  let a := fun i => leField e (12 + 4 * i) 4
  let (fu, fv) := (f.add (f.ofInt u) half, f.add (f.ofInt v) half)
  let pos := fun r => f.sum [86, r] [.prod (a (3 * r)) fu, .prod (a (3 * r + 1)) fv, .val (a (3 * r + 2)), .val (f.neg half)]
  match whole (pos 0), whole (pos 1) with
  | some i, some j =>
    let (tx, ty) := (f.sub (pos 0) (f.ofInt i), f.sub (pos 1) (f.ofInt j))
    let tap := fun (x y : Int) =>
      if x < 0 ∨ y < 0 ∨ (w : Int) ≤ x ∨ (h : Int) ≤ y then
        (if Config.formOf [87] % 2 = 0 then mean else img (replicated 0 w x) (replicated 0 h y))
      else img x.toNat y.toNat
    let out := fun (x : Int) (n : Nat) => decide (x < -1 ∨ (n : Int) ≤ x)
    if out i w || out j h then mean
    else f.sum [88] [
      .prod (f.mul (f.sub f.one tx) (f.sub f.one ty)) (tap i j), .prod (f.mul tx (f.sub f.one ty)) (tap (i + 1) j),
      .prod (f.mul (f.sub f.one tx) ty) (tap i (j + 1)), .prod (f.mul tx ty) (tap (i + 1) (j + 1))]
  | _, _ => mean
where
  /-- The whole number at or below a finite FP32 code. -/
  whole (c : Nat) : Option Int := match fpVal c with
    | .fin s m e => some (FVal.scaled s m e (min e 0) / 2 ^ (-(min e 0)).toNat)
    | _ => none

/-- A sample's element before the conversion to OFMT, as an FP32 code, at an output place: entry, queue descriptor, the level's values
and size (R362). Positions are mirrored; the noise goes by the output place. -/
def sampleAt (e d : List Byte) (img : Nat → Nat → Nat → Nat) (w h c u v : Nat) : Nat :=
  let f := fmtFp32
  let (ow, oh) := (leField d 16 2, leField d 18 2)
  let fl := leField e 8 1
  let (mean, istd) := (halfField d (48 + 2 * c), halfField d (54 + 2 * c))
  let (su, sv) := (if bit fl 0 then ow - 1 - u else u, if bit fl 1 then oh - 1 - v else v)
  let (cx, cy, cw, ch) := (leField e 0 2, leField e 2 2, leField e 4 2, leField e 6 2)
  let s0 := if bit fl 2 then affineAt e (img c) w h mean su sv
    else if Config.formOf [89] % 2 = 0 then resample (img c) cx cy cw ch cw ow ch oh su sv
    else resample (fun x y => img c (replicated 0 w (cx + x)) (replicated 0 h (cy + y))) 0 0 cw ch cw ow ch oh su sv
  let s1 := clamp01 (f.sum [90] [.prod (halfField e 38) (f.sub s0 0x3F000000), .val 0x3F000000, .val (halfField e 36)])
  let s2 := Config.inpPow s1 (halfField e 40)
  let sig := halfField e 42
  let s3 := if (fpVal sig).isZero then s2
    else clamp01 (f.sum [91] [.val s2, .prod sig (noiseAt (leField e 44 4) c (v * ow + u))])
  f.mul (f.sub s3 mean) istd

/-- Values of a level of an image, for a sample. -/
def levelImg (pyr : List Byte) (w h : Nat) (base : Nat → Nat → Nat → FVal) (l c x y : Nat) : Nat :=
  heldValue (pyrInt8 pyr l) (levelCode pyr w h base l c x y)

/-! ## Concealment (R354, R367) -/

/-- Code of a block in a concealment map. -/
def mapCode (map : List Byte) (b : Nat) : Nat := bits (leField map (b / 4) 1) (2 * (b % 4) + 1) (2 * (b % 4))

/-- Whether a block with a code other than 0 overlaps a sample's crop, or the bounding box of its affine footprint, which the frame's
size over the level's takes to the luma plane. -/
def cropConcealed (map e d : List Byte) (w0 h0 w h : Nat) : Bool :=
  let (x0, y0, x1, y1) := if bit (leField e 8 1) 2 then Config.affineBox ((e.drop 12).take 24) (leField d 16 2) (leField d 18 2)
    else (leField e 0 2, leField e 2 2, leField e 0 2 + leField e 4 2, leField e 2 2 + leField e 6 2)
  (List.range (cdiv h0 16)).any fun r => (List.range (cdiv w0 16)).any fun c =>
    mapCode map (r * cdiv w0 16 + c) != 0 && decide (16 * c * w < x1 * w0) && decide (x0 * w0 < (16 * c + 16) * w) &&
      decide (16 * r * h < y1 * h0) && decide (y0 * h0 < (16 * r + 16) * h)

end Sys2Proof.Machine
end

