-- ==== Sys2Proof/Machine/InputQ.lean ====
section
/-! DEFINITION. The Input pipeline's pyramids, batch queues and samples (R355 to R369). -/

namespace Sys2Proof.Machine

/-! ## Pyramid sections (R357) -/

/-- Whether a pyramid section is malformed. -/
def pyrBad (p : List Byte) : Bool :=
  let n := leField p 0 1
  let ch := leField p 2 1
  let ratio := fun l => leField p (2 + 2 * l) 2
  decide (n = 0) || decide (8 < n) || (ch != 1 && ch != 3) || leField p 3 1 != 0 || leField p 18 14 != 0 ||
    ((List.range 7).any fun i => if i + 1 < n then decide (ratio (i + 1) < 0x8000) || decide (0xF333 < ratio (i + 1))
      else ratio (i + 1) != 0)

/-- Whether every level of a pyramid is at least 8 pixels wide and high (R355). -/
def pyrFits (p : List Byte) (w h : Nat) : Bool :=
  (List.range (pyrLevels p)).all fun l => decide (8 ≤ (pyrDims p w h l).1) && decide (8 ≤ (pyrDims p w h l).2)

/-! ## Queues (R360, R366) -/

/-- A batch queue, by function × 8 + local index. -/
def State.bq (s : State) (k : Nat) : BatchQ := assocGet {} s.input.bqs k

/-- Replace a batch queue. -/
def State.setBq (s : State) (k : Nat) (q : BatchQ) : State :=
  { s with input := { s.input with bqs := assocSet {} s.input.bqs k q } }

/-- A session. -/
def State.sess (s : State) (n : Nat) : Session := assocGet {} s.input.sess n

/-- Replace a session. -/
def State.setSess (s : State) (n : Nat) (x : Session) : State :=
  { s with input := { s.input with sess := assocSet {} s.input.sess n x } }

/-- Whether a queue exists. -/
def BatchQ.live (q : BatchQ) : Bool := !q.desc.isEmpty

/-- Fields of a batch queue descriptor. -/
def BatchQ.flag (q : BatchQ) (i : Nat) : Bool := bit (leField q.desc 0 1) i
def BatchQ.group (q : BatchQ) : Bool := q.flag 0
def BatchQ.next (q : BatchQ) : Bool := q.flag 1
def BatchQ.aug (q : BatchQ) : Bool := q.flag 2
def BatchQ.maps (q : BatchQ) : Bool := q.flag 3
def BatchQ.olay (q : BatchQ) : Nat := bits (leField q.desc 1 1) 3 2
def BatchQ.ofmt (q : BatchQ) : Nat := leField q.desc 1 1 / 16
def BatchQ.cls (q : BatchQ) : Nat := leField q.desc 1 1 % 4
def BatchQ.n (q : BatchQ) : Nat := leField q.desc 2 1
def BatchQ.slots (q : BatchQ) : Nat := leField q.desc 3 1
def BatchQ.srcs (q : BatchQ) : List Nat := (List.range (leField q.desc 4 1)).map fun i => leField q.desc (8 + i) 1
def BatchQ.level (q : BatchQ) : Nat := leField q.desc 5 1
def BatchQ.nextq (q : BatchQ) : Nat := leField q.desc 6 2
def BatchQ.ow (q : BatchQ) : Nat := leField q.desc 16 2
def BatchQ.oh (q : BatchQ) : Nat := leField q.desc 18 2
def BatchQ.win (q : BatchQ) : Nat := leField q.desc 20 2
def BatchQ.low (q : BatchQ) : Nat := leField q.desc 22 1
def BatchQ.hi (q : BatchQ) : Nat := leField q.desc 23 1
def BatchQ.qva (q : BatchQ) : Nat := leField q.desc 24 8
def BatchQ.augva (q : BatchQ) : Nat := leField q.desc 32 8
def BatchQ.augsz (q : BatchQ) : Nat := leField q.desc 40 1

/-- Scale mode of a queue's samples: FP8 is written under SCM 1. -/
def BatchQ.scm (q : BatchQ) : Nat := if q.ofmt = 3 then 1 else 0

/-- The pyramid section and largest size of a source, where it has one: front-end block or session. -/
def State.srcPyr (s : State) (src : Nat) : Option (List Byte × Nat × Nat) :=
  if src < 128 then (s.capChan (src % 64)).block.map fun b =>
    ((b.drop 48).take 32, s.getF (vcBank (src % 64)) Fld.CSI_VC_GEOM_WIDTH, s.getF (vcBank (src % 64)) Fld.CSI_VC_GEOM_HEIGHT)
  else if (s.sess (src % 64)).st = 0 then none
  else
    let d := (s.sess (src % 64)).desc
    some ((d.drop 32).take 32, leField d 2 2, leField d 4 2)

/-- Channels of a queue's sources. -/
def State.bqCh (s : State) (q : BatchQ) : Nat := match s.srcPyr (q.srcs.getD 0 0) with
  | some (p, _, _) => pyrCh p
  | none => 1

/-- A convolution descriptor whose output is a sample's tiles, for the layout that batches share with it (R159). -/
def State.bqConv (s : State) (q : BatchQ) (addr : Nat) : Conv :=
  { kw := 1, kh := 1, sx := 1, sy := 1, dx := 1, dy := 1, iw := q.ow, ih := q.oh, cin := 1, cout := s.bqCh q, ofmt := q.ofmt,
    olay := q.olay, oscm := q.scm, oaddr := addr }

/-- SSTRIDE, MAPSTRIDE, and offsets of a slot (R366). -/
def State.bqStride (s : State) (q : BatchQ) : Nat := cdiv (s.bqConv q 0).outBytes 64 * 64
def State.bqMapStride (s : State) (q : BatchQ) : Nat :=
  if !q.maps then 0
  else
    let sizes := (q.srcs.filter fun c => decide (128 ≤ c)).map fun c =>
      let d := (s.sess (c % 64)).desc
      cdiv (cdiv (leField d 2 2) 16 * cdiv (leField d 4 2) 16) 4
    cdiv (sizes.foldl Nat.max 0) 64 * 64
def BatchQ.tileOff (q : BatchQ) : Nat := 64 + 64 * q.n
def State.bqMapOff (s : State) (q : BatchQ) : Nat := if q.maps then q.tileOff + q.n * s.bqStride q else 0
def State.bqSlotSize (s : State) (q : BatchQ) : Nat :=
  cdiv (q.tileOff + q.n * (s.bqStride q + s.bqMapStride q)) 4096 * 4096

/-- Address of the slot of the batch that forms. -/
def BatchQ.slot (q : BatchQ) : Nat := q.qva + 4096 + q.written % q.slots * q.slotSize

/-- READY (R364). -/
def BatchQ.ready (q : BatchQ) : Nat := sub32 q.written q.consumed

/-- Whether a run of pages is mapped writable in the Reserve. -/
def State.allReserve (s : State) (fn va n : Nat) : Bool :=
  (List.range (cdiv n 4096)).all fun i => match s.translate fn (va + 4096 * i) .write with
    | .ok (t, _) => t == 1
    | .error _ => false

/-- Whether a run of pages lies in the locked set (R166). -/
def State.allLocked (s : State) (fn va n : Nat) : Bool :=
  (List.range (cdiv n 4096)).all fun i => s.mem.locked.any fun e => e.1 == tlbKey fn (va + 4096 * i)

/-- Whether a source may feed a function's queue: a capture channel names its partition, a session is its own. -/
def State.bqSrcOk (s : State) (fn src : Nat) : Bool :=
  if src < 128 then decide (src < 16) && s.getF (vcBank src) Fld.CSI_VC_CFG_PART == fn
  else decide (src < 192) && (s.sess (src % 64)).st != 0 && (s.sess (src % 64)).fn == fn

/-- What refuses a batch queue, if anything (R360). -/
def State.bqRefusal (s : State) (fn : Nat) (q : BatchQ) : Option Status :=
  let d := q.desc
  let within := fun lo hi v => decide (lo ≤ v) && decide (v ≤ hi)
  let nsrc := leField d 4 1
  let sized := within 1 64 q.n && within 2 64 q.slots && within 1 8 nsrc && within 8 4096 q.ow && q.ow % 8 == 0 &&
    within 4 4096 q.oh && q.oh % 4 == 0 && decide (q.low ≤ q.slots) && within 1 q.slots q.hi && (!q.group || within 1 65535 q.win) &&
    (!q.aug || within 4 12 q.augsz)
  let pyrs := q.srcs.map s.srcPyr
  let good := leField d 0 1 < 16 && within 1 3 q.ofmt && within 1 2 q.olay && (q.ofmt != 3 || q.olay == 2) && q.cls != 3 &&
    (q.cls != 2 || !(s.partKFiles fn).isEmpty) && (!q.group || q.n == nsrc) && (!q.next || decide (q.nextq < s.qcount fn)) &&
    (q.srcs.all fun c => s.bqSrcOk fn c) && leField d 41 7 == 0 && leField d 60 4 == 0 && q.qva % 4096 == 0 &&
    (!q.aug || q.augva % (64 * 2 ^ q.augsz) == 0) &&
    (pyrs.all fun (p : Option (List Byte × Nat × Nat)) => match p with
      | some (b, _, _) => decide (q.level < pyrLevels b) && pyrCh b == s.bqCh q
      | none => false)
  if !sized then some .inputLimit
  else if !good then some .inputMalformed
  else
    let n := 4096 + q.slots * s.bqSlotSize q
    if !s.allReserve fn q.qva n || (q.cls == 2 && !s.allLocked fn q.qva n) then some .inputMalformed else none

/-! ## Augmentation (R361, R363) -/

/-- Whether an FP16 code lies in a range of FP16 codes. -/
def halfIn (lo hi c : Nat) : Bool :=
  let v := fmtFp16.decode c
  !v.isNan && decide (FVal.cmp (fmtFp16.decode lo) v ≤ 0) && decide (FVal.cmp v (fmtFp16.decode hi) ≤ 0)

/-- Whether a crop of a level is within R363 for an output size. -/
def cropOk (w h ow oh cx cy cw ch : Nat) : Bool :=
  decide (cx + cw ≤ w) && decide (cy + ch ≤ h) && decide (0 < cw) && decide (0 < ch) && decide (cw ≤ 4 * ow) && decide (ow ≤ 4 * cw) &&
    decide (ch ≤ 4 * oh) && decide (oh ≤ 4 * ch)

/-- Whether an augmentation entry is within its limits. -/
def augOk (e : List Byte) (w h ow oh : Nat) : Bool :=
  let f := fun o => leField e o 2
  let fl := leField e 8 1
  decide (fl < 8) && leField e 9 3 == 0 && leField e 56 8 == 0 && halfIn 0xBC00 0x3C00 (f 36) && halfIn 0 0x4800 (f 38) &&
    halfIn 0x3000 0x4800 (f 40) && halfIn 0 0x3C00 (f 42) &&
    (if bit fl 2 then f 4 == 0 && f 6 == 0 else cropOk w h ow oh (f 0) (f 2) (f 4) (f 6))

/-- The identity entry of a level (R361). -/
def augIdentity (w h : Nat) : List Byte :=
  leBytes 2 0 ++ leBytes 2 0 ++ leBytes 2 w ++ leBytes 2 h ++ leBytes 28 0 ++ leBytes 2 0 ++ leBytes 2 0x3C00 ++ leBytes 2 0x3C00 ++
    leBytes 2 0 ++ leBytes 20 0

/-- Take the next augmentation entry for a level: the queue after it, the entry, and whether it is the identity entry. -/
def State.takeAug (s : State) (k : Nat) (q : BatchQ) (w h : Nat) : BatchQ × List Byte × Bool :=
  let ident := fun (q : BatchQ) => ({ q with augId := satAdd (2 ^ 32 - 1) q.augId 1 }, augIdentity w h, true)
  if !q.aug || q.augHead == q.augTail then ident q
  else
    let q1 := { q with augHead := add32 q.augHead 1 }
    match s.engRead (k / 8) (q.augva + 64 * (q.augHead % 2 ^ q.augsz)) 64 with
    | .error _ => ident q1
    | .ok e => if augOk e w h q.ow q.oh then (q1, e, false) else ident q1

/-! ## Samples (R362, R367, R368) -/

/-- A frame as queues see it: its source code, number, stamps, and the size of level 0. -/
structure FrameInfo where
  src : Nat
  num : Nat
  sof : Nat
  trig : Nat
  w : Nat
  h : Nat
  pyr : List Byte
  deriving DecidableEq, Repr

/-- A sample's record from its frame and the figures that stand at its end. -/
def sampleRecord (x : Sample) (num sof eof trig dmgOff dmgBlk nconc nrep : Nat) : List Byte :=
  let fl := (if x.missing then 8 else 0) + (if x.ident then 4 else 0) + (if nrep = 0 then 0 else 2) + (if x.concealed then 1 else 0)
  leBytes 2 x.status.code ++ leBytes 1 x.src ++ leBytes 1 fl ++ leBytes 4 num ++ leBytes 8 sof ++ leBytes 8 eof ++ leBytes 8 trig ++
    leBytes 8 (if x.ident then 0 else leField x.aug 48 8) ++ leBytes 4 dmgOff ++ leBytes 4 dmgBlk ++ leBytes 4 nconc ++
    leBytes 2 nrep ++ leBytes 10 0

/-- The record of a MISSING sample. -/
def missingSample (x : Sample) : Sample :=
  let y := { x with missing := true, isOpen := false, status := .sampleMissing, concealed := false }
  { y with record := sampleRecord y 0 0 0 0 (2 ^ 32 - 1) (2 ^ 32 - 1) 0 0 }

/-- Place of a sample in its slot: SRC order with GROUP, otherwise the order taken. -/
def BatchQ.place (q : BatchQ) (i : Nat) : Nat :=
  if q.group then (q.srcs.findIdx? fun c => c == (q.samples.getD i {}).src).getD i else i

/-- Write the tiles of a sample, all +0.0 where it has no values; `vals` gives a channel, column and row. -/
def State.putTiles (s : State) (k : Nat) (q : BatchQ) (place : Nat) (vals : Option (Nat → Nat → Nat → Nat)) : State :=
  let c := s.bqConv q (q.slot + q.tileOff + place * s.bqStride q)
  let nb := if q.olay = 1 then 16 else 32
  let ch := s.bqCh q
  (List.range q.oh).foldl (fun s y => (List.range q.ow).foldl (fun (s : State) x =>
    let vs := (List.range nb).map fun i => match vals with
      | some f => if i < ch then fpVal (f i x y) else fvZero
      | none => fvZero
    s.putPixel (k / 8) c 0 0 y x vs) s) s

/-- CONSUMED is read, and the marks act on READY (R364, R365). -/
def State.bqConsume (s : State) (k : Nat) : State :=
  let q := s.bq k
  match s.engRead (k / 8) (q.qva + 4) 4 with
  | .error _ => s
  | .ok b =>
    let r := sub32 q.written (leNat b)
    if q.slots < r then s.raiseIrq 0x0E (k / 8) 4
    else
      let s1 := s.setBq k { q with consumed := leNat b, high := q.high && decide (q.hi ≤ r) }
      if r < q.low ∧ q.low ≤ q.ready then s1.raiseIrq 0x0E (k / 8) 1 else s1

/-- Queues that a source feeds. -/
def State.bqsOf (s : State) (src : Nat) : List Nat := (s.input.bqs.filter fun e => e.2.live && e.2.srcs.contains src).map (·.1)

/-- Whether a queue would begin a batch while READY is at HIGH or above (R365). -/
def BatchQ.full (q : BatchQ) : Bool := !q.forming && decide (q.hi ≤ q.ready)

/-- A queue takes a frame: it begins a batch or joins the one that forms, or counts the frame (R365, R368). -/
def State.bqOffer (s : State) (k : Nat) (f : FrameInfo) : State :=
  let fn := k / 8
  if !(s.bq k).live || !(s.bq k).srcs.contains f.src then s
  else
    let s1 := s.bqConsume k
    let q := s1.bq k
    let take := fun (s : State) (q : BatchQ) =>
      let d := pyrDims f.pyr f.w f.h q.level
      let a := s.takeAug k q d.1 d.2
      let lim := a.2.2 && !cropOk d.1 d.2 q.ow q.oh 0 0 d.1 d.2
      let x : Sample := { src := f.src, ident := a.2.2, aug := a.2.1, status := if lim then .inputLimit else .ok }
      s.setBq k { a.1 with samples := a.1.samples ++ [x] }
    let skip := s1.setBq k { q with skip := satAdd 0xFFFF q.skip 1 }
    if !q.forming then
      if q.full then
        let s2 := if q.high then s1 else s1.raiseIrq 0x0E fn 2
        (s2.setBq k { q with high := true, bp := satAdd 0xFFFF q.bp 1 }).raiseIrq 0x0E fn 3
      else take s1 { q with forming := true, opened := f.sof, samples := [], high := false }
    else if q.group then
      if q.samples.any (fun x => x.src == f.src) || decide (q.opened + 1000 * q.win < f.sof) then skip else take s1 q
    else if q.samples.length < q.n then take s1 q
    else skip

/-- Offer a frame to every queue. -/
def State.frameOffer (s : State) (f : FrameInfo) : State :=
  (s.input.bqs.map (·.1)).foldl (fun s k => s.bqOffer k f) s

/-- Close the open sample of a source in every queue that forms: `f` gives the sample's end, its tile values and its map. -/
def State.frameClose (s : State) (src : Nat) (f : State → BatchQ → Sample → Sample × Option (Nat → Nat → Nat → Nat) × List Byte) :
    State :=
  (s.input.bqs.map (·.1)).foldl (fun s k =>
    let q := s.bq k
    if !q.forming then s
    else match q.samples.findIdx? fun x => x.src == src && x.isOpen with
      | none => s
      | some i =>
        let r := f s q (q.samples.getD i {})
        let p := q.place i
        let s1 := s.putTiles k q p (if r.1.status = .inputLimit then none else r.2.1)
        let s2 := if q.maps && !r.2.2.isEmpty then
            (s1.vaWrite (k / 8) .engine (q.slot + s1.bqMapOff q + p * s1.bqMapStride q) r.2.2).1
          else s1
        s2.setBq k { q with samples := q.samples.set i { r.1 with isOpen := false } }) s

/-- A source's frame fails: its samples are MISSING, their tiles +0.0. -/
def State.frameFail (s : State) (src : Nat) : State := s.frameClose src fun _ _ x => (missingSample x, none, [])

/-- BATCH_GROUP_WINDOW_EXPIRY: sources without a frame are MISSING (R368). -/
def execBatchGroupWindowExpiry (bq : Nat) (s : State) : Out :=
  .next (
    let q := s.bq bq
    if !q.live || !q.forming || !q.group || decide (s.now ≤ q.opened + 1000 * q.win) then s
    else
      let absent := q.srcs.filter fun c => !q.samples.any fun x => x.src == c
      absent.foldl (fun (s : State) c =>
        let q := s.bq bq
        let q1 := { q with samples := q.samples ++ [missingSample { src := c }] }
        (s.setBq bq q1).putTiles bq q1 (q1.place (q1.samples.length - 1)) none) s)

/-- The status of a batch: the first failure in sample order, OK_CONCEALED, or OK (R366). -/
def batchStatus (l : List Sample) : Status :=
  match l.find? fun x => !x.status.isSuccess with
  | some x => x.status
  | none => if l.any fun x => x.concealed || x.status == .okConcealed then .okConcealed else .ok

/-- BATCH_COMPLETE: the last tile write performs; WRITTEN advances, and the internal doorbell rings in the same tick (R366, R369). -/
def execBatchComplete (bq : Nat) (s : State) : Out :=
  .next (
    let q := s.bq bq
    let fn := bq / 8
    if !q.live || !q.forming || q.samples.length != q.n || (q.samples.any fun x => x.isOpen) then s
    else
      let order := (List.range q.n).map fun p =>
        q.samples.getD (((List.range q.n).find? fun i => q.place i == p).getD p) {}
      let head := leBytes 4 q.written ++ leBytes 1 q.n ++ leBytes 1 0 ++ leBytes 2 (batchStatus order).code ++ leBytes 8 q.opened ++
        leBytes 8 s.now ++ leBytes 4 q.tileOff ++ leBytes 4 (s.bqStride q) ++ leBytes 4 (s.bqMapOff q) ++
        leBytes 4 (s.bqMapStride q) ++ leBytes 24 0
      let s1 := (s.vaWrite fn .engine q.slot (head ++ order.flatMap Sample.record)).1
      let w := add32 q.written 1
      let s2 := (s1.vaWrite fn .engine q.qva (leBytes 4 w)).1
      let s3 := s2.setBq bq { q with written := w, forming := false, samples := [] }
      if q.next then s3.internalDb fn q.nextq else s3)

end Sys2Proof.Machine
end

