-- ==== Sys2Proof/Machine/Input.lean ====
section
/-! DEFINITION. The Input pipeline's capture channels, decode sessions, commands and states (chapter 11). -/

namespace Sys2Proof.Machine

/-! ## Front-end blocks (R348, R359) -/

/-- Replace a capture channel. -/
def State.setCap (s : State) (v : Nat) (x : Capture) : State :=
  { s with input := { s.input with caps := assocSet {} s.input.caps v x } }

/-- An interrupt of page 0x12 goes to the owner (R375). -/
def State.csiIrq (s : State) (i : Nat) : State := match s.ownerFn with
  | some o => s.raiseIrq 0x12 o i
  | none => s

/-- The pyramid section of a front-end block. -/
def fePyr (b : List Byte) : List Byte := (b.drop 48).take 32

/-- Whether a front-end block is malformed for a frame size. -/
def feBad (b : List Byte) (w h : Nat) : Bool :=
  let f := leField b 0 1
  decide (64 ≤ f) || leField b 1 3 != 0 || leField b 44 4 != 0 || leField b 80 16 != 0 || leField b 1864 184 != 0 ||
    pyrBad (fePyr b) || (bit f 2 && pyrCh (fePyr b) != 1) || !pyrFits (fePyr b) w h

/-- A channel's pixel rate through its pyramid stage, as a fraction (R359). -/
def State.feRate (s : State) (v : Nat) (b : List Byte) : Nat × Nat :=
  let cfg := s.getF (vcBank v) Fld.CSI_VC_CFG
  let port := bits cfg 27 26
  let (w, h) := (s.getF (vcBank v) Fld.CSI_VC_GEOM_WIDTH, s.getF (vcBank v) Fld.CSI_VC_GEOM_HEIGHT)
  let area := ((List.range (pyrLevels (fePyr b))).map fun l => (pyrDims (fePyr b) w h l).1 * (pyrDims (fePyr b) w h l).2).foldl (· + ·) 0
  let line := s.getF 0 (Fld.CSI_PORTn_CFG_RATE.plus (4 * port)) * 10 ^ 7 * s.getF 0 (Fld.CSI_PORTn_CFG_LANES.plus (4 * port))
  (line * area, (dtBits (bits cfg 19 14)).getD 8 * w * h)

/-- Whether the port's enabled channels, with a block on one of them, exceed 3.2 Gpixel/s (R359). -/
def State.feTooFast (s : State) (v : Nat) (b : List Byte) : Bool :=
  let port := fun u => s.getF (vcBank u) Fld.CSI_VC_CFG_PORT
  let mine := (List.range 16).filter fun u => port u == port v && (u == v || s.flag (vcBank u) Fld.CSI_VC_CFG_EN)
  let rates := mine.filterMap fun u => if u = v then some (s.feRate v b) else (s.capChan u).block.map fun c => s.feRate u c
  let sum := rates.foldl (fun (a : Nat × Nat) r => if r.2 = 0 then a else (a.1 * r.2 + r.1 * a.2, a.2 * r.2)) (0, 1)
  decide (3200000000 * sum.2 < sum.1)

/-- Read an armed block between frames (R348). -/
def State.feLoad (s : State) (v : Nat) : State :=
  let c := s.capChan v
  if !c.armed then s
  else
    let s0 := s.setCap v { c with armed := false }
    let bank := vcBank v
    let va := s.getF bank Fld.CSI_VC_PB_LO_VA * 64 + 2 ^ 32 * s.getF bank Fld.CSI_VC_PB_HI_VA
    let fail := fun (st : Status) => (s0.setF bank Fld.CSI_VC_STS_PBSTATUS st.code).csiIrq 3
    match s.engRead (s.ownerFn.getD 0) va 4096 with
    | .error e => fail e
    | .ok b =>
      if feBad b (s.getF bank Fld.CSI_VC_GEOM_WIDTH) (s.getF bank Fld.CSI_VC_GEOM_HEIGHT) then fail .inputMalformed
      else if s.feTooFast v b then fail .inputLimit
      else ((s0.setCap v { c with armed := false, block := some b }).setF bank Fld.CSI_VC_STS_PBSTATUS 0).setF bank
        Fld.CSI_VC_STS_PBVALID 1

/-- CSI_PB_ARM: a write to CSI_VC_PB_HI arms the selected channel's block (R348, R373). -/
def execCsiPbArm (fn v : Nat) (s : State) : Out :=
  .next (s.gated fn 0x12 0x070 (
    if !s.isOwner fn then s.recErr 0x12 fn .owned 0x070
    else if 2 ^ 20 ≤ v then s.recErr 0x12 fn .inputMalformed 0x070
    else
      let vc := s.getF 0 Fld.CSI_VCSEL_VC
      let s1 := s.setF (vcBank vc) Fld.CSI_VC_PB_HI v
      s1.setCap vc { s1.capChan vc with armed := true }))

/-! ## Frames (R346, R347) -/

/-- Whether a channel takes packets: the page ON, the channel and its port enabled. -/
def State.capTakes (s : State) (vc : Nat) : Bool :=
  let cfg := s.getF (vcBank vc) Fld.CSI_VC_CFG
  s.pageSt 0x0E == stOn && bit cfg 31 && s.flag 0 (Fld.CSI_PORTn_CFG_EN.plus (4 * bits cfg 27 26))

/-- A frame that is not delivered. -/
def State.frameDrop (s : State) (vc : Nat) (irq : Bool) : State :=
  let s1 := (s.setCap vc { s.capChan vc with isOpen := false }).bump (vcBank vc) Fld.CSI_VC_DROP 1
  (if irq then s1.csiIrq 2 else s1).frameFail vc

/-- CSI_FRAME_START: a frame opens, with its stamps and the settings that take effect at it (R346, R347, R373). -/
def execCsiFrameStart (vc num : Nat) (s : State) : Out :=
  .next (
    let s0 := if (s.capChan vc).isOpen then s.frameDrop vc true else s
    if !s0.capTakes vc then s0
    else
      let s1 := s0.feLoad vc
      let c := s1.capChan vc
      let cfg := s1.getF (vcBank vc) Fld.CSI_VC_CFG
      let geom := s1.getF (vcBank vc) Fld.CSI_VC_GEOM
      let trig := if bit cfg 3 then ((s1.trigger (bits cfg 7 4)).fired).getD 0 else 0
      let c1 := { c with
        isOpen := true, num := num, sof := s1.now, trig := trig, cfg := cfg, geom := geom, lines := [], nrep := 0, bad := false
        serial := c.serial + 1 }
      let s2 := s1.setCap vc c1
      match c1.block with
      | none => s2
      | some b =>
        let s3 := (List.range 8).foldl (fun (s : State) l => { s with input := { s.input with
          levels := assocInsert (vc * 8 + l) { s.levelBuf vc l with frame := c1.serial, offered := 0 } s.input.levels } }) s2
        s3.frameOffer { src := vc, num := num, sof := c1.sof, trig := trig, w := geom % 65536, h := geom / 65536, pyr := fePyr b })

/-- Offer the level lines whose source lines are all captured (R335, R346, R356). -/
def State.levelOffer (s : State) (vc : Nat) : State :=
  let c := s.capChan vc
  let (w, h) := (c.geom % 65536, c.geom / 65536)
  match c.block with
  | none => s
  | some b => (List.range (pyrLevels (fePyr b))).foldl (fun (s : State) l =>
    let hl := (pyrDims (fePyr b) w h l).2
    let lb := s.levelBuf vc l
    let top := ((List.range hl).takeWhile fun j => decide (lineNeed (fePyr b) w h l j < c.lines.length)).length
    let news := (List.range top).filter fun j => decide (lb.offered ≤ j)
    if news.isEmpty then s
    else
      let lines := news.map fun j => (j, pyrLine b (bits c.cfg 19 14) w h c.lines l j)
      { s with input := { s.input with levels := assocInsert (vc * 8 + l) (lb.put s.ticks top lines) s.input.levels } }) s

/-- CSI_LINE: a line is captured, or repaired by the line above it, and flows downstream (R346, R335). -/
def execCsiLine (vc : Nat) (good : Bool) (data : List Nat) (s : State) : Out :=
  .next (
    let c := s.capChan vc
    if !c.isOpen then s
    else
      let w := c.geom % 65536
      let above := c.lines.getLast?.getD (List.replicate w 0)
      let c1 := { c with
        lines := c.lines ++ [if good then data else above]
        nrep := if good then c.nrep else c.nrep + 1
        bad := c.bad || (good && data.length != w) || decide (c.geom / 65536 ≤ c.lines.length) }
      let s1 := s.setCap vc c1
      let s2 := if good then s1 else (s1.bump (vcBank vc) Fld.CSI_VC_CRC 1).csiIrq 1
      ((s2.levelOffer vc).edgeFill 0).edgeFill 1)

/-- The end of a captured frame's sample. -/
def captureSample (c : Capture) (eof : Nat) (q : BatchQ) (x : Sample) :
    Sample × Option (Nat → Nat → Nat → Nat) × List Byte :=
  let rcd := sampleRecord x c.num c.sof eof c.trig (2 ^ 32 - 1) (2 ^ 32 - 1) 0 c.nrep
  let b := c.block.getD []
  let (w, h) := (c.geom % 65536, c.geom / 65536)
  let d := pyrDims (fePyr b) w h q.level
  let img := levelImg (fePyr b) w h (capBase b (bits c.cfg 19 14) w h c.lines) q.level
  ({ x with record := rcd }, some fun ch u v => sampleAt x.aug q.desc img d.1 d.2 ch u v, [])

/-- CSI_FRAME_END: the next Frame End, whatever its number, ends the frame, which is checked and delivered or dropped (R346). -/
def execCsiFrameEnd (vc _num : Nat) (s : State) : Out :=
  .next (
    let c := s.capChan vc
    if !c.isOpen then s
    else if c.bad || c.lines.length != c.geom / 65536 then s.frameDrop vc true
    else if c.block.isNone then s.frameDrop vc false
    else
      let s1 := (s.setCap vc { c with isOpen := false }).bump (vcBank vc) Fld.CSI_VC_FRAMES 1
      s1.frameClose vc fun s q x => captureSample c s.now q x)

/-! ## Commands (R351, R360, R377) -/

/-- VA of INP_CMD_VA. -/
def State.inpVa (s : State) (fn : Nat) : Nat := s.getF fn Fld.INP_CMD_VA_LO + 2 ^ 32 * (s.getF fn Fld.INP_CMD_VA_HI % 2 ^ 20)

/-- Read the 64-byte descriptor that a command names. -/
def State.inpDesc (s : State) (fn : Nat) : Except Status (List Byte) :=
  if s.inpVa fn % 64 ≠ 0 then .error .inputMalformed else s.engRead fn (s.inpVa fn) 64

/-- A command of the Input page. -/
def State.inpCmd (s : State) (fn v op : Nat) (f : State × Status) : State :=
  s.pageCmd fn 0x0E 0x040 v op (s.hasPart fn) .accessDenied fn Fld.INP_CMD_STS (some 0) f

/-- BQ_CREATE (R360). -/
def execBqCreate (fn v : Nat) (s : State) : Out :=
  .next (s.inpCmd fn v 1 (
    let k := fn * 8 + v % 8
    let used := (s.input.bqs.filter fun e => e.2.live).length
    match s.inpDesc fn with
    | .error e => (s, e)
    | .ok b =>
      let q : BatchQ := { desc := b }
      if 8 ≤ v % 64 ∨ (s.bq k).live then (s, .inputMalformed)
      else if 32 ≤ used then (s, .inputLimit)
      else match s.bqRefusal fn q with
        | some e => (s, e)
        | none =>
          let q1 := { q with slotSize := s.bqSlotSize q }
          (((s.setBq k q1).vaWrite fn .engine q.qva (leBytes 8 0 ++ leBytes 4 q1.slotSize)).1, .ok)))

/-- BQ_DELETE (R377). -/
def execBqDelete (fn v : Nat) (s : State) : Out :=
  .next (s.inpCmd fn v 2 (
    let k := fn * 8 + v % 8
    if 8 ≤ v % 64 ∨ !(s.bq k).live then (s, .inputMalformed) else (s.setBq k {}, .ok)))

/-- What refuses a session descriptor, if anything (R351). -/
def sessRefusal (d : List Byte) : Option Status :=
  let f := fun o k => leField d o k
  let within := fun lo hi v => decide (lo ≤ v) && decide (v ≤ hi)
  if !within 16 4096 (f 2 2) || !within 16 2304 (f 4 2) || !within 4 12 (f 16 1) then some .inputLimit
  else if f 0 1 % 4 == 3 || decide (8 ≤ f 0 1) || f 1 1 != 0 || f 6 2 != 0 || f 17 7 != 0 || decide (16 ≤ f 24 1) ||
      decide (3 < f 24 1 % 8) || f 25 7 != 0 || f 8 8 % (32 * 2 ^ f 16 1) != 0 || pyrBad ((d.drop 32).take 32) then some .inputMalformed
  else none

/-- SESS_OPEN: the lowest closed session is granted (R351, R377). -/
def execSessOpen (fn v : Nat) (s : State) : Out :=
  .next (s.inpCmd fn v 3 (
    match s.inpDesc fn with
    | .error e => (s, e)
    | .ok b => match sessRefusal b with
      | some e => (s, e)
      | none => match (List.range 64).find? fun n => (s.sess n).st == 0 with
        | none => (s, .inputLimit)
        | some n => ((s.setSess n { st := 1, fn := fn, desc := b }).setF fn Fld.INP_CMD_STS_INDEX n, .ok)))

/-- SESS_CLOSE: a frame under way goes with the session (R377). -/
def execSessClose (fn v : Nat) (s : State) : Out :=
  .next (s.inpCmd fn v 4 (
    let x := s.sess (v % 64)
    if x.st = 0 ∨ x.fn ≠ fn then (s, .inputMalformed) else (s.setSess (v % 64) {}, .ok)))

/-- SESS_RESET: an ERROR session returns to OPEN, its decoder cleared and its head at its tail (R377). -/
def execSessReset (fn v : Nat) (s : State) : Out :=
  .next (s.inpCmd fn v 5 (
    let x := s.sess (v % 64)
    if x.st ≠ 2 ∨ x.fn ≠ fn then (s, .inputMalformed)
    else (s.setSess (v % 64) { x with st := 1, status := 0, head := x.tail, unit := none, past := [], out := [], held := 0 }, .ok)))

/-- Take a ring tail under R233: the new tail, nothing, or DOORBELL_INVALID. -/
def ringTake (head tail size v : Nat) : Option (Except Unit Nat) :=
  let t := v % 2 ^ 32
  if sub32 t head ≤ sub32 tail head then none else if sub32 t head ≤ size then some (.ok t) else some (.error ())

/-- SESS_TAIL_DOORBELL: a write to INP_SESS_TAIL for the selected session (R352, R377). -/
def execSessTailDoorbell (fn v : Nat) (s : State) : Out :=
  .next (s.gated fn 0x0E 0x064 (
    let n := s.getF fn Fld.INP_SEL_INDEX
    let x := s.sess n
    if !s.flag fn Fld.INP_SEL_KIND ∨ x.st ≠ 1 ∨ x.fn ≠ fn then s.dropDb fn
    else match ringTake x.head x.tail (2 ^ leField x.desc 16 1) v with
      | none => s
      | some (.ok t) => s.setSess n { x with tail := t }
      | some (.error _) => s.badTail fn 0x0E 0x064))

/-- AUG_TAIL_DOORBELL: a write to INP_BQ_AUGTAIL for the selected queue (R361, R377). -/
def execAugTailDoorbell (fn v : Nat) (s : State) : Out :=
  .next (s.gated fn 0x0E 0x058 (
    let n := s.getF fn Fld.INP_SEL_INDEX
    let k := fn * 8 + n % 8
    let q := s.bq k
    if s.flag fn Fld.INP_SEL_KIND ∨ 8 ≤ n ∨ !q.live then s.dropDb fn
    else match ringTake q.augHead q.augTail (2 ^ q.augsz) v with
      | none => s
      | some (.ok t) => s.setBq k { q with augTail := t }
      | some (.error _) => s.badTail fn 0x0E 0x058))

/-! ## Decoding (R350 to R354) -/

/-- A session goes to ERROR. -/
def State.sessError (s : State) (n : Nat) (st : Status) : State :=
  let x := s.sess n
  (s.setSess n { x with st := 2, status := st.code, unit := none }).raiseIrq 0x0E x.fn 5

/-- Whether a session waits for service: OPEN, a unit in its ring, and no frame of it that waits for a queue (R365). -/
def State.sessReady (s : State) (n : Nat) : Bool :=
  let x := s.sess n
  x.st == 1 && x.head != x.tail && x.unit.isNone && decide (x.out.length ≤ x.held)

/-- Class of a session: 1 Q, 0 P. -/
def Session.cls (x : Session) : Nat := bits (leField x.desc 0 1) 3 2

/-- Place of a session in the order of service: Class Q before Class P, and in a class the next in ascending number after the one served
last (R352). -/
def State.sessKey (s : State) (n : Nat) : Nat :=
  let q := (s.sess n).cls = 1
  (if q then 0 else 64) + match if q then s.input.lastQ else s.input.lastP with
    | some l => (n + 63 - l) % 64
    | none => n

/-- DECODE_PICTURE: the next access unit of the session whose turn it is is read, one picture at a time (R352). -/
def execDecodePicture (n : Nat) (s : State) : Out :=
  .next (
    let x := s.sess n
    let busy := (List.range 64).any fun m => (s.sess m).unit.isSome
    let first := (List.range 64).all fun m => !s.sessReady m || decide (s.sessKey n ≤ s.sessKey m)
    if s.pageSt 0x0E ≠ stOn ∨ !s.sessReady n ∨ busy ∨ !first then s
    else
      let x1 := { x with head := add32 x.head 1 }
      let s0 := { s with input := if x.cls = 1 then { s.input with lastQ := some n } else { s.input with lastP := some n } }
      let s1 := s0.setSess n x1
      match s.engRead x.fn (leField x.desc 8 8 + 32 * (x.head % 2 ^ leField x.desc 16 1)) 32 with
      | .error e => s1.sessError n e
      | .ok e =>
        let len := leField e 8 4
        if len = 0 ∨ 16777216 < len ∨ 2 ≤ leField e 12 4 ∨ leField e 28 4 ≠ 0 then s1.sessError n .inputMalformed
        else match s.engRead x.fn (leField e 0 8) len with
          | .error st => s1.sessError n st
          | .ok u => s1.setSess n { x1 with unit := some (e, u) })

/-- Luma samples decoded in the last 100 ms, in Mpixel/s (R377). -/
def State.decLoad (s : State) : Nat :=
  ((s.input.load.filter fun (e : Nat × Nat) => decide (s.ticks < e.1 + 25000000)).map (·.2)).foldl (· + ·) 0 * 10 / 1000000

/-- Width and height of a decoded picture. -/
def pictureSize (desc : List Byte) (f : Picture) : Nat × Nat :=
  (Config.decodeField desc f.past f.unit 0, Config.decodeField desc f.past f.unit 1)

/-- The end of a decoded frame's sample. -/
def decodeSample (desc : List Byte) (f : Picture) (q : BatchQ) (y : Sample) : Sample × Option (Nat → Nat → Nat → Nat) × List Byte :=
  let map := Config.concealMap desc f.past f.unit
  let pyr := (desc.drop 32).take 32
  let (w, h) := pictureSize desc f
  let d := pyrDims pyr w h q.level
  let img := levelImg pyr w h (fun c i j => fpVal (Config.decodePixel desc f.past f.unit c i j)) q.level
  let conc := cropConcealed map y.aug q.desc w h d.1 d.2
  let y1 := { y with concealed := conc, status := if y.status = .ok ∧ 0 < f.nconc then .okConcealed else y.status }
  let dmg := fun i => if f.nconc = 0 then 2 ^ 32 - 1 else Config.decodeField desc f.past f.unit i % 2 ^ 32
  let rcd := sampleRecord y1 (leField f.entry 24 4) (leField f.entry 16 8) f.eof 0 (dmg 2) (dmg 3) f.nconc 0
  ({ y1 with record := rcd }, some fun c i j => sampleAt y.aug q.desc img d.1 d.2 c i j, map)

/-- The decoded picture that presentation order gives out next. -/
def nextPicture (l : List Picture) : Option Picture :=
  l.foldl (fun (m : Option Picture) f => match m with
    | some g => if leField f.entry 16 8 < leField g.entry 16 8 then some f else m
    | none => some f) none

/-- The frames of a session leave in presentation order. One waits where a queue of it would begin a batch at HIGH, which HIGH_WATER
reports once (R352, R365). `fuel` bounds the frames. -/
def State.sessGive (n : Nat) : Nat → State → State
  | 0, s => s
  | fuel + 1, s =>
    let x := s.sess n
    if x.out.length ≤ x.held then s
    else match nextPicture x.out with
      | none => s
      | some f =>
        let src := 128 + n
        let s1 := (s.bqsOf src).foldl State.bqConsume s
        let stuck := (s1.bqsOf src).filter fun k => (s1.bq k).full
        if !stuck.isEmpty then
          stuck.foldl (fun (s : State) k =>
            let q := s.bq k
            if q.high then s else (s.setBq k { q with high := true }).raiseIrq 0x0E (k / 8) 2) s1
        else
          let d := pictureSize x.desc f
          let s2 := s1.setSess n { x with out := x.out.erase f }
          let s3 := s2.frameOffer { src := src, num := leField f.entry 24 4, sof := leField f.entry 16 8, trig := 0, w := d.1, h := d.2,
                                    pyr := (x.desc.drop 32).take 32 }
          State.sessGive n fuel (s3.frameClose src fun _ q y => decodeSample x.desc f q y)

/-- DECODE_PICTURE_DONE: the picture's frame is stamped EOF and leaves in presentation order; a unit without a picture is skipped, and an
unsupported stream puts the session in ERROR. The end of a stream clears the decoder (R350, R352, R353). -/
def execDecodePictureDone (n concealed : Nat) (s : State) : Out :=
  .next (
    let x := s.sess n
    match x.unit with
    | none => s
    | some (e, u) =>
      let kind := Config.decodeKind x.desc x.past u % 3
      let f : Picture := { entry := e, past := x.past, unit := u, nconc := concealed, eof := s.now }
      let (w, h) := pictureSize x.desc f
      let eos := bit (leField e 12 4) 0
      let x1 := { x with
        unit := none, past := if eos then [] else x.past ++ [u], held := if eos then 0 else Config.decodeHolds x.desc x.past u }
      if kind = 2 ∨ (kind = 0 ∧ (leField x.desc 2 2 < w ∨ leField x.desc 4 2 < h)) then s.sessError n .decodeUnsupported
      else if kind = 1 then State.sessGive n x1.out.length (s.setSess n { x1 with lost := satAdd (2 ^ 32 - 1) x.lost 1 })
      else
        let x2 := { x1 with out := x.out ++ [f], conc := if concealed = 0 then x.conc else satAdd (2 ^ 32 - 1) x.conc 1 }
        let s1 := s.setSess n x2
        State.sessGive n x2.out.length { s1 with input := { s1.input with
          load := (s.ticks, w * h) :: s1.input.load.filter fun (e : Nat × Nat) => decide (s.ticks < e.1 + 25000000) } })

/-- BQ_CONSUMED_POLL: CONSUMED is read, the marks act on READY, and frames of sessions that waited for the queue leave (R364, R365). -/
def execBqConsumedPoll (bq : Nat) (s : State) : Out :=
  .next (
    if !(s.bq bq).live ∨ s.pageSt 0x0E ≠ stOn then s
    else ((s.bq bq).srcs.filter fun c => decide (128 ≤ c)).foldl (fun (s : State) c =>
      State.sessGive (c % 64) (s.sess (c % 64)).out.length s) (s.bqConsume bq))

/-! ## States, resets and power (R370, R371) -/

/-- Batches being formed are discarded, and decoding stops; a unit under way is read again where its session goes on. -/
def State.inputDiscard (s : State) : State :=
  { s with input := { s.input with
    bqs := s.input.bqs.map fun (e : Nat × BatchQ) => (e.1, { e.2 with forming := false, samples := [] })
    sess := s.input.sess.map fun (e : Nat × Session) =>
      (e.1, { e.2 with unit := none, head := if e.2.unit.isSome then sub32 e.2.head 1 else e.2.head }) } }

/-- What the pipeline does as it starts and stops. -/
def State.inputStart (s : State) : State := s.inputDiscard
def State.inputStop (s : State) : State := s.inputDiscard

/-- A write to CTL of page 0x0E: the owner's (R370). -/
def State.inputCtl (s : State) (fn : Nat) (f : State) : State := s.ctlWrite fn 0x0E (s.isOwner fn) .owned f

/-- INPUT_ENABLE (R370, R683). -/
def execInputEnable (fn : Nat) (on : Bool) (s : State) : Out :=
  .next (s.inputCtl fn (s.blockEnable 0x0E on State.inputStart State.inputStop))

/-- INPUT_QUIESCE (R370, R683). -/
def execInputQuiesce (fn : Nat) (s : State) : Out := .next (s.inputCtl fn (s.blockQuiesce 0x0E State.inputStop))

/-- INPUT_START_DONE (R370). -/
def execInputStartDone (s : State) : Out := .next (s.blockOn 0x0E (fun s => s) State.inputStop)

/-- INPUT_STOP_DONE: every source has stopped at its Frame End (R370). -/
def execInputStopDone (s : State) : Out :=
  .next (if s.input.caps.any fun (e : Nat × Capture) => e.2.isOpen then s else s.blockOff 0x0E State.inputStart)

/-- A compute reset discards frames in flight and batches being formed, and clears decoder state (R371). -/
def State.inputCompute (s : State) : State :=
  let s1 := s.inputDiscard
  { s1 with input := { s1.input with
    caps := s1.input.caps.map fun (e : Nat × Capture) => (e.1, { e.2 with isOpen := false })
    sess := s.input.sess.map fun (e : Nat × Session) => (e.1, { e.2 with unit := none, past := [], out := [], held := 0 }) } }

/-- A Board reset, and Sleep: each queue restarts with WRITTEN 0 (R371). -/
def State.inputBoard (s : State) : State :=
  let s1 := s.inputDiscard
  { s1 with input := { s1.input with
    bqs := s1.input.bqs.map fun (e : Nat × BatchQ) => (e.1, { e.2 with written := 0, consumed := 0, high := false }) } }

/-- Hold or Sleep exit: parameter blocks in force are read again (R371). -/
def State.inputExit (s : State) : State :=
  { s with input := { s.input with
    caps := s.input.caps.map fun (e : Nat × Capture) => (e.1, { e.2 with armed := e.2.armed || e.2.block.isSome }) } }

/-- A function level reset, or the release of a partition: its queues are deleted and its sessions closed (R371). -/
def State.inputRelease (s : State) (fn : Nat) : State :=
  let gone := s.input.sess.filter fun (e : Nat × Session) => e.2.st != 0 && e.2.fn == fn
  let s1 := gone.foldl (fun (s : State) e => s.setSess e.1 {}) s
  { s1 with input := { s1.input with bqs := s1.input.bqs.filter fun (e : Nat × BatchQ) => e.1 / 8 != fn } }

end Sys2Proof.Machine
end

