-- ==== Sys2Proof/Machine/Eth.lean ====
section
/-! DEFINITION. The Ethernet ports (R530 to R533, R541): port blocks, the transmit and receive rings, received frames and links. -/

namespace Sys2Proof.Machine

/-- Field of port `p`. -/
def Fld.port (f : Fld) (p : Nat) : Fld := f.plus (0x40 * p)

/-- A port beside its registers. -/
def State.ethPort (s : State) (p : Nat) : EthPort := assocGet {} s.eth p

/-- Replace a port. -/
def State.setEthPort (s : State) (p : Nat) (x : EthPort) : State := { s with eth := assocSet {} s.eth p x }

/-- The function that a port is bound to. -/
def State.ethFn (s : State) (p : Nat) : Nat := s.getF 0 (Fld.ETH_Pn_CFG_FUNC.port p)

/-- Whether a port's rings run: EN is 1 and a block is in force. -/
def State.ethRuns (s : State) (p : Nat) : Bool :=
  s.flag 0 (Fld.ETH_Pn_CFG_EN.port p) && (s.ethPort p).block.isSome

/-- Raise an interrupt bit of page 0x11 for the bound function (R541). -/
def State.ethIrq (s : State) (p i : Nat) : State := s.raiseIrq 0x11 (s.ethFn p) i

/-- The two rings of a port. -/
inductive EthRing where
  | tx | rx
  deriving DecidableEq, Repr

/-- Tail and head registers of a ring. -/
def EthRing.tailFld : EthRing → Fld
  | .tx => Fld.ETH_Pn_TXTAIL
  | .rx => Fld.ETH_Pn_RXTAIL
def EthRing.headFld : EthRing → Fld
  | .tx => Fld.ETH_Pn_TXHEAD
  | .rx => Fld.ETH_Pn_RXHEAD

/-- VA and size of a ring in a port block (R531). -/
def EthRing.va (r : EthRing) (b : List Byte) : Nat := leField b (match r with | .tx => 0 | .rx => 8) 8
def EthRing.size (r : EthRing) (b : List Byte) : Nat := 2 ^ (leField b (match r with | .tx => 16 | .rx => 17) 1)

/-- IRQ bit of a ring. -/
def EthRing.irq : EthRing → Nat
  | .tx => 0
  | .rx => 1

/-! ## Port blocks (R531) -/

/-- Gate entries of a block: gate states and interval. -/
def gateList (b : List Byte) : List (Nat × Nat) :=
  (List.range (leField b 36 1)).map fun e => (leField b (64 + 8 * e) 1, leField b (68 + 8 * e) 4)

/-- Whether a port block is malformed. -/
def ethBlockBad (b : List Byte) : Bool :=
  let size := fun o => let v := leField b o 1; decide (4 ≤ v) && decide (v ≤ 12)
  let buf := leField b 18 2
  let n := leField b 36 1
  let cyc := leField b 32 4
  let gates := gateList b
  !size 16 || !size 17 ||
    leField b 0 8 % (32 * EthRing.tx.size b) != 0 || leField b 8 8 % (32 * EthRing.rx.size b) != 0 ||
    buf % 64 != 0 || decide (buf < 256) || decide (9216 < buf) || decide (64 < n) ||
    leNat ((b.drop 37).take 27) != 0 || (List.range n).any (fun e => leField b (65 + 8 * e) 3 != 0) ||
    (n != 0 && (decide (cyc < 1000) || decide (1000000000 < cyc) || (gates.map (·.2)).sum != cyc))

/-- Read a port block: its header, then its gate entries. -/
def State.readEthBlock (s : State) (fn va : Nat) : State × Except Status (List Byte) :=
  match s.vaRead fn .engine va 64 with
  | (s1, .error e) => (s1, .error (readStatus e))
  | (s1, .ok h) =>
    let n := Nat.min 64 (leField h 36 1)
    if n = 0 then (s1, .ok h)
    else match s1.vaRead fn .engine (va + 64) (8 * n) with
      | (s2, .error e) => (s2, .error (readStatus e))
      | (s2, .ok t) => (s2, .ok (h ++ t))

/-- ETH_PB_LOAD: a write to ETH_Pn_PB_HI loads the port block; a malformed one keeps the previous in force (R531). -/
def execEthPbLoad (fn port v : Nat) (s : State) : Out :=
  let off := 0x04C + 0x40 * port
  let sts := Fld.ETH_Pn_STS_STATUS.port port
  .next (if 2 ≤ port then s else s.gated fn 0x11 off (
    if s.ethFn port ≠ fn then s.recErr 0x11 fn .accessDenied off
    else if resvHit 0x11 off v then s.recErr 0x11 fn .timeMalformed off
    else
      let s1 := s.setReg 0 0x11 off (BitVec.ofNat 32 v)
      let va := (s1.getReg 0 0x11 (0x048 + 0x40 * port)).toNat + 2 ^ 32 * (v % 2 ^ 20)
      match s1.readEthBlock fn va with
      | (s2, .error e) => s2.setF 0 sts e.code
      | (s2, .ok b) =>
        if ethBlockBad b then s2.setF 0 sts Status.timeMalformed.code
        else (s2.setEthPort port { s2.ethPort port with block := some b }).setF 0 sts Status.ok.code))

/-! ## Rings -/

/-- A tail as R233 takes it, while the ring runs. -/
def State.ethTail (s : State) (fn p v off : Nat) (r : EthRing) : State :=
  match (s.ethPort p).block with
  | none => s
  | some b =>
    let h := s.getF 0 (r.headFld.port p)
    let c := s.getF 0 (r.tailFld.port p)
    if !s.flag 0 (Fld.ETH_Pn_CFG_EN.port p) || decide (sub32 v h ≤ sub32 c h) then s
    else if sub32 v h ≤ r.size b then s.setF 0 (r.tailFld.port p) v
    else s.recErr 0x11 fn .doorbellInvalid off

/-- A write to a tail register: the bound function's is a doorbell. -/
def State.ethDoorbell (s : State) (fn p v : Nat) (r : EthRing) : State :=
  let off := 0x40 * p + (match r with | .tx => 0x050 | .rx => 0x054)
  if 2 ≤ p then s
  else s.gated fn 0x11 off (
    if s.ethFn p ≠ fn then s.recErr 0x11 fn .accessDenied off else s.ethTail fn p (v % 2 ^ 32) off r)

/-- ETH_TX_DOORBELL (R530). -/
def execEthTxDoorbell (fn port v : Nat) (s : State) : Out := .next (s.ethDoorbell fn port v .tx)

/-- ETH_RX_DOORBELL (R530). -/
def execEthRxDoorbell (fn port v : Nat) (s : State) : Out := .next (s.ethDoorbell fn port v .rx)

/-- VA of the descriptor at a ring's head. -/
def State.ethDescVa (s : State) (p : Nat) (r : EthRing) (b : List Byte) : Nat :=
  r.va b + 32 * (s.getF 0 (r.headFld.port p) % r.size b)

/-- Complete the descriptor at a ring's head: STATUS, LEN and STAMP are written, the head advances, the interrupt is raised
(R532). -/
def State.ethComplete (s : State) (p : Nat) (r : EthRing) (b d : List Byte) (st : Status) (len : Nat) (stamp : Option Nat) : State :=
  let d1 := setField (setField d 8 2 len) 12 2 st.code
  let d2 := match stamp with
    | some t => setField d1 16 8 t
    | none => d1
  let s1 := (s.vaWrite (s.ethFn p) .engine (s.ethDescVa p r b + 8) ((d2.drop 8).take 16)).1
  (s1.setF 0 (r.headFld.port p) (add32 (s1.getF 0 (r.headFld.port p)) 1)).ethIrq p r.irq

/-- Whether a ring has a descriptor. -/
def State.ethPosted (s : State) (p : Nat) (r : EthRing) : Bool :=
  s.getF 0 (r.headFld.port p) != s.getF 0 (r.tailFld.port p)

/-- Complete every descriptor of a ring with CANCELLED (R532). -/
def State.ethCancel (s : State) (p : Nat) (r : EthRing) : State :=
  match (s.ethPort p).block with
  | none => s
  | some b => (List.range (sub32 (s.getF 0 (r.tailFld.port p)) (s.getF 0 (r.headFld.port p)))).foldl (fun s _ =>
      let va := s.ethDescVa p r b
      match s.vaRead (s.ethFn p) .engine va 32 with
      | (s1, .ok d) => s1.ethComplete p r b d .cancelled (leField d 8 2) none
      | (s1, .error _) => s1.ethComplete p r b (List.replicate 32 0#8) .cancelled 0 none) s

/-- Cancel both rings of a port. -/
def State.ethCancelPort (s : State) (p : Nat) : State := (s.ethCancel p .tx).ethCancel p .rx

/-- Whether a buffer lies in device memory, which a ring waits for while the memory does not serve (R533). -/
def State.inDevice (s : State) (fn va : Nat) : Bool :=
  match s.translate fn va .read with
  | .ok (0, _) => true
  | _ => false

/-- Whether a port's rings wait: in Hold and Sleep for a ring or a buffer in device memory, in Sleep always (R533). -/
def State.ethWaits (s : State) (p : Nat) (b : List Byte) (r : EthRing) (buf : Nat) : Bool :=
  s.asleep || (!s.memOn && (s.inDevice (s.ethFn p) (s.ethDescVa p r b) || s.inDevice (s.ethFn p) buf))

/-! ## Transmit -/

/-- Bits per µs of a rate code: 10, 5, 2.5 and 1 Gb/s. -/
def ethRate : Nat → Nat
  | 0 => 10000
  | 1 => 5000
  | 2 => 2500
  | _ => 1000

/-- ns that a frame of `len` bytes without its FCS takes on the wire, with preamble and FCS. -/
def frameNs (rate len : Nat) : Nat := cdiv ((len + 12) * 8000) (ethRate rate)

/-- Longest run of open intervals of a class, over two turns of the list. -/
def longestOpen (g : List (Nat × Nat)) (tc : Nat) : Nat :=
  ((g ++ g).foldl (fun (a : Nat × Nat) e =>
    let run := if bit e.1 tc then a.1 + e.2 else 0
    (run, Nat.max a.2 run)) (0, 0)).2

/-- Whether a frame fits a gate window of its class (R530, R532). -/
def gateFits (b : List Byte) (rate tc len : Nat) : Bool :=
  let g := gateList b
  g.isEmpty || g.all (fun e => bit e.1 tc) || decide (frameNs rate len ≤ longestOpen g tc)

/-- How long the gate of a class stays open over the entries at the head of a list. -/
def openLead (tc : Nat) : List (Nat × Nat) → Nat
  | [] => 0
  | e :: l => if bit e.1 tc then e.2 + openLead tc l else 0

/-- How long the gate of a class stays open from a place in a list on; 0 where it is closed there. -/
def openFrom (tc : Nat) : List (Nat × Nat) → Nat → Nat
  | [], _ => 0
  | e :: l, pos => if e.2 ≤ pos then openFrom tc l (pos - e.2) else if bit e.1 tc then e.2 - pos + openLead tc l else 0

/-- Whether a frame that starts now ends before its gate closes; the list repeats from its base time, and before it too (R530; log entry
45). -/
def gateNow (b : List Byte) (rate tc len now : Nat) : Bool :=
  let g := gateList b
  let pos := (((now : Int) - (leField b 24 8 : Nat)) % (leField b 32 4 : Nat)).toNat
  g.isEmpty || g.all (fun e => bit e.1 tc) || decide (frameNs rate len ≤ openFrom tc (g ++ g ++ g) pos)

/-- The SFD stamp of a frame: the time less the PHY latency, within the ±3.20 ns of the Ethernet domain's copy (R526). -/
def State.sfdStamp (s : State) (lat : Nat) : Nat := ofSigned 64 ((s.now : Int) - lat - 3 + ((Config.free s.free 64).toNat % 7 : Nat))

/-- Whether a transmit descriptor is malformed (R532). -/
def txDescBad (d : List Byte) : Bool :=
  let len := leField d 8 2
  decide (len < 60) || decide (9212 < len) || bits (leField d 10 1) 3 0 != 0 || leField d 11 1 != 0 || leField d 14 2 != 0 ||
    leField d 24 8 != 0

/-- Send or refuse the descriptor at the head of the transmit ring; it waits for its gate (R530, R532). -/
def State.ethSend (s : State) (p : Nat) (b d : List Byte) : State :=
  let len := leField d 8 2
  if txDescBad d then s.ethComplete p .tx b d .entryMalformed len none
  else
    match s.vaRead (s.ethFn p) .engine (leField d 0 8) len with
    | (s1, .error e) => s1.ethComplete p .tx b d (readStatus e) len none
    | (s1, .ok f) =>
      if !gateFits b (s1.getF 0 (Fld.ETH_Pn_STS_RATE.port p)) (bits (leField d 10 1) 7 5) len then
        s1.ethComplete p .tx b d .ethNoWindow len none
      else if !gateNow b (s1.getF 0 (Fld.ETH_Pn_STS_RATE.port p)) (bits (leField d 10 1) 7 5) len s.now then s
      else
        let s2 := s1.setEthPort p { s1.ethPort p with sent := f }
        let stamp := if bit (leField d 10 1) 4 then some (s2.sfdStamp (leField b 20 2)) else none
        s2.drawFree.ethComplete p .tx b d .ok len stamp

/-- ETH_TX_COMPLETE: the descriptor at the head is sent or refused; it waits while the link is down (R532). -/
def execEthTxComplete (port : Nat) (s : State) : Out :=
  .next (match (s.ethPort port).block with
    | none => s
    | some b =>
      if !s.ethRuns port || !s.ethPosted port .tx || !s.flag 0 (Fld.ETH_Pn_STS_LINK.port port) then s
      else
        let va := s.ethDescVa port .tx b
        match s.vaRead (s.ethFn port) .engine va 32 with
        | (s1, .error .held) => s1
        | (s1, .error e) => s1.ethComplete port .tx b (List.replicate 32 0#8) (readStatus e) 0 none
        | (s1, .ok d) => if s.ethWaits port b .tx (leField d 0 8) then s else s1.ethSend port b d)

/-! ## Receive -/

/-- A frame is dropped and counted (R532). -/
def State.ethDrop (s : State) (p : Nat) : State := (s.bump 0 (Fld.ETH_Pn_DROP.port p) 1).ethIrq p 3

/-- A big-endian field of two bytes at an offset of a frame. -/
def etherType (f : List Byte) : Nat := beField2 f 12

/-- A PTP message: EtherType 0x88F7, or UDP port 319 or 320 over IPv4 or IPv6 (R526). -/
def isPtp (f : List Byte) : Bool :=
  let t := etherType f
  let udp4 := t == 0x0800 && leField f 23 1 == 17 &&
    (let port := beField2 f (14 + 4 * (leField f 14 1 % 16) + 2); port == 319 || port == 320)
  let udp6 := t == 0x86DD && leField f 20 1 == 17 && (beField2 f 56 == 319 || beField2 f 56 == 320)
  t == 0x88F7 || udp4 || udp6

/-- Whether a port carries PTP. -/
def State.ptpPort (s : State) (p : Nat) : Bool :=
  s.getF 0 Fld.TMB_SRC_CFG_PTPROLE != 0 && s.getF 0 Fld.TMB_SRC_CFG_PTPPORT == p

/-- Write a frame to the receive descriptor at the head (R532). -/
def State.ethReceive (s : State) (p : Nat) (b frame : List Byte) : State :=
  let body := frameBody frame
  match s.vaRead (s.ethFn p) .engine (s.ethDescVa p .rx b) 32 with
  | (s1, .error _) => s1.ethDrop p
  | (s1, .ok d) =>
    let stamp := some (s1.sfdStamp (leField b 22 2))
    if s.ethWaits p b .rx (leField d 0 8) then s1.ethDrop p
    else match s1.vaWrite (s1.ethFn p) .engine (leField d 0 8) body with
      | (s2, .error e) => (s2.drawFree.ethComplete p .rx b d (readStatus e) (leField d 8 2) stamp).ethDrop p
      | (s2, .ok ()) => s2.drawFree.ethComplete p .rx b d .ok body.length stamp

/-- ETH_FRAME_RX: a frame, with its FCS, arrives; a PTP message of the PTP port goes to the Arbiter (R530 to R532). -/
def execEthFrameRx (port : Nat) (frame : List Byte) (fcsOk : Bool) (s : State) : Out :=
  .next (match (s.ethPort port).block with
    | none => s
    | some b =>
      if !s.ethRuns port || !s.flag 0 (Fld.ETH_Pn_STS_LINK.port port) || s.asleep then s
      else if !fcsOk || decide (frame.length < 64) then s.ethDrop port
      else if s.ptpPort port && isPtp frame then s
      else if decide (leField b 18 2 < frame.length) || !s.ethPosted port .rx then s.ethDrop port
      else s.ethReceive port b frame)

/-- ETH_LINK_DOWN: transmit descriptors wait from now on (R532, R541). -/
def execEthLinkDown (port : Nat) (s : State) : Out :=
  .next (if decide (port < 2) && s.flag 0 (Fld.ETH_Pn_STS_LINK.port port) then
      (s.setFlag 0 (Fld.ETH_Pn_STS_LINK.port port) false).ethIrq port 2
    else s)

/-- A port's link comes up at a rate (R541). -/
def State.ethUp (s : State) (p rate : Nat) : State :=
  if decide (p < 2) && !s.flag 0 (Fld.ETH_Pn_STS_LINK.port p) then
    ((s.setFlag 0 (Fld.ETH_Pn_STS_LINK.port p) true).setF 0 (Fld.ETH_Pn_STS_RATE.port p) rate).ethIrq p 2
  else s

end Sys2Proof.Machine
end

