-- ==== Sys2Proof/Machine/MoverDesc.lean ====
section
/-! DEFINITION. Tile descriptors (R167, R168, R684): their fields, their defects, and where their lines lie. -/

namespace Sys2Proof.Machine

/-! ## Fields (R167) -/

def dOp (b : List Byte) : Nat := leField b 0 1
def dSparse (b : List Byte) : Bool := bit (leField b 1 1) 6
def dScm (b : List Byte) : Nat := bits (leField b 1 1) 5 4
def dFmt (b : List Byte) : Nat := bits (leField b 1 1) 3 0
def dSrck (b : List Byte) : Nat := bits (leField b 2 1) 3 2
def dGeom (b : List Byte) : Nat := bits (leField b 2 1) 1 0
def dBcast (b : List Byte) : Bool := bit (leField b 3 1) 6
def dFbloc (b : List Byte) : Bool := bit (leField b 3 1) 5
def dFb (b : List Byte) : Bool := bit (leField b 3 1) 4
def dDlrel (b : List Byte) : Bool := bit (leField b 3 1) 3
def dDl (b : List Byte) : Bool := bit (leField b 3 1) 2
def dPin (b : List Byte) : Bool := bit (leField b 3 1) 1
def dRes (b : List Byte) : Bool := bit (leField b 3 1) 0
def dCount (b : List Byte) : Nat := leField b 4 2
def dLine (b : List Byte) : Nat := leField b 6 2
def dAddr (b : List Byte) : Nat := leField b 8 8
def dSaddr (b : List Byte) : Nat := leField b 16 8
def dStride (b : List Byte) : Nat := leField b 24 4
def dSstride (b : List Byte) : Nat := leField b 28 2
def dSline (b : List Byte) : Nat := leField b 30 2
def dDeadline (b : List Byte) : Nat := leField b 32 8
def dFbaddr (b : List Byte) : Nat := leField b 40 8
def dFbsaddr (b : List Byte) : Nat := leField b 48 8
def dRect (b : List Byte) : Nat := leField b 56 2

/-- First and last file, first and last rank index of RECT. -/
def rectFiles (b : List Byte) : Nat × Nat := (bits (dRect b) 3 0, bits (dRect b) 7 4)
def rectRanks (b : List Byte) : Nat × Nat := (bits (dRect b) 11 8, bits (dRect b) 15 12)

/-- Bytes of a tile and of its sidecar. -/
def dTile (b : List Byte) : Nat := geomBytes (dGeom b) (dFmt b) (dSparse b)
def dSide (b : List Byte) : Nat := if dGeom b = 3 then 0 else sideBytes (dFmt b) (dScm b) (dSparse b)

/-- Whether the descriptor moves sidecars: SADDR is given, or it is a BCAST STORE (log entry 19). -/
def dSided (b : List Byte) : Bool := decide (dSide b ≠ 0) && (dBcast b || decide (dSaddr b ≠ 0))

/-- Sidecar bytes that the descriptor moves for each tile. -/
def dMoved (b : List Byte) : Nat := if dSided b then dSide b else 0

/-- Far-side distance from tile to tile and from sidecar to sidecar. -/
def dStep (b : List Byte) : Nat := if dStride b = 0 then dTile b else dStride b
def dSstep (b : List Byte) : Nat := if dSstride b = 0 then dSide b else dSstride b

/-- Bytes from the start of the first tile to the end of the last on the far side: the run length (R178). -/
def dSpan (b : List Byte) : Nat := (dCount b - 1) * dStep b + dTile b

/-- Formats that a geometry accepts with a scale mode (R684). -/
def geomOk (geom fmt scm : Nat) : Bool :=
  let plain := fmt == 0 || fmt == 1 || fmt == 2 || fmt == 9
  match geom with
  | 0 => if decide (3 ≤ fmt) && decide (fmt ≤ 8) then scm == 1 || scm == 2
    else (plain || fmt == 10 || fmt == 11) && scm == 0
  | 1 => if fmt == 3 || fmt == 4 then scm == 2 else plain && scm == 0
  | 2 => if fmt == 3 || fmt == 4 then scm == 1 else plain && scm == 0
  | _ => fmt == 0 && scm == 0

/-- Whether an address field breaks its encoding: SRCK 0 aligned; SRCK 1 a square and an aligned offset, SRCK 2 a page and an
offset, other bits 0 (R167). -/
def farBad (srck a : Nat) : Bool :=
  match srck with
  | 0 => a % 64 != 0
  | 1 => decide (2 ^ 36 ≤ a) || bits a 35 16 % 64 != 0
  | _ => decide (2 ^ 40 ≤ a) || bits a 7 0 / 256 != 0

/-- Whether a fallback address breaks its encoding. -/
def fbBad (loc : Bool) (a : Nat) : Bool := if loc then decide (2 ^ 14 ≤ a) else a % 64 != 0

/-- The MALFORMED defects of R168. -/
def descBad (b : List Byte) : Bool :=
  let op := dOp b
  let n := dCount b
  let srck := dSrck b
  bit (leField b 1 1) 7 || bits (leField b 2 1) 7 4 != 0 || bit (leField b 3 1) 7 || leField b 58 2 != 0 ||
    decide (op < 1) || decide (5 < op) || srck == 3 || decide (2 ^ 14 ≤ dLine b) ||
    n == 0 || decide ((if dGeom b = 3 then 4096 else 64) < n) || !geomOk (dGeom b) (dFmt b) (dScm b) ||
    (dSparse b && (dGeom b != 0 || dFmt b == 8)) || (dFb b && !dDl b) || (dPin b && !dRes b) ||
    ((dRes b || dDl b) && srck != 0) || ((dDl b || dFb b) && (op == 2 || op == 3)) || (dBcast b && op != 2) ||
    decide ((rectFiles b).2 < (rectFiles b).1) || decide ((rectRanks b).2 < (rectRanks b).1) ||
    farBad srck (dAddr b) || (dSaddr b != 0 && (srck == 2 || dBcast b || farBad srck (dSaddr b))) ||
    (dSide b == 0 && (dSaddr b != 0 || dFbsaddr b != 0)) ||
    (srck == 1 && dSaddr b != 0 && bits (dSaddr b) 15 0 != bits (dAddr b) 15 0) ||
    dStride b % 64 != 0 || dSstride b % 64 != 0 || (dDl b && dDlrel b && decide (2 ^ 32 ≤ dDeadline b)) ||
    (dFb b && (fbBad (dFbloc b) (dFbaddr b) || fbBad (dFbloc b) (dFbsaddr b)))

/-! ## Store lines -/

/-- Tiles and sidecars in the store of the group's region: (offset, length). -/
def dStore (b : List Byte) : List (Nat × Nat) :=
  (64 * dLine b, dCount b * dTile b) :: (if dSided b then [(64 * dSline b, dCount b * dSide b)] else [])

/-- The store-resident fallback. -/
def dFbStore (b : List Byte) : List (Nat × Nat) :=
  if dFb b && dFbloc b then
    (64 * dFbaddr b, dCount b * dTile b) :: (if dSided b && dFbsaddr b != 0 then [(64 * dFbsaddr b, dCount b * dSide b)] else [])
  else []

/-- Whether a range lies in a group's region; a written one also outside the save area and the program text (R100). -/
def Group.covers (x : Group) (writes : Bool) (r : Nat × Nat) : Bool :=
  decide (r.1 + r.2 ≤ x.size) && (!writes || decide (textOff x.nls + x.text ≤ r.1))

/-- Whether a descriptor's store lines are in range: a FETCH writes them, a STORE reads them. -/
def storeOk (x : Group) (b : List Byte) : Bool :=
  match dOp b with
  | 1 => (dStore b).all (x.covers true) && (dFbStore b).all (x.covers false)
  | 2 => (dStore b).all (x.covers false)
  | _ => true

/-- The 64-byte lines of a run of `n` tiles of `size` bytes at `step`. -/
def runLines (start step size n : Nat) : List Nat :=
  (List.range n).flatMap fun i => (List.range (size / 64)).map fun k => start + i * step + 64 * k

/-- Far-side lines of a descriptor as addresses of its far side: tiles, then sidecars. -/
def farAddrs (b : List Byte) (tile side : Nat) : List Nat :=
  runLines tile (dStep b) (dTile b) (dCount b) ++ runLines side (dSstep b) (dMoved b) (dCount b)

/-- The group of a job on a square whose region descriptors of other squares address: the lowest linear index (R685). A suspended group,
whose region R53 and R685 do not speak of here, is none (DESIGN CHOICE, log entry 69). -/
def State.targetGroup (s : State) (sq job : Nat) : Option Group :=
  let gs := (s.groups.filter fun e => e.2.square == sq && e.2.job == job && e.2.st != .suspended).map (·.2)
  match gs with
  | [] => none
  | g :: t => some (t.foldl (fun a b => if b.index < a.index then b else a) g)

/-! ## Lines of the far side -/

/-- Tiers of a far-side line: device memory, Reserve and host memory as R162, then another square's store (key square × 2^20 +
offset), a ring image window, and Tempo's mailboxes. -/
def tStore : Nat := 3
def tRing : Nat := 4
def tMbx : Nat := 5

/-- Bytes of a far-side line, and whether it is poisoned. -/
def State.lineRead (s : State) (fn : Nat) (l : Nat × Nat) : List Byte × Bool :=
  match l.1 with
  | 0 => (s.devRead l.2 64, s.devPoisoned l.2 64)
  | 1 => (s.tierRead fn 1 l.2 64, s.tierPoisoned fn 1 l.2 64)
  | 2 => (s.tierRead fn 2 l.2 64, s.tierPoisoned fn 2 l.2 64)
  | 3 => (s.storeRead (l.2 / 2 ^ 20) (l.2 % 2 ^ 20) 64, s.storePoisoned (l.2 / 2 ^ 20) (l.2 % 2 ^ 20) 64)
  | 4 => (s.imgRead rxBase (l.2 - rxBase) 64, false)
  | _ => (List.replicate 64 0#8, false)

/-- Write a far-side line. -/
def State.lineWrite (s : State) (fn : Nat) (l : Nat × Nat) (data : List Byte) : State :=
  match l.1 with
  | 3 => (s.taintSpan (l.2 / 2 ^ 20) (l.2 % 2 ^ 20) data.length).storeWrite (l.2 / 2 ^ 20) (l.2 % 2 ^ 20) data
  | 4 => s.txWrite (l.2 - txBase) data
  | 5 => s
  | t => s.tierWrite fn t l.2 data

/-- Translate virtual line addresses: the lines, or the first failing cause. -/
def State.xlatLines (s : State) (fn : Nat) (acc : Acc) : List Nat → Except Nat (List (Nat × Nat))
  | [] => .ok []
  | a :: t => match s.translate fn a acc with
    | .error c => .error c
    | .ok p => match s.xlatLines fn acc t with
      | .error c => .error c
      | .ok l => .ok (p :: l)

/-- The MMU's traces of a run of tiles. -/
def State.traceRun (s : State) (fn : Nat) (acc : Acc) (start step size n : Nat) : State :=
  if size = 0 then s
  else (List.range n).foldl (fun s i => s.vaTrace fn .mover (start + i * step) size acc) s

/-- Far-side lines of SRCK 0. -/
def State.farVirtual (s : State) (fn : Nat) (b : List Byte) : State × Except Status (List (Nat × Nat)) :=
  let acc : Acc := if dOp b = 2 then .write else .read
  let s1 := (s.traceRun fn acc (dAddr b) (dStep b) (dTile b) (dCount b)).traceRun fn acc (dSaddr b) (dSstep b) (dMoved b) (dCount b)
  match s.xlatLines fn acc (farAddrs b (dAddr b) (dSaddr b)) with
  | .error c => (if c = 0 then s1.noteHeld else s1, .error (VaErr.ofCause c).status)
  | .ok l => if l.any (fun p => p.1 == 0) && !s.memOn then (s1.noteHeld, .error .accessDenied) else (s1, .ok l)

/-- Far-side lines of SRCK 1, in the target region of R685. -/
def State.farSquare (s : State) (fn job : Nat) (b : List Byte) : Except Status (List (Nat × Nat)) :=
  let sq := bits (dAddr b) 15 0
  if decide (256 ≤ sq) || s.fileHolder (sqFile sq) != some fn then .error .accessDenied
  else match s.targetGroup sq job with
    | none => .error .accessDenied
    | some x =>
      let a := farAddrs b (bits (dAddr b) 35 16) (bits (dSaddr b) 35 16)
      if a.all fun o => x.covers (dOp b == 2) (o, 64) then .ok (a.map fun o => (tStore, sq * 2 ^ 20 + x.base + o))
      else .error .accessDenied

/-- Far-side lines of SRCK 2: Tempo's mailboxes (R485) and the ring's images (R519), for the control-owner partition. -/
def State.farEngine (s : State) (fn : Nat) (b : List Byte) : Except Status (List (Nat × Nat)) :=
  let page := bits (dAddr b) 7 0
  let a := farAddrs b (bits (dAddr b) 39 8) 0
  if page = 0x09 then
    if dGeom b == 3 && dOp b == 2 && s.mailboxOk fn (bits (dAddr b) 39 8) (dSpan b) then .ok (a.map fun o => (tMbx, o))
    else .error .accessDenied
  else if page = 0x0A then
    let base := if dOp b = 2 then txBase else rxBase
    if s.isCtlOwner fn && (dOp b == 1 || dOp b == 2) && (a.all fun o => decide (base ≤ o) && decide (o + 64 ≤ base + imgBytes)) then
      .ok (a.map fun o => (tRing, o))
    else .error .accessDenied
  else .error .accessDenied

/-- Far-side lines of a descriptor, or why it completes without moving anything; a BCAST STORE has none. -/
def State.farLines (s : State) (fn job : Nat) (b : List Byte) : State × Except Status (List (Nat × Nat)) :=
  if dBcast b then (s, .ok [])
  else match dSrck b with
    | 0 => s.farVirtual fn b
    | 1 => (s, s.farSquare fn job b)
    | _ => (s, s.farEngine fn b)

/-- Lines of the fallback run: store lines of the group's region, or lines of mapped Reserve pages (R172). -/
def State.fbLines (s : State) (fn : Nat) (x : Group) (b : List Byte) : State × Except Status (List (Nat × Nat)) :=
  let side := if dSided b && dFbsaddr b != 0 then dSide b else 0
  if !dFb b then (s, .ok [])
  else if dFbloc b then
    (s, .ok ((runLines (64 * dFbaddr b) (dTile b) (dTile b) (dCount b) ++ runLines (64 * dFbsaddr b) side side (dCount b)).map
      fun o => (tStore, x.square * 2 ^ 20 + x.base + o)))
  else
    let s1 := (s.traceRun fn .read (dFbaddr b) (dTile b) (dTile b) (dCount b)).traceRun fn .read (dFbsaddr b) side side (dCount b)
    match s.xlatLines fn .read
        (runLines (dFbaddr b) (dTile b) (dTile b) (dCount b) ++ runLines (dFbsaddr b) side side (dCount b)) with
    | .error c => (if c = 0 then s1.noteHeld else s1, .error (VaErr.ofCause c).status)
    | .ok l => if l.all fun p => p.1 == 1 then (s1, .ok l) else (s1, .error .accessDenied)

end Sys2Proof.Machine
end

