-- ==== Sys2Proof/Machine/Movers.lean ====
section
/-! DEFINITION. The tile movers (R53, R54, R167 to R172, R178 to R181): taking a descriptor, tiles that arrive or miss their
deadline, completion, and the descriptors of the Dispatcher's page walk (R303, R304). -/

namespace Sys2Proof.Machine

/-- `n` fresh free bytes. -/
def State.freeBytes (s : State) (n : Nat) : List Byte := (List.range n).map fun i => Config.free (s.free + i) 8

/-- Replace the descriptor that a mover executes. -/
def State.setFlight (s : State) (sq mv : Nat) (f : Option Flight) : State :=
  s.setMover sq mv { (s.square sq).mover mv with flight := f }

/-! ## The Reserve as movers use it (R178 to R181) -/

/-- Age stamp: bits [57:10] of the timebase (R178). -/
def State.ageStamp (s : State) : Nat := bits s.now 57 10

/-- The entry with a descriptor's key. -/
def State.keyedEntry (s : State) (fn : Nat) (b : List Byte) : Option (Nat × RsvEntry) :=
  s.mem.entries.find? fun e => e.2.fn == fn && e.2.addr == dAddr b && e.2.len == dSpan b

/-- How a descriptor packs its run. -/
def dLay (b : List Byte) : List Nat := [dTile b, dCount b, dStep b, if dSided b then dSaddr b else 0, dSstep b]

/-- Replace an entry. -/
def State.setEntry (s : State) (id : Nat) (e : RsvEntry) : State :=
  { s with mem := { s.mem with entries := assocInsert id e s.mem.entries } }

/-- Line `k` of an entry's content. -/
def RsvEntry.lineAt (e : RsvEntry) (k : Nat) : Nat × Nat := (1, e.pages.getD (k / 64) 0 * 4096 + k % 64 * 64)

/-- Lines of a hit, served from the entry; of a run packed in another way, those that the entry holds (R178). -/
def RsvEntry.serve (e : RsvEntry) (fn : Nat) (lay : List Nat) (far : List (Nat × Nat)) : List (Nat × Nat) :=
  if e.lay = lay then (List.range far.length).map e.lineAt
  else far.map fun l => match e.lines.findIdx? fun k => k == byteKey fn l.1 l.2 / 64 with
    | some k => e.lineAt k
    | none => l

/-- Count a FETCH with RES that is not cached (R179, R192). -/
def State.noAlloc (s : State) (fn : Nat) : State := (s.bump fn Fld.RSV_NOALLOC 1).raiseIrq 0x06 fn 3

/-- Pin an entry within FLOOR, or refuse it (R177, R181). -/
def State.pinEntry (s : State) (id : Nat) (e : RsvEntry) : State × Bool :=
  if e.st = .pinned then (s, true)
  else if s.rsvPinned e.fn + e.pages.length ≤ s.pinFloor e.fn then (s.setEntry id { e with st := .pinned }, true)
  else (s, false)

/-- Look a run up in the Reserve: a hit serves the lines from the entry; a miss takes pages for a fill, or none (R178, R179, R181).
Answers the flight as it goes on. -/
def State.lookRun (s : State) (fn sq : Nat) (f : Flight) : State × Flight :=
  let b := f.desc
  let fetch := dOp b == 1
  match s.keyedEntry fn b with
  | some (id, e) =>
    if e.st = .filling then
      let s1 := s.bump fn Fld.RSV_MISS 1
      if fetch then (s1.noAlloc fn, f) else (s1, { f with left := [] })
    else
      let e1 := { e with stamp := s.ageStamp }
      let s1 := (s.bump fn Fld.RSV_HIT 1).setEntry id e1
      let (s2, ok) := if dPin b then s1.pinEntry id e1 else (s1, true)
      let f1 := { f with hit := some id, status := if ok then f.status else .pinLimit }
      if fetch then (s2, { f1 with far := e1.serve fn (dLay b) f.far }) else (s2, { f1 with left := [] })
  | none =>
    let s1 := s.bump fn Fld.RSV_MISS 1
    let id := s1.mem.nextEntry
    match s1.takePages fn (cdiv (64 * f.far.length) 4096) (sqFile sq) (.entry id) with
    | (s2, some ps) =>
      let e : RsvEntry := {
        fn := fn, addr := dAddr b, len := dSpan b, st := .filling, pages := ps, stamp := s.ageStamp, lay := dLay b,
        lines := f.far.map fun l => byteKey fn l.1 l.2 / 64 }
      ({ s2.setEntry id e with mem := { (s2.setEntry id e).mem with nextEntry := id + 1 } }, { f with entry := some id })
    | (s2, none) =>
      if fetch then
        if s2.noPages = .cancelled then (s2, { f with left := [], status := .cancelled }) else (s2.noAlloc fn, f)
      else (s2, { f with left := [], status := s2.noPages })

/-- A fill that is to be dropped when it ends. -/
def State.spoilEntry (s : State) (id : Nat) : State :=
  match s.mem.entries.find? fun e => e.1 == id with
  | some e => s.setEntry id { e.2 with stale := true }
  | none => s

/-- End a fill: a stale one frees its pages; otherwise the stamp is set and a pin is taken within FLOOR. Answers whether a pin was
refused (R177, R181). -/
def State.endFill (s : State) (id : Nat) (pin : Bool) : State × Bool :=
  match s.mem.entries.find? fun e => e.1 == id with
  | none => (s, false)
  | some e =>
    if e.2.stale then (s.dropEntry id, false)
    else
      let e1 := { e.2 with st := .valid, stamp := s.ageStamp }
      let s1 := s.setEntry id e1
      if pin then let (s2, ok) := s1.pinEntry id e1
                  (s2, !ok)
      else (s1, false)

/-- Release the pin of the entry with a descriptor's key. -/
def State.unpinRun (s : State) (fn : Nat) (b : List Byte) : State :=
  match s.keyedEntry fn b with
  | some (id, e) => if e.st = .pinned then s.setEntry id { e with st := .valid } else s
  | none => s

/-- Drop a partition's entries that overlap a run; a fill is dropped when it ends. -/
def State.invalRun (s : State) (fn : Nat) (b : List Byte) : State :=
  (s.mem.entries.filter fun e => e.2.fn == fn && spansMeet (e.2.addr, e.2.len) (dAddr b, dSpan b)).foldl (fun s e =>
    if e.2.st = .filling then s.spoilEntry e.1 else s.dropEntry e.1) s

/-! ## Taking a descriptor -/

/-- Deadline of a descriptor, as a timebase value (R167). -/
def dDue (b : List Byte) (stamp : Nat) : Option Nat :=
  if !dDl b then none else if dDlrel b then some (stamp + dDeadline b % 2 ^ 32) else some (dDeadline b)

/-- The outcome of a descriptor's checks that move nothing. -/
def Flight.fail (f : Flight) (st : Status) : Flight := { f with status := st, left := [] }

/-- Start a FETCH or a PREFETCH: far side, fallback, deadline, Reserve. Where the deadline is past no primary request is made (R170). -/
def State.startFetch (s : State) (sq : Nat) (x : Group) (j : Job) (f : Flight) : State × Flight :=
  let b := f.desc
  let due := dDue b f.d.stamp
  let past := match due with
    | some t => decide (t < s.now)
    | none => false
  match (if past then (s, .ok []) else s.farLines j.fn x.job b) with
  | (s1, .error st) => (s1, f.fail st)
  | (s1, .ok far) => match s1.fbLines j.fn x b with
    | (s2, .error st) => (s2, f.fail st)
    | (s2, .ok fb) =>
      let f1 := { f with far := far, fb := fb, left := List.range (dCount b), deadline := due }
      if past || !dRes b then (s2, if dOp b = 3 then { f1 with left := [] } else f1) else s2.lookRun j.fn sq f1

/-- Start a STORE: its far side, or the rectangle of a BCAST STORE (R54). -/
def State.startStore (s : State) (x : Group) (j : Job) (f : Flight) : State × Flight :=
  let b := f.desc
  let fs := rectFiles b
  if dBcast b ∧ !((List.range 16).all fun i => decide (i < fs.1) || decide (fs.2 < i) || s.fileHolder i == some j.fn) then
    (s, f.fail .accessDenied)
  else match s.farLines j.fn x.job b with
    | (s1, .error st) => (s1, f.fail st)
    | (s1, .ok far) => (s1, { f with far := far })

/-- Start a descriptor whose store lines are in range. -/
def State.startDesc (s : State) (sq : Nat) (x : Group) (j : Job) (f : Flight) : State × Flight :=
  match dOp f.desc with
  | 2 => s.startStore x j f
  | 4 => (s.unpinRun j.fn f.desc, f)
  | 5 => (s.invalRun j.fn f.desc, f)
  | _ => s.startFetch sq x j f

/-- The bytes of an issued descriptor: of the walk, of the group's data area, or free where R120 gives no outcome. -/
def State.descBytes (s : State) (x : Group) (d : MovDesc) : List Byte :=
  match d.walk with
  | some (b, _) => b
  | none => if d.taint then s.freeBytes 64 else s.regionRead x d.off 64

/-- Take the next descriptor of a mover, if it is one of the command's kind (R168). -/
def State.takeDesc (s : State) (sq mv : Nat) (mine : List Byte → Bool) : State :=
  let m := (s.square sq).mover mv
  match m.flight, m.issued with
  | none, d :: rest =>
    let s0 := s.setMover sq mv { m with issued := rest }
    match s.group d.group with
    | none => s0
    | some x => match s.job x.job with
      | none => s0
      | some j =>
        let b := s.descBytes x d
        if !s.engineOn sq || !mine b then s
        else if d.walk.isNone && d.off % 64 != 0 then
          s0.exceptEng d.group d.lset d.pc 0x03 .internalError d.off
        else if d.walk.isNone && !x.covers true (d.off, 64) then
          s0.exceptEng d.group d.lset d.pc 0x04 .accessDenied d.off
        else
          let s1 := if d.walk.isNone then s0.storeScan sq (x.base + d.off) 64 else s0
          let s1 := if d.taint then { s1 with free := s1.free + 64 } else s1
          let f : Flight := { d := d, desc := b, taint := d.dtaint }
          if d.walk.isNone && s1.storePoisoned sq (x.base + d.off) 64 then s1.setFlight sq mv (some (f.fail .eccUncorrectable))
          else if descBad b then s1.setFlight sq mv (some (f.fail .malformed))
          else if !storeOk x b then s1.exceptEng d.group d.lset d.pc 0x04 .accessDenied (64 * dLine b)
          else
            let (s2, f2) := s1.startDesc sq x j f
            s2.setFlight sq mv (some f2)
  | _, _ => s

/-- Whether a descriptor's OP is reserved: any command of this family takes it, and it completes with MALFORMED. -/
def opReserved (b : List Byte) : Bool := dOp b == 0 || decide (5 < dOp b)

/-- MOVER_FETCH (R168, R170, R172). -/
def execMoverFetch (sq mv : Nat) (s : State) : Out := .next (s.takeDesc sq mv fun b => dOp b == 1 || opReserved b)

/-- MOVER_STORE (R167). -/
def execMoverStore (sq mv : Nat) (s : State) : Out :=
  .next (s.takeDesc sq mv fun b => (dOp b == 2 && !dBcast b) || opReserved b)

/-- MOVER_BCAST_STORE (R169). -/
def execMoverBcastStore (sq mv : Nat) (s : State) : Out :=
  .next (s.takeDesc sq mv fun b => (dOp b == 2 && dBcast b) || opReserved b)

/-- MOVER_PREFETCH (R167, R181). -/
def execMoverPrefetch (sq mv : Nat) (s : State) : Out := .next (s.takeDesc sq mv fun b => dOp b == 3 || opReserved b)

/-- MOVER_UNPIN (R181). -/
def execMoverUnpin (sq mv : Nat) (s : State) : Out := .next (s.takeDesc sq mv fun b => dOp b == 4 || opReserved b)

/-- MOVER_INVAL (R181). -/
def execMoverInval (sq mv : Nat) (s : State) : Out := .next (s.takeDesc sq mv fun b => dOp b == 5 || opReserved b)

/-! ## Tiles (R170) -/

/-- Content lines of a tile: those of the tile, then those of its sidecar. -/
def tileLines (b : List Byte) (i : Nat) : List Nat :=
  let tl := dTile b / 64
  let sl := dMoved b / 64
  ((List.range tl).map fun k => i * tl + k) ++ ((List.range sl).map fun k => dCount b * tl + i * sl + k)

/-- Region-relative store offset of a content line. -/
def storeOff (b : List Byte) (k : Nat) : Nat :=
  let n := dCount b * (dTile b / 64)
  if k < n then 64 * (dLine b + k) else 64 * (dSline b + (k - n))

/-- Write one line into the issuing group's region, marked poisoned or not. -/
def State.putLine (s : State) (x : Group) (off : Nat) (data : List Byte) (poison : Bool) : State :=
  let s1 := (s.taintSpan x.square (x.base + off) 64).storeWrite x.square (x.base + off) data
  if poison then s1.poisonStore x.square (x.base + off) 64 else s1

/-- Copy content lines into the region from lines of a far side or a fallback run. -/
def State.copyLines (s : State) (fn : Nat) (x : Group) (b : List Byte) (src : List (Nat × Nat)) (ks : List Nat) : State :=
  ks.foldl (fun s k => match src[k]? with
    | some l => let r := s.lineRead fn l
                s.putLine x (storeOff b k) r.1 r.2
    | none => s) s

/-- Whether any of some content lines is poisoned at its source. -/
def State.linesPoisoned (s : State) (fn : Nat) (src : List (Nat × Nat)) (ks : List Nat) : Bool :=
  ks.any fun k => match src[k]? with
    | some l => (s.lineRead fn l).2
    | none => false

/-- Copy content lines into the entry being filled. -/
def State.fillLines (s : State) (fn id : Nat) (src : List (Nat × Nat)) (ks : List Nat) : State :=
  match s.mem.entries.find? fun e => e.1 == id with
  | none => s
  | some e => ks.foldl (fun s k => match src[k]? with
    | some l => s.tierWrite fn 1 (e.2.lineAt k).2 (s.lineRead fn l).1
    | none => s) s

/-- Reads of content lines: of a store, they meet the wrong bits of their words (R52). -/
def State.scanLines (s : State) (src : List (Nat × Nat)) (ks : List Nat) : State :=
  ((ks.filterMap fun k => src[k]?).filter fun l => l.1 == tStore).foldl
    (fun s l => s.storeScan (l.2 / 2 ^ 20) (l.2 % 2 ^ 20) 64) s

/-- Write the fallback of a tile over its lines, and count it. -/
def State.useFallback (s : State) (fn : Nat) (x : Group) (f : Flight) (i : Nat) : State × Flight :=
  let ks := tileLines f.desc i
  let s := s.scanLines f.fb ks
  (s.copyLines fn x f.desc f.fb ks,
    { f with fallback := f.fallback + 1, poisoned := f.poisoned || s.linesPoisoned fn f.fb ks })

/-- Count the sources of a tile that were poisoned in `old`, before its reads, where their errors are counted: units in MEM_CHn_ERR.UE,
store lines in FIL_ECC_CNT.UNCORR (R170). -/
def State.countSource (s old : State) (fn : Nat) (src : List (Nat × Nat)) (ks : List Nat) : State :=
  let bad := (ks.filterMap fun k => src[k]?).filter fun l => (old.lineRead fn l).2
  let us := ((bad.filter fun l => l.1 == 0).map fun l => l.2 / 512).eraseDups
  let s1 := us.foldl (fun s u => s.bump 0 (chErr Fld.MEM_CHn_ERR_UE (chanOf (u * 512))) 1) s
  (bad.filter fun l => l.1 == tStore).foldl (fun s l =>
    s.bump 0 (Fld.FIL_ECC_CNT_UNCORR.onPage (filePage (sqFile (l.2 / 2 ^ 20)))) 1) s1

/-- A tile that is on time. -/
def State.arrive (s : State) (fn : Nat) (x : Group) (f : Flight) (i : Nat) : State × Flight :=
  let ks := tileLines f.desc i
  let f := { f with left := f.left.erase i }
  let old := s
  let s := s.scanLines f.far ks
  let bad := s.linesPoisoned fn f.far ks
  let s1 := match f.entry with
    | some id => if bad then s.spoilEntry id else s.fillLines fn id f.far ks
    | none => s
  if dOp f.desc ≠ 1 then (s1, { f with poisoned := f.poisoned || bad })
  else if bad && dFb f.desc then ((s1.countSource old fn f.far ks).recErr 0x06 fn .eccUncorrectable 0xFFFF).useFallback fn x f i
  else (s1.copyLines fn x f.desc f.far ks, { f with poisoned := f.poisoned || bad })

/-- A tile that has missed the deadline: its fallback, or lines left undefined. -/
def State.miss (s : State) (fn : Nat) (x : Group) (f : Flight) (i : Nat) : State × Flight :=
  let f := { f with left := f.left.erase i }
  if dFb f.desc then s.useFallback fn x f i
  else
    let s1 := (tileLines f.desc i).foldl (fun s k =>
      { s.putLine x (storeOff f.desc k) (s.freeBytes 64) false with free := s.free + 64 }) s
    (s1, { f with late := true })

/-- Whether the descriptor under way still waits at the end of its deadline tick. -/
def Flight.expired (f : Flight) (now : Nat) : Bool :=
  match f.deadline with
  | some t => decide (t < now)
  | none => false

/-- TILE_ARRIVAL: a tile's last flit reaches the mover; the data of a page walk whose group has ended is discarded (R305), one flit of 512
bits for each line; after the deadline it is discarded (R62, R86, R170). -/
def execTileArrival (sq mv tile : Nat) (s : State) : Out :=
  .next (match ((s.square sq).mover mv).flight with
    | none => s
    | some f => match s.group f.d.group with
      | none => s
      | some x => match s.job x.job with
        | none => s
        | some j =>
          if !s.engineOn sq || !f.left.contains tile || f.expired s.now ||
              (f.far.any fun l => l.1 == 0 && !s.chanServes (chanOf l.2)) then s
          else
            let (s1, f1) := if x.st = .ending ∧ f.d.walk.isSome then (s, { f with left := f.left.erase tile }) else s.arrive j.fn x f tile
            (s1.perfCount sq 0x05 (tileLines f.desc tile).length).setFlight sq mv (some f1))

/-- TILE_DEADLINE_EXPIRY: the tick that holds DEADLINE has ended with tiles missing (R170, R181). -/
def execTileDeadlineExpiry (sq mv : Nat) (s : State) : Out :=
  .next (match ((s.square sq).mover mv).flight with
    | none => s
    | some f => match s.group f.d.group with
      | none => s
      | some x => match s.job x.job with
        | none => s
        | some j =>
          if !s.engineOn sq || f.left.isEmpty || !f.expired s.now then s
          else
            let s0 := match f.entry with
              | some id => s.dropEntry id
              | none => s
            let (s1, f1) := f.left.foldl (fun (a : State × Flight) i => a.1.miss j.fn x a.2 i) (s0, { f with entry := none })
            s1.setFlight sq mv (some f1))

/-! ## Completion (R171, R174) -/

/-- Data of a content line of a STORE: of the group's region, or free where R120 gives no outcome. -/
def State.srcLine (s : State) (x : Group) (f : Flight) (k : Nat) : List Byte :=
  if f.taint then s.freeBytes 64 else s.regionRead x (storeOff f.desc k) 64

/-- Whether a content line of a STORE is poisoned. -/
def State.srcPoisoned (s : State) (x : Group) (f : Flight) (k : Nat) : Bool := s.storePoisoned x.square (x.base + storeOff f.desc k) 64

/-- Content lines of a descriptor. -/
def contentLines (b : List Byte) : List Nat := List.range (dCount b * (dTile b / 64 + dMoved b / 64))

/-- Mark a far-side line poisoned. -/
def State.poisonLine (s : State) (fn : Nat) (l : Nat × Nat) : State :=
  match l.1 with
  | 0 => ({ s with mem := { s.mem with devPoison := assocSet false s.mem.devPoison (l.2 / 512) true } }).memIrq 1
  | 3 => s.poisonStore (l.2 / 2 ^ 20) (l.2 % 2 ^ 20) 64
  | 4 => s
  | 5 => s
  | t => { s with mem := { s.mem with linePoison := assocSet false s.mem.linePoison (byteKey fn t l.2 / 64) true } }

/-- Words of a mailbox that a STORE writes. -/
def State.mbxWords (s : State) (x : Group) (f : Flight) : List (Nat × Word) :=
  (contentLines f.desc).flatMap fun k =>
    let d := s.srcLine x f k
    let off := ((f.far.getD k (tMbx, 0)).2 % 0x100) / 4
    (List.range 16).map fun i => (off + i, BitVec.ofNat 32 (leField d (4 * i) 4))

/-- Write a STORE's lines to its far side; a mailbox takes them as one unit (R485). -/
def State.storeOut (s : State) (fn : Nat) (x : Group) (f : Flight) : State :=
  match f.far with
  | (5, off) :: _ =>
    let l := (off - 0x1000) / 0x100
    if !s.tempoOn || (s.loop l).frozen then s else s.mailboxAccept l (s.mbxWords x f)
  | _ => (contentLines f.desc).foldl (fun s k => match f.far[k]? with
    | some l =>
      let s1 := s.lineWrite fn l (s.srcLine x f k)
      let s2 := if s.srcPoisoned x f k then s1.poisonLine fn l else s1
      if f.taint then { s2 with free := s2.free + 64 } else s2
    | none => s) s

/-- Write a BCAST STORE's lines to the squares of RECT: the squares reached are counted (R169, R685). -/
def State.bcastOut (s : State) (x : Group) (f : Flight) : State × Nat :=
  let b := f.desc
  let fs := rectFiles b
  let rs := rectRanks b
  let sqs := (List.range 256).filter fun q =>
    decide (fs.1 ≤ sqFile q) && decide (sqFile q ≤ fs.2) && decide (rs.1 ≤ sqRank q) && decide (sqRank q ≤ rs.2)
  let lines := (contentLines b).map fun k => (storeOff b k, s.srcLine x f k, s.srcPoisoned x f k)
  let s0 := if f.taint then { s with free := s.free + 64 } else s
  sqs.foldl (fun (a : State × Nat) q => match a.1.targetGroup q x.job with
    | none => a
    | some t =>
      if (dStore b).all (t.covers true) then
        (lines.foldl (fun s (l : Nat × List Byte × Bool) => s.putLine t l.1 l.2.1 l.2.2) a.1, a.2 + 1)
      else a) (s0, 0)

/-- Perform what a descriptor writes at its end; each line is one flit of 512 bits (R62, R86). -/
def State.moveOut (s : State) (fn : Nat) (x : Group) (f : Flight) : State × Flight :=
  if f.status ≠ .ok ∨ dOp f.desc ≠ 2 then (s, f)
  else
    let s := (contentLines f.desc).foldl (fun s k => s.storeScan x.square (x.base + storeOff f.desc k) 64) s
    let bad := (contentLines f.desc).any fun k => s.srcPoisoned x f k
    let f := { f with poisoned := f.poisoned || bad }
    let s0 := s.perfCount x.square 0x06 (contentLines f.desc).length
    if dBcast f.desc then
      let (s1, n) := s0.bcastOut x f
      (s1, { f with reached := n })
    else (s0.storeOut fn x f, f)

/-- Status of a descriptor (R171). -/
def Flight.outcome (f : Flight) : Status :=
  if f.poisoned then .eccUncorrectable
  else if f.late then .timeout
  else if f.status ≠ .ok then f.status
  else if 0 < f.fallback then .okFallback
  else .ok

/-- Count of a descriptor: tiles from the fallback, or squares reached. -/
def Flight.count (f : Flight) : Nat := if dBcast f.desc then f.reached else f.fallback

/-- What a completion adds to the job (R174, R184). -/
def Job.noteDesc (j : Job) (f : Flight) (st : Status) : Job :=
  { j with
    fbTiles := j.fbTiles + f.fallback,
    fellBack := j.fellBack || st == .okFallback,
    missed := j.missed || st == .okFallback || st == .timeout,
    descFail := if st.isSuccess then j.descFail else j.descFail.orElse fun _ => some st }

/-- Count a completion's fallbacks and timeouts for its partition (R171, R192). -/
def State.countDesc (s : State) (fn : Nat) (f : Flight) (st : Status) : State :=
  let s1 := s.bump fn Fld.RSV_FB_TILES f.fallback
  let s2 := if st = .timeout then s1.bump fn Fld.RSV_DL_TIMEOUT 1 else s1
  if 0 < f.fallback ∨ st = .timeout then s2.raiseIrq 0x06 fn 1 else s2

/-- Free the mover, with the completion in its list of 32 (R116). -/
def State.freeMover (s : State) (sq mv : Nat) (f : Flight) (st : Status) : State :=
  let m := (s.square sq).mover mv
  let m1 := { m with flight := none }
  let m2 := if f.d.walk.isSome then m1
    else { m1 with done := (f.d.seq + 1) % 2 ^ 24, statuses := ((f.d.seq, st.code) :: m1.statuses).take 32 }
  ((s.setSquare sq (((s.square sq).setMover mv m2).feed mv 16)).resumeWalks sq).settleFrees

/-- Complete the descriptor of a mover: its last writes, the Reserve entry, WB_STATUS and WB_COUNT or the page's arrival, the
counters, the job's status and the mover's next work. -/
def State.completeDesc (s : State) (sq mv : Nat) (f : Flight) (x : Group) (j : Job) : State :=
  let (s1, f1) := s.moveOut j.fn x f
  let (s2, refused) := match f1.entry with
    | some id => s1.endFill id (dPin f1.desc)
    | none => (s1, false)
  let f2 := if refused then { f1 with status := .pinLimit } else f1
  let st := f2.outcome
  let s3 := s2.freeMover sq mv f2 st
  let s4 := match f2.d.walk with
    | some (_, k) => s3.pageArrived f2.d.group x k f2.fallback st
    | none =>
      let off := x.base + f2.d.off + 60
      (s3.taintSpan sq off 4).storeWrite sq off (leBytes 2 st.code ++ leBytes 2 f2.count)
  let s5 := (s4.countDesc j.fn f2 st).setJob x.job (((s4.job x.job).getD j).noteDesc f2 st)
  s5.settleGroup f2.d.group

/-- MOVER_DESCRIPTOR_COMPLETE: the last write of the descriptor under way performs (R171). -/
def execMoverDescriptorComplete (sq mv : Nat) (s : State) : Out :=
  .next (match ((s.square sq).mover mv).flight with
    | none => s
    | some f => match s.group f.d.group with
      | none => s
      | some x => match s.job x.job with
        | none => s
        | some j =>
          let waits := dOp f.desc = 2 ∧ f.status = .ok ∧ (f.far.any fun l => l.1 == 0 && !s.chanServes (chanOf l.2)) = true
          if !s.engineOn sq || !f.left.isEmpty || waits then s else s.completeDesc sq mv f x j)

/-! ## Invalidation of translations (R165, R166, R194) -/

/-- Virtual line addresses that a descriptor under way translated: of its far side, and of a fallback in the Reserve (R172). -/
def Flight.virtuals (f : Flight) : List Nat :=
  let b := f.desc
  let side := if dSided b && dFbsaddr b != 0 then dSide b else 0
  (if dSrck b == 0 && !dBcast b && !f.far.isEmpty then farAddrs b (dAddr b) (dSaddr b) else []) ++
    if dFb b && !dFbloc b then runLines (dFbaddr b) (dTile b) (dTile b) (dCount b) ++ runLines (dFbsaddr b) side side (dCount b)
    else []

/-- Whether a descriptor under way belongs to a function. -/
def State.flightOf (s : State) (fn : Nat) (f : Flight) : Bool :=
  match s.group f.d.group with
  | none => false
  | some x => match s.job x.job with
    | none => false
    | some j => j.fn == fn

/-- Mark a mover's descriptor where an invalidation names a page that it translated. -/
def State.markMover (s : State) (fn lo hi : Nat) (m : Mover) : Mover :=
  match m.flight with
  | none => m
  | some f => if s.flightOf fn f && f.virtuals.any fun va => invalNames fn lo hi (tlbKey fn va) then
      { m with flight := some { f with inval := true } } else m

/-- Mark every descriptor under way that an invalidation names. -/
def State.markInval (s : State) (fn lo hi : Nat) : State :=
  { s with squares := s.squares.map fun e =>
      (e.1, { e.2 with mv0 := s.markMover fn lo hi e.2.mv0, mv1 := s.markMover fn lo hi e.2.mv1 }) }

/-- A write of MMU_INVAL_HI: the named translations go, covered locked ones are walked again, and BUSY is set; ignored while
BUSY (R165, R166, R194). -/
def execMmuInval (fn v : Nat) (s : State) : Out :=
  .next (if !s.serves 0x08 || s.flag fn Fld.MMU_INVAL_STS_BUSY then s
    else if resvHit 0x08 0x04C v then s.recErr 0x08 fn .malformed 0x04C
    else
      let lo := (s.getReg fn 0x08 0x048).toNat
      let n := (s.mem.locked.filter fun e => invalNames fn lo v e.1).length
      let s1 := { s with mem := { s.mem with
        tlb := s.mem.tlb.filter (fun e => !invalNames fn lo v e.1), locked := s.relock fn lo v } }
      (((s1.countWalks fn n).markInval fn lo v).showLocked fn).setFlag fn Fld.MMU_INVAL_STS_BUSY true)

/-- The invalidation completes, and BUSY clears, once every descriptor that translated through a removed entry has completed; other
accesses perform as they issue (R165). -/
def execMmuInvalComplete (fn : Nat) (s : State) : Out :=
  .next (if s.flights.any fun f => f.inval && s.flightOf fn f then s else s.setFlag fn Fld.MMU_INVAL_STS_BUSY false)

end Sys2Proof.Machine
end

