-- ==== Sys2Proof/Machine/Reset.lean ====
section
/-! DEFINITION. Function level resets, the Board and the compute reset, the modes of R580, and faults of Dispatcher cores
(R221, R571, R572, R580, R583, R589). -/

namespace Sys2Proof.Machine

/-! ## Function level resets (R221, R571) -/

/-- Register bank of a peripheral controller (R669). -/
def perBank (c : Nat) : Nat := 600 + c

/-- A peripheral controller. -/
def State.per (s : State) (c : Nat) : PerSt := assocGet {} s.pers c

/-- Replace a peripheral controller. -/
def State.setPer (s : State) (c : Nat) (x : PerSt) : State := { s with pers := assocSet {} s.pers c x }

/-- The peripherals of a function: EN is cleared, and a running descriptor completes without write-back (R670). -/
def State.perRelease (s : State) (fn : Nat) : State :=
  (List.range 14).foldl (fun (s : State) c =>
    if s.getF (perBank c) Fld.GPI_PER_CFG_FUNC = fn ∧ s.flag (perBank c) Fld.GPI_PER_CFG_EN then
      let s1 := s.setF (perBank c) Fld.GPI_PER_CFG_EN 0
      let s2 := if (s.per c).desc.isSome then s1.setF (perBank c) Fld.GPI_PER_HEAD (add32 (s.getF (perBank c) Fld.GPI_PER_HEAD) 1) else s1
      s2.setPer c {}
    else s) s

/-- Edge's part: its running descriptor goes without write-back (R338). -/
def State.edgeRelease (s : State) (fn : Nat) : State :=
  let mine := (s.edge.eng.tasks.filter fun t => t.2.fn == fn).map (·.1)
  let s1 := { s with edge := { s.edge with runs := s.edge.runs.filter fun e => !mine.contains e.1 } }
  s1.engRelease edgeR fn

/-- What the engines and the pipeline hold for a function goes (R338, R371, R409, R443, R471). -/
def State.enginesRelease (s : State) (fn : Nat) : State :=
  ((((s.edgeRelease fn).knightRelease fn).slvRelease fn).fusRelease fn).inputRelease fn

/-- A function level reset also ends what the Ethernet ports and the peripherals do for the function (R532, R670). -/
def State.unitsRelease (s : State) (fn : Nat) : State :=
  let s1 := s.enginesRelease fn
  let s2 := [0, 1].foldl (fun (s : State) p => if s.ethRuns p && s.ethFn p == fn then s.ethCancelPort p else s) s1
  s2.perRelease fn

/-- Forget a function's HELLO and its challenge (R604, R632). -/
def State.forgetFn (s : State) (fn : Nat) : State :=
  { s with hello := assocErase fn s.hello, csl := { s.csl with chal := assocErase fn s.csl.chal } }

/-- No completion of a partition's jobs is written from here on (R221). -/
def State.silence (s : State) (fn : Nat) : State :=
  { s with jobs := s.jobs.map fun e => if e.2.fn = fn ∧ e.2.st ≠ .ended then (e.1, { e.2 with silent := true }) else e }

/-- A function level reset: queues quiesced, jobs ended without completions, those of queues quiesced before too (R221). -/
def State.flr (s : State) (fn : Nat) : State :=
  let s1 := (((s.silence fn).quiesceQueues fn true).unitsRelease fn).forgetFn fn
  if s.isCtlOwner fn then s1.tempoFreeze 6 else s1

/-- FUNCTION_LEVEL_RESET (R221). -/
def execFunctionLevelReset (fn : Nat) (s : State) : Out := .next (s.flr fn)

/-- VF_ENABLE_CLEAR: as a function level reset of every virtual function of the port (R221, R256). -/
def execVfEnableClear (port : Nat) (s : State) : Out :=
  let s1 := (List.range 15).foldl (fun (s : State) i => s.flr (16 * port + i + 1)) s
  .next (s1.setF 0 (Fld.PCI_PORTn_VFS.plus (4 * port)) 0)

/-- PCIE_FUNDAMENTAL_RESET: PERST_N retrains the port and resets its functions at function level (R571). -/
def execPcieFundamentalReset (port : Nat) (s : State) : Out :=
  let s1 := (List.range 16).foldl (fun (s : State) i => s.flr (16 * port + i)) s
  .next (((s1.setF 0 (Fld.PCI_PORTn_SPEED.plus (4 * port)) 1).setF 0 (Fld.PCI_PORTn_WIDTH.plus (4 * port)) 0).setF 0
    (Fld.PCI_PORTn_VFS.plus (4 * port)) 0)

/-! ## Board and compute resets (R572, R583) -/

/-- DEV_CMD completes (R593, R595). -/
def State.devDone (s : State) (st : Status) : State := (s.finishCmd 0 Fld.DEV_CMD_STS_STATUS st).raiseIrq 0x00 0 1

/-- Step 2 for one file: it stops at once and, unless it is in FAULT, takes the power cycle that keeps SQ_FAULT, to the state of its
last ENABLE request (R69, R583). -/
def State.cycleFile (s : State) (f : Nat) : State :=
  let st := s.pageSt (filePage f)
  if st = stOff ∨ st = stFault ∨ st = stHeld then s
  else
    let s1 := s.gateFile f
    if s.enableReq (filePage f) then s1.startFile f
    else (s1.setFile f { s1.file f with recEnable := false, recReset := false, recQuiesce := false }).setFileSt f stOff

/-- Step 2: every group goes, with its engine work, and fills under way are dropped. -/
def State.stopFiles (s : State) : State :=
  let fills := (s.mem.entries.filter fun e => e.2.st == .filling).map (·.1)
  let s1 := fills.foldl (fun (s : State) id => s.dropEntry id) { s with groups := [], squares := [] }
  (List.range 16).foldl State.cycleFile s1

/-- What a Board or compute reset does to one stream (R286): a STORE copy comes back from its shadow or is lost, the Reserve's copies
live through a compute reset only, and a move under way falls back to where its source stands. -/
def State.streamReset (s : State) (board : Bool) (fn h : Nat) : State :=
  let x := s.stream fn h
  let inStore := x.st == .store || x.st == .busy || (x.st == .out && x.src == .store)
  let inResv := x.st == .resv || ((x.st == .out || x.st == .inn) && x.src == .resv)
  if inStore then
    match x.shadow with
    | some (data, g) =>
      if board then (s.freeCopies fn h).tearStream fn h
      else (s.setStream fn h { x with st := .out, toOuter := false, copy := data, gen := g, slot := none, parkWait := none }).outDone fn h
    | none => (s.freeCopies fn h).tearStream fn h
  else if inResv then
    if board then (s.freeCopies fn h).tearStream fn h
    else s.setStream fn h { x with st := .resv, slot := none, parkWait := none }
  else if x.st = .inn then s.setStream fn h { x with st := x.src, slot := none, parkWait := none }
  else s

/-- Step 3: the streams, also those of running calls, fare as R286 gives, and jobs in flight complete with CANCELLED, DETAIL 1 (R250,
R583). -/
def State.resetJobs (s : State) (board : Bool) : State :=
  let s1 := s.streams.foldl (fun (s : State) e => s.streamReset board (e.1 / 16384) (e.1 % 16384)) s
  let s2 := s1.stopStarted 1
  if board then
    { s2 with streams := s2.streams.map fun (e : Nat × Stream) => (e.1, { e.2 with shadow := none }) }
  else s2

/-- Whether a buffer of an Ethernet ring lies in the Reserve tier (R533). -/
def State.ethInReserve (s : State) (p : Nat) : Bool :=
  match (s.ethPort p).block with
  | none => false
  | some b => [EthRing.tx, EthRing.rx].any fun r =>
      (List.range (r.size b)).any fun i => match s.vaBytes (s.ethFn p) (r.va b + 32 * i) 32 2 with
        | .ok d => s.runInTier (s.ethFn p) (leField d 0 8) 1 1
        | .error _ => false

/-- Step 4 of a Board reset: the Reserve is zeroed, its entries and pins discarded and every variant history cleared; engine work and
rings that lie in the Reserve end (R186, R338, R371, R409, R443, R471, R533). -/
def State.boardStep4 (s : State) : State :=
  let inRsv := fun (t : Nat × Task) =>
    let c := parseConv t.2.desc
    s.runInTier t.2.fn c.iaddr c.inBytes 1 && c.ilay != 3 || s.runInTier t.2.fn c.oaddr c.outBytes 1
  let s1 := (s.edge.eng.tasks.filter inRsv).foldl (fun (s : State) t => s.edgeFinish t.1 t.2 (s.edgeRows t.1) .cancelled) s
  let s2 := (((s1.knightBoard).slvBoard).fusBoard).inputBoard
  let s3 := [0, 1].foldl (fun (s : State) p =>
    if s.ethRuns p && s.ethInReserve p then (s.ethCancelPort p).setF 0 (Fld.ETH_Pn_CFG_EN.port p) 0 else s) s2
  let ids := s3.mem.entries.map (·.1)
  let s4 := ids.foldl (fun (s : State) id => s.dropEntry id) s3
  { s4 with
    mem := { s4.mem with rsv := [], linePoison := s4.mem.linePoison.filter fun e => !rsvLine e.1 }, trackers := [] }

/-- Step 4 of a compute reset: the engines' and the pipeline's compute-reset actions (R338, R371, R409, R443, R471). -/
def State.computeStep4 (s : State) : State :=
  ((((s.edgeEndAll .cancelled).knightEndAll .cancelled).slvEndAll .cancelled).fusCompute).inputCompute

/-- Every locked translation is walked again (R166, R583). -/
def State.reloadLocked (s : State) : State :=
  let l := s.mem.locked.filterMap fun e => match s.walk (e.1 / 2 ^ 52) (e.1 % 2 ^ 52) with
    | .ok x => some (e.1, x)
    | .error _ => none
  let s1 := { s with mem := { s.mem with locked := l } }
  let s2 := s.mem.locked.foldl (fun (s : State) e => s.countWalks (e.1 / 2 ^ 52) 1) s1
  (List.range 64).foldl State.showLocked s2

/-- A Board or compute reset begins: step 1 (R491, R583). -/
def State.beginReset (s : State) (compute : Bool) : State :=
  { s.tempoFreeze 5 with rst := { s.rst with run := some (compute, 1) } }

/-- A request for a Board or compute reset on a device that is Active: it begins, merges with the one that runs, or is recorded
(R572). -/
def State.requestReset (s : State) (compute : Bool) : State :=
  match s.rst.run with
  | none => s.beginReset compute
  | some (c, _) => if c = compute then s
    else if compute then { s with rst := { s.rst with compute := true } } else { s with rst := { s.rst with board := true } }

/-- Step 5 ends: the Dispatcher takes up again, and a recorded reset begins (R572, R583, R589). -/
def State.endReset (s : State) (compute : Bool) : State :=
  let cores := if compute then s.rst.failedCores else []
  let s1 := { s.reloadLocked with rst := { s.rst with run := none, failedCores := cores } }
  let s2 := (if s1.dspOn then s1.applyHeld else s1).tempoThaw
  let s3 := if s2.cmdDone 0 Fld.DEV_CMD_STS_DONE then s2 else s2.devDone .ok
  if s3.rst.board then
    ({ s3 with rst := { s3.rst with board := false } }.startCmd 0 Fld.DEV_CMD_STS_DONE).beginReset false
  else if s3.rst.compute then
    ({ s3 with rst := { s3.rst with compute := false } }.startCmd 0 Fld.DEV_CMD_STS_DONE).beginReset true
  else s3

/-- RESET_STEP_DONE: a step of a Board or compute reset completes and the next one runs (R583). -/
def execResetStepDone (s : State) : Out :=
  .next (match s.rst.run with
    | none => s
    | some (c, n) =>
      let s1 := { s with rst := { s.rst with run := some (c, n + 1) } }
      if n = 1 then s1.stopFiles
      else if n = 2 then s1.resetJobs (!c)
      else if n = 3 then if c then s1.computeStep4 else s1.boardStep4
      else if n = 4 then s1
      else s.endReset c)

/-- Whether the device is Active and no power-state transition runs. -/
def State.isActive (s : State) : Bool := s.getF 0 Fld.PWR_STATE_STATE == 0 && !s.flag 0 Fld.PWR_STATE_BUSY

/-- DISPATCHER_RESET: RESET on the Dispatcher's page in ON is a Board reset, with the precedence of R572 (R255). -/
def execDispatcherReset (fn : Nat) (s : State) : Out :=
  .next (s.ctlWrite fn 0x05 (s.isOwner fn) .owned (if s.pageSt 0x05 = stOn ∧ s.isActive then s.requestReset false else s))

/-! ## DEV_CMD (R580, R593, R594) -/

/-- A write to DEV_CMD: before READY every write records OWNED, as does one of a function that is not the owner's. A write while a
command runs is recorded under R572 where it asks for a reset, and refused otherwise. -/
def State.devCmd (s : State) (fn v op : Nat) (f : State → State) : State :=
  let bad := resvHit 0x00 0x04C v || bits v 7 0 != (if op ≤ 3 then 0xA5 else 0)
  if opCode v ≠ op ∨ !s.serves 0x00 then s
  else if s.getF 0 Fld.DEV_BOOT_STAGE ≠ 7 then s.recErr 0x00 fn .owned 0x04C
  else s.gated fn 0x00 0x04C (
    if !s.isOwner fn then s.recErr 0x00 fn .owned 0x04C
    else if s.cmdDone 0 Fld.DEV_CMD_STS_DONE then
      if bad then s.devDone .devMalformed else f (s.startCmd 0 Fld.DEV_CMD_STS_DONE)
    else if bad then s.recErr 0x00 fn .devMalformed 0x04C
    else if op ≤ 3 then f s
    else s.recErr 0x00 fn .devRefused 0x04C)

/-- BOARD_RESET (R572, R583). -/
def execBoardReset (fn v : Nat) (s : State) : Out :=
  .next (s.devCmd fn v 2 fun s => if s.isActive then s.requestReset false else s.devDone .devRefused)

/-- COMPUTE_RESET (R572, R583). -/
def execComputeReset (fn v : Nat) (s : State) : Out :=
  .next (s.devCmd fn v 3 fun s => if s.isActive then s.requestReset true else s.devDone .devRefused)

/-- Whether BIST and REPLAY_ENTER are refused (R580). -/
def State.modeRefused (s : State) : Bool := s.anyKres || s.anyLoopActive || s.getF 0 Fld.DEV_MODE_MODE != 0

/-- A file takes the self-test of R579: it starts, and its squares not in FAULT are under test. -/
def State.testFile (s : State) (f : Nat) : State :=
  let s1 := (squaresOf f).foldl (fun (s : State) sq => if s.sqSt sq = sqFaultSt then s else s.setSqSt sq sqTest) s
  (s1.setFile f { s1.file f with testing := 16, startTick := s1.ticks }).setFileSt f stStarting

/-- BIST: the files that are unassigned and OFF take the self-test (R580). -/
def execBistCmd (fn v : Nat) (s : State) : Out :=
  .next (s.devCmd fn v 4 fun s =>
    if s.modeRefused then s.devDone .devRefused
    else
      let fs := (List.range 16).filter fun f => (s.fileHolder f).isNone && s.pageSt (filePage f) == stOff
      fs.foldl State.testFile ({ s with rst := { s.rst with bist := fs } }.setF 0 Fld.DEV_MODE_MODE 2))

/-- A tested file returns to OFF: squares that failed are in FAULT with their bits set, the others GATED (R70, R579). -/
def State.endTest (s : State) (failed : List Nat) (f : Nat) : State :=
  let bad := (squaresOf f).filter fun sq => failed.contains sq
  let s1 := bad.foldl (fun (s : State) sq => ((s.setSqSt sq sqFaultSt).setF 0 (sqFaultFld sq) 1).raiseIrq (filePage f) 0 0) s
  let s2 := (squaresOf f).foldl (fun (s : State) sq => if s.sqSt sq = sqTest then s.setSqSt sq sqGated else s) s1
  (s2.gateFile f).setFileSt f stOff

/-- BIST_DONE: the tests are complete, with the squares that failed; the mode is NORMAL again (R579, R580). -/
def execBistDone (failed : List Nat) (s : State) : Out :=
  .next (if s.getF 0 Fld.DEV_MODE_MODE ≠ 2 then s
    else
      let fs := s.rst.bist
      let bad := failed.any fun sq => fs.contains (sqFile sq)
      let s1 := fs.foldl (fun (s : State) f => s.endTest failed f) s
      let s2 := (({ s1 with rst := { s1.rst with bist := [] } }).setF 0 Fld.DEV_MODE_MODE 0).genFall
      s2.devDone (if bad then .selftestFailed else .ok))

/-- REPLAY_ENTER (R580). -/
def execReplayEnter (fn v : Nat) (s : State) : Out :=
  .next (s.devCmd fn v 5 fun s =>
    if s.modeRefused then s.devDone .devRefused else (s.setF 0 Fld.DEV_MODE_MODE 3).devDone .ok)

/-- REPLAY_EXIT (R580). -/
def execReplayExit (fn v : Nat) (s : State) : Out :=
  .next (s.devCmd fn v 6 fun s =>
    if s.getF 0 Fld.DEV_MODE_MODE ≠ 3 then s.devDone .devRefused else ((s.setF 0 Fld.DEV_MODE_MODE 0).genFall).devDone .ok)

/-! ## Dispatcher cores (R589) -/

/-- DISPATCHER_CORE_FAILOVER: a Class K core fails and the other one takes its queues; Class K entries that were taken and had not
started wait again, and the interruption is measured when the first of them starts (R585, R589, R591). -/
def execDispatcherCoreFailover (core : Nat) (s : State) : Out :=
  .next (if 2 ≤ core ∨ s.rst.failedCores.contains core ∨ !s.dspOn then s
    else
      let s1 := (s.noteFault 2 core)
      let wait := fun (e : Nat × Job) =>
        if e.2.cls == 2 && e.2.st == .waiting then (e.1, { e.2 with faultTick := some s.ticks }) else e
      { s1 with jobs := s1.jobs.map wait, rst := { s1.rst with failedCores := s1.rst.failedCores ++ [core] } })

/-- DISPATCHER_CORE_FAULT: a fault of cores 2 to 7 ends the work on that core as a Board reset does; which jobs a core works on is not
given (R589; log entry 31). -/
def execDispatcherCoreFault (core : Nat) (s : State) : Out :=
  .next (if core < 2 ∨ 7 < core ∨ s.rst.failedCores.contains core then s
    else
      let on := s.startedJobs.filter fun e => e.2.cls != 2 && (Config.free (s.free + e.1) 3).toNat % 6 + 2 == core
      let s1 := on.foldl (fun (s : State) e => s.stopJob e.1 .cancelled 1 1) s
      let s2 := { s1 with rst := { s1.rst with failedCores := s1.rst.failedCores ++ [core] } }
      ({ s2 with free := s2.free + s2.nextJob + 1 }).settleQueues)

end Sys2Proof.Machine
end

