-- ==== Sys2Proof/Machine/Config33.lean ====
section
/-! DEFINITION. The global configuration: its block, its checks, quiescing what a change removes, and its taking effect (R31 to R34,
R186, R249, R635 to R637). -/

namespace Sys2Proof.Machine

/-! ## The block (R637) -/

/-- A partition entry. -/
structure PartCfg where
  fn : Nat := 0
  kq : Nat := 0
  files : Nat := 0
  kres : Nat := 0
  floor : Nat := 0
  qbase : Nat := 0
  qcount : Nat := 0
  ext : List Nat := []
  deriving DecidableEq, Repr, Inhabited

/-- A configuration. -/
structure GlobalCfg where
  ctl : Option Nat := none
  expGen : Nat := 0
  parts : List PartCfg := []
  deriving DecidableEq, Repr, Inhabited

/-- One entry of 64 bytes. -/
def parsePart (e : List Byte) : PartCfg :=
  { fn := leField e 0 1 % 64, kq := leField e 1 1, files := leField e 2 2, kres := leField e 4 2, floor := leField e 6 2,
    qbase := leField e 8 4, qcount := leField e 12 4, ext := [leField e 16 4, leField e 20 4, leField e 24 4, leField e 28 4] }

/-- Entries of a block, valid or not. -/
def cfgEntries (b : List Byte) : List (List Byte) := (List.range (leField b 6 1)).map fun i => (b.drop (64 + 64 * i)).take 64

/-- Whether an entry is valid. -/
def entryValid (e : List Byte) : Bool := bit (leField e 0 1) 7

/-- The configuration that a block describes. -/
def parseCfg (b : List Byte) : GlobalCfg :=
  { ctl := if bit (leField b 7 1) 7 then some (leField b 7 1 % 64) else none, expGen := leField b 8 4,
    parts := ((cfgEntries b).filter entryValid).map parsePart }

/-- Extents of an entry in force: base and limit in 2 MiB units. -/
def PartCfg.extents (p : PartCfg) : List (Nat × Nat) :=
  (p.ext.filter fun w => bit w 31).map fun w => (bits w 13 0, bits w 29 16)

/-- The bytes of an entry. -/
def partBytes (p : PartCfg) : List Byte :=
  leBytes 1 (128 + p.fn) ++ leBytes 1 p.kq ++ leBytes 2 p.files ++ leBytes 2 p.kres ++ leBytes 2 p.floor ++ leBytes 4 p.qbase ++
    leBytes 4 p.qcount ++ p.ext.flatMap (leBytes 4) ++ List.replicate 32 0#8

/-- The bytes of a block. -/
def cfgBytes (c : GlobalCfg) : List Byte :=
  leBytes 4 0x4347594B ++ leBytes 2 1 ++ leBytes 1 c.parts.length ++
    leBytes 1 (match c.ctl with | some p => 128 + p | none => 0) ++ leBytes 4 c.expGen ++ List.replicate 52 0#8 ++
    c.parts.flatMap partBytes

/-- A partition in force as an entry. -/
def State.partCfg (s : State) (fn : Nat) : PartCfg :=
  { fn := fn, kq := s.getF fn Fld.DSP_QRANGE_KQ, files := maskOf (s.partFiles fn), kres := maskOf (s.partKFiles fn),
    floor := s.rsvFloor fn, qbase := (assocGet {} s.parts fn).qbase, qcount := s.qcount fn,
    ext := (List.range 4).map fun i =>
      (if s.flag fn (Fld.MMU_EXTn_BASE_VALID.plus (8 * i)) then 2 ^ 31 else 0) +
        s.getF fn (Fld.MMU_EXTn_BASE_UNIT.plus (8 * i)) + 2 ^ 16 * s.getF fn (Fld.MMU_EXTn_LIMIT_UNIT.plus (8 * i)) }

/-- Functions that hold a partition. -/
def State.heldParts (s : State) : List Nat := (s.parts.filter fun e => e.2.held).map (·.1)

/-- The configuration in force. -/
def State.cfgInForce (s : State) : GlobalCfg :=
  { ctl := s.ctlOwner, expGen := s.getF 0 Fld.DEV_GEN, parts := s.heldParts.map s.partCfg }

/-! ## Checks (R637) -/

/-- Functions that exist under the bifurcation; a strap of 11 is taken as 1 × 16 (R220, R660). -/
def State.fnCount (s : State) : Nat := match s.getF 0 Fld.PCI_BIFUR_MODE with
  | 1 => 32
  | 2 => 64
  | _ => 16

/-- Whether an entry is laid out as R637 gives. -/
def entryLaidOut (e : List Byte) : Bool :=
  !bit (leField e 0 1) 6 && leField e 32 32 == 0 && decide (leField e 12 4 ≤ 65536) &&
    (parsePart e).ext.all fun w => bits w 15 14 == 0 && !bit w 30

/-- Whether a list of spans (start, length) overlaps nowhere. -/
def spansApart (l : List (Nat × Nat)) : Bool :=
  l.zipIdx.all fun a => l.zipIdx.all fun b => a.2 == b.2 || !spansMeet a.1 b.1

/-- Whether the header and the entries are well formed. -/
def State.cfgLaidOut (s : State) (b : List Byte) : Bool :=
  let c := parseCfg b
  let fns := c.parts.map PartCfg.fn
  leField b 0 4 == 0x4347594B && leField b 4 2 == 1 && decide (leField b 6 1 ≤ 64) && !bit (leField b 7 1) 6 && leField b 12 52 == 0 &&
    ((cfgEntries b).filter entryValid).all entryLaidOut && fns.all (fun f => decide (f < s.fnCount)) && fns.eraseDups == fns &&
    (match c.ctl with
     | some p => fns.contains p
     | none => true)

/-- Whether resources overlap or exceed the device. -/
def cfgConflict (c : GlobalCfg) : Bool :=
  let ps := c.parts
  let exts := ps.flatMap PartCfg.extents
  !((List.range 16).all fun f => decide (((ps.filter fun p => bit p.files f).length) ≤ 1)) ||
    !(ps.all fun p => Nat.land p.kres p.files == p.kres && decide (p.qbase + p.qcount ≤ 65536) && decide (p.kq ≤ p.qcount)) ||
    !spansApart (ps.map fun p => (p.qbase, p.qcount)) || !(exts.all fun e => decide (e.1 < e.2) && decide (e.2 ≤ 14336)) ||
    !spansApart (exts.map fun e => (e.1, e.2 - e.1)) || decide (16384 < (ps.map PartCfg.floor).sum)

/-- Bind the files as a configuration gives. -/
def State.bindFiles (s : State) (c : GlobalCfg) : State :=
  (List.range 16).foldl (fun (s : State) f =>
    let w := match c.parts.find? fun p => bit p.files f with
      | some p => p.fn + 2 ^ 8 + (if bit p.kres f then 2 ^ 9 else 0)
      | none => 0
    s.setReg 0 (filePage f) 0x048 (BitVec.ofNat 32 w)) s

/-- Why a block is refused, if it is. -/
def State.cfgFault (s : State) (b : List Byte) : Option Status :=
  let c := parseCfg b
  if !s.cfgLaidOut b then some .arbMalformed
  else if c.expGen ≠ s.getF 0 Fld.DEV_GEN then some .genStale
  else if cfgConflict c then some .configConflict
  else if c.parts.any (fun p => decide (p.floor < s.rsvPinned p.fn)) then some .pinLimit
  else if s.getF 0 Fld.DEV_MODE_MODE ≠ 0 ∧ c.parts.any (fun p => p.kres != 0) then some .devRefused
  else if !capMeets (s.fracOf 0) (s.fracOf 6) s.acceptedCap (s.bindFiles c).kneed then some .powerLimited
  else none

/-! ## Quiescing what a change removes (R33, R249) -/

/-- The entry of a function in a configuration. -/
def GlobalCfg.part (c : GlobalCfg) (fn : Nat) : Option PartCfg := c.parts.find? fun p => p.fn == fn

/-- Files that a configuration takes from a partition, and those that it takes out of its reservation. -/
def State.lostFiles (s : State) (c : GlobalCfg) (fn : Nat) : List Nat :=
  (s.partFiles fn).filter fun f => match c.part fn with
    | some p => !bit p.files f
    | none => true
def State.lostKFiles (s : State) (c : GlobalCfg) (fn : Nat) : List Nat :=
  (s.partKFiles fn).filter fun f => match c.part fn with
    | some p => !bit p.kres f
    | none => true

/-- Whether a configuration removes a queue or its files: another QBASE names other queue pairs, and a Class K queue's files are KFILES,
another's every file of the partition. -/
def State.queueLost (s : State) (c : GlobalCfg) (fn q : Nat) : Bool :=
  match c.part fn with
  | none => true
  | some p =>
    let Q := s.queue fn q
    decide (p.qcount ≤ q) || p.qbase != (assocGet {} s.parts fn).qbase ||
      (if Q.cls = 2 then (s.lostKFiles c fn).any fun f => bit Q.kfiles f else !(s.lostFiles c fn).isEmpty)

/-- Stop a file that a partition loses. -/
def State.takeFile (s : State) (f : Nat) : State :=
  let s1 := s.setEnableReq (filePage f) false
  if s.pageSt (filePage f) = stOn then s1.stopFile f
  else if s.pageSt (filePage f) = stStarting then s1.setFile f { s1.file f with recQuiesce := true }
  else s1.setFile f { s1.file f with recEnable := false, recReset := false }

/-- Quiesce what a configuration removes from one partition; the control-owner's quiescing is cause 6 (R491). -/
def State.quiesceLost (s : State) (c : GlobalCfg) (fn : Nat) : State :=
  let qs := (s.partQueues fn).filter fun q => s.queueLost c fn q
  let fs := s.lostFiles c fn
  let s1 := qs.foldl (fun (s : State) q => s.quiesceQueue fn q false) s
  let s2 := fs.foldl (fun (s : State) f => s.takeFile f) s1.settleQueues
  if (c.part fn).isNone && s.isCtlOwner fn then s2.tempoFreeze 6 else s2

/-- A change that has passed its checks begins (R33). -/
def State.beginCfg (s : State) (b : List Byte) (who path : Nat) : State :=
  let c := parseCfg b
  let s1 := s.heldParts.foldl (fun (s : State) fn => s.quiesceLost c fn) s
  let floors := c.parts.filterMap fun p => if p.floor < s.rsvFloor p.fn then some (p.fn, p.floor) else none
  { s1 with arb := { s1.arb with cfg := some (b, who), floors := floors, path := path } }

/-- Whether everything that a change removes is quiet: files, queues, and Reserve floor that pins hold. -/
def State.cfgQuiet (s : State) (c : GlobalCfg) : Bool :=
  s.heldParts.all fun fn =>
    ((s.lostFiles c fn).all fun f => !s.filePowered f) &&
      (match c.part fn with
       | some p => decide (s.rsvPinned fn ≤ p.floor)
       | none => true) &&
      (s.partQueues fn).all fun q => !s.queueLost c fn q || (s.queueJobs fn q).isEmpty

/-! ## Taking effect (R637) -/

/-- Clear one function's registers of a page, without the header. -/
def State.clearBank (s : State) (bank page : Nat) : State :=
  { s with regs := s.regs.filter fun e =>
      !(decide (e.1 / 2 ^ 24 = bank) && decide (e.1 / 2 ^ 16 % 2 ^ 8 = page) && decide (0x40 ≤ e.1 % 2 ^ 16)) }

/-- RESET or DELETE commands of queues that a change takes complete with them: their last jobs have ended (R249). -/
def State.endQcmds (s : State) (fn : Nat) (lost : Nat → Bool) : State :=
  if s.queues.any fun e => decide (e.1 / 65536 = fn) && e.2.cmd != .none && lost (e.1 % 65536) then s.qcmdDone fn .ok else s

/-- A partition is released: its queues, jobs, images, streams, pages, translations and engine work go (R186, R249, R286, R650). -/
def State.releasePart (s : State) (fn : Nat) : State :=
  let s1 := (s.endQcmds fn fun _ => true).enginesRelease fn
  let hs := (s1.streams.filter fun e => decide (e.1 / 16384 = fn)).map fun e => e.1 % 16384
  let s2 := hs.foldl (fun (s : State) h => (s.freeCopies fn h).setStream fn h {}) s1
  let es := (s2.mem.entries.filter fun e => e.2.fn == fn).map (·.1)
  let s3 := es.foldl (fun (s : State) id => s.dropEntry id) s2
  let s4 := (s3.releasePages (s3.mappedPages fn)).clearTrackers fn
  let s5 := { s4 with
    queues := s4.queues.filter (fun e => decide (e.1 / 65536 ≠ fn)), jobs := s4.jobs.filter (fun e => e.2.fn != fn),
    images := s4.images.filter (fun e => decide (e.1 / 32768 ≠ fn)), parts := assocErase fn s4.parts,
    mem := { s4.mem with
      tlb := s4.mem.tlb.filter (fun e => decide (e.1 / 2 ^ 52 ≠ fn)),
      locked := s4.mem.locked.filter (fun e => decide (e.1 / 2 ^ 52 ≠ fn)) } }
  let s6 := ((s5.clearBank fn 0x06).clearBank fn 0x08).setReg fn 0x05 0x07C 0#32
  (List.range 4).foldl (fun (s : State) set => s.clearBank (setBank fn set) 0x05) s6

/-- Zero one 2 MiB unit of device memory; its poison clears. -/
def State.devZeroUnit (s : State) (u : Nat) : State :=
  let out := fun (k : Nat) => decide (k < u * 4096) || decide (u * 4096 + 4096 ≤ k)
  let c := s.mem.ctl
  { s with mem := { s.mem with
      dev := cellsZero s.mem.dev (u * 2 ^ 21) (2 ^ 21), devPoison := s.mem.devPoison.filter fun e => out e.1
      ctl := { c with writeBacks := c.writeBacks.filter out, wbData := c.wbData.filter fun e => out e.1 } } }

/-- Device-memory units that a change takes from partitions: zeroed before another partition holds them (R215). -/
def State.zeroLost (s : State) (c : GlobalCfg) : State :=
  let old := s.heldParts.flatMap fun fn => (s.partCfg fn).extents.map fun e => (fn, e)
  old.foldl (fun (s : State) x =>
    let kept := match c.part x.1 with
      | some p => p.extents
      | none => []
    let units := (List.range (x.2.2 - x.2.1)).filter fun i => !(kept.any fun e => decide (e.1 ≤ x.2.1 + i) && decide (x.2.1 + i < e.2))
    units.foldl (fun (s : State) i => s.devZeroUnit (x.2.1 + i)) s) s

/-- Give a partition what its entry says: queue range, extents, floor (R637). Queues beyond the range lose their contexts (R249). -/
def State.givePart (s : State) (p : PartCfg) : State :=
  let old := assocGet ({} : Part) s.parts p.fn
  let lost := fun q => decide (p.qcount ≤ q) || p.qbase != old.qbase
  let s0 := s.endQcmds p.fn lost
  let s1 := { s0 with
    parts := assocInsert p.fn { held := true, qbase := p.qbase, gen := if old.held then old.gen else s.getF 0 Fld.DEV_GEN } s0.parts,
    queues := s0.queues.filter fun e => !(decide (e.1 / 65536 = p.fn) && lost (e.1 % 65536)) }
  let s2 := ((s1.setF p.fn Fld.DSP_QRANGE_KQ p.kq).setF p.fn Fld.DSP_QRANGE_QCOUNT p.qcount).setF p.fn Fld.RSV_FLOOR_PAGES p.floor
  (List.range 4).foldl (fun (s : State) i =>
    let w := p.ext.getD i 0
    ((s.setFlag p.fn (Fld.MMU_EXTn_BASE_VALID.plus (8 * i)) (bit w 31)).setF p.fn (Fld.MMU_EXTn_BASE_UNIT.plus (8 * i)) (bits w 13 0)).setF
      p.fn (Fld.MMU_EXTn_LIMIT_UNIT.plus (8 * i)) (bits w 29 16)) s2

/-- FIL_PART takes its new value on every file, and FIL_GEN the new generation on the files that are bound anew (R78). -/
def State.rebind (s : State) (c : GlobalCfg) : State :=
  let s1 := s.bindFiles c
  (List.range 16).foldl (fun (t : State) f =>
    if s.getReg 0 (filePage f) 0x048 = s1.getReg 0 (filePage f) 0x048 then t
    else t.setReg 0 (filePage f) 0x04C (BitVec.ofNat 32 (s.getF 0 Fld.DEV_GEN))) s1

/-- The control-owner that a change names; another one than before is cause 6, and its function is the new writer of the mailboxes
(R491, R637). -/
def State.setCtlOwner (s : State) (ctl : Option Nat) : State :=
  if ctl = s.ctlOwner then s
  else
    let s1 := s.tempoFreeze 6
    match ctl with
    | some p => ((s1.setFlag 0 Fld.DEV_CTLOWN_V true).setF 0 Fld.DEV_CTLOWN_PART p).tempoThaw
    | none => (s1.setFlag 0 Fld.DEV_CTLOWN_V false).setF 0 Fld.DEV_CTLOWN_PART 0

/-- A configuration takes effect in one tick (R637). -/
def State.applyCfg (s : State) (c : GlobalCfg) (path : Nat) : State :=
  let s1 := s.zeroLost c
  let gone := s1.heldParts.filter fun fn => (c.part fn).isNone
  let s2 := gone.foldl (fun (s : State) fn => s.releasePart fn) s1
  let s3 := c.parts.foldl (fun (s : State) p => s.givePart p) ({ s2 with arb := { s2.arb with floors := [] } }.genChange path)
  let s4 := (s3.rebind c).setCtlOwner c.ctl
  let s5 := (c.parts.map PartCfg.fn).foldl (fun (s : State) fn =>
    match s.kImages fn with
    | im :: _ => s.lockPages fn (if (s.partKFiles fn).isEmpty then [] else im.locks)
    | [] => s) s4
  (s5.showImages.loadPortions fun f => !s.fileKres f)

end Sys2Proof.Machine
end

