-- ==== Sys2Proof/Machine/Arbiter.lean ====
section
/-! DEFINITION. The Arbiter: mailboxes, ownership, hosts, sensors, the event log and MCTP (R17, R32 to R35, R630 to R643). -/

namespace Sys2Proof.Machine

/-! ## Memory of a function as the Arbiter and Castle reach it (R163, R206, R631) -/

/-- Read bytes in a function's context. -/
def State.mgrRead (s : State) (fn va n : Nat) : State × Except Status (List Byte) :=
  let r := s.drawFree.vaRead fn (.manager s.free) va n
  (r.1, match r.2 with
    | .ok b => .ok b
    | .error e => .error (readStatus e))

/-- Write bytes in a function's context. -/
def State.mgrWrite (s : State) (fn va : Nat) (data : List Byte) : State × Status :=
  let r := s.drawFree.vaWrite fn (.manager s.free) va data
  (r.1, match r.2 with
    | .ok _ => .ok
    | .error e => e.status)

/-! ## Mailboxes (R631) -/

/-- The 256 bytes of a function's request. -/
def State.mbxReq (s : State) (fn : Nat) : List Byte :=
  (List.range 64).flatMap fun i => leBytes 4 (s.getReg fn 0x01 (0x400 + 4 * i)).toNat

/-- The bytes of a response to a request. -/
def mbxRsp (req : List Byte) (st : Status) (payload : List Byte) : List Byte :=
  let b := req.take 1 ++ [0#8] ++ (req.drop 2).take 2 ++ leBytes 2 payload.length ++ leBytes 2 st.code ++
    List.replicate 8 0#8 ++ payload
  b ++ List.replicate (256 - b.length) 0#8

/-- A mailbox request completes: ARB_MBX_RSP is written, then DONE is set and IRQ MBX_DONE raised (R631). -/
def State.mbxDone (s : State) (fn : Nat) (st : Status) (payload : List Byte) : State :=
  let b := mbxRsp (s.mbxReq fn) st payload
  let s1 := (List.range 64).foldl (fun (s : State) i =>
    s.setReg fn 0x01 (0x500 + 4 * i) (BitVec.ofNat 32 (leField b (4 * i) 4))) s
  let s2 := { s1 with arb := { s1.arb with mbx := s1.arb.mbx.filter fun f => f != fn } }
  (s2.finishCmd fn Fld.ARB_MBX_STS_STATUS st).raiseIrq 0x01 fn 0

/-- ARB_MBX_GO (R630, R631, R681). -/
def execArbMbxGo (fn v : Nat) (s : State) : Out :=
  .next (s.gated fn 0x01 0x040 (
    if s.arb.restarting ∨ !s.cmdDone fn Fld.ARB_MBX_STS_STATUS then s
    else if resvHit 0x01 0x040 v then (s.finishCmd fn Fld.ARB_MBX_STS_STATUS .arbMalformed).raiseIrq 0x01 fn 0
    else if !bit v 0 then s
    else { s.startCmd fn Fld.ARB_MBX_STS_STATUS with arb := { s.arb with mbx := s.arb.mbx ++ [fn] } }))

/-- Argument bytes of a request (R631). -/
def mbxLen : Nat → Option Nat
  | 1 => some 4
  | 2 => some 0
  | 3 => some 8
  | 4 => some 8
  | 5 => some 0
  | 6 => some 16
  | _ => none

/-- Whether a request is malformed: its OPC, its LEN or a reserved field (R631). -/
def mbxBad (req : List Byte) : Bool :=
  mbxLen (leField req 0 1) != some (leField req 4 2) || leField req 1 1 != 0 || leField req 6 2 != 0 || leField req 8 8 != 0

/-- The Arbiter serves the request at the head of the order, where it is that function's and has the named OPC; a request with an
unknown OPC is served by any of these. -/
def State.serveMbx (s : State) (fn opc : Nat) (ownerOnly : Bool) (f : State → List Byte → State) : State :=
  let req := s.mbxReq fn
  let o := leField req 0 1
  let begun : Bool := match s.arb.cfg with
    | some c => c.2 == fn
    | none => false
  if s.arb.mbx.head? ≠ some fn ∨ s.arb.restarting ∨ begun then s
  else if (mbxLen o).isNone then s.mbxDone fn .arbMalformed []
  else if o ≠ opc then s
  else if ownerOnly && !s.isOwner fn then s.mbxDone fn .owned []
  else if mbxBad req then s.mbxDone fn .arbMalformed []
  else f s ((req.drop 16).take (leField req 4 2))

/-! ## HELLO (R632) -/

/-- Bytes of DEV_IFVER. -/
def State.ifver (s : State) : List Byte := leBytes 4 (s.getReg 0 0x00 0x114).toNat

/-- Whether a major is accepted: MAJMASK of DEV_IFVER. -/
def State.majorOk (s : State) (m : Nat) : Bool := bit (s.getF 0 Fld.DEV_IFVER_MAJMASK) m

/-- HELLO: the function takes up a driver interface, or is UNSUPPORTED until it does. -/
def execHello (fn : Nat) (s : State) : Out :=
  .next (s.serveMbx fn 1 false fun s a =>
    let m := leField a 0 2
    if s.majorOk m then ({ s with hello := assocInsert fn m s.hello }).mbxDone fn .ok s.ifver
    else ({ s with hello := assocErase fn s.hello }).mbxDone fn .versionUnsupported s.ifver)

/-! ## Ownership (R633, R634) -/

/-- An OWNER event: logged with the function and HOSTTAG, and raised on every function. -/
def State.ownerEvent (s : State) (fn : Nat) : State :=
  (s.logEvent 0 0x01 0xFF 1 0 (fn :: s.arb.hostTag.map BitVec.toNat)).arbIrqAll 2

/-- A function becomes owner. -/
def State.makeOwner (s : State) (fn : Nat) : State :=
  ((s.setF 0 Fld.DEV_OWN_STATE 1).setF 0 Fld.DEV_OWN_FUNC fn).ownerEvent fn

/-- The Arbiter's decision on a CLAIM with its 64 bytes of ARG (R633, R634). -/
def State.claimOwner (s : State) (fn : Nat) (arg : List Byte) : State × Status :=
  let take := bit (leField arg 0 4) 0
  let own := s.getF 0 Fld.DEV_OWN_FUNC
  let tagged := { s with arb := { s.arb with hostTag := (arg.drop 8).take 16 } }
  match s.getF 0 Fld.DEV_OWN_STATE with
  | 0 => (tagged.makeOwner fn, .ok)
  | 1 => (s, if own = fn then .ok else .owned)
  | _ =>
    if !take then (s, .owned)
    else if leField arg 4 4 ≠ s.getF 0 Fld.DEV_GEN then (s, .genStale)
    else ({ tagged with arb := { tagged.arb with taken := some (s.ticks, fn, own) } }.makeOwner fn, .ok)

/-- RELEASE: the configuration is kept (R634). -/
def execReleaseOwn (fn : Nat) (s : State) : Out :=
  .next (s.serveMbx fn 2 true fun s _ =>
    ((((s.setF 0 Fld.DEV_OWN_STATE 0).setF 0 Fld.DEV_OWN_FUNC 0).ownerEvent fn).mbxDone fn .ok []))

/-! ## Global configuration (R636, R637) -/

/-- Read a configuration block: its header, then the entries that NPART counts. -/
def State.readBlock (s : State) (fn va : Nat) : State × Except Status (List Byte) :=
  match s.mgrRead fn va 64 with
  | (s1, .error e) => (s1, .error e)
  | (s1, .ok h) =>
    let n := Nat.min (leField h 6 1) 64
    if n = 0 then (s1, .ok h)
    else match s1.mgrRead fn (va + 64) (64 * n) with
      | (s2, .error e) => (s2, .error e)
      | (s2, .ok b) => (s2, .ok (h ++ b))

/-- CONFIG_WRITE: the block is checked once no change is under way, and a change that passes quiesces what it removes. -/
def execConfigWrite (fn : Nat) (s : State) : Out :=
  .next (if s.arb.cfg.isSome then s
    else s.serveMbx fn 3 true fun s a =>
      let va := leField a 0 8
      if va % 64 ≠ 0 then s.mbxDone fn .arbMalformed []
      else match s.readBlock fn va with
        | (s1, .error e) => s1.mbxDone fn e []
        | (s1, .ok b) => match s1.cfgFault b with
          | some e => s1.mbxDone fn e []
          | none => s1.beginCfg b fn 0)

/-- Host state of a port in DEV_HOSTS. -/
def State.hostSt (s : State) (p : Nat) : Nat := bits (s.getReg 0 0x00 0x10C).toNat (4 * p + 3) (4 * p)

/-- Set it. -/
def State.setHostSt (s : State) (p v : Nat) : State := s.setF 0 ⟨0x00, 0x10C, 4 * p + 3, 4 * p⟩ v

/-- A HOST event: DATA holds the port and the event (R639). -/
def State.hostEvent (s : State) (p ev : Nat) : State := s.logEvent 1 0x01 0xFF 3 0 [p, ev]

/-- CONFIG_TAKE_EFFECT: what the change removes is quiet, so it takes effect, and its CONFIG_WRITE completes (R33, R637). -/
def execConfigTakeEffect (s : State) : Out :=
  .next (match s.arb.cfg with
    | none => s
    | some (b, who) =>
      let c := parseCfg b
      if !s.cfgQuiet c then s
      else
        let s1 := ({ s with arb := { s.arb with cfg := none } }).applyCfg c s.arb.path
        if who < 64 ∧ s1.arb.mbx.head? = some who then s1.mbxDone who .ok []
        else if s.arb.path = 3 then s1.hostEvent (who - 64) 3
        else s1)

/-- CONFIG_READ: the block in force; a function that is not the owner's gets its own entry (R637). -/
def execConfigRead (fn : Nat) (s : State) : Out :=
  .next (s.serveMbx fn 4 false fun s a =>
    let va := leField a 0 8
    let c := s.cfgInForce
    let c' := if s.isOwner fn then c else { c with parts := c.parts.filter fun p => p.fn == fn }
    if va % 64 ≠ 0 then s.mbxDone fn .arbMalformed []
    else
      let r := s.mgrWrite fn va (cfgBytes c')
      r.1.mbxDone fn r.2 [])

/-! ## Sensors (R638) -/

/-- Sensors that a scan reads: TJ 32, VMON 16, VIN, IIN, RAIL 24, MEMT 8 and PLATE. -/
def scanLen : Nat := 83

/-- The last complete scan; before the first one, free values. -/
def State.lastScan (s : State) : List Nat :=
  if s.arb.scan.length = scanLen then s.arb.scan
  else (List.range scanLen).map fun i => (Config.free (s.free + i) 16).toNat

/-- The snapshot of 136 bytes. -/
def State.sensorBytes (s : State) : List Byte :=
  let v := s.lastScan
  leBytes 8 s.arb.scanTime ++ (v.take 32).flatMap (leBytes 1) ++ ((v.drop 32).take 42).flatMap (leBytes 2) ++
    ((v.drop 74).take 9).flatMap (leBytes 1) ++ List.replicate 3 0#8

/-- Free values that a snapshot has drawn. -/
def State.drawScan (s : State) : State := if s.arb.scan.length = scanLen then s else { s with free := s.free + scanLen }

/-- SENSORS. -/
def execSensors (fn : Nat) (s : State) : Out :=
  .next (s.serveMbx fn 5 false fun s _ => s.drawScan.mbxDone fn .ok s.sensorBytes)

/-- Whether a plate temperature lies in the range of the part number (R1). -/
def plateOk (t : Int) : Bool :=
  if Config.industrial then decide (-40 ≤ t) && decide (t ≤ 85) else decide (-20 ≤ t) && decide (t ≤ 70)

/-- Hottest sensor and its reading: the lowest-numbered of those that share it (R570). -/
def hottest (tj : List Nat) : Nat × Nat :=
  tj.zipIdx.foldl (fun (b : Nat × Nat) e => if toSigned 8 b.2 < toSigned 8 e.1 then (e.2, e.1) else b) (0, tj.getD 0 0)

/-- ARB_SENSOR_SCAN: the scan is complete; a plate excursion is logged, and again each minute (R638). -/
def execArbSensorScan (vals : List Nat) (s : State) : Out :=
  .next (if vals.length ≠ scanLen ∨ s.arb.restarting ∨ s.getF 0 Fld.PWR_STATE_STATE = 2 then s
    else
      let h := hottest ((vals.take 32).map fun v => v % 256)
      let s1 := ({ s with arb := { s.arb with scan := vals, scanTime := s.now } }).setTj h.1 h.2
      let s2 := s1.setF 0 Fld.PWR_IN_MV (vals.getD 48 0 % 65536)
      let t := toSigned 8 (vals.getD 82 0 % 256)
      if plateOk t then { s2 with arb := { s2.arb with plateAt := none } }
      else
        let due := match s2.arb.plateAt with
          | none => true
          | some k => decide (k + 15000000000 ≤ s2.ticks)
        if due then ({ s2 with arb := { s2.arb with plateAt := some s2.ticks } }).logEvent 1 0x01 0xFF 8 0 [vals.getD 82 0 % 256]
        else s2)

/-! ## The event log (R639 to R641) -/

/-- The 64 bytes of an event; how DATA lays out what KIND gives is not stated (log entry 17). -/
def eventBytes (e : Event) : List Byte :=
  leBytes 4 e.seq ++ leBytes 1 e.sev ++ leBytes 1 e.page ++ leBytes 1 e.part ++ leBytes 1 e.kind ++ leBytes 2 e.code ++
    List.replicate 6 0#8 ++ leBytes 8 e.time ++ leBytes 4 e.gen ++ (List.range 36).map (Config.eventByte e.kind e.data)

/-- The entries that LOG_READ gives: in SEQ order from the first one held at or after `first`, those that `may` allows. -/
def State.logFrom (s : State) (flash : Bool) (first count : Nat) (may : Event → Bool) : List Event :=
  let l := (if flash then s.arb.flash else s.arb.log).reverse
  (l.filter fun e => decide ((e.seq + 2 ^ 32 - first) % 2 ^ 32 < 2 ^ 31) && may e).take count

/-- Whether the arguments of LOG_READ after the VA are in order. -/
def logArgsOk (a : List Byte) : Bool :=
  decide (1 ≤ leField a 12 2) && decide (leField a 12 2 ≤ 4096) && leField a 14 2 / 2 == 0

/-- LOG_READ (R641). -/
def execLogRead (fn : Nat) (s : State) : Out :=
  .next (s.serveMbx fn 6 false fun s a =>
    if !logArgsOk a then s.mbxDone fn .arbMalformed []
    else
      let own := s.isOwner fn
      let l := s.logFrom (bit (leField a 14 2) 0) (leField a 8 4) (leField a 12 2) fun e => own || e.part == fn || e.part == 0xFF
      if l.isEmpty then s.mbxDone fn .ok (leBytes 4 0)
      else
        let r := s.mgrWrite fn (leField a 0 8) (l.flatMap eventBytes)
        if r.2 = .ok then r.1.mbxDone fn .ok (leBytes 4 l.length) else r.1.mbxDone fn r.2 [])

/-! ## MCTP (R642) -/

/-- Major and minor versions, and message types, in control messages of DSP0236 (log entry 35). -/
def mctpControl (s : State) (msg : List Byte) : State × List Byte :=
  let cmd := leField msg 2 1
  let head := [0#8, BitVec.ofNat 8 (leField msg 1 1 % 32), BitVec.ofNat 8 cmd]
  match cmd with
  | 1 =>
    let e := leField msg 4 1
    if e = 0 ∨ e = 0xFF then (s, head ++ [2#8])
    else ({ s with arb := { s.arb with eid := e } }, head ++ [0#8, 0#8, BitVec.ofNat 8 e, 0#8])
  | 2 => (s, head ++ [0#8, BitVec.ofNat 8 s.arb.eid, 0#8, 0#8])
  | 4 => (s, head ++ [0#8, 1#8, 0xF1#8, 0xF3#8, 0xF1#8, 0#8])
  | 5 => (s, head ++ [0#8, 2#8, 0#8, 0x7E#8])
  | _ => (s, head ++ [5#8])

/-- The answer to a vendor-defined message, a mailbox request: HELLO, SENSORS and LOG_READ only, the latter inline. -/
def State.mctpVendor (s : State) (req : List Byte) : State × List Byte :=
  let a := (req.drop 16).take (leField req 4 2)
  let rsp := fun (st : Status) (p : List Byte) => (mbxRsp req st p).take (16 + p.length)
  match leField req 0 1 with
  | 1 => if mbxBad req then (s, rsp .arbMalformed [])
    else (s, rsp (if s.majorOk (leField a 0 2) then .ok else .versionUnsupported) s.ifver)
  | 5 => if mbxBad req then (s, rsp .arbMalformed []) else (s.drawScan, rsp .ok s.sensorBytes)
  | 6 =>
    if mbxBad req || !logArgsOk a then (s, rsp .arbMalformed [])
    else
      let l := s.logFrom (bit (leField a 14 2) 0) (leField a 8 4) (Nat.min 3 (leField a 12 2)) fun e => e.part == 0xFF
      (s, rsp .ok (leBytes 4 l.length ++ l.flatMap eventBytes))
  | o => if (mbxLen o).isSome then (s, rsp .owned []) else (s, rsp .arbMalformed [])

/-- MCTP_MESSAGE: the bytes of a message from its type on. The port serves in Active and Hold while EN is set and no restart runs. -/
def execMctpMessage (msg : List Byte) (s : State) : Out :=
  .next (if !s.flag 0 Fld.ARB_SMB_CFG_EN || s.arb.restarting || s.getF 0 Fld.PWR_STATE_STATE == 2 || !s.serves 0x01 then s
    else match leField msg 0 1 % 128 with
      | 0 =>
        let r := mctpControl s msg
        { r.1 with arb := { r.1.arb with mctp := r.2 } }
      | 0x7E =>
        let vid := leField msg 1 1 * 256 + leField msg 2 1
        if vid ≠ Config.vendorId % 65536 then s
        else
          let r := s.mctpVendor (msg.drop 3)
          { r.1 with arb := { r.1.arb with mctp := msg.take 3 ++ r.2 } }
      | _ => s)

/-! ## Hosts (R634, R635) -/

/-- Ports under the bifurcation. -/
def State.portCount (s : State) : Nat := s.fnCount / 16

/-- A port's link as the Arbiter follows it. -/
def State.port (s : State) (p : Nat) : PortSt := assocGet {} s.arb.ports p

/-- Replace it. -/
def State.setPort (s : State) (p : Nat) (x : PortSt) : State := { s with arb := { s.arb with ports := assocSet {} s.arb.ports p x } }

/-- Whether DEV_HOSTS follows the link: from READY on. -/
def State.hostsShown (s : State) : Bool := s.getF 0 Fld.DEV_BOOT_STAGE == 7

/-- PCIE_LINK_DOWN: the link is below L0 and L1. -/
def execPcieLinkDown (port : Nat) (s : State) : Out :=
  let s0 := (s.setF 0 (Fld.PCI_PORTn_WIDTH.plus (4 * port)) 0).setF 0 (Fld.PCI_PORTn_SPEED.plus (4 * port)) 0
  .next (if s.portCount ≤ port then s
    else if !s.hostsShown || s.hostSt port != 0 then s0
    else (((s0.setPort port { s0.port port with downAt := some s0.ticks }).setHostSt port 1)).hostEvent port 0)

/-- A takeover falls back when the former owner's link comes up in the tick in which it was accepted (R13, R634). -/
def State.linkWins (s : State) (port : Nat) : State :=
  match s.arb.taken with
  | some (t, fn, old) =>
    if t = s.ticks ∧ old / 16 = port ∧ s.isOwner fn then
      (({ s with arb := { s.arb with taken := none } }).finishCmd fn Fld.CSL_CMD_STS_STATUS .owned).makeOwner old
    else s
  | none => s

/-- PCIE_LINK_UP: the host is UP, and a lapsed owner of the port owns again (R634). A port that reaches no more than 5.0 GT/s stays in
training and reports SPEED 1 or 2 (R219). VF Enable is set in configuration space, for which the table has no command: the number that
the host enables is taken as the link comes up (R256; log entry 62). -/
def execPcieLinkUp (port speed lanes : Nat) (s : State) : Out :=
  .next (if s.portCount ≤ port then s
    else
      let s0 := (s.setF 0 (Fld.PCI_PORTn_SPEED.plus (4 * port)) speed).setF 0 (Fld.PCI_PORTn_WIDTH.plus (4 * port))
        (if speed < 3 then 0 else lanes)
      if speed < 3 ∨ 5 < speed then s0
      else
      let s0 := s0.setF 0 (Fld.PCI_PORTn_VFS.plus (4 * port)) (Config.numVfs port s.ticks % 16)
      if !s.hostsShown then s0
      else
        let s1 := s0.setPort port { downAt := none, seenUp := true, lostAt := none }
        let s2 := if s.hostSt port = 0 then s1 else (s1.setHostSt port 0).hostEvent port 2
        let own := s2.getF 0 Fld.DEV_OWN_FUNC
        if s2.getF 0 Fld.DEV_OWN_STATE = 2 ∧ own / 16 = port then (s2.setF 0 Fld.DEV_OWN_STATE 1).ownerEvent own
        else s2.linkWins port)

/-- Whether a host has been down for 1 s, or, where its link has not been up since READY, 30 s have passed since READY. -/
def State.hostDue (s : State) (p : Nat) : Bool :=
  match (s.port p).downAt with
  | none => false
  | some t => if (s.port p).seenUp then decide (t + 250000000 ≤ s.ticks) else decide (s.arb.readyAt + 7500000000 ≤ s.ticks)

/-- HOST_LOST: the partitions of the port are quiesced, and its owner lapses (R634, R635). -/
def execHostLost (port : Nat) (s : State) : Out :=
  .next (if s.hostSt port ≠ 1 ∨ !s.hostDue port then s
    else
      let s1 := ((s.setHostSt port 2).setPort port { s.port port with lostAt := some s.ticks }).hostEvent port 1
      let fns := s1.heldParts.filter fun fn => fn / 16 == port
      let s2 := fns.foldl (fun (s : State) fn => s.quiesceQueues fn false) s1
      let s3 := if fns.any (fun fn => s2.isCtlOwner fn) then s2.tempoFreeze 6 else s2
      let own := s3.getF 0 Fld.DEV_OWN_FUNC
      if s3.getF 0 Fld.DEV_OWN_STATE = 1 ∧ own / 16 = port then (s3.setF 0 Fld.DEV_OWN_STATE 2).ownerEvent own else s3)

/-- The configuration in force without a port's partitions. -/
def State.cfgWithout (s : State) (port : Nat) : GlobalCfg :=
  let c := s.cfgInForce
  { c with
    ctl := match c.ctl with
      | some p => if p / 16 = port then none else some p
      | none => none
    parts := c.parts.filter fun p => p.fn / 16 != port }

/-- GRACE_EXPIRY: the tick in which the grace ends is over, so that no link can prevent it any more, and the Arbiter frees the partitions
of a lost host (R635). -/
def execGraceExpiry (port : Nat) (s : State) : Out :=
  .next (match (s.port port).lostAt with
    | none => s
    | some t =>
      if s.hostSt port ≠ 2 ∨ s.arb.cfg.isSome ∨ s.arb.restarting ∨ s.ticks ≤ t + s.getF 0 Fld.DEV_GRACE_S * 250000000 ∨
          !(s.heldParts.any fun fn => fn / 16 == port) then s
      else s.beginCfg (cfgBytes (s.cfgWithout port)) (64 + port) 3)

end Sys2Proof.Machine
end

