-- ==== Sys2Proof/Machine/Castle.lean ====
section
/-! DEFINITION. Castle: keys, challenges and tokens, the image set, update and recovery, attestation, debug and lockdown (chapter 19). -/

namespace Sys2Proof.Machine

/-! ## Helpers -/

/-- Bytes of an ASCII context (R603). -/
def ctxBytes (t : String) : List Byte := t.toList.map fun c => BitVec.ofNat 8 c.toNat

/-- The signing contexts of R603. -/
def ctxImg : List Byte := ctxBytes "KYF-IMG-1"
def ctxTok : List Byte := ctxBytes "KYF-TOK-1"
def ctxAtt : List Byte := ctxBytes "KYF-ATT-1"
def ctxSign : List Byte := ctxBytes "KYF-SIGN-1"

/-- Whether every byte of a range is 0. -/
def zeroRange (b : List Byte) (at_ n : Nat) : Bool := ((b.drop at_).take n).all fun x => x == 0#8

/-- A signature block by a private key under a KEYSLOT (R603). -/
def signBlock (slot key : Nat) (ctx msg : List Byte) : List Byte :=
  leBytes 1 slot ++ List.replicate 13 0#8 ++ (List.range 114).map (Config.ed448Sign key ctx msg)

/-- Raise an interrupt bit of page 0x02 for the owner (R629). -/
def State.cslIrq (s : State) (i : Nat) : State :=
  match s.ownerFn with
  | some p => s.raiseIrq 0x02 p i
  | none => s

/-- A CASTLE event: debug 0, update 1, fuse 2 (R639). -/
def State.cslEvent (s : State) (what : Nat) : State := s.logEvent 0 0x02 0xFF 9 0 [what]

/-- A Castle command completes for the function that issued it (R628, R629). -/
def State.cslDone (s : State) (fn : Nat) (st : Status) : State := (s.finishCmd fn Fld.CSL_CMD_STS_STATUS st).raiseIrq 0x02 fn 0

/-- UNITID (R599). -/
def State.unitId (s : State) : List Byte := (List.range 4).flatMap fun i => leBytes 4 (s.getF 0 (Fld.CSL_UNITIDn.plus (4 * i)))

/-! ## Slots, keys and policy (R600 to R602) -/

/-- Whether an owner slot is ACTIVE, is REVOKED, and its USE. -/
def State.slotActive (s : State) (i : Nat) : Bool := bit (s.getF 0 Fld.CSL_OWNER_ACTIVE) i
def State.slotRevoked (s : State) (i : Nat) : Bool := bit (s.getF 0 Fld.CSL_OWNER_REVOKED) i
def State.slotImage (s : State) (i : Nat) : Bool := bit (s.getF 0 Fld.CSL_OWNER_USE) (4 * i)
def State.slotAuth (s : State) (i : Nat) : Bool := bit (s.getF 0 Fld.CSL_OWNER_USE) (4 * i + 1)

/-- Whether no slot is ACTIVE. -/
def State.openSlots (s : State) : Bool := s.getF 0 Fld.CSL_OWNER_ACTIVE == 0

/-- Whether an owner slot is ACTIVE with AUTH. -/
def State.authSlot (s : State) (i : Nat) : Bool := decide (i < 4) && s.slotActive i && s.slotAuth i

/-- Public key of an owner slot, and of a Nirkevel key. -/
def State.slotPub (s : State) (i : Nat) : List Byte :=
  match s.csl.keys.find? fun e => e.1 == i with
  | some e => e.2
  | none => (List.range 57).map (Config.slotKey i)
def nirkevelPub (i : Nat) : List Byte := (List.range 57).map (Config.nirkevelKey i)

/-- Whether a KEYSLOT is a Nirkevel key that is not revoked. -/
def State.nirkevelOk (s : State) (slot : Nat) : Bool :=
  decide (0x10 ≤ slot) && decide (slot ≤ 0x13) && !Config.nirkevelRevoked slot && !s.csl.nkRevoked.contains slot

/-- A policy fuse. -/
def State.policy (s : State) (i : Nat) : Bool := bit (s.getF 0 Fld.CSL_POLICY) i

/-- A fuse operation is complete (R601, R629). -/
def State.fused (s : State) : State := (s.cslIrq 2).cslEvent 2

/-- Whether Vendor-RMA has ever been entered: the RMA fuse. -/
def State.rmaEver (s : State) : Bool := Config.rmaFuse || s.csl.rma

/-- The certified configuration (R625). -/
def State.certified (s : State) : Bool :=
  s.policy 0 && s.policy 1 && s.policy 3 && (List.range 4).any (fun i => s.slotActive i && s.slotImage i) &&
    (List.range 4).any s.authSlot && !s.rmaEver && !s.flag 0 Fld.CSL_STS_TRNGFAIL

/-! ## The image set (R608 to R611) -/

/-- Entry `i` of a manifest. -/
def manEntry (m : List Byte) (i : Nat) : List Byte := (m.drop (64 + 96 * i)).take 96

/-- Entries of a manifest. -/
def setEntries (m : List Byte) : List (List Byte) := (List.range (leField m 6 2)).map (manEntry m)

/-- Manifest fields. -/
def setSvn (m : List Byte) : Nat := leField m 8 1
def setBytes (m : List Byte) : Nat := leField m 12 4

/-- Whether an entry is laid out as R609 gives. -/
def setEntryOk (m e : List Byte) : Bool :=
  let ty := leField e 0 2
  let off := leField e 4 4
  let len := leField e 8 4
  decide (1 ≤ ty) && decide (ty ≤ 7) && (ty != 5 || decide (leField e 2 1 ≤ 4)) && leField e 3 1 == 0 && zeroRange e 16 16 &&
    off % 4096 == 0 && decide (4096 ≤ off) && decide (1 ≤ len) && decide (off + len ≤ setBytes m) &&
    (ty != 1 || decide (len ≤ 262144)) && (ty != 7 || decide (len ≤ 65536))

/-- Whether a manifest holds R608 and R609. -/
def manifestOk (m : List Byte) : Bool :=
  let n := leField m 6 2
  let es := setEntries m
  let keys := es.map fun e => (leField e 0 2, leField e 2 1)
  decide (4096 ≤ m.length) && leField m 0 4 == 0x5349594B && leField m 4 2 == 1 && decide (1 ≤ n) && decide (n ≤ 32) &&
    decide (setSvn m ≤ 64) && decide (leField m 9 1 < 2) && leField m 11 1 == 0 && setBytes m % 4096 == 0 &&
    decide (4096 ≤ setBytes m) && decide (setBytes m ≤ 2 ^ 24) && (leField m 9 1 == 1 || zeroRange m 16 16) && zeroRange m 36 28 &&
    zeroRange m (64 + 96 * n) (96 * (32 - n)) && zeroRange m 3137 13 && zeroRange m 3265 13 && zeroRange m 3392 704 &&
    es.all (setEntryOk m) && keys.eraseDups == keys && (keys.head?.map Prod.fst) == some 1 &&
    ([2, 3, 4, 6].all fun t => keys.any fun k => k.1 == t) && ((List.range 5).all fun i => keys.contains (5, i)) &&
    spansApart (es.map fun e => (leField e 4 4, leField e 8 4))

/-- The checks of R610 before the digests, in their order. -/
def State.manifestFault (s : State) (m : List Byte) : Option Status :=
  let nslot := leField m 3136 1
  let oslot := leField m 3264 1
  let nkey := nirkevelPub nslot
  let need := s.policy 0 || (setEntries m).any fun e => leField e 0 2 == 7
  let osig := need || !zeroRange m 3264 128
  if !manifestOk m then some .cslMalformed
  else if leField m 10 1 ≠ 0x10 ∨ (leField m 9 1 = 1 ∧ (m.drop 16).take 16 ≠ s.unitId) then some .unitMismatch
  else if !s.nirkevelOk nslot then some .keyInvalid
  else if !Config.ed448Verify nkey ctxImg (m.take 3136) ((m.drop 3150).take 114) then some .signatureInvalid
  else if osig && !(decide (oslot < 4) && s.slotActive oslot && s.slotImage oslot) then some .keyInvalid
  else if osig && !Config.ed448Verify (s.slotPub oslot) ctxImg (m.take 3264) ((m.drop 3278).take 114) then some .signatureInvalid
  else if setSvn m < s.getF 0 Fld.CSL_ARB_N then some .rollbackRefused
  else none

/-- Bytes of the image of an entry. -/
def imageOf (set e : List Byte) : List Byte := (set.drop (leField e 4 4)).take (leField e 8 4)

/-- SHAKE256 with 64-byte output. -/
def digest64 (b : List Byte) : List Byte := (Config.shake256 b).take 64

/-- Whether the digest of an entry matches its image. -/
def entryDigestOk (set e : List Byte) : Bool := digest64 (imageOf set e) == (e.drop 32).take 64

/-- Why a set is refused, if it is (R610). -/
def State.setFault (s : State) (set : List Byte) : Option Status :=
  match s.manifestFault (set.take 4096) with
  | some st => some st
  | none =>
    if (decide (setBytes set ≤ set.length)) && (setEntries set).all (entryDigestOk set) then none else some .digestMismatch

/-- The set in flash. -/
def State.flashSet (s : State) : List Byte := s.csl.flash.getD Config.shippedSet

/-- ARBCOMMIT: N rises to the lower of the running SVN and the SVN in flash (R612). -/
def State.arbCommit (s : State) : State :=
  let n := Nat.min (s.getF 0 Fld.CSL_ARB_SVN) (setSvn s.flashSet)
  if n ≤ s.getF 0 Fld.CSL_ARB_N then s else (s.setF 0 Fld.CSL_ARB_N n).fused

/-! ## Challenges (R597, R604, R607) -/

/-- CHALLENGE. -/
def State.cslChallenge (s : State) (fn : Nat) : State × Status :=
  if s.flag 0 Fld.CSL_STS_BACKOFF then (s, .backoff)
  else if s.flag 0 Fld.CSL_STS_TRNGFAIL then (s, .trngFailed)
  else
    let s1 := (List.range 8).foldl (fun (s : State) i =>
      (s.setF fn (Fld.CSL_CHALn.plus (4 * i)) (Config.free s.free 32).toNat).drawFree) s
    ({ s1 with csl := { s1.csl with chal := assocInsert fn s1.ticks s1.csl.chal } }, .ok)

/-- The function's outstanding challenge, if it has not lapsed. -/
def State.challengeOf (s : State) (fn : Nat) : Option (List Byte) :=
  match s.csl.chal.find? fun e => e.1 == fn with
  | some e =>
    if s.ticks ≤ e.2 + 15000000000 then
      some ((List.range 8).flatMap fun i => leBytes 4 (s.getF fn (Fld.CSL_CHALn.plus (4 * i))))
    else none
  | none => none

/-- A challenge is used up or lapses. -/
def State.useChallenge (s : State) (fn : Nat) : State :=
  { s with csl := { s.csl with chal := assocErase fn s.csl.chal } }

/-- Every challenge lapses. -/
def State.lapseAll (s : State) : State := { s with csl := { s.csl with chal := [] } }

/-- A SIGNATURE_INVALID result: the fifth within 60 s starts the back-off (R607). -/
def State.badSignature (s : State) : State :=
  let l := s.ticks :: s.csl.badSigs.filter fun t => decide (s.ticks < t + 15000000000)
  if l.length < 5 then { s with csl := { s.csl with badSigs := l } }
  else (({ s with csl := { s.csl with badSigs := [], backoffAt := some s.ticks } }).setFlag 0 Fld.CSL_STS_BACKOFF true).cslIrq 1

/-! ## Debug sessions (R617, R619 to R622) -/

/-- DBG: 0 Locked, 1 Owner-Debug, 2 Vendor-RMA. -/
def State.dbg (s : State) : Nat := s.getF 0 Fld.CSL_STS_DBG

/-- A session opens to SCOPE for DURATION. -/
def State.openSession (s : State) (st scope secs : Nat) (token : List Byte) : State :=
  let c := { s.csl with
    session := true, ends := s.now + secs * 1000000000, token := digest64 token, opened := s.ticks, hist := 1 }
  ((((({ s with csl := c }).setF 0 Fld.CSL_STS_DBG st).setF 0 Fld.CSL_DBG_SCOPE scope).setF 0 Fld.CSL_DBG_LEFT secs).cslIrq 4).cslEvent 0

/-- A session ends: Owner-Debug returns to Locked, and Vendor-RMA remains. -/
def State.closeSession (s : State) : State :=
  if !s.csl.session then s
  else
    let s1 := { s with csl := { s.csl with session := false } }
    ((((s1.setF 0 Fld.CSL_STS_DBG (if s.dbg = 2 then 2 else 0)).setF 0 Fld.CSL_DBG_SCOPE 0).setF 0 Fld.CSL_DBG_LEFT 0).cslIrq 4).cslEvent 0

/-- Seconds of DURATION that remain, a started one counted (R619). -/
def State.secsLeft (s : State) : Nat := if s.csl.session then cdiv (s.csl.ends - s.now) 1000000000 else 0

/-- Vendor-RMA: owner entries zeroised, every slot revoked, the RMA fuse blown, then the port opened (R619). -/
def State.enterRma (s : State) (scope secs : Nat) (token : List Byte) : State :=
  let s1 := { s with csl := { s.csl with entries := [], wiped := true } }
  let s2 := (s1.setF 0 Fld.CSL_OWNER_REVOKED 0xF).setF 0 Fld.CSL_OWNER_ACTIVE 0
  let s3 := if s2.rmaEver then s2 else ({ s2 with csl := { s2.csl with rma := true } }).fused
  s3.openSession 2 scope secs token

/-- Whether the device's power state or mode refuses every token: a Sleep or Off entry, an exit, BIST or REPLAY (R622). -/
def State.tokensRefused (s : State) : Bool :=
  (s.flag 0 Fld.PWR_STATE_BUSY && s.getF 0 Fld.PWR_STATE_TARGET != 1) || s.getF 0 Fld.DEV_MODE_MODE == 2 ||
    s.getF 0 Fld.DEV_MODE_MODE == 3

/-! ## Tokens (R605 to R607) -/

/-- Whether a token's ARG is malformed for its purpose: reserved bytes, and fields out of range (R602, R606, R620, R633). -/
def argBad (t : List Byte) (purpose : Nat) : Bool :=
  match purpose with
  | 1 => decide (32 ≤ leField t 64 4) || leField t 68 4 == 0 || decide (86400 < leField t 68 4) || !zeroRange t 72 56
  | 2 => decide (2 ≤ leField t 64 4) || (leField t 64 4 == 0 && leField t 68 4 != 0) || !zeroRange t 88 40
  | 3 => decide (64 ≤ leField t 64 4) || leField t 68 4 == 0 || decide (86400 < leField t 68 4) || !zeroRange t 72 56
  | 4 => decide (4 ≤ leField t 121 1) || decide (4 ≤ leField t 122 1) || !zeroRange t 123 5
  | 5 => decide (4 ≤ leField t 64 1) || !zeroRange t 65 63
  | 6 => decide (32 ≤ leField t 64 4) || !zeroRange t 68 60
  | _ => true

/-- Check 1 of R607. -/
def tokenBad (t : List Byte) : Bool :=
  leField t 0 4 != 0x4B54594B || leField t 4 2 != 1 || argBad t (leField t 6 1) || !zeroRange t 56 8 || !zeroRange t 129 13

/-- Check 4 of R607: whether the KEYSLOT may sign for the purpose. -/
def State.tokenKeyOk (s : State) (fn : Nat) (t : List Byte) : Bool :=
  let slot := leField t 7 1
  let unsigned := slot == 0xFE && leField t 6 1 == 2
  (unsigned || leField t 128 1 == slot) &&
    (match leField t 6 1 with
    | 2 => s.authSlot slot || (slot == 0xFE && s.openSlots)
    | 3 => s.nirkevelOk slot
    | 4 => s.authSlot slot || (slot == 0xFE && s.openSlots && s.isOwner fn)
    | _ => s.authSlot slot)

/-- Check 5 of R607. -/
def State.tokenSigOk (s : State) (t : List Byte) : Bool :=
  let slot := leField t 7 1
  let sig := (t.drop 142).take 114
  if slot = 0xFE ∧ leField t 6 1 = 2 then zeroRange t 128 128
  else
    let key := if slot = 0xFE then (t.drop 64).take 57 else if slot < 4 then s.slotPub slot else nirkevelPub slot
    Config.ed448Verify key ctxTok (t.take 128) sig

/-- Check 6 of R607: whether the state forbids the purpose (R619, R622). -/
def State.tokenForbidden (s : State) (t : List Byte) : Bool :=
  s.tokensRefused ||
    (match leField t 6 1 with
    | 1 => s.dbg != 0 || s.policy 4
    | 3 => s.dbg == 1 || s.policy 1 || (s.dbg == 0 && s.anyLoopActive)
    | _ => false)

/-- ENROL: the slot is neither ACTIVE nor REVOKED, and USE is not 0 (R601). -/
def State.enrol (s : State) (t : List Byte) : State × Status :=
  let i := leField t 121 1
  let use := leField t 122 1
  if s.slotActive i || s.slotRevoked i || use == 0 then (s, .fuseRefused)
  else
    let s1 := { s with csl := { s.csl with keys := assocInsert i ((t.drop 64).take 57) s.csl.keys } }
    let s2 := s1.setF 0 Fld.CSL_OWNER_ACTIVE (s1.getF 0 Fld.CSL_OWNER_ACTIVE + 2 ^ i)
    ((s2.setF 0 Fld.CSL_OWNER_USE (withBits (s2.getF 0 Fld.CSL_OWNER_USE) (4 * i + 3) (4 * i) use)).fused, .ok)

/-- REVOKE: not where it would leave no ACTIVE slot with AUTH (R601). -/
def State.revokeSlot (s : State) (i : Nat) : State × Status :=
  if !((List.range 4).any (fun k => k != i && s.authSlot k)) then (s, .fuseRefused)
  else
    let s1 := s.setF 0 Fld.CSL_OWNER_REVOKED (withBits (s.getF 0 Fld.CSL_OWNER_REVOKED) i i 1)
    ((s1.setF 0 Fld.CSL_OWNER_ACTIVE (withBits (s1.getF 0 Fld.CSL_OWNER_ACTIVE) i i 0)).fused, .ok)

/-- POLICY: bits are blown and never clear (R602). -/
def State.blowPolicy (s : State) (m : Nat) : State × Status :=
  ((s.setF 0 Fld.CSL_POLICY (Nat.lor (s.getF 0 Fld.CSL_POLICY) m)).fused, .ok)

/-- What an accepted token does (R606). -/
def State.tokenEffect (s : State) (fn : Nat) (t : List Byte) : State × Status :=
  let arg := (t.drop 64).take 64
  match leField t 6 1 with
  | 1 => (s.openSession 1 (leField t 64 4) (leField t 68 4) t, .ok)
  | 2 => s.claimOwner fn arg
  | 3 => (if s.dbg = 2 then s.openSession 2 (leField t 64 4) (leField t 68 4) t else s.enterRma (leField t 64 4) (leField t 68 4) t, .ok)
  | 4 => s.enrol t
  | 5 => s.revokeSlot (leField t 64 1)
  | _ => s.blowPolicy (leField t 64 4)

/-- TOKEN: the token is read and checked; it uses up the function's challenge whatever its result (R604, R607). -/
def State.cslToken (s : State) (fn va : Nat) : State × Status :=
  let chal := s.challengeOf fn
  match (s.useChallenge fn).mgrRead fn va 256 with
  | (s1, .error st) => (s1, st)
  | (s1, .ok t) =>
    if tokenBad t then (s1, .cslMalformed)
    else if (t.drop 8).take 16 ≠ s1.unitId then (s1, .unitMismatch)
    else if chal ≠ some ((t.drop 24).take 32) then (s1, .challengeStale)
    else if !s1.tokenKeyOk fn t then (s1, .keyInvalid)
    else if !s1.tokenSigOk t then (s1.badSignature, .signatureInvalid)
    else if s1.tokenForbidden t then (s1, .debugRefused)
    else s1.tokenEffect fn t

/-! ## Attestation (R616 to R618) -/

/-- One measurement. -/
def measEntry (kind index : Nat) (d : List Byte) : List Byte :=
  leBytes 2 kind ++ leBytes 2 index ++ List.replicate 12 0#8 ++ d

/-- A digest over what is not laid out by the spec (log entry 32). -/
def measure (kind : Nat) (content : List Nat) : List Byte := (List.range 64).map (Config.measure kind content)

/-- The measurements of a report for one partition. -/
def State.measurements (s : State) (fn : Nat) : List (List Byte) :=
  let m := s.csl.running
  let runs := (setEntries m).zipIdx.map fun (e : List Byte × Nat) => measEntry 1 e.2 ((e.1.drop 32).take 64)
  let cfg := (cfgBytes s.cfgInForce).map BitVec.toNat ++
    [s.getF 0 Fld.PWR_CAP, s.getF 0 Fld.PWR_FRAC0, s.getF 0 Fld.PWR_FRAC1, s.getF 0 Fld.TMB_SRC_CFG]
  let fuses := [s.getF 0 Fld.DEV_FUSE, s.getF 0 Fld.CSL_OWNER, s.getF 0 Fld.CSL_POLICY, s.getF 0 Fld.CSL_ARB_N,
    if s.rmaEver then 1 else 0] ++ (List.range 16).map fun f => s.getF 0 (Fld.FIL_DEFECT.onPage (filePage f))
  let dbg := [s.dbg, s.getF 0 Fld.CSL_DBG_SCOPE, s.csl.opened] ++ s.csl.token.map BitVec.toNat
  let ims := (((s.images.filter fun e => decide (e.1 / 32768 = fn)).map fun e =>
    measEntry 6 (e.1 % 32768) (measure 6 (e.2.header.map BitVec.toNat ++ [e.2.digest]))).take 64)
  runs ++ [measEntry 2 0 (digest64 m), measEntry 3 0 (measure 3 cfg), measEntry 4 0 (measure 4 fuses), measEntry 5 0 (measure 5 dbg)] ++ ims

/-- The report's flags. -/
def State.attFlags (s : State) : Nat :=
  let b := fun (x : Bool) (i : Nat) => if x then 2 ^ i else 0
  b (s.flag 0 Fld.CSL_STS_PENDING) 0 + b (s.flag 0 Fld.CSL_STS_FLASHBAD) 1 + b (s.flag 0 Fld.DEV_BOOT_FAST) 2 +
    b (s.flag 0 Fld.CSL_STS_LOCKDOWN) 3 + b s.certified 4 + b (s.flag 0 Fld.DEV_BOOT_DEGRADED) 5 + b (s.flag 0 Fld.CSL_STS_TRNGFAIL) 6

/-- The report without its signature block. -/
def State.reportBody (s : State) (fn : Nat) (nonce : List Byte) : List Byte :=
  let ms := s.measurements fn
  leBytes 4 0x5441594B ++ leBytes 2 1 ++ leBytes 2 ms.length ++ leBytes 4 (128 + 80 * ms.length + 128) ++ leBytes 4 s.attFlags ++
    s.unitId ++ nonce ++ leBytes 8 s.now ++ leBytes 4 (s.getF 0 Fld.DEV_GEN) ++ leBytes 4 ((Config.bootsBefore + s.csl.boots) % 2 ^ 32) ++
    leBytes 1 s.dbg ++ leBytes 1 (s.csl.hist % 2 + (if s.rmaEver then 2 else 0)) ++ leBytes 1 (s.getF 0 Fld.PWR_STATE_STATE) ++
    leBytes 1 (s.getF 0 Fld.DEV_MODE_MODE) ++ leBytes 1 (s.getF 0 Fld.CSL_ARB_N) ++ leBytes 1 (s.getF 0 Fld.CSL_ARB_SVN) ++
    leBytes 1 (s.getF 0 Fld.CSL_OWNER % 256) ++ leBytes 1 (s.getF 0 Fld.CSL_POLICY % 256) ++ leBytes 2 fn ++
    List.replicate 38 0#8 ++ ms.flatten

/-- ATTEST. -/
def State.cslAttest (s : State) (fn va : Nat) : State × Status :=
  match s.mgrRead fn va 32 with
  | (s1, .error st) => (s1, st)
  | (s1, .ok nonce) =>
    let b := s1.reportBody fn nonce
    s1.mgrWrite fn (va + 64) (b ++ signBlock 0xF0 0 ctxAtt b)

/-- CERTREAD: at most 4 KiB (R599). -/
def State.cslCertread (s : State) (fn va : Nat) : State × Status :=
  let a := Config.certificate 0
  let c := Config.certificate 1
  s.mgrWrite fn va ((leBytes 2 a.length ++ leBytes 2 c.length ++ List.replicate 4 0#8 ++ a ++ c).take 4096)

/-! ## Owner entries (R598, R628) -/

/-- KEYGEN. -/
def State.cslKeygen (s : State) (e : Nat) : State × Status :=
  if s.flag 0 Fld.CSL_STS_TRNGFAIL then (s, .trngFailed)
  else (({ s with csl := { s.csl with entries := assocInsert e (s.free + 1) s.csl.entries } }).drawFree, .ok)

/-- SIGN. -/
def State.cslSign (s : State) (fn va e : Nat) : State × Status :=
  if s.csl.session then (s, .debugRefused)
  else match s.csl.entries.find? fun k => k.1 == e with
    | none => (s, .keyInvalid)
    | some k => match s.mgrRead fn va 64 with
      | (s1, .error st) => (s1, st)
      | (s1, .ok d) => s1.mgrWrite fn (va + 64) (signBlock (0xF1 + e) k.2 ctxSign d)

/-! ## UPDATE (R613) -/

/-- Show the pass of an UPDATE. -/
def State.showPass (s : State) (pass bytes : Nat) : State :=
  ((s.setF 0 Fld.CSL_UPD_PASS pass).setF 0 Fld.CSL_UPD_BYTES bytes).setFlag 0 Fld.CSL_STS_UPDATING (pass != 0)

/-- UPDATE begins its first pass. -/
def State.cslUpdate (s : State) (fn va : Nat) : State :=
  ({ s with csl := { s.csl with upd := some { fn := fn, va := va } } }).showPass 1 0

/-- LOCKDOWN sets LOCK[0] of every page (R623). -/
def State.cslLockdown (s : State) : State :=
  ((List.range 20 ++ (List.range 16).map filePage).foldl (fun (s : State) p => s.setFlag 0 (Fld.LOCK_LOCKDOWN.onPage p) true) s).setFlag
    0 Fld.CSL_STS_LOCKDOWN true

/-! ## Commands (R627) -/

/-- A command runs: commands of others than the owner complete with OWNED where R627 gives. -/
def State.cslRun (s : State) (fn v va : Nat) : State :=
  let op := opCode v
  let fin := fun (r : State × Status) => r.1.cslDone fn r.2
  let e := bits v 2 0
  if 5 ≤ op && op ≤ 10 && !s.isOwner fn then s.cslDone fn .owned
  else match op with
    | 1 => fin (s.cslChallenge fn)
    | 2 => fin (s.cslToken fn va)
    | 3 => fin (s.cslAttest fn va)
    | 4 => fin (s.cslCertread fn va)
    | 5 => s.cslUpdate fn va
    | 6 => fin (s.arbCommit, .ok)
    | 7 => fin (s.cslLockdown, .ok)
    | 8 => fin (s.closeSession, .ok)
    | 9 => fin (s.cslKeygen e)
    | 10 => fin (s.cslSign fn va e)
    | _ => s.cslDone fn .cslMalformed

/-- A write to CSL_CMD: commands run one at a time, so those accepted during an UPDATE wait (R627, R628, R681). -/
def State.cslWrite (s : State) (fn v : Nat) : State :=
  s.gated fn 0x02 0x044 (
    if !s.cmdDone fn Fld.CSL_CMD_STS_STATUS then s
    else if resvHit 0x02 0x044 v then s.cslDone fn .cslMalformed
    else
      let va := s.getF fn Fld.CSL_CMD_VA_LO + 2 ^ 32 * s.getF fn Fld.CSL_CMD_VA_HI
      let s1 := s.startCmd fn Fld.CSL_CMD_STS_STATUS
      if s.csl.upd.isSome then { s1 with csl := { s1.csl with waiting := s1.csl.waiting ++ [(fn, v, va)] } } else s1.cslRun fn v va)

/-- A write with one OP. -/
def State.cslCmd (s : State) (fn v op : Nat) : State := if opCode v = op then s.cslWrite fn v else s

/-- CHALLENGE (R604). -/
def execChallenge (fn v : Nat) (s : State) : Out := .next (s.cslCmd fn v 1)

/-- TOKEN (R607). -/
def execTokenCmd (fn v : Nat) (s : State) : Out := .next (s.cslCmd fn v 2)

/-- ATTEST (R616). -/
def execAttest (fn v : Nat) (s : State) : Out := .next (s.cslCmd fn v 3)

/-- CERTREAD (R599). -/
def execCertread (fn v : Nat) (s : State) : Out := .next (s.cslCmd fn v 4)

/-- UPDATE (R613). -/
def execUpdateCmd (fn v : Nat) (s : State) : Out := .next (s.cslCmd fn v 5)

/-- ARBCOMMIT (R612). -/
def execArbcommit (fn v : Nat) (s : State) : Out := .next (s.cslCmd fn v 6)

/-- LOCKDOWN (R623). -/
def execLockdown (fn v : Nat) (s : State) : Out := .next (s.cslCmd fn v 7)

/-- DEBUG_END (R619). -/
def execDebugEnd (fn v : Nat) (s : State) : Out := .next (s.cslCmd fn v 8)

/-- KEYGEN (R598). -/
def execKeygen (fn v : Nat) (s : State) : Out := .next (s.cslCmd fn v 9)

/-- SIGN (R628). -/
def execSignCmd (fn v : Nat) (s : State) : Out := .next (s.cslCmd fn v 10)

/-! ## The passes of an UPDATE (R613) -/

/-- Commands that waited run in the order of acceptance, up to the next UPDATE. -/
def State.cslDrain (s : State) : Nat → State
  | 0 => s
  | fuel + 1 => match s.csl.waiting with
    | [] => s
    | (fn, v, va) :: rest =>
      if s.csl.upd.isSome then s
      else (({ s with csl := { s.csl with waiting := rest } }).cslRun fn v va).cslDrain fuel

/-- An UPDATE ends. -/
def State.updEnd (s : State) (u : UpdSt) (st : Status) : State :=
  let s1 := ({ s with csl := { s.csl with upd := none } }).showPass 0 0
  (((s1.cslDone u.fn st).cslIrq 3).cslEvent 1).cslDrain (s1.csl.waiting.length + 1)

/-- A failure in pass 2 or 3 marks the flash. -/
def State.updBad (s : State) (u : UpdSt) (st : Status) : State := (s.setFlag 0 Fld.CSL_STS_FLASHBAD true).updEnd u st

/-- Read a set from the owner partition: its manifest, then SETBYTES. -/
def State.readSet (s : State) (u : UpdSt) : State × Except Status (List Byte) :=
  match s.mgrRead u.fn u.va 4096 with
  | (s1, .error st) => (s1, .error st)
  | (s1, .ok m) =>
    if !manifestOk m then (s1, .ok m) else s1.mgrRead u.fn u.va (setBytes m)

/-- The next pass. -/
def State.updPass (s : State) (u : UpdSt) (pass : Nat) : State :=
  ({ s with csl := { s.csl with upd := some { u with pass := pass } } }).showPass pass 0

/-- UPDATE_PASS_DONE: pass 1 reads the set and applies R610; pass 2 erases and programs the flash, hashing again; pass 3 reads it
back. A `false` is a failure of the flash. -/
def execUpdatePassDone (ok : Bool) (s : State) : Out :=
  .next (match if s.getF 0 Fld.PWR_STATE_STATE = 2 then none else s.csl.upd with
    | none => s
    | some u => match u.pass with
      | 1 => match s.readSet u with
        | (s1, .error st) => s1.updEnd u st
        | (s1, .ok b) => match s1.setFault b with
          | some st => s1.updEnd u st
          | none => ({ s1 with csl := { s1.csl with flashCut := true } }).updPass { u with set := b } 2
      | 2 =>
        if !ok then s.updBad u .flashFailed
        else match s.readSet u with
          | (s1, .error _) => s1.updBad u .digestMismatch
          | (s1, .ok b) =>
            let s2 := { s1 with csl := { s1.csl with flash := some b, flashCut := false } }
            if b.take 4096 = u.set.take 4096 ∧ (setEntries b).all (entryDigestOk b) then s2.updPass u 3 else s2.updBad u .digestMismatch
      | _ =>
        if !ok then s.updBad u .flashFailed
        else
          let s1 := { s with csl := { s.csl with kept := u.set.take 4096 } }
          (((s1.setFlag 0 Fld.CSL_STS_PENDING true).setFlag 0 Fld.CSL_STS_FLASHBAD false).updEnd u .ok))

/-! ## Events of time and of the entropy source -/

/-- CHALLENGE_LAPSE: 60 s after it was written (R604). -/
def execChallengeLapse (fn : Nat) (s : State) : Out := .next (if (s.challengeOf fn).isSome then s else s.useChallenge fn)

/-- DEBUG_EXPIRY: DURATION has elapsed (R619). -/
def execDebugExpiry (s : State) : Out := .next (if s.csl.session ∧ s.csl.ends ≤ s.now then s.closeSession else s)

/-- BACKOFF_END: 10 s after the back-off began (R607). -/
def execBackoffEnd (s : State) : Out :=
  .next (match s.csl.backoffAt with
    | none => s
    | some t =>
      if s.ticks < t + 2500000000 then s
      else ({ s with csl := { s.csl with backoffAt := none } }).setFlag 0 Fld.CSL_STS_BACKOFF false)

/-- TRNG_HEALTH_FAIL: health tests fail (R597, R627). -/
def execTrngHealthFail (count : Nat) (s : State) : Out :=
  .next (((s.bump 0 Fld.CSL_TRNG count).setFlag 0 Fld.CSL_STS_TRNGFAIL true).cslIrq 5)

/-! ## Recovery (R615) -/

/-- Whether the device is in RECOVERY. -/
def State.inRecovery (s : State) : Bool := s.getF 0 Fld.DEV_BOOT_STAGE == 8

/-- A write to CSL_RCV_CTL or the window: outside RECOVERY it is ignored and recorded; inside, the physical functions are served, and
other ports than the session's are recorded (R615, R627). -/
def State.rcvGated (s : State) (fn off : Nat) (start : Bool) (f : State) : State :=
  if !s.serves 0x02 then s
  else if !s.inRecovery then s.recErr 0x02 fn .cslMalformed off
  else if fn % 16 ≠ 0 then s
  else match s.csl.rcv with
    | some r => if r.port = fn / 16 then f else s.recErr 0x02 fn .cslMalformed off
    | none => if start then f else s.recErr 0x02 fn .cslMalformed off

/-- Show a session's status. -/
def State.rcvStatus (s : State) (st : Status) : State := s.setF 0 Fld.CSL_RCV_STS_STATUS st.code

/-- The session ends with a failure. -/
def State.rcvFail (s : State) (st : Status) : State :=
  (({ s with csl := { s.csl with rcv := none } }.rcvStatus st).setFlag 0 Fld.CSL_RCV_STS_ACTIVE false).setFlag 0 Fld.CSL_RCV_STS_READY false

/-- RCV_START: the first port to write holds the session. -/
def execRcvStart (fn v : Nat) (s : State) : Out :=
  .next (if opCode v ≠ 1 then s
    else s.rcvGated fn 0x0A0 true (
      if resvHit 0x02 0x0A0 v then s.rcvStatus .cslMalformed
      else
        let n := if bits v 11 0 = 0 then 4096 else bits v 11 0
        let s1 := { s with csl := { s.csl with rcv := some { port := fn / 16, pages := n } } }
        ((((s1.rcvStatus .ok).setFlag 0 Fld.CSL_RCV_STS_READY true).setFlag 0 Fld.CSL_RCV_STS_ACTIVE true).setF 0 Fld.CSL_RCV_STS_PORT
          (fn / 16)).setF 0 Fld.CSL_RCV_STS_DONE 0))

/-- RCV_WINDOW_WRITE: four bytes at an offset of the window, while it is free. -/
def execRcvWindowWrite (fn off v : Nat) (s : State) : Out :=
  .next (s.rcvGated fn (0x8000 + off % 0x8000) false (
    match s.csl.rcv with
    | some r =>
      if !s.flag 0 Fld.CSL_RCV_STS_READY then s
      else { s with csl := { s.csl with rcv := some { r with win := cellsWrite r.win (off % 0x8000 / 4 * 4) (leBytes 4 v) } } }
    | none => s))

/-- Bytes of a chunk: 32 KiB, and what is left in the last one. -/
def RcvSt.chunkBytes (r : RcvSt) (n : Nat) : Nat := Nat.min 32768 (r.pages * 4096 - n * 32768)

/-- RCV_CHUNK: the chunk of that number is taken from the window; the first one holds the manifest, which is checked first. -/
def execRcvChunk (fn v : Nat) (s : State) : Out :=
  .next (if opCode v ≠ 2 then s
    else s.rcvGated fn 0x0A0 false (
      match s.csl.rcv with
      | none => s
      | some r =>
        let n := bits v 11 0
        let b := cellsRead r.win 0 (r.chunkBytes n)
        if !s.flag 0 Fld.CSL_RCV_STS_READY then s
        else if resvHit 0x02 0x0A0 v || n != s.getF 0 Fld.CSL_RCV_STS_DONE then s.rcvStatus .cslMalformed
        else
          let bad := if n ≠ 0 then none else match s.manifestFault (b.take 4096) with
            | some st => some st
            | none => if setBytes b = r.pages * 4096 then none else some .cslMalformed
          match bad with
          | some st => s.rcvFail st
          | none => ({ s with csl := { s.csl with rcv := some { r with chunk := some n, set := r.set ++ b } } }).setFlag 0
              Fld.CSL_RCV_STS_READY false))

/-- RCV_CHUNK_PROGRAMMED: the chunk is programmed and hashed; after the last one the digests decide (R615). -/
def execRcvChunkProgrammed (ok : Bool) (s : State) : Out :=
  .next (match s.csl.rcv with
    | none => s
    | some r => match r.chunk with
      | none => s
      | some n =>
        let s1 := { s with csl := { s.csl with flashCut := true } }
        if !ok then (s1.setFlag 0 Fld.CSL_STS_FLASHBAD true).rcvFail .flashFailed
        else
          let s2 := s1.setF 0 Fld.CSL_RCV_STS_DONE (n + 1)
          if (n + 1) * 32768 < r.pages * 4096 then
            ({ s2 with csl := { s2.csl with rcv := some { r with chunk := none } } }).setFlag 0 Fld.CSL_RCV_STS_READY true
          else
            let s3 := { s2 with csl := { s2.csl with flash := some r.set, flashCut := false } }
            match s3.setFault r.set with
            | some st => (s3.setFlag 0 Fld.CSL_STS_FLASHBAD true).rcvFail st
            | none =>
              let s4 := (s3.rcvFail .ok).setFlag 0 Fld.CSL_STS_FLASHBAD false
              { s4 with rst := { s4.rst with started := s4.ticks } }.setF 0 Fld.DEV_BOOT_STAGE 1)

end Sys2Proof.Machine
end

