-- ==== Sys2Proof/Machine/Boot.lean ====
section
/-! DEFINITION. Off and the ways into it, cold boot with its stages, and what a warm reset clears (R552, R565, R573 to R582, R611,
R657, R660). -/

namespace Sys2Proof.Machine

/-! ## Off (R552, R565, R571, R657) -/

/-- Bank, page and offset of a register key. -/
def keyBank (k : Nat) : Nat := k / 2 ^ 24
def keyPage (k : Nat) : Nat := k / 2 ^ 16 % 2 ^ 8
def keyOff (k : Nat) : Nat := k % 2 ^ 16

/-- Registers that show fuses blown and flash kept across Off: CSL_ARB, CSL_OWNER, CSL_POLICY, the retired pins. -/
def keptOff (k : Nat) : Bool :=
  keyBank k == 0 && ((keyPage k == 2 && decide (0x54 ≤ keyOff k) && decide (keyOff k ≤ 0x5C)) ||
    (keyPage k == 7 && decide (0x80 ≤ keyOff k) && decide (keyOff k < 0x90)))

/-- Castle's part that fuses and flash hold. -/
def CslSt.fusesFlash (c : CslSt) : CslSt :=
  { keys := c.keys, nkRevoked := c.nkRevoked, rma := c.rma, entries := c.entries, wiped := c.wiped, flash := c.flash,
    flashCut := c.flashCut, boots := c.boots, hist := c.hist }

/-- Sticky causes kept until the next boot: TRIP, BROWN, OFFREQ. -/
def stickyCauses (v : Nat) : Nat := Nat.land v 0xE

/-- The device goes Off: everything is lost but fuses, flash and the sticky causes; host memory is not the device's. It leaves Off only
after VIN has fallen below 5 V. -/
def State.powerOff (s : State) (causes : Nat) (trip : Bool) : State :=
  let r := State.reset
  let s1 := { r with
    regs := s.regs.filter fun e => keptOff e.1
    readData := s.readData, free := s.free, ticks := s.ticks, msix := s.msix, pending := s.pending
    mem := { r.mem with host := s.mem.host, ctl := { r.mem.ctl with record := s.mem.ctl.record } }
    arb := { r.arb with flash := s.arb.flash }
    csl := s.csl.fusesFlash
    rst := { r.rst with latched := true, tripped := trip || s.rst.tripped } }
  s1.setF 0 Fld.DEV_RST_CAUSE (Nat.lor (stickyCauses (s.getF 0 Fld.DEV_RST_CAUSE)) causes)

/-- Whether the device is Off. -/
def State.isOff (s : State) : Bool := s.getF 0 Fld.DEV_BOOT_STAGE == 0

/-- THERMAL_TRIP: every regulator off, and THERMTRIP_N driven low (R552, R661). -/
def execThermalTrip (s : State) : Out := .next (if s.isOff then s else s.powerOff 8 true)

/-- INPUT_BROWNOUT (R565). -/
def execInputBrownout (s : State) : Out := .next (if s.isOff then s else s.powerOff 4 false)

/-- VIN_BELOW_5V: without input the device is Off, the latch of THERMTRIP_N is released, and a later rise is a cold boot (R657, R661). -/
def execVinBelow5v (s : State) : Out :=
  let s1 := if s.isOff then s else s.powerOff 0 false
  .next { s1 with rst := { s1.rst with latched := false, tripped := false } }

/-! ## Cold boot (R573, R660) -/

/-- COLD_BOOT: VIN rises through 9 V; the count restarts at 0 and stage 1 begins. FORCE_RCV leads to RECOVERY. -/
def execColdBoot (s : State) : Out :=
  .next (if !s.isOff ∨ s.rst.latched then s
    else
      let c := { s.csl with boots := s.csl.boots + 1, hist := 0 }
      let s1 := { s with now := 0, nowFrac := 0, csl := c, rst := { s.rst with started := s.ticks } }
      let s2 := (s1.setFlag 0 Fld.DEV_RST_CAUSE_POWER true).setF 0 Fld.CSL_STS_DBG (if s1.rmaEver then 2 else 0)
      let s3 := s2.logEvent 1 0x00 0xFF 4 0 [s2.getF 0 Fld.DEV_RST_CAUSE]
      let s4 := if s.getF 0 Fld.PCI_BIFUR_MODE = 3 then s3.logEvent 1 0x10 0xFF 4 0 [] else s3
      s4.setF 0 Fld.DEV_BOOT_STAGE (if Config.forceRecovery then 8 else 1))

/-- Whether the boot under way takes the fast path. -/
def State.fastBoot (s : State) : Bool := s.flag 0 Fld.DEV_BOOT_FAST

/-- The next stage begins. -/
def State.toStage (s : State) (n : Nat) : State := s.setF 0 Fld.DEV_BOOT_STAGE n

/-- A bring-up case marked DEGRADED (R576). -/
def State.bootDegraded (s : State) : State := s.setFlag 0 Fld.DEV_BOOT_DEGRADED true

/-- Stage 1: the manifest and the first stage are verified (R611). -/
def State.stage1Ok (s : State) : Bool :=
  let f := s.flashSet
  !s.csl.flashCut && (s.manifestFault (f.take 4096)).isNone && entryDigestOk f (manEntry f 0)

/-- Stage 2: every image is verified; a warm reset compares digests with those that Castle keeps, and runs R610 in full where the
manifest differs (R581, R611). -/
def State.stage2Ok (s : State) : Bool :=
  let f := s.flashSet
  if s.fastBoot ∧ digest64 (f.take 4096) = digest64 s.csl.kept then (setEntries f).all (entryDigestOk f)
  else (s.setFault f).isNone

/-- What a verified set leaves: the running manifest and digests, the running SVN, and the keys that its first stage revokes. -/
def State.takeSet (s : State) : State :=
  let f := s.flashSet
  let gone := ([0x10, 0x11, 0x12, 0x13].filter fun k => Config.revokes (imageOf f (manEntry f 0)) k && !s.csl.nkRevoked.contains k)
  let s1 := { s with csl := { s.csl with
    running := f.take 4096, kept := f.take 4096, nkRevoked := s.csl.nkRevoked ++ gone } }
  (s1.setF 0 Fld.CSL_ARB_SVN (setSvn f)).setFlag 0 Fld.CSL_STS_PENDING false

/-- Stage 3 ends with links that failed their tests: an east link is routed round, a column link leaves the file above it in FAULT
(R85, R576, R590). -/
def State.linksDown (s : State) : State :=
  Config.badLinks.foldl (fun s e =>
    if 16 ≤ e.1 then s
    else if e.2.2 then (if e.1 = 15 ∨ 19 ≤ e.2.1 then s else s.detour e.1 e.2.1)
    else if 18 ≤ e.2.1 then s else s.setPageSt (filePage e.1) stFault) s

/-- Channels that a boot trains, and what their training leaves: full training at a cold boot, its record saved where it differs; at a
warm reset the saved record is restored, and a channel that fails the tracking check is trained in full (R210). -/
def State.trainAll (s : State) : State :=
  let c := s.mem.ctl
  let fresh := fun ch => Config.trainRecord s.csl.boots ch
  let live := (List.range 8).map fun ch =>
    (ch, if s.fastBoot && !Config.trackFails s.csl.boots ch then assocGet (fresh ch) c.record ch else fresh ch)
  { s with mem := { s.mem with ctl := { c with live := live, record := live } } }

/-- Stage 4 ends with a channel that fails full training (R210, R218, R576). -/
def State.memoryDown (s : State) : State :=
  let m := Config.untrained % 256
  let m := if m = 0 then 1 else m
  (((s.setF 0 Fld.MEM_TRAIN_STS_FAILED m).setF 0 Fld.MEM_TRAIN_STS_TRAINED (255 - m)).memIrq 5).toStage 9 |>.setF 0
    Fld.DEV_BOOT_STATUS Status.bootFailed.code

/-- Stage 4 ends: every unit is zeroed, the memory serves, and the Reserve is clear but for the rows beyond repair. -/
def State.memoryUp (s : State) : State :=
  let bad := if s.fastBoot then s.mem.pages.filter fun e => e.2 == PageUse.withheld
    else ((Config.badPages.filter fun p => decide (p < 16384)).foldl (fun l p => assocInsert p PageUse.withheld l) [])
  let s0 := s.trainAll
  let s1 := { s0 with mem := { s0.mem with dev := [], devPoison := [], rsv := [], linePoison := [], pages := bad } }
  let s2 := (s1.setPageSt 0x07 stOn).setF 0 Fld.MEM_TRAIN_STS_TRAINED 0xFF
  if bad.isEmpty then s2 else s2.bootDegraded

/-- Stage 6 begins: files start for the self-test; the fast path tests none (R579, R581). -/
def State.squaresUp (s : State) : State :=
  if s.fastBoot then s else (List.range 16).foldl (fun (s : State) f => s.testFile f) s

/-- Stage 6 ends: files are back at OFF; squares whose SQ_FAULT bits stand are in FAULT (R82). -/
def State.squaresDone (s : State) : State :=
  if s.fastBoot then
    (List.range 256).foldl (fun (s : State) sq => if s.getF 0 (sqFaultFld sq) = 1 then s.setSqSt sq sqFaultSt else s) s
  else (List.range 16).foldl (fun (s : State) f => s.endTest [] f) s

/-! ## READY (R575, R612, R623, R634, R636) -/

/-- Hosts at READY. -/
def State.showHosts (s : State) : State :=
  (List.range 4).foldl (fun (s : State) p =>
    if s.portCount ≤ p then (s.setHostSt p 3).setPort p {}
    else if s.getF 0 (Fld.PCI_PORTn_WIDTH.plus (4 * p)) = 0 then (s.setHostSt p 1).setPort p { downAt := some s.ticks }
    else (s.setHostSt p 0).setPort p { seenUp := true }) s

/-- The owner boot configuration, a TYPE 7 image, is applied as generation 1 with ENABLE 1 of the Dispatcher; one that fails its
checks is logged and not applied (R255, R636; log entry 36). -/
def State.bootConfig (s : State) : State :=
  match (setEntries s.csl.running).find? fun e => leField e 0 2 == 7 with
  | none => s
  | some e =>
    let b := imageOf s.flashSet e
    match s.cfgFault b with
    | some st => s.logEvent 2 0x01 0xFF 2 st.code []
    | none => (s.applyCfg (parseCfg b) 0).blockEnable 0x05 true (fun s => s) State.dspStop

/-- READY. -/
def State.ready (s : State) : State :=
  let ms := (s.ticks - s.rst.started) / 250000
  let s1 := ((s.toStage 7).setF 0 Fld.DEV_MODE_MODE 0).setF 0 Fld.DEV_BOOT_MS_MS (Nat.min ms 0xFFFF)
  let s2 := ({ s1 with arb := { s1.arb with readyAt := s1.ticks } }.showHosts).raiseIrq 0x00 0 0
  let s3 := if s2.policy 2 then s2.arbCommit else s2
  let s4 := if s3.policy 3 then s3.cslLockdown else s3
  s4.bootConfig

/-- BOOT_STAGE_READY: the stage in progress ends; `ok` is what its tests found, beside the verdicts that Castle gives on the set in
flash; the fast path tests neither links nor squares. A low WARM_RESET_N holds the device (R573, R576, R581, R661). -/
def execBootStageReady (ok : Bool) (s : State) : Out :=
  .next (if s.rst.pinLow then s
    else match s.getF 0 Fld.DEV_BOOT_STAGE with
      | 1 => if ok && s.stage1Ok then s.toStage 2 else s.toStage 8
      | 2 => if ok && s.stage2Ok then (s.takeSet).toStage 3 else s.toStage 8
      | 3 => (if ok || s.fastBoot then s else s.linksDown.bootDegraded).toStage 4
      | 4 => if ok then (s.memoryUp).toStage 5 else s.memoryDown
      | 5 => (s.toStage 6).squaresUp
      | 6 =>
        if (List.range 256).any (fun sq => s.sqSt sq == sqTest) then s
        else ((if ok || s.fastBoot then s else (s.bootDegraded).setF 0 Fld.DEV_BOOT_STATUS Status.selftestFailed.code).squaresDone).ready
      | _ => s)

/-! ## Warm reset (R571, R581, R582) -/

/-- Registers of AON and of the timebase that a warm reset keeps: those of pages 0x00 to 0x02 but the ownership and the configuration;
the counters, the measurements and the drain of page 0x03; the increment; retired pins; the PCIe links; SQ_FAULT and FIL_DETOUR
(R556, R581, R582). -/
def keptWarm (k : Nat) : Bool :=
  let p := keyPage k
  let o := keyOff k
  if o = 0x02C then false
  else if p ≤ 2 then !(p == 0 && (o == 0x054 || o == 0x100 || o == 0x104 || o == 0x108))
  else if p = 3 then decide (o < 0x040) || o == 0x070 || o == 0x094 || decide (0x09C ≤ o)
  else if p = 4 then o == 0x04C || o == 0x050
  else if p = 7 then decide (0x80 ≤ o) && decide (o < 0x90)
  else if p = 0x10 then decide (0x040 ≤ o)
  else decide (0x20 ≤ p) && (o == 0x068 || o == 0x090)

/-- Castle across a warm reset: challenges lapse, a session ends, an UPDATE is cut, and commands that wait end (R604, R614, R621). -/
def CslSt.warm (c : CslSt) : CslSt :=
  { c with chal := [], session := false, waiting := [], upd := none, rcv := none }

/-- Functions whose mailbox request or Castle command a warm reset ends: they complete with CANCELLED (log entry 36). -/
def State.endRequests (s : State) : State :=
  (List.range 64).foldl (fun (s : State) fn =>
    let s1 := if s.cmdDone fn Fld.ARB_MBX_STS_STATUS then s else s.finishCmd fn Fld.ARB_MBX_STS_STATUS .cancelled
    if s1.cmdDone fn Fld.CSL_CMD_STS_STATUS then s1 else s1.finishCmd fn Fld.CSL_CMD_STS_STATUS .cancelled) s

/-- The effect of a warm reset, with its cause bit: every block but AON, the timebase count and device memory is reset, and the
stages run on the fast path. -/
def State.warmNow (s : State) (cause : Nat) : State :=
  let r := State.reset
  let s0 := if s.cmdDone 0 Fld.PWR_GRANT_STS_STATUS then s else s.logEvent 1 0x03 0xFF 7 Status.cancelled.code []
  let s1 := s0.closeSession
  let s2 := { r with
    regs := s1.regs.filter fun e => keptWarm e.1
    readData := s1.readData, free := s1.free, now := s1.now, nowFrac := s1.nowFrac, ticks := s1.ticks, msix := s1.msix
    pending := s1.pending
    mem := { r.mem with
      ctl := { r.mem.ctl with record := s1.mem.ctl.record }
      host := s1.mem.host, dev := s1.mem.dev, devPoison := s1.mem.devPoison, pages := s1.mem.pages.filter fun e => e.2 == PageUse.withheld }
    arb := { s1.arb with mbx := [], restarting := false, hostTag := [], cfg := none, floors := [], taken := none, path := 0 }
    rst := { r.rst with pinLow := s1.rst.pinLow, started := s1.ticks, tripped := s1.rst.tripped }
    csl := s1.csl.warm }
  let s3 := s2.endRequests
  let s4 := ((s3.setFlag 0 Fld.CSL_STS_TRNGFAIL false).setFlag 0 Fld.CSL_STS_LOCKDOWN false).showPass 0 0
  let s5 := ((s4.setF 0 Fld.DEV_BOOT_STATUS 0).setFlag 0 Fld.DEV_BOOT_FAST true).toStage 1
  let s6 := (s5.finishCmd 0 Fld.DEV_CMD_STS_STATUS .ok).setF 0 Fld.DEV_RST_CAUSE (Nat.lor (s5.getF 0 Fld.DEV_RST_CAUSE) (2 ^ cause))
  s6.logEvent 1 0x00 0xFF 4 0 [s6.getF 0 Fld.DEV_RST_CAUSE]

end Sys2Proof.Machine
end

