-- ==== Sys2Proof/Machine/PowState.lean ====
section
/-! DEFINITION. The power states: requests, entry, wake, exit, and the resets that depend on them (R557 to R566, R572, R581, R630,
R661). -/

namespace Sys2Proof.Machine

/-! ## What a state stops and starts -/

/-- Pages that Hold and Sleep stop in step 2, and those that Sleep stops in step 8. -/
def earlyPages : List Nat := [0x0C, 0x0E, 0x0F]
def latePages : List Nat := [0x0A, 0x0B, 0x0D]

/-- What a page does as it starts and as it stops. -/
def pageStart (p : Nat) (s : State) : State :=
  if p = 0x0C then s.slvStart else if p = 0x0E then s.inputStart else if p = 0x0F then s.edgeStart
  else if p = 0x0A then s.ringDark else if p = 0x0B then s.knightStart else if p = 0x0D then s.fusStart
  else if p = 0x09 then s.tempoClear else s
def pageStop (p : Nat) (s : State) : State :=
  if p = 0x0C then s.slvStop else if p = 0x0E then s.inputStop else if p = 0x0F then s.edgeStop
  else if p = 0x0B then s.knightStop else if p = 0x0D then s.fusStop else s

/-- Step 2 for one page: it stops, and its stop ends in HELD (R337, R370, R470). -/
def State.holdPage (s : State) (p : Nat) : State :=
  let st := s.pageSt p
  let c := s.ctl p
  if st = stOn then (s.setCtl p { c with hold := true }).blockStop p (pageStop p)
  else if st = stStarting then s.setCtl p { c with recQuiesce := true, hold := true }
  else if st = stStopping then s.setCtl p { c with hold := true }
  else s

/-- An exit, or the undoing of step 2, for one page: from HELD it follows its ENABLE request; a stop under way ends first (R559, R560). -/
def State.releasePage (s : State) (p : Nat) : State :=
  let st := s.pageSt p
  let c := s.ctl p
  if st = stHeld then if s.enableReq p then s.blockStart p (pageStart p) else (s.setCtl p {}).setPageSt p stOff
  else if st = stStopping ∧ c.hold then s.setCtl p { recEnable := s.enableReq p }
  else if st = stStarting ∧ c.hold then s.setCtl p {}
  else s

/-- Step 5 for one file (R67). -/
def State.holdFile (s : State) (f : Nat) : State :=
  let st := s.pageSt (filePage f)
  if st = stOn ∨ st = stStarting ∨ st = stStopping then
    ((s.gateFile f).setFile f { s.file f with recQuiesce := false, recEnable := false, testing := 0 }).setFileSt f stHeld
  else s

/-- A HELD file follows a recorded RESET, or its last ENABLE request (R67). -/
def State.releaseFile (s : State) (f : Nat) : State :=
  if s.pageSt (filePage f) ≠ stHeld then s
  else if (s.file f).recReset then s.resetFile f
  else if s.enableReq (filePage f) then s.startFile f
  else s.setFileSt f stOff

/-- Every file and page that the state held follows its requests. -/
def State.releaseAll (s : State) : State :=
  let s1 := (List.range 16).foldl (fun (s : State) f => s.releaseFile f) s
  (earlyPages ++ latePages ++ [0x09]).foldl (fun (s : State) p => s.releasePage p) s1

/-- The Dispatcher is HELD (R255). -/
def State.dspHold (s : State) : State :=
  let st := s.pageSt 0x05
  if st = stOn ∨ st = stStarting ∨ st = stStopping then (s.setCtl 0x05 {}).setPageSt 0x05 stHeld else s

/-- Step 2 of an entry holds the Dispatcher (R255, R559). -/
def State.dspEnter (s : State) : State := { s.dspHold with pow := { s.pow with dspWas := s.pageSt 0x05 } }

/-- The Dispatcher resumes as an entry is undone: it is what it was, and follows the requests and doorbells that came meanwhile. -/
def State.dspResume (s : State) : State :=
  let was := s.pow.dspWas
  if s.pageSt 0x05 ≠ stHeld then s
  else if was = stOn then
    let s1 := (s.setPageSt 0x05 stOn).applyHeld
    if s1.enableReq 0x05 then s1 else s1.blockStop 0x05 State.dspStop
  else if was = stStarting then s.blockStart 0x05 (fun s => s)
  else if was = stStopping then (s.setCtl 0x05 { recEnable := s.enableReq 0x05 }).setPageSt 0x05 stStopping
  else s.setPageSt 0x05 (if s.enableReq 0x05 then stStarting else stOff)

/-- Move every stream inward of its place for the state: for Hold STORE streams to RESV or OUTER, for Sleep all to OUTER (R286). -/
def State.moveStreams (s : State) (sleep : Bool) : State :=
  s.streams.foldl (fun (s : State) e =>
    let fn := e.1 / 16384
    let h := e.1 % 16384
    if e.2.st = .store ∨ (sleep ∧ e.2.st = .resv) then (s.beginOut fn h sleep).outDone fn h else s) s

/-- Streams whose calls wait swap in again (R280, R559). -/
def State.swapWaiting (s : State) : State :=
  { s with streams := s.streams.map fun (e : Nat × Stream) =>
      if 0 < e.2.pend ∧ (e.2.st = .resv ∨ e.2.st = .outer) then (e.1, { e.2 with st := .inn, src := e.2.st }) else e }

/-- What Sleep loses: the Reserve's contents and entries, the translations, local memories, written batches; the timebase runs on the
last increment, and trigger outputs are inactive (R186, R371, R497, R533, R559 step 11). -/
def State.sleepLosses (s : State) : State :=
  let ids := s.mem.entries.map (·.1)
  let s1 := ids.foldl (fun (s : State) id => s.dropEntry id) s
  let s2 := { s1 with mem := { s1.mem with
    rsv := [], tlb := [], locked := [], linePoison := s1.mem.linePoison.filter fun e => !rsvLine e.1 } }
  let s3 := if s2.pageSt 0x09 = stOn then { s2 with pow := { s2.pow with slept := s2.pow.slept ++ [0x09] } } else s2
  let s4 := if s3.pageSt 0x09 = stOff ∨ s3.pageSt 0x09 = stHeld then s3 else (s3.tempoClear).setPageSt 0x09 stOff
  let s5 := (s4.inputBoard).setSource srcFree tmFree
  { s5 with time := { s5.time with trg := s5.time.trg.map fun (e : Nat × Trigger) =>
      (e.1, { e.2 with pulseEnd := Nat.min e.2.pulseEnd s5.now }) } }

/-- The locked sets are made anew from the page lists of the Class K images (R166, R186). -/
def State.rebuildLocked (s : State) : State :=
  s.images.foldl (fun (s : State) e => if e.2.kimg then s.lockPages (e.1 / 32768) e.2.locks else s) s

/-! ## Steps (R559, R562) -/

/-- STATE, TARGET and STEP. -/
def State.pst (s : State) : Nat := s.getF 0 Fld.PWR_STATE_STATE

/-- The power pins: MOD_PG is high from the start of stage 1 until Off; the mA that VDDIO_1V8_OUT and VDDIO_3V3_OUT supply, which follow
it and stay up in Sleep (R659). -/
def State.modPg (s : State) : Bool := !s.isOff
def State.vddio1v8 (s : State) : Nat := if s.isOff then 0 else if s.pst = 2 then 20 else 200
def State.vddio3v3 (s : State) : Nat := if s.isOff then 0 else 200
/-- EPHY_RST_N and JPHY_RST_N are low from MOD_PG rising until stage 5 and during a warm reset; THERMTRIP_N is low from a trip until VIN
falls below 5 V (R661). -/
def State.phyRstLow (s : State) : Bool :=
  s.modPg && (s.rst.pinLow || !(decide (5 ≤ s.getF 0 Fld.DEV_BOOT_STAGE) && decide (s.getF 0 Fld.DEV_BOOT_STAGE ≤ 7)))
def State.thermtripLow (s : State) : Bool := s.rst.tripped
def State.ptarget (s : State) : Nat := s.getF 0 Fld.PWR_STATE_TARGET
def State.pstep (s : State) : Nat := s.getF 0 Fld.PWR_STATE_STEP
def State.pbusy (s : State) : Bool := s.flag 0 Fld.PWR_STATE_BUSY

/-- The step after a step, for a target, from Hold or not. -/
def nextPowStep (via : Bool) (target n : Nat) : Nat :=
  if n = 4 then if via then 8 else 5
  else if n = 5 then if target = 1 then 6 else 8
  else if n = 0x83 then 4
  else n + 1

/-- A block that has not come to rest. -/
def State.pageMoves (s : State) (p : Nat) : Bool := s.pageSt p == stStarting || s.pageSt p == stStopping

/-- Whether an UPDATE is in pass 2 or 3, which a Sleep entry waits for (R614). -/
def State.updateHolds (s : State) : Bool :=
  match s.csl.upd with
  | some u => decide (2 ≤ u.pass)
  | none => false

/-- Whether the step in progress may end. -/
def State.powStepReady (s : State) : Bool :=
  match s.pstep with
  | 1 => s.ptarget != 2 || !s.updateHolds
  | 3 => s.groups.isEmpty
  | 4 => s.groups.isEmpty && s.startedJobs.isEmpty && s.streams.all fun e => e.2.st != .out && e.2.st != .inn
  | 6 => s.pageSt 0x07 == stHeld
  | 7 => earlyPages.all fun p => !s.pageMoves p
  | 8 => (earlyPages ++ latePages).all fun p => !s.pageMoves p
  | 10 => s.pageSt 0x07 == stHeld
  | 0x80 => !s.pow.viaHold || !s.updateHolds
  | 0x82 => s.pageSt 0x07 == stOn
  | 0x83 => s.pageSt 0x05 != stStarting
  | _ => true

/-- A step begins. -/
def State.enterStep (s : State) (n : Nat) : State :=
  let s1 := ({ s with pow := { s.pow with stepAt := s.ticks } }).setF 0 Fld.PWR_STATE_STEP n
  match n with
  | 2 => earlyPages.foldl (fun (s : State) p => s.holdPage p) s1.dspEnter
  | 4 => s1.stopStarted 2
  | 5 => (List.range 16).foldl (fun (s : State) f => s.holdFile f) s1
  | 6 => if s1.memOn then s1.setPageSt 0x07 stStopping else s1
  | 8 =>
    let on := latePages.filter fun p => s1.pageSt p == stOn
    let s2 := on.foldl (fun (s : State) p => s.blockStop p (pageStop p)) s1
    { s2 with pow := { s2.pow with slept := on } }
  | 10 => if s1.memOn then s1.setPageSt 0x07 stStopping else s1
  | 0x82 => if s1.pageSt 0x07 = stHeld then s1.setPageSt 0x07 stStarting else s1
  | 0x83 =>
    let s2 := { s1 with mem := { s1.mem with tlb := [] } }.rebuildLocked
    if s2.pageSt 0x05 = stHeld then s2.setPageSt 0x05 (if s2.enableReq 0x05 then stStarting else stOff) else s2
  | _ => s1

/-- A request completes (R558, R570). -/
def State.powDone (s : State) (st : Status) : State :=
  if s.cmdDone 0 Fld.PWR_STATE_STS_STATUS then s else (s.finishCmd 0 Fld.PWR_STATE_STS_STATUS st).pwrIrq 2

/-- STATE and TARGET read a state, and no transition runs. -/
def State.restIn (s : State) (st : Nat) : State :=
  let s1 := (((s.setF 0 Fld.PWR_STATE_STATE st).setF 0 Fld.PWR_STATE_TARGET st).setFlag 0 Fld.PWR_STATE_BUSY false).setF 0
    Fld.PWR_STATE_STEP 0
  { s1 with pow := { s1.pow with viaHold := false, woken := false, off := false } }

/-- An exit begins with the regulator stage. -/
def State.beginExit (s : State) : State :=
  let s1 := { s with pow := { s.pow with viaHold := false, woken := false } }
  ((s1.setF 0 Fld.PWR_STATE_TARGET 0).setFlag 0 Fld.PWR_STATE_BUSY true).enterStep 0x80

/-- An entry begins: TARGET and STEP are set, and IRQ STATE is raised. Step 1 of a Sleep or Off entry ends challenges and a debug
session (R604, R621). -/
def State.beginEntry (s : State) (target : Nat) (off : Bool) : State :=
  let via := s.pst == 1
  let s1 := { s with pow := { s.pow with off := off, viaHold := via, woken := false, asked := false } }
  let s2 := ((s1.setF 0 Fld.PWR_STATE_TARGET target).setFlag 0 Fld.PWR_STATE_BUSY true).enterStep (if via then 0x80 else 1)
  (if target = 2 then (s2.lapseAll).closeSession else s2).pwrIrq 2

/-- Note a wake in PWR_WAKE_SRC (R561). -/
def State.noteWake (s : State) (src : Nat) : State :=
  let old := if s.pow.woken then s.getF 0 Fld.PWR_WAKE_SRC else 0
  (s.setF 0 Fld.PWR_WAKE_SRC (Nat.lor old (2 ^ src))).pwrIrq 4

/-- A request for a state, outside a transition (R558, R565). -/
def State.powGo (s : State) (op : Nat) : State :=
  let s0 := s.startCmd 0 Fld.PWR_STATE_STS_STATUS
  if op = s.pst then s0.powDone .ok
  else if 2 ≤ op ∧ s.anyLoopActive then s0.powDone .powerStateRefused
  else if s.pst = 0 then s0.beginEntry (Nat.min op 2) (op == 3)
  else if op = 0 then (s0.noteWake 0).beginExit
  else if s.pst = 1 then s0.beginEntry 2 (op == 3)
  else if op = 3 then s0.powerOff 2 false
  else ({ s0 with pow := { s0.pow with recorded := some op } }).beginExit

/-- A transition has ended: a warm reset that waits, or the recorded request, follows (R558, R572). -/
def State.afterTransition (s : State) : State :=
  match s.pow.warm with
  | some c => if s.pst = 0 then s.warmNow c else s.beginExit
  | none => match s.pow.recorded with
    | some op => ({ s with pow := { s.pow with recorded := none } }).powGo op
    | none => s.powDone .ok

/-- An entry is complete: Off, or the state, which a wake leaves again at once (R561, R565). -/
def State.entryDone (s : State) : State :=
  if s.pow.off then s.powerOff 2 false
  else
    let w := s.pow.woken
    let s1 := (s.dspHold).restIn s.ptarget
    if w ∧ s1.pow.asked then s1.beginExit
    else if w then (s1.powDone .ok).beginExit
    else if s1.pow.recorded.isSome then s1.afterTransition
    else (s1.powDone .ok).afterTransition

/-- The state reads ACTIVE: files and blocks follow their requests (R562). -/
def State.exitDone (s : State) : State :=
  let back := s.pow.slept
  let s1 := (s.restIn 0).releaseAll
  let s2 := back.foldl (fun (s : State) p =>
    if s.pageSt p = stOff ∧ s.enableReq p then s.blockStart p (pageStart p) else s) s1
  let s3 := { s2 with pow := { s2.pow with slept := [] } }
  (s3.inputExit.swapWaiting).afterTransition

/-- A wake before the point of no return: the steps taken are undone, newest first, and the device is Active (R559, R561). -/
def State.undo (s : State) : State :=
  let asked := s.pow.asked
  let s1 := if s.pageSt 0x07 = stStopping then s.setPageSt 0x07 stOn else s
  let s2 := s1.pow.slept.foldl (fun (s : State) p => (s.setCtl p {}).setPageSt p stOn) s1
  let s3 := (({ s2 with pow := { s2.pow with slept := [] } }.restIn 0).releaseAll).swapWaiting
  let s4 := ((s3.bump 0 Fld.PWR_ROLLBACK 1).pwrIrq 3).dspResume
  (s4.powDone (if asked then .ok else .cancelled)).afterTransition

/-- A wake during the exit stages with which a Sleep entry from Hold begins: the entry is given up, and the exit goes on. -/
def State.turnBack (s : State) : State :=
  let s1 := { s with pow := { s.pow with viaHold := false, woken := false, off := false } }.setF 0 Fld.PWR_STATE_TARGET 0
  let s2 := (s1.bump 0 Fld.PWR_ROLLBACK 1).pwrIrq 3
  if s.pow.asked then s2 else s2.powDone .cancelled

/-- Whether the point of no return lies ahead. -/
def State.mayUndo (s : State) : Bool :=
  match s.pstep with
  | 6 => s.pageSt 0x07 != stHeld
  | 7 => false
  | 10 => s.pageSt 0x07 != stHeld
  | 11 => false
  | _ => true

/-- Whether the abort point of the step in progress falls at every cycle. -/
def State.cutStep (s : State) : Bool := s.pstep == 3 || s.pstep == 6 || s.pstep == 10

/-- Whether a source is enabled and listed for a state (R563). -/
def State.wakeOn (s : State) (st src : Nat) : Bool :=
  (src == 0 || (decide (src ≤ 8) && bit (s.getF 0 Fld.PWR_WAKE_EN) src)) && (st == 2 || src != 1)

/-- A wake that an entry accepts. -/
def State.wakeEntry (s : State) (src : Nat) (asked : Bool) : State :=
  let p := { s.pow with woken := true, asked := s.pow.asked || asked }
  let s1 : State := { s.noteWake src with pow := p }
  if s1.pstep ≥ 0x80 then s1.turnBack
  else if s1.mayUndo && s1.cutStep then s1.undo
  else s1

/-- A wake event (R561, R563, R566). -/
def State.wakeBy (s : State) (src : Nat) (asked : Bool) : State :=
  if s.pbusy then
    if s.ptarget == 0 || s.pow.off || !s.wakeOn s.ptarget src then s else s.wakeEntry src asked
  else if s.pst == 0 || !s.wakeOn s.pst src then s
  else (s.noteWake src).beginExit

/-! ## Requests (R558) -/

/-- A request while a transition runs: for the state being left, before the point of no return, it is a wake; any other is recorded. -/
def State.powBusy (s : State) (op : Nat) : State :=
  let s0 := s.startCmd 0 Fld.PWR_STATE_STS_STATUS
  if op = s.pst ∧ s.ptarget ≠ 0 ∧ s.mayUndo ∧ !s.pow.off then s0.wakeBy 0 true
  else { s0 with pow := { s0.pow with recorded := some op } }

/-- A write to PWR_STATE_REQ. -/
def State.powWrite (s : State) (fn v : Nat) : State :=
  s.gated fn 0x03 0x044 (
    if !s.isOwner fn then s.recErr 0x03 fn .owned 0x044
    else if resvHit 0x03 0x044 v || decide (4 ≤ opCode v) then
      if s.cmdDone 0 Fld.PWR_STATE_STS_STATUS then (s.startCmd 0 Fld.PWR_STATE_STS_STATUS).powDone .powerMalformed
      else s.recErr 0x03 fn .powerMalformed 0x044
    else if s.pbusy then s.powBusy (opCode v)
    else s.powGo (opCode v))

/-- POWER_REQ_ACTIVE. -/
def execPowerReqActive (fn v : Nat) (s : State) : Out := .next (if opCode v = 0 then s.powWrite fn v else s)

/-- POWER_REQ_HOLD. -/
def execPowerReqHold (fn v : Nat) (s : State) : Out := .next (if opCode v = 1 then s.powWrite fn v else s)

/-- POWER_REQ_SLEEP. -/
def execPowerReqSleep (fn v : Nat) (s : State) : Out := .next (if opCode v = 2 then s.powWrite fn v else s)

/-- POWER_REQ_OFF (R565). -/
def execPowerReqOff (fn v : Nat) (s : State) : Out := .next (if opCode v = 3 then s.powWrite fn v else s)

/-! ## Progress -/

/-- The step in progress ends. -/
def State.stepEnd (s : State) : State :=
  let n := s.pstep
  let s1 := if n = 4 then s.moveStreams (s.ptarget == 2) else if n = 11 then s.sleepLosses else s
  if s1.pow.woken ∧ s1.mayUndo then s1.undo
  else if n = 7 ∨ n = 11 then s1.entryDone
  else s1.enterStep (nextPowStep s1.pow.viaHold s1.ptarget n)

/-- ENTRY_STEP_DONE (R559). -/
def execEntryStepDone (s : State) : Out :=
  .next (if s.pbusy && s.ptarget != 0 && decide (s.pstep < 0x80) && s.powStepReady then s.stepEnd else s)

/-- HOLD_DRAIN_EXPIRY: PWR_HOLD_DRAIN has passed in step 3, and step 4 follows (R559). -/
def execHoldDrainExpiry (s : State) : Out :=
  .next (if s.pbusy && s.ptarget != 0 && s.pstep == 3 && decide (s.pow.stepAt + s.getF 0 Fld.PWR_HOLD_DRAIN * 250 ≤ s.ticks) then
      s.enterStep 4
    else s)

/-- EXIT_STAGE_READY: the ready signal of an exit stage rises (R562). -/
def execExitStageReady (s : State) : Out :=
  .next (if !s.pbusy || decide (s.pstep < 0x80) || !s.powStepReady then s
    else if s.pstep ≠ 0x83 then s.enterStep (s.pstep + 1)
    else if s.pow.viaHold then s.enterStep 4
    else s.exitDone)

/-! ## Warm resets and Arbiter restarts (R572, R581, R630, R661) -/

/-- A warm reset with its cause bit: at once, or after the exit from Hold or Sleep. -/
def State.requestWarm (s : State) (cause : Nat) : State :=
  if s.isOff then s
  else if s.pst = 0 ∧ !s.pbusy then s.warmNow cause
  else
    let s1 := { s with pow := { s.pow with warm := some cause } }
    if s1.pbusy then s1 else s1.beginExit

/-- WARM_RESET (R581, R594). -/
def execWarmReset (fn v : Nat) (s : State) : Out := .next (s.devCmd fn v 1 fun s => s.requestWarm 5)

/-- WARM_RESET_N_ASSERT: a low level past the filter holds the device in warm reset. -/
def execWarmResetNAssert (s : State) : Out :=
  .next (if s.isOff then s else ({ s with rst := { s.rst with pinLow := true } }).requestWarm 4)

/-- WARM_RESET_PIN: the rising edge is the reset event. -/
def execWarmResetPin (s : State) : Out :=
  .next (if !s.rst.pinLow then s else { s with rst := { s.rst with pinLow := false, started := s.ticks } })

/-- ARBITER_RESTART: the third within 1 s is a warm reset. -/
def execArbiterRestart (s : State) : Out :=
  .next (if s.isOff ∨ s.arb.restarting ∨ s.pst = 2 then s
    else
      let l := s.ticks :: s.arb.restarts.filter fun t => decide (s.ticks < t + 250000000)
      let s1 := (s.bump 0 Fld.ARB_RESTARTS 1).logEvent 1 0x01 0xFF 6 0 []
      let s2 := s1.noteFault 8 0
      if l.length < 3 then { s2 with arb := { s2.arb with restarting := true, restarts := l } }
      else ({ s2 with arb := { s2.arb with restarts := [] } }).requestWarm 6)

/-- ARBITER_RESTART_DONE: requests accepted before the restart complete with CANCELLED. -/
def execArbiterRestartDone (s : State) : Out :=
  .next (if !s.arb.restarting then s
    else
      let q := s.arb.mbx
      q.foldl (fun (s : State) fn => s.mbxDone fn .cancelled []) { s with arb := { s.arb with restarting := false } })

end Sys2Proof.Machine
end

