-- ==== Sys2Proof/Machine/Wake.lean ====
section
/-! DEFINITION. Wake events, the alarm, and the events of links and doorbells that can wake (R503, R520, R530, R533, R561, R563). -/

namespace Sys2Proof.Machine

/-- WAKE: a source of R563. -/
def execWakeEv (src : Nat) (s : State) : Out := .next (s.wakeBy src false)

/-! ## Doorbells (R232, R563 bit 6, R566) -/

/-- SQ_DOORBELL: in Hold a write to BAR4 is the PCIE source. -/
def execSqDoorbell (fn q v : Nat) (s : State) : Out :=
  let s1 := s.hostDb fn q (.host (v % 2 ^ 32))
  .next (if s1.pst = 1 ∨ (s1.pbusy && s1.ptarget == 1) then s1.wakeBy 6 false else s1)

/-- CQ_HEAD_DOORBELL. -/
def execCqHeadDoorbell (fn q v : Nat) (s : State) : Out :=
  let s1 := s.hostDb fn q (.head (v % 2 ^ 32))
  .next (if s1.pst = 1 ∨ (s1.pbusy && s1.ptarget == 1) then s1.wakeBy 6 false else s1)

/-! ## Links -/

/-- RING_LINK_UP (R503, R563 bit 2). -/
def execRingLinkUp (port : Nat) (s : State) : Out := .next ((s.ringUp port).wakeBy 2 false)

/-- ETH_LINK_UP (R541, R563 bit 5). -/
def execEthLinkUp (port rate : Nat) (s : State) : Out :=
  .next (if 2 ≤ port then s else (s.ethUp port rate).wakeBy 5 false)

/-! ## Frames -/

/-- Byte `i` of a magic packet to a port's MAC address. -/
def magicByte (port i : Nat) : Byte := if i < 6 then 0xFF#8 else Config.macByte port (i % 6)

/-- Whether a frame carries a magic packet: six bytes of FF and the MAC address sixteen times. -/
def hasMagic (port : Nat) (frame : List Byte) : Bool :=
  let m := (List.range 102).map (magicByte port)
  (List.range frame.length).any fun i => (frame.drop i).take 102 == m

/-- ETH_MAGIC_PACKET (R530, R563 bits 3 and 4). -/
def execEthMagicPacket (port : Nat) (frame : List Byte) (s : State) : Out :=
  .next (if 2 ≤ port ∨ !hasMagic port frame then s else s.wakeBy (3 + port) false)

/-- Whether a frame is a WAKE frame for this device: a good FCS, the EtherType, FTYPE WAKE, and the identifier (R520). -/
def State.wakeFrame (s : State) (f : List Byte) : Bool :=
  decide (64 ≤ f.length) && leField f (f.length - 4) 4 == crc32 (frameBody f) && frEtype f == s.getF 0 Fld.JRG_ETYPE_ETYPE &&
    frType f == 2 && leField f 22 4 == s.getF 0 Fld.JRG_WAKEID

/-- RING_WAKE_FRAME: in wake loopback a frame returns through the port that it came in by, and a matching one wakes the device. -/
def execRingWakeFrame (inPort : Nat) (frame : List Byte) (s : State) : Out :=
  .next (if !s.asleep then s
    else if s.wakeFrame frame then (s.ringSend inPort frame).wakeBy 1 false
    else s.ringSend inPort frame)

/-! ## GPIO (R563 bit 7, R669, R670) -/

/-- The place of a pin in a pair of GPIO registers. -/
def pinFld (off pin : Nat) : Fld := ⟨0x13, off + 4 * (pin / 32), pin % 32, pin % 32⟩

/-- Whether a wake source would be accepted now. -/
def State.wakeTaken (s : State) (src : Nat) : Bool :=
  if s.pbusy then s.ptarget != 0 && !s.pow.off && s.wakeOn s.ptarget src else s.pst != 0 && s.wakeOn s.pst src

/-- GPIO_WAKE: a pin at its wake level; IRQ WAKE is raised when it wakes the device. -/
def execGpioWake (pin : Nat) (s : State) : Out :=
  .next (if 48 ≤ pin then s
    else
      let s1 := s.setF 0 (pinFld 0x050 pin) (s.getF 0 (pinFld 0x060 pin))
      if !s1.flag 0 (pinFld 0x058 pin) || !s1.wakeTaken 7 then s1
      else
        let s2 := match s1.ownerFn with
          | some p => s1.raiseIrq 0x13 p 0
          | none => s1
        s2.wakeBy 7 false)

/-! ## The alarm (R533, R563 bit 8) -/

/-- The alarm fires where the timebase has reached it. -/
def State.alarmDue (s : State) : State :=
  match s.time.alarm with
  | none => s
  | some t => if s.now < t then s else (({ s with time := { s.time with alarm := none } }).timeIrq 0).wakeBy 8 false

/-- TIMEBASE_ALARM. -/
def execTimebaseAlarm (s : State) : Out := .next s.alarmDue

/-- ALARM_ARM: a write to TMB_ALARM_HI; an alarm in the past fires at once. -/
def execAlarmArm (fn v : Nat) (s : State) : Out :=
  .next (s.gated fn 0x04 Fld.TMB_ALARM_HI.off (
    if !s.isOwner fn then s.recErr 0x04 fn .owned Fld.TMB_ALARM_HI.off
    else
      let s1 := s.setF 0 Fld.TMB_ALARM_HI (v % 2 ^ 32)
      ({ s1 with time := { s1.time with alarm := some (s1.get64 0 Fld.TMB_ALARM_LO Fld.TMB_ALARM_HI) } }).alarmDue))

end Sys2Proof.Machine
end

