-- ==== Sys2Proof/Machine/Periph.lean ====
section
/-! DEFINITION. The peripheral controllers (R529, R669, R670) and the states of the CSI-2 ports (R375). -/

namespace Sys2Proof.Machine

/-! ## Controllers -/

/-- Function bound to a controller, whether it is enabled, and its ring. -/
def State.perFn (s : State) (c : Nat) : Nat := s.getF (perBank c) Fld.GPI_PER_CFG_FUNC
def State.perOn (s : State) (c : Nat) : Bool := decide (c < 14) && s.flag (perBank c) Fld.GPI_PER_CFG_EN && s.serves 0x13
def State.perHead (s : State) (c : Nat) : Nat := s.getF (perBank c) Fld.GPI_PER_HEAD
def State.perTail (s : State) (c : Nat) : Nat := s.getF (perBank c) Fld.GPI_PER_TAIL
def State.perSize (s : State) (c : Nat) : Nat := 2 ^ s.getF (perBank c) Fld.GPI_PER_CFG_SZ
def State.perVa (s : State) (c : Nat) : Nat :=
  s.va52 (perBank c) Fld.GPI_PER_RING_LO Fld.GPI_PER_RING_HI + 64 * (s.perHead c % s.perSize c)

/-- Whether a function may write a controller's registers: the owner, and the function bound. -/
def State.perMay (s : State) (fn c : Nat) : Bool := s.isOwner fn || s.perFn c == fn

/-- PER_TAIL_DOORBELL: a new tail under R233 of the selected controller. -/
def execPerTailDoorbell (fn v : Nat) (s : State) : Out :=
  let c := s.getF 0 Fld.GPI_PER_SEL_CTRL
  let t := v % 2 ^ 32
  let h := s.perHead c
  .next (s.gated fn 0x13 0x090 (
    if !s.perMay fn c then s.recErr 0x13 fn .owned 0x090
    else if sub32 t h ≤ sub32 (s.perTail c) h then s
    else if sub32 t h ≤ s.perSize c then s.setF (perBank c) Fld.GPI_PER_TAIL t
    else s.badTail fn 0x13 0x090))

/-! ## Descriptors (R670) -/

/-- Fields of a descriptor. -/
def pdOp (d : List Byte) : Nat := leField d 0 1
def pdAddr (d : List Byte) : Nat := leField d 4 4
def pdWlen (d : List Byte) : Nat := leField d 8 2
def pdRlen (d : List Byte) : Nat := leField d 10 2
def pdTmo (d : List Byte) : Nat := leField d 12 4
def pdVa (d : List Byte) : Nat := leField d 16 8

/-- Whether ADDR is laid out for a controller's kind: I2C, SPI, UART, CAN. -/
def pdAddrOk (c a : Nat) : Bool :=
  if c < 4 then decide (a < 128) else if c < 8 then decide (a < 2) else if c < 12 then a == 0 else !bit a 29

/-- Whether a descriptor is malformed. -/
def pdBad (c : Nat) (d : List Byte) : Bool :=
  decide (pdOp d < 1) || decide (3 < pdOp d) || decide (256 < pdWlen d) || decide (256 < pdRlen d) || !zeroRange d 24 8 ||
    !zeroRange d 48 16 || !pdAddrOk c (pdAddr d)

/-- The descriptor that runs: the one taken, or the one at the head; a ring that cannot be read gives none (R163). -/
def State.perDesc (s : State) (c : Nat) : State × Option (List Byte) :=
  match (s.per c).desc with
  | some d => (s, some d)
  | none => match s.vaRead (s.perFn c) .engine (s.perVa c) 64 with
    | (s1, .ok d) => (s1.setPer c { s1.per c with desc := some d, data := [], outcome := none }, some d)
    | (s1, .error _) => (s1, none)

/-- The outcome of a descriptor: status, CAUSE and bytes received. -/
def State.perOut (s : State) (c : Nat) (st : Status) (cause n : Nat) : State :=
  s.setPer c { s.per c with outcome := some (st, cause, n) }

/-- What the bus gives: a CAUSE of 0 to 4, which no command states, so it is a free value (log entry 37). -/
def State.perBus (s : State) (c n : Nat) : State :=
  let cause := (Config.free s.free 8).toNat % 5
  s.drawFree.perOut c (if cause = 0 then .ok else .timeout) cause n

/-- A descriptor with an OP runs on an enabled controller; one that is malformed ends whatever its OP. -/
def State.perRun (s : State) (c op : Nat) (f : State → List Byte → State) : State :=
  if !s.perOn c || (s.per c).outcome.isSome || s.perHead c == s.perTail c then s
  else match s.perDesc c with
    | (s1, none) => (s1.setPer c { s1.per c with desc := some (List.replicate 64 0#8) }).perOut c .accessDenied 0 0
    | (s1, some d) => if pdBad c d then s1.perOut c .entryMalformed 0 0 else if pdOp d ≠ op then s else f s1 d

/-- Send WLEN bytes from the buffer; then go on. -/
def State.perSend (s : State) (c : Nat) (d : List Byte) (f : State → State) : State :=
  match s.vaRead (s.perFn c) .engine (pdVa d) (pdWlen d) with
  | (s1, .ok _) => f s1
  | (s1, .error e) => s1.perOut c (readStatus e) 0 0

/-- The identifier that a CAN frame carries stands before its data: four bytes. -/
def canData (c : Nat) (data : List Byte) : List Byte := if 12 ≤ c then data.drop 4 else data

/-- Receive bytes: a UART READ waits for RLEN bytes, a CAN READ takes one frame, the others RLEN bytes at once. -/
def State.perReceive (s : State) (c : Nat) (d data : List Byte) : State :=
  let x := s.per c
  let got := if 8 ≤ c ∧ c < 12 then (x.data ++ data).take (pdRlen d) else (canData c data).take (pdRlen d)
  let d' := if 12 ≤ c then d.take 4 ++ data.take 4 ++ d.drop 8 else d
  let s1 := s.setPer c { x with data := got, desc := some d' }
  if c < 12 ∧ got.length < pdRlen d then s1
  else match s1.vaWrite (s1.perFn c) .engine (pdVa d + pdWlen d) got with
    | (s2, .ok _) => s2.perBus c got.length
    | (s2, .error e) => s2.perOut c e.status 0 0

/-- PER_WRITE. -/
def execPerWrite (ctrl : Nat) (s : State) : Out :=
  .next (s.perRun ctrl 1 fun s d => s.perSend ctrl d fun s => s.perBus ctrl 0)

/-- PER_READ. -/
def execPerRead (ctrl : Nat) (data : List Byte) (s : State) : Out :=
  .next (s.perRun ctrl 2 fun s d => s.perReceive ctrl d data)

/-- PER_WRITE_READ. -/
def execPerWriteRead (ctrl : Nat) (data : List Byte) (s : State) : Out :=
  .next (s.perRun ctrl 3 fun s d => s.perSend ctrl d fun s => s.perReceive ctrl d data)

/-- PER_TIMEOUT: TMO passes; a UART READ with some bytes received is OK. -/
def execPerTimeout (ctrl : Nat) (s : State) : Out :=
  .next (if !s.perOn ctrl || (s.per ctrl).outcome.isSome || s.perHead ctrl == s.perTail ctrl then s
    else match s.perDesc ctrl with
      | (s1, none) => s1
      | (s1, some d) =>
        let got := (s1.per ctrl).data
        if pdBad ctrl d || pdTmo d == 0 then s
        else if pdOp d = 2 ∧ 8 ≤ ctrl ∧ ctrl < 12 ∧ got ≠ [] then
          match s1.vaWrite (s1.perFn ctrl) .engine (pdVa d + pdWlen d) got with
          | (s2, .ok _) => s2.perOut ctrl .ok 0 got.length
          | (s2, .error e) => s2.perOut ctrl e.status 0 0
        else s1.perOut ctrl .timeout 0 0)

/-- The software stamp of a completing interrupt: its SRC and UNC are not given, nor is a stamp for CAN; free values (R529). During an
Arbiter restart none is taken. -/
def State.perStamp (s : State) (c : Nat) (old : List Byte) : List Byte :=
  if s.arb.restarting then old
  else if 12 ≤ c then (List.range 16).map fun i => Config.free (s.free + i) 8
  else leBytes 8 s.now ++ leBytes 4 (100 + (Config.free s.free 16).toNat % 1901) ++
    leBytes 2 (4096 * (c / 4) + (Config.free (s.free + 1) 12).toNat) ++ [0#8, 0#8]

/-- PERIPHERAL_COMPLETE: the descriptor is written back, the head advances, and PER is raised. -/
def execPeripheralComplete (ctrl : Nat) (s : State) : Out :=
  let x := s.per ctrl
  .next (match x.outcome, x.desc with
    | some (st, cause, n), some d =>
      if !s.perOn ctrl then s
      else
        let b := d.take 1 ++ leBytes 1 cause ++ leBytes 2 st.code ++ (d.take 10).drop 4 ++ leBytes 2 n ++ (d.take 32).drop 12 ++
          s.perStamp ctrl ((d.take 48).drop 32) ++ d.drop 48
        let s1 := ({ s with free := s.free + 16 }.vaWrite (s.perFn ctrl) .engine (s.perVa ctrl) b).1
        let s2 := (s1.setF (perBank ctrl) Fld.GPI_PER_HEAD (add32 (s1.perHead ctrl) 1)).setPer ctrl {}
        s2.raiseIrq 0x13 (s2.perFn ctrl) 1
    | _, _ => s)

/-! ## CSI-2 ports (R375) -/

/-- CSI_PORT_STATE_CHANGE: off, stop state, deskew, receiving. -/
def execCsiPortStateChange (port st : Nat) (s : State) : Out :=
  let f := Fld.CSI_PORTn_STS_STATE.plus (4 * port)
  .next (if 4 ≤ port ∨ 4 ≤ st ∨ s.getF 0 f = st then s
    else
      let s1 := s.setF 0 f st
      match s1.ownerFn with
      | some p => s1.raiseIrq 0x12 p 0
      | none => s1)

end Sys2Proof.Machine
end

