-- ==== Sys2Proof/Machine/RegRead.lean ====
section
/-! DEFINITION. What a read of a register returns: the header of R675, the registers that show live state, and what other functions
see (R5, R8, R671 to R680). -/

namespace Sys2Proof.Machine

/-! ## The header (R675) -/

/-- Number of IRQ bits of a page: the rules that R679 names under "Header IRQ". -/
def irqBits (page : Nat) : Nat :=
  match mapPage page with
  | 0x00 => 5 | 0x01 => 4 | 0x02 => 6 | 0x03 => 8 | 0x04 => 6 | 0x05 => 6 | 0x06 => 5 | 0x07 => 6 | 0x09 => 8 | 0x0A => 6
  | 0x0B => 6 | 0x0C => 4 | 0x0D => 7 | 0x0E => 6 | 0x0F => 4 | 0x11 => 4 | 0x12 => 4 | 0x13 => 2 | 0x20 => 5 | _ => 0

/-- The bits of a page's IRQ registers that are not reserved. -/
def irqMask (page : Nat) : Nat := 2 ^ irqBits page - 1

/-- Whether a page exists (R674). -/
def pageExists (page : Nat) : Bool := decide (page ≤ 0x13) || (decide (0x20 ≤ page) && decide (page ≤ 0x2F))

/-- ID: block type, instance and stepping 0x10 (R73, R193, R252). -/
def pageId (fn page : Nat) : Nat :=
  let inst := if 0x20 ≤ page then page - 0x20 else if page = 0x05 ∨ page = 0x08 then fn % 256 else 0
  mapPage page * 2 ^ 16 + inst * 2 ^ 8 + 0x10

/-- CAP (R74, R340, R411, R445, R473, R500). -/
def pageCap (page : Nat) : Nat :=
  match mapPage page with
  | 0x09 => 0x00048030 | 0x0B => 0x00400C20 | 0x0C => 0x00100100 | 0x0D => 0x10000020 | 0x0F => 0x00000400
  | 0x20 => 0x00011210 | _ => 0

/-- Offsets of a page's registers with a DONE bit. -/
def doneRegs (page : Nat) : List Nat :=
  match mapPage page with
  | 0x00 => [0x050] | 0x01 => [0x044] | 0x02 => [0x048] | 0x03 => [0x048, 0x050] | 0x04 => [0x05C]
  | 0x05 => [0x048, 0x088, 0x108, 0x1CC] | 0x06 => [0x054] | 0x07 => [0x054] | 0x09 => [0x054] | 0x0A => [0x054]
  | 0x0B => [0x058] | 0x0D => [0x094] | 0x0E => [0x044] | _ => []

/-- Whether a page's command registers are each function's own. -/
def ownCmds (page : Nat) : Bool := page == 1 || page == 2 || page == 5 || page == 6 || page == 8 || page == 0x0E

/-- STS.BUSY: a command or a transition of the block runs. -/
def State.pageBusy (s : State) (fn page : Nat) : Bool :=
  let bank := if ownCmds page then fn else 0
  s.pageSt page == stStarting || s.pageSt page == stStopping ||
    (doneRegs page).any (fun o => !bit (s.getReg bank page o).toNat 15) ||
    (page == 0x08 && s.flag fn Fld.MMU_INVAL_STS_BUSY) || (page == 0x03 && s.flag 0 Fld.PWR_STATE_BUSY)

/-- STS: the state of a page of R676 and of page 0x07; ON on every other. -/
def State.stsWord (s : State) (fn page : Nat) : Nat :=
  (if hasCtl page || page == 0x07 then s.pageSt page else stOn) + (if s.pageBusy fn page then 256 else 0)

/-- Whether a page's block lies in a debug scope (R620). -/
def inScope (scope page : Nat) : Bool :=
  page != 0x02 && page != 0x09 && page != 0x0A &&
    (bit scope 5 || (bit scope 0 && decide (page ≤ 0x01)) || (bit scope 1 && page == 0x05) ||
     (bit scope 2 && decide (0x20 ≤ page)) || (bit scope 3 && decide (0x0B ≤ page) && decide (page ≤ 0x0F)))

/-- LOCK: LOCKDOWN, and SCOPE while a session is open (R620, R623). -/
def State.lockWord (s : State) (page : Nat) : Nat :=
  s.getF 0 (Fld.LOCK_LOCKDOWN.onPage page) +
    (if s.csl.session && !inScope (s.getF 0 Fld.CSL_DBG_SCOPE) page then 2 else 0)

/-- OWNER (R680). -/
def State.ownerWord (s : State) (fn page : Nat) : Nat :=
  match s.pageOwner page fn with
  | some p => p % 64
  | none => 2 ^ 31

/-- A header register. -/
def State.headerWord (s : State) (fn page off : Nat) : Nat :=
  let b := irqBank page fn
  match off with
  | 0x000 => pageId fn page
  | 0x004 => pageCap page
  | 0x008 => if hasCtl page then (if s.enableReq page then 1 else 0) else 1
  | 0x00C => s.stsWord fn page
  | 0x010 => (s.getReg b page 0x010).toNat
  | 0x014 => (s.getReg b page 0x014).toNat
  | 0x018 => (s.getReg b page 0x010 &&& s.getReg b page 0x014).toNat
  | 0x020 => (s.getReg fn page 0x020).toNat
  | 0x024 => (s.getReg fn page 0x024).toNat
  | 0x028 => s.ownerWord fn page
  | 0x02C => s.lockWord page
  | _ => 0

/-! ## Registers that show live state -/

/-- The copy of a register that an access of a function reaches. -/
def State.accBank (s : State) (fn : Nat) (d : RegDesc) : Nat :=
  match d.scope with
  | .one => 0
  | .fn => if d.page = 0x05 ∧ 0x120 ≤ d.off ∧ d.off ≤ 0x128 then setBank fn (s.seqSel fn / 2 ^ 12) else fn
  | .vc => vcBank (s.getF 0 Fld.CSI_VCSEL_VC)
  | .src => srcBank (s.getF 0 Fld.FUS_SRCSEL_SRC)
  | .per => perBank (s.getF 0 Fld.GPI_PER_SEL_CTRL)
  | .port => 700 + fn / 16
  | .region => 0
  | .bqsess => fn

/-- The queue and stream registers of page 0x05 (R252, R253, R288, R289). -/
def State.live05 (s : State) (fn off : Nat) : Option Nat :=
  let Q := s.queue fn (s.getF fn Fld.DSP_QSEL_QUEUE)
  let h := s.seqSel fn
  let x := s.stream fn h
  match off with
  | 0x06C => some (Nat.min 0xFFFF Q.inflight * 2 ^ 16 + Q.errsrc * 16 + Q.st.code)
  | 0x070 => some Q.sqHead
  | 0x074 => some Q.sqTail
  | 0x078 => some Q.cqTail
  | 0x08C => some Q.gen
  | 0x114 => some (x.st.code * 2 ^ 28 + Nat.min 255 x.pend * 2 ^ 20 + (if x.kheld then 2 ^ 19 else 0))
  | 0x118 => some (if x.st = .closed then 0 else x.gen)
  | 0x11C => some (match s.setDecl fn (h / 2 ^ 12) with
    | some d => 2 ^ 31 + (if d.shadow then 2 ^ 30 else 0) + d.slotBlk % 16 * 2 ^ 24 + d.lines % 2 ^ 24
    | none => 0)
  | _ => none

/-- The page counts of page 0x06 (R189). -/
def State.live06 (s : State) (fn off : Nat) : Option Nat :=
  match off with
  | 0x044 => some (s.rsvUsed fn)
  | 0x048 => some (s.rsvPinned fn)
  | 0x04C => some (16384 - s.mem.pages.length)
  | _ => none

/-- Whether a function reads the memory's last-error registers: the owner's, or the one in whose extents the unit lies (R216). -/
def State.seesUnit (s : State) (fn off : Nat) : Bool :=
  s.isOwner fn || s.inExtents fn (bits (s.getReg 0 0x07 off).toNat 25 0 * 512) 512

/-- The last-error registers of page 0x07. -/
def State.live07 (s : State) (fn off : Nat) : Option Nat :=
  match off with
  | 0x090 => if s.seesUnit fn 0x090 then none else some 0
  | 0x094 => if s.seesUnit fn 0x090 then none else some 0
  | 0x098 => if s.seesUnit fn 0x090 then none else some 0
  | 0x09C => if s.seesUnit fn 0x09C then none else some 0
  | 0x0A0 => if s.seesUnit fn 0x09C then none else some 0
  | _ => none

/-- TMP_SLACK: the least slack of the last second, all ones with no loop RUNNING (R501). -/
def State.slackWord (s : State) : Nat :=
  if (List.range 4).any fun l => s.loopSt l == loopRunning then
    ((s.tempo.slacks.filter fun (e : Nat × Nat) => decide (s.ticks < e.1 + 250000000)).map (·.2)).foldl Nat.min 0xFFFFFFFF
  else 0xFFFFFFFF

/-- The live registers of page 0x09; the mailboxes read 0 for functions other than the control-owner's (R500). -/
def State.live09 (s : State) (fn off : Nat) : Option Nat :=
  if off = 0x060 then some (s.cycleNow.getD 0 % 2 ^ 32)
  else if off = 0x064 then some s.slackWord
  else if 0x1000 ≤ off then
    some (if s.isCtlOwner fn then (assocGet 0#32 (s.loop ((off - 0x1000) / 0x100)).mbx (off % 0x100 / 4)).toNat else 0)
  else none

/-- The image windows of page 0x0A read 0 for others (R536). -/
def State.live0A (s : State) (fn off : Nat) : Option Nat := if 0x1000 ≤ off ∧ !s.isCtlOwner fn then some 0 else none

/-- ACTIVE of a ring engine: a context's function reads 0 for a non-owner unless it is its own (R341, R446, R474). -/
def State.activeWord (s : State) (e : RingEng) (fn : Nat) : Nat :=
  let one := fun (ctx : Nat) => match s.task e ctx with
    | some t => 128 + (if s.isOwner fn || t.fn == fn then t.fn % 128 else 0)
    | none => 0
  one 0 * 2 ^ 24 + one 1 * 2 ^ 16

/-- The live registers of page 0x0B: a function sees its own watches (R445). -/
def State.live0B (s : State) (fn off : Nat) : Option Nat :=
  match off with
  | 0x068 => some (s.kVer (bits (s.getReg 0 0x0B 0x064).toNat 8 0))
  | 0x084 => some (s.activeWord knightR fn)
  | 0x090 => some (maskOf ((s.knight.watches.filter fun w => w.2.fn == fn).map (·.1)) * 2 ^ 28)
  | _ => none

/-- The queue and session registers of page 0x0E (R376, R377). -/
def State.live0E (s : State) (fn off : Nat) : Option Nat :=
  let i := s.getF fn Fld.INP_SEL_INDEX
  let isSess := s.flag fn Fld.INP_SEL_KIND
  let q : BatchQ := if !isSess && decide (i < 8) then s.bq (fn * 8 + i) else {}
  let x : Session := if isSess && (s.sess i).fn == fn then s.sess i else {}
  match off with
  | 0x054 => some ((if !q.live then 0 else if q.forming then 1 else if q.hi ≤ q.ready then 2 else 3) * 2 ^ 28 + q.ready % 256 * 2 ^ 16)
  | 0x058 => some q.augTail
  | 0x05C => some (Nat.min 0xFFFF q.bp * 2 ^ 16 + Nat.min 0xFFFF q.skip)
  | 0x060 => some (Nat.min 0xFFFFFFFF q.augId)
  | 0x064 => some x.tail
  | 0x068 => some (x.st * 2 ^ 28 + x.status)
  | 0x06C => some (Nat.min 0xFFFFFFFF x.conc)
  | 0x070 => some (Nat.min 0xFFFFFFFF x.lost)
  | 0x074 => some (s.decLoad % 4096)
  | _ => none

/-- What a register shows that is not as it is stored. -/
def State.liveReg (s : State) (fn page off : Nat) : Option Nat :=
  match mapPage page with
  | 0x01 => if off = 0x044 then some (withBits (s.getReg fn 0x01 0x044).toNat 14 14 (if s.unsupported fn then 1 else 0)) else none
  | 0x02 =>
    if off = 0x040 then some (withBits (s.getReg 0 0x02 0x040).toNat 6 6 (if s.certified then 1 else 0))
    else if off = 0x060 then some (withBits (s.getReg 0 0x02 0x060).toNat 16 0 (s.secsLeft % 2 ^ 17)) else none
  | 0x03 => if off = 0x068 then some (s.kneed % 2 ^ 32) else none
  | 0x04 => if off = 0x040 then some (s.now % 2 ^ 32) else none
  | 0x05 => s.live05 fn off
  | 0x06 => s.live06 fn off
  | 0x07 => s.live07 fn off
  | 0x09 => s.live09 fn off
  | 0x0A => s.live0A fn off
  | 0x0B => s.live0B fn off
  | 0x0C => if off = 0x058 then some (s.activeWord solverR fn) else none
  | 0x0E => s.live0E fn off
  | 0x0F =>
    if off = 0x058 then some (if s.genOk then 1 else 0)
    else if off = 0x05C then some (s.activeWord edgeR fn) else none
  | 0x10 => if off < 0x050 ∧ !s.isOwner fn ∧ (off - 0x040) / 4 ≠ fn / 16 then some 0 else none
  | 0x11 => if 0x50 ≤ 0x40 + off % 0x40 ∧ s.ethFn ((off - 0x040) / 0x40) ≠ fn then some 0 else none
  | 0x20 => if off = 0x088 then some ((s.file (page - 0x20)).perf % 2 ^ 32) else none
  | _ => none

/-- Whether a function may read a register of a file page: the holder's reads all, others ID, CAP, STS, OWNER and FIL_DETOUR (R73,
R85). -/
def State.mayRead (s : State) (fn page off : Nat) : Bool :=
  page < 0x20 || s.holdsFile fn (page - 0x20) || off == 0x000 || off == 0x004 || off == 0x00C || off == 0x028 || off == 0x090

/-- What a read of a register returns, before what the read clears. -/
def State.regWord (s : State) (fn page off : Nat) : Nat :=
  if !s.serves page || !pageExists page || !s.mayRead fn page off then 0
  else if off < 0x040 then s.headerWord fn page off
  else match findReg page off with
    | none => 0
    | some d => match s.liveReg fn page off with
      | some v => v
      | none => (s.getReg (s.accBank fn d) page off &&& ~~~(BitVec.ofNat 32 d.wo)).toNat

/-! ## What a read clears (R5, R6) -/

/-- The counters of page 0x0E that a read clears. -/
def State.clear0E (s : State) (fn off : Nat) : State :=
  let i := s.getF fn Fld.INP_SEL_INDEX
  if s.flag fn Fld.INP_SEL_KIND then
    let x := s.sess i
    if x.fn ≠ fn then s
    else match off with
      | 0x06C => s.setSess i { x with conc := 0 }
      | 0x070 => s.setSess i { x with lost := 0 }
      | _ => s
  else if 8 ≤ i then s
  else
    let q := s.bq (fn * 8 + i)
    match off with
    | 0x05C => s.setBq (fn * 8 + i) { q with bp := 0, skip := 0 }
    | 0x060 => s.setBq (fn * 8 + i) { q with augId := 0 }
    | _ => s

/-- The effect of a read: RC fields clear, where the reader sees them. -/
def State.regClear (s : State) (fn page off : Nat) : State :=
  if !s.serves page || !pageExists page || !s.mayRead fn page off then s
  else if off = 0x020 then s.setReg fn page 0x020 0#32
  else if off < 0x040 then s
  else match findReg page off with
    | none => s
    | some d =>
      if page = 0x0E then s.clear0E fn off
      else if d.rc = 0 ∨ (page = 0x11 ∧ s.ethFn ((off - 0x040) / 0x40) ≠ fn) then s
      else
        let b := s.accBank fn d
        s.setReg b page off (s.getReg b page off &&& ~~~(BitVec.ofNat 32 d.rc))

end Sys2Proof.Machine
end

