-- ==== Sys2Proof/Machine/RegWrite.lean ====
section
/-! DEFINITION. What a write to a register that starts no operation does: who may write it, the locks, reserved bits and ranges, and
what follows from the new value (R5 to R8, R624, R671 to R681 and the maps of the chapters). -/

namespace Sys2Proof.Machine

/-! ## Who may write -/

/-- What a page records for a write that it refuses for the writer's function. -/
def denyStatus (page : Nat) : Status :=
  if page = 0x09 ∨ page = 0x0A ∨ page = 0x11 ∨ 0x20 ≤ page then .accessDenied else .owned

/-- Whether a function may write a block register of a page (R73, R216, R373, R411, R445, R473, R498, R536, R539, R541, R568, R593,
R643, R669); the peripheral registers take the owner and the function that the controller is bound to, GPI_PER_SEL that of the
controller which it selects. -/
def State.mayWrite (s : State) (fn page off v : Nat) : Bool :=
  match mapPage page with
  | 0x00 | 0x03 | 0x04 | 0x07 | 0x0D | 0x12 => s.isOwner fn
  | 0x01 => off != 0x050 || s.isOwner fn
  | 0x09 | 0x0A => s.isCtlOwner fn
  | 0x0B => decide (0x064 ≤ off) || s.isOwner fn
  | 0x0C => (off != 0x05C && off != 0x060) || s.isOwner fn
  | 0x11 => if off % 0x40 = 0 then s.isOwner fn else s.ethFn ((off - 0x040) / 0x40) == fn
  | 0x13 =>
    if off < 0x080 then s.isOwner fn
    else if off = 0x080 then s.perMay fn (v % 16) else s.perMay fn (s.getF 0 Fld.GPI_PER_SEL_CTRL)
  | 0x20 => s.holdsFile fn (page - 0x20)
  | _ => true

/-! ## Values (the field tables of the chapters) -/

/-- What becomes of a value: it is written, the write is ignored without a record, or it is refused with a status. -/
inductive Verdict where
  | ok | ignore
  | refuse (st : Status)
  deriving DecidableEq, Repr, Inhabited

/-- Refuse a value unless it is good. -/
def Verdict.check (good : Bool) (st : Status) : Verdict := if good then .ok else .refuse st

/-- Whether a number lies in a range. -/
def within (lo hi v : Nat) : Bool := decide (lo ≤ v) && decide (v ≤ hi)

/-- PWR_FRAC0, PWR_OPP (R551, R569). -/
def State.value03 (s : State) (off v : Nat) : Verdict :=
  match off with
  | 0x060 => .check ((List.range 4).all fun i => decide (bits v (8 * i + 7) (8 * i) ≤ 100)) .powerMalformed
  | 0x06C => .check (decide (bits v 3 0 ≤ bits v 11 8) && decide (bits v 11 8 ≤ 10) &&
      decide (s.getF 0 Fld.PWR_OPP_KFLOOR ≤ bits v 11 8)) .powerMalformed
  | _ => .ok

/-- The timebase, its triggers and captures (R523, R527, R540). START and PERIOD of an enabled trigger stay. -/
def State.value04 (s : State) (off v : Nat) : Verdict :=
  let n := off % 0x100 / 16
  match off with
  | 0x04C | 0x050 => .check (s.getF 0 Fld.TMB_SRC_STS_SRC == 0) .timeRefused
  | 0x060 => .check (decide (1 ≤ bits v 31 24) && decide (1 ≤ bits v 23 16) && decide (bits v 15 12 ≤ 10) && bits v 9 8 != 3)
      .timeMalformed
  | 0x068 => .check (within 1 500000 v) .timeMalformed
  | _ =>
    if off < 0x100 ∨ 0x200 ≤ off then .ok
    else if off % 16 = 0 then
      let w := bits v 19 0
      .check (w % 4 == 0 && decide (4 ≤ w) && (!bit v 30 || decide (w < s.trgPeriod n))) .timeMalformed
    else if s.flag 0 (Fld.TMB_TRGn_CFG_EN.plus (16 * n)) then .ignore
    else if off % 16 = 12 then .check (v % 4 == 0 && decide (1000 ≤ v)) .timeMalformed
    else .ok

/-- Edge `n` of the attention buckets after a write (R315, R316). -/
def State.attEdges (s : State) (fn off v : Nat) : List Nat :=
  (List.range 16).map fun n => if off = 0x144 + 4 * n then v else (s.getReg fn 0x05 (0x144 + 4 * n)).toNat

/-- Whether edges 0 to `last` rise strictly. -/
def edgesRise (l : List Nat) (last : Nat) : Bool := (List.range last).all fun n => decide (l.getD n 0 < l.getD (n + 1) 0)

/-- Whether any stream of a set is in OUTER or OUT (R289). -/
def State.setOutside (s : State) (fn set : Nat) : Bool :=
  (List.range 4096).any fun i =>
    let st := (s.stream fn (set * 4096 + i)).st
    st == StreamSt.outer || st == StreamSt.out

/-- The Dispatcher's registers (R252, R289, R316). -/
def State.value05 (s : State) (fn off v : Nat) : Verdict :=
  if (0x04C ≤ off ∧ off ≤ 0x05C) ∨ off = 0x064 then
    if (s.queue fn (s.getF fn Fld.DSP_QSEL_QUEUE)).st = .disabled then .ok else .ignore
  else if off = 0x120 ∨ off = 0x124 then .check (!s.setOutside fn (s.seqSel fn / 2 ^ 12)) .streamRefused
  else if off = 0x140 then
    .check (within 16 4096 (bits v 28 16) && edgesRise (s.attEdges fn off v) (bits v 7 4)) .attMalformed
  else if 0x144 ≤ off ∧ off ≤ 0x180 then
    let last := bits (s.getReg fn 0x05 0x140).toNat 7 4
    .check (v % 32 == 0 && within 32 1048576 v && (decide (last < (off - 0x144) / 4) || edgesRise (s.attEdges fn off v) last))
      .attMalformed
  else .ok

/-- The memory controller's settings (R217). -/
def value07 (off v : Nat) : Verdict :=
  match off with
  | 0x044 => .check (decide (1 ≤ v)) .malformed
  | 0x04C => .check (decide (1 ≤ bits v 15 8) && decide (1 ≤ bits v 7 0)) .malformed
  | _ => .ok

/-- Tempo's settings (R500, R501). -/
def State.value09 (s : State) (off v : Nat) : Verdict :=
  if off ≤ 0x04C then
    if s.anyLoopActive then .refuse .tempoRefused
    else if off = 0x040 then .check (within 62500 4000000 v && v % 4 == 0) .tempoMalformed
    else if off = 0x04C then .check (within 1000 (s.getF 0 Fld.TMP_CYCLE) v) .tempoMalformed
    else .ok
  else if off = 0x070 then .check (within 1 65536 (bits v 16 0)) .tempoMalformed
  else if off < 0x100 ∨ 0x200 ≤ off then .ok
  else match off % 0x40 with
    | 0x00 => .check (within 1 64 (bits v 7 0) && decide (bits v 13 8 < bits v 7 0)) .tempoMalformed
    | 0x08 => .check (decide (2 ≤ bits v 31 24) && decide (4 ≤ bits v 11 0)) .tempoMalformed
    | _ => .ok

/-- The registers of a descriptor ring (R341, R446, R474). -/
def State.ringValue (s : State) (e : RingEng) (fn off v : Nat) (bad : Status) : Verdict :=
  if s.getF fn e.done ≠ s.getF fn e.tail then .refuse bad
  else if off ≠ e.reg + 8 then .ok
  else if bits v 5 4 = 3 ∨ (bits v 5 4 = 2 ∧ (s.partKFiles fn).isEmpty) then .refuse .accessDenied
  else .check (within 4 12 (bits v 3 0) || (!bit v 31 && e.page != 0x0B)) bad

/-- Knight's map, ring and watch registers (R446); VOX as an FP32 code. -/
def State.value0B (s : State) (fn off v : Nat) : Verdict :=
  match off with
  | 0x040 => .check (within 1 8 (bits v 3 0) && within 1 8 (bits v 7 4) && within 1 8 (bits v 11 8)) .planMalformed
  | 0x044 => .check (within 0x3BA3D70A 0x3F800000 v) .planMalformed
  | 0x088 => .check (decide (v ≤ 1000000)) .planMalformed
  | 0x06C | 0x070 | 0x074 => s.ringValue knightR fn off v .planMalformed
  | _ => .ok

/-- Whether a calibration problem runs or waits (R467). -/
def State.calRuns (s : State) : Bool := s.solver.cal || s.solver.eng.tasks.any fun t => t.2.fn == 64

/-- The Solver engine's registers (R474); SLV_CAL stays while a calibration problem runs (R471). -/
def State.value0C (s : State) (fn off v : Nat) : Verdict :=
  if off = 0x05C ∨ off = 0x060 then .check (!s.calRuns) .solverMalformed
  else if off ≤ 0x048 then s.ringValue solverR fn off v .solverMalformed else .ok

/-- Fusion's settings (R411, R412): the VA of a ring stays while its EN is 1, and so does SZ. -/
def State.value0D (s : State) (off v : Nat) : Verdict :=
  let src := srcBank (s.getF 0 Fld.FUS_SRCSEL_SRC)
  let good := match off with
    | 0x044 => within 100 1000000 v
    | 0x050 | 0x054 => !s.flag 0 Fld.FUS_OUT_CFG_EN
    | 0x060 | 0x064 => !s.flag 0 Fld.FUS_EVT_CFG_EN
    | 0x078 | 0x07C => !s.flag src Fld.FUS_SRC_CFG_EN
    | 0x058 => within 1 10 (bits v 23 20) && decide (bits v 12 0 ≤ 4096) &&
        (!s.flag 0 Fld.FUS_OUT_CFG_EN || bits v 23 20 == s.getF 0 Fld.FUS_OUT_CFG_SZ)
    | 0x068 => within 4 12 (bits v 3 0) && (!s.flag 0 Fld.FUS_EVT_CFG_EN || bits v 3 0 == s.getF 0 Fld.FUS_EVT_CFG_SZ)
    | 0x074 => within 4 12 (bits v 3 0) && (!s.flag src Fld.FUS_SRC_CFG_EN || bits v 3 0 == s.getF src Fld.FUS_SRC_CFG_SZ)
    | _ => true
  .check good .fusionMalformed

/-- The capture ports and channels (R345, R374). -/
def value12 (off v : Nat) : Verdict :=
  let good :=
    if off ≤ 0x04C then within 8 450 (bits v 18 8) && [1, 2, 4].contains (bits v 2 0)
    else if off = 0x064 then [0x2A, 0x2B, 0x2C, 0x2D, 0x2E, 0x1E, 0x24].contains (bits v 19 14)
    else if off = 0x068 then within 2 8192 (bits v 31 16) && within 16 8192 (bits v 15 0) && v % 2 == 0
    else true
  .check good .inputMalformed

/-- The peripheral controllers (R669): ring registers and SZ stay while EN is 1. -/
def State.value13 (s : State) (off v : Nat) : Verdict :=
  let b := perBank (s.getF 0 Fld.GPI_PER_SEL_CTRL)
  let on := s.flag b Fld.GPI_PER_CFG_EN
  let good := match off with
    | 0x080 => decide (v < 14)
    | 0x084 => if on then bits v 27 24 == s.getF b Fld.GPI_PER_CFG_SZ else !bit v 31 || within 4 10 (bits v 27 24)
    | 0x088 | 0x08C => !on
    | _ => true
  .check good .entryMalformed

/-- What becomes of a value written to a register. -/
def State.verdict (s : State) (fn page off v : Nat) : Verdict :=
  match mapPage page with
  | 0x00 => if off = 0x110 then .check (within 1 3600 v) .arbMalformed else .ok
  | 0x01 => if off = 0x050 then .check (within 0x08 0x77 (bits v 6 0)) .arbMalformed else .ok
  | 0x03 => s.value03 off v
  | 0x04 => s.value04 off v
  | 0x05 => s.value05 fn off v
  | 0x07 => value07 off v
  | 0x09 => s.value09 off v
  | 0x0A => if off = 0x044 then .check (decide (0x600 ≤ v)) .ringMalformed else .ok
  | 0x0B => s.value0B fn off v
  | 0x0C => s.value0C fn off v
  | 0x0D => s.value0D off v
  | 0x0F => s.ringValue edgeR fn off v .edgeMalformed
  | 0x12 => value12 off v
  | 0x13 => s.value13 off v
  | 0x20 => if off = 0x058 ∧ 12 ≤ v then .ignore else .ok
  | _ => .ok

/-! ## What follows -/

/-- Fields that keep their value although the register is written: DIV and PHASE of an active loop (R501), and FUNC of a controller
written by its bound function (R669). -/
def State.keepMask (s : State) (fn page off : Nat) : Nat :=
  if page = 0x09 ∧ 0x100 ≤ off ∧ off < 0x200 ∧ off % 0x40 = 0 ∧ s.loopActive ((off - 0x100) / 0x40) then 0x3FFF
  else if page = 0x13 ∧ off = 0x084 ∧ !s.isOwner fn then 0x3F0000
  else 0

/-- EN of a trigger (R527). -/
def State.trgWritten (s : State) (n : Nat) (was : Bool) : State :=
  let on := s.flag 0 (Fld.TMB_TRGn_CFG_EN.plus (16 * n))
  if on && !was then s.armTrigger n
  else if was && !on then s.setTrigger n { s.trigger n with next := none }
  else s

/-- MOD and TIMEOUT of the selected queue take effect at once (R252). -/
def State.qsetWritten (s : State) (fn off v : Nat) : State :=
  let q := s.getF fn Fld.DSP_QSEL_QUEUE
  let Q := s.queue fn q
  if Q.st = .disabled then s
  else if off = 0x060 then s.setQueue fn q { Q with modCount := bits v 7 0, modTime := bits v 25 16 }
  else if off = 0x068 then s.setQueue fn q { Q with timeout := v }
  else s

/-- EN of a source: written 1 it starts, or leaves ERROR; written 0 it is off (R385, R400, R412). -/
def State.srcWritten (s : State) (was : Bool) : State :=
  let n := s.getF 0 Fld.FUS_SRCSEL_SRC
  if s.srcOn n then
    let s1 := s.setSrcState n 1
    if was then s1 else s1.setFusSrc n { s1.fusSrc n with base := none, delays := [] }
  else s.setSrcState n 0

/-- EN of a peripheral controller written 0: the running descriptor completes without write-back (R670). -/
def State.perWritten (s : State) (was : Bool) : State :=
  let c := s.getF 0 Fld.GPI_PER_SEL_CTRL
  if was && !s.flag (perBank c) Fld.GPI_PER_CFG_EN then
    let s1 := if (s.per c).desc.isSome then s.setF (perBank c) Fld.GPI_PER_HEAD (add32 (s.perHead c) 1) else s
    s1.setPer c {}
  else s

/-- What follows from a register's new value; `old` is what the register held. -/
def State.written (s : State) (fn page off old v : Nat) : State :=
  match mapPage page with
  | 0x04 =>
    if off = 0x060 then s.genChange 2
    else if 0x100 ≤ off ∧ off < 0x200 ∧ off % 16 = 0 then s.trgWritten ((off - 0x100) / 16) (bit old 31)
    else s
  | 0x05 => s.qsetWritten fn off v
  | 0x09 =>
    if 0x1000 ≤ off then
      let l := (off - 0x1000) / 0x100
      let x := s.loop l
      s.setLoop l { x with staged := assocInsert (off % 0x100 / 4) (BitVec.ofNat 32 v) x.staged }
    else s
  | 0x0B => if off = 0x040 ∧ bit old 12 ≠ bit v 12 then s.unkobsChanged else s
  | 0x0D => if off = 0x074 then s.srcWritten (bit old 31) else s
  | 0x13 => if off = 0x084 then s.perWritten (bit old 31) else s
  | _ => s

/-- The bits of a register that a write sets. -/
def RegDesc.writable (d : RegDesc) : Nat := d.rw ||| d.wo

/-- `new` in the bits of a mask, `old` elsewhere. -/
def mergeBits (old new mask : Nat) : Nat :=
  ((BitVec.ofNat 32 old &&& ~~~(BitVec.ofNat 32 mask)) ||| (BitVec.ofNat 32 new &&& BitVec.ofNat 32 mask)).toNat

/-- A change of a port's EN or FUNC first ends what its rings hold (R532). -/
def State.beforeWrite (s : State) (page off new : Nat) : State :=
  if page = 0x11 ∧ off % 0x40 = 0 then
    let p := (off - 0x040) / 0x40
    if s.ethRuns p && (bits new 5 0 != s.ethFn p || !bit new 31) then s.ethCancelPort p else s
  else s

/-- Store a value that the page accepts. A word of the transmit image goes to the ring (R514); a mailbox word is only staged
(R485). -/
def State.storeReg (s : State) (fn page off v mask : Nat) (d : RegDesc) : State :=
  let b := s.accBank fn d
  let old := (s.getReg b page off).toNat
  let new := mergeBits old v mask
  if page = 0x0A ∧ 0x1000 ≤ off then s.txWrite (off - 0x1000) (leBytes 4 v)
  else
    let s1 := s.beforeWrite page off new
    let s2 := if page = 0x09 ∧ 0x1000 ≤ off then s1 else s1.setReg b page off (BitVec.ofNat 32 new)
    s2.written fn page off old new

/-- A write to a block register that starts no operation: a locked field keeps its value and records ACCESS_DENIED, whoever writes it
(R7, R624); the rest of the register is refused for the writer's function, for a reserved bit or for its value, in this order (R681). -/
def State.plainWrite (s : State) (fn page off v : Nat) (d : RegDesc) : State :=
  let locked := if s.flag 0 (Fld.LOCK_LOCKDOWN.onPage page) then d.lockable else 0
  let s0 := if locked = 0 then s else s.recErr page fn .accessDenied off
  if !s.mayWrite fn page off v then (if locked = 0 then s.recErr page fn (denyStatus page) off else s0)
  else if d.writable = 0 ∨ (locked ≠ 0 ∧ d.rw = d.lockable) then s0
  else if resvHit page off v then s0.recErr page fn (malformedStatus page off) off
  else match s.verdict fn page off v with
    | .refuse st => s0.recErr page fn st off
    | .ignore => s0
    | .ok =>
      let keep := BitVec.ofNat 32 locked ||| BitVec.ofNat 32 (s.keepMask fn page off)
      s0.storeReg fn page off v (BitVec.ofNat 32 d.writable &&& ~~~keep).toNat d

/-! ## The header (R675, R678) -/

/-- Whether a function's writes to the IRQ registers of a page take effect. -/
def State.irqMay (s : State) (fn page : Nat) : Bool := !irqSingle page || s.pageOwner page fn == some fn

/-- A write to IRQ_RAW, IRQ_EN or IRQ_SET. -/
def State.irqWrite (s : State) (fn page off v : Nat) : State :=
  let b := irqBank page fn
  let m := v % 2 ^ 32 &&& irqMask page
  if !s.irqMay fn page then s.recErr page fn (denyStatus page) off
  else if off = 0x010 then s.setReg b page 0x010 (s.getReg b page 0x010 &&& ~~~(BitVec.ofNat 32 m))
  else if off = 0x01C then s.raiseBits page fn m
  else if v % 2 ^ 32 ≠ m then s.recErr page fn (malformedStatus page off) off
  else
    let raw := s.getReg b page 0x010
    let old := s.getReg b page 0x014
    let s1 := s.setReg b page 0x014 (BitVec.ofNat 32 v)
    if raw &&& BitVec.ofNat 32 v &&& ~~~old ≠ 0#32 then s1.signalPage page fn else s1

/-- A write to a header register or a block register that starts no operation: reserved registers take no write (R8). -/
def State.settingWrite (s : State) (fn page off v : Nat) : State :=
  if !pageExists page then s
  else if off = 0x010 ∨ off = 0x014 ∨ off = 0x01C then s.gated fn page off (s.irqWrite fn page off v)
  else match findReg page off with
    | some d => s.gated fn page off (s.plainWrite fn page off (v % 2 ^ 32) d)
    | none => s

end Sys2Proof.Machine
end

