-- ==== Sys2Proof/Machine/Access.lean ====
section
/-! DEFINITION. Accesses of a host to its windows: BAR0 registers (R671 to R683), the square window BAR2 (R80) and the device-memory
window BAR6 (R672). -/

namespace Sys2Proof.Machine

/-- The state after an answer; a stop leaves the state. -/
def nextOf (s : State) (o : Out) : State :=
  match o with
  | .next t => t
  | _ => s

/-! ## FIL_PERF (R86) -/

/-- FIL_PERF_SEL_WRITE: the counter restarts from 0 on every write. -/
def execFilPerfSelWrite (fn file v : Nat) (s : State) : Out :=
  .next (s.gated fn (filePage file) 0x084 (
    if !s.holdsFile fn file then s.recErr (filePage file) fn .accessDenied 0x084
    else if resvHit (filePage file) 0x084 v then s.recErr (filePage file) fn .malformed 0x084
    else
      let s1 := s.setReg 0 (filePage file) 0x084 (BitVec.ofNat 32 v)
      s1.setFile file { s1.file file with perf := 0 }))

/-- FIL_PERF_LO_READ: the low word, with bits [47:32] latched into FIL_PERF_HI. -/
def execFilPerfLoRead (fn file : Nat) (s : State) : Out :=
  .next (if !s.serves (filePage file) || !s.holdsFile fn file then { s with readData := 0 }
    else { s.setReg 0 (filePage file) 0x08C (BitVec.ofNat 32 ((s.file file).perf / 2 ^ 32 % 2 ^ 16)) with
      readData := (s.file file).perf % 2 ^ 32 })

/-! ## IRQ_SET and UNKOBS -/

/-- IRQ_SET: bits of IRQ_RAW are set as hardware events set them (R678). -/
def execIrqSet (fn page v : Nat) (s : State) : Out :=
  .next (if pageExists page then s.gated fn page 0x01C (s.irqWrite fn page 0x01C v) else s)

/-- A write of KNT_MAP_CFG; a change of UNKOBS rebuilds clearance and advances every version (R445). -/
def State.mapCfgWrite (s : State) (fn v : Nat) : State := s.settingWrite fn 0x0B 0x040 v

/-- KNT_UNKOBS_WRITE (R445). -/
def execKntUnkobsWrite (fn v : Nat) (s : State) : Out := .next (s.mapCfgWrite fn v)

/-! ## CTL (R675, R676, R683) -/

/-- Whether a function's CTL writes are accepted, and what they record otherwise. -/
def State.ctlMay (s : State) (fn page : Nat) : Bool :=
  if 0x20 ≤ page then s.holdsFile fn (page - 0x20) else if page = 0x09 ∨ page = 0x0A then s.isCtlOwner fn else s.isOwner fn

/-- RESET of a page; the Input pipeline and the ring have no row for it. -/
def State.ctlReset (s : State) (fn page : Nat) : State :=
  match mapPage page with
  | 0x05 => nextOf s (execDispatcherReset fn s)
  | 0x09 => nextOf s (execTempoReset fn s)
  | 0x0B => nextOf s (execKnightReset fn s)
  | 0x0C => nextOf s (execSolverReset fn s)
  | 0x0D => nextOf s (execFusionReset fn s)
  | 0x0F => nextOf s (execEdgeReset fn s)
  | 0x20 => nextOf s (execFileReset fn (page - 0x20) s)
  | _ => s.ctlWrite fn page (s.ctlMay fn page) (denyStatus page) s

/-- QUIESCE of a page. -/
def State.ctlQuiesce (s : State) (fn page : Nat) : State :=
  match mapPage page with
  | 0x05 => nextOf s (execDispatcherQuiesce fn s)
  | 0x09 => nextOf s (execTempoQuiesce fn s)
  | 0x0A => nextOf s (execRingQuiesce fn s)
  | 0x0B => nextOf s (execKnightQuiesce fn s)
  | 0x0C => nextOf s (execSolverQuiesce fn s)
  | 0x0D => nextOf s (execFusionQuiesce fn s)
  | 0x0E => nextOf s (execInputQuiesce fn s)
  | 0x0F => nextOf s (execEdgeQuiesce fn s)
  | _ => nextOf s (execFileQuiesce fn (page - 0x20) s)

/-- ENABLE of a page. -/
def State.ctlEnable (s : State) (fn page : Nat) (on : Bool) : State :=
  match mapPage page with
  | 0x05 => nextOf s (execDispatcherEnable fn on s)
  | 0x09 => nextOf s (execTempoEnable fn on s)
  | 0x0A => nextOf s (execRingEnable fn on s)
  | 0x0B => nextOf s (execKnightEnable fn on s)
  | 0x0C => nextOf s (execSolverEnable fn on s)
  | 0x0D => nextOf s (execFusionEnable fn on s)
  | 0x0E => nextOf s (execInputEnable fn on s)
  | 0x0F => nextOf s (execEdgeEnable fn on s)
  | _ => nextOf s (execFileEnable fn (page - 0x20) on s)

/-- A write to CTL: RESET acts alone, then QUIESCE alone, then ENABLE (R683); a reserved bit is refused (R681). -/
def State.ctlAccess (s : State) (fn page v : Nat) : State :=
  if !hasCtl page then s
  else if 8 ≤ v then s.ctlWrite fn page (s.ctlMay fn page) (denyStatus page) (s.recErr page fn (malformedStatus page 0x008) 0x008)
  else if bit v 1 then s.ctlReset fn page
  else if bit v 2 then s.ctlQuiesce fn page
  else s.ctlEnable fn page (bit v 0)

/-! ## Registers that start an operation -/

/-- DEV_CMD by its OP; an unknown OP is malformed (R594). -/
def State.write00 (s : State) (fn v : Nat) : State :=
  match opCode v with
  | 1 => nextOf s (execWarmReset fn v s)
  | 2 => nextOf s (execBoardReset fn v s)
  | 3 => nextOf s (execComputeReset fn v s)
  | 4 => nextOf s (execBistCmd fn v s)
  | 5 => nextOf s (execReplayEnter fn v s)
  | 6 => nextOf s (execReplayExit fn v s)
  | op => s.devCmd fn (op * 2 ^ 28 + 2 ^ 8) op fun s => s

/-- CSL_RCV_CTL by its OP. -/
def State.write02 (s : State) (fn v : Nat) : State :=
  match opCode v with
  | 1 => nextOf s (execRcvStart fn v s)
  | 2 => nextOf s (execRcvChunk fn v s)
  | _ => s.rcvGated fn 0x0A0 false (s.rcvStatus .cslMalformed)

/-- DSP_SEQ_CMD by its OP. -/
def State.write05s (s : State) (fn v : Nat) : State :=
  match opCode v with
  | 1 => nextOf s (execStreamOpen fn v s)
  | 2 => nextOf s (execStreamClose fn v s)
  | 3 => nextOf s (execStreamPark fn v s)
  | 4 => nextOf s (execStreamUnpark fn v s)
  | 5 => nextOf s (execStreamSreset fn v s)
  | 6 => nextOf s (execStreamSsave fn v s)
  | 7 => nextOf s (execStreamSload fn v s)
  | op => s.seqCmd fn v op (s, .seqMalformed)

/-- DSP_IMG_CMD by its OP. -/
def State.write05i (s : State) (fn v : Nat) : State :=
  match opCode v with
  | 1 => nextOf s (execImageLoad fn v s)
  | 2 => nextOf s (execImageUnload fn v s)
  | 3 => nextOf s (execImageReplace fn v s)
  | op => s.imgCmd fn v op (s, some .imageRejected)

/-- The Dispatcher's registers that start an operation. -/
def State.write05 (s : State) (fn off v : Nat) : Option State :=
  match off with
  | 0x040 => some (nextOf s (execDspQselWrite fn v s))
  | 0x044 => some (s.gated fn 0x05 0x044 (s.qcmd fn v))
  | 0x084 => some (nextOf s (execDspCancel fn v s))
  | 0x104 => some (s.write05s fn v)
  | 0x1C8 => some (s.write05i fn v)
  | _ => none

/-- MEM_CMD by its OP. -/
def State.write07 (s : State) (fn v : Nat) : State :=
  match opCode v with
  | 1 => nextOf s (execMemRetire fn v s)
  | 2 => nextOf s (execMemUnretire fn v s)
  | 3 => nextOf s (execMemRetrain fn v s)
  | op => s.memCmd fn v op (s, some .malformed)

/-- TMP_CMD by its OP. -/
def State.write09 (s : State) (fn v : Nat) : State :=
  match opCode v with
  | 1 => nextOf s (execTempoLoad fn v s)
  | 2 => nextOf s (execTempoStart fn v s)
  | 3 => nextOf s (execTempoStop fn v s)
  | 4 => nextOf s (execTempoSelectPrimary fn v s)
  | 5 => nextOf s (execTempoSelectSafe fn v s)
  | 6 => nextOf s (execTempoInject fn v s)
  | 7 => nextOf s (execTempoInjstop fn v s)
  | 8 => nextOf s (execTempoCapstart fn v s)
  | 9 => nextOf s (execTempoCapstop fn v s)
  | 10 => nextOf s (execTempoUnload fn v s)
  | op => s.pageCmd fn 0x09 0x050 v op (s.isCtlOwner fn) .accessDenied 0 Fld.TMP_CMD_STS_STATUS (some 0) (s, .tempoMalformed)

/-- JRG_CMD by its OP. -/
def State.write0A (s : State) (fn v : Nat) : State :=
  match opCode v with
  | 1 => nextOf s (execRingLoad fn v s)
  | 2 => nextOf s (execRingAcyc fn v s)
  | op => s.ringCmd fn v op (s, .ringMalformed)

/-- KNT_MAP_CMD by its OP. -/
def State.write0B (s : State) (fn v : Nat) : State :=
  match opCode v with
  | 1 => nextOf s (execMapcfg fn v s)
  | 2 => nextOf s (execMapload fn v s)
  | 3 => nextOf s (execMapsave fn v s)
  | 4 => nextOf s (execMapclear fn v s)
  | op => s.pageCmd fn 0x0B 0x054 v op (s.isOwner fn) .owned 0 Fld.KNT_MAP_CMD_STS (some 4) (s, .planMalformed)

/-- FUS_CMD by its OP. -/
def State.write0D (s : State) (fn v : Nat) : State :=
  match opCode v with
  | 1 => nextOf s (execFusionResolve fn v s)
  | 2 => nextOf s (execFusionDroptrk fn v s)
  | 3 => nextOf s (execFusionRebase fn v s)
  | 4 => nextOf s (execFusionCalbatch fn v s)
  | 5 => nextOf s (execFusionCalread fn v s)
  | 6 => nextOf s (execFusionCalwrite fn v s)
  | op => s.pageCmd fn 0x0D 0x090 v op (s.isOwner fn) .owned 0 Fld.FUS_CMD_STS (some 6) (s, .fusionMalformed)

/-- INP_CMD by its OP. -/
def State.write0E (s : State) (fn v : Nat) : State :=
  match opCode v with
  | 1 => nextOf s (execBqCreate fn v s)
  | 2 => nextOf s (execBqDelete fn v s)
  | 3 => nextOf s (execSessOpen fn v s)
  | 4 => nextOf s (execSessClose fn v s)
  | 5 => nextOf s (execSessReset fn v s)
  | op => s.inpCmd fn v op (s, .inputMalformed)

/-- The registers of a port of page 0x11 that start an operation. -/
def State.write11 (s : State) (fn off v : Nat) : Option State :=
  let p := (off - 0x040) / 0x40
  if off < 0x040 ∨ 0x0A0 < off then none
  else match off % 0x40 with
    | 0x0C => some (nextOf s (execEthPbLoad fn p v s))
    | 0x10 => some (nextOf s (execEthTxDoorbell fn p v s))
    | 0x14 => some (nextOf s (execEthRxDoorbell fn p v s))
    | _ => none

/-- The operation that a register's write starts: those of pages 0x00 to 0x08. -/
def State.startLow (s : State) (fn page off v : Nat) : Option State :=
  match page, off with
  | 0x00, 0x04C => some (s.write00 fn v)
  | 0x01, 0x040 => some (nextOf s (execArbMbxGo fn v s))
  | 0x02, 0x044 => some (s.cslWrite fn v)
  | 0x02, 0x0A0 => some (s.write02 fn v)
  | 0x03, 0x044 => some (s.powWrite fn v)
  | 0x03, 0x04C => some (nextOf s (execPowerGrant fn v s))
  | 0x03, 0x064 => some (nextOf s (execFractionCommit fn v s))
  | 0x04, 0x058 => some (nextOf s (execTimebaseStep fn v s))
  | 0x04, 0x080 => some (nextOf s (execAlarmArm fn v s))
  | 0x06, 0x050 => some (s.gated fn 0x06 0x050 (s.rsvCmd fn v))
  | 0x06, 0x06C => some (nextOf s (execRsvFbvCtlWrite fn v s))
  | 0x07, 0x050 => some (s.write07 fn v)
  | 0x08, 0x04C => some (nextOf s (execMmuInval fn v s))
  | 0x05, _ => s.write05 fn off v
  | 0x02, _ => if 0x8000 ≤ off then some (nextOf s (execRcvWindowWrite fn (off - 0x8000) v s)) else none
  | _, _ => none

/-- Those of pages 0x09 to 0x13 and of the file pages. -/
def State.startHigh (s : State) (fn page off v : Nat) : Option State :=
  match mapPage page, off with
  | 0x09, 0x050 => some (s.write09 fn v)
  | 0x09, 0x090 => some (nextOf s (execTempoMailboxCommit fn v s))
  | 0x0A, 0x040 => some (nextOf s (execRingModeWrite fn v s))
  | 0x0A, 0x050 => some (s.write0A fn v)
  | 0x0B, 0x054 => some (s.write0B fn v)
  | 0x0B, 0x078 => some (nextOf s (execKnightTailDoorbell fn v s))
  | 0x0B, 0x08C => some (nextOf s (execKnightWatchEndCmd fn v s))
  | 0x0C, 0x04C => some (nextOf s (execSolverTailDoorbell fn v s))
  | 0x0D, 0x04C => some (nextOf s (execFusionPbLoad fn v s))
  | 0x0D, 0x084 => some (nextOf s (execFusionSrcPbLoad fn v s))
  | 0x0D, 0x090 => some (s.write0D fn v)
  | 0x0E, 0x040 => some (s.write0E fn v)
  | 0x0E, 0x058 => some (nextOf s (execAugTailDoorbell fn v s))
  | 0x0E, 0x064 => some (nextOf s (execSessTailDoorbell fn v s))
  | 0x0F, 0x04C => some (nextOf s (execEdgeTailDoorbell fn v s))
  | 0x12, 0x070 => some (nextOf s (execCsiPbArm fn v s))
  | 0x13, 0x090 => some (nextOf s (execPerTailDoorbell fn v s))
  | 0x20, 0x084 => some (nextOf s (execFilPerfSelWrite fn (page - 0x20) v s))
  | 0x0D, _ => if 0x100 ≤ off ∧ off ≤ 0x17C then some (nextOf s (execFusTailWrite fn ((off - 0x100) / 4) v s)) else none
  | 0x11, _ => s.write11 fn off v
  | _, _ => none

/-- A 4-byte write to a register. -/
def State.regWrite (s : State) (fn page off v : Nat) : State :=
  if off = 0x008 then s.ctlAccess fn page v
  else match (if page ≤ 0x08 then s.startLow fn page off v else s.startHigh fn page off v) with
    | some t => t
    | none => s.settingWrite fn page off v

/-- A 4-byte read of a register: what it returns, and the state after it. -/
def State.regRead (s : State) (fn page off : Nat) : Nat × State :=
  let special : Option State :=
    match mapPage page, off with
    | 0x04, 0x040 => some (nextOf s (execTmbTimeLoRead fn s))
    | 0x05, 0x0B4 => some (nextOf s (execDspStatLoRead fn s))
    | 0x20, 0x088 => some (nextOf s (execFilPerfLoRead fn (page - 0x20) s))
    | 0x04, _ => if 0x200 ≤ off ∧ off < 0x300 ∧ off % 16 = 4 then some (nextOf s (execTmbCapLoRead fn ((off - 0x200) / 16) s)) else none
    | _, _ => none
  match special with
  | some t => (t.readData, t)
  | none => (s.regWord fn page off, s.regClear fn page off)

/-! ## BAR0 accesses (R673) -/

/-- Whether an access is one that BAR0 performs: 4 bytes or 8 bytes, aligned. -/
def accessOk (addr width : Nat) : Bool := (width == 4 && addr % 4 == 0) || (width == 8 && addr % 8 == 0)

/-- REGISTER_WRITE: one write, or two for an 8-byte access, the lower address first (R673, R681). -/
def execRegisterWrite (fn addr width v : Nat) (s : State) : Out :=
  .next (
    if !accessOk addr width then s
    else
      let s1 := s.regWrite fn (addr / 0x10000) (addr % 0x10000) (v % 2 ^ 32)
      if width = 4 then s1 else s1.regWrite fn (addr / 0x10000) (addr % 0x10000 + 4) (v / 2 ^ 32 % 2 ^ 32))

/-- RC_READ: a read of a register; RC fields return their value and then clear (R5, R6, R673). -/
def execRcRead (fn addr width : Nat) (s : State) : Out :=
  .next (
    if !accessOk addr width then { s with readData := 0 }
    else
      let r := s.regRead fn (addr / 0x10000) (addr % 0x10000)
      let t := { r.2 with readData := r.1 }
      if width = 4 then t
      else
        let r2 := t.regRead fn (addr / 0x10000) (addr % 0x10000 + 4)
        { r2.2 with readData := r.1 + 2 ^ 32 * r2.1 })

/-! ## BAR2 (R80, R671) -/

/-- Record a refused BAR2 access: WIN, RANK and the window offset (R80, R675). -/
def State.recWin (s : State) (fn sq off : Nat) : State :=
  let page := filePage (sqFile sq)
  (s.recErr page fn .accessDenied off).setF fn (Fld.ERR_INFO.onPage page)
    (off % 2 ^ 16 + 2 ^ 16 + sqRank sq * 2 ^ 17 + 2 ^ 24 * (fn % 64))

/-- Whether a square is in service (R80). -/
def State.sqServes (s : State) (sq : Nat) : Bool :=
  s.pageSt (filePage (sqFile sq)) == stOn &&
    (s.sqSt sq == sqIdle || s.sqSt sq == sqRunning || s.sqSt sq == sqPreempting)

/-- BAR2_ACCESS: 4 bytes of a square's store; a line that is poisoned reads a free value (R52, R80). A square that another partition holds
and that is not in service too is judged by its holder, with a record: R80 says both (DESIGN CHOICE, log entry 69). -/
def execBar2Access (fn off : Nat) (wr : Option Nat) (s : State) : Out :=
  let sq := off / 2 ^ 16 % 256
  let a := s.getF 0 (Fld.FIL_WINDOW_POS.onPage (filePage (sqFile sq))) * 2 ^ 16 + off % 2 ^ 16 / 4 * 4
  let none0 := fun (s : State) => if wr.isNone then { s with readData := 0 } else s
  .next (
    if !s.isOwner fn then none0 s
    else
      let other := match s.fileHolder (sqFile sq) with
        | some p => p != fn
        | none => false
      if other then none0 (s.recWin fn sq off)
      else if !s.sqServes sq then none0 s
      else match wr with
        | some v => s.storeWrite sq a (leBytes 4 v)
        | none =>
          let s := s.storeScan sq a 4
          if s.storePoisoned sq a 4 then { s.drawFree with readData := (Config.free s.free 32).toNat }
          else { s with readData := leNat (s.storeRead sq a 4) })

/-! ## BAR6 (R672) -/

/-- The valid extents of a partition, as first address and size in bytes, EXT0 to EXT3. -/
def State.extents (s : State) (fn : Nat) : List (Nat × Nat) :=
  ((List.range 4).filter fun i => s.flag fn (Fld.MMU_EXTn_BASE_VALID.plus (8 * i))).map fun i =>
    let b := s.getF fn (Fld.MMU_EXTn_BASE_UNIT.plus (8 * i)) * 2 ^ 21
    (b, s.getF fn (Fld.MMU_EXTn_LIMIT_UNIT.plus (8 * i)) * 2 ^ 21 - b)

/-- The pieces of an access of `n` bytes at a window offset: offset within the access, device-physical address, and length. -/
def winPieces : List (Nat × Nat) → Nat → Nat → List (Nat × Nat × Nat)
  | [], _, _ => []
  | (b, size) :: rest, off, n =>
    if off < size then
      let k := Nat.min n (size - off)
      (0, b + off, k) :: (winPieces rest 0 (n - k)).map fun (p : Nat × Nat × Nat) => (p.1 + k, p.2)
    else winPieces rest (off - size) n

/-- BAR6_ACCESS: bytes beyond the last extent read 0 and drop; a read of poisoned data sets the EP bit, which the model gives above
the data, and returns a free value; a HELD memory reads 0 and drops writes; a channel in training lets the access wait (R206, R210, R213,
R672). -/
def execBar6Access (fn off len : Nat) (wr : Option (List Byte)) (s : State) : Out :=
  let ps := (winPieces (s.extents fn) off (match wr with | some d => d.length | none => len)).filter fun p => p.2.2 != 0
  .next (
    if s.getF 0 Fld.DEV_BOOT_STAGE ≠ 7 then if wr.isNone then { s with readData := 0 } else s
    else if !s.memOn then
      let s1 := if ps.isEmpty then s else s.recErr 0x07 fn .accessDenied 0xFFFF
      if wr.isNone then { s1 with readData := 0 } else s1
    else if ps.any fun p => !s.chanServes (chanOf p.2.1) || !s.chanServes (chanOf (p.2.1 + p.2.2 - 1)) then s
    else match wr with
      | some d => ps.foldl (fun (s : State) p => s.devWrite p.2.1 ((d.drop p.1).take p.2.2)) s
      | none =>
        if ps.any (fun p => s.devPoisoned p.2.1 p.2.2) then
          { s.drawFree with readData := (Config.free s.free (8 * len)).toNat + 2 ^ (8 * len) }
        else
          let b := ps.flatMap fun p => s.devRead p.2.1 p.2.2
          { s with readData := leNat b })

end Sys2Proof.Machine
end

