-- ==== Sys2Proof/Machine/Dispatch.lean ====
section
/-! DEFINITION. What each command does: one arm for each constructor, in the order of spec/opcode_table.json. -/

namespace Sys2Proof.Machine

def exec (i : Instr) (s : State) : Host.Outcome State Fault Refusal :=
  match i with
  | .registerWrite fn addr width v => Sys2Proof.Machine.execRegisterWrite fn addr width v s
  | .rcRead fn addr width => Sys2Proof.Machine.execRcRead fn addr width s
  | .irqSet fn page v => Sys2Proof.Machine.execIrqSet fn page v s
  | .filPerfSelWrite fn file v => Sys2Proof.Machine.execFilPerfSelWrite fn file v s
  | .filPerfLoRead fn file => Sys2Proof.Machine.execFilPerfLoRead fn file s
  | .bar2Access fn off wr => Sys2Proof.Machine.execBar2Access fn off wr s
  | .bar6Access fn off len wr => Sys2Proof.Machine.execBar6Access fn off len wr s
  | .fileEnable fn file on => Sys2Proof.Machine.execFileEnable fn file on s
  | .fileQuiesce fn file => Sys2Proof.Machine.execFileQuiesce fn file s
  | .fileReset fn file => Sys2Proof.Machine.execFileReset fn file s
  | .fileStartDone file => Sys2Proof.Machine.execFileStartDone file s
  | .fileStartTimeout file => Sys2Proof.Machine.execFileStartTimeout file s
  | .fileStopDone file => Sys2Proof.Machine.execFileStopDone file s
  | .squareSelftestDone sq pass => Sys2Proof.Machine.execSquareSelftestDone sq pass s
  | .squareFault sq => Sys2Proof.Machine.execSquareFault sq s
  | .squareStallWatchdog sq => Sys2Proof.Machine.execSquareStallWatchdog sq s
  | .groupPlace job => Sys2Proof.Machine.execGroupPlace job s
  | .preemption job => Sys2Proof.Machine.execPreemption job s
  | .preemptionComplete sq => Sys2Proof.Machine.execPreemptionComplete sq s
  | .groupResume sq => Sys2Proof.Machine.execGroupResume sq s
  | .groupMove g => Sys2Proof.Machine.execGroupMove g s
  | .flitRetry file => Sys2Proof.Machine.execFlitRetry file s
  | .linkFailed file link east => Sys2Proof.Machine.execLinkFailed file link east s
  | .nop g l => Sys2Proof.Machine.execNop g l s
  | .mov g l => Sys2Proof.Machine.execMov g l s
  | .movi g l => Sys2Proof.Machine.execMovi g l s
  | .sel g l => Sys2Proof.Machine.execSel g l s
  | .iadd g l => Sys2Proof.Machine.execIadd g l s
  | .iaddi g l => Sys2Proof.Machine.execIaddi g l s
  | .isub g l => Sys2Proof.Machine.execIsub g l s
  | .imul g l => Sys2Proof.Machine.execImul g l s
  | .imulh g l => Sys2Proof.Machine.execImulh g l s
  | .imad g l => Sys2Proof.Machine.execImad g l s
  | .idiv g l => Sys2Proof.Machine.execIdiv g l s
  | .irem g l => Sys2Proof.Machine.execIrem g l s
  | .imin g l => Sys2Proof.Machine.execImin g l s
  | .imax g l => Sys2Proof.Machine.execImax g l s
  | .iabs g l => Sys2Proof.Machine.execIabs g l s
  | .ineg g l => Sys2Proof.Machine.execIneg g l s
  | .andB g l => Sys2Proof.Machine.execAndB g l s
  | .orB g l => Sys2Proof.Machine.execOrB g l s
  | .xorB g l => Sys2Proof.Machine.execXorB g l s
  | .notB g l => Sys2Proof.Machine.execNotB g l s
  | .andi g l => Sys2Proof.Machine.execAndi g l s
  | .ori g l => Sys2Proof.Machine.execOri g l s
  | .xori g l => Sys2Proof.Machine.execXori g l s
  | .shl g l => Sys2Proof.Machine.execShl g l s
  | .shr g l => Sys2Proof.Machine.execShr g l s
  | .sar g l => Sys2Proof.Machine.execSar g l s
  | .shli g l => Sys2Proof.Machine.execShli g l s
  | .shri g l => Sys2Proof.Machine.execShri g l s
  | .sari g l => Sys2Proof.Machine.execSari g l s
  | .popc g l => Sys2Proof.Machine.execPopc g l s
  | .clz g l => Sys2Proof.Machine.execClz g l s
  | .brev g l => Sys2Proof.Machine.execBrev g l s
  | .bfe g l => Sys2Proof.Machine.execBfe g l s
  | .bfi g l => Sys2Proof.Machine.execBfi g l s
  | .isetp g l => Sys2Proof.Machine.execIsetp g l s
  | .plop g l => Sys2Proof.Machine.execPlop g l s
  | .psave g l => Sys2Proof.Machine.execPsave g l s
  | .pload g l => Sys2Proof.Machine.execPload g l s
  | .shfl g l => Sys2Proof.Machine.execShfl g l s
  | .shflx g l => Sys2Proof.Machine.execShflx g l s
  | .voteany g l => Sys2Proof.Machine.execVoteany g l s
  | .voteall g l => Sys2Proof.Machine.execVoteall g l s
  | .ballot g l => Sys2Proof.Machine.execBallot g l s
  | .redux g l => Sys2Proof.Machine.execRedux g l s
  | .sreg g l => Sys2Proof.Machine.execSreg g l s
  | .timeR g l => Sys2Proof.Machine.execTimeR g l s
  | .clk g l => Sys2Proof.Machine.execClk g l s
  | .t2u g l => Sys2Proof.Machine.execT2u g l s
  | .fadd g l => Sys2Proof.Machine.execFadd g l s
  | .fsub g l => Sys2Proof.Machine.execFsub g l s
  | .fmul g l => Sys2Proof.Machine.execFmul g l s
  | .ffma g l => Sys2Proof.Machine.execFfma g l s
  | .fmin g l => Sys2Proof.Machine.execFmin g l s
  | .fmax g l => Sys2Proof.Machine.execFmax g l s
  | .fabs g l => Sys2Proof.Machine.execFabs g l s
  | .fneg g l => Sys2Proof.Machine.execFneg g l s
  | .fsetp g l => Sys2Proof.Machine.execFsetp g l s
  | .faddi g l => Sys2Proof.Machine.execFaddi g l s
  | .fmuli g l => Sys2Proof.Machine.execFmuli g l s
  | .rcp g l => Sys2Proof.Machine.execRcp g l s
  | .rsq g l => Sys2Proof.Machine.execRsq g l s
  | .sqrt g l => Sys2Proof.Machine.execSqrt g l s
  | .exp2 g l => Sys2Proof.Machine.execExp2 g l s
  | .log2 g l => Sys2Proof.Machine.execLog2 g l s
  | .sin g l => Sys2Proof.Machine.execSin g l s
  | .cos g l => Sys2Proof.Machine.execCos g l s
  | .tanh g l => Sys2Proof.Machine.execTanh g l s
  | .fdiv g l => Sys2Proof.Machine.execFdiv g l s
  | .fscl g l => Sys2Proof.Machine.execFscl g l s
  | .cvt g l => Sys2Proof.Machine.execCvt g l s
  | .cvtpk g l => Sys2Proof.Machine.execCvtpk g l s
  | .cvtup g l => Sys2Proof.Machine.execCvtup g l s
  | .lds g l => Sys2Proof.Machine.execLds g l s
  | .sts g l => Sys2Proof.Machine.execSts g l s
  | .ldg g l => Sys2Proof.Machine.execLdg g l s
  | .stg g l => Sys2Proof.Machine.execStg g l s
  | .ats g l => Sys2Proof.Machine.execAts g l s
  | .atg g l => Sys2Proof.Machine.execAtg g l s
  | .mma g l => Sys2Proof.Machine.execMma g l s
  | .mmasp g l => Sys2Proof.Machine.execMmasp g l s
  | .mld g l => Sys2Proof.Machine.execMld g l s
  | .drn g l => Sys2Proof.Machine.execDrn g l s
  | .tmv g l => Sys2Proof.Machine.execTmv g l s
  | .twait g l => Sys2Proof.Machine.execTwait g l s
  | .ttest g l => Sys2Proof.Machine.execTtest g l s
  | .ewait g l => Sys2Proof.Machine.execEwait g l s
  | .bar g l => Sys2Proof.Machine.execBar g l s
  | .fence g l => Sys2Proof.Machine.execFence g l s
  | .semw g l => Sys2Proof.Machine.execSemw g l s
  | .semwTimeout g l => Sys2Proof.Machine.execSemwTimeout g l s
  | .semp g l => Sys2Proof.Machine.execSemp g l s
  | .bndy g l => Sys2Proof.Machine.execBndy g l s
  | .bra g l => Sys2Proof.Machine.execBra g l s
  | .brx g l => Sys2Proof.Machine.execBrx g l s
  | .callB g l => Sys2Proof.Machine.execCallB g l s
  | .retB g l => Sys2Proof.Machine.execRetB g l s
  | .exitL g l => Sys2Proof.Machine.execExitL g l s
  | .trap g l => Sys2Proof.Machine.execTrap g l s
  | .matrixStep sq => Sys2Proof.Machine.execMatrixStep sq s
  | .gateDrain sq => Sys2Proof.Machine.execGateDrain sq s
  | .moverFetch sq mv => Sys2Proof.Machine.execMoverFetch sq mv s
  | .moverStore sq mv => Sys2Proof.Machine.execMoverStore sq mv s
  | .moverBcastStore sq mv => Sys2Proof.Machine.execMoverBcastStore sq mv s
  | .moverPrefetch sq mv => Sys2Proof.Machine.execMoverPrefetch sq mv s
  | .moverUnpin sq mv => Sys2Proof.Machine.execMoverUnpin sq mv s
  | .moverInval sq mv => Sys2Proof.Machine.execMoverInval sq mv s
  | .tileArrival sq mv tile => Sys2Proof.Machine.execTileArrival sq mv tile s
  | .tileDeadlineExpiry sq mv => Sys2Proof.Machine.execTileDeadlineExpiry sq mv s
  | .moverDescriptorComplete sq mv => Sys2Proof.Machine.execMoverDescriptorComplete sq mv s
  | .rsvAlloc fn v => Sys2Proof.Machine.execRsvAlloc fn v s
  | .rsvFree fn v => Sys2Proof.Machine.execRsvFree fn v s
  | .rsvUnpinAll fn v => Sys2Proof.Machine.execRsvUnpinAll fn v s
  | .rsvInvalAll fn v => Sys2Proof.Machine.execRsvInvalAll fn v s
  | .rsvFbvCtlWrite fn v => Sys2Proof.Machine.execRsvFbvCtlWrite fn v s
  | .mmuInval fn v => Sys2Proof.Machine.execMmuInval fn v s
  | .mmuInvalComplete fn => Sys2Proof.Machine.execMmuInvalComplete fn s
  | .memRead pa errs => Sys2Proof.Machine.execMemRead pa errs s
  | .memWrite pa data errs => Sys2Proof.Machine.execMemWrite pa data errs s
  | .patrolScrub chan errs => Sys2Proof.Machine.execPatrolScrub chan errs s
  | .demandWriteback unit => Sys2Proof.Machine.execDemandWriteback unit s
  | .autoPinRetire chan pin => Sys2Proof.Machine.execAutoPinRetire chan pin s
  | .memRetire fn v => Sys2Proof.Machine.execMemRetire fn v s
  | .memUnretire fn v => Sys2Proof.Machine.execMemUnretire fn v s
  | .memRetrain fn v => Sys2Proof.Machine.execMemRetrain fn v s
  | .memTracking chan temp => Sys2Proof.Machine.execMemTracking chan temp s
  | .bankRefresh chan bank => Sys2Proof.Machine.execBankRefresh chan bank s
  | .memTempHot chan temp => Sys2Proof.Machine.execMemTempHot chan temp s
  | .memSelfRefreshEntry => Sys2Proof.Machine.execMemSelfRefreshEntry s
  | .memReady => Sys2Proof.Machine.execMemReady s
  | .sqDoorbell fn q v => Sys2Proof.Machine.execSqDoorbell fn q v s
  | .cqHeadDoorbell fn q v => Sys2Proof.Machine.execCqHeadDoorbell fn q v s
  | .entryTake fn q => Sys2Proof.Machine.execEntryTake fn q s
  | .sqLaunch fn q => Sys2Proof.Machine.execSqLaunch fn q s
  | .sqNop fn q => Sys2Proof.Machine.execSqNop fn q s
  | .sqCancel fn q => Sys2Proof.Machine.execSqCancel fn q s
  | .cqIrqTimer fn q => Sys2Proof.Machine.execCqIrqTimer fn q s
  | .jobDeadlineExpiry job => Sys2Proof.Machine.execJobDeadlineExpiry job s
  | .jobRuntimeExpiry job => Sys2Proof.Machine.execJobRuntimeExpiry job s
  | .dspQcmdCreate fn v => Sys2Proof.Machine.execDspQcmdCreate fn v s
  | .dspQcmdDelete fn v => Sys2Proof.Machine.execDspQcmdDelete fn v s
  | .dspQcmdReset fn v => Sys2Proof.Machine.execDspQcmdReset fn v s
  | .queueCmdDone fn => Sys2Proof.Machine.execQueueCmdDone fn s
  | .dspQselWrite fn v => Sys2Proof.Machine.execDspQselWrite fn v s
  | .dspCancel fn v => Sys2Proof.Machine.execDspCancel fn v s
  | .dspStatLoRead fn => Sys2Proof.Machine.execDspStatLoRead fn s
  | .dispatcherEnable fn on => Sys2Proof.Machine.execDispatcherEnable fn on s
  | .dispatcherQuiesce fn => Sys2Proof.Machine.execDispatcherQuiesce fn s
  | .dispatcherReset fn => Sys2Proof.Machine.execDispatcherReset fn s
  | .dispatcherStartDone => Sys2Proof.Machine.execDispatcherStartDone s
  | .dispatcherStopDone => Sys2Proof.Machine.execDispatcherStopDone s
  | .dispatcherCoreFailover core => Sys2Proof.Machine.execDispatcherCoreFailover core s
  | .functionLevelReset fn => Sys2Proof.Machine.execFunctionLevelReset fn s
  | .vfEnableClear port => Sys2Proof.Machine.execVfEnableClear port s
  | .pcieFundamentalReset port => Sys2Proof.Machine.execPcieFundamentalReset port s
  | .seqCallTake job => Sys2Proof.Machine.execSeqCallTake job s
  | .seqCallStart job => Sys2Proof.Machine.execSeqCallStart job s
  | .streamOpen fn v => Sys2Proof.Machine.execStreamOpen fn v s
  | .streamClose fn v => Sys2Proof.Machine.execStreamClose fn v s
  | .streamPark fn v => Sys2Proof.Machine.execStreamPark fn v s
  | .streamUnpark fn v => Sys2Proof.Machine.execStreamUnpark fn v s
  | .streamSreset fn v => Sys2Proof.Machine.execStreamSreset fn v s
  | .streamSsave fn v => Sys2Proof.Machine.execStreamSsave fn v s
  | .streamSload fn v => Sys2Proof.Machine.execStreamSload fn v s
  | .streamIdleSExpiry fn h => Sys2Proof.Machine.execStreamIdleSExpiry fn h s
  | .streamIdleRExpiry fn h => Sys2Proof.Machine.execStreamIdleRExpiry fn h s
  | .streamSwapOutDone fn h => Sys2Proof.Machine.execStreamSwapOutDone fn h s
  | .streamSwapInDone fn h => Sys2Proof.Machine.execStreamSwapInDone fn h s
  | .attAttend job => Sys2Proof.Machine.execAttAttend job s
  | .attAppend job => Sys2Proof.Machine.execAttAppend job s
  | .pageRingConsumed g count => Sys2Proof.Machine.execPageRingConsumed g count s
  | .edgeTailDoorbell fn v => Sys2Proof.Machine.execEdgeTailDoorbell fn v s
  | .edgeConv fn => Sys2Proof.Machine.execEdgeConv fn s
  | .edgeConvt fn => Sys2Proof.Machine.execEdgeConvt fn s
  | .edgeSegmentEnd ctx => Sys2Proof.Machine.execEdgeSegmentEnd ctx s
  | .edgeDescriptorComplete ctx => Sys2Proof.Machine.execEdgeDescriptorComplete ctx s
  | .edgeResidueMismatch ctx => Sys2Proof.Machine.execEdgeResidueMismatch ctx s
  | .edgeThirdMismatch => Sys2Proof.Machine.execEdgeThirdMismatch s
  | .edgeEnable fn on => Sys2Proof.Machine.execEdgeEnable fn on s
  | .edgeQuiesce fn => Sys2Proof.Machine.execEdgeQuiesce fn s
  | .edgeReset fn => Sys2Proof.Machine.execEdgeReset fn s
  | .edgeStartDone => Sys2Proof.Machine.execEdgeStartDone s
  | .edgeStopDone => Sys2Proof.Machine.execEdgeStopDone s
  | .csiFrameStart vc num => Sys2Proof.Machine.execCsiFrameStart vc num s
  | .csiLine vc good data => Sys2Proof.Machine.execCsiLine vc good data s
  | .csiFrameEnd vc num => Sys2Proof.Machine.execCsiFrameEnd vc num s
  | .csiPbArm fn v => Sys2Proof.Machine.execCsiPbArm fn v s
  | .bqCreate fn v => Sys2Proof.Machine.execBqCreate fn v s
  | .bqDelete fn v => Sys2Proof.Machine.execBqDelete fn v s
  | .sessOpen fn v => Sys2Proof.Machine.execSessOpen fn v s
  | .sessClose fn v => Sys2Proof.Machine.execSessClose fn v s
  | .sessReset fn v => Sys2Proof.Machine.execSessReset fn v s
  | .sessTailDoorbell fn v => Sys2Proof.Machine.execSessTailDoorbell fn v s
  | .augTailDoorbell fn v => Sys2Proof.Machine.execAugTailDoorbell fn v s
  | .decodePicture sess => Sys2Proof.Machine.execDecodePicture sess s
  | .decodePictureDone sess concealed => Sys2Proof.Machine.execDecodePictureDone sess concealed s
  | .batchGroupWindowExpiry bq => Sys2Proof.Machine.execBatchGroupWindowExpiry bq s
  | .batchComplete bq => Sys2Proof.Machine.execBatchComplete bq s
  | .bqConsumedPoll bq => Sys2Proof.Machine.execBqConsumedPoll bq s
  | .inputEnable fn on => Sys2Proof.Machine.execInputEnable fn on s
  | .inputQuiesce fn => Sys2Proof.Machine.execInputQuiesce fn s
  | .inputStartDone => Sys2Proof.Machine.execInputStartDone s
  | .inputStopDone => Sys2Proof.Machine.execInputStopDone s
  | .fusTailWrite fn src v => Sys2Proof.Machine.execFusTailWrite fn src v s
  | .fusionTick => Sys2Proof.Machine.execFusionTick s
  | .fusionTickSkipped => Sys2Proof.Machine.execFusionTickSkipped s
  | .occupancyPassDone => Sys2Proof.Machine.execOccupancyPassDone s
  | .fusionSrcPbLoad fn v => Sys2Proof.Machine.execFusionSrcPbLoad fn v s
  | .fusionPbLoad fn v => Sys2Proof.Machine.execFusionPbLoad fn v s
  | .fusionResolve fn v => Sys2Proof.Machine.execFusionResolve fn v s
  | .fusionDroptrk fn v => Sys2Proof.Machine.execFusionDroptrk fn v s
  | .fusionRebase fn v => Sys2Proof.Machine.execFusionRebase fn v s
  | .fusionCalbatch fn v => Sys2Proof.Machine.execFusionCalbatch fn v s
  | .fusionCalread fn v => Sys2Proof.Machine.execFusionCalread fn v s
  | .fusionCalwrite fn v => Sys2Proof.Machine.execFusionCalwrite fn v s
  | .fusionEnable fn on => Sys2Proof.Machine.execFusionEnable fn on s
  | .fusionQuiesce fn => Sys2Proof.Machine.execFusionQuiesce fn s
  | .fusionReset fn => Sys2Proof.Machine.execFusionReset fn s
  | .fusionStartDone => Sys2Proof.Machine.execFusionStartDone s
  | .fusionStopDone => Sys2Proof.Machine.execFusionStopDone s
  | .fusionResidueMismatch => Sys2Proof.Machine.execFusionResidueMismatch s
  | .fusionThirdMismatch => Sys2Proof.Machine.execFusionThirdMismatch s
  | .knightTailDoorbell fn v => Sys2Proof.Machine.execKnightTailDoorbell fn v s
  | .knightPlan fn => Sys2Proof.Machine.execKnightPlan fn s
  | .knightCheck fn => Sys2Proof.Machine.execKnightCheck fn s
  | .knightBatch ctx => Sys2Proof.Machine.execKnightBatch ctx s
  | .knightWatchRecheck slot => Sys2Proof.Machine.execKnightWatchRecheck slot s
  | .knightWatchExpire slot => Sys2Proof.Machine.execKnightWatchExpire slot s
  | .knightWatchEndCmd fn v => Sys2Proof.Machine.execKnightWatchEndCmd fn v s
  | .clearanceUpdateDone => Sys2Proof.Machine.execClearanceUpdateDone s
  | .mapcfg fn v => Sys2Proof.Machine.execMapcfg fn v s
  | .mapload fn v => Sys2Proof.Machine.execMapload fn v s
  | .mapsave fn v => Sys2Proof.Machine.execMapsave fn v s
  | .mapclear fn v => Sys2Proof.Machine.execMapclear fn v s
  | .kntUnkobsWrite fn v => Sys2Proof.Machine.execKntUnkobsWrite fn v s
  | .knightEnable fn on => Sys2Proof.Machine.execKnightEnable fn on s
  | .knightQuiesce fn => Sys2Proof.Machine.execKnightQuiesce fn s
  | .knightReset fn => Sys2Proof.Machine.execKnightReset fn s
  | .knightStartDone => Sys2Proof.Machine.execKnightStartDone s
  | .knightStopDone => Sys2Proof.Machine.execKnightStopDone s
  | .knightResidueMismatch ctx => Sys2Proof.Machine.execKnightResidueMismatch ctx s
  | .knightThirdMismatch => Sys2Proof.Machine.execKnightThirdMismatch s
  | .solverTailDoorbell fn v => Sys2Proof.Machine.execSolverTailDoorbell fn v s
  | .solverSolve fn => Sys2Proof.Machine.execSolverSolve fn s
  | .solverReplay fn => Sys2Proof.Machine.execSolverReplay fn s
  | .solverPanel ctx => Sys2Proof.Machine.execSolverPanel ctx s
  | .solverBudgetExpiry ctx => Sys2Proof.Machine.execSolverBudgetExpiry ctx s
  | .solverProblemComplete ctx => Sys2Proof.Machine.execSolverProblemComplete ctx s
  | .solverEnable fn on => Sys2Proof.Machine.execSolverEnable fn on s
  | .solverQuiesce fn => Sys2Proof.Machine.execSolverQuiesce fn s
  | .solverReset fn => Sys2Proof.Machine.execSolverReset fn s
  | .solverStartDone => Sys2Proof.Machine.execSolverStartDone s
  | .solverStopDone => Sys2Proof.Machine.execSolverStopDone s
  | .solverResidueMismatch ctx => Sys2Proof.Machine.execSolverResidueMismatch ctx s
  | .solverThirdMismatch => Sys2Proof.Machine.execSolverThirdMismatch s
  | .tempoSampleInstant loop => Sys2Proof.Machine.execTempoSampleInstant loop s
  | .tempoCompute loop => Sys2Proof.Machine.execTempoCompute loop s
  | .tempoRttExpiry loop => Sys2Proof.Machine.execTempoRttExpiry loop s
  | .tempoOverrun loop => Sys2Proof.Machine.execTempoOverrun loop s
  | .tempoMissmax loop => Sys2Proof.Machine.execTempoMissmax loop s
  | .tempoMbxStale loop => Sys2Proof.Machine.execTempoMbxStale loop s
  | .tempoMailboxStore fn off data => Sys2Proof.Machine.execTempoMailboxStore fn off data s
  | .tempoMailboxCommit fn v => Sys2Proof.Machine.execTempoMailboxCommit fn v s
  | .tempoLoad fn v => Sys2Proof.Machine.execTempoLoad fn v s
  | .tempoStart fn v => Sys2Proof.Machine.execTempoStart fn v s
  | .tempoStop fn v => Sys2Proof.Machine.execTempoStop fn v s
  | .tempoSelectPrimary fn v => Sys2Proof.Machine.execTempoSelectPrimary fn v s
  | .tempoSelectSafe fn v => Sys2Proof.Machine.execTempoSelectSafe fn v s
  | .tempoInject fn v => Sys2Proof.Machine.execTempoInject fn v s
  | .tempoInjstop fn v => Sys2Proof.Machine.execTempoInjstop fn v s
  | .tempoInjectionEnd loop => Sys2Proof.Machine.execTempoInjectionEnd loop s
  | .tempoCapstart fn v => Sys2Proof.Machine.execTempoCapstart fn v s
  | .tempoCapstop fn v => Sys2Proof.Machine.execTempoCapstop fn v s
  | .tempoUnload fn v => Sys2Proof.Machine.execTempoUnload fn v s
  | .tempoCheckerMismatch loop again => Sys2Proof.Machine.execTempoCheckerMismatch loop again s
  | .tempoThirdMismatch => Sys2Proof.Machine.execTempoThirdMismatch s
  | .tempoEnable fn on => Sys2Proof.Machine.execTempoEnable fn on s
  | .tempoQuiesce fn => Sys2Proof.Machine.execTempoQuiesce fn s
  | .tempoReset fn => Sys2Proof.Machine.execTempoReset fn s
  | .tempoStartDone => Sys2Proof.Machine.execTempoStartDone s
  | .tempoStopDone => Sys2Proof.Machine.execTempoStopDone s
  | .ringCyclicLaunch => Sys2Proof.Machine.execRingCyclicLaunch s
  | .ringCopyReturn port good frame => Sys2Proof.Machine.execRingCopyReturn port good frame s
  | .ringMergeDeadline => Sys2Proof.Machine.execRingMergeDeadline s
  | .ringNodeFrame inPort good frame => Sys2Proof.Machine.execRingNodeFrame inPort good frame s
  | .ringLinkDown port => Sys2Proof.Machine.execRingLinkDown port s
  | .ringLinkUpSettled port => Sys2Proof.Machine.execRingLinkUpSettled port s
  | .ringModeWrite fn v => Sys2Proof.Machine.execRingModeWrite fn v s
  | .ringLoad fn v => Sys2Proof.Machine.execRingLoad fn v s
  | .ringAcyc fn v => Sys2Proof.Machine.execRingAcyc fn v s
  | .ringAcycReturn ret => Sys2Proof.Machine.execRingAcycReturn ret s
  | .ringWakeFrame inPort frame => Sys2Proof.Machine.execRingWakeFrame inPort frame s
  | .ringEnable fn on => Sys2Proof.Machine.execRingEnable fn on s
  | .ringQuiesce fn => Sys2Proof.Machine.execRingQuiesce fn s
  | .ringStartDone => Sys2Proof.Machine.execRingStartDone s
  | .timebaseTick => Sys2Proof.Machine.execTimebaseTick s
  | .tmbTimeLoRead fn => Sys2Proof.Machine.execTmbTimeLoRead fn s
  | .timebaseStep fn v => Sys2Proof.Machine.execTimebaseStep fn v s
  | .timebaseOffset src ofs => Sys2Proof.Machine.execTimebaseOffset src ofs s
  | .timebaseSourceQualified src => Sys2Proof.Machine.execTimebaseSourceQualified src s
  | .timebaseSourceLost => Sys2Proof.Machine.execTimebaseSourceLost s
  | .triggerFire trg => Sys2Proof.Machine.execTriggerFire trg s
  | .captureEdge cap rise => Sys2Proof.Machine.execCaptureEdge cap rise s
  | .tmbCapLoRead fn cap => Sys2Proof.Machine.execTmbCapLoRead fn cap s
  | .timebaseAlarm => Sys2Proof.Machine.execTimebaseAlarm s
  | .alarmArm fn v => Sys2Proof.Machine.execAlarmArm fn v s
  | .ethPbLoad fn port v => Sys2Proof.Machine.execEthPbLoad fn port v s
  | .ethTxDoorbell fn port v => Sys2Proof.Machine.execEthTxDoorbell fn port v s
  | .ethRxDoorbell fn port v => Sys2Proof.Machine.execEthRxDoorbell fn port v s
  | .ethTxComplete port => Sys2Proof.Machine.execEthTxComplete port s
  | .ethFrameRx port frame fcsOk => Sys2Proof.Machine.execEthFrameRx port frame fcsOk s
  | .ethMagicPacket port frame => Sys2Proof.Machine.execEthMagicPacket port frame s
  | .powerGrant fn v => Sys2Proof.Machine.execPowerGrant fn v s
  | .kboundRestore => Sys2Proof.Machine.execKboundRestore s
  | .grantInForce => Sys2Proof.Machine.execGrantInForce s
  | .fractionCommit fn v => Sys2Proof.Machine.execFractionCommit fn v s
  | .powerEvaluation est => Sys2Proof.Machine.execPowerEvaluation est s
  | .powerGuard mw => Sys2Proof.Machine.execPowerGuard mw s
  | .powerRefit => Sys2Proof.Machine.execPowerRefit s
  | .droop file => Sys2Proof.Machine.execDroop file s
  | .oppChangeDone => Sys2Proof.Machine.execOppChangeDone s
  | .thermalLimit sensor temp => Sys2Proof.Machine.execThermalLimit sensor temp s
  | .thermalRelease => Sys2Proof.Machine.execThermalRelease s
  | .thermalTrip => Sys2Proof.Machine.execThermalTrip s
  | .inputBrownout => Sys2Proof.Machine.execInputBrownout s
  | .powerReqActive fn v => Sys2Proof.Machine.execPowerReqActive fn v s
  | .powerReqHold fn v => Sys2Proof.Machine.execPowerReqHold fn v s
  | .powerReqSleep fn v => Sys2Proof.Machine.execPowerReqSleep fn v s
  | .powerReqOff fn v => Sys2Proof.Machine.execPowerReqOff fn v s
  | .holdDrainExpiry => Sys2Proof.Machine.execHoldDrainExpiry s
  | .entryStepDone => Sys2Proof.Machine.execEntryStepDone s
  | .wakeEv src => Sys2Proof.Machine.execWakeEv src s
  | .exitStageReady => Sys2Proof.Machine.execExitStageReady s
  | .gpioWake pin => Sys2Proof.Machine.execGpioWake pin s
  | .coldBoot => Sys2Proof.Machine.execColdBoot s
  | .bootStageReady ok => Sys2Proof.Machine.execBootStageReady ok s
  | .warmReset fn v => Sys2Proof.Machine.execWarmReset fn v s
  | .warmResetPin => Sys2Proof.Machine.execWarmResetPin s
  | .boardReset fn v => Sys2Proof.Machine.execBoardReset fn v s
  | .computeReset fn v => Sys2Proof.Machine.execComputeReset fn v s
  | .bistCmd fn v => Sys2Proof.Machine.execBistCmd fn v s
  | .bistDone failed => Sys2Proof.Machine.execBistDone failed s
  | .replayEnter fn v => Sys2Proof.Machine.execReplayEnter fn v s
  | .replayExit fn v => Sys2Proof.Machine.execReplayExit fn v s
  | .resetStepDone => Sys2Proof.Machine.execResetStepDone s
  | .arbiterRestart => Sys2Proof.Machine.execArbiterRestart s
  | .challenge fn v => Sys2Proof.Machine.execChallenge fn v s
  | .challengeLapse fn => Sys2Proof.Machine.execChallengeLapse fn s
  | .tokenCmd fn v => Sys2Proof.Machine.execTokenCmd fn v s
  | .attest fn v => Sys2Proof.Machine.execAttest fn v s
  | .certread fn v => Sys2Proof.Machine.execCertread fn v s
  | .updateCmd fn v => Sys2Proof.Machine.execUpdateCmd fn v s
  | .arbcommit fn v => Sys2Proof.Machine.execArbcommit fn v s
  | .lockdown fn v => Sys2Proof.Machine.execLockdown fn v s
  | .debugEnd fn v => Sys2Proof.Machine.execDebugEnd fn v s
  | .debugExpiry => Sys2Proof.Machine.execDebugExpiry s
  | .keygen fn v => Sys2Proof.Machine.execKeygen fn v s
  | .signCmd fn v => Sys2Proof.Machine.execSignCmd fn v s
  | .trngHealthFail count => Sys2Proof.Machine.execTrngHealthFail count s
  | .backoffEnd => Sys2Proof.Machine.execBackoffEnd s
  | .rcvStart fn v => Sys2Proof.Machine.execRcvStart fn v s
  | .rcvChunk fn v => Sys2Proof.Machine.execRcvChunk fn v s
  | .rcvWindowWrite fn off v => Sys2Proof.Machine.execRcvWindowWrite fn off v s
  | .arbMbxGo fn v => Sys2Proof.Machine.execArbMbxGo fn v s
  | .hello fn => Sys2Proof.Machine.execHello fn s
  | .releaseOwn fn => Sys2Proof.Machine.execReleaseOwn fn s
  | .configWrite fn => Sys2Proof.Machine.execConfigWrite fn s
  | .configTakeEffect => Sys2Proof.Machine.execConfigTakeEffect s
  | .configRead fn => Sys2Proof.Machine.execConfigRead fn s
  | .sensors fn => Sys2Proof.Machine.execSensors fn s
  | .logRead fn => Sys2Proof.Machine.execLogRead fn s
  | .arbSensorScan vals => Sys2Proof.Machine.execArbSensorScan vals s
  | .mctpMessage msg => Sys2Proof.Machine.execMctpMessage msg s
  | .pcieLinkDown port => Sys2Proof.Machine.execPcieLinkDown port s
  | .pcieLinkUp port speed lanes => Sys2Proof.Machine.execPcieLinkUp port speed lanes s
  | .hostLost port => Sys2Proof.Machine.execHostLost port s
  | .graceExpiry port => Sys2Proof.Machine.execGraceExpiry port s
  | .imageLoad fn v => Sys2Proof.Machine.execImageLoad fn v s
  | .imageUnload fn v => Sys2Proof.Machine.execImageUnload fn v s
  | .imageUnloadDone fn h => Sys2Proof.Machine.execImageUnloadDone fn h s
  | .imageReplace fn v => Sys2Proof.Machine.execImageReplace fn v s
  | .imageReplaceDone fn h => Sys2Proof.Machine.execImageReplaceDone fn h s
  | .perTailDoorbell fn v => Sys2Proof.Machine.execPerTailDoorbell fn v s
  | .perWrite ctrl => Sys2Proof.Machine.execPerWrite ctrl s
  | .perRead ctrl data => Sys2Proof.Machine.execPerRead ctrl data s
  | .perWriteRead ctrl data => Sys2Proof.Machine.execPerWriteRead ctrl data s
  | .perTimeout ctrl => Sys2Proof.Machine.execPerTimeout ctrl s
  | .peripheralComplete ctrl => Sys2Proof.Machine.execPeripheralComplete ctrl s
  | .arbiterRestartDone => Sys2Proof.Machine.execArbiterRestartDone s
  | .ringLinkUp port => Sys2Proof.Machine.execRingLinkUp port s
  | .ethLinkUp port rate => Sys2Proof.Machine.execEthLinkUp port rate s
  | .ethLinkDown port => Sys2Proof.Machine.execEthLinkDown port s
  | .csiPortStateChange port st => Sys2Proof.Machine.execCsiPortStateChange port st s
  | .vinBelow5v => Sys2Proof.Machine.execVinBelow5v s
  | .warmResetNAssert => Sys2Proof.Machine.execWarmResetNAssert s
  | .dispatcherCoreFault core => Sys2Proof.Machine.execDispatcherCoreFault core s
  | .updatePassDone ok => Sys2Proof.Machine.execUpdatePassDone ok s
  | .rcvChunkProgrammed ok => Sys2Proof.Machine.execRcvChunkProgrammed ok s
  | .memRetrainDone ok => Sys2Proof.Machine.execMemRetrainDone ok s
  | .ringStopDone => Sys2Proof.Machine.execRingStopDone s

end Sys2Proof.Machine
end

