-- ==== Sys2Proof/Safety.lean ====
section
/-! DEFINITION. The terms in which statements about the machine are made: a command that completes, registers left alone, register
writes that a page accepts, instructions that a laneset executes, and the canonical form of every byte memory. -/

namespace Sys2Proof.Machine

/-- The command completes: `exec` answers a next state, and `P` holds of it. -/
def Answers (i : Instr) (s : State) (P : State → Prop) : Prop :=
  ∃ t, exec i s = .next t ∧ P t

/-- Every register but those listed, as (copy, page, offset), holds what it held. -/
def RegsKept (s t : State) (l : List (Nat × Nat × Nat)) : Prop :=
  ∀ b p o, (∀ e ∈ l, regKey e.1 e.2.1 e.2.2 ≠ regKey b p o) → t.getReg b p o = s.getReg b p o

/-- The canonical form of the byte memories: device memory, the Reserve, host memory and the square stores. -/
def MemSt.wf (m : MemSt) : Bool := assocWf 0 m.dev && assocWf 0 m.rsv && assocWf 0 m.host && assocWf 0 m.store

/-- What every step keeps: the byte memories keep their canonical form, so that equal memories are equal data. -/
abbrev Inv (s : State) : Prop := s.mem.wf = true

/-! ## Register writes -/

/-- A register write of a function reaches its page: BAR0 serves the page, and the function has a negotiated driver interface or the
page needs none (R574, R632). -/
abbrev Reaches (s : State) (fn page : Nat) : Prop :=
  s.serves page = true ∧ (page = 1 ∨ page = 2 ∨ page = 8 ∨ s.unsupported fn = false)

/-- A write of `v` to a command register starts the operation `op`: it reaches the page, the writer may write, the last operation
is complete, and no reserved bit is set (R681). -/
structure CmdReady (s : State) (fn page off v op : Nat) (may : Bool) (bank : Nat) (sts : Fld) : Prop where
  reach : Reaches s fn page
  op : opCode v = op
  may : may = true
  done : s.cmdDone bank sts = true
  resv : resvHit page off v = false

/-- A command register shows its operation complete with a status. -/
def Completed (t : State) (bank : Nat) (sts : Fld) (st : Status) : Prop :=
  t.getF bank { sts with hi := 31, lo := 16 } = st.code ∧ t.getF bank { sts with hi := 15, lo := 15 } = 1

/-- Pages whose block registers are plain: a write has no effect beyond the register. -/
def plainPages : List Nat := [0x00, 0x01, 0x02, 0x03, 0x06, 0x07, 0x08, 0x0C, 0x0E, 0x0F, 0x12]

/-! ## Instructions -/

/-- A laneset of a group. -/
def State.laneset (s : State) (g l : Nat) : Option Laneset :=
  match s.group g with
  | none => none
  | some x => (x.lanesets.find? fun e => e.1 == l).map (·.2)

/-- A range of a square's store reads without an event: none of its words has wrong bits, and none of its lines is poisoned (R52). -/
def Sound (s : State) (sq off n : Nat) : Prop :=
  (s.mem.storeErrs.filter fun e => (storeWords sq off n).contains e.1) = [] ∧ s.storePoisoned sq off n = false

/-- The lines of a stream's slot read without an event. -/
def SlotSound (s : State) (fn h k : Nat) : Prop :=
  ∀ i, i < s.setLines fn (handleSet h) → Sound s (s.slotPlace fn (handleSet h) k i).1 (s.slotPlace fn (handleSet h) k i).2 64

/-- No stream command of this tick is left to be ordered behind a call that names one of the handles (R283). -/
abbrev NoUndo (s : State) (fn : Nat) (hs : List Nat) : Prop := ∀ u ∈ s.seqUndo, u.tick = s.ticks → u.fn = fn → u.h ∉ hs

/-- Text word `pc` of a group lies in its region and in a sound part of the store (R100, R101). -/
def Fetches (s : State) (c : Ctx) (pc : Nat) : Prop :=
  textOff c.x.nls + 8 * pc + 8 ≤ c.x.size ∧ Sound s c.x.square (c.x.textAt pc) 8

/-- Laneset `l` of group `g` can issue; the instruction it stands at has opcode `op` and can be fetched. -/
structure AtInsn (s : State) (g l op : Nat) (c : Ctx) : Prop where
  ctx : s.ctx g l = some c
  fetch : Fetches s c c.ls.pc
  op : fOP c.w = op

/-- The literal word can be fetched, where the sources name it (R89, R101). -/
def LiteralOk (s : State) (c : Ctx) (srcs : List Reg) : Prop := Ctx.literal srcs = true → Fetches s c (c.ls.pc + 1)

/-- Operand fields A, B and C and the destination field D of Format R, of `n` registers. -/
def Ctx.rA (c : Ctx) (n : Nat) : Reg := { v := fA c.w, u := fAU c.w, n := n }
def Ctx.rB (c : Ctx) (n : Nat) : Reg := { v := fB c.w, u := fBU c.w, n := n }
def Ctx.rC (c : Ctx) (n : Nat) : Reg := { v := fC c.w, u := fCU c.w, n := n }
def Ctx.rD (c : Ctx) (n : Nat) : Reg := { v := fD c.w, u := fDU c.w, n := n }

/-- Operand field A and destination field D of Format I. -/
def Ctx.iA (c : Ctx) : Reg := { v := fA c.w, u := fAUi c.w }
def Ctx.iD (c : Ctx) : Reg := { v := fD c.w, u := fDUi c.w }

/-- Register fields that R95 and R96 accept: no reserved bits, registers below N, aligned pairs. -/
def RegsOk (c : Ctx) (rs : List Reg) : Prop := ∀ r ∈ rs, r.badField = false ∧ r.badReg c.x.nreg = false

/-- No thread register feeds a uniform destination (R95). -/
def NoMix (du : Bool) (srcs : List Reg) : Prop := du = true → ∀ r ∈ srcs, r.u = true ∨ r.none? = true

/-- Sources and a destination that R95 and R96 accept, with the literal word that the sources name. -/
def FieldsOk (s : State) (c : Ctx) (srcs : List Reg) (d : Reg) : Prop :=
  RegsOk c (srcs ++ [d]) ∧ NoMix d.u srcs ∧ LiteralOk s c srcs

/-- Register `k` of a field in a lane. -/
def Laneset.at (ls : Laneset) (lane : Nat) (d : Reg) (k : Nat) : Nat :=
  if d.u then ls.ureg (d.v + k) else ls.reg lane (d.v + k)

/-- The command executes an instruction that writes register field `d`: every lane that executes it, one lane for a uniform
destination, holds `f` there afterwards, the lowest 32 bits in the first register; the other registers, the predicates and the
control stack are as before; the laneset stands past the instruction's words; and `kept` says what else is left alone. -/
def WritesRegIn (kept : State → State → Prop) (i : Instr) (s : State) (c : Ctx) (d : Reg) (words : Nat) (f : Nat → Nat) : Prop :=
  Answers i s fun t => ∃ ls : Laneset,
    t.laneset c.g c.l = some (ls.goto (c.ls.pc + words)) ∧
    (d.none? = false → ∀ lane ∈ c.runLanes d.u, ∀ k, k < d.n → ls.at lane d k = f lane / 2 ^ (32 * k) % 2 ^ 32) ∧
    (∀ lane r, r < 256 → (d.none? = true ∨ d.u = true ∨ lane ∉ c.runLanes d.u ∨ r < d.v ∨ d.v + d.n ≤ r) →
      ls.reg lane r = c.ls.reg lane r) ∧
    (∀ r, r < 64 → (d.u = false ∨ c.lanes = [] ∨ r < d.v ∨ d.v + d.n ≤ r) → ls.ureg r = c.ls.ureg r) ∧
    { ls with regs := c.ls.regs, uregs := c.ls.uregs } = c.ls ∧ kept s t

/-- Nothing outside the group's lanesets changes but the performance counters and the count of free values. -/
def OnlyGroups (s t : State) : Prop := { t with groups := s.groups, files := s.files, free := s.free } = s

/-- An instruction that writes a register field and nothing else. -/
def WritesReg : Instr → State → Ctx → Reg → Nat → (Nat → Nat) → Prop := WritesRegIn OnlyGroups

/-- Instruction `i` of Format R and opcode `op`, with a type that `ty` accepts and a rounding mode up to `rmMax`, writes `f` to field D
wherever `pre` holds; `srcs` are the source fields and `n` the registers of D. -/
def RegInsn (i : Nat → Nat → Instr) (op : Nat) (ty : Ty → Bool) (rmMax : Nat) (srcs : Ctx → Ty → List Reg) (n : Ty → Nat)
    (pre : State → Ctx → Ty → Prop) (f : State → Ctx → Ty → Nat → Nat) : Prop :=
  ∀ s g l c t, AtInsn s g l op c → tyOf (fTY c.w) = some t → ty t = true → fRM c.w ≤ rmMax → bits c.w 3 0 = 0 →
    FieldsOk s c (srcs c t) (c.rD (n t)) → pre s c t →
    WritesReg (i g l) s c (c.rD (n t)) (wordsOf (srcs c t)) (f s c t)

/-- Instruction `i` of Format I and opcode `op` writes `f A IMM` to field D. -/
def ImmInsn (i : Nat → Nat → Instr) (op : Nat) (f : Nat → Nat → Nat) : Prop :=
  ∀ s g l c, AtInsn s g l op c → FieldsOk s c [c.iA] c.iD →
    WritesReg (i g l) s c c.iD (wordsOf [c.iA]) fun lane => f (c.read lane c.iA) (fIMM c.w)

/-- Registers that a type names as an operand. -/
def Ty.regs (t : Ty) : Nat := nOf t.wide

/-- An integer instruction of two sources. -/
def Int2 (i : Nat → Nat → Instr) (op : Nat) (f : Ty → Nat → Nat → Nat) : Prop :=
  RegInsn i op Ty.isInt 3 (fun c t => [c.rA t.regs, c.rB t.regs]) Ty.regs (fun _ _ _ => True)
    fun _ c t lane => f t (c.read lane (c.rA t.regs)) (c.read lane (c.rB t.regs))

/-- An integer instruction of one source, where `ok` holds of the source in every lane. -/
def Int1 (i : Nat → Nat → Instr) (op : Nat) (ok : Ty → Nat → Prop) (f : Ty → Nat → Nat) : Prop :=
  RegInsn i op Ty.isInt 3 (fun c t => [c.rA t.regs]) Ty.regs (fun _ c t => ∀ lane, ok t (c.read lane (c.rA t.regs)))
    fun _ c t lane => f t (c.read lane (c.rA t.regs))

/-- A floating instruction of two sources on FP32, or on both halves of a pair of FP16 or BF16 values. -/
def Fp2 (i : Nat → Nat → Instr) (op : Nat) (f : Nat → FVal → FVal → FVal) : Prop :=
  RegInsn i op fpTy 3 (fun c _ => [c.rA 1, c.rB 1]) (fun _ => 1) (fun _ _ _ => True)
    fun _ c t lane =>
      let one := fun (m : Fmt) (a b : Nat) => m.encode (fRM c.w) 0 (f (fRM c.w) (m.decode a) (m.decode b))
      let a := c.read lane (c.rA 1)
      let b := c.read lane (c.rB 1)
      if t = .fp32 then one fmtFp32 a b
      else one t.arith (a % 2 ^ 16) (b % 2 ^ 16) + 2 ^ 16 * one t.arith (a / 2 ^ 16) (b / 2 ^ 16)

/-- An FP32 instruction of one source. -/
def Fp1 (i : Nat → Nat → Instr) (op : Nat) (f : Nat → Nat → Nat) : Prop :=
  RegInsn i op fp32Ty 3 (fun c _ => [c.rA 1]) (fun _ => 1) (fun _ _ _ => True)
    fun _ c _ lane => f (fRM c.w) (c.read lane (c.rA 1))

/-- The command executes an instruction that sets predicate PD of every executing lane to `f` and leaves every register and the other
predicates; p7 stays true. -/
def WritesPred (i : Instr) (s : State) (c : Ctx) (words : Nat) (f : Nat → Bool) : Prop :=
  Answers i s fun t => ∃ ls : Laneset,
    t.laneset c.g c.l = some (ls.goto (c.ls.pc + words)) ∧
    (∀ lane p, p < 8 → ls.pred lane p = if lane ∈ c.lanes ∧ p = fPD c.w ∧ p ≠ 7 then f lane else c.ls.pred lane p) ∧
    { ls with preds := c.ls.preds } = c.ls ∧
    { t with groups := s.groups, files := s.files } = s

/-! ## Tile movers -/

/-- Mover `mv` of square `sq` is idle and takes descriptor `d`, whose bytes `b` lie in its group's data area, break no rule of R168 and
name store lines in range. -/
structure TakesDesc (s : State) (sq mv : Nat) (d : MovDesc) (rest : List MovDesc) (x : Group) (j : Job) (b : List Byte) : Prop where
  idle : ((s.square sq).mover mv).flight = none
  issued : ((s.square sq).mover mv).issued = d :: rest
  group : s.group d.group = some x
  job : s.job x.job = some j
  plain : d.walk = none ∧ d.taint = false
  bytes : s.regionRead x d.off 64 = b
  on : s.engineOn sq = true
  place : d.off % 64 = 0 ∧ x.covers true (d.off, 64) = true ∧ Sound s sq (x.base + d.off) 64
  good : descBad b = false ∧ storeOk x b = true

/-- Mover `mv` of square `sq` executes `f` for a group and its job, on a square whose engines run. -/
structure InFlight (s : State) (sq mv : Nat) (f : Flight) (x : Group) (j : Job) : Prop where
  flight : ((s.square sq).mover mv).flight = some f
  group : s.group f.d.group = some x
  job : s.job x.job = some j
  on : s.engineOn sq = true

/-! ## Queues and jobs -/

/-- No queue is in ERROR, so that no job is stopped for one (R249). -/
abbrev NoErrors (s : State) : Prop := ∀ e ∈ s.queues, e.2.st ≠ .error

/-- The next completion of a queue can be written: its slot translates, and the memory serves (R228, R231). -/
abbrev CqWrites (s : State) (fn q : Nat) : Prop :=
  s.vaCheck fn ((s.queue fn q).cqBase + 16 * ((s.queue fn q).cqTail % 2 ^ (s.queue fn q).cqsz)) 16 .write = none ∧ s.memOn = true

/-- A queue holds an entry that it has taken, well formed, of operation `opc`; it is not in ERROR. -/
structure HasEntry (s : State) (fn q opc : Nat) (b : List Byte) (i stamp : Nat) : Prop where
  taken : (s.queue fn q).fetched = some (b, i, stamp)
  opc : (parseEntry b).opc = opc
  good : (parseEntry b).malformed = false
  queue : (s.queue fn q).st ≠ .error

/-- A started job whose groups run, and that nothing has stopped. -/
structure Runs (s : State) (id : Nat) (j : Job) : Prop where
  job : s.job id = some j
  st : j.st = .started
  stop : j.stop = none
  groups : s.jobGroups id ≠ []
  running : ∀ e ∈ s.jobGroups id, e.2.st ≠ .suspended
  nodup : (s.groups.map (·.1)).Nodup
  queues : NoErrors s

/-- No LAUNCH waits in the place for the entry that a queue has taken. -/
abbrev NoLaunchTaken (s : State) (fn q : Nat) : Prop :=
  ∀ b i stamp, (s.queue fn q).fetched = some (b, i, stamp) → (parseEntry b).opc ≤ 2 ∧ (parseEntry b).opc ≠ 1

/-- A job's deadline and its run time have not passed (R243). -/
abbrev InTime (s : State) (j : Job) : Prop := j.overdue s.now = false ∧ j.overrun s.ticks = false

/-- A job is to end at the next boundaries of its groups, with a status and DETAIL of tick `tick` (R61, R243, R244). -/
def StopsAtBoundary (s t : State) (id : Nat) (j : Job) (st : Status) (detail tick : Nat) : Prop :=
  t.job id = some { j with stop := some { status := st, detail := detail, tick := tick } } ∧
    ∀ g x, s.group g = some x → x.job = id → t.group g = some { x with stop := true }

/-! ## Resets and power -/

/-- A write of `v` to DEV_CMD by the owner, from READY on, asks for operation `op` with its CONFIRM, and the last operation is complete
(R593 to R595). -/
structure DevCmdReady (s : State) (fn v op : Nat) : Prop where
  reach : Reaches s fn 0x00
  stage : s.getF 0 Fld.DEV_BOOT_STAGE = 7
  code : opCode v = op
  owner : s.isOwner fn = true
  done : s.cmdDone 0 Fld.DEV_CMD_STS_DONE = true
  resv : resvHit 0x00 0x04C v = false
  confirm : bits v 7 0 = if op ≤ 3 then 0xA5 else 0

/-- A write of `v` to PWR_STATE_REQ by the owner asks for state `op` while no transition runs (R558). -/
structure PowReqReady (s : State) (fn v op : Nat) : Prop where
  reach : Reaches s fn 0x03
  code : opCode v = op
  owner : s.isOwner fn = true
  resv : resvHit 0x03 0x044 v = false
  rest : s.pbusy = false

/-- A transition to `target` runs and stands at a step. -/
abbrev Moving (t : State) (target step : Nat) : Prop := t.ptarget = target ∧ t.pbusy = true ∧ t.pstep = step

/-- The device is Off: host memory is not the device's, and nothing else of the memories is left. -/
def IsOff (s t : State) (latched : Bool) : Prop :=
  t.isOff = true ∧ t.rst.latched = latched ∧ t.mem.dev = [] ∧ t.mem.rsv = [] ∧ t.mem.host = s.mem.host ∧ t.groups = [] ∧ t.jobs = [] ∧
    t.queues = []

/-! ## Block pages -/

/-- What has to have ended before a stopping block is OFF. -/
def BlockIdle (s : State) (page : Nat) : Prop :=
  match page with
  | 0x05 => s.groups = []
  | 0x0B => s.knight.eng.tasks = []
  | 0x0C => s.solver.eng.tasks = []
  | 0x0D => s.fusion.pass = none ∧ s.fusion.busyUntil ≤ s.now
  | 0x0E => ∀ e ∈ s.input.caps, e.2.isOpen = false
  | 0x0F => s.edge.eng.tasks = []
  | _ => True

end Sys2Proof.Machine
end

