-- ==== Sys2Proof/Certificates/Slice0/Obligations.lean ====
section
/-! DEFINITION. The statements for the provers. -/

open Sys2Proof Sys2Proof.Machine

/-! ## Ferlith instructions -/

/-- R102, R104: the integer instructions of the thread engine write the wrapped result of their operation to D in every executing
lane; IDIV and IREM by zero give all ones and the dividend. IABS and INEG are stated where the result lies in the type (elsewhere
it is the free value of log entry 13). -/
def Obligations.IntegerArithmeticWritesItsResult : Prop :=
  Int2 .iadd 0x008 (fun _ a b => a + b) ∧
  Int2 .isub 0x00A (fun t a b => a + (2 ^ t.width - b % 2 ^ t.width)) ∧
  Int2 .imul 0x00B (fun _ a b => a * b) ∧
  Int2 .imulh 0x00C (fun t a b => ofSigned t.width (t.toInt a * t.toInt b / 2 ^ t.width)) ∧
  RegInsn .imad 0x00D Ty.isInt 3 (fun c t => [c.rA t.regs, c.rB t.regs, c.rC t.regs]) Ty.regs (fun _ _ _ => True)
    (fun _ c t lane => c.read lane (c.rA t.regs) * c.read lane (c.rB t.regs) + c.read lane (c.rC t.regs)) ∧
  Int2 .idiv 0x00E (fun t a b =>
    if t.toInt b = 0 then 2 ^ t.width - 1 else ofSigned t.width ((t.toInt a).tdiv (t.toInt b))) ∧
  Int2 .irem 0x00F (fun t a b => if t.toInt b = 0 then a else ofSigned t.width ((t.toInt a).tmod (t.toInt b))) ∧
  Int2 .imin 0x010 (fun t a b => ofSigned t.width (min (t.toInt a) (t.toInt b))) ∧
  Int2 .imax 0x011 (fun t a b => ofSigned t.width (max (t.toInt a) (t.toInt b))) ∧
  Int1 .iabs 0x012 (fun t a => ((t.toInt a).natAbs : Int) ≤ t.intRange.2) (fun t a => (t.toInt a).natAbs) ∧
  Int1 .ineg 0x013 (fun t a => t.intRange.1 ≤ -t.toInt a ∧ -t.toInt a ≤ t.intRange.2) (fun t a => ofSigned t.width (-t.toInt a)) ∧
  ImmInsn .iaddi 0x009 (fun a i => a + i)

/-- R102, R104: logic, shifts by a count modulo the width, bit counts and bit fields; bits of a field beyond the register read 0
(R102). -/
def Obligations.LogicAndShiftsWriteTheirResult : Prop :=
  Int2 .andB 0x018 (fun _ a b => a &&& b) ∧
  Int2 .orB 0x019 (fun _ a b => a ||| b) ∧
  Int2 .xorB 0x01A (fun _ a b => a ^^^ b) ∧
  Int1 .notB 0x01B (fun _ _ => True) (fun t a => 2 ^ t.width - 1 - a) ∧
  ImmInsn .andi 0x01C (fun a i => a &&& i) ∧
  ImmInsn .ori 0x01D (fun a i => a ||| i) ∧
  ImmInsn .xori 0x01E (fun a i => a ^^^ i) ∧
  Int2 .shl 0x020 (fun t a b => a * 2 ^ (b % t.width)) ∧
  Int2 .shr 0x021 (fun t a b => a / 2 ^ (b % t.width)) ∧
  Int2 .sar 0x022 (fun t a b => ofSigned t.width (toSigned t.width a / 2 ^ (b % t.width))) ∧
  ImmInsn .shli 0x023 (fun a i => a * 2 ^ (i % 32)) ∧
  ImmInsn .shri 0x024 (fun a i => a / 2 ^ (i % 32)) ∧
  ImmInsn .sari 0x025 (fun a i => ofSigned 32 (toSigned 32 a / 2 ^ (i % 32))) ∧
  Int1 .popc 0x028 (fun _ _ => True) (fun t a => ((List.range t.width).filter fun k => bit a k).length) ∧
  Int1 .clz 0x029 (fun _ _ => True) (fun t a => if a = 0 then t.width else t.width - 1 - Nat.log2 a) ∧
  Int1 .brev 0x02A (fun _ _ => True)
    (fun t a => maskOf (((List.range t.width).filter fun k => bit a k).map fun k => t.width - 1 - k)) ∧
  Int2 .bfe 0x02B (fun t a b =>
    let w := min (b / 256 % 256) t.width
    let v := a / 2 ^ (b % 256) % 2 ^ w
    if t.signed = true ∧ 0 < w then ofSigned t.width (toSigned w v) else v) ∧
  RegInsn .bfi 0x02C Ty.isInt 3 (fun c t => [c.rA t.regs, c.rB t.regs, c.rC t.regs]) Ty.regs (fun _ _ _ => True)
    (fun _ c t lane =>
      let b := c.read lane (c.rB t.regs)
      let m := (2 ^ min (b / 256 % 256) t.width - 1) * 2 ^ (b % 256) % 2 ^ t.width
      (c.read lane (c.rC t.regs) &&& (2 ^ t.width - 1 - m)) ||| (c.read lane (c.rA t.regs) * 2 ^ (b % 256) &&& m))

/-- R99, R102: moves, the selection by a predicate, predicates saved into a register, and the special registers. SREG is stated for
the literals that R99 lists. -/
def Obligations.MovesAndSpecialRegistersWriteTheirValue : Prop :=
  RegInsn .mov 0x001 (fun _ => true) 3 (fun c t => [c.rA t.regs]) Ty.regs (fun _ _ _ => True)
    (fun _ c t lane => c.read lane (c.rA t.regs)) ∧
  (∀ s g l c, AtInsn s g l 0x002 c → FieldsOk s c [] c.iD → WritesReg (.movi g l) s c c.iD 1 fun _ => fIMM c.w) ∧
  RegInsn .sel 0x003 (fun _ => true) 3 (fun c t => [c.rA t.regs, c.rB t.regs]) Ty.regs (fun _ _ _ => True)
    (fun _ c t lane => if c.ls.pred lane (fPD c.w) then c.read lane (c.rA t.regs) else c.read lane (c.rB t.regs)) ∧
  RegInsn .psave 0x039 (fun _ => true) 3 (fun _ _ => []) (fun _ => 1) (fun _ _ _ => True)
    (fun _ c _ lane => maskOf ((List.range 8).filter fun k => c.ls.pred lane k)) ∧
  RegInsn .sreg 0x048 (fun _ => true) 3 (fun _ _ => []) (fun _ => 1) (fun _ c _ => fA c.w ≤ 0x17)
    (fun s c _ lane => (s.sreg c lane (fA c.w)).getD 0) ∧
  (∀ s g l c, AtInsn s g l 0x048 c → fTY c.w ≠ 15 → fRM c.w ≤ 3 → bits c.w 3 0 = 0 → (c.rD 1).badField = false → c.lanes ≠ [] →
    0x17 < fA c.w → exec (.sreg g l) s = .next (s.exRegister c (fA c.w))) ∧
  RegInsn .timeR 0x049 (fun _ => true) 3 (fun _ _ => []) (fun _ => 2) (fun _ _ _ => True) (fun s _ _ _ => s.now) ∧
  RegInsn .clk 0x04A (fun _ => true) 3 (fun _ _ => []) (fun _ => 2) (fun _ _ _ => True)
    (fun s c _ _ => (c.x.ran + (s.fileCyc (sqFile c.x.square) - c.x.start)) / 250) ∧
  (∀ s g l c lane rest, AtInsn s g l 0x04B c → fRM c.w ≤ 3 → bits c.w 3 0 = 0 → fTY c.w ≠ 15 → fD c.w < 64 →
    RegsOk c [c.rA 1] → LiteralOk s c [c.rA 1] → c.lanes = lane :: rest →
    Answers (.t2u g l) s fun t => ∃ ls : Laneset, t.laneset g l = some (ls.goto (c.ls.pc + wordsOf [c.rA 1])) ∧
      ls.ureg (fD c.w) = c.read lane (c.rA 1) ∧ (∀ r, r < 64 → r ≠ fD c.w → ls.ureg r = c.ls.ureg r) ∧
      { ls with uregs := c.ls.uregs } = c.ls ∧ { t with groups := s.groups, files := s.files } = s)

/-- R102 to R104: A of another lane, active or not, the mask of a predicate over the active lanes, and the reductions over them, whose
literal is 0 to 2 and whose result lies in the type. -/
def Obligations.LaneExchangeReadsOtherLanes : Prop :=
  RegInsn .shfl 0x040 (fun _ => true) 3 (fun c t => [c.rA t.regs, c.rB 1]) Ty.regs (fun _ _ _ => True)
    (fun _ c t lane => c.read (c.read lane (c.rB 1) % 32) (c.rA t.regs)) ∧
  RegInsn .shflx 0x041 (fun _ => true) 3 (fun c t => [c.rA t.regs, c.rB 1]) Ty.regs (fun _ _ _ => True)
    (fun _ c t lane => c.read (lane ^^^ (c.read lane (c.rB 1) % 32)) (c.rA t.regs)) ∧
  RegInsn .ballot 0x044 (fun _ => true) 3 (fun _ _ => []) (fun _ => 1) (fun _ _ _ => True)
    (fun _ c _ _ => maskOf (c.lanes.filter fun k => c.ls.pred k (fA c.w))) ∧
  RegInsn .redux 0x045 Ty.isInt 3 (fun c t => [c.rA t.regs]) Ty.regs
    (fun _ c t => c.lanes ≠ [] ∧ fC c.w % 4 ≠ 3 ∧
      let v := redux (fC c.w % 4) (c.lanes.map fun k => t.toInt (c.read k (c.rA t.regs)))
      t.intRange.1 ≤ v ∧ v ≤ t.intRange.2)
    (fun _ c t _ => ofSigned t.width (redux (fC c.w % 4) (c.lanes.map fun k => t.toInt (c.read k (c.rA t.regs)))))

/-- R102, R103, R150: the instructions that write predicates. PLOAD is the only one that writes p0 to p6; the others write p[PD]. -/
def Obligations.PredicateInstructionsWriteTheirPredicate : Prop :=
  (∀ s g l c t, AtInsn s g l 0x030 c → tyOf (fTY c.w) = some t → t.isInt = true → fRM c.w ≤ 3 → bits c.w 3 0 = 0 →
    RegsOk c [c.rA t.regs, c.rB t.regs] → NoMix (fDU c.w) [c.rA t.regs, c.rB t.regs] → LiteralOk s c [c.rA t.regs, c.rB t.regs] →
    fC c.w % 8 < 6 →
    WritesPred (.isetp g l) s c (wordsOf [c.rA t.regs, c.rB t.regs]) fun lane =>
      let a := t.toInt (c.read lane (c.rA t.regs))
      let b := t.toInt (c.read lane (c.rB t.regs))
      [decide (a = b), decide (a ≠ b), decide (a < b), decide (a ≤ b), decide (b < a), decide (b ≤ a)].getD (fC c.w % 8) false) ∧
  (∀ s g l c, AtInsn s g l 0x088 c → fTY c.w = 0 → fRM c.w ≤ 3 → bits c.w 3 0 = 0 →
    RegsOk c [c.rA 1, c.rB 1] → NoMix (fDU c.w) [c.rA 1, c.rB 1] → LiteralOk s c [c.rA 1, c.rB 1] →
    WritesPred (.fsetp g l) s c (wordsOf [c.rA 1, c.rB 1]) fun lane =>
      let a := fpVal (c.read lane (c.rA 1))
      let b := fpVal (c.read lane (c.rB 1))
      let k := FVal.cmp a b
      let un := a.isNan || b.isNan
      [!un && decide (k = 0), un || decide (k ≠ 0), !un && decide (k < 0), !un && decide (k ≤ 0), !un && decide (0 < k),
        !un && decide (0 ≤ k), un, !un].getD (fC c.w % 8) false) ∧
  (∀ s g l c, AtInsn s g l 0x038 c → fRM c.w ≤ 3 → bits c.w 3 0 = 0 → fTY c.w ≠ 15 →
    WritesPred (.plop g l) s c 1 fun lane =>
      let a := c.ls.pred lane (fA c.w)
      let b := c.ls.pred lane (fB c.w)
      [a && b, a || b, a != b, a && !b].getD (fC c.w % 4) false) ∧
  (∀ s g l c, AtInsn s g l 0x042 c → fRM c.w ≤ 3 → bits c.w 3 0 = 0 → fTY c.w ≠ 15 →
    WritesPred (.voteany g l) s c 1 fun _ => c.lanes.any fun k => c.ls.pred k (fA c.w)) ∧
  (∀ s g l c, AtInsn s g l 0x043 c → fRM c.w ≤ 3 → bits c.w 3 0 = 0 → fTY c.w ≠ 15 →
    WritesPred (.voteall g l) s c 1 fun _ => c.lanes.all fun k => c.ls.pred k (fA c.w)) ∧
  (∀ s g l c, AtInsn s g l 0x03A c → fRM c.w ≤ 3 → bits c.w 3 0 = 0 → fTY c.w ≠ 15 →
    RegsOk c [c.rA 1] → NoMix (fDU c.w) [c.rA 1] → LiteralOk s c [c.rA 1] →
    Answers (.pload g l) s fun t => ∃ ls : Laneset, t.laneset g l = some (ls.goto (c.ls.pc + wordsOf [c.rA 1])) ∧
      (∀ lane p, p < 8 → ls.pred lane p = if lane ∈ c.lanes ∧ p < 7 then bit (c.read lane (c.rA 1)) p else c.ls.pred lane p) ∧
      { ls with preds := c.ls.preds } = c.ls ∧ { t with groups := s.groups, files := s.files } = s)

/-- R102, R150: floating arithmetic rounds once; FMIN and FMAX take the operand that is not NaN; FABS and FNEG change the sign bit
only; square root and quotient of FP32 are correctly rounded; FSCL scales by a power of two. -/
def Obligations.FloatingArithmeticRoundsOnce : Prop :=
  Fp2 .fadd 0x080 (fun rm a b => FVal.add rm a b) ∧
  Fp2 .fsub 0x081 (fun rm a b => FVal.add rm a b.neg) ∧
  Fp2 .fmul 0x082 (fun _ a b => FVal.mul a b) ∧
  RegInsn .ffma 0x083 fpTy 3 (fun c _ => [c.rA 1, c.rB 1, c.rC 1]) (fun _ => 1) (fun _ _ t => t = .fp32)
    (fun _ c _ lane => fmtFp32.encode (fRM c.w) 0 (FVal.add (fRM c.w)
      (FVal.mul (fpVal (c.read lane (c.rA 1))) (fpVal (c.read lane (c.rB 1)))) (fpVal (c.read lane (c.rC 1))))) ∧
  Fp2 .fmin 0x084 (fun _ a b => FVal.minMax false a b) ∧
  Fp2 .fmax 0x085 (fun _ a b => FVal.minMax true a b) ∧
  RegInsn .fabs 0x086 fpTy 3 (fun c _ => [c.rA 1]) (fun _ => 1) (fun _ _ _ => True)
    (fun _ c t lane => c.read lane (c.rA 1) &&& (if t = .fp32 then 0x7FFFFFFF else 0x7FFF7FFF)) ∧
  RegInsn .fneg 0x087 fpTy 3 (fun c _ => [c.rA 1]) (fun _ => 1) (fun _ _ _ => True)
    (fun _ c t lane => c.read lane (c.rA 1) ^^^ (if t = .fp32 then 0x80000000 else 0x80008000)) ∧
  ImmInsn .faddi 0x089 (fun a i => fpCode (FVal.add 0 (fpVal a) (fpVal i))) ∧
  ImmInsn .fmuli 0x08A (fun a i => fpCode (FVal.mul (fpVal a) (fpVal i))) ∧
  Fp1 .sqrt 0x092 (fun rm a => fmtFp32.encode rm 0 (FVal.sqrt (fpVal a))) ∧
  RegInsn .fdiv 0x098 fp32Ty 3 (fun c _ => [c.rA 1, c.rB 1]) (fun _ => 1) (fun _ _ _ => True)
    (fun _ c _ lane => fmtFp32.encode (fRM c.w) 0
      (FVal.div (fpVal (c.read lane (c.rA 1))) (fpVal (c.read lane (c.rB 1))))) ∧
  RegInsn .fscl 0x099 fp32Ty 3 (fun c _ => [c.rA 1, c.rB 1]) (fun _ => 1) (fun _ _ _ => True)
    (fun _ c _ lane => fmtFp32.encode (fRM c.w) 0
      (FVal.scale ((c.read lane (c.rB 1) % 256 : Nat) - 127 : Int) (fpVal (c.read lane (c.rA 1)))))

/-- R151: the special values of the approximate functions; their other results are the implementation's (log entry 12). -/
def Obligations.ApproximateFunctionsGiveTheirSpecialValues : Prop :=
  (∃ f : Nat → Nat, Fp1 .rcp 0x090 (fun _ a => f a) ∧ (∀ a, fpVal a = .nan → f a = 0x7FC00000) ∧
    (∀ a n, fpVal a = .inf n → f a = if n then 0x80000000 else 0) ∧
    (∀ a n e, fpVal a = .fin n 0 e → f a = if n then 0xFF800000 else 0x7F800000)) ∧
  (∃ f : Nat → Nat, Fp1 .rsq 0x091 (fun _ a => f a) ∧ (∀ a, fpVal a = .nan → f a = 0x7FC00000) ∧
    (∀ a n, fpVal a = .inf n → f a = if n then 0x7FC00000 else 0) ∧ (∀ a e, fpVal a = .fin false 0 e → f a = 0x7F800000) ∧
    (∀ a m e, fpVal a = .fin true (m + 1) e → f a = 0x7FC00000)) ∧
  (∃ f : Nat → Nat, Fp1 .exp2 0x093 (fun _ a => f a) ∧ (∀ a, fpVal a = .nan → f a = 0x7FC00000) ∧
    (∀ a n, fpVal a = .inf n → f a = if n then 0 else 0x7F800000)) ∧
  (∃ f : Nat → Nat, Fp1 .log2 0x094 (fun _ a => f a) ∧ (∀ a, fpVal a = .nan → f a = 0x7FC00000) ∧
    (∀ a n, fpVal a = .inf n → f a = if n then 0x7FC00000 else 0x7F800000) ∧
    (∀ a n e, fpVal a = .fin n 0 e → f a = 0xFF800000) ∧ (∀ a m e, fpVal a = .fin true (m + 1) e → f a = 0x7FC00000)) ∧
  (∃ f : Nat → Nat, Fp1 .sin 0x095 (fun _ a => f a) ∧ (∀ a, fpVal a = .nan → f a = 0x7FC00000) ∧
    (∀ a n, fpVal a = .inf n → f a = 0x7FC00000)) ∧
  (∃ f : Nat → Nat, Fp1 .cos 0x096 (fun _ a => f a) ∧ (∀ a, fpVal a = .nan → f a = 0x7FC00000) ∧
    (∀ a n, fpVal a = .inf n → f a = 0x7FC00000)) ∧
  (∃ f : Nat → Nat, Fp1 .tanh 0x097 (fun _ a => f a) ∧ (∀ a, fpVal a = .nan → f a = 0x7FC00000) ∧
    (∀ a n, fpVal a = .inf n → f a = if n then 0xBF800000 else 0x3F800000))

/-- R137, R152: a conversion decodes in the source type and rounds once in the destination type; CVTPK writes one element slot of D
and CVTUP reads one of A. CVT is stated for a source and a destination that are not both pairs, under RM 0 to 3. -/
def Obligations.ConversionsRoundOnce : Prop :=
  (∀ src, RegInsn .cvt 0x100 (fun _ => true) 3 (fun c _ => [c.rA src.regs]) Ty.regs
    (fun _ c t => tyOf (fC c.w % 16) = some src ∧ (src.pair && t.pair) = false)
    (fun _ c t lane => t.code (fRM c.w) 0 (src.value (c.read lane (c.rA src.regs) % 2 ^ src.width)))) ∧
  RegInsn .cvtpk 0x101 slotTy 3 (fun c t => [c.rA t.regs, c.rB t.regs]) Ty.regs (fun _ c t => (c.rD t.regs).none? = false)
    (fun _ c t lane =>
      let k := c.read lane (c.rB t.regs) % 8 % t.slots.1 * t.slots.2
      withBits (c.read lane (c.rD t.regs)) (k + t.slots.2 - 1) k
        (t.code (fRM c.w) 0 (Ty.fp32.value (c.read lane (c.rA t.regs) % 2 ^ 32)))) ∧
  RegInsn .cvtup 0x102 slotTy 3 (fun c t => [c.rA t.regs, c.rB t.regs]) Ty.regs (fun _ _ _ => True)
    (fun _ c t lane =>
      let k := c.read lane (c.rB t.regs) % 8 % t.slots.1 * t.slots.2
      Ty.fp32.code 0 0 (t.value (c.read lane (c.rA t.regs) / 2 ^ k % 2 ^ t.width)))
/-- R92, R100, R119, R121: loads extend the little-endian bytes at each lane's address into D, where every executing lane's address is
aligned, accessible and holds no poisoned data; an LDG touches the MMU's cache and counters and nothing else. -/
def Obligations.LoadsExtendTheBytesTheyRead : Prop :=
  (∀ s g l c, AtInsn s g l 0x140 c → badM c.w (regAM c.w false) (regDM c.w) true = false →
    LiteralOk s c [regAM c.w false] → c.firstBad [regAM c.w false, regDM c.w] = none →
    (∀ e ∈ c.storeAddrs (c.runLanes (fDUi c.w)), e.2 % szBytes (fSZ c.w) = 0 ∧ c.x.holds e.2 (szBytes (fSZ c.w)) = true ∧
      Sound s c.x.square (c.x.base + e.2) (szBytes (fSZ c.w))) →
    WritesReg (.lds g l) s c (regDM c.w) (wordsOf [regAM c.w false]) fun lane =>
      extend c.w (leNat (s.regionRead c.x (ofSigned 32 (c.read lane (regAM c.w false) + fOFF c.w)) (szBytes (fSZ c.w))))) ∧
  (∀ s g l c, AtInsn s g l 0x142 c → badM c.w (regAM c.w true) (regDM c.w) true = false →
    LiteralOk s c [regAM c.w true] → c.firstBad [regAM c.w true, regDM c.w] = none →
    (∀ e ∈ c.globalAddrs (c.runLanes (fDUi c.w)), e.2 % szBytes (fSZ c.w) = 0 ∧
      s.vaFail (s.ctxFn c) e.2 (szBytes (fSZ c.w)) = none ∧ s.inTraining (s.ctxFn c) e.2 .read = false) →
    WritesRegIn (fun s t => { t with groups := s.groups, files := s.files, free := s.free, regs := s.regs, mem := s.mem } = s ∧
        t.mem = { s.mem with tlb := t.mem.tlb } ∧
        RegsKept s t [(s.ctxFn c, 0x08, Fld.MMU_WALKS.off), (s.ctxFn c, 0x08, Fld.MMU_MISS.off),
          (s.ctxFn c, 0x08, Fld.MMU_FAULT_LO.off), (s.ctxFn c, 0x08, Fld.MMU_FAULT_HI_VA.off)])
      (.ldg g l) s c (regDM c.w) (wordsOf [regAM c.w true]) fun lane =>
        match s.vaBytes (s.ctxFn c) (ofSigned 64 (c.read lane (regAM c.w true) + fOFF c.w)) (szBytes (fSZ c.w)) 2 with
        | .ok b => extend c.w (leNat b)
        | .error _ => 0)

/-- R92, R100, R119: STS stores each executing lane's bytes in ascending order of lanes, so that the highest lane's remain; every other
byte of every memory is unchanged. A line's poison ends with a write of the whole line, and a word written whole has no wrong bits (R52).
A group whose page ring takes the store as its report of CONSUMED may have further pages counted (R304). -/
def Obligations.StoreWritesTheLanesInOrder : Prop :=
  ∀ s g l c, AtInsn s g l 0x141 c → badM c.w (regAM c.w false) (regDM c.w) false = false →
    LiteralOk s c [regAM c.w false, regDM c.w] → c.firstBad [regAM c.w false, regDM c.w] = none →
    (∀ e ∈ c.storeAddrs (c.runLanes (fDUi c.w)), e.2 % szBytes (fSZ c.w) = 0 ∧ c.x.data e.2 (szBytes (fSZ c.w)) = true) →
    Answers (.sts g l) s fun t =>
      t.mem.store = (c.storeAddrs (c.runLanes (fDUi c.w))).foldl
        (fun m e => cellsWrite m (c.x.square * 2 ^ 20 + (c.x.base + e.2)) (leBytes (szBytes (fSZ c.w)) (c.storeData e.1))) s.mem.store ∧
      { t.mem with store := s.mem.store, storePoison := s.mem.storePoison, storeErrs := s.mem.storeErrs } = s.mem ∧
      t.laneset g l = some (c.ls.goto (c.ls.pc + wordsOf [regAM c.w false, regDM c.w])) ∧
      RegsKept s t [(s.ctxFn c, 0x05, Fld.DSP_ATT_PAGES.off)] ∧ (s.rings.find? (fun e => e.1 == g) = none → t.regs = s.regs) ∧
        t.msix = s.msix ∧ t.jobs = s.jobs ∧ t.queues = s.queues

/-- R121, R123: a global store whose lanes' addresses are aligned and writable writes each lane's bytes through the MMU, in ascending
order of lanes, and goes on. -/
def Obligations.GlobalStoreWritesThroughTheMmu : Prop :=
  ∀ s g l c, AtInsn s g l 0x143 c → badM c.w (regAM c.w true) (regDM c.w) false = false →
    LiteralOk s c [regAM c.w true, regDM c.w] → c.firstBad [regAM c.w true, regDM c.w] = none →
    (∀ e ∈ c.globalAddrs (c.runLanes (fDUi c.w)), e.2 % szBytes (fSZ c.w) = 0 ∧
      s.vaFailW (s.ctxFn c) e.2 .write = none ∧ s.inTraining (s.ctxFn c) e.2 .write = false) →
    Answers (.stg g l) s fun t =>
      t.laneset g l = some (c.ls.goto (c.ls.pc + wordsOf [regAM c.w true, regDM c.w])) ∧
      t.mem = ((c.globalAddrs (c.runLanes (fDUi c.w))).foldl
        (fun s e => s.vaPut (s.ctxFn c) e.2 (leBytes (szBytes (fSZ c.w)) (c.storeData e.1)) 2)
        ((c.globalAddrs (c.runLanes (fDUi c.w))).foldl
          (fun s e => s.vaTrace (s.ctxFn c) .thread e.2 (szBytes (fSZ c.w)) .write) s)).mem ∧
      t.mem.store = s.mem.store ∧ t.msix = s.msix ∧ t.jobs = s.jobs ∧ t.queues = s.queues

/-- R103, R119, R123, R126: with one executing lane, ATS gives the old word to D and stores its operation's result in its place; every
other byte is unchanged. -/
def Obligations.StoreAtomicExchangesOneWord : Prop :=
  ∀ s g l c t k, AtInsn s g l 0x148 c → tyOf (fTY c.w) = some t → atomBad c.w t false = false →
    LiteralOk s c (atomSrcs c.w t false) →
    c.firstBad ((atomRegs c.w t false).1 :: atomSrcs c.w t false) = none → c.runLanes (fDU c.w) = [k] →
    c.read k (c.rA 1) % (t.width / 8) = 0 → c.x.data (c.read k (c.rA 1)) (t.width / 8) = true →
    Sound s c.x.square (c.x.base + c.read k (c.rA 1)) (t.width / 8) →
    Answers (.ats g l) s fun u =>
      let at0 := c.x.square * 2 ^ 20 + (c.x.base + c.read k (c.rA 1))
      let old := leNat (cellsRead s.mem.store at0 (t.width / 8))
      let b := c.read k (c.rB t.regs)
      let new := match fRM c.w with
        | 0 => (old + b) % 2 ^ t.width
        | 1 => if t.toInt old ≤ t.toInt b then old else b
        | 2 => if t.toInt old ≤ t.toInt b then b else old
        | 3 => old &&& b
        | 4 => old ||| b
        | 5 => old ^^^ b
        | 6 => b
        | _ => if old = c.read k (c.rC t.regs) then b else old
      leNat (cellsRead u.mem.store at0 (t.width / 8)) = new ∧
      (∀ a, a < at0 ∨ at0 + t.width / 8 ≤ a → assocGet 0 u.mem.store a = assocGet 0 s.mem.store a) ∧
      u.mem.dev = s.mem.dev ∧ u.mem.rsv = s.mem.rsv ∧ u.mem.host = s.mem.host ∧
      ∃ ls : Laneset, u.laneset g l = some (ls.goto (c.ls.pc + wordsOf (atomSrcs c.w t false))) ∧
        ((c.rD t.regs).none? = false → ∀ j, j < t.regs → ls.at k (c.rD t.regs) j = old / 2 ^ (32 * j) % 2 ^ 32)

/-- R123, R126: ATG and SEMP with every lane's word accessible, in ascending order of lanes. -/
def Obligations.GlobalAtomicAndSemaphorePostComplete : Prop :=
  (∀ s g l c t, AtInsn s g l 0x149 c → tyOf (fTY c.w) = some t → atomBad c.w t true = false →
    LiteralOk s c (atomSrcs c.w t true) → c.firstBad ((atomRegs c.w t true).1 :: atomSrcs c.w t true) = none →
    (∀ k ∈ c.runLanes (fDU c.w), c.read k (atomRegs c.w t true).2.1 % (t.width / 8) = 0 ∧
      s.atgFail (s.ctxFn c) (c.read k (atomRegs c.w t true).2.1) (t.width / 8) = none ∧
      s.inTraining (s.ctxFn c) (c.read k (atomRegs c.w t true).2.1) .atomic = false) →
    Answers (.atg g l) s fun u => ∃ r : State × Laneset,
      r = ((c.runLanes (fDU c.w)).map fun k => (k, c.read k (atomRegs c.w t true).2.1)).foldl (atgLane c t (s.ctxFn c))
        (((c.runLanes (fDU c.w)).map fun k => (k, c.read k (atomRegs c.w t true).2.1)).foldl
          (fun s e => s.vaTrace (s.ctxFn c) .thread e.2 (t.width / 8) .atomic) s, c.ls) ∧
      u.mem = r.1.mem ∧ u.laneset g l = some (r.2.goto (c.ls.pc + wordsOf (atomSrcs c.w t true)))) ∧
  (∀ s g l c, AtInsn s g l 0x203 c → bits c.w 25 14 = 0 → bits c.w 2 0 = 0 → fRM c.w ≤ 3 → (semRegs c.w).1.badField = false →
    (semRegs c.w).2.badField = false → NoMix (fDU c.w) [(semRegs c.w).1, (semRegs c.w).2] →
    LiteralOk s c [(semRegs c.w).1, (semRegs c.w).2] → c.firstBad [(semRegs c.w).1, (semRegs c.w).2] = none →
    let goesOn := fun t : State => t.laneset g l = some (c.ls.goto (c.ls.pc + wordsOf [(semRegs c.w).1, (semRegs c.w).2]))
    (bit c.w 3 = false →
      (∀ k ∈ c.runLanes (fDU c.w), c.read k (semRegs c.w).1 % 4 = 0 ∧ c.x.data (c.read k (semRegs c.w).1) 4 = true ∧
        Sound s c.x.square (c.x.base + c.read k (semRegs c.w).1) 4) →
      (∀ k, c.runLanes (fDU c.w) = [k] → Answers (.semp g l) s fun t =>
        let at0 := c.x.square * 2 ^ 20 + (c.x.base + c.read k (semRegs c.w).1)
        leNat (cellsRead t.mem.store at0 4) = (leNat (cellsRead s.mem.store at0 4) + c.read k (semRegs c.w).2) % 2 ^ 32 ∧
        (∀ a, a < at0 ∨ at0 + 4 ≤ a → assocGet 0 t.mem.store a = assocGet 0 s.mem.store a) ∧ goesOn t) ∧
      Answers (.semp g l) s fun t => goesOn t ∧ RegsKept s t [(s.ctxFn c, 0x05, Fld.DSP_ATT_PAGES.off)] ∧
        ∀ a, (∀ k ∈ c.runLanes (fDU c.w), a < c.x.square * 2 ^ 20 + (c.x.base + c.read k (semRegs c.w).1) ∨
          c.x.square * 2 ^ 20 + (c.x.base + c.read k (semRegs c.w).1) + 4 ≤ a) →
            assocGet 0 t.mem.store a = assocGet 0 s.mem.store a) ∧
    (bit c.w 3 = true →
      (∀ k ∈ c.runLanes (fDU c.w), s.semFault c true (c.read k (semRegs c.w).1) = none ∧
        s.inTraining (s.ctxFn c) (c.read k (semRegs c.w).1) .write = false) →
      Answers (.semp g l) s fun t => goesOn t ∧ t.mem.store = s.mem.store ∧ t.msix = s.msix))

/-- R97, R126: a SEMW whose word has reached B sets p[PD] and goes on; otherwise its laneset waits, and once TMO × 8 square cycles have
passed without that, it clears p[PD] and goes on. A word of device memory is read as the translation leaves the MMU. -/
def Obligations.SemaphoreWaitEndsByValueOrTime : Prop :=
  (∀ s g l c k rest, AtInsn s g l 0x202 c → semwBad c.w = false → LiteralOk s c [(semRegs c.w).1, (semRegs c.w).2] →
    c.firstBad [(semRegs c.w).1, (semRegs c.w).2] = none → c.lanes = k :: rest →
    let a := c.read k (semRegs c.w).1
    s.semFault c false a = none → (bit c.w 3 = false → Sound s c.x.square (c.x.base + a) 4) →
    (bit c.w 3 = true → s.inTraining (s.ctxFn c) a .read = false) →
    let s1 := if bit c.w 3 then s.vaTrace (s.ctxFn c) .thread a 4 .read else s
    (sub32 (s1.semWord c a) (c.read k (semRegs c.w).2) < 2 ^ 31 →
      Answers (.semw g l) s fun t => ∃ ls : Laneset,
        t.laneset g l = some (ls.goto (c.ls.pc + wordsOf [(semRegs c.w).1, (semRegs c.w).2])) ∧
        (∀ i p, i < 32 → p < 8 → ls.pred i p = if p = fPD c.w then true else c.ls.pred i p) ∧
        ls.sem = none ∧ { ls with preds := c.ls.preds, sem := c.ls.sem } = c.ls ∧
        { t with groups := s1.groups, files := s1.files } = s1) ∧
    (2 ^ 31 ≤ sub32 (s1.semWord c a) (c.read k (semRegs c.w).2) →
      Answers (.semw g l) s fun t =>
        t.laneset g l = some { c.ls with sem := some (c.ls.sem.getD (s.fileCyc (sqFile c.x.square))) } ∧
        { t with groups := s1.groups } = s1)) ∧
  (∀ s g l c since, AtInsn s g l 0x202 c → c.ls.sem = some since →
    bits c.w 25 14 * 8 * 250 ≤ s.fileCyc (sqFile c.x.square) - since →
    Answers (.semwTimeout g l) s fun t => ∃ ls : Laneset,
      t.laneset g l = some (ls.goto (c.ls.pc + wordsOf [(semRegs c.w).1, (semRegs c.w).2])) ∧
      (∀ i p, i < 32 → p < 8 → ls.pred i p = if p = fPD c.w ∧ p ≠ 7 then false else c.ls.pred i p) ∧
      ls.sem = none ∧ { ls with preds := c.ls.preds, sem := c.ls.sem } = c.ls ∧
      { t with groups := s.groups, files := s.files } = s)

/-- R41, R110 to R113, R118: MMA, MMASP, MLD and DRN whose operands are good take the matrix lease and put one entry at the end of the
square's engine queue, where the queue holds fewer than 16 entries and no other group holds the lease; the laneset goes on. -/
def Obligations.EngineInstructionsEnterTheQueue : Prop :=
  ∀ s g l c, c.lanes ≠ [] → (s.square c.x.square).queue.length < 16 →
    ((s.square c.x.square).lease = none ∨ (s.square c.x.square).lease = some g) →
    let entered := fun (i : Instr) (op : EngOp) => Answers i s fun t =>
      (∃ taint, (t.square c.x.square).queue.getLast? =
        some { group := g, lset := l, pc := c.ls.pc, op := op, taint := taint, ord := (s.square c.x.square).issues }) ∧
      (t.square c.x.square).lease = some g ∧ t.laneset g l = some (c.ls.goto (c.ls.pc + 1)) ∧
      { t with groups := s.groups, files := s.files, squares := s.squares } = s
    let mmaOk := fun (sparse : Bool) =>
      let fa := bits c.w 45 42
      let fb := bits c.w 41 38
      let a := c.ls.ureg (bits c.w 37 32)
      let b := c.ls.ureg (bits c.w 31 26)
      bits c.w 25 0 = 0 ∧ mmaFmtOk sparse fa = true ∧ mmaFmtOk sparse fb = true ∧ fmtInt fa = fmtInt fb ∧
        scmOk fa (opSCM a) = true ∧ scmOk fb (opSCM b) = true ∧ bits a 31 30 = 0 ∧ bits b 31 30 = 0
    let mmaOp := fun (sparse : Bool) => EngOp.mma sparse (bits c.w 49 47) (bit c.w 46) (bits c.w 45 42) (bits c.w 41 38)
      (BitVec.ofNat 32 (c.ls.ureg (bits c.w 37 32))) (BitVec.ofNat 32 (c.ls.ureg (bits c.w 31 26)))
    (AtInsn s g l 0x1C0 c → mmaOk false → entered (.mma g l) (mmaOp false)) ∧
    (AtInsn s g l 0x1C1 c → mmaOk true → entered (.mmasp g l) (mmaOp true)) ∧
    (AtInsn s g l 0x1C2 c → bits c.w 45 38 = 0 → bits c.w 31 0 = 0 →
      entered (.mld g l) (.mld (bits c.w 49 47) (bit c.w 46) (BitVec.ofNat 32 (c.ls.ureg (bits c.w 37 32))))) ∧
    (AtInsn s g l 0x1E0 c → drnBad c.w = false →
      entered (.drn g l) (.drn (bits c.w 49 47) (bits c.w 46 29) (BitVec.ofNat 32 (c.ls.ureg (bits c.w 28 23)))
        (BitVec.ofNat 32 (c.ls.ureg (bits c.w 22 17)))))

/-- R115 to R117: TMV hands out a ticket and counts it; TWAIT and TTEST read the status of a completed ticket, TTEST also tells that one
has not completed; EWAIT goes on when nothing that it names, issued before it, is outstanding, and waits while something is. -/
def Obligations.MoverTicketsAndWaits : Prop :=
  ∀ s g l c, c.lanes ≠ [] →
    let x := s.square c.x.square
    (AtInsn s g l 0x1F0 c → bit c.w 48 = false → bits c.w 35 0 = 0 → x.queue.length < 16 → Answers (.tmv g l) s fun t =>
      let mv := bits c.w 49 49
      t.laneset g l = some ((c.ls.setUreg (bits c.w 41 36) (mv * 2 ^ 31 + (x.mover mv).seq)).goto (c.ls.pc + 1)) ∧
      ((t.square c.x.square).mover mv).seq = ((x.mover mv).seq + 1) % 2 ^ 24 ∧
      (t.square c.x.square).lease = x.lease ∧ { t with groups := s.groups, files := s.files, squares := s.squares } = s) ∧
    (∀ st, AtInsn s g l 0x1F1 c → bits c.w 49 48 = 0 → bits c.w 35 0 = 0 → x.ticket (c.ls.ureg (bits c.w 47 42)) = .done st →
      Answers (.twait g l) s fun t =>
        t.laneset g l = some ((c.ls.setUreg (bits c.w 41 36) st).goto (c.ls.pc + 1)) ∧
        { t with groups := s.groups, files := s.files } = s) ∧
    (AtInsn s g l 0x1F1 c → bits c.w 49 48 = 0 → bits c.w 35 0 = 0 → x.ticket (c.ls.ureg (bits c.w 47 42)) = .waiting →
      exec (.twait g l) s = .next s) ∧
    (∀ st, AtInsn s g l 0x1F2 c → bits c.w 49 48 = 0 → bits c.w 32 0 = 0 → x.ticket (c.ls.ureg (bits c.w 47 42)) = .done st →
      Answers (.ttest g l) s fun t => ∃ ls : Laneset, t.laneset g l = some (ls.goto (c.ls.pc + 1)) ∧
        (∀ i, i < 32 → ls.pred i (bits c.w 35 33) = true) ∧ ls.uregs = (c.ls.setUreg (bits c.w 41 36) st).uregs ∧
        ls.regs = c.ls.regs ∧ { t with groups := s.groups, files := s.files } = s) ∧
    (AtInsn s g l 0x1F2 c → bits c.w 49 48 = 0 → bits c.w 32 0 = 0 → x.ticket (c.ls.ureg (bits c.w 47 42)) = .waiting →
      Answers (.ttest g l) s fun t => ∃ ls : Laneset, t.laneset g l = some (ls.goto (c.ls.pc + 1)) ∧
        (bits c.w 35 33 ≠ 7 → ∀ i, i < 32 → ls.pred i (bits c.w 35 33) = false) ∧ ls.uregs = c.ls.uregs ∧
        ls.regs = c.ls.regs ∧ { t with groups := s.groups, files := s.files } = s) ∧
    (AtInsn s g l 0x1F8 c → bits c.w 38 0 = 0 →
      let waits := x.waitsFor g (c.ls.waits.getD x.issues) (bits c.w 49 42) (bit c.w 41) (bits c.w 40 39)
      (waits = false → Answers (.ewait g l) s fun t =>
        t.laneset g l = some (({ c.ls with waits := none } : Laneset).goto (c.ls.pc + 1)) ∧
        { t with groups := s.groups, files := s.files } = s) ∧
      (waits = true → Answers (.ewait g l) s fun t =>
        t.laneset g l = some { c.ls with waits := some (c.ls.waits.getD x.issues) } ∧ { t with groups := s.groups } = s))

/-- R45, R46, R112, R145, R146: a matrix step takes the next entry of the matrix unit, writes the accumulator's 1,024 cells and its
kind, and leaves the other accumulators; where the entry's group goes on, nothing else of the machine changes but the performance
counters.
R46, R48, R113, R114, R147: a drain takes the next entry of the gate pipeline and applies the chain, where its operand list is
aligned and inside the region, its operands are good, and the item of its sequence call, where it has one, may run (R267); the entry
leaves the queue. -/
def Obligations.MatrixAndGateStepsTakeTheirEntry : Prop :=
  ((∀ s sq e y acc int cells, nextEntry EngOp.matrixAcc EngOp.drainAcc (s.square sq).queue = some e → s.group e.group = some y →
      s.engineOn sq = true → y.square = sq → y.st = .running → (y.lanesets.any fun e => !e.2.ended) = true → e.taint = false →
      (∀ r ∈ s.engReads y e.op, y.holds r.1 r.2 = true ∧ Sound s sq (y.base + r.1) r.2) →
      s.matrixCells (s.square sq) y e.op = some (acc, int, cells) →
      Answers (.matrixStep sq) s fun t =>
        (∀ i, i < 1024 → assocGet 0#32 (t.square sq).acc (acc * 1024 + i) = cells.getD i 0#32) ∧
        (∀ k, k < acc * 1024 ∨ acc * 1024 + 1024 ≤ k → assocGet 0#32 (t.square sq).acc k = assocGet 0#32 (s.square sq).acc k) ∧
        (acc < 8 → (t.square sq).isInt acc = int) ∧
        (t.square sq).queue = (s.square sq).queue.erase e ∧ { t with squares := s.squares, files := s.files } = s) ∧
  (∀ s sq e y acc k outW opsW, nextEntry EngOp.drainAcc EngOp.matrixAcc (s.square sq).queue = some e →
      s.group e.group = some y → y.square = sq → e.op = .drn acc k outW opsW → s.engineOn sq = true → opsW.toNat % 32 = 0 →
      (s.square sq).drnBad acc k outW.toNat = false → s.drnListBad y k opsW.toNat = false → s.recMayRun y k opsW.toNat = true →
      (∀ r ∈ s.drnReads y k opsW.toNat ++ (if opSCM outW.toNat = 2 then [(64 * opSIDE outW.toNat + 64, 4)] else []),
        y.holds r.1 r.2 = true ∧ Sound s sq (y.base + r.1) r.2) →
      (∀ r ∈ s.drnWrites y k outW.toNat opsW.toNat, y.data r.1 r.2 = true) →
      exec (.gateDrain sq) s = .next (((s.drain sq y e acc k outW.toNat opsW.toNat).perfCount sq 0x03
        (if ctlSMX k then 16 else 8)).settleGroup e.group)))

/-- R106 to R109, R125, R129: control flow. BRA takes its branch, falls through or diverges; BRX, CALL and RET jump, BRX only where all
active lanes agree; EXIT ends lanes; an issued NOP and FENCE only go on; BAR without ARV waits; TRAP raises EX_TRAP with its code. -/
def Obligations.ControlFlowMovesTheLaneset : Prop :=
  ∀ s g l c,
    let goes := fun (i : Instr) (ls : Laneset) (pc : Nat) => Answers i s fun t =>
      t.laneset g l = some (ls.goto pc) ∧ { t with groups := s.groups, files := s.files } = s
    let good := fRM c.w ≤ 3 ∧ bits c.w 3 0 = 0 ∧ fTY c.w ≠ 15
    let target := RegsOk c [c.rA 1] ∧ NoMix (fDU c.w) [c.rA 1] ∧ LiteralOk s c [c.rA 1]
    let all := c.lanes.length = c.ls.active.length ∧ c.lanes ≠ []
    (AtInsn s g l 0x000 c → good → goes (.nop g l) c.ls (c.ls.pc + 1)) ∧
    (AtInsn s g l 0x240 c → c.lanes = [] → goes (.bra g l) c.ls (c.ls.pc + 1)) ∧
    (AtInsn s g l 0x240 c → all → goes (.bra g l) c.ls (ofSigned 32 (c.ls.pc + fTDISP c.w))) ∧
    (AtInsn s g l 0x240 c → c.lanes ≠ [] → c.lanes.length < c.ls.active.length → c.ls.stack.length ≤ 30 → fRDISP c.w ≠ 0 →
      goes (.bra g l)
        { c.ls with
          mask := BitVec.ofNat 32 (maskOf c.lanes)
          stack := .pend (c.ls.pc + 1) (BitVec.ofNat 32 (maskOf (c.ls.active.filter fun i => !c.guard i))) ::
            .join (ofSigned 32 (c.ls.pc + fRDISP c.w)) c.ls.mask :: c.ls.stack }
        (ofSigned 32 (c.ls.pc + fTDISP c.w))) ∧
    (∀ v, AtInsn s g l 0x241 c → good → target → all →
      (∀ j ∈ c.ls.active, c.read j (c.rA 1) = v) → goes (.brx g l) c.ls v) ∧
    (AtInsn s g l 0x241 c → good → target → all →
      (∃ i ∈ c.ls.active, ∃ j ∈ c.ls.active, c.read i (c.rA 1) ≠ c.read j (c.rA 1)) → exec (.brx g l) s = .next (s.exDiverge c)) ∧
    (AtInsn s g l 0x242 c → all → c.ls.stack.length ≤ 31 →
      goes (.callB g l) { c.ls with stack := .ret (c.ls.pc + 1) :: c.ls.stack } (ofSigned 32 (c.ls.pc + fTDISP c.w))) ∧
    (∀ p rest, AtInsn s g l 0x243 c → good → all → c.ls.stack = .ret p :: rest →
      goes (.retB g l) { c.ls with stack := rest } p) ∧
    (AtInsn s g l 0x244 c → good → (c.ls.exited ||| BitVec.ofNat 32 (maskOf c.lanes)) ≠ 0xFFFFFFFF#32 →
      goes (.exitL g l)
        { c.ls with exited := c.ls.exited ||| BitVec.ofNat 32 (maskOf c.lanes), mask := c.ls.mask &&& ~~~BitVec.ofNat 32 (maskOf c.lanes) }
        (c.ls.pc + 1)) ∧
    (AtInsn s g l 0x201 c → c.lanes ≠ [] → fIMM c.w < 8 → fIMM c.w % 4 ≠ 3 →
      (bit c.w 2 = false → goes (.fence g l) c.ls (c.ls.pc + 1)) ∧
      (bit c.w 2 = true → (s.square c.x.square).waitsFor g (c.ls.waits.getD (s.square c.x.square).issues) 0xFF true 3 = false →
        goes (.fence g l) { c.ls with waits := none } (c.ls.pc + 1))) ∧
    (AtInsn s g l 0x245 c → c.lanes ≠ [] → fIMM c.w < 2 ^ 16 →
      exec (.trap g l) s = .next (s.except c 0x0D .internalError c.lanes 0 (fIMM c.w)))

/-- R125, R127: the arrival at a barrier that other lanesets must still reach, and at a bundle boundary that others have not reached: the
laneset waits there, and nothing else changes but the count of instructions issued. -/
def Obligations.BarriersHoldTheLaneset : Prop :=
  (∀ s g l c, AtInsn s g l 0x200 c → c.lanes ≠ [] → fIMM c.w < 2 ^ 10 → bits (fIMM c.w) 9 2 ≤ c.x.nls → c.ls.mask = 0xFFFFFFFF#32 →
    let i := bits (fIMM c.w) 1 0
    let n := bits (fIMM c.w) 9 2
    let b := assocGet {} c.x.barriers i
    (b.arrived = [] ∨ b.count = n) → b.arrived.length + 1 < n →
    (∀ j, j < 4 → j ≠ i → barDone c.x (assocGet {} c.x.barriers j) = false) →
    Answers (.bar g l) s fun t =>
      t.laneset g l = some (({ c.ls with bar := some i } : Laneset).goto (c.ls.pc + 1)) ∧
      (∃ x, t.group g = some x ∧ assocGet {} x.barriers i = { count := n, arrived := b.arrived ++ [l] }) ∧
      { t with groups := s.groups, files := s.files } = s) ∧
  (∀ s g l c, AtInsn s g l 0x204 c → c.lanes ≠ [] → fIMM c.w = 0 → c.ls.bndy = false →
    (∃ e ∈ c.x.lanesets, e.1 ≠ l ∧ e.2.ended = false ∧ e.2.bndy = false) →
    Answers (.bndy g l) s fun t => t.laneset g l = some { c.ls with bndy := true } ∧
      { t with groups := s.groups, files := s.files } = s)

/-- R131: the exception record of a partition: eight words, an interrupt, and no other register. -/
def Obligations.ExceptionRecordIsWritten : Prop :=
  ∀ (s : State) fn x e,
    let t := s.writeExcRecord fn x e
    (∀ k, k < 8 → t.getReg fn 0x05 (0x090 + 4 * k) = BitVec.ofNat 32 (([
      e.status.code + 2 ^ 16 * e.cause + 2 ^ 24 * ((if e.precise then 1 else 0) + (if e.engine then 2 else 0)), e.pc, x.index,
      x.square + 2 ^ 16 * e.lset + 2 ^ 24 * ((List.range 32).find? fun i => bit e.lanes i).getD 0, e.addr % 2 ^ 32,
      e.addr / 2 ^ 32 % 2 ^ 32, e.lanes, e.detail] : List Nat).getD k 0)) ∧
    t.getReg fn 0x05 0x010 = s.getReg fn 0x05 0x010 ||| 2#32 ∧
    RegsKept s t ((fn, 0x05, 0x010) :: (List.range 8).map fun k => (fn, 0x05, 0x090 + 4 * k)) ∧
    { t with regs := s.regs, msix := s.msix } = s
/-! ## Files and squares -/

/-- R67, R69, R683: what the holder's writes to CTL of a file page start, in the power state Active.
R67, R70: the ends of a file's transitions: its squares become IDLE as it reaches ON, a start without power good is a FAULT, and a
stopped file is OFF with its squares GATED and their stores cleared. A file that loses power is one on whose squares no group waits for
victims. That an ENABLE of a file in OFF goes to HELD in Hold and Sleep is the model's choice (log entry 69). -/
def Obligations.FilesFollowTheStateTable : Prop :=
  ((∀ s fn f, f < 16 → Reaches s fn (filePage f) → s.fileHolder f = some fn →
      let page := filePage f
      (s.pageSt page = stOff → s.filesDown = false → Answers (.fileEnable fn f true) s fun t =>
        t.pageSt page = stStarting ∧ t.enableReq page = true ∧ t.getReg 0 page 0x010 = s.getReg 0 page 0x010 ||| 8#32) ∧
      (s.pageSt page = stOff → s.filesDown = true → Answers (.fileEnable fn f true) s fun t => t.pageSt page = stHeld) ∧
      (s.pageSt page = stOn → s.fileKres f = false → Answers (.fileEnable fn f false) s fun t =>
        t.pageSt page = stStopping ∧ t.enableReq page = false) ∧
      (s.pageSt page = stOn → s.fileKres f = false → Answers (.fileQuiesce fn f) s fun t =>
        t.pageSt page = stStopping ∧ t.enableReq page = s.enableReq page) ∧
      (s.pageSt page = stOn → s.fileKres f = true → Answers (.fileQuiesce fn f) s fun t =>
        t.pageSt page = stOn ∧ t.getF fn (Fld.ERR_CODE_CODE.onPage page) = Status.accessDenied.code) ∧
      ((s.pageSt page = stOff ∨ s.pageSt page = stFault) → s.filesDown = false → (∀ sq ∈ squaresOf f, (s.square sq).awaiting = []) →
        Answers (.fileReset fn f) s fun t =>
        t.pageSt page = stStarting ∧ (t.file f).byReset = true ∧
        ∀ sq ∈ squaresOf f, t.getF 0 (sqFaultFld sq) = 0 ∧ ∀ off, off < 2 ^ 20 → assocGet 0 t.mem.store (sq * 2 ^ 20 + off) = 0)) ∧
  (∀ s f, f < 16 →
      let page := filePage f
      (s.pageSt page = stStarting → (∀ sq ∈ squaresOf f, s.sqSt sq ≠ sqTest) → s.rst.bist.contains f = false →
        s.getF 0 Fld.DEV_BOOT_STAGE = 7 → (s.file f).recReset = false → (s.file f).recQuiesce = false → s.enableReq page = true →
        Answers (.fileStartDone f) s fun t => t.pageSt page = stOn ∧
          ∀ sq ∈ squaresOf f, t.sqSt sq = if s.sqSt sq = sqFaultSt then sqFaultSt else sqIdle) ∧
      (s.pageSt page = stStarting → (s.file f).startTick + 12500 ≤ s.ticks → (∀ sq ∈ squaresOf f, (s.square sq).awaiting = []) →
        Answers (.fileStartTimeout f) s fun t => t.pageSt page = stFault) ∧
      (s.pageSt page = stStopping → s.fileGroups f = [] → (s.file f).recReset = false → (s.file f).recEnable = false →
        (∀ sq ∈ squaresOf f, (s.square sq).awaiting = []) → Answers (.fileStopDone f) s fun t => t.pageSt page = stOff ∧
          ∀ sq ∈ squaresOf f, t.sqSt sq = (if s.sqSt sq = sqFaultSt then sqFaultSt else sqGated) ∧
            ∀ off, off < 2 ^ 20 → assocGet 0 t.mem.store (sq * 2 ^ 20 + off) = 0)))

/-- R65, R70, R71, R84, R85, R579, R585, R590, R594: self-tests, square faults and link events. The fault of a square is stated for one
with no group, no waiting group and no image that names it as a home. Which link needed the retries is not counted apart, so that a link
fails on 16 retries of its file in 1 µs (DEDUCED, log entry 69). -/
def Obligations.SquareAndLinkEventsAreRecorded : Prop :=
  (∀ s sq, sq < 256 → s.sqSt sq = sqTest → Answers (.squareSelftestDone sq true) s fun t => t.sqSt sq = sqIdle) ∧
  (∀ s sq, sq < 256 → s.sqSt sq = sqTest → Answers (.squareSelftestDone sq false) s fun t =>
    t.sqSt sq = sqFaultSt ∧ t.getF 0 (sqFaultFld sq) = 1) ∧
  (∀ s sq, sq < 256 → (s.sqSt sq = sqIdle ∨ s.sqSt sq = sqTest ∨ s.sqSt sq = sqRunning ∨ s.sqSt sq = sqPreempting) →
    s.groups = [] → (s.square sq).awaiting = [] → s.images = [] → (∀ e ∈ s.queues, e.2.st ≠ .error) →
    let faulted := fun t : State => t.sqSt sq = sqFaultSt ∧ t.getF 0 (sqFaultFld sq) = 1 ∧ t.getF 0 Fld.DEV_FLT_KIND = 1 ∧
      t.getF 0 Fld.DEV_FLT_WHERE = sq ∧ t.square sq = {}
    Answers (.squareFault sq) s faulted) ∧
  (∀ s sq, s.groupsOn sq ≠ [] → (s.square sq).mv0.flight = none → (s.square sq).mv1.flight = none →
    (s.square sq).mv0.issued = [] → (s.square sq).mv1.issued = [] → s.retiredAt sq + 65536 * 250 ≤ s.fileCyc (sqFile sq) →
    exec (.squareStallWatchdog sq) s = exec (.squareFault sq) s) ∧
  (∀ s f, f < 16 → Answers (.flitRetry f) s fun t =>
    t.getF 0 (Fld.FIL_LINK_ERR_RETRIES.onPage (filePage f)) =
      min 0xFFFF (s.getF 0 (Fld.FIL_LINK_ERR_RETRIES.onPage (filePage f)) + 1) ∧
    t.getF 0 Fld.DEV_FLT_KIND = 4 ∧ bit (t.getReg 0 (filePage f) 0x010).toNat 2 = true) ∧
  (∀ s f k, f < 15 → k < 19 → s.linkLost f = true → Answers (.linkFailed f k true) s fun t =>
    bit (t.getF 0 (Fld.FIL_DETOUR_EAST.onPage (filePage f))) k = true ∧ bit (t.getF 0 Fld.DEV_DETOUR_FILES) f = true ∧
    bit (t.getReg 0 (filePage f) 0x010).toNat 4 = true) ∧
  (∀ s f k, f < 16 → k < 18 → s.linkLost f = true → s.fileGroups f = [] → (∀ sq ∈ squaresOf f, (s.square sq).awaiting = []) →
    (∀ e ∈ s.queues, e.2.st ≠ .error) → Answers (.linkFailed f k false) s fun t => t.pageSt (filePage f) = stFault)

/-- R56, R59, R60, R128: placing a group of a started job, preempting a reserved square, resuming after it, and moving a suspended group
whose bundle breaks the range. -/
def Obligations.GroupsArePlacedPreemptedAndResumed : Prop :=
  (∀ s id j sq b, s.job id = some j → j.st = .started → j.nop = false → j.stop = none → j.exc = none →
    (j.redo ≠ [] ∨ j.placed < j.total) → j.overdue s.now = false → j.overrun s.ticks = false → j.units = [] → s.dspPlaces = true →
      s.itsTurn id j = true → s.placeOf j = some (sq, b) →
    (∀ e ∈ s.queues, e.2.st ≠ .error) →
    Answers (.groupPlace id) s fun t => ∃ x, t.group s.nextGroup = some x ∧ x.job = id ∧ x.index = j.next ∧ x.square = sq ∧
      x.base = b ∧ x.st = .running ∧ t.nextGroup = s.nextGroup + 1 ∧ t.job id = some j.advance ∧
      (s.sqSt sq = sqIdle → sq < 256 → t.sqSt sq = sqRunning)) ∧
  (∀ s id j sq, s.job id = some j → j.cls = 2 → s.wantsGroup j = true → s.itsTurn id j = true →
    s.dspPlaces = true → s.placeOf j = none → sq < 256 → (s.groups.map (·.1)).Nodup →
    (s.jobSquares j).find? (fun q => s.inService q && s.sqSt q != sqPreempting &&
      ((s.lowGroups q).any fun e => e.2.st == .running) && s.kRoom q (s.launchOf j)) = some sq →
    Answers (.preemption id) s fun t => t.sqSt sq = sqPreempting ∧
      (t.square sq).awaiting = (s.square sq).awaiting ++ [{ job := id, index := j.next, replayOf := none }] ∧
      t.job id = some (if j.st = .waiting then { j with await := true } else j.advance) ∧
      ∀ g x, s.group g = some x → (g, x) ∈ s.lowGroups sq → x.st = .running → t.group g = some { x with preempt := true }) ∧
  (∀ s sq, sq < 256 → s.sqSt sq = sqPreempting → ((s.lowGroups sq).all fun e => e.2.st == .suspended) = true →
    (s.square sq).awaiting = [] → (∀ e ∈ s.queues, e.2.st ≠ .error) →
    Answers (.preemptionComplete sq) s fun t => t.sqSt sq = if s.groupsOn sq = [] then sqIdle else sqRunning) ∧
  (∀ s sq g x, (s.groups.filter fun e => e.2.square == sq && e.2.st == .suspended) = [(g, x)] → s.group g = some x →
    s.hosts sq = true → s.sqSt sq ≠ sqPreempting → s.quadRoom sq x.nreg x.nls = true →
    (s.fileKres (sqFile sq) = false ∨ s.bundleOk x.bundleLen = true) →
    Answers (.groupResume sq) s fun t => ∃ y, t.group g = some y ∧ y.st = .running ∧ y.preempt = false ∧
      y.lanesets = x.lanesets.map fun e =>
        if e.2.ended then e else (e.1, { (({} : Laneset)) with pc := x.contPc, uregs := s.savedUregs x e.1 })) ∧
  (∀ s g x j, s.group g = some x → s.job x.job = some j → j.cls ≠ 2 → s.fileKres (sqFile x.square) = true →
    s.bundleOk x.bundleLen = false → x.st = .running →
    Answers (.groupMove g) s fun t => t.group g = some { x with preempt := true } ∧ { t with groups := s.groups } = s) ∧
  (∀ s g x j sq b, s.group g = some x → s.job x.job = some j → j.cls ≠ 2 → s.fileKres (sqFile x.square) = true →
    s.bundleOk x.bundleLen = false → x.st = .suspended →
    (((fileSquares (s.partFiles j.fn)).filter fun q => !s.fileKres (sqFile q)).findSome? fun q =>
      (s.roomOn q false (s.launchOf j)).map fun b => (q, b)) = some (sq, b) →
    Answers (.groupMove g) s fun t => ∃ y, t.group g = some y ∧ y.square = sq ∧ y.base = b ∧ y.size = x.size ∧ y.st = .running)

/-! ## Register accesses -/

/-- R6, R673, R678, R681: a plain register takes the bits that its map lets a write set; IRQ_RAW clears the bits written 1; an 8-byte
access is two accesses, the lower address first; any other access reads 0 and changes nothing; ERR_CODE and every other field that a read
clears return their value and clear; IRQ_SET sets bits of IRQ_RAW and signals a newly pending enabled one. -/
def Obligations.RegisterAccessesFollowTheMap : Prop :=
  (∀ s fn page off v d, page ∈ plainPages → 0x040 ≤ off → off < 0x10000 → off % 4 = 0 → v < 2 ^ 32 →
    s.startLow fn page off v = none → s.startHigh fn page off v = none → findReg page off = some d → d.rw ≠ 0 →
    Reaches s fn page → s.mayWrite fn page off v = true → s.flag 0 (Fld.LOCK_LOCKDOWN.onPage page) = false →
    resvHit page off v = false → s.verdict fn page off v = .ok →
    Answers (.registerWrite fn (page * 0x10000 + off) 4 v) s fun t =>
      t.getReg (s.accBank fn d) page off =
        (s.getReg (s.accBank fn d) page off &&& ~~~BitVec.ofNat 32 d.writable) ||| (BitVec.ofNat 32 v &&& BitVec.ofNat 32 d.writable) ∧
      RegsKept s t [(s.accBank fn d, page, off)] ∧ { t with regs := s.regs } = s) ∧
  (∀ s fn page v, pageExists page = true → Reaches s fn page → s.irqMay fn page = true →
    Answers (.registerWrite fn (page * 0x10000 + 0x010) 4 v) s fun t =>
      t.getReg (irqBank page fn) page 0x010 =
        s.getReg (irqBank page fn) page 0x010 &&& ~~~BitVec.ofNat 32 (v % 2 ^ 32 &&& irqMask page) ∧
      RegsKept s t [(irqBank page fn, page, 0x010)] ∧ { t with regs := s.regs } = s) ∧
  (∀ s fn a v, a % 8 = 0 → ∃ t u, exec (.registerWrite fn a 4 v) s = .next t ∧
    exec (.registerWrite fn (a + 4) 4 (v / 2 ^ 32)) t = .next u ∧ exec (.registerWrite fn a 8 v) s = .next u) ∧
  (∀ s fn a, a % 8 = 0 → ∃ t u, exec (.rcRead fn a 4) s = .next t ∧ exec (.rcRead fn (a + 4) 4) t = .next u ∧
    exec (.rcRead fn a 8) s = .next { u with readData := t.readData + 2 ^ 32 * u.readData }) ∧
  (∀ s fn a w v, ¬ (w = 4 ∧ a % 4 = 0 ∨ w = 8 ∧ a % 8 = 0) → exec (.registerWrite fn a w v) s = .next s ∧
    exec (.rcRead fn a w) s = .next { s with readData := 0 }) ∧
  (∀ s fn page, pageExists page = true → s.serves page = true → s.mayRead fn page 0x020 = true →
    Answers (.rcRead fn (page * 0x10000 + 0x020) 4) s fun t =>
      t.readData = (s.getReg fn page 0x020).toNat ∧ t.getReg fn page 0x020 = 0#32 ∧ RegsKept s t [(fn, page, 0x020)]) ∧
  (∀ s fn page off d, page ∈ plainPages → page ≠ 0x0E → 0x040 ≤ off → off < 0x10000 → off % 4 = 0 → s.serves page = true →
    findReg page off = some d → d.rc ≠ 0 → s.liveReg fn page off = none →
    Answers (.rcRead fn (page * 0x10000 + off) 4) s fun t =>
      t.readData = (s.getReg (s.accBank fn d) page off &&& ~~~BitVec.ofNat 32 d.wo).toNat ∧
      t.getReg (s.accBank fn d) page off = s.getReg (s.accBank fn d) page off &&& ~~~BitVec.ofNat 32 d.rc ∧
      RegsKept s t [(s.accBank fn d, page, off)]) ∧
  (∀ s fn page v, pageExists page = true → Reaches s fn page → s.irqMay fn page = true →
    Answers (.irqSet fn page v) s fun t =>
      let b := irqBank page fn
      let raw := s.getReg b page 0x010 ||| BitVec.ofNat 32 (v % 2 ^ 32 &&& irqMask page)
      t.getReg b page 0x010 = raw ∧ RegsKept s t [(b, page, 0x010)] ∧
      (raw &&& s.getReg b page 0x014 = s.getReg b page 0x010 &&& s.getReg b page 0x014 → t.msix = s.msix) ∧
      ∀ p, s.irqTarget page fn = some p → raw &&& s.getReg b page 0x014 ≠ s.getReg b page 0x010 &&& s.getReg b page 0x014 →
        assocGet 0 t.msix (p * 2048 + s.pageVec page p) = assocGet 0 s.msix (p * 2048 + s.pageVec page p) + 1)

/-- R80, R86, R672: the counter of a file page restarts on a write of its selection and is read in two halves; BAR2 reads and writes
4 bytes of a square's store; BAR6 reads and writes device memory through the first extent. -/
def Obligations.WindowsAndCountersReadWhatTheyName : Prop :=
  (∀ s fn f v, f < 16 → v < 2 ^ 32 → Reaches s fn (filePage f) → s.holdsFile fn f = true → resvHit (filePage f) 0x084 v = false →
    Answers (.filPerfSelWrite fn f v) s fun t =>
      t.getReg 0 (filePage f) 0x084 = BitVec.ofNat 32 v ∧ (t.file f).perf = 0 ∧ RegsKept s t [(0, filePage f, 0x084)]) ∧
  (∀ s fn f, f < 16 → s.serves (filePage f) = true → s.holdsFile fn f = true → Answers (.filPerfLoRead fn f) s fun t =>
    t.readData = (s.file f).perf % 2 ^ 32 ∧ (t.getReg 0 (filePage f) 0x08C).toNat = (s.file f).perf / 2 ^ 32 % 2 ^ 16 ∧
    RegsKept s t [(0, filePage f, 0x08C)]) ∧
  (∀ s fn off, s.isOwner fn = true → s.sqServes (off / 2 ^ 16 % 256) = true →
    (∀ p, s.fileHolder (sqFile (off / 2 ^ 16 % 256)) = some p → p = fn) →
    let sq := off / 2 ^ 16 % 256
    let a := s.getF 0 (Fld.FIL_WINDOW_POS.onPage (filePage (sqFile sq))) * 2 ^ 16 + off % 2 ^ 16 / 4 * 4
    (∀ v, Answers (.bar2Access fn off (some v)) s fun t =>
      t.storeRead sq a 4 = leBytes 4 v ∧ t.regs = s.regs ∧
      ∀ k, (k < sq * 2 ^ 20 + a ∨ sq * 2 ^ 20 + a + 4 ≤ k) → assocGet 0 t.mem.store k = assocGet 0 s.mem.store k) ∧
    (Sound s sq a 4 →
      exec (.bar2Access fn off none) s = .next { s with readData := leNat (s.storeRead sq a 4) }) ∧
    ((s.mem.storeErrs.filter fun e => (storeWords sq a 4).contains e.1) = [] → s.storePoisoned sq a 4 = true →
      exec (.bar2Access fn off none) s = .next { s with readData := (Config.free s.free 32).toNat, free := s.free + 1 })) ∧
  (∀ s fn off base size rest, s.getF 0 Fld.DEV_BOOT_STAGE = 7 → s.extents fn = (base, size) :: rest →
    (∀ d : List Byte, off + d.length ≤ size → 0 < d.length → (∀ k, k < d.length → s.chanServes (chanOf (base + off + k)) = true) →
      Answers (.bar6Access fn off 0 (some d)) s fun t =>
      t.devRead (base + off) d.length = d ∧ t.regs = s.regs ∧
      ∀ k, (k < base + off ∨ base + off + d.length ≤ k) → assocGet 0 t.mem.dev k = assocGet 0 s.mem.dev k) ∧
    (∀ len, off + len ≤ size → 0 < len → (∀ k, k < len → s.chanServes (chanOf (base + off + k)) = true) →
      s.devPoisoned (base + off) len = false →
      exec (.bar6Access fn off len none) s = .next { s with readData := leNat (s.devRead (base + off) len) }))

/-! ## Tile movers -/

/-- R167, R168, R169, R172, R178, R181: what an idle mover does with the descriptor that it takes, before a tile arrives. FETCH is stated
without RES and with a deadline that is not past, PREFETCH for a run that the Reserve holds. -/
def Obligations.MoversTakeTheirDescriptors : Prop :=
  ∀ s sq mv d rest x j b, TakesDesc s sq mv d rest x j b →
    let m := (s.square sq).mover mv
    let s0 := s.setMover sq mv { m with issued := rest }
    let f : Flight := { d := d, desc := b, taint := d.dtaint }
    let takes := fun (t : State) (f : Flight) => (t.square sq).mover mv = { m with issued := rest, flight := some f } ∧
      t.mem.dev = s.mem.dev ∧ t.mem.store = s.mem.store
    (∀ s1 s2 far fb, dOp b = 1 → dRes b = false → (∀ t, dDue b d.stamp = some t → s.now ≤ t) → s0.farLines j.fn x.job b = (s1, .ok far) →
      s1.fbLines j.fn x b = (s2, .ok fb) →
      Answers (.moverFetch sq mv) s fun t =>
        takes t { f with far := far, fb := fb, left := List.range (dCount b), deadline := dDue b d.stamp }) ∧
    (∀ s1 far, dOp b = 2 → dBcast b = false → s0.farLines j.fn x.job b = (s1, .ok far) →
      Answers (.moverStore sq mv) s fun t => takes t { f with far := far }) ∧
    (dOp b = 2 → dBcast b = true → (∀ i, (rectFiles b).1 ≤ i → i ≤ (rectFiles b).2 → s.fileHolder i = some j.fn) →
      Answers (.moverBcastStore sq mv) s fun t => takes t f) ∧
    (∀ s1 far id e, dOp b = 3 → dRes b = true → dPin b = false → s0.farLines j.fn x.job b = (s1, .ok far) →
      s.keyedEntry j.fn b = some (id, e) → e.st ≠ .filling →
      Answers (.moverPrefetch sq mv) s fun t => takes t { f with far := far, left := [], hit := some id } ∧
        (t.mem.entries.find? fun a => a.1 == id) = some (id, { e with stamp := s.ageStamp })) ∧
    (∀ id e, dOp b = 4 → s.keyedEntry j.fn b = some (id, e) → e.st = .pinned →
      Answers (.moverUnpin sq mv) s fun t => takes t f ∧
        (t.mem.entries.find? fun a => a.1 == id) = some (id, { e with st := .valid })) ∧
    (dOp b = 5 → (s.mem.entries.map (·.1)).Nodup → Answers (.moverInval sq mv) s fun t => takes t f ∧
      ∀ e ∈ t.mem.entries, e.2.fn = j.fn → spansMeet (e.2.addr, e.2.len) (dAddr b, dSpan b) = true → e.2.st = .filling ∧ e.2.stale = true)

/-- R170, R171: a tile of a FETCH from device memory that is on time goes to its lines of the region; a deadline that passes replaces
every missing tile by its fallback, or makes the descriptor late.
R116, R171, R174: completion frees the mover, records the status and the sequence number, and writes WB_STATUS and WB_COUNT into the
descriptor; a STORE's lines reach device memory. Stated for a group that has not ended. -/
def Obligations.TilesArriveAndMoverDescriptorsComplete : Prop :=
  (((∀ s sq mv f x j i, InFlight s sq mv f x j → i ∈ f.left → f.expired s.now = false → x.st ≠ .ending → dOp f.desc = 1 →
      f.entry = none → dSided f.desc = false → (∀ l ∈ f.far, l.1 = 0 ∧ s.chanServes (chanOf l.2) = true) →
        s.linesPoisoned j.fn f.far (tileLines f.desc i) = false →
      Answers (.tileArrival sq mv i) s fun t =>
        ((t.square sq).mover mv).flight = some { f with left := f.left.erase i } ∧ t.regs = s.regs ∧ t.mem.dev = s.mem.dev ∧
        ∀ k ∈ tileLines f.desc i, ∀ a, f.far[k]? = some (0, a) → t.regionRead x (storeOff f.desc k) 64 = s.devRead a 64) ∧
    (∀ s sq mv f x j, InFlight s sq mv f x j → f.left ≠ [] → f.expired s.now = true → f.entry = none →
      Answers (.tileDeadlineExpiry sq mv) s fun t => ∃ y : Flight, ((t.square sq).mover mv).flight = some y ∧ y.left = [] ∧
        (if dFb f.desc then y.fallback = f.fallback + f.left.length ∧ y.late = f.late else y.late = true ∧ y.fallback = f.fallback) ∧
        t.mem.dev = s.mem.dev ∧
        ((∀ l ∈ f.fb, (s.lineRead j.fn l).2 = false ∧ (l.1 = tStore → Sound s (l.2 / 2 ^ 20) (l.2 % 2 ^ 20) 64)) → t.regs = s.regs))) ∧
  (∀ s sq mv f x j, InFlight s sq mv f x j → f.left = [] → f.entry = none → f.d.walk = none → x.square = sq →
      (x.lanesets.all fun e => e.2.ended) = false →
      (dOp f.desc ≠ 2 → Answers (.moverDescriptorComplete sq mv) s fun t =>
        ((t.square sq).mover mv).flight = none ∧ ((t.square sq).mover mv).done = (f.d.seq + 1) % 2 ^ 24 ∧
        ((t.square sq).mover mv).statuses.head? = some (f.d.seq, f.outcome.code) ∧
        t.storeRead sq (x.base + f.d.off + 60) 4 = leBytes 2 f.outcome.code ++ leBytes 2 f.count ∧ t.mem.dev = s.mem.dev) ∧
      (dOp f.desc = 2 → dBcast f.desc = false → f.status = .ok → f.taint = false →
        (∀ l ∈ f.far, l.1 = 0 ∧ s.chanServes (chanOf l.2) = true) → f.far.Pairwise (fun p q => p.2 + 64 ≤ q.2 ∨ q.2 + 64 ≤ p.2) →
        Answers (.moverDescriptorComplete sq mv) s fun t => ((t.square sq).mover mv).flight = none ∧
          ∀ k ∈ contentLines f.desc, ∀ a, f.far[k]? = some (0, a) → t.devRead a 64 = s.regionRead x (storeOff f.desc k) 64)))

/-! ## The Reserve and the MMU -/

/-- R165, R177, R181, R182, R190, R191, R194: the Reserve's commands of a partition and the invalidation of translations. -/
def Obligations.ReserveAndMmuCommandsRun : Prop :=
  (∀ s fn v, Reaches s fn 0x06 → s.cmdDone fn Fld.RSV_CMD_STS_DONE = true → resvHit 0x06 0x050 v = false →
    let sts := Fld.RSV_CMD_STS_STATUS
    let slice := if bit v 23 then bits v 27 24 else s.homeSlice fn
    (∀ p, opCode v = 1 → s.rsvPinned fn + 1 ≤ s.pinFloor fn → s.freePage slice = some p → Answers (.rsvAlloc fn v) s fun t =>
      Completed t fn sts .ok ∧ t.getF fn Fld.RSV_CMD_STS_PAGE = p ∧ t.pageUse p = .mapped fn ∧
      ∀ q, q ≠ p → t.pageUse q = s.pageUse q) ∧
    (opCode v = 1 → s.pinFloor fn < s.rsvPinned fn + 1 → Answers (.rsvAlloc fn v) s fun t =>
      Completed t fn sts .pinLimit ∧ t.mem = s.mem) ∧
    (opCode v = 2 → s.holdsPage fn (bits v 13 0) = true → s.pageInFlight (bits v 13 0) = true → Answers (.rsvFree fn v) s fun t =>
      t.cmdDone fn Fld.RSV_CMD_STS_DONE = false ∧ (fn, bits v 13 0) ∈ t.mem.freeing ∧ t.mem.pages = s.mem.pages ∧ t.mem.rsv = s.mem.rsv) ∧
    (opCode v = 2 → s.holdsPage fn (bits v 13 0) = true → s.pageInFlight (bits v 13 0) = false → Answers (.rsvFree fn v) s fun t =>
      Completed t fn sts .ok ∧ t.pageUse (bits v 13 0) = .free ∧
      ∀ k, k < 4096 → assocGet 0 t.mem.rsv (bits v 13 0 * 4096 + k) = 0) ∧
    (opCode v = 2 → s.holdsPage fn (bits v 13 0) = false → Answers (.rsvFree fn v) s fun t =>
      Completed t fn sts .accessDenied ∧ t.mem = s.mem) ∧
    (opCode v = 3 → Answers (.rsvUnpinAll fn v) s fun t =>
      Completed t fn sts .ok ∧ (∀ e ∈ t.mem.entries, e.2.fn = fn → e.2.st ≠ .pinned) ∧ { t.mem with entries := s.mem.entries } = s.mem) ∧
    (opCode v = 4 → Answers (.rsvInvalAll fn v) s fun t =>
      Completed t fn sts .ok ∧ ∀ e ∈ t.mem.entries, e.2.fn = fn → e.2.st ≠ .valid)) ∧
  (∀ s fn v, Reaches s fn 0x06 → v < 2 ^ 32 →
    (1 ≤ bits v 15 8 → bits v 15 8 ≤ 32 → bits v 7 0 ≤ bits v 15 8 → bits v 31 16 ≠ 0 → Answers (.rsvFbvCtlWrite fn v) s fun t =>
      t.getReg fn 0x06 0x06C = BitVec.ofNat 32 v ∧ ∀ e ∈ t.trackers, e.1 / 2 ^ 48 ≠ fn) ∧
    (bits v 31 16 = 0 → Answers (.rsvFbvCtlWrite fn v) s fun t =>
      t.getF fn (Fld.ERR_CODE_CODE.onPage 0x06) = Status.malformed.code ∧ t.trackers = s.trackers)) ∧
  (∀ s fn v, s.serves 0x08 = true → s.flag fn Fld.MMU_INVAL_STS_BUSY = false → resvHit 0x08 0x04C v = false →
    Answers (.mmuInval fn v) s fun t => t.flag fn Fld.MMU_INVAL_STS_BUSY = true ∧
      (∀ e, e ∈ t.mem.tlb ↔ e ∈ s.mem.tlb ∧ invalNames fn (s.getReg fn 0x08 0x048).toNat v e.1 = false) ∧
      t.mem.dev = s.mem.dev) ∧
  (∀ s fn, (s.flights.any fun f => f.inval && s.flightOf fn f) = false → Answers (.mmuInvalComplete fn) s fun t =>
    t.flag fn Fld.MMU_INVAL_STS_BUSY = false ∧ { t with regs := s.regs } = s ∧ RegsKept s t [(fn, 0x08, 0x050)]) ∧
  (∀ s fn f, f ∈ s.flights → f.inval = true → s.flightOf fn f = true → exec (.mmuInvalComplete fn) s = .next s)

/-! ## Device memory -/

/-- R202, R203, R204, R206, R207, R208: reads and writes of device memory, the patrol and the write-back. A unit beyond 28 GiB does not exist
(R196): an access to it is the model's fault `noSuchUnit`. To which wrong word a codeword beyond correction decodes, if to one, is the
model's free value (log entry 21). -/
def Obligations.MemoryAccessesDecodeTheirUnit : Prop :=
  (∀ s pa errs, 0x700000000 ≤ pa → exec (.memRead pa errs) s = .fault .noSuchUnit ∧
    (∀ data, exec (.memWrite pa data errs) s = .fault .noSuchUnit) ∧
    (pa % 512 = 0 → exec (.demandWriteback (pa / 512)) s = .fault .noSuchUnit)) ∧
  (∀ s pa, pa < 0x700000000 → s.chanServes (chanOf pa) = true → assocGet false s.mem.devPoison (pa / 512) = false →
    exec (.memRead pa []) s = .next { s with readData := leNat (s.devRead (pa / 512 * 512) 512) }) ∧
  (∀ s pa errs, pa < 0x700000000 → s.chanServes (chanOf pa) = true →
    let unit := pa / 512
    let chan := chanOf (unit * 512)
    let es := liveErrs (s.retiredPins chan) errs
    (failedCws (s.retiredPins chan) es = [] → es ≠ [] → (∀ e ∈ errs, e.2 < 18) → assocGet false s.mem.devPoison unit = false →
      Answers (.memRead pa errs) s fun t => t.readData = leNat (s.devRead (unit * 512) 512) ∧
        t.getF 0 (chErr Fld.MEM_CHn_ERR_CE chan) = min 0xFFFF (s.getF 0 (chErr Fld.MEM_CHn_ERR_CE chan) + 1) ∧
        (t.getReg 0 0x07 0x090).toNat = unit ∧ t.mem.dev = s.mem.dev) ∧
    (failedCws (s.retiredPins chan) es ≠ [] → Answers (.memRead pa errs) s fun t =>
      let data := s.devRead (unit * 512) 512
      let reported := reportedCws s.free (s.retiredPins chan) data es
      t.mem.dev = s.mem.dev ∧
      (reported ≠ [] → assocGet false t.mem.devPoison unit = true ∧
        t.getF 0 (chErr Fld.MEM_CHn_ERR_UE chan) = min 0xFFFF (s.getF 0 (chErr Fld.MEM_CHn_ERR_UE chan) + 1) ∧
        (t.getReg 0 0x07 0x09C).toNat = unit) ∧
      (reported = [] → (∀ e ∈ errs, e.2 < 18) → assocGet false s.mem.devPoison unit = false →
        t.readData = leNat (decodedBytes s.free (s.retiredPins chan) data es) ∧
        t.getF 0 (chErr Fld.MEM_CHn_ERR_CE chan) = min 0xFFFF (s.getF 0 (chErr Fld.MEM_CHn_ERR_CE chan) + 1)))) ∧
  (∀ s pa data errs, pa < 0x700000000 → pa % 512 = 0 → data.length = 512 → s.chanServes (chanOf pa) = true →
    Answers (.memWrite pa data errs) s fun t => t.devRead pa 512 = data ∧ assocGet false t.mem.devPoison (pa / 512) = false ∧
      t.regs = s.regs ∧ ∀ k, (k < pa ∨ pa + 512 ≤ k) → assocGet 0 t.mem.dev k = assocGet 0 s.mem.dev k) ∧
  (∀ s chan, chan < 8 → s.flag 0 Fld.MEM_CTL_PATROL = true → s.chanServes chan = true → chan ∉ s.mem.ctl.scrubbed →
    (s.mem.ctl.scrubbed.length < 7 → Answers (.patrolScrub chan []) s fun t =>
      t.mem.ctl.scrubbed = chan :: s.mem.ctl.scrubbed ∧ t.regs = s.regs ∧ t.mem.dev = s.mem.dev) ∧
    (s.mem.ctl.scrubbed.length = 7 → s.getF 0 Fld.MEM_SCRUB_POS_UNIT + 1 < chanUnits → Answers (.patrolScrub chan []) s fun t =>
      t.mem.ctl.scrubbed = [] ∧ t.getF 0 Fld.MEM_SCRUB_POS_UNIT = s.getF 0 Fld.MEM_SCRUB_POS_UNIT + 1 ∧ t.mem.dev = s.mem.dev)) ∧
  (∀ s unit, unit * 512 < 0x700000000 → unit ∈ s.mem.ctl.writeBacks → s.pageSt 0x07 = stOn →
    let c := s.mem.ctl
    (c.wbData.find? (fun e => e.1 == unit) = none → exec (.demandWriteback unit) s = .next { s with mem := { s.mem with
      ctl := { c with writeBacks := c.writeBacks.erase unit, wbData := assocErase unit c.wbData } } }) ∧
    (∀ e, c.wbData.find? (fun e => e.1 == unit) = some e → e.2.length = 512 → Answers (.demandWriteback unit) s fun t =>
      t.devRead (unit * 512) 512 = e.2 ∧ t.mem.ctl.writeBacks = c.writeBacks.erase unit ∧ t.regs = s.regs))

/-- R209, R210, R211, R213, R217: retirement of pins, training, tracking, refresh, temperature and self-refresh. -/
def Obligations.MemoryUpkeepFollowsItsRules : Prop :=
  (∀ s chan pin, s.flag 0 Fld.MEM_CTL_AUTORET = true → chan < 8 → pin < 32 → pin ∉ s.retiredPins chan →
    s.getF 0 Fld.MEM_PINRET_COUNT ≤ s.pinCount chan pin →
    ((s.retiredPins chan).length < 2 → Answers (.autoPinRetire chan pin) s fun t =>
      pin ∈ t.retiredPins chan ∧ t.getF 0 Fld.DEV_FLT_KIND = 5 ∧ t.getF 0 Fld.DEV_FLT_WHERE = chan * 32 + pin) ∧
    (2 ≤ (s.retiredPins chan).length → Answers (.autoPinRetire chan pin) s fun t =>
      bit (t.getF 0 Fld.MEM_TRAIN_STS_DEGRADED) chan = true ∧ t.retiredPins chan = s.retiredPins chan)) ∧
  (∀ s fn v, Reaches s fn 0x07 → s.isOwner fn = true → s.cmdDone 0 Fld.MEM_CMD_STS_STATUS = true → resvHit 0x07 0x050 v = false →
    let chan := bits v 26 24
    let pin := bits v 4 0
    let sts := Fld.MEM_CMD_STS_STATUS
    (opCode v = 1 → (pin ∈ s.retiredPins chan ∨ (s.retiredPins chan).length < 2) → Answers (.memRetire fn v) s fun t =>
      Completed t 0 sts .ok ∧ pin ∈ t.retiredPins chan ∧ ∀ p ∈ s.retiredPins chan, p ∈ t.retiredPins chan) ∧
    (opCode v = 1 → pin ∉ s.retiredPins chan → 2 ≤ (s.retiredPins chan).length → Answers (.memRetire fn v) s fun t =>
      Completed t 0 sts .retireLimit ∧ t.retiredPins chan = s.retiredPins chan) ∧
    (opCode v = 2 → Answers (.memUnretire fn v) s fun t => Completed t 0 sts .ok ∧
      t.retiredPins chan = (s.retiredPins chan).filter fun p => p != pin) ∧
    (opCode v = 3 → s.anyKres = false → Answers (.memRetrain fn v) s fun t =>
      t.mem.ctl.training = some chan ∧ t.getF 0 Fld.MEM_CMD_STS_DONE = 0 ∧ t.chanServes chan = false) ∧
    (opCode v = 3 → s.anyKres = true → Answers (.memRetrain fn v) s fun t =>
      Completed t 0 sts .retrainRefused ∧ t.mem = s.mem)) ∧
  (∀ s c ok, s.mem.ctl.training = some c → c < 8 → Answers (.memRetrainDone ok) s fun t =>
    t.mem.ctl.training = none ∧ Completed t 0 Fld.MEM_CMD_STS_STATUS (if ok then .ok else .internalError) ∧
    bit (t.getF 0 Fld.MEM_TRAIN_STS_TRAINED) c = ok ∧ bit (t.getF 0 Fld.MEM_TRAIN_STS_FAILED) c = !ok) ∧
  (∀ s chan temp, chan < 8 → s.chanServes chan = true → assocGet 0 s.mem.ctl.trackAt chan + 62500000 ≤ s.ticks →
    Answers (.memTracking chan temp) s fun t => assocGet 0 t.mem.ctl.trackAt chan = s.ticks ∧
      assocGet 0 t.mem.ctl.trackTemp chan = temp) ∧
  (∀ s chan bank, chan < 8 → bank < 16 → s.chanServes chan = true → Answers (.bankRefresh chan bank) s fun t =>
    assocGet 0 t.mem.ctl.refreshAt (chan * 16 + bank) = s.ticks ∧ t.regs = s.regs ∧ t.mem.dev = s.mem.dev) ∧
  (∀ s chan temp, chan < 8 → 95 ≤ temp → s.flag 0 Fld.MEM_TEMP_HOT = false → Answers (.memTempHot chan temp) s fun t =>
    t.flag 0 Fld.MEM_TEMP_HOT = true ∧ bit (t.getReg 0 0x07 0x010).toNat 4 = true ∧ assocGet 32 t.mem.ctl.window chan = 16 ∧
      chan ∈ t.mem.ctl.halved) ∧
  (∀ s, s.pageSt 0x07 = stStopping → s.mem.ctl.writeBacks = [] → s.mem.ctl.training = none →
    Answers .memSelfRefreshEntry s fun t => t.pageSt 0x07 = stHeld ∧ RegsKept s t [(0, 0x07, 0x00C)]) ∧
  (∀ s, s.pageSt 0x07 = stStarting → Answers .memReady s fun t => t.pageSt 0x07 = stOn ∧ RegsKept s t [(0, 0x07, 0x00C)])

/-! ## Queues -/

/-- R228, R231, R232, R233, R236: doorbells that lie in the ring, one that does not, the taking of an entry, and the moderation timer. -/
def Obligations.DoorbellsAndEntriesMoveTheRings : Prop :=
  (∀ s fn q v, s.getF 0 Fld.DEV_BOOT_STAGE = 7 → q < s.qcount fn → s.unsupported fn = false → s.dspOn = true → s.isActive = true →
    (s.queue fn q).takesDb = true → v < 2 ^ 32 →
    let Q := s.queue fn q
    (sub32 Q.sqTail Q.sqHead < sub32 v Q.sqHead → sub32 v Q.sqHead ≤ 2 ^ Q.sqsz → Answers (.sqDoorbell fn q v) s fun t =>
      t.queue fn q = { Q with sqTail := v, stamps := (v, s.now) :: Q.stamps, bells := s.bellAt fn q v :: Q.bells } ∧ t.regs = s.regs) ∧
    (2 ^ Q.sqsz < sub32 v Q.sqHead → sub32 Q.sqTail Q.sqHead < sub32 v Q.sqHead → Answers (.sqDoorbell fn q v) s fun t =>
      t.queue fn q = Q ∧ t.getF fn (Fld.ERR_CODE_CODE.onPage 0x05) = Status.doorbellInvalid.code ∧
      t.getF fn Fld.DSP_DB_DROP = min (2 ^ 32 - 1) (s.getF fn Fld.DSP_DB_DROP + 1)) ∧
    (sub32 v Q.cqHead ≤ sub32 Q.cqTail Q.cqHead → Answers (.cqHeadDoorbell fn q v) s fun t =>
      t.queue fn q = { Q with cqHead := v } ∧ t.regs = s.regs)) ∧
  (∀ s fn q s1 b,
    let Q := s.queue fn q
    s.dspOn = true → Q.st = .active → Q.cmd = .none → Q.fetched = none → Q.sqHead ≠ Q.sqTail → Q.slotFree = true →
    s.vaRead fn .dispatcher (Q.sqBase + 64 * (Q.sqHead % 2 ^ Q.sqsz)) 64 = (s1, .ok b) → Q.windowFull (parseEntry b) = false →
    Answers (.entryTake fn q) s fun t => (t.queue fn q).fetched = some (b, Q.sqHead, stampOf Q.stamps Q.sqHead) ∧
      (t.queue fn q).sqHead = (Q.sqHead + 1) % 2 ^ 32 ∧ (t.queue fn q).inflight = Q.inflight + 1) ∧
  (∀ s fn q,
    let Q := s.queue fn q
    Q.unsig ≠ 0 → Q.modTime ≠ 0 → Q.unsigAt + 1000 * Q.modTime ≤ s.now → Answers (.cqIrqTimer fn q) s fun t =>
      t.queue fn q = { Q with unsig := 0 } ∧ t.regs = s.regs ∧
      (if Q.ien then assocGet 0 t.msix (fn * 2048 + Q.vec) = assocGet 0 s.msix (fn * 2048 + Q.vec) + 1 else t.msix = s.msix))

/-- R226, R227, R238, R242, R243, R244: what the entries of the three operations do, and what ends a running job. LAUNCH is stated for an
entry without argument block and without a tag, CANCEL for no target and for a running one in time, where its queue has taken no LAUNCH
that is not yet a job. -/
def Obligations.EntriesLaunchCompleteAndCancel : Prop :=
  (∀ s fn q b i stamp, HasEntry s fn q 1 b i stamp →
    let e := parseEntry b
    let j := s.entryJob fn q e i stamp
    e.argVa = 0 → e.idem = false → s.launchFault e j = none → Answers (.sqLaunch fn q) s fun t =>
      t.job s.nextJob = some j ∧ t.nextJob = s.nextJob + 1 ∧ t.queue fn q = { s.queue fn q with fetched := none } ∧ t.regs = s.regs) ∧
  (∀ s fn q b i stamp, HasEntry s fn q 0 b i stamp → s.queueJobs fn q = [] → s.job s.nextJob = none → CqWrites s fn q →
    NoErrors s → Answers (.sqNop fn q) s fun t => (t.queue fn q).fetched = none ∧
      (t.queue fn q).cqTail = add32 (s.queue fn q).cqTail 1 ∧ (t.queue fn q).inflight = (s.queue fn q).inflight - 1) ∧
  (∀ s fn q b i stamp, HasEntry s fn q 2 b i stamp → CqWrites s fn q → NoErrors s → (parseEntry b).tq < s.qcount fn →
    NoLaunchTaken s fn (parseEntry b).tq → (∀ e ∈ s.jobs, e.2.fn = fn → e.2.q ≠ (parseEntry b).tq) → Answers (.sqCancel fn q) s fun t =>
      (t.queue fn q).fetched = none ∧ (t.queue fn q).cqTail = add32 (s.queue fn q).cqTail 1 ∧ t.jobs = s.jobs) ∧
  (∀ s fn v, Reaches s fn 0x05 → s.cmdDone fn Fld.DSP_CANCEL_STS_DONE = true → bits v 15 0 < s.qcount fn → NoErrors s →
    NoLaunchTaken s fn (bits v 15 0) →
    (s.cancelTarget fn (bits v 15 0) (fun j => j.cid == bits v 31 16) = none → Answers (.dspCancel fn v) s fun t =>
      Completed t fn Fld.DSP_CANCEL_STS_STATUS .ok ∧ t.getF fn Fld.DSP_CANCEL_STS_RESULT = 0 ∧ t.jobs = s.jobs) ∧
    (∀ id j, s.cancelTarget fn (bits v 15 0) (fun j => j.cid == bits v 31 16) = some (id, j) → Runs s id j → InTime s j →
      Answers (.dspCancel fn v) s fun t => Completed t fn Fld.DSP_CANCEL_STS_STATUS .ok ∧
        t.getF fn Fld.DSP_CANCEL_STS_RESULT = 2 ∧ StopsAtBoundary s t id j .cancelled 3 s.ticks)) ∧
  (∀ s id j d, Runs s id j → j.deadline = some d → d < s.now → Answers (.jobDeadlineExpiry id) s fun t =>
    StopsAtBoundary s t id j .timeout 0 (j.expiredAt s.now s.ticks) ∧ t.regs = s.regs) ∧
  (∀ s id j, Runs s id j → j.overrun s.ticks = true → Answers (.jobRuntimeExpiry id) s fun t =>
    StopsAtBoundary s t id j .timeout (if j.overdue s.now then 0 else 1) (j.expiredAt s.now s.ticks) ∧ t.regs = s.regs)

/-- R224, R249, R252, R253: the queue commands, the registers that a selection loads, and the statistics. DELETE and RESET are stated
for a queue without jobs. -/
def Obligations.QueueCommandsMakeAndEndQueues : Prop :=
  (∀ s fn v, Reaches s fn 0x05 → s.cmdDone fn Fld.DSP_QCMD_STS_DONE = true → resvHit 0x05 0x044 v = false → NoErrors s →
    let q := s.getF fn Fld.DSP_QSEL_QUEUE
    let sts := Fld.DSP_QCMD_STS_STATUS
    (opCode v = 1 → s.createOk fn q = true → Answers (.dspQcmdCreate fn v) s fun t =>
      t.queue fn q = s.newQueue fn ∧ Completed t fn sts .ok) ∧
    (opCode v = 1 → (s.queue fn q).st ≠ .disabled → Answers (.dspQcmdCreate fn v) s fun t =>
      Completed t fn sts .queueRefused ∧ t.queues = s.queues) ∧
    (opCode v = 2 → (s.queue fn q).st ≠ .disabled → s.queueJobs fn q = [] → (s.queue fn q).fetched = none →
      Answers (.dspQcmdDelete fn v) s fun t =>
        t.queue fn q = { s.queue fn q with cmd := .delete } ∧ t.getF fn Fld.DSP_QCMD_STS_DONE = 0) ∧
    (opCode v = 3 → (s.queue fn q).st ≠ .disabled → q < s.qcount fn → s.queueJobs fn q = [] → (s.queue fn q).fetched = none →
      Answers (.dspQcmdReset fn v) s fun t =>
        t.queue fn q = { s.queue fn q with cmd := .reset } ∧ t.getF fn Fld.DSP_QCMD_STS_DONE = 0)) ∧
  (∀ s fn q, q < 65536 → (s.queue fn q).cmd ≠ .none → s.queueJobs fn q = [] →
    (s.queues.filter fun e => decide (e.1 / 65536 = fn) && e.2.cmd != .none) = [(queueKey fn q, s.queue fn q)] →
    Answers (.queueCmdDone fn) s fun t => Completed t fn Fld.DSP_QCMD_STS_STATUS .ok ∧
      t.queue fn q = if (s.queue fn q).cmd = .delete then {} else (s.queue fn q).afterReset) ∧
  (∀ s fn v, Reaches s fn 0x05 → resvHit 0x05 0x040 v = false → (s.queue fn (bits v 15 0)).st ≠ .disabled →
    let Q := s.queue fn (bits v 15 0)
    Answers (.dspQselWrite fn v) s fun t => t.getF fn Fld.DSP_QSEL_QUEUE = bits v 15 0 ∧
      t.getReg fn 0x05 0x04C = BitVec.ofNat 32 Q.cfgWord ∧
      t.getReg fn 0x05 0x050 = BitVec.ofNat 32 Q.sqBase ∧ t.getReg fn 0x05 0x054 = BitVec.ofNat 32 (Q.sqBase / 2 ^ 32) ∧
      t.getReg fn 0x05 0x058 = BitVec.ofNat 32 Q.cqBase ∧ t.getReg fn 0x05 0x05C = BitVec.ofNat 32 (Q.cqBase / 2 ^ 32) ∧
      t.getReg fn 0x05 0x060 = BitVec.ofNat 32 (Q.modCount + 2 ^ 16 * Q.modTime) ∧
      t.getReg fn 0x05 0x064 = BitVec.ofNat 32 Q.kfiles ∧ t.getReg fn 0x05 0x068 = BitVec.ofNat 32 Q.timeout ∧
      t.queues = s.queues) ∧
  (∀ s fn, s.serves 0x05 = true → Answers (.dspStatLoRead fn) s fun t =>
    let v := s.qstat fn (s.getF fn Fld.DSP_STAT_SEL_STAT) (s.getF fn Fld.DSP_STAT_SEL_QUEUE)
    t.readData = v % 2 ^ 32 ∧ t.getF fn Fld.DSP_STAT_HI = v / 2 ^ 32 % 2 ^ 32 ∧ t.queues = s.queues)

/-- R255, R337, R370, R408, R442, R470, R498, R534, R676, R683: CTL of the block pages. ENABLE starts a page that is OFF and stops one
that is ON, QUIESCE stops it and keeps ENABLE, RESET starts one in FAULT, a start ends in ON and a stop in OFF. -/
def Obligations.BlockPagesFollowTheStateTable : Prop :=
  (∀ p : Nat × (Nat → Bool → Instr), p ∈ ([
      (0x05, .dispatcherEnable), (0x09, .tempoEnable), (0x0A, .ringEnable), (0x0B, .knightEnable), (0x0C, .solverEnable),
      (0x0D, .fusionEnable), (0x0E, .inputEnable), (0x0F, .edgeEnable)] : List (Nat × (Nat → Bool → Instr))) →
    ∀ s fn, Reaches s fn p.1 → s.ctlMay fn p.1 = true →
    (s.pageSt p.1 = stOff → s.domainDown p.1 = false → Answers (p.2 fn true) s fun t =>
      t.pageSt p.1 = stStarting ∧ t.enableReq p.1 = true) ∧
    (s.pageSt p.1 = stOff → s.domainDown p.1 = true → Answers (p.2 fn true) s fun t =>
      t.pageSt p.1 = stHeld ∧ t.enableReq p.1 = true) ∧
    (s.pageSt p.1 = stOn → s.jobs = [] → s.tempo = {} → s.knight = {} → Answers (p.2 fn false) s fun t =>
      t.pageSt p.1 = stStopping ∧ t.enableReq p.1 = false) ∧
    (s.pageSt p.1 = stStarting → Answers (p.2 fn false) s fun t => t.pageSt p.1 = stStarting ∧ t.enableReq p.1 = false)) ∧
  (∀ p : Nat × (Nat → Instr), p ∈ ([
      (0x05, .dispatcherQuiesce), (0x09, .tempoQuiesce), (0x0A, .ringQuiesce), (0x0B, .knightQuiesce), (0x0C, .solverQuiesce),
      (0x0D, .fusionQuiesce), (0x0E, .inputQuiesce), (0x0F, .edgeQuiesce)] : List (Nat × (Nat → Instr))) →
    ∀ s fn, Reaches s fn p.1 → s.ctlMay fn p.1 = true → s.jobs = [] → s.tempo = {} → s.knight = {} →
    s.pageSt p.1 = stOn → Answers (p.2 fn) s fun t => t.pageSt p.1 = stStopping ∧ t.enableReq p.1 = s.enableReq p.1) ∧
  (∀ p : Nat × (Nat → Instr), p ∈ ([
      (0x09, .tempoReset), (0x0B, .knightReset), (0x0C, .solverReset), (0x0D, .fusionReset), (0x0F, .edgeReset)] :
        List (Nat × (Nat → Instr))) →
    ∀ s fn, Reaches s fn p.1 → s.ctlMay fn p.1 = true → s.pageSt p.1 = stFault →
    Answers (p.2 fn) s fun t => t.pageSt p.1 = stStarting) ∧
  (∀ p : Nat × Instr, p ∈ ([
      (0x05, .dispatcherStartDone), (0x09, .tempoStartDone), (0x0A, .ringStartDone), (0x0B, .knightStartDone),
      (0x0C, .solverStartDone), (0x0D, .fusionStartDone), (0x0E, .inputStartDone), (0x0F, .edgeStartDone)] : List (Nat × Instr)) →
    ∀ s, s.pageSt p.1 = stStarting → s.enableReq p.1 = true → (s.ctl p.1).recQuiesce = false →
    (∀ e ∈ s.queues, e.2.held = []) → Answers p.2 s fun t => t.pageSt p.1 = stOn ∧ t.queues = s.queues) ∧
  (∀ p : Nat × Instr, p ∈ ([
      (0x05, .dispatcherStopDone), (0x09, .tempoStopDone), (0x0A, .ringStopDone), (0x0B, .knightStopDone),
      (0x0C, .solverStopDone), (0x0D, .fusionStopDone), (0x0E, .inputStopDone), (0x0F, .edgeStopDone)] : List (Nat × Instr)) →
    ∀ s, s.pageSt p.1 = stStopping → BlockIdle s p.1 → (s.ctl p.1).hold = false →
    (s.ctl p.1).recEnable = false → Answers p.2 s fun t => t.pageSt p.1 = stOff)

/-- R221, R255, R571, R572, R589: function level resets, the Dispatcher's RESET, and the failures of its cores. -/
def Obligations.FunctionResetsAndCoreFaultsAreContained : Prop :=
  (∀ s fn, s.isCtlOwner fn = false → Answers (.functionLevelReset fn) s fun t => t.unsupported fn = true ∧
    (t.csl.chal.find? fun e => e.1 == fn) = none) ∧
  (∀ s port, port < 4 → Answers (.vfEnableClear port) s fun t => t.getF 0 (Fld.PCI_PORTn_VFS.plus (4 * port)) = 0) ∧
  (∀ s port, port < 4 → Answers (.pcieFundamentalReset port) s fun t => t.getF 0 (Fld.PCI_PORTn_SPEED.plus (4 * port)) = 1 ∧
    t.getF 0 (Fld.PCI_PORTn_WIDTH.plus (4 * port)) = 0 ∧ t.getF 0 (Fld.PCI_PORTn_VFS.plus (4 * port)) = 0) ∧
  (∀ s fn, Reaches s fn 0x05 → s.isOwner fn = true → s.pageSt 0x05 = stOn → s.isActive = true → s.rst.run = none → s.tempo = {} →
    Answers (.dispatcherReset fn) s fun t => t.rst.run = some (false, 1) ∧ t.queues = s.queues) ∧
  (∀ s core, core < 2 → core ∉ s.rst.failedCores → s.dspOn = true → Answers (.dispatcherCoreFailover core) s fun t =>
    t.rst.failedCores = s.rst.failedCores ++ [core] ∧ t.getF 0 Fld.DEV_FLT_KIND = 2 ∧ t.getF 0 Fld.DEV_FLT_WHERE = core ∧
    t.queues = s.queues ∧ t.groups = s.groups) ∧
  (∀ s core, 2 ≤ core → core ≤ 7 → core ∉ s.rst.failedCores → (∀ e ∈ s.jobs, e.2.st = .started → e.2.cls = 2) → NoErrors s →
    exec (.dispatcherCoreFault core) s = .next { s with
      rst := { s.rst with failedCores := s.rst.failedCores ++ [core] }, free := s.free + s.nextJob + 1 })

/-! ## Sequence calls, streams and attention calls -/

/-- R271, R283, R284, R288, R289: the stream commands on the stream that DSP_SEQ_SEL names. -/
def Obligations.StreamCommandsFollowTheStateTable : Prop :=
  ∀ s fn v, Reaches s fn 0x05 → s.cmdDone fn Fld.DSP_SEQ_CMD_STS_STATUS = true → resvHit 0x05 0x104 v = false →
    let h := s.seqSel fn
    let x := s.stream fn h
    let ok := fun t : State => Completed t fn Fld.DSP_SEQ_CMD_STS_STATUS .ok
    (opCode v = 1 → (s.setDecl fn (handleSet h)).isSome = true → x.st = .closed → Answers (.streamOpen fn v) s fun t =>
      ok t ∧ t.stream fn h = { st := .zero, idleSince := s.now }) ∧
    (opCode v = 1 → (s.setDecl fn (handleSet h)).isSome = true → x.st ≠ .closed → Answers (.streamOpen fn v) s fun t =>
      Completed t fn Fld.DSP_SEQ_CMD_STS_STATUS .streamRefused ∧ t.streams = s.streams) ∧
    (opCode v = 2 → x.st ≠ .closed → x.st.rests = true → x.pend = 0 → Answers (.streamClose fn v) s fun t =>
      ok t ∧ t.stream fn h = {} ∧ ∀ p ∈ x.pages, t.pageUse p = .free) ∧
    (∀ k, opCode v = 3 → bit v 27 = false → x.st = .store → x.slot = some k → x.pend = 0 → Answers (.streamPark fn v) s fun t =>
      ok t ∧ t.stream fn h = { x with
        kheld := false, st := .out, toOuter := false, src := .store, parkWait := none, copy := s.slotBytes fn h k,
        copyGen := x.gen, copyPoison := (s.slotScan fn h k).slotPoisoned fn h k, beginTick := s.ticks, byPark := true }) ∧
    (opCode v = 4 → (x.st = .zero ∨ x.st = .resv ∨ x.st = .outer) → Answers (.streamUnpark fn v) s fun t =>
      ok t ∧ t.stream fn h = { x with st := .inn, src := x.st }) ∧
    (opCode v = 5 → x.st ≠ .closed → x.st.rests = true → x.pend = 0 → Answers (.streamSreset fn v) s fun t =>
      ok t ∧ (t.stream fn h).st = .zero ∧ (t.stream fn h).gen = nextGen x.gen ∧ (t.stream fn h).slot = none) ∧
    (∀ s1, opCode v = 6 → x.st = .zero → x.pend = 0 →
      s.vaWrite fn .dispatcher (s.imageVa fn) (leBytes 4 x.gen ++ leBytes 2 h ++ leBytes 2 (handleSet h) ++
        leBytes 4 (s.setLines fn (handleSet h)) ++ leBytes 52 0 ++ List.replicate (s.stateBytes fn h) 0#8) = (s1, .ok ()) →
      Answers (.streamSsave fn v) s fun t => ok t ∧ t.mem = s1.mem ∧ t.streams = s.streams) ∧
    (∀ s1 s2 b ps, opCode v = 7 → x.st ≠ .closed → x.st.rests = true → x.pend = 0 →
      s.vaRead fn .dispatcher (s.imageVa fn) (64 + s.stateBytes fn h) = (s1, .ok b) → leField b 6 2 = handleSet h →
      leField b 8 4 = s.setLines fn (handleSet h) → leField b 12 52 = 0 →
      s1.allocMapped fn (cdiv (s.stateBytes fn h) 4096) (s1.homeSlice fn) = (s2, .ok ps) →
      Answers (.streamSload fn v) s fun t =>
        ok t ∧ (t.stream fn h).st = .resv ∧ (t.stream fn h).gen = nextGen x.gen ∧ (t.stream fn h).pages = ps)

/-- R270, R272, R273, R275, R279, R280, R281, R283: idle streams move out, moves complete, a sequence call is taken and starts. -/
def Obligations.StreamsMoveAndSequenceCallsRun : Prop :=
  (∀ s fn h,
    let x := s.stream fn h
    s.dspOn = true → x.pend = 0 → x.kheld = false →
    (∀ k, x.st = .store → x.slot = some k → s.getF (setBank fn (handleSet h)) Fld.DSP_SEQ_IDLE_IDLE_S ≠ 0 →
      x.idleSince + 1000 * s.getF (setBank fn (handleSet h)) Fld.DSP_SEQ_IDLE_IDLE_S ≤ s.now →
      Answers (.streamIdleSExpiry fn h) s fun t => (t.stream fn h).st = .out ∧ (t.stream fn h).toOuter = false ∧
        (t.stream fn h).copy = s.slotBytes fn h k ∧ (SlotSound s fn h k → t.regs = s.regs)) ∧
    (x.st = .resv → s.getF (setBank fn (handleSet h)) Fld.DSP_SEQ_IDLE_IDLE_R ≠ 0 →
      x.idleSince + 1000000 * s.getF (setBank fn (handleSet h)) Fld.DSP_SEQ_IDLE_IDLE_R ≤ s.now →
      Answers (.streamIdleRExpiry fn h) s fun t => (t.stream fn h).st = .out ∧ (t.stream fn h).toOuter = true ∧ t.regs = s.regs)) ∧
  (∀ s fn h s1 ps,
    let x := s.stream fn h
    x.st = .out → x.src = .store → x.toOuter = false → x.pend = 0 →
    s.allocMapped fn (cdiv (s.stateBytes fn h) 4096) (s.homeSlice fn) = (s1, .ok ps) →
    Answers (.streamSwapOutDone fn h) s fun t =>
      t.stream fn h = { x with st := .resv, slot := none, pages := ps, copy := [] } ∧
      t.getF fn Fld.DSP_SEQ_SWOUT = min (2 ^ 32 - 1) (s1.getF fn Fld.DSP_SEQ_SWOUT + 1)) ∧
  (∀ s fn h k b,
    let x := s.stream fn h
    x.st = .inn → x.parkWait = none → s.freeSlot fn (handleSet h) = some k → s.inBytes fn h = .ok b →
    Answers (.streamSwapInDone fn h) s fun t =>
      t.stream fn h = { x with st := .store, slot := some k, pages := [], idleSince := s.now } ∧
      t.getF fn Fld.DSP_SEQ_SWIN = min (2 ^ 32 - 1) (s.getF fn Fld.DSP_SEQ_SWIN + 1) ∧ ∀ p ∈ x.pages, t.pageUse p = .free) ∧
  (∀ s id j ij s1 b d s2 l lb, s.job id = some j → s.imgJob j = some ij → s.mayTake id 1 j = true → s.readArg j = (s1, .ok b) →
    s1.setDecl j.fn ij.set = some d → seqBlockBad b (32 * d.slotBlk) = false →
    s1.vaRead j.fn .dispatcher (leField b 8 8) (8 * leField b 2 2) = (s2, .ok lb) → parseStreams lb (leField b 2 2) = some l →
    s2.seqErr j.fn d b l = none → ij.attLayers = false → NoUndo s j.fn (l.map (·.1)) →
    Answers (.seqCallTake id) s fun t => (∃ y, t.job id = some y ∧ y.taken = true ∧ y.streams = l ∧ y.arg = b ∧ y.st = .waiting) ∧
      ∀ a ∈ l, (t.stream j.fn a.1).pend = (s.stream j.fn a.1).pend + 1) ∧
  (∀ s id j s1 j1 sq base, s.job id = some j → s.dspPlaces = true → s.jobKind j = 1 → j.st = .waiting → j.stop = none →
    s.atCheck j = true → (∀ a ∈ j.streams, (s.stream j.fn a.1).st = .store) → s.streamsFresh j = true → s.tablesFresh j = true →
    s.itsTurn id j = true → (s.placeOf j).isSome = true → s.startJob id j = (s1, true) → s1.job id = some j1 →
    s1.placeOf j1 = some (sq, base) → j1.units = [] → NoErrors s1 →
    Answers (.seqCallStart id) s fun t => t.job id = some j1.advance ∧ j1.st = .started ∧
      (∀ a ∈ j.streams, (t.stream j.fn a.1).st = .busy) ∧ ∃ x, t.group s1.nextGroup = some x ∧ x.job = id ∧ x.index = j1.next ∧
        x.square = sq)

/-- R298, R300, R302, R304: an attention call is taken with the tables that it names, and a group's page ring follows the count that the
group has consumed. -/
def Obligations.AttentionCallsAreTaken : Prop :=
  (∀ s id j ij s1 b s2 ts, s.job id = some j → s.imgJob j = some ij → s.mayTake id 2 j = true → s.readArg j = (s1, .ok b) →
    attBlockBad b = false →
    s1.readTables j.fn (leField b 8 8) (leField b 2 2) (leField b 4 2) ij.att (leField b 0 1 == 2) = (s2, .ok ts) →
    let taken := fun (t : State) (app : Bool) =>
      ∃ y, t.job id = some y ∧ y.taken = true ∧ y.tables = ts ∧ y.appends = app ∧ y.append = leField b 4 2 ∧ y.st = .waiting
    (leField b 0 1 = 1 → Answers (.attAttend id) s fun t => taken t false ∧ t.mem.dev = s.mem.dev) ∧
    (leField b 0 1 = 2 → Answers (.attAppend id) s fun t => taken t true ∧ t.mem.dev = s.mem.dev)) ∧
  (∀ s g x count, s.group g = some x → (s.pageRing g).consumed ≤ count → count ≤ (s.pageRing g).issued → count < 2 ^ 32 →
    Answers (.pageRingConsumed g count) s fun t => (t.pageRing g).consumed = count ∧
      t.storeRead x.square (x.base + (s.pageRing g).consumedAt) 4 = leBytes 4 count ∧ t.mem.dev = s.mem.dev)

/-! ## Engines with descriptor rings -/

/-- R233, R334, R337, R338, R442, R443, R470, R471: the tail doorbells, the first residue mismatch of a piece of work, and the third
mismatch within a second. -/
def Obligations.RingEnginesTakeDoorbellsAndFault : Prop :=
  (∀ p : RingEng × (Nat → Nat → Instr),
    p ∈ [(edgeR, Instr.edgeTailDoorbell), (knightR, Instr.knightTailDoorbell), (solverR, Instr.solverTailDoorbell)] →
    ∀ s fn v, Reaches s fn p.1.page → s.flag fn (p.1.cfg 31 31) = true → v < 2 ^ 32 →
      (sub32 (s.getF fn p.1.tail) (s.getF fn p.1.head) < sub32 v (s.getF fn p.1.head) →
        sub32 v (s.getF fn p.1.head) ≤ 2 ^ s.getF fn (p.1.cfg 3 0) → Answers (p.2 fn v) s fun t => t.getF fn p.1.tail = v ∧
          t.engStamps p.1 fn = (v, s.now) :: s.engStamps p.1 fn ∧ RegsKept s t [(fn, p.1.page, p.1.tail.off)]) ∧
      (sub32 (s.getF fn p.1.tail) (s.getF fn p.1.head) < sub32 v (s.getF fn p.1.head) →
        2 ^ s.getF fn (p.1.cfg 3 0) < sub32 v (s.getF fn p.1.head) → Answers (p.2 fn v) s fun t =>
          t.getF fn p.1.tail = s.getF fn p.1.tail ∧
          t.getF fn (Fld.ERR_CODE_CODE.onPage p.1.page) = Status.doorbellInvalid.code ∧
          bit (t.getReg fn p.1.page 0x010).toNat p.1.irqRing = true)) ∧
  (∀ p : RingEng × (Nat → Instr), p ∈ [(edgeR, Instr.edgeResidueMismatch), (knightR, Instr.knightResidueMismatch),
      (solverR, Instr.solverResidueMismatch)] →
    ∀ s ctx x, s.task p.1 ctx = some x → x.mism = false → Answers (p.2 ctx) s fun t =>
      t.task p.1 ctx = some { x with mism := true } ∧ (t.engSt p.1).mism.head? = some s.ticks ∧ t.mem = s.mem) ∧
  (∀ p : RingEng × Instr, p ∈ [(edgeR, Instr.edgeThirdMismatch), (knightR, Instr.knightThirdMismatch),
      (solverR, Instr.solverThirdMismatch)] →
    ∀ s, s.pageSt p.1.page = stOn → s.thirdMism p.1 = true → Answers p.2 s fun t => t.pageSt p.1.page = stFault)

/-- R326, R330, R332, R333, R336: an Edge descriptor is taken with its weight blob or refused, its rows are written segment by segment,
and it completes. Stated for descriptors that read memory, without GEN and NEXT. -/
def Obligations.EdgeDescriptorsAreTakenAndComplete : Prop :=
  (∀ p : (Nat → Instr) × Nat, p ∈ [(Instr.edgeConv, 1), (Instr.edgeConvt, 2)] →
    ∀ s fn s1 va b, s.ringServed edgeR fn = true → s.ringDesc edgeR fn = (s1, va, .ok b) → leField b 0 1 = p.2 →
      let s2 := s1.takeTask edgeR fn va b
      let ctx := ctxOf (s.getF fn (edgeR.cfg 5 4))
      (∀ blob, s2.edgeRefusal fn b = none → (parseConv b).ilay ≠ 3 →
        s2.engRead fn (parseConv b).waddr (parseConv b).blobBytes = .ok blob → leField blob 4 60 = 0 →
        Answers (p.1 fn) s fun t =>
          t.task edgeR ctx = some { fn := fn, va := va, desc := b, cls := s.getF fn (edgeR.cfg 5 4), started := s.ticks } ∧
          (t.edge.runs.find? fun e => e.1 == ctx) = some (ctx, { blob := blob }) ∧
          t.getF fn edgeR.head = add32 (s.getF fn edgeR.head) 1 ∧ t.getF fn edgeR.done = s.getF fn edgeR.done) ∧
      (∀ st, s2.edgeRefusal fn b = some st → st.isSuccess = false → Answers (p.1 fn) s fun t =>
        t.task edgeR ctx = none ∧ t.getF fn edgeR.head = add32 (s.getF fn edgeR.head) 1 ∧
        t.getF fn edgeR.done = add32 (s.getF fn edgeR.done) 1 ∧ bit (t.getReg fn 0x0F 0x010).toNat 1 = true)) ∧
  (∀ s ctx x r, s.task edgeR ctx = some x → (s.edge.runs.find? fun e => e.1 == ctx) = some (ctx, r) →
    let c := parseConv x.desc
    c.ilay ≠ 3 → c.gen = false → x.stop = none → r.row < c.oh → s.ctxMay edgeR ctx s.edgeReady0 = true →
    s.localErr 0x0F ctx = none →
    let s1 := ((s.setTask edgeR ctx { x with mism := false }).ctxRan edgeR ctx s.edgeReady0).bump x.fn Fld.EDG_BUSY (min 4096 (c.rowCycles - 4096 * r.seg))
    (4096 * (r.seg + 1) < c.rowCycles → Answers (.edgeSegmentEnd ctx) s fun t =>
      (t.edge.runs.find? fun e => e.1 == ctx) = some (ctx, { r with seg := r.seg + 1 }) ∧ t.mem = s.mem) ∧
    (∀ s2, c.rowCycles ≤ 4096 * (r.seg + 1) → s1.edgeRow x.fn c r r.row = .ok s2 → Answers (.edgeSegmentEnd ctx) s fun t =>
      (t.edge.runs.find? fun e => e.1 == ctx) = some (ctx, { r with row := r.row + 1, seg := 0 }) ∧ t.mem = s2.mem)) ∧
  (∀ s ctx x r, s.task edgeR ctx = some x → (s.edge.runs.find? fun e => e.1 == ctx) = some (ctx, r) →
    (parseConv x.desc).oh ≤ r.row → (parseConv x.desc).next = false → Answers (.edgeDescriptorComplete ctx) s fun t =>
      t.task edgeR ctx = none ∧ (t.edge.runs.find? fun e => e.1 == ctx) = none ∧
      t.getF x.fn edgeR.done = add32 (s.getF x.fn edgeR.done) 1 ∧ bit (t.getReg x.fn 0x0F 0x010).toNat 0 = true ∧
      t.mem = (s.vaWrite x.fn .engine (x.va + 60) (leBytes 2 0 ++ leBytes 2 r.row)).1.mem)

/-! ## The Input pipeline -/

/-- R348, R351, R352, R360, R361, R377: the commands of the Input page make and end batch queues and sessions, and its doorbells move the
rings. -/
def Obligations.InputCommandsAndDoorbellsAct : Prop :=
  (∀ s fn v op, CmdReady s fn 0x0E 0x040 v op (s.hasPart fn) fn Fld.INP_CMD_STS →
    let k := fn * 8 + v % 8
    let x := s.sess (v % 64)
    let ok := fun t : State => Completed t fn Fld.INP_CMD_STS .ok ∧ bit (t.getReg fn 0x0E 0x010).toNat 0 = true
    (∀ b, op = 1 → s.inpDesc fn = .ok b → v % 64 < 8 → (s.bq k).live = false →
      (s.input.bqs.filter fun e => e.2.live).length < 32 → s.bqRefusal fn { desc := b } = none →
      Answers (.bqCreate fn v) s fun t => ok t ∧ t.bq k = { desc := b, slotSize := s.bqSlotSize { desc := b } }) ∧
    (op = 2 → v % 64 < 8 → (s.bq k).live = true → Answers (.bqDelete fn v) s fun t => ok t ∧ t.bq k = {} ∧ t.mem = s.mem) ∧
    (∀ b n, op = 3 → s.inpDesc fn = .ok b → sessRefusal b = none → (List.range 64).find? (fun n => (s.sess n).st == 0) = some n →
      Answers (.sessOpen fn v) s fun t => ok t ∧ t.getF fn Fld.INP_CMD_STS_INDEX = n ∧
        t.sess n = { st := 1, fn := fn, desc := b }) ∧
    (op = 4 → x.st ≠ 0 → x.fn = fn → Answers (.sessClose fn v) s fun t => ok t ∧ t.sess (v % 64) = {}) ∧
    (op = 5 → x.st = 2 → x.fn = fn → Answers (.sessReset fn v) s fun t => ok t ∧
      t.sess (v % 64) = { x with st := 1, status := 0, head := x.tail, unit := none, past := [], out := [], held := 0 })) ∧
  (∀ s fn v, Reaches s fn 0x0E → v < 2 ^ 32 → s.getF fn Fld.INP_SEL_KIND = 1 →
    let n := s.getF fn Fld.INP_SEL_INDEX
    let x := s.sess n
    x.st = 1 → x.fn = fn → sub32 x.tail x.head < sub32 v x.head → sub32 v x.head ≤ 2 ^ leField x.desc 16 1 →
    Answers (.sessTailDoorbell fn v) s fun t => t.sess n = { x with tail := v } ∧ t.regs = s.regs) ∧
  (∀ s fn v, Reaches s fn 0x0E → v < 2 ^ 32 → s.getF fn Fld.INP_SEL_KIND = 0 → s.getF fn Fld.INP_SEL_INDEX < 8 →
    let k := fn * 8 + s.getF fn Fld.INP_SEL_INDEX
    let q := s.bq k
    q.live = true → sub32 q.augTail q.augHead < sub32 v q.augHead → sub32 v q.augHead ≤ 2 ^ q.augsz →
    Answers (.augTailDoorbell fn v) s fun t => t.bq k = { q with augTail := v } ∧ t.regs = s.regs) ∧
  (∀ s fn v, Reaches s fn 0x12 → s.isOwner fn = true → v < 2 ^ 20 →
    let vc := s.getF 0 Fld.CSI_VCSEL_VC
    Answers (.csiPbArm fn v) s fun t => t.capChan vc = { s.capChan vc with armed := true } ∧
      t.getReg (vcBank vc) 0x12 0x070 = BitVec.ofNat 32 v ∧ RegsKept s t [(vcBank vc, 0x12, 0x070)])

/-- R346, R347, R350, R352, R353, R364, R366, R368, R375: frames are captured line by line and delivered or dropped, pictures are decoded,
and batches are closed, completed and consumed. -/
def Obligations.FramesAreCapturedAndBatchesComplete : Prop :=
  (∀ s vc num,
    let c := s.capChan vc
    let cfg := s.getF (vcBank vc) Fld.CSI_VC_CFG
    c.isOpen = false → c.armed = false → s.capTakes vc = true → s.input.bqs = [] →
    Answers (.csiFrameStart vc num) s fun t => t.regs = s.regs ∧ t.capChan vc = { c with
      isOpen := true, num := num, sof := s.now, trig := if bit cfg 3 then (s.trigger (bits cfg 7 4)).fired.getD 0 else 0
      cfg := cfg, geom := s.getF (vcBank vc) Fld.CSI_VC_GEOM, lines := [], nrep := 0, bad := false, serial := c.serial + 1 }) ∧
  (∀ s vc data,
    let c := s.capChan vc
    c.isOpen = true → c.lines.length < c.geom / 65536 →
    (data.length = c.geom % 65536 → Answers (.csiLine vc true data) s fun t =>
      t.capChan vc = { c with lines := c.lines ++ [data] } ∧ t.regs = s.regs) ∧
    (Answers (.csiLine vc false data) s fun t => t.capChan vc = { c with
        lines := c.lines ++ [c.lines.getLast?.getD (List.replicate (c.geom % 65536) 0)], nrep := c.nrep + 1 } ∧
      t.getF (vcBank vc) Fld.CSI_VC_CRC = min (2 ^ 32 - 1) (s.getF (vcBank vc) Fld.CSI_VC_CRC + 1))) ∧
  (∀ s vc num,
    let c := s.capChan vc
    c.isOpen = true → s.input.bqs = [] →
    Answers (.csiFrameEnd vc num) s fun t => t.capChan vc = { c with isOpen := false } ∧
      if c.bad = false ∧ c.lines.length = c.geom / 65536 ∧ c.block ≠ none then
        t.getF (vcBank vc) Fld.CSI_VC_FRAMES = min (2 ^ 32 - 1) (s.getF (vcBank vc) Fld.CSI_VC_FRAMES + 1)
      else t.getF (vcBank vc) Fld.CSI_VC_DROP = min (2 ^ 32 - 1) (s.getF (vcBank vc) Fld.CSI_VC_DROP + 1)) ∧
  (∀ s n e u,
    let x := s.sess n
    s.pageSt 0x0E = stOn → n < 64 → s.sessReady n = true → (∀ m, (s.sess m).unit = none) →
    (∀ m, m < 64 → s.sessReady m = true → s.sessKey n ≤ s.sessKey m) →
    s.engRead x.fn (leField x.desc 8 8 + 32 * (x.head % 2 ^ leField x.desc 16 1)) 32 = .ok e →
    0 < leField e 8 4 → leField e 8 4 ≤ 16777216 → leField e 12 4 < 2 → leField e 28 4 = 0 →
    s.engRead x.fn (leField e 0 8) (leField e 8 4) = .ok u →
    Answers (.decodePicture n) s fun t =>
      t.sess n = { x with head := add32 x.head 1, unit := some (e, u) } ∧
      (if x.cls = 1 then t.input.lastQ = some n ∧ t.input.lastP = s.input.lastP
       else t.input.lastP = some n ∧ t.input.lastQ = s.input.lastQ) ∧ t.mem = s.mem) ∧
  (∀ s n concealed e u,
    let x := s.sess n
    let kind := Config.decodeKind x.desc x.past u % 3
    let f : Picture := { entry := e, past := x.past, unit := u, nconc := concealed, eof := s.now }
    let eos := bit (leField e 12 4) 0
    let held := if eos then 0 else Config.decodeHolds x.desc x.past u
    let x1 := { x with unit := none, past := if eos then [] else x.past ++ [u], held := held }
    let conc := if concealed = 0 then x.conc else min (2 ^ 32 - 1) (x.conc + 1)
    x.unit = some (e, u) → s.input.bqs = [] →
    Answers (.decodePictureDone n concealed) s fun t =>
      if kind = 2 ∨ (kind = 0 ∧ (leField x.desc 2 2 < (pictureSize x.desc f).1 ∨ leField x.desc 4 2 < (pictureSize x.desc f).2)) then
        t.sess n = { x with unit := none, st := 2, status := Status.decodeUnsupported.code }
      else if kind = 1 then x.out.length ≤ held → t.sess n = { x1 with lost := min (2 ^ 32 - 1) (x.lost + 1) }
      else
        (x.out.length < held → t.sess n = { x1 with conc := conc, out := x.out ++ [f] }) ∧
        (x.out = [] → held = 0 → t.sess n = { x1 with conc := conc })) ∧
  (∀ s k,
    let q := s.bq k
    q.live = true → q.forming = true → q.group = true → q.opened + 1000 * q.win < s.now →
    Answers (.batchGroupWindowExpiry k) s fun t => t.bq k = { q with
      samples := q.samples ++ (q.srcs.filter fun c => !q.samples.any fun x => x.src == c).map fun c =>
        missingSample { src := c } }) ∧
  (∀ s k,
    let q := s.bq k
    q.live = true → q.forming = true → q.samples.length = q.n → (∀ x ∈ q.samples, x.isOpen = false) → q.next = false →
    Answers (.batchComplete k) s fun t =>
      t.bq k = { q with written := add32 q.written 1, forming := false, samples := [] } ∧ t.queues = s.queues) ∧
  (∀ s k b,
    let q := s.bq k
    q.live = true → s.pageSt 0x0E = stOn → s.engRead (k / 8) (q.qva + 4) 4 = .ok b → sub32 q.written (leNat b) ≤ q.slots →
    (∀ c ∈ q.srcs, 128 ≤ c → (s.sess (c % 64)).out = []) →
    Answers (.bqConsumedPoll k) s fun t =>
      t.bq k = { q with consumed := leNat b, high := q.high && decide (q.hi ≤ sub32 q.written (leNat b)) } ∧
      (sub32 q.written (leNat b) < q.low → q.low ≤ q.ready → bit (t.getReg (k / 8) 0x0E 0x010).toNat 1 = true)) ∧
  (∀ s port st,
    let f := Fld.CSI_PORTn_STS_STATE.plus (4 * port)
    port < 4 → st < 4 → s.getF 0 f ≠ st → Answers (.csiPortStateChange port st) s fun t => t.getF 0 f = st ∧
      (s.ownerFn.isSome = true → bit (t.getReg 0 0x12 0x010).toNat 0 = true))

/-! ## Fusion -/

/-- R381, R384, R396, R399, R402, R403, R406: a source's tail moves, blocks are loaded for the next tick, and a command waits for it.
R387, R388, R404, R405, R406, R408, R409: ticks are taken or skipped, a pass ends in the occupancy map, and residue mismatches are
counted and fault the page. The tick is stated for an engine without sources, tracks and calibration batches. -/
def Obligations.FusionRunsBlocksTicksAndPasses : Prop :=
  (((∀ s fn src v, Reaches s fn 0x0D → fn = s.srcPart src → v < 2 ^ 32 → s.srcOn src = true →
      let x := s.fusSrc src
      sub32 x.tail x.head < sub32 v x.head → sub32 v x.head ≤ 2 ^ s.getF (srcBank src) Fld.FUS_SRC_CFG_SZ →
      Answers (.fusTailWrite fn src v) s fun t =>
        t.fusSrc src = { x with tail := v, stamps := (v, s.now) :: x.stamps } ∧ t.regs = s.regs) ∧
    (∀ p : Nat × (Nat → Nat → Instr), p ∈ [(1, Instr.fusionResolve), (2, Instr.fusionDroptrk), (3, Instr.fusionRebase),
        (4, Instr.fusionCalbatch), (5, Instr.fusionCalread), (6, Instr.fusionCalwrite)] →
      ∀ s fn v, CmdReady s fn 0x0D 0x090 v p.1 (s.isOwner fn) 0 Fld.FUS_CMD_STS → Answers (p.2 fn v) s fun t =>
        t.fusion = { s.fusion with cmd := some (v, fn) } ∧ t.getF 0 Fld.FUS_CMD_STS_DONE = 0 ∧ t.mem = s.mem ∧
        RegsKept s t [(0, 0x0D, 0x094)]) ∧
    (∀ s fn v b, Reaches s fn 0x0D → s.isOwner fn = true → v < 2 ^ 20 →
      let n := s.getF 0 Fld.FUS_SRCSEL_SRC
      let s1 := s.setF (srcBank n) Fld.FUS_SRC_PB_HI v
      let x := s.fusSrc n
      s1.engRead (s1.srcPart n) (s1.fusVa (srcBank n) Fld.FUS_SRC_PB_LO Fld.FUS_SRC_PB_HI) 128 = .ok b →
      (srcBlockBad (s.srcKind n) b = false → Answers (.fusionSrcPbLoad fn v) s fun t => t.fusSrc n =
        { x with newBlock := some b, ext := sbExt b, calLimit := false, calgen := add32 x.calgen 1 }) ∧
      (srcBlockBad (s.srcKind n) b = true → Answers (.fusionSrcPbLoad fn v) s fun t => t.fusion = s.fusion ∧
        t.getF (srcBank n) Fld.FUS_SRC_STS_STATUS = Status.fusionMalformed.code)) ∧
    (∀ s fn v b, Reaches s fn 0x0D → s.isOwner fn = true → v < 2 ^ 20 →
      let s1 := s.setF 0 Fld.FUS_PB_HI v
      s1.engRead fn (s1.fusVa 0 Fld.FUS_PB_LO Fld.FUS_PB_HI) 64 = .ok b →
      (engBlockBad b = false → Answers (.fusionPbLoad fn v) s fun t => t.fusion = { s.fusion with newBlock := some b }) ∧
      (engBlockBad b = true → Answers (.fusionPbLoad fn v) s fun t => t.fusion = s.fusion ∧
        t.getF fn (Fld.ERR_CODE_CODE.onPage 0x0D) = Status.fusionMalformed.code))) ∧
  ((∀ s tick, s.tickInstant = some tick → s.pageSt 0x0D = stOn → tick ≠ s.fusion.lastTick → s.fusion.busyUntil ≤ tick →
      s.fusion.mismTick < 2 → (∀ n, s.srcOn n = false) → s.fusion.srcs = [] → s.fusion.tracks = [] → s.fusion.slips = [] →
      s.fusion.batch = none → s.flag 0 Fld.FUS_OUT_CFG_EN = false → s.localErr 0x0D 0 = none →
      let f := { s.fusion with
        block := s.fusion.newBlock.getD s.fusion.block, newBlock := none, lastTick := tick, mismTick := 0, busyUntil := tick + 1500 }
      (s.fusion.cmd = none → Answers .fusionTick s fun t => t.fusion = f ∧ t.mem = s.mem) ∧
      (∀ v fn, s.fusion.cmd = some (v, fn) → opCode v = 3 → Answers .fusionTick s fun t => t.fusion = { f with cmd := none } ∧
        t.mem = s.mem ∧ Completed t 0 Fld.FUS_CMD_STS .ok)) ∧
    (∀ s tick, s.tickInstant = some tick → s.pageSt 0x0D = stOn → tick ≠ s.fusion.lastTick →
      let skipped := fun t : State =>
        t.fusion = { s.fusion with skipped := s.fusion.skipped + 1, lastTick := tick, mismTick := 0 } ∧
        t.getF 0 Fld.FUS_OVERRUN = min (2 ^ 32 - 1) (s.getF 0 Fld.FUS_OVERRUN + 1) ∧ t.mem = s.mem
      (tick < s.fusion.busyUntil → Answers .fusionTickSkipped s skipped) ∧
      (s.fusion.busyUntil ≤ tick → 2 ≤ s.fusion.mismTick → Answers .fusionTick s skipped)) ∧
    (∀ s l, s.fusion.pass = some l → s.knight.mapCmd = none → s.localErr 0x0D 1 = none →
      (s.pageSt 0x0B ≠ stOn → Answers .occupancyPassDone s fun t => t.fusion.pass = none ∧ t.knight = s.knight ∧ t.regs = s.regs) ∧
      (s.pageSt 0x0B = stOn → Answers .occupancyPassDone s fun t => t.fusion.pass = none ∧ t.regs = s.regs ∧ ∀ k,
        let old := assocGet 0 s.knight.occ k
        let seen := assocGet 0 s.fusion.clear k + 1
        assocGet 0 t.knight.occ k =
          if ∃ p ∈ l, k ∈ (s.castRays p).2.1 then 2
          else if ∃ p ∈ l, k ∈ (s.castRays p).1 then if old = 2 ∧ seen < ebClearn s.fusion.block then 2 else 1
          else old)) ∧
    (∀ s, Answers .fusionResidueMismatch s fun t => t = { s with fusion := { s.fusion with
      mismTick := s.fusion.mismTick + 1
      mism := s.ticks :: s.fusion.mism.filter fun x => decide (s.ticks < x + 250000000) } }) ∧
    (∀ s, s.pageSt 0x0D = stOn → 3 ≤ (s.fusion.mism.filter fun x => decide (s.ticks < x + 250000000)).length →
      Answers .fusionThirdMismatch s fun t => t.pageSt 0x0D = stFault ∧ t.fusion.pass = none ∧ t.fusion.cmd = none)))

/-! ## Knight and the Solver engine -/

/-- R419, R427, R429, R431, R432, R438, R440, R441, R445, R446, R448: queries are taken, refused, checked and run batch by batch; watches
are re-checked and end; the map commands and the clearance update do what their rules say. -/
def Obligations.KnightQueriesWatchesAndMapCommandsRun : Prop :=
  (∀ s fn s1 va b, s.ringServed knightR fn = true → s.ringDesc knightR fn = (s1, va, .ok b) →
    let q := parseQuery b
    let cls := s.getF fn (knightR.cfg 5 4)
    let ctx := ctxOf cls
    let s2 := s1.takeTask knightR fn va b
    let taken := fun t : State => t.getF fn knightR.head = add32 (s.getF fn knightR.head) 1
    let ended := fun t : State => taken t ∧ t.task knightR ctx = none ∧ t.getF fn knightR.done = add32 (s.getF fn knightR.done) 1 ∧
      bit (t.getReg fn 0x0B 0x010).toNat 1 = true
    s.kHeld ctx fn q = false →
    (∀ s3 lib, q.op = 1 → s2.kAccept ctx fn cls b = .ok (s3, lib) → Answers (.knightPlan fn) s fun t => taken t ∧
      t.task knightR ctx = some { fn := fn, va := va, desc := b, cls := cls, started := s.ticks } ∧
      (t.knight.runs.find? fun e => e.1 == ctx) = some (ctx, { lib := lib, search := kSearchMain q lib }) ∧
      t.getF fn knightR.done = s.getF fn knightR.done) ∧
    (∀ e, q.op = 1 → s2.kAccept ctx fn cls b = .error e → e.isSuccess = false → Answers (.knightPlan fn) s fun t => ended t ∧
      bit (t.getReg fn 0x0B 0x010).toNat 2 = true ∧
      t.mem = (s2.drawFree.vaWrite fn .engine q.out (kOutput q e [] [] 0 0 0 0 0 (s2.kVtick false) 0)).1.mem) ∧
    (q.op = 2 → Answers (.knightCheck fn) s ended) ∧
    (∀ s3 lib h b2, q.op = 2 → s2.kAccept ctx fn cls b = .ok (s3, lib) → s3.engRead fn q.scr 64 = .ok h →
      s3.extentOk fn q.scr (64 + 48 * leField h 6 2) .read = true → s3.engRead fn q.scr (64 + 48 * leField h 6 2) = .ok b2 →
      let segs := kParseSegs q lib b2 (leField h 6 2) 64 q.v0
      (∀ g ∈ segs, g.prim < if q.mode = 1 then 8 else libNPRIM lib) → segs.length ≤ q.outMax →
      Answers (.knightCheck fn) s fun t => bit (t.getReg fn 0x0B 0x010).toNat 2 =
        (bit (s.getReg fn 0x0B 0x010).toNat 2 || segs.zipIdx.any fun e => !s3.kPasses q lib (e.2 * 4096) e.1))) ∧
  (∀ s ctx x run, s.task knightR ctx = some x → (s.knight.runs.find? fun e => e.1 == ctx) = some (ctx, run) →
    let q := parseQuery x.desc
    let x1 := { x with used := x.used + (s.ticks - Nat.max s.knight.eng.lastAt x.started) }
    let turn := ((s.chargeTask knightR ctx).kTurn q run (decide (250 * q.budget ≤ x1.used))).1
    let ended := fun t : State => t.task knightR ctx = none ∧ t.getF x.fn knightR.done = add32 (s.getF x.fn knightR.done) 1 ∧
      bit (t.getReg x.fn 0x0B 0x010).toNat 1 = true
    s.needsDev x.fn q.out q.outBytes = false → (q.scr = 0 ∨ s.needsDev x.fn q.scr (64 * q.maxStates) = false) →
    s.ctxMay knightR ctx s.kReady0 = true → s.localErr 0x0B ctx = none → s.localErr 0x0B 2 = none →
    (∀ r, x.stop = none → turn = .go r → Answers (.knightBatch ctx) s fun t => t.task knightR ctx = some { x1 with mism := false } ∧
      (t.knight.runs.find? fun e => e.1 == ctx) = some (ctx, r) ∧ (r.search.states.length ≤ 24576 → t.mem = s.mem)) ∧
    (∀ r st path brakes flags, x.stop = none → turn = .done r st path brakes flags → Answers (.knightBatch ctx) s ended) ∧
    (x.stop ≠ none → Answers (.knightBatch ctx) s ended)) ∧
  (∀ s slot w, (s.knight.watches.find? fun e => e.1 == slot) = some (slot, w) →
    let q := parseQuery w.desc
    let gone := fun t : State => (t.knight.watches.find? fun e => e.1 == slot) = none
    let touched := fun g => ∃ r ∈ s.kTouch q w.lib g, r ∈ s.kChanged w.snap
    (s.kChanged w.snap ≠ [] → s.pageSt 0x0B = stOn → s.needsDev w.fn q.out q.outBytes = false →
      (∀ e ∈ (kTimed 0 w.path).zipIdx, s.now < q.t0 + e.1.2 + e.1.1.dur → touched e.1.1 →
        s.kPasses q w.lib (e.2 * 4096) e.1.1 = true) →
      Answers (.knightWatchRecheck slot) s fun t => t.regs = s.regs ∧ t.mem = s.mem ∧
        t.knight = { s.knight with watches := assocInsert slot { w with snap := s.knight.vers } s.knight.watches }) ∧
    (q.t0 + (w.path.map KSeg.dur).foldl (· + ·) 0 ≤ s.now → Answers (.knightWatchExpire slot) s fun t => gone t ∧ t.mem = s.mem) ∧
    (∀ v fn, Reaches s fn 0x0B → resvHit 0x0B 0x08C v = false → v % 4 = slot →
      (w.fn = fn → Answers (.knightWatchEndCmd fn v) s fun t => gone t ∧ t.mem = s.mem) ∧
      (w.fn ≠ fn → Answers (.knightWatchEndCmd fn v) s fun t => t.knight = s.knight ∧
        t.getF fn (Fld.ERR_CODE_CODE.onPage 0x0B) = Status.accessDenied.code))) ∧
  (∀ s fn v op, CmdReady s fn 0x0B 0x054 v op (s.isOwner fn) 0 Fld.KNT_MAP_CMD_STS → s.pageSt 0x0B = stOn →
    let k := s.knight
    let begun := fun (t : State) (k1 : KnightSt) => t.getF 0 Fld.KNT_MAP_CMD_STS_DONE = 0 ∧
      t.knight = { k1 with update := some (k.update.getD [] ++ allRegions), mapEnd := some fn }
    (∀ p : Nat × (Nat → Nat → Instr), p ∈ [(1, Instr.mapcfg), (2, Instr.mapload), (3, Instr.mapsave), (4, Instr.mapclear)] →
      op = p.1 → s.fusion.pass ≠ none → Answers (p.2 fn v) s fun t => t.knight = { k with mapCmd := some (op, fn) } ∧
        t.getF 0 Fld.KNT_MAP_CMD_STS_DONE = 0 ∧ t.mem = s.mem) ∧
    (op = 1 → s.fusion.pass = none → k.eng.tasks = [] → k.watches = [] → Answers (.mapcfg fn v) s fun t => begun t { k with
      geom := (s.getF 0 Fld.KNT_MAP_CFG, s.getF 0 Fld.KNT_MAP_VOX, s.getF 0 Fld.KNT_MAP_ORGX, s.getF 0 Fld.KNT_MAP_ORGY)
      orgz := s.getF 0 Fld.KNT_MAP_ORGZ, occ := [], caches := [] }) ∧
    (∀ b, op = 2 → s.fusion.pass = none → s.engRead fn s.mapVa (64 + s.mapCount / 4) = .ok b → b.take 64 = s.mapHeader →
      (∀ e ∈ s.mapCodes (b.drop 64), e.2 ≠ 3) → Answers (.mapload fn v) s fun t =>
        begun t { k with occ := s.mapCodes (b.drop 64) }) ∧
    (∀ s1, op = 3 → s.fusion.pass = none → s.vaWrite fn .engine s.mapVa (s.mapHeader ++ s.mapPlane) = (s1, .ok ()) →
      Answers (.mapsave fn v) s fun t => Completed t 0 Fld.KNT_MAP_CMD_STS .ok ∧ t.mem = s1.mem ∧ t.knight = k) ∧
    (op = 4 → s.fusion.pass = none → Answers (.mapclear fn v) s fun t => begun t { k with occ := [] })) ∧
  (∀ s rs, s.knight.update = some rs → Answers .clearanceUpdateDone s fun t =>
    t.knight.clrOcc = s.knight.occ ∧ t.knight.clrUnk = s.flag 0 Fld.KNT_MAP_CFG_UNKOBS ∧ t.knight.update = none ∧
    (∀ r, assocGet 0 t.knight.vers r =
      if r ∈ rs ++ s.clrChanged rs then (assocGet 0 s.knight.vers r + (rs ++ s.clrChanged rs).count r) % 2 ^ 32
      else assocGet 0 s.knight.vers r) ∧
    (s.knight.mapEnd ≠ none → Completed t 0 Fld.KNT_MAP_CMD_STS .ok)) ∧
  (∀ s fn v, Reaches s fn 0x0B → s.isOwner fn = true → s.flag 0 (Fld.LOCK_LOCKDOWN.onPage 0x0B) = false → v < 2 ^ 13 →
    (s.getReg 0 0x0B 0x040).toNat < 2 ^ 13 →
    1 ≤ bits v 3 0 → bits v 3 0 ≤ 8 → 1 ≤ bits v 7 4 → bits v 7 4 ≤ 8 → 1 ≤ bits v 11 8 → bits v 11 8 ≤ 8 →
    bit v 12 ≠ s.flag 0 Fld.KNT_MAP_CFG_UNKOBS → Answers (.kntUnkobsWrite fn v) s fun t =>
      t.getReg 0 0x0B 0x040 = BitVec.ofNat 32 v ∧ t.knight.clrUnk = bit v 12 ∧ t.knight.occ = s.knight.occ ∧
      ∀ r, r < 512 → assocGet 0 t.knight.vers r = add32 (assocGet 0 s.knight.vers r) 1)

/-- R461, R463, R464, R465, R466, R467, R468: problems and schedules are taken or refused, panels run, a budget ends, and a problem
completes with its result in memory. -/
def Obligations.SolverProblemsRunToTheirResult : Prop :=
  (∀ s fn s1 va b, fn ≠ 64 → s.ringServed solverR fn = true → s.ringDesc solverR fn = (s1, va, .ok b) →
    let p := parseProb b
    let cls := s.getF fn (solverR.cfg 5 4)
    let ctx := ctxOf cls
    let s2 := s1.takeTask solverR fn va b
    let runs := fun (t : State) (r : SolverRun) => t.getF fn solverR.head = add32 (s.getF fn solverR.head) 1 ∧
      t.task solverR ctx = some { fn := fn, va := va, desc := b, cls := cls, started := s.ticks } ∧
      (t.solver.runs.find? fun e => e.1 == ctx) = some (ctx, r) ∧ t.getF fn solverR.done = s.getF fn solverR.done
    (p.op ≠ 2 → s2.slvMalformed fn b = true → Answers (.solverSolve fn) s fun t => t.task solverR ctx = none ∧
      t.getF fn solverR.head = add32 (s.getF fn solverR.head) 1 ∧ t.getF fn solverR.done = add32 (s.getF fn solverR.done) 1 ∧
      bit (t.getReg fn 0x0C 0x010).toNat 1 = true ∧
      t.mem = (s2.vaWrite fn .engine p.out (slvHeader {} .solverMalformed 0 0)).1.mem) ∧
    (s2.slvMalformed fn b = false → slvOverLimit p = false →
      (∀ d, p.op = 1 → s2.slvData fn b = .ok d → Answers (.solverSolve fn) s fun t =>
        runs t { data := d, left := 5000 + 8 * p.nblk }) ∧
      (∀ r, p.op = 2 → s2.slvSchedule fn p = .ok r → Answers (.solverReplay fn) s fun t => runs t (slvReplay 16384 r)))) ∧
  (∀ s b d, s.solver.cal = true → s.engTakes solverR = true → s.task solverR 1 = none →
    s.ringTurn solverR 64 0 = true → s.engRead (s.ownerFn.getD 0) s.calVa 128 = .ok b →
    let x : Task := { fn := 64, va := s.calVa, desc := b, cls := 0, started := s.ticks }
    let s2 := (s.ringTaken solverR 64 0).setTask solverR 1 x
    s2.slvMalformed 64 b = false → slvOverLimit (parseProb b) = false → (parseProb b).op = 1 →
    s2.slvData (s.ownerFn.getD 0) b = .ok d → Answers (.solverSolve 64) s fun t => t.task solverR 1 = some x ∧
      (t.solver.runs.find? fun e => e.1 == 1) = some (1, { data := d, left := 5000 + 8 * (parseProb b).nblk }) ∧
      ∀ f, t.getF f solverR.done = s.getF f solverR.done) ∧
  (∀ s ctx x r, s.task solverR ctx = some x → (s.solver.runs.find? fun e => e.1 == ctx) = some (ctx, r) →
    let p := parseProb x.desc
    let x1 := { x with used := x.used + (s.ticks - Nat.max s.solver.eng.lastAt x.started) }
    let run := fun (t : State) (r1 : SolverRun) => (t.solver.runs.find? fun e => e.1 == ctx) = some (ctx, r1) ∧
      t.task solverR ctx = some { x1 with mism := false } ∧ t.mem = s.mem ∧ (r1.trials = r.trials → t.regs = s.regs)
    (x.stop = none → r.result = none → x1.used < 250 * p.budget → s.ctxMay solverR ctx s.slvReady0 = true → s.localErr 0x0C ctx = none →
      (r.replay = true → Answers (.solverPanel ctx) s fun t => run t (slvReplay 16384 r)) ∧
      (r.replay = false → 16384 < r.left → Answers (.solverPanel ctx) s fun t => run t { r with left := r.left - 16384 }) ∧
      (r.replay = false → r.left ≤ 16384 → r.begun = false → (p.setup r.data).trials = r.trials →
        Answers (.solverPanel ctx) s fun t => run t (p.setup r.data)) ∧
      (r.replay = false → r.left ≤ 16384 → r.begun = true → Answers (.solverPanel ctx) s fun t =>
        run t { p.trial r with left := p.trialCycles r.data } ∧
        (x.fn ≠ 64 → t.getF x.fn Fld.SLV_TRIALS = Nat.min (s.getF x.fn Fld.SLV_TRIALS + ((p.trial r).trials - r.trials)) (2 ^ 32 - 1)))) ∧
    (x.stop = none → r.result = none → 250 * p.budget ≤ x1.used → x.fn ≠ 64 → s.ctxMay solverR ctx s.slvReady0 = true →
      s.localErr 0x0C ctx = none → Answers (.solverPanel ctx) s fun t => t.task solverR ctx = none ∧
        t.getF x.fn solverR.done = add32 (s.getF x.fn solverR.done) 1) ∧
    (x.stop ≠ none → x.fn ≠ 64 → s.ctxMay solverR ctx s.slvReady0 = true → Answers (.solverPanel ctx) s fun t => t.task solverR ctx = none ∧
      (t.solver.runs.find? fun e => e.1 == ctx) = none ∧ t.getF x.fn solverR.done = add32 (s.getF x.fn solverR.done) 1) ∧
    (250 * p.budget ≤ x1.used → r.result = none → Answers (.solverBudgetExpiry ctx) s fun t =>
      t.task solverR ctx = some { x1 with stop := x.stop.orElse fun _ => some .timeout } ∧ t.mem = s.mem ∧ t.regs = s.regs) ∧
    (∀ st det fl, r.result = some (st, det, fl) →
      (x.fn ≠ 64 → Answers (.solverProblemComplete ctx) s fun t => t.task solverR ctx = none ∧
        (t.solver.runs.find? fun e => e.1 == ctx) = none ∧ t.getF x.fn solverR.done = add32 (s.getF x.fn solverR.done) 1 ∧
        bit (t.getReg x.fn 0x0C 0x010).toNat 0 = true ∧
        (p.op = 1 →
          let s1 := if st = .ok then (s.vaWrite x.fn .engine (p.out + 64) (p.values r)).1 else s
          t.mem = (s1.vaWrite x.fn .engine p.out (slvHeader r st det fl)).1.mem)) ∧
      (x.fn = 64 → Answers (.solverProblemComplete ctx) s fun t => t.task solverR ctx = none ∧ t.solver.cal = false ∧
        t.fusion.batchDone = some (st.code, p.get r.x 0))))

/-! ## Tempo -/

/-- R477 to R481, R485, R486, R489 to R496, R498: the loop commands, the instants of a period, the mailbox, injections and the checker. -/
def Obligations.TempoCommandsAndPeriodsRun : Prop :=
  (∀ p : Nat × (Nat → Nat → Instr), p ∈ [(1, Instr.tempoLoad), (2, Instr.tempoStart), (3, Instr.tempoStop),
      (4, Instr.tempoSelectPrimary), (5, Instr.tempoSelectSafe), (6, Instr.tempoInject), (7, Instr.tempoInjstop),
      (8, Instr.tempoCapstart), (9, Instr.tempoCapstop), (10, Instr.tempoUnload)] →
    ∀ s fn v, CmdReady s fn 0x09 0x050 v p.1 (s.isCtlOwner fn) 0 Fld.TMP_CMD_STS_STATUS → s.tempoOn = false →
    Answers (p.2 fn v) s fun t => Completed t 0 Fld.TMP_CMD_STS_STATUS .tempoRefused ∧ t.tempo = s.tempo ∧ t.mem = s.mem) ∧
  (∀ s fn v op, CmdReady s fn 0x09 0x050 v op (s.isCtlOwner fn) 0 Fld.TMP_CMD_STS_STATUS → s.tempoOn = true →
    let l := cmdLoop v
    let x := s.loop l
    let st := s.loopSt l
    let ok := fun t : State => Completed t 0 Fld.TMP_CMD_STS_STATUS .ok ∧ bit (t.getReg 0 0x09 0x010).toNat 0 = true
    (∀ s1 b, op = 1 → s.readImage fn s.tempoVa = (s1, .ok b) → s.loopActive l = false →
      let h := parseLoopHdr b
      let other := if h.safe then x.prim else x.safe
      h.malformed = false → imageBad b h = false → (other = [] ∨ (parseLoopHdr other).sameDims h = true) →
      h.words ≤ s.getF 0 Fld.TMP_FREE_WORDS → (if h.safe then x.safe else x.prim) = [] →
      Answers (.tempoLoad fn v) s fun t => ok t ∧ t.loop l = (if h.safe then { x with safe := b } else { x with prim := b }) ∧
        t.getF 0 Fld.TMP_FREE_WORDS = s.getF 0 Fld.TMP_FREE_WORDS - h.words ∧
        t.getF 0 ((if h.safe then Fld.TMP_Ln_STS_SLOAD else Fld.TMP_Ln_STS_PLOAD).loop l) = 1) ∧
    (op = 2 → st = loopReady → s.getF 0 (Fld.TMP_Ln_STS_PLOAD.loop l) = 1 → s.getF 0 (Fld.TMP_Ln_STS_SLOAD.loop l) = 1 → s.ringMode = 1 → s.mapsOk l = true → 62500 ≤ s.loopDiv l * s.cycleNs →
      s.loopDiv l * s.cycleNs ≤ 4000000 → s.timingOk l = true → Answers (.tempoStart fn v) s fun t => ok t ∧
        t.loopSt l = loopArmed ∧ (t.loop l).startAt = s.now ∧ (t.loop l).mbx = x.mbx ∧ (t.loop l).inj = none ∧
        (t.loop l).last = none ∧ t.getF 0 (Fld.TMP_Ln_SAT.loop l) = 0 ∧ t.getF 0 (Fld.TMP_Ln_STS_BANK.loop l) = 0 ∧
        t.getF 0 (Fld.TMP_Ln_STS_SAFECAUSE.loop l) = 0 ∧ t.outSet l = { s.outSet l with staged := none, fall := none }) ∧
    (op = 3 → s.loopActive l = true → x.newPrim = none → x.newSafe = none → Answers (.tempoStop fn v) s fun t => ok t ∧
      t.loopSt l = loopReady ∧ t.ring = s.ring ∧
      t.loop l = { x with inj := none, injNow := 0, await := none, toSafe := none, mism := false, abandoned := false }) ∧
    (op = 4 → st = loopRunning → Answers (.tempoSelectPrimary fn v) s fun t => ok t ∧
      t.getF 0 (Fld.TMP_Ln_STS_SAFECAUSE.loop l) = 0 ∧
      (if x.await.isSome ∧ s.sampleTickOpen l then t.getF 0 (Fld.TMP_Ln_STS_BANK.loop l) = 0 ∧ (t.loop l).toSafe = none
       else t.loop l = { x with toSafe := some false })) ∧
    (op = 5 → st = loopRunning → s.getF 0 (Fld.TMP_Ln_STS_BANK.loop l) = 0 → x.toSafe ≠ some true →
      Answers (.tempoSelectSafe fn v) s fun t => ok t ∧
        (if x.await.isSome ∧ s.sampleTickOpen l then t.getF 0 (Fld.TMP_Ln_STS_BANK.loop l) = 1 ∧ (t.loop l).toSafe = none
         else t.loop l = { x with toSafe := some true }) ∧
        t.getF 0 (Fld.TMP_Ln_STS_SAFECAUSE.loop l) = 1 ∧ bit (t.getReg 0 0x09 0x010).toNat 1 = true) ∧
    (∀ s1 b, op = 6 → st = loopRunning → s.getF 0 (Fld.TMP_Ln_STS_BANK.loop l) = 0 → x.inj = none →
      s.vaRead fn .engine s.tempoVa 64 = (s1, .ok b) → injBad b (parseLoopHdr x.prim) = false → leField b 0 1 ≠ 4 →
      s.flag 0 Fld.TMP_CAP_CFG_ONINJ = false → Answers (.tempoInject fn v) s fun t => ok t ∧
        t.loop l = { x with inj := some { blk := b, reg := leField b 28 4 } } ∧ t.getF 0 (Fld.TMP_Ln_STS_INJ.loop l) = 1) ∧
    (op = 7 → Answers (.tempoInjstop fn v) s fun t => ok t ∧ t.loop l = { x with inj := none, injNow := 0 } ∧
      t.getF 0 (Fld.TMP_Ln_STS_INJ.loop l) = 0) ∧
    (op = 8 → s.getF 0 Fld.TMP_CAP_CFG_COUNT ≠ 0 → s.vaCheck fn s.capVa (32 * s.getF 0 Fld.TMP_CAP_CFG_COUNT) .write = none →
      Answers (.tempoCapstart fn v) s fun t => ok t ∧ t.getF 0 Fld.TMP_CAP_WRITTEN = 0 ∧ t.getF 0 Fld.TMP_CAP_CFG_RUN = 1 ∧
        t.tempo = s.tempo) ∧
    (op = 9 → Answers (.tempoCapstop fn v) s fun t => ok t ∧ t.getF 0 Fld.TMP_CAP_CFG_RUN = 0 ∧ t.tempo = s.tempo) ∧
    (op = 10 → s.loopActive l = false → Answers (.tempoUnload fn v) s fun t => ok t ∧ t.loopSt l = loopEmpty ∧
      t.loop l = { mbx := x.mbx, snap := x.mbx, staged := x.staged, frozen := x.frozen })) ∧
  (∀ s l, l < 4 →
    let x := s.loop l
    let h := parseLoopHdr x.prim
    let maps := (List.range h.ny).map fun j => measAt x.prim h j
    let y := maps.map fun m => m.value (s.rawMeas m)
    let w := mbxVals x.snap h.nw
    let step := fun (back : Bool) => tempoStep x.prim x.safe (s.flag 0 (Fld.TMP_Ln_STS_BANK.loop l)) x.xbar y
      (maps.map fun m => back && (m.dgi == 0xFF || s.ring.pass.getD m.dgi false)) w w none
    let staged := fun (t : State) (out : Nat) (u us : List Int) => t.outSet l = { s.outSet l with
      staged := some (out, setpoints x.prim u), fall := some (out + s.loopDiv l, setpoints x.prim us) }
    let computed := fun (t : State) (c : Nat) (back : Bool) => (t.loop l).await = none ∧ (t.loop l).u = (step back).u ∧
      (t.loop l).xhat = (step back).xhat ∧ (t.loop l).xbar = (step back).xbar ∧ (t.loop l).fall = (step back).us ∧
      staged t (c + s.loopDiv l) (step back).u (step back).us
    (∀ c, s.sampleCycle l = some c → x.newPrim = none → x.newSafe = none → x.toSafe = none →
      Answers (.tempoSampleInstant l) s fun t => t.loopSt l = loopRunning ∧ t.getF 0 (Fld.TMP_Ln_MBXAGE_VALUE.loop l) =
          (if x.stampedBy (s.instant c) ≠ [] then 0 else min (2 ^ 16 - 1) (s.getF 0 (Fld.TMP_Ln_MBXAGE_VALUE.loop l) + 1)) ∧
        t.loop l = { x with
          fresh := x.stampedAfter (s.instant c)
          snap := (x.stampedBy (s.instant c)).foldl (fun m e => assocSetMany 0#32 m e.2) x.snap, last := some c, await := some c,
            mism := false, abandoned := false }) ∧
    (∀ c, s.tempoOn = true → x.await = some c → x.abandoned = false → x.inj = none →
      s.now ≤ s.stagingDeadline (c + s.loopDiv l) →
      (s.ring.returned = some c → s.computesFirst l = true → s.loopActive l = true → s.localErr 0x09 l = none →
        s.localErr 0x09 (4 + l) = none → Answers (.tempoCompute l) s fun t => computed t c true) ∧
      (s.ring.returned ≠ some c → s.ring.flight = none → s.instant c + s.rttMax < s.now →
        Answers (.tempoRttExpiry l) s fun t => computed t c false ∧
        t.getF 0 (Fld.TMP_Ln_LATE.loop l) = min (2 ^ 32 - 1) (s.getF 0 (Fld.TMP_Ln_LATE.loop l) + 1))) ∧
    (∀ c, s.tempoOn = true → x.await = some c → s.stagingDeadline (c + s.loopDiv l) < s.now →
      let xb := (predict x.prim x.xbar x.fall).map (·.1)
      Answers (.tempoOverrun l) s fun t => (t.loop l).await = none ∧ (t.loop l).xbar = xb ∧ (t.loop l).u = x.fall ∧
        staged t (c + s.loopDiv l) x.fall (clampOut x.prim none ((bankSums x.safe xb w).map (·.1))) ∧
        t.getF 0 (Fld.TMP_Ln_OVERRUN.loop l) = min (2 ^ 32 - 1) (s.getF 0 (Fld.TMP_Ln_OVERRUN.loop l) + 1) ∧
        bit (t.getReg 0 0x09 0x010).toNat 4 = true) ∧
    (s.tempoOn = true → s.loopActive l = true → s.getF 0 (Fld.TMP_Ln_STS_BANK.loop l) = 0 → x.toSafe ≠ some true →
      let safe := fun (t : State) (cause : Nat) => t.loop l = { x with toSafe := some true } ∧
        t.getF 0 (Fld.TMP_Ln_STS_SAFECAUSE.loop l) = cause ∧ bit (t.getReg 0 0x09 0x010).toNat 1 = true
      (s.getF 0 (Fld.TMP_Ln_GUARD_MISSMAX.loop l) ≠ 0 → s.getF 0 (Fld.TMP_Ln_GUARD_MISSMAX.loop l) ≤ x.miss →
        s.flag 0 (Fld.TMP_Ln_CFG_MISSACT.loop l) = true → Answers (.tempoMissmax l) s fun t => safe t 4) ∧
      (s.getF 0 (Fld.TMP_Ln_GUARD_MBXMAX.loop l) ≠ 0 →
        s.getF 0 (Fld.TMP_Ln_GUARD_MBXMAX.loop l) < s.getF 0 (Fld.TMP_Ln_MBXAGE_VALUE.loop l) →
        s.flag 0 (Fld.TMP_Ln_CFG_MBXACT.loop l) = true → Answers (.tempoMbxStale l) s fun t => safe t 3)) ∧
    (∀ i, x.inj = some i → i.dur ≠ 0 → i.dur ≤ i.t → Answers (.tempoInjectionEnd l) s fun t =>
      t.loop l = { x with inj := none, injNow := 0 } ∧ t.getF 0 (Fld.TMP_Ln_STS_INJ.loop l) = 0) ∧
    (s.tempoOn = true → x.await ≠ none → x.abandoned = false → Answers (.tempoCheckerMismatch l x.mism) s fun t =>
      t.loop l = (if x.mism then { x with abandoned := true } else { x with mism := true }) ∧
      t.tempo.mism = s.ticks :: s.recentMismatches)) ∧
  (∀ s, s.tempoOn = true → 3 ≤ s.recentMismatches.length → Answers .tempoThirdMismatch s fun t =>
    t.pageSt 0x09 = stFault ∧ t.tempo = {} ∧ t.getF 0 Fld.TMP_FREE_WORDS = 81920 ∧ bit (t.getReg 0 0x09 0x010).toNat 7 = true) ∧
  (∀ s fn off data,
    let l := (off - 0x1000) / 0x100
    let x := s.loop l
    s.mailboxOk fn off data.length = true → s.tempoOn = true → x.frozen = false →
    Answers (.tempoMailboxStore fn off data) s fun t =>
      (let ws := (List.range (data.length / 4)).map fun i => (off % 0x100 / 4 + i, BitVec.ofNat 32 (leField data (4 * i) 4))
        if s.sampleTickOpen l then (t.loop l).snap = assocSetMany 0#32 x.snap ws ∧ (t.loop l).fresh = x.fresh ∧
          t.getF 0 (Fld.TMP_Ln_MBXAGE_VALUE.loop l) = 0
        else (t.loop l).snap = x.snap ∧ (t.loop l).fresh = x.fresh ++ [(s.now, ws)]) ∧
      t.getF 0 (Fld.TMP_Ln_MBXCNT.loop l) = min (2 ^ 32 - 1) (s.getF 0 (Fld.TMP_Ln_MBXCNT.loop l) + 1) ∧
      ∀ k, assocGet 0#32 (t.loop l).mbx k =
        if off % 0x100 / 4 ≤ k ∧ k < off % 0x100 / 4 + data.length / 4 then
          BitVec.ofNat 32 (leField data (4 * (k - off % 0x100 / 4)) 4)
        else assocGet 0#32 x.mbx k) ∧
  (∀ s fn v, Reaches s fn 0x09 → s.isCtlOwner fn = true → resvHit 0x09 0x090 v = false → s.tempoOn = true →
    Answers (.tempoMailboxCommit fn v) s fun t => ∀ l, l < 4 →
      let x := s.loop l
      t.loop l = if bit v l ∧ x.frozen = false then
          let y := { x with staged := [], mbx := assocSetMany 0#32 x.mbx x.staged }
          if s.sampleTickOpen l then { y with snap := assocSetMany 0#32 x.snap x.staged }
          else { y with fresh := x.fresh ++ [(s.now, x.staged)] }
        else x)

/-! ## The Joint Ring -/

/-- R503, R504, R508 to R511, R513 to R519: links and loops, the master's launch, copies and merge, the node's frames, and the ring's
commands. -/
def Obligations.RingFramesLinksAndCommandsFollowTheirRules : Prop :=
  (∀ s port, port < 2 → s.ringOn = true →
    let irq := fun t : State => bit (t.getReg 0 0x0A 0x010).toNat 1 = true
    (s.getF 0 (linkFld port) = 1 → Answers (.ringLinkDown port) s fun t => t.getF 0 (linkFld port) = 0 ∧ irq t ∧
      (s.ringMode ≠ 1 → t.getF 0 (loopFld (1 - port)) = 1)) ∧
    (s.getF 0 (linkFld port) = 0 → s.pst = 0 → s.pbusy = false → Answers (.ringLinkUp port) s fun t =>
      t.getF 0 (linkFld port) = 1 ∧ irq t ∧ assocGet 0 t.ring.upAt port = s.ticks) ∧
    (s.getF 0 (linkFld port) = 1 → s.getF 0 (loopFld (1 - port)) = 1 → assocGet 0 s.ring.upAt port + 2500000 ≤ s.ticks →
      Answers (.ringLinkUpSettled port) s fun t => t.getF 0 (loopFld (1 - port)) = 0 ∧ irq t ∧ t.ring = s.ring)) ∧
  (∀ s c, s.cycleNow = some c → s.ringOn = true → s.ringMode = 1 → s.ring.flight = none → s.ring.lastLaunch ≠ some c →
    s.ring.modeAt < s.stagingDeadline c →
    (∀ x, s.ring.next = none → s.ring.tmpl = some x →
      let s2 := { s with ring := { s.ring with outs := s.ring.outs.map fun (e : Nat × OutSet) => (e.1, e.2.atCycle c) } }
      let seq := (s.getF 0 Fld.JRG_SEQ + 1) % 65536
      let body := fun copy => s2.cyclicBody x c seq copy
      Answers .ringCyclicLaunch s fun t => t.getF 0 Fld.JRG_SEQ = seq ∧ RegsKept s t [(0, 0x0A, 0x064)] ∧
        t.ring = { s2.ring with
          lastLaunch := some c, late := [], flight := some { cycle := c, seq := seq, frame := body false }
          sent := [(0, withFcs (body false) true), (1, withFcs (body true) true)] }) ∧
    (∀ t0 x, s.ring.next = some (t0, x) → t0 < s.stagingDeadline c → Answers .ringCyclicLaunch s fun t =>
      t.ring.tmpl = some x ∧ t.ring.next = none ∧ t.ring.lastLaunch = some c)) ∧
  (∀ s port frame, s.ringOn = true → s.ringMode = 1 →
    let stale := fun t : State => t.getF 0 Fld.JRG_STALE = min (2 ^ 32 - 1) (s.getF 0 Fld.JRG_STALE + 1) ∧ t.ring = s.ring
    let crc := fun t : State => t.getF 0 Fld.JRG_CRCERR = min (2 ^ 32 - 1) (s.getF 0 Fld.JRG_CRCERR + 1) ∧
      bit (t.getReg 0 0x0A 0x010).toNat 3 = true
    (s.ring.flight = none → (frSeq frame ≠ s.getF 0 Fld.JRG_SEQ → Answers (.ringCopyReturn port true frame) s stale) ∧
      Answers (.ringCopyReturn port false frame) s fun t => crc t ∧ t.ring = s.ring) ∧
    (∀ fl, s.ring.flight = some fl → s.now ≤ s.instant fl.cycle + s.rttMax → (if frCopy frame then fl.c0 else fl.c1) = .away →
      let put := fun (t : State) (k : RingCopy) => t.ring = { s.ring with
        flight := some (if frCopy frame then { fl with c1 := k } else { fl with c0 := k }) }
      (Answers (.ringCopyReturn port false frame) s fun t => crc t ∧ put t .discarded) ∧
      (frSeq frame ≠ fl.seq → Answers (.ringCopyReturn port true frame) s stale) ∧
      (frSeq frame = fl.seq → Answers (.ringCopyReturn port true frame) s fun t => put t (.taken port frame)))) ∧
  (∀ s fl x, s.ring.flight = some fl → s.ring.tmpl = some x → s.instant fl.cycle + s.rttMax < s.now →
    let f0 := fl.c0.frame?
    let f1 := fl.c1.frame?
    let dgs := (parseChain x.frame (x.len - 4) 22 160).1
    let merged := dgs.foldl (mergeDg fl.frame f0 f1) fl.frame
    (f0 = none → f1 = none → Answers .ringMergeDeadline s fun t => t.ring = { s.ring with flight := none } ∧
      t.getF 0 Fld.JRG_LATE = min (2 ^ 32 - 1) (s.getF 0 Fld.JRG_LATE + 1) ∧ bit (t.getReg 0 0x0A 0x010).toNat 2 = true) ∧
    ((f0 ≠ none ∨ f1 ≠ none) → Answers .ringMergeDeadline s fun t =>
      t.ring = { s.ring with
        flight := none, returned := some fl.cycle
        pass := dgs.zipIdx.map fun d => 256 * (dgWkc merged d.1).1 + (dgWkc merged d.1).2 == x.exp.getD d.2 0 } ∧
      t.getF 0 Fld.JRG_FRAMES = min (2 ^ 32 - 1) (s.getF 0 Fld.JRG_FRAMES + 1) ∧
      ∀ i, i < imgBytes → i + 14 < merged.length → t.regByte 0x0A (rxBase + i) = merged.getD (14 + i) 0#8)) ∧
  (∀ s inPort good frame, s.ringOn = true → s.ringMode ≠ 1 →
    let turned := s.flag 0 (loopFld inPort)
    let out := if turned then inPort else 1 - inPort
    let taken := (inPort = 0 ∨ turned = true) ∧ s.nodeTakes frame = true
    let old := frType frame = 0 ∧ s.ring.seqKept = some (frSeq frame)
    let sends := fun (t : State) (f : List Byte) => assocGet [] t.ring.sent out = f ∧
      (good = false → t.getF 0 Fld.JRG_CRCERR = min (2 ^ 32 - 1) (s.getF 0 Fld.JRG_CRCERR + 1))
    ((¬ taken ∨ old) → Answers (.ringNodeFrame inPort good frame) s fun t => sends t frame ∧
      t.ring.seqKept = s.ring.seqKept ∧ t.queues = s.queues) ∧
    (taken → ¬ old → s.flag 0 Fld.JRG_CFG_NEXT = false → Answers (.ringNodeFrame inPort good frame) s fun t =>
      sends t (withFcs ((frameDgs frame).foldl (fun f d => s.nodeDg f d) (frameBody frame)) good) ∧
      t.ring.seqKept = (if frType frame = 0 then some (frSeq frame) else s.ring.seqKept) ∧
      (good = false → ∀ a, a < imgBytes → t.regByte 0x0A (rxBase + a) = s.regByte 0x0A (rxBase + a)) ∧
      (good = true → t.getF 0 Fld.JRG_SEQ = frSeq frame ∧ bit (t.getReg 0 0x0A 0x010).toNat 4 = true ∧
        ∀ d, frameDgs frame = [d] → ∀ a, a < imgBytes → t.regByte 0x0A (rxBase + a) =
          if s.nodeWrites d ∧ d.offset ≤ a ∧ a < d.offset + (dgData frame d).length then (dgData frame d).getD (a - d.offset) 0#8
          else s.regByte 0x0A (rxBase + a)))) ∧
  (∀ s fn v, Reaches s fn 0x0A → s.isCtlOwner fn = true → v < 2 ^ 32 → resvHit 0x0A 0x040 v = false → bits v 1 0 ≠ 3 →
    ((bit v 8 = false ∧ bits v 31 16 = 0) ∨ bits v 31 16 < s.qcount fn) →
    ((bits v 1 0 = s.getF 0 Fld.JRG_CFG_MODE ∨ s.anyLoopActive = false) → Answers (.ringModeWrite fn v) s fun t =>
      t.getReg 0 0x0A 0x040 = BitVec.ofNat 32 v ∧ t.ringMode = bits v 1 0 ∧
      (bits v 1 0 ≠ s.ringMode → t.ring = { s.ring with modeAt := s.now, flight := none, seqKept := none, late := [] })) ∧
    (bits v 1 0 ≠ s.getF 0 Fld.JRG_CFG_MODE → s.anyLoopActive = true → Answers (.ringModeWrite fn v) s fun t =>
      t.ring = s.ring ∧ t.ringMode = s.ringMode ∧ t.getF fn (Fld.ERR_CODE_CODE.onPage 0x0A) = Status.ringRefused.code)) ∧
  (∀ s fn v op, CmdReady s fn 0x0A 0x050 v op (s.isCtlOwner fn) 0 Fld.JRG_CMD_STS_STATUS →
    let done := fun (t : State) (st : Status) => Completed t 0 Fld.JRG_CMD_STS_STATUS st ∧
      bit (t.getReg 0 0x0A 0x010).toNat 5 = true
    (op = 1 → (s.ringOn = false ∨ s.anyLoopActive = true) → Answers (.ringLoad fn v) s fun t =>
      done t .ringRefused ∧ t.ring = s.ring) ∧
    (∀ s1 b, op = 1 → s.ringOn = true → s.anyLoopActive = false → s.readTmpl fn s.ringVa = (s1, .ok b) →
      Answers (.ringLoad fn v) s fun t => done t .ok ∧ t.ring = { s.ring with next := some (s.now, parseTmpl b) }) ∧
    (op = 2 → (s.ringOn = false ∨ s.ringMode ≠ 1) → Answers (.ringAcyc fn v) s fun t => done t .ringRefused ∧ t.ring = s.ring) ∧
    (∀ s1 b, op = 2 → s.ringOn = true → s.ringMode = 1 → s.readTmpl fn s.ringVa = (s1, .ok b) →
      let tm := parseTmpl b
      Answers (.ringAcyc fn v) s fun t => t.getF 0 Fld.JRG_CMD_STS_DONE = 0 ∧
        t.ring.acyc = some (s.ringVa, s1.acycTime tm.len) ∧
        ∀ a, s1.acycTime tm.len = some a → ∀ p, p < 2 →
          assocGet [] t.ring.sent p = withFcs (s1.launchBody tm tm.frame 1 (frSeq tm.frame) a (p == 1)) true)) ∧
  (∀ s va at_ fn, s.ring.acyc = some (va, some at_) → s.ctlOwner = some fn →
    (at_ + s.rttMax < s.now → Answers (.ringAcycReturn none) s fun t => t.ring = { s.ring with acyc := none } ∧
      Completed t 0 Fld.JRG_CMD_STS_STATUS .ringTimeout ∧ t.mem = s.mem) ∧
    (∀ f s1, at_ ≤ s.now → s.now ≤ at_ + s.rttMax →
      ({ s with ring := { s.ring with acyc := none } }).vaWrite fn .engine (va + 256) (frameBody f) = (s1, .ok ()) →
      Answers (.ringAcycReturn (some f)) s fun t => t.ring = { s.ring with acyc := none } ∧
        Completed t 0 Fld.JRG_CMD_STS_STATUS .ok ∧ t.mem = s1.mem)) ∧
  (∀ s inPort frame, s.pst = 2 → s.pbusy = false → s.wakeFrame frame = true → s.wakeOn 2 1 = true →
    Answers (.ringWakeFrame inPort frame) s fun t => assocGet [] t.ring.sent inPort = frame ∧ t.ptarget = 0 ∧ t.pbusy = true ∧
      t.pstep = 0x80 ∧
      bit (t.getReg 0 0x03 Fld.PWR_WAKE_SRC.off).toNat 1 = true)

/-! ## The timebase and Ethernet -/

/-- R521 to R525, R527, R528, R533: the count and its reads, steps, sources, triggers, captures and the alarm. That the upsets of memory
come with the ticks is the model's choice (log entry 70). -/
def Obligations.TimebaseCountsStepsAndStamps : Prop :=
  (∀ s, Answers .timebaseTick s fun t =>
    let f := s.nowFrac + s.getF 0 Fld.TMB_INCR_FRAC
    t.now = (s.now + s.getF 0 Fld.TMB_INCR_INT % 2 ^ 8 + f / 2 ^ 32) % 2 ^ 64 ∧ t.nowFrac = f % 2 ^ 32 ∧ t.ticks = s.ticks + 1 ∧
    { t.mem with storeErrs := s.mem.storeErrs, localErrs := s.mem.localErrs } = s.mem ∧ t.groups = s.groups ∧ t.queues = s.queues) ∧
  (∀ s fn, s.serves 0x04 = true → Answers (.tmbTimeLoRead fn) s fun t => t.readData = s.now % 2 ^ 32 ∧
    t.getF 0 Fld.TMB_TIME_HI = s.now / 2 ^ 32 % 2 ^ 32 ∧ t.getF 0 Fld.TMB_TIME_FRAC = s.nowFrac % 2 ^ 32 ∧ t.now = s.now) ∧
  (∀ s fn v, Reaches s fn 0x04 → s.isOwner fn = true → s.cmdDone 0 Fld.TMB_STEP_STS_STATUS = true →
    let done := fun (t : State) (st : Status) => Completed t 0 Fld.TMB_STEP_STS_STATUS st ∧
      bit (t.getReg 0 0x04 0x010).toNat 1 = true
    (s.anyLoopActive = true → Answers (.timebaseStep fn v) s fun t => done t .timeRefused ∧ t.now = s.now) ∧
    (s.anyLoopActive = false → Answers (.timebaseStep fn v) s fun t => done t .ok ∧
      t.now = ofSigned 64 (s.now + toSigned 64 (s.getF 0 Fld.TMB_STEP_LO + 2 ^ 32 * (v % 2 ^ 32))))) ∧
  (∀ s src ofs, s.srcAllowed src = true → Answers (.timebaseOffset src ofs) s fun t =>
    (t.timeSrc src).lastAt = some s.ticks ∧ t.getF 0 (avFld src) = 1 ∧ t.now = s.now ∧
    t.getF 0 (ofsFld src) = ofSigned 32 (max (-0x7FFFFFFF) (min 0x7FFFFFFF ofs)) ∧
    (s.getF 0 Fld.TMB_SRC_STS_SRC = src → s.getF 0 Fld.TMB_SLEW ≤ 1000000000 →
      let span := 2 ^ 34 * s.getF 0 Fld.TMB_SLEW / 1000000000
      let incr := t.getF 0 Fld.TMB_INCR_INT * 2 ^ 32 + t.getF 0 Fld.TMB_INCR_FRAC
      2 ^ 34 - span ≤ incr ∧ incr ≤ 2 ^ 34 + span) ∧
    (s.getF 0 Fld.TMB_SRC_STS_SRC = src → s.getF 0 Fld.TMB_SRC_STS_STATE = tmAcquiring →
      8 * ofs.natAbs ≤ s.getF 0 Fld.TMB_STEPMIN → 15 ≤ s.time.close → t.getF 0 Fld.TMB_SRC_STS_STATE = tmLocked)) ∧
  (∀ s src, (src = srcRing ∨ src = srcPtp) → s.srcQualified src = true → s.asleep = false →
    ((s.getF 0 Fld.TMB_SRC_STS_STATE ≠ tmAcquiring ∧ s.getF 0 Fld.TMB_SRC_STS_STATE ≠ tmLocked) ∨
      s.getF 0 Fld.TMB_SRC_STS_SRC < src) → (src = srcRing → s.srcQualified srcPtp = false) →
    Answers (.timebaseSourceQualified src) s fun t => t.getF 0 Fld.TMB_SRC_STS_SRC = src ∧
      t.getF 0 Fld.TMB_SRC_STS_STATE = tmAcquiring ∧ t.now =
        if (s.getF 0 Fld.TMB_STEPMIN : Int) ≤ (s.srcOffset src).natAbs ∧ s.anyLoopActive = false then
          ofSigned 64 (s.now - s.srcOffset src)
        else s.now) ∧
  (∀ s, (s.getF 0 Fld.TMB_SRC_STS_STATE = tmAcquiring ∨ s.getF 0 Fld.TMB_SRC_STS_STATE = tmLocked) →
    s.srcAvailable (s.getF 0 Fld.TMB_SRC_STS_SRC) = false → Answers .timebaseSourceLost s fun t =>
      (s.srcAvailable srcPtp = true → t.getF 0 Fld.TMB_SRC_STS_SRC = srcPtp ∧ t.getF 0 Fld.TMB_SRC_STS_STATE = tmAcquiring) ∧
      (s.srcAvailable srcPtp = false → s.srcAvailable srcRing = true →
        t.getF 0 Fld.TMB_SRC_STS_SRC = srcRing ∧ t.getF 0 Fld.TMB_SRC_STS_STATE = tmAcquiring) ∧
      (s.srcAvailable srcPtp = false → s.srcAvailable srcRing = false → t.now = s.now ∧
        t.getF 0 Fld.TMB_SRC_STS_SRC = srcFree ∧ t.getF 0 Fld.TMB_SRC_STS_STATE = tmHoldover)) ∧
  (∀ s n t0, n < 16 → (s.trigger n).next = some t0 → t0 ≤ s.now → s.flag 0 (Fld.TMB_TRGn_CFG_EN.plus (16 * n)) = true →
    s.asleep = false → Answers (.triggerFire n) s fun t => t.regs = s.regs ∧ t.trigger n =
      { next := if s.trgPeriodic n then some (t0 + s.trgPeriod n) else none
        pulseEnd := t0 + s.getF 0 (Fld.TMB_TRGn_CFG_WIDTH.plus (16 * n))
        high := s.flag 0 (Fld.TMB_TRGn_CFG_POL.plus (16 * n)), fired := some t0 }) ∧
  (∀ s n rise, n < 16 → s.flag 0 (Fld.TMB_CAPn_CFG_EN.plus (16 * n)) = true → s.asleep = false →
    (s.getF 0 (Fld.TMB_CAPn_CFG_EDGE.plus (16 * n)) = 3 ∨
      s.getF 0 (Fld.TMB_CAPn_CFG_EDGE.plus (16 * n)) = if rise then 1 else 2) →
    ((s.capQueue n).length < 8 → Answers (.captureEdge n rise) s fun t =>
      t.capQueue n = s.capQueue n ++ [(ofSigned 64 (s.now - (2 + s.getF 0 (Fld.TMB_CAPn_CFG_FILT.plus (16 * n))) * 4), rise)] ∧
      t.getF 0 (Fld.TMB_CAPn_STS_COUNT.plus (16 * n)) = (s.capQueue n).length + 1 ∧
      bit (t.getReg 0 0x04 0x010).toNat 4 = true) ∧
    (8 ≤ (s.capQueue n).length → Answers (.captureEdge n rise) s fun t => t.capQueue n = s.capQueue n ∧
      t.getF 0 (Fld.TMB_CAPn_STS_LOST.plus (16 * n)) = min 255 (s.getF 0 (Fld.TMB_CAPn_STS_LOST.plus (16 * n)) + 1))) ∧
  (∀ s fn n, n < 16 → s.serves 0x04 = true → s.isOwner fn = true →
    (s.capQueue n = [] → Answers (.tmbCapLoRead fn n) s fun t => t.readData = 0 ∧ t.regs = s.regs) ∧
    (∀ t0 rise rest, s.capQueue n = (t0, rise) :: rest → Answers (.tmbCapLoRead fn n) s fun t => t.readData = t0 % 2 ^ 32 ∧
      t.capQueue n = rest ∧ t.getF 0 (Fld.TMB_CAPn_HI.plus (16 * n)) = t0 / 2 ^ 32 % 2 ^ 32 ∧
      t.getF 0 (Fld.TMB_CAPn_STS_RISE.plus (16 * n)) = if rise then 1 else 0)) ∧
  (∀ s, s.pst = 0 → s.pbusy = false →
    let fired := fun t : State => t.time.alarm = none ∧ bit (t.getReg 0 0x04 0x010).toNat 0 = true
    (∀ a, s.time.alarm = some a → a ≤ s.now → Answers .timebaseAlarm s fired) ∧
    (∀ fn v, Reaches s fn 0x04 → s.isOwner fn = true → Answers (.alarmArm fn v) s fun t =>
      let a := s.getF 0 Fld.TMB_ALARM_LO + 2 ^ 32 * (v % 2 ^ 32)
      if a ≤ s.now then fired t else t.time.alarm = some a))

/-- R530 to R533, R541, R563: port blocks, doorbells, sent and received frames, links, and the magic packet. -/
def Obligations.EthernetPortsMoveFrames : Prop :=
  (∀ s fn port v s2 b, port < 2 → Reaches s fn 0x11 → s.ethFn port = fn → v < 2 ^ 32 →
    let off := 0x04C + 0x40 * port
    let s1 := s.setReg 0 0x11 off (BitVec.ofNat 32 v)
    resvHit 0x11 off v = false →
    s1.readEthBlock fn ((s.getReg 0 0x11 (0x048 + 0x40 * port)).toNat + 2 ^ 32 * (v % 2 ^ 20)) = (s2, .ok b) →
    Answers (.ethPbLoad fn port v) s fun t =>
      t.getF 0 (Fld.ETH_Pn_STS_STATUS.port port) = (if ethBlockBad b then Status.timeMalformed.code else 0) ∧
      (t.ethPort port).block = if ethBlockBad b then (s.ethPort port).block else some b) ∧
  (∀ p : EthRing × (Nat → Nat → Nat → Instr), p ∈ [(.tx, Instr.ethTxDoorbell), (.rx, Instr.ethRxDoorbell)] →
    ∀ s fn port v b, port < 2 → Reaches s fn 0x11 → s.ethFn port = fn → v < 2 ^ 32 → (s.ethPort port).block = some b →
      s.flag 0 (Fld.ETH_Pn_CFG_EN.port port) = true →
      let tail := p.1.tailFld.port port
      let h := s.getF 0 (p.1.headFld.port port)
      sub32 (s.getF 0 tail) h < sub32 v h →
      (sub32 v h ≤ p.1.size b → Answers (p.2 fn port v) s fun t => t.getF 0 tail = v ∧ RegsKept s t [(0, 0x11, tail.off)]) ∧
      (p.1.size b < sub32 v h → Answers (p.2 fn port v) s fun t => t.getF 0 tail = s.getF 0 tail ∧
        t.getF fn (Fld.ERR_CODE_CODE.onPage 0x11) = Status.doorbellInvalid.code)) ∧
  (∀ s port b s1 d, port < 2 → (s.ethPort port).block = some b → s.ethRuns port = true →
    s.flag 0 (Fld.ETH_Pn_STS_LINK.port port) = true →
    let fn := s.ethFn port
    let ended := fun (t : State) (r : EthRing) =>
      t.getF 0 (r.headFld.port port) = add32 (s.getF 0 (r.headFld.port port)) 1 ∧ bit (t.getReg fn 0x11 0x010).toNat r.irq = true
    (s.ethPosted port .tx = true → s.vaRead fn .engine (s.ethDescVa port .tx b) 32 = (s1, .ok d) →
      s.ethWaits port b .tx (leField d 0 8) = false →
      (txDescBad d = true → Answers (.ethTxComplete port) s fun t => ended t .tx ∧ t.eth = s.eth) ∧
      (∀ s2 f, txDescBad d = false → s1.vaRead fn .engine (leField d 0 8) (leField d 8 2) = (s2, .ok f) →
        let rate := s.getF 0 (Fld.ETH_Pn_STS_RATE.port port)
        let tc := bits (leField d 10 1) 7 5
        (gateFits b rate tc (leField d 8 2) = false ∨ gateNow b rate tc (leField d 8 2) s.now = true) →
        Answers (.ethTxComplete port) s fun t => ended t .tx ∧ (t.ethPort port).block = some b ∧
          (gateFits b rate tc (leField d 8 2) = true →
            (t.ethPort port).sent = f))) ∧
    (∀ frame fcsOk, s.asleep = false → (fcsOk = false ∨ frame.length < 64) → Answers (.ethFrameRx port frame fcsOk) s fun t =>
      t.getF 0 (Fld.ETH_Pn_DROP.port port) = min (2 ^ 32 - 1) (s.getF 0 (Fld.ETH_Pn_DROP.port port) + 1) ∧
      bit (t.getReg fn 0x11 0x010).toNat 3 = true ∧ t.mem = s.mem) ∧
    (∀ frame, s.asleep = false → 64 ≤ frame.length → s.ptpPort port = true → isPtp frame = true →
      exec (.ethFrameRx port frame true) s = .next s) ∧
    (∀ frame s2, s.asleep = false → 64 ≤ frame.length → frame.length ≤ leField b 18 2 →
      (s.ptpPort port = false ∨ isPtp frame = false) → s.ethPosted port .rx = true →
      s.vaRead fn .engine (s.ethDescVa port .rx b) 32 = (s1, .ok d) → s.ethWaits port b .rx (leField d 0 8) = false →
      s1.vaWrite fn .engine (leField d 0 8) (frameBody frame) = (s2, .ok ()) →
      Answers (.ethFrameRx port frame true) s fun t => ended t .rx ∧ t.eth = s.eth)) ∧
  (∀ s port, port < 2 →
    let link := Fld.ETH_Pn_STS_LINK.port port
    let irq := fun t : State => bit (t.getReg (s.ethFn port) 0x11 0x010).toNat 2 = true
    (s.getF 0 link = 1 → Answers (.ethLinkDown port) s fun t => t.getF 0 link = 0 ∧ irq t ∧ t.eth = s.eth) ∧
    (∀ rate, rate < 8 → s.getF 0 link = 0 → s.pst = 0 → s.pbusy = false → Answers (.ethLinkUp port rate) s fun t =>
      t.getF 0 link = 1 ∧ irq t ∧ t.getF 0 (Fld.ETH_Pn_STS_RATE.port port) = rate) ∧
    (∀ frame, hasMagic port frame = true → s.pst = 2 → s.pbusy = false → s.wakeOn 2 (3 + port) = true →
      Answers (.ethMagicPacket port frame) s fun t => t.ptarget = 0 ∧ t.pbusy = true ∧ t.pstep = 0x80 ∧
        bit (t.getReg 0 0x03 0x09C).toNat (3 + port) = true))

/-! ## Power, resets and bring-up -/

/-- R542, R544 to R550, R552 to R556, R569: grants, fractions, evaluations, the guard, operating points and the temperature. -/
def Obligations.GrantsLimitsAndTemperaturesAct : Prop :=
  (∀ s fn v, Reaches s fn 0x03 → s.isOwner fn = true → s.cmdDone 0 Fld.PWR_GRANT_STS_DONE = true →
    let cap := bits v 26 16
    let id := bits v 15 0
    let force := bit v 31
    let meets := capMeets (s.fracOf 0) (s.fracOf 6) cap s.kneed
    let kept := fun t : State => t.getF 0 Fld.PWR_CAP_CAP = s.getF 0 Fld.PWR_CAP_CAP ∧ t.pow = s.pow
    (grantBad v = true → Answers (.powerGrant fn v) s fun t => Completed t 0 Fld.PWR_GRANT_STS_STATUS .powerMalformed ∧ kept t) ∧
    (grantBad v = false → force = false → meets = false → Answers (.powerGrant fn v) s fun t =>
      Completed t 0 Fld.PWR_GRANT_STS_STATUS .powerLimited ∧ kept t) ∧
    (grantBad v = false → meets = true → s.getF 0 Fld.PWR_CAP_CAP ≤ cap → Answers (.powerGrant fn v) s fun t =>
      Completed t 0 Fld.PWR_GRANT_STS_STATUS .ok ∧ t.getF 0 Fld.PWR_CAP_CAP = cap ∧ t.getF 0 Fld.PWR_CAP_GRANT_ID = id ∧
      t.getF 0 Fld.PWR_CAP_FORCED = (if force then 1 else 0) ∧ t.getF 0 Fld.PWR_TEFF_LO = s.now % 2 ^ 32 ∧
      t.getF 0 Fld.PWR_TEFF_HI = s.now / 2 ^ 32 % 2 ^ 32 ∧ t.getF 0 Fld.DEV_GEN = add32 (s.getF 0 Fld.DEV_GEN) 1) ∧
    (grantBad v = false → meets = true → cap < s.getF 0 Fld.PWR_CAP_CAP → Answers (.powerGrant fn v) s fun t =>
      t.pow.grant = some (cap, id, force) ∧ t.getF 0 Fld.PWR_GRANT_STS_DONE = 0 ∧
      t.getF 0 Fld.PWR_CAP_CAP = s.getF 0 Fld.PWR_CAP_CAP)) ∧
  (∀ s cap id force, s.pow.grant = some (cap, id, force) → cap < 2 ^ 11 → id < 2 ^ 16 →
    (∀ d, d < 7 → s.getF 0 (domFld Fld.PWR_DOMn_EST d) * 10 ≤ s.limitAt cap d) → Answers .grantInForce s fun t =>
      Completed t 0 Fld.PWR_GRANT_STS_STATUS .ok ∧ t.getF 0 Fld.PWR_CAP_CAP = cap ∧ t.getF 0 Fld.PWR_CAP_GRANT_ID = id ∧
      t.pow.grant = none) ∧
  (∀ s, s.getF 0 Fld.PWR_CAP_KSUSP = 1 → s.getF 0 Fld.PWR_LIMIT_THERM = 0 → s.pow.failing = none →
    s.getF 0 Fld.PWR_OPP_KFLOOR ≤ s.getF 0 Fld.PWR_OPP_CUR → Answers .kboundRestore s fun t =>
      t.getF 0 Fld.PWR_CAP_KSUSP = 0 ∧ t.suspEnd = s.now + 1 ∧ bit (t.getReg 0 0x03 0x010).toNat 5 = true) ∧
  (∀ s fn v, Reaches s fn 0x03 → s.isOwner fn = true → s.flag 0 (Fld.LOCK_LOCKDOWN.onPage 0x03) = false →
    resvHit 0x03 0x064 v = false → v < 2 ^ 32 →
    let p := fun f => s.getF 0 f
    let fr := [p Fld.PWR_FRAC0_BRD, p Fld.PWR_FRAC0_MEM, p Fld.PWR_FRAC0_NOC, p Fld.PWR_FRAC0_PV, bits v 7 0, bits v 15 8, bits v 23 16]
    (fr.sum = 100 → 4 ≤ bits v 7 0 → 2 ≤ bits v 15 8 → 1 ≤ bits v 23 16 →
      capMeets (fr.getD 0 0) (fr.getD 6 0) s.acceptedCap s.kneed = true → Answers (.fractionCommit fn v) s fun t =>
        t.pow = { s.pow with frac := fr } ∧ t.getReg 0 0x03 0x064 = BitVec.ofNat 32 v) ∧
    (fr.sum ≠ 100 → Answers (.fractionCommit fn v) s fun t => t.pow = s.pow ∧
      t.getF fn (Fld.ERR_CODE_CODE.onPage 0x03) = Status.powerMalformed.code)) ∧
  (∀ s est, s.pow.guard = none → Answers (.powerEvaluation est) s fun t =>
    (∀ d, d < 7 → t.getF 0 (domFld Fld.PWR_DOMn_EST d) = min (est.getD d 0) 0xFFFF ∧
      t.getF 0 (domFld Fld.PWR_DOMn_LIMIT d) = min (s.limitOf d / 10) 0xFFFF) ∧
    (s.limitOf 0 < min (est.getD 0 0) 0xFFFF * 10 → s.pow.change = none → s.pow.nextOpp = none →
      s.minOpp < s.getF 0 Fld.PWR_OPP_CUR →
      t.pow.change = some (s.getF 0 Fld.PWR_OPP_CUR - 1) ∧ bit (t.getF 0 Fld.PWR_LIMIT_ATLIM) 0 = true)) ∧
  (∀ s mw,
    let cap := s.getF 0 Fld.PWR_CAP_CAP
    let w := (s.pow.window.1 + mw, s.pow.window.2 + 1)
    Answers (.powerGuard mw) s fun t => t.getF 0 Fld.PWR_IN_POWER = min (mw / 10) 0xFFFF ∧
      (cap * 100 < mw → t.pow.guard = some (s.ticks + 25000, cap * 100, mw) ∧ t.getF 0 Fld.PWR_LIMIT_GUARD = 1) ∧
      (mw ≤ cap * 100 → t.pow.guard = s.pow.guard) ∧ t.pow.window = (if w.2 < 100 then w else (0, 0)) ∧
      t.getF 0 Fld.PWR_OVERCAP =
        if 100 ≤ w.2 ∧ cap * 10000 < w.1 then min (2 ^ 32 - 1) (s.getF 0 Fld.PWR_OVERCAP + 1) else s.getF 0 Fld.PWR_OVERCAP) ∧
  (∀ s, Answers .powerRefit s fun t => t.pow = { s.pow with refits := s.pow.refits + 1 } ∧
    t.getF 0 Fld.PWR_OPP_KFLOOR = s.kFloor % 16) ∧
  (∀ s file, file < 16 → s.filePowered file = true → Answers (.droop file) s fun t =>
    t.getF 0 Fld.PWR_DROOP = min (2 ^ 32 - 1) (s.getF 0 Fld.PWR_DROOP + 1) ∧ RegsKept s t [(0, 0x03, 0x0A4)]) ∧
  (∀ s o, s.pow.change = some o → o ≤ 10 → Answers .oppChangeDone s fun t => t.getF 0 Fld.PWR_OPP_CUR = o ∧
    (∀ f, f < 16 → t.getF 0 (Fld.FIL_CLK_OPP.onPage (filePage f)) = o ∧
      t.getF 0 (Fld.FIL_CLK_MHZ.onPage (filePage f)) = 600 + 150 * o) ∧
    t.getF 0 Fld.PWR_LIMIT_BELOWK = (if o < s.getF 0 Fld.PWR_OPP_KFLOOR then 1 else 0) ∧
    t.pow = { s.pow with change := s.pow.nextOpp.filter (fun n => n ≠ o), nextOpp := none }) ∧
  (∀ s sensor temp, 100 ≤ temp → s.getF 0 Fld.PWR_LIMIT_THERM = 0 → Answers (.thermalLimit sensor temp) s fun t =>
    t.getF 0 Fld.PWR_LIMIT_THERM = 1 ∧ t.getF 0 Fld.PWR_CAP_KSUSP = 1 ∧ t.tj = min temp 127 ∧
    t.getF 0 Fld.PWR_TJ_SENSOR = sensor % 32 ∧ bit (t.getReg 0 0x03 0x010).toNat 7 = true) ∧
  (∀ s, s.getF 0 Fld.PWR_LIMIT_THERM = 1 → Answers .thermalRelease s fun t => t.getF 0 Fld.PWR_LIMIT_THERM = 0 ∧ t.tj < 97 ∧
    t.getF 0 Fld.PWR_CAP_KSUSP = s.getF 0 Fld.PWR_CAP_KSUSP)

/-- R557 to R563, R565, R566, R669, R670: state requests, the steps of an entry and an exit, and wakes. Step 3's end by time is stated
without jobs, and the end of an exit with every file and block OFF. -/
def Obligations.PowerStatesAreEnteredAndLeft : Prop :=
  (∀ p : Nat × (Nat → Nat → Instr),
    p ∈ [(0, Instr.powerReqActive), (1, Instr.powerReqHold), (2, Instr.powerReqSleep), (3, Instr.powerReqOff)] →
    ∀ s fn v, PowReqReady s fn v p.1 →
      let irq := fun t : State => bit (t.getReg 0 0x03 0x010).toNat 2 = true
      (p.1 = s.pst → Answers (p.2 fn v) s fun t => Completed t 0 Fld.PWR_STATE_STS_STATUS .ok ∧ t.pst = s.pst ∧ t.pbusy = false) ∧
      (2 ≤ p.1 → p.1 ≠ s.pst → s.anyLoopActive = true → Answers (p.2 fn v) s fun t =>
        Completed t 0 Fld.PWR_STATE_STS_STATUS .powerStateRefused ∧ t.pst = s.pst ∧ t.pbusy = false) ∧
      (1 ≤ p.1 → s.pst = 0 → (p.1 = 1 ∨ s.anyLoopActive = false) → Answers (p.2 fn v) s fun t =>
        Moving t (min p.1 2) 1 ∧ t.pst = 0 ∧ t.getF 0 Fld.PWR_STATE_STS_DONE = 0 ∧ irq t ∧ t.pow.off = (p.1 == 3)) ∧
      (p.1 = 0 → s.pst ≠ 0 → Answers (p.2 fn v) s fun t => Moving t 0 0x80 ∧ t.getF 0 Fld.PWR_STATE_STS_DONE = 0) ∧
      (2 ≤ p.1 → s.pst = 1 → s.anyLoopActive = false → Answers (p.2 fn v) s fun t =>
        Moving t 2 0x80 ∧ t.pow.viaHold = true ∧ irq t)) ∧
  (∀ s, s.pbusy = true → s.pow.woken = false →
    (Moving s 1 2 → Answers .entryStepDone s fun t => Moving t 1 3 ∧ t.groups = s.groups ∧ t.jobs = s.jobs) ∧
    (Moving s 1 5 → s.memOn = true → Answers .entryStepDone s fun t => Moving t 1 6 ∧ t.pageSt 0x07 = stStopping ∧
      t.mem = s.mem) ∧
    (Moving s 1 7 → (∀ p ∈ [0x0C, 0x0E, 0x0F], s.pageMoves p = false) → s.pow.off = false → s.pow.recorded = none →
      s.pow.warm = none → s.cmdDone 0 Fld.PWR_STATE_STS_STATUS = false → Answers .entryStepDone s fun t =>
        t.pst = 1 ∧ t.pbusy = false ∧ Completed t 0 Fld.PWR_STATE_STS_STATUS .ok ∧ t.mem = s.mem ∧
        (s.pageSt 0x05 = stOn → t.pageSt 0x05 = stHeld))) ∧
  (∀ s, Moving s 1 3 → s.jobs = [] → s.pow.stepAt + s.getF 0 Fld.PWR_HOLD_DRAIN * 250 ≤ s.ticks →
    Answers .holdDrainExpiry s fun t => Moving t 1 4 ∧ t.groups = s.groups ∧ t.mem = s.mem) ∧
  (∀ s, s.pow.viaHold = false →
    (Moving s 0 0x80 → Answers .exitStageReady s fun t => Moving t 0 0x81 ∧ t.mem = s.mem) ∧
    (Moving s 0 0x81 → s.pageSt 0x07 = stHeld → Answers .exitStageReady s fun t => Moving t 0 0x82 ∧ t.pageSt 0x07 = stStarting) ∧
    (Moving s 0 0x83 → s.pageSt 0x05 = stOn → (∀ f, f < 16 → s.pageSt (filePage f) = stOff) →
      (∀ p ∈ [0x09, 0x0A, 0x0B, 0x0C, 0x0D, 0x0E, 0x0F], s.pageSt p = stOff) → s.pow.slept = [] → s.pow.warm = none →
      s.pow.recorded = none → s.cmdDone 0 Fld.PWR_STATE_STS_STATUS = false → Answers .exitStageReady s fun t =>
        t.pst = 0 ∧ t.pbusy = false ∧ t.pstep = 0 ∧ Completed t 0 Fld.PWR_STATE_STS_STATUS .ok ∧ t.mem = s.mem)) ∧
  (∀ s, s.pst ≠ 0 → s.pbusy = false →
    (∀ src, src ≤ 8 → s.wakeOn s.pst src = true → Answers (.wakeEv src) s fun t => Moving t 0 0x80 ∧
      bit (t.getF 0 Fld.PWR_WAKE_SRC) src = true ∧ bit (t.getReg 0 0x03 0x010).toNat 4 = true) ∧
    (∀ pin, pin < 48 →
      let seen := fun t : State => t.getF 0 (pinFld 0x050 pin) = s.getF 0 (pinFld 0x060 pin)
      (s.getF 0 (pinFld 0x058 pin) = 1 → s.wakeOn s.pst 7 = true → Answers (.gpioWake pin) s fun t => seen t ∧ Moving t 0 0x80) ∧
      (s.getF 0 (pinFld 0x058 pin) = 0 → Answers (.gpioWake pin) s fun t => seen t ∧ t.pst = s.pst ∧ t.pbusy = false)))

/-- R552, R565, R571 to R574, R576, R579 to R583, R593 to R595, R630, R657, R660, R661: Off and cold boot, the bring-up stages, warm, Board
and compute resets, the modes, and restarts of the Arbiter. READY is stated for a boot without policies and boot configuration. -/
def Obligations.ResetsAndBringUpRun : Prop :=
  (∀ s, s.isOff = false →
    (Answers .thermalTrip s fun t => IsOff s t true ∧ t.rst.tripped = true ∧ bit (t.getF 0 Fld.DEV_RST_CAUSE) 3 = true) ∧
    (Answers .inputBrownout s fun t => IsOff s t true ∧ bit (t.getF 0 Fld.DEV_RST_CAUSE) 2 = true) ∧
    (Answers .vinBelow5v s fun t => IsOff s t false ∧ t.rst.tripped = false)) ∧
  (∀ s, s.isOff = true →
    (Answers .vinBelow5v s fun t => t = { s with rst := { s.rst with latched := false, tripped := false } }) ∧
    (s.rst.latched = false → Answers .coldBoot s fun t => t.now = 0 ∧ t.nowFrac = 0 ∧ t.csl.boots = s.csl.boots + 1 ∧
      t.getF 0 Fld.DEV_RST_CAUSE_POWER = 1 ∧ t.getF 0 Fld.DEV_BOOT_STAGE = (if Config.forceRecovery then 8 else 1) ∧
      t.mem = s.mem)) ∧
  (∀ s ok, s.rst.pinLow = false →
    let toSt := fun (t : State) (n : Nat) => t.getF 0 Fld.DEV_BOOT_STAGE = n
    (toSt s 1 → Answers (.bootStageReady ok) s fun t => toSt t (if ok = true ∧ s.stage1Ok = true then 2 else 8) ∧ t.mem = s.mem) ∧
    (toSt s 2 → Answers (.bootStageReady ok) s fun t => toSt t (if ok = true ∧ s.stage2Ok = true then 3 else 8) ∧ t.mem = s.mem) ∧
    (toSt s 3 → Answers (.bootStageReady ok) s fun t => toSt t 4 ∧
      (ok = false → s.fastBoot = false → t.getF 0 Fld.DEV_BOOT_DEGRADED = 1)) ∧
    (toSt s 4 → ok = true → Answers (.bootStageReady ok) s fun t => toSt t 5 ∧ t.pageSt 0x07 = stOn ∧ t.mem.dev = [] ∧ t.mem.rsv = []) ∧
    (toSt s 4 → ok = false → Answers (.bootStageReady ok) s fun t => toSt t 9 ∧
      t.getF 0 Fld.DEV_BOOT_STATUS = Status.bootFailed.code) ∧
    (toSt s 5 → Answers (.bootStageReady ok) s fun t => toSt t 6 ∧
      (s.fastBoot = false → ∀ f, f < 16 → t.pageSt (filePage f) = stStarting)) ∧
    (toSt s 6 → (∀ sq, sq < 256 → s.sqSt sq ≠ sqTest) → s.policy 2 = false → s.policy 3 = false → s.csl.running = [] →
      Answers (.bootStageReady ok) s fun t => toSt t 7 ∧ t.getF 0 Fld.DEV_MODE_MODE = 0 ∧ t.arb.readyAt = s.ticks ∧
        bit (t.getReg 0 0x00 0x010).toNat 0 = true)) ∧
  (∀ s fn v, s.isActive = true →
    let warm := fun (t : State) (cause : Nat) => t.getF 0 Fld.DEV_BOOT_STAGE = 1 ∧ t.getF 0 Fld.DEV_BOOT_FAST = 1 ∧
      bit (t.getF 0 Fld.DEV_RST_CAUSE) cause = true ∧ t.mem.dev = s.mem.dev ∧ t.mem.rsv = [] ∧ t.now = s.now ∧ t.groups = [] ∧
      t.jobs = [] ∧ t.queues = []
    (DevCmdReady s fn v 1 → Answers (.warmReset fn v) s fun t => warm t 5) ∧
    (s.isOff = false → Answers .warmResetNAssert s fun t => warm t 4 ∧ t.rst.pinLow = true) ∧
    (s.isOff = false → s.arb.restarting = false →
      let l := s.ticks :: s.arb.restarts.filter fun x => decide (s.ticks < x + 250000000)
      (l.length < 3 → Answers .arbiterRestart s fun t => t.arb.restarting = true ∧ t.arb.restarts = l ∧ t.mem = s.mem ∧
        t.getF 0 Fld.ARB_RESTARTS = min (2 ^ (Fld.ARB_RESTARTS.hi + 1) - 1) (s.getF 0 Fld.ARB_RESTARTS + 1)) ∧
      (3 ≤ l.length → Answers .arbiterRestart s fun t => warm t 6)) ∧
    (DevCmdReady s fn v 2 → s.rst.run = none → s.tempo = {} → Answers (.boardReset fn v) s fun t =>
      t.rst.run = some (false, 1) ∧ t.getF 0 Fld.DEV_CMD_STS_DONE = 0) ∧
    (DevCmdReady s fn v 3 → s.rst.run = none → s.tempo = {} → Answers (.computeReset fn v) s fun t =>
      t.rst.run = some (true, 1) ∧ t.getF 0 Fld.DEV_CMD_STS_DONE = 0)) ∧
  (∀ s, s.rst.pinLow = true → Answers .warmResetPin s fun t =>
    t = { s with rst := { s.rst with pinLow := false, started := s.ticks } }) ∧
  (∀ s c n, s.rst.run = some (c, n) →
    (n = 1 → s.mem.entries = [] → Answers .resetStepDone s fun t => t.rst.run = some (c, 2) ∧ t.groups = [] ∧ t.squares = []) ∧
    (n = 4 → Answers .resetStepDone s fun t => t = { s with rst := { s.rst with run := some (c, 5) } }) ∧
    (n = 5 → s.rst.board = false → s.rst.compute = false → s.dspOn = false → s.mem.locked = [] →
      s.cmdDone 0 Fld.DEV_CMD_STS_DONE = false → Answers .resetStepDone s fun t => t.rst.run = none ∧
        t.rst.failedCores = (if c then s.rst.failedCores else []) ∧ Completed t 0 Fld.DEV_CMD_STS_STATUS .ok)) ∧
  (∀ s fn v,
    let mode := fun t : State => t.getF 0 Fld.DEV_MODE_MODE
    (DevCmdReady s fn v 4 → s.modeRefused = false → Answers (.bistCmd fn v) s fun t => mode t = 2 ∧
      t.getF 0 Fld.DEV_CMD_STS_DONE = 0 ∧
      t.rst.bist = (List.range 16).filter fun f => (s.fileHolder f).isNone && s.pageSt (filePage f) == stOff) ∧
    (DevCmdReady s fn v 4 → s.modeRefused = true → Answers (.bistCmd fn v) s fun t =>
      Completed t 0 Fld.DEV_CMD_STS_STATUS .devRefused ∧ mode t = mode s) ∧
    (DevCmdReady s fn v 5 → s.modeRefused = false → Answers (.replayEnter fn v) s fun t =>
      Completed t 0 Fld.DEV_CMD_STS_STATUS .ok ∧ mode t = 3) ∧
    (DevCmdReady s fn v 6 → mode s = 3 → Answers (.replayExit fn v) s fun t =>
      Completed t 0 Fld.DEV_CMD_STS_STATUS .ok ∧ mode t = 0) ∧
    (DevCmdReady s fn v 6 → mode s ≠ 3 → Answers (.replayExit fn v) s fun t =>
      Completed t 0 Fld.DEV_CMD_STS_STATUS .devRefused ∧ mode t = mode s)) ∧
  (∀ s failed, s.getF 0 Fld.DEV_MODE_MODE = 2 → (∀ f ∈ s.rst.bist, f < 16) → Answers (.bistDone failed) s fun t =>
    t.getF 0 Fld.DEV_MODE_MODE = 0 ∧ t.rst.bist = [] ∧ (∀ f ∈ s.rst.bist, t.pageSt (filePage f) = stOff) ∧
    Completed t 0 Fld.DEV_CMD_STS_STATUS (if ∃ sq ∈ failed, sqFile sq ∈ s.rst.bist then .selftestFailed else .ok)) ∧
  (∀ s fn, s.arb.restarting = true → s.arb.mbx = [fn] → Answers .arbiterRestartDone s fun t => t.arb.restarting = false ∧
    t.arb.mbx = [] ∧ Completed t fn Fld.ARB_MBX_STS_STATUS .cancelled)

/-! ## Castle -/

/-- R597 to R602, R604 to R607, R612, R616, R619, R623, R627, R628: what each command of CSL_CMD does, its checks in their order, and the
events of time and of the entropy source. A command that reads or writes memory is stated by what its reads and writes leave. -/
def Obligations.CastleCommandsRunAndComplete : Prop :=
  let ready := fun (s : State) (fn v op : Nat) => CmdReady s fn 0x02 0x044 v op true fn Fld.CSL_CMD_STS_STATUS
  let done := fun (t : State) (fn : Nat) (st : Status) => Completed t fn Fld.CSL_CMD_STS_STATUS st
  let va := fun (s : State) (fn : Nat) => s.getF fn Fld.CSL_CMD_VA_LO + 2 ^ 32 * s.getF fn Fld.CSL_CMD_VA_HI
  let begun := fun (s : State) (fn : Nat) => s.startCmd fn Fld.CSL_CMD_STS_STATUS
  let all := [(1, Instr.challenge), (2, .tokenCmd), (3, .attest), (4, .certread), (5, .updateCmd), (6, .arbcommit), (7, .lockdown),
    (8, .debugEnd), (9, .keygen), (10, .signCmd)]
  (∀ p ∈ all, ∀ s fn v, ready s fn v p.1 →
    (s.csl.upd ≠ none → Answers (p.2 fn v) s fun t => t.getF fn Fld.CSL_CMD_STS_DONE = 0 ∧ t.mem = s.mem ∧
      t.csl = { s.csl with waiting := s.csl.waiting ++ [(fn, v, va s fn)] }) ∧
    (s.csl.upd = none → 5 ≤ p.1 → s.isOwner fn = false → Answers (p.2 fn v) s fun t =>
      done t fn .owned ∧ t.csl = s.csl ∧ t.mem = s.mem)) ∧
  (∀ s fn v, s.csl.upd = none → ready s fn v 1 → Answers (.challenge fn v) s fun t =>
    let fault := if s.flag 0 Fld.CSL_STS_BACKOFF then some Status.backoff
      else if s.flag 0 Fld.CSL_STS_TRNGFAIL then some .trngFailed else none
    (∀ st, fault = some st → done t fn st ∧ t.csl = s.csl) ∧
    (fault = none → done t fn .ok ∧ t.csl = { s.csl with chal := assocInsert fn s.ticks s.csl.chal } ∧
      ∀ i, i < 8 → t.getF fn (Fld.CSL_CHALn.plus (4 * i)) = (Config.free (s.free + i) 32).toNat)) ∧
  (∀ s fn v, s.csl.upd = none → ready s fn v 2 →
    let r := ((begun s fn).useChallenge fn).mgrRead fn (va s fn) 256
    Answers (.tokenCmd fn v) s fun t => t.csl.chal = assocErase fn s.csl.chal ∧
      (∀ st, r.2 = .error st → done t fn st) ∧
      (∀ b, r.2 = .ok b →
        let fault := if tokenBad b then some Status.cslMalformed
          else if (b.drop 8).take 16 ≠ r.1.unitId then some .unitMismatch
          else if s.challengeOf fn ≠ some ((b.drop 24).take 32) then some .challengeStale
          else if !r.1.tokenKeyOk fn b then some .keyInvalid
          else if !r.1.tokenSigOk b then some .signatureInvalid
          else if r.1.tokenForbidden b then some .debugRefused else none
        let word := leField b 64 4
        (∀ st, fault = some st → done t fn st) ∧
        (fault = none → leField b 6 1 = 1 → done t fn .ok ∧ t.dbg = 1 ∧ t.getF 0 Fld.CSL_DBG_SCOPE = word ∧
          t.getF 0 Fld.CSL_DBG_LEFT = leField b 68 4 ∧ t.csl.session = true ∧ t.csl.ends = s.now + leField b 68 4 * 1000000000) ∧
        (fault = none → leField b 6 1 = 2 → s.getF 0 Fld.DEV_OWN_STATE = 0 → fn < 64 → done t fn .ok ∧ t.isOwner fn = true ∧
          t.getF 0 Fld.DEV_OWN_STATE = 1) ∧
        (fault = none → leField b 6 1 = 3 → done t fn .ok ∧ t.dbg = 2 ∧ t.csl.session = true ∧ t.getF 0 Fld.CSL_DBG_SCOPE = word ∧
          if s.dbg = 2 then t.csl.entries = s.csl.entries else t.csl.entries = [] ∧ t.rmaEver = true ∧
            ∀ i, i < 4 → t.slotActive i = false ∧ t.slotRevoked i = true) ∧
        (fault = none → leField b 6 1 = 4 →
          let i := leField b 121 1
          if s.slotActive i || s.slotRevoked i || leField b 122 1 == 0 then done t fn .fuseRefused
          else done t fn .ok ∧ t.slotActive i = true ∧ t.slotPub i = (b.drop 64).take 57) ∧
        (fault = none → leField b 6 1 = 5 →
          let i := leField b 64 1
          if (List.range 4).any (fun k => k != i && s.authSlot k) then done t fn .ok ∧ t.slotActive i = false ∧ t.slotRevoked i = true
          else done t fn .fuseRefused) ∧
        (fault = none → leField b 6 1 = 6 → done t fn .ok ∧
          t.getF 0 Fld.CSL_POLICY = Nat.lor (s.getF 0 Fld.CSL_POLICY) word))) ∧
  (∀ s fn v, s.csl.upd = none → ready s fn v 3 →
    let r := (begun s fn).mgrRead fn (va s fn) 32
    Answers (.attest fn v) s fun t => t.csl = s.csl ∧ (∀ st, r.2 = .error st → done t fn st) ∧
      (∀ nonce, r.2 = .ok nonce →
        let b := r.1.reportBody fn nonce
        let w := r.1.mgrWrite fn (va s fn + 64) (b ++ signBlock 0xF0 0 ctxAtt b)
        done t fn w.2 ∧ t.mem = w.1.mem)) ∧
  (∀ s fn v, s.csl.upd = none → ready s fn v 4 →
    let a := Config.certificate 0
    let c := Config.certificate 1
    let w := (begun s fn).mgrWrite fn (va s fn)
      ((leBytes 2 a.length ++ leBytes 2 c.length ++ List.replicate 4 0#8 ++ a ++ c).take 4096)
    Answers (.certread fn v) s fun t => t.csl = s.csl ∧ done t fn w.2 ∧ t.mem = w.1.mem) ∧
  (∀ s fn v, s.csl.upd = none → s.isOwner fn = true →
    (ready s fn v 5 → Answers (.updateCmd fn v) s fun t => t.csl = { s.csl with upd := some { fn := fn, va := va s fn } } ∧
      t.getF fn Fld.CSL_CMD_STS_DONE = 0 ∧ t.getF 0 Fld.CSL_UPD_PASS = 1 ∧ t.flag 0 Fld.CSL_STS_UPDATING = true) ∧
    (ready s fn v 6 → Answers (.arbcommit fn v) s fun t => done t fn .ok ∧ t.csl = s.csl ∧
      t.getF 0 Fld.CSL_ARB_N = max (s.getF 0 Fld.CSL_ARB_N) (min (s.getF 0 Fld.CSL_ARB_SVN) (setSvn s.flashSet))) ∧
    (ready s fn v 7 → Answers (.lockdown fn v) s fun t => done t fn .ok ∧ t.flag 0 Fld.CSL_STS_LOCKDOWN = true ∧
      ∀ p ∈ List.range 20 ++ (List.range 16).map filePage, t.flag 0 (Fld.LOCK_LOCKDOWN.onPage p) = true) ∧
    (ready s fn v 8 → Answers (.debugEnd fn v) s fun t => done t fn .ok ∧ t.csl.session = false ∧
      (s.csl.session = true → t.dbg = (if s.dbg = 2 then 2 else 0) ∧ t.getF 0 Fld.CSL_DBG_SCOPE = 0 ∧ t.getF 0 Fld.CSL_DBG_LEFT = 0)) ∧
    (ready s fn v 9 → Answers (.keygen fn v) s fun t =>
      if s.flag 0 Fld.CSL_STS_TRNGFAIL then done t fn .trngFailed ∧ t.csl = s.csl
      else done t fn .ok ∧ t.csl = { s.csl with entries := assocInsert (bits v 2 0) (s.free + 1) s.csl.entries }) ∧
    (ready s fn v 10 →
      let e := bits v 2 0
      let r := (begun s fn).mgrRead fn (va s fn) 64
      Answers (.signCmd fn v) s fun t => t.csl = s.csl ∧
        (s.csl.session = true → done t fn .debugRefused ∧ t.mem = s.mem) ∧
        (s.csl.session = false → s.csl.entries.find? (fun k => k.1 == e) = none → done t fn .keyInvalid ∧ t.mem = s.mem) ∧
        (∀ k, s.csl.session = false → s.csl.entries.find? (fun k => k.1 == e) = some k →
          (∀ st, r.2 = .error st → done t fn st) ∧
          (∀ d, r.2 = .ok d →
            let w := r.1.mgrWrite fn (va s fn + 64) (signBlock (0xF1 + e) k.2 ctxSign d)
            done t fn w.2 ∧ t.mem = w.1.mem)))) ∧
  (∀ s fn e, s.csl.chal.find? (fun e => e.1 == fn) = some e →
    (e.2 + 15000000000 ≤ s.ticks → Answers (.challengeLapse fn) s fun t =>
      t = { s with csl := { s.csl with chal := assocErase fn s.csl.chal } }) ∧
    (s.ticks < e.2 + 15000000000 → Answers (.challengeLapse fn) s fun t => t = s)) ∧
  (∀ s, s.csl.session = true →
    (s.csl.ends ≤ s.now → Answers .debugExpiry s fun t => t.csl.session = false ∧ t.dbg = (if s.dbg = 2 then 2 else 0) ∧
      t.getF 0 Fld.CSL_DBG_SCOPE = 0 ∧ t.getF 0 Fld.CSL_DBG_LEFT = 0) ∧
    (s.now < s.csl.ends → Answers .debugExpiry s fun t => t = s)) ∧
  (∀ s k, s.csl.backoffAt = some k →
    (k + 2500000000 ≤ s.ticks → Answers .backoffEnd s fun t => t.flag 0 Fld.CSL_STS_BACKOFF = false ∧
      t.csl = { s.csl with backoffAt := none } ∧ RegsKept s t [(0, 0x02, 0x040)]) ∧
    (s.ticks < k + 2500000000 → Answers .backoffEnd s fun t => t = s)) ∧
  (∀ s n, Answers (.trngHealthFail n) s fun t => t.flag 0 Fld.CSL_STS_TRNGFAIL = true ∧
    t.getF 0 Fld.CSL_TRNG = min (2 ^ 32 - 1) (s.getF 0 Fld.CSL_TRNG + n) ∧ t.csl = s.csl ∧ t.mem = s.mem)

/-- R608 to R615: the passes of an UPDATE, and a recovery session. An UPDATE's end is stated where no command waits. -/
def Obligations.ImageSetsAreUpdatedAndRecovered : Prop :=
  (∀ s ok u, s.csl.upd = some u → s.getF 0 Fld.PWR_STATE_STATE ≠ 2 → s.csl.waiting = [] →
    let r := s.readSet u
    let ends := fun (t : State) (st : Status) => t.csl.upd = none ∧ t.getF 0 Fld.CSL_UPD_PASS = 0 ∧
      Completed t u.fn Fld.CSL_CMD_STS_STATUS st
    let bad := fun t : State => t.flag 0 Fld.CSL_STS_FLASHBAD = true
    (u.pass = 1 → Answers (.updatePassDone ok) s fun t => t.csl.flash = s.csl.flash ∧
      (∀ st, r.2 = .error st → ends t st) ∧
      (∀ b, r.2 = .ok b →
        (∀ st, r.1.setFault b = some st → ends t st) ∧
        (r.1.setFault b = none → t.csl.upd = some { u with set := b, pass := 2 } ∧ t.csl.flashCut = true ∧
          t.getF 0 Fld.CSL_UPD_PASS = 2))) ∧
    (u.pass = 2 → ok = true → Answers (.updatePassDone ok) s fun t =>
      (∀ st, r.2 = .error st → ends t .digestMismatch ∧ bad t) ∧
      (∀ b, r.2 = .ok b → t.csl.flash = some b ∧ t.csl.flashCut = false ∧
        (if b.take 4096 = u.set.take 4096 ∧ (setEntries b).all (entryDigestOk b) = true then
          t.csl.upd = some { u with pass := 3 } ∧ t.getF 0 Fld.CSL_UPD_PASS = 3
        else ends t .digestMismatch ∧ bad t))) ∧
    (u.pass = 3 → ok = true → Answers (.updatePassDone ok) s fun t => ends t .ok ∧ t.flag 0 Fld.CSL_STS_PENDING = true ∧
      t.flag 0 Fld.CSL_STS_FLASHBAD = false ∧ t.csl.kept = u.set.take 4096 ∧ t.csl.flash = s.csl.flash) ∧
    ((u.pass = 2 ∨ u.pass = 3) → ok = false → Answers (.updatePassDone ok) s fun t => ends t .flashFailed ∧ bad t ∧
      t.csl.flash = s.csl.flash)) ∧
  (∀ s fn, s.serves 0x02 = true →
    (∀ v, s.getF 0 Fld.DEV_BOOT_STAGE ≠ 8 → opCode v = 1 → Answers (.rcvStart fn v) s fun t => t.csl = s.csl ∧
      t.getF fn (Fld.ERR_CODE_CODE.onPage 0x02) = Status.cslMalformed.code) ∧
    (s.getF 0 Fld.DEV_BOOT_STAGE = 8 → fn < 64 → fn % 16 = 0 →
      (∀ v, opCode v = 1 → resvHit 0x02 0x0A0 v = false → (s.csl.rcv = none ∨ ∃ r, s.csl.rcv = some r ∧ r.port = fn / 16) →
        Answers (.rcvStart fn v) s fun t =>
          t.csl.rcv = some { port := fn / 16, pages := if bits v 11 0 = 0 then 4096 else bits v 11 0 } ∧
          t.flag 0 Fld.CSL_RCV_STS_READY = true ∧ t.flag 0 Fld.CSL_RCV_STS_ACTIVE = true ∧ t.getF 0 Fld.CSL_RCV_STS_PORT = fn / 16 ∧
          t.getF 0 Fld.CSL_RCV_STS_DONE = 0 ∧ t.getF 0 Fld.CSL_RCV_STS_STATUS = Status.ok.code) ∧
      (∀ r, s.csl.rcv = some r → r.port = fn / 16 → s.flag 0 Fld.CSL_RCV_STS_READY = true →
        (∀ off v, Answers (.rcvWindowWrite fn off v) s fun t =>
          let o := off % 0x8000 / 4 * 4
          ∃ y, t.csl = { s.csl with rcv := some { r with win := y } } ∧ cellsRead y o 4 = leBytes 4 v ∧ t.regs = s.regs ∧
            ∀ a, (a < o ∨ o + 4 ≤ a) → assocGet 0#8 y a = assocGet 0#8 r.win a) ∧
        (∀ v, opCode v = 2 → resvHit 0x02 0x0A0 v = false →
          let n := bits v 11 0
          let b := cellsRead r.win 0 (r.chunkBytes n)
          let fault := if n ≠ 0 then none else match s.manifestFault (b.take 4096) with
            | some st => some st
            | none => if setBytes b = r.pages * 4096 then none else some .cslMalformed
          Answers (.rcvChunk fn v) s fun t =>
            (n ≠ s.getF 0 Fld.CSL_RCV_STS_DONE → t.csl = s.csl ∧ t.getF 0 Fld.CSL_RCV_STS_STATUS = Status.cslMalformed.code) ∧
            (n = s.getF 0 Fld.CSL_RCV_STS_DONE →
              (∀ st, fault = some st → t.csl.rcv = none ∧ t.getF 0 Fld.CSL_RCV_STS_STATUS = st.code ∧
                t.flag 0 Fld.CSL_RCV_STS_ACTIVE = false) ∧
              (fault = none → t.csl = { s.csl with rcv := some { r with chunk := some n, set := r.set ++ b } } ∧
                t.flag 0 Fld.CSL_RCV_STS_READY = false)))))) ∧
  (∀ s r n, s.csl.rcv = some r → r.chunk = some n → n < 512 →
    let ends := fun (t : State) (st : Status) => t.csl.rcv = none ∧ t.getF 0 Fld.CSL_RCV_STS_STATUS = st.code ∧
      t.flag 0 Fld.CSL_RCV_STS_ACTIVE = false
    (Answers (.rcvChunkProgrammed false) s fun t => ends t .flashFailed ∧ t.flag 0 Fld.CSL_STS_FLASHBAD = true ∧
      t.csl.flash = s.csl.flash) ∧
    ((n + 1) * 32768 < r.pages * 4096 → Answers (.rcvChunkProgrammed true) s fun t =>
      t.csl.rcv = some { r with chunk := none } ∧ t.getF 0 Fld.CSL_RCV_STS_DONE = n + 1 ∧ t.flag 0 Fld.CSL_RCV_STS_READY = true ∧
      t.csl.flash = s.csl.flash) ∧
    (r.pages * 4096 ≤ (n + 1) * 32768 → Answers (.rcvChunkProgrammed true) s fun t =>
      t.csl.flash = some r.set ∧ t.csl.flashCut = false ∧
      (∀ st, s.setFault r.set = some st → ends t st ∧ t.flag 0 Fld.CSL_STS_FLASHBAD = true) ∧
      (s.setFault r.set = none → ends t .ok ∧ t.flag 0 Fld.CSL_STS_FLASHBAD = false ∧ t.getF 0 Fld.DEV_BOOT_STAGE = 1)))

/-! ## The Arbiter -/

/-- R32 to R35, R630 to R642: mailbox requests and their answers, ownership, the configuration, sensors, the log, MCTP, and the hosts of
the ports. -/
def Obligations.ArbiterServesRequestsAndHosts : Prop :=
  let heads := fun (s : State) (fn opc : Nat) => s.arb.mbx.head? = some fn ∧ s.arb.restarting = false ∧ s.arb.cfg = none ∧
    leField (s.mbxReq fn) 0 1 = opc
  let args := fun (s : State) (fn : Nat) => ((s.mbxReq fn).drop 16).take (leField (s.mbxReq fn) 4 2)
  let answered := fun (s t : State) (fn : Nat) (st : Status) (payload : List Byte) =>
    Completed t fn Fld.ARB_MBX_STS_STATUS st ∧ t.arb.mbx = s.arb.mbx.filter (fun f => f != fn) ∧
    ∀ i, i < 64 → t.getReg fn 0x01 (0x500 + 4 * i) = BitVec.ofNat 32 (leField (mbxRsp (s.mbxReq fn) st payload) (4 * i) 4)
  (∀ s fn v, Reaches s fn 0x01 → s.arb.restarting = false →
    (s.cmdDone fn Fld.ARB_MBX_STS_STATUS = true → resvHit 0x01 0x040 v = true → Answers (.arbMbxGo fn v) s fun t =>
      Completed t fn Fld.ARB_MBX_STS_STATUS .arbMalformed ∧ t.arb = s.arb) ∧
    (s.cmdDone fn Fld.ARB_MBX_STS_STATUS = true → resvHit 0x01 0x040 v = false → bit v 0 = true → Answers (.arbMbxGo fn v) s fun t =>
      t.getF fn Fld.ARB_MBX_STS_DONE = 0 ∧ t.arb = { s.arb with mbx := s.arb.mbx ++ [fn] }) ∧
    (s.cmdDone fn Fld.ARB_MBX_STS_STATUS = false → Answers (.arbMbxGo fn v) s fun t => t = s)) ∧
  (∀ p ∈ [(1, Instr.hello), (2, .releaseOwn), (3, .configWrite), (4, .configRead), (5, .sensors), (6, .logRead)], ∀ s fn,
    (heads s fn p.1 → p.1 ≠ 2 ∧ p.1 ≠ 3 ∨ s.isOwner fn = true → mbxBad (s.mbxReq fn) = true → Answers (p.2 fn) s fun t =>
      answered s t fn .arbMalformed [] ∧ t.mem = s.mem ∧ t.hello = s.hello) ∧
    (heads s fn p.1 → p.1 = 2 ∨ p.1 = 3 → s.isOwner fn = false → Answers (p.2 fn) s fun t =>
      answered s t fn .owned [] ∧ t.mem = s.mem ∧ t.getReg 0 0x00 0x104 = s.getReg 0 0x00 0x104) ∧
    (s.arb.cfg = none → s.arb.mbx.head? ≠ some fn → Answers (p.2 fn) s fun t => t = s)) ∧
  (∀ s fn, mbxBad (s.mbxReq fn) = false →
    (heads s fn 1 →
      let m := leField (args s fn) 0 2
      Answers (.hello fn) s fun t =>
        if s.majorOk m then answered s t fn .ok s.ifver ∧ t.hello = assocInsert fn m s.hello
        else answered s t fn .versionUnsupported s.ifver ∧ t.hello = assocErase fn s.hello) ∧
    (heads s fn 2 → s.isOwner fn = true → Answers (.releaseOwn fn) s fun t => answered s t fn .ok [] ∧ t.ownerFn = none ∧
      t.getF 0 Fld.DEV_OWN_FUNC = 0 ∧ t.getF 0 Fld.DEV_GEN = s.getF 0 Fld.DEV_GEN) ∧
    (heads s fn 3 → s.isOwner fn = true →
      let va := leField (args s fn) 0 8
      let r := s.readBlock fn va
      Answers (.configWrite fn) s fun t => t.getF 0 Fld.DEV_GEN = s.getF 0 Fld.DEV_GEN ∧
        (va % 64 ≠ 0 → answered s t fn .arbMalformed []) ∧
        (∀ st, va % 64 = 0 → r.2 = .error st → answered s t fn st []) ∧
        (∀ b, va % 64 = 0 → r.2 = .ok b → (∀ st, r.1.cfgFault b = some st → answered s t fn st []) ∧
          (r.1.cfgFault b = none → t.arb.cfg = some (b, fn) ∧ t.arb.mbx = s.arb.mbx ∧ t.parts = s.parts))) ∧
    (heads s fn 4 →
      let va := leField (args s fn) 0 8
      let c := s.cfgInForce
      let w := s.mgrWrite fn va (cfgBytes (if s.isOwner fn then c else { c with parts := c.parts.filter fun p => p.fn == fn }))
      Answers (.configRead fn) s fun t => (va % 64 ≠ 0 → answered s t fn .arbMalformed [] ∧ t.mem = s.mem) ∧
        (va % 64 = 0 → answered s t fn w.2 [] ∧ t.mem = w.1.mem)) ∧
    (heads s fn 5 → Answers (.sensors fn) s fun t => answered s t fn .ok s.sensorBytes ∧ t.mem = s.mem) ∧
    (heads s fn 6 →
      let a := args s fn
      let l := s.logFrom (bit (leField a 14 2) 0) (leField a 8 4) (leField a 12 2) fun e => s.isOwner fn || e.part == fn || e.part == 0xFF
      let w := s.mgrWrite fn (leField a 0 8) (l.flatMap eventBytes)
      Answers (.logRead fn) s fun t => (logArgsOk a = false → answered s t fn .arbMalformed []) ∧
        (logArgsOk a = true → l = [] → answered s t fn .ok (leBytes 4 0) ∧ t.mem = s.mem) ∧
        (logArgsOk a = true → l ≠ [] → t.mem = w.1.mem ∧
          if w.2 = .ok then answered s t fn .ok (leBytes 4 l.length) else answered s t fn w.2 []))) ∧
  (∀ s b who, s.arb.cfg = some (b, who) →
    let c := parseCfg b
    (s.cfgQuiet c = false → Answers .configTakeEffect s fun t => t = s) ∧
    (s.cfgQuiet c = true → Answers .configTakeEffect s fun t => t.arb.cfg = none ∧
      t.getF 0 Fld.DEV_GEN = add32 (s.getF 0 Fld.DEV_GEN) 1 ∧ (who < 64 → s.arb.mbx.head? = some who → answered s t who .ok []) ∧
      (∀ p ∈ c.parts, (assocGet {} t.parts p.fn).held = true) ∧
      (∀ fn ∈ s.heldParts, (c.part fn).isNone → assocGet {} t.parts fn = {}) ∧
      ∀ f, f < 16 → t.getReg 0 (filePage f) 0x048 = BitVec.ofNat 32 (match c.parts.find? fun p => bit p.files f with
        | some p => p.fn + 2 ^ 8 + (if bit p.kres f then 2 ^ 9 else 0)
        | none => 0))) ∧
  (∀ s vals, vals.length = 83 → s.arb.restarting = false → s.getF 0 Fld.PWR_STATE_STATE ≠ 2 → Answers (.arbSensorScan vals) s fun t =>
    let h := hottest ((vals.take 32).map fun v => v % 256)
    let plate := toSigned 8 (vals.getD 82 0 % 256)
    t.arb.scan = vals ∧ t.arb.scanTime = s.now ∧ t.getF 0 Fld.PWR_IN_MV = vals.getD 48 0 % 65536 ∧
    t.getF 0 Fld.PWR_TJ_SENSOR = h.1 % 32 ∧ t.getF 0 Fld.PWR_TJ_DEGC = h.2 % 256 ∧
    (plateOk plate = true → t.arb.plateAt = none ∧ t.arb.log = s.arb.log) ∧
    (plateOk plate = false → s.arb.plateAt = none → t.arb.plateAt = some s.ticks ∧
      t.getF 0 Fld.ARB_LOG_SEQ = add32 (s.getF 0 Fld.ARB_LOG_SEQ) 1)) ∧
  (∀ s msg,
    (s.flag 0 Fld.ARB_SMB_CFG_EN = false → Answers (.mctpMessage msg) s fun t => t = s) ∧
    (s.flag 0 Fld.ARB_SMB_CFG_EN = true → s.arb.restarting = false → s.getF 0 Fld.PWR_STATE_STATE ≠ 2 → s.serves 0x01 = true →
      (leField msg 0 1 % 128 = 0 → leField msg 2 1 = 2 → Answers (.mctpMessage msg) s fun t => t = { s with arb := { s.arb with
        mctp := [0#8, BitVec.ofNat 8 (leField msg 1 1 % 32), 2#8, 0#8, BitVec.ofNat 8 s.arb.eid, 0#8, 0#8] } }) ∧
      (leField msg 0 1 % 128 = 0x7E →
        let req := msg.drop 3
        let mine := leField msg 1 1 * 256 + leField msg 2 1 = Config.vendorId % 65536
        let rsp := fun (st : Status) (p : List Byte) => msg.take 3 ++ (mbxRsp req st p).take (16 + p.length)
        Answers (.mctpMessage msg) s fun t => (¬ mine → t = s) ∧ t.mem = s.mem ∧ t.regs = s.regs ∧
          (mine → leField req 0 1 ∈ [2, 3, 4] → t.arb.mctp = rsp .owned []) ∧
          (mine → leField req 0 1 ∈ [1, 5] → mbxBad req = true → t.arb.mctp = rsp .arbMalformed []) ∧
          (mine → leField req 0 1 = 5 → mbxBad req = false → t.arb.mctp = rsp .ok s.sensorBytes)))) ∧
  (∀ s port, port < s.portCount → s.getF 0 Fld.DEV_BOOT_STAGE = 7 →
    let width := fun t : State => t.getF 0 (Fld.PCI_PORTn_WIDTH.plus (4 * port))
    (s.hostSt port = 0 → Answers (.pcieLinkDown port) s fun t => t.hostSt port = 1 ∧ width t = 0 ∧
      t.getF 0 (Fld.PCI_PORTn_SPEED.plus (4 * port)) = 0 ∧
      t.port port = { s.port port with downAt := some s.ticks }) ∧
    (∀ speed lanes, speed < 3 → Answers (.pcieLinkUp port speed lanes) s fun t => t.hostSt port = s.hostSt port ∧ width t = 0 ∧
      t.getF 0 (Fld.PCI_PORTn_SPEED.plus (4 * port)) = speed ∧ t.port port = s.port port) ∧
    (∀ speed lanes, 3 ≤ speed → speed ≤ 5 → lanes < 32 → Answers (.pcieLinkUp port speed lanes) s fun t =>
      t.hostSt port = 0 ∧ width t = lanes ∧
      t.getF 0 (Fld.PCI_PORTn_SPEED.plus (4 * port)) = speed ∧ t.port port = { downAt := none, seenUp := true, lostAt := none } ∧
      (s.getF 0 Fld.DEV_OWN_STATE = 2 → s.getF 0 Fld.DEV_OWN_FUNC / 16 = port → t.getF 0 Fld.DEV_OWN_STATE = 1 ∧
        t.getF 0 Fld.DEV_OWN_FUNC = s.getF 0 Fld.DEV_OWN_FUNC)) ∧
    (s.hostSt port = 1 → s.hostDue port = false → Answers (.hostLost port) s fun t => t = s) ∧
    (s.hostSt port = 1 → s.hostDue port = true → Answers (.hostLost port) s fun t => t.hostSt port = 2 ∧
      (t.port port).lostAt = some s.ticks ∧
      (s.getF 0 Fld.DEV_OWN_STATE = 1 → s.getF 0 Fld.DEV_OWN_FUNC / 16 = port → t.getF 0 Fld.DEV_OWN_STATE = 2) ∧
      (s.getF 0 Fld.DEV_OWN_FUNC / 16 ≠ port → t.getF 0 Fld.DEV_OWN_STATE = s.getF 0 Fld.DEV_OWN_STATE)) ∧
    (∀ k, (s.port port).lostAt = some k → s.hostSt port = 2 → s.arb.cfg = none → s.arb.restarting = false →
      (s.ticks ≤ k + s.getF 0 Fld.DEV_GRACE_S * 250000000 → Answers (.graceExpiry port) s fun t => t = s) ∧
      (k + s.getF 0 Fld.DEV_GRACE_S * 250000000 < s.ticks → (∃ fn ∈ s.heldParts, fn / 16 = port) →
        Answers (.graceExpiry port) s fun t => t.arb.cfg = some (cfgBytes (s.cfgWithout port), 64 + port) ∧ t.arb.path = 3 ∧
          t.parts = s.parts)))

/-! ## Images -/

/-- R645 to R651: LOAD, UNLOAD and REPLACE, and the ends of the latter two. -/
def Obligations.ImagesAreLoadedReplacedAndUnloaded : Prop :=
  let ready := fun (s : State) (fn v op : Nat) => CmdReady s fn 0x05 0x1C8 v op true fn Fld.DSP_IMG_STS_STATUS
  let done := fun (t : State) (fn : Nat) (st : Status) => Completed t fn Fld.DSP_IMG_STS_STATUS st
  let fixed := fun (x : List Byte) => x.take 8 ++ (x.take 48).drop 12 ++ (x.take 64).drop 52
  (∀ s fn v, ready s fn v 1 →
    let va := s.imgVa fn
    let r := s.readTouth fn va
    Answers (.imageLoad fn v) s fun t =>
      (∀ st, r.2 = .error st → done t fn st ∧ t.images = s.images) ∧
      (∀ b, r.2 = .ok b →
        (∀ st, r.1.loadFault fn b (parseImage va b) = some st → done t fn st ∧ t.images = s.images) ∧
        (r.1.loadFault fn b (parseImage va b) = none → pinnedPages (parseImage va b) = 0 → done t fn .ok ∧
          ∃ h, s.image fn h = none ∧ t.getF fn Fld.DSP_IMG_STS_HANDLE = h ∧
            t.images = assocInsert (imageKey fn h) (parseImage va b) s.images))) ∧
  (∀ s fn v,
    let h := bits v 15 0
    (ready s fn v 2 → s.image fn h = none → Answers (.imageUnload fn v) s fun t => done t fn .imageUnknown ∧ t.images = s.images) ∧
    (∀ im, ready s fn v 2 → s.image fn h = some im → im.kimg = true → s.partKFiles fn ≠ [] → Answers (.imageUnload fn v) s fun t =>
      done t fn .imageRejected ∧ t.images = s.images) ∧
    (∀ im, ready s fn v 2 → s.image fn h = some im → im.kimg = false ∨ s.partKFiles fn = [] → Answers (.imageUnload fn v) s fun t =>
      t.getF fn Fld.DSP_IMG_STS_DONE = 0 ∧ t.images = assocInsert (imageKey fn h) { im with unloading := true } s.images) ∧
    (ready s fn v 3 → s.image fn h = none → Answers (.imageReplace fn v) s fun t => done t fn .imageUnknown ∧ t.images = s.images) ∧
    (∀ im, ready s fn v 3 → s.image fn h = some im →
      let va := s.imgVa fn
      let r := s.readTouth fn va
      Answers (.imageReplace fn v) s fun t =>
        (∀ st, r.2 = .error st → done t fn st ∧ t.images = s.images) ∧
        (∀ b, r.2 = .ok b →
          if imageOk b = true ∧ fixed b = fixed im.header ∧ ihDigest b = im.digest then
            t.getF fn Fld.DSP_IMG_STS_DONE = 0 ∧ t.images = assocInsert (imageKey fn h)
              { im with va := va, bytes := ihBytes b, header := b.take 64, replacing := some s.ticks } s.images
          else done t fn .imageRejected ∧ t.images = s.images))) ∧
  (∀ s fn h im, s.image fn h = some im → im.unloading = true →
    (s.imageJobs fn h = [] → im.replayPages = [] → s.cmdDone fn Fld.DSP_IMG_STS_STATUS = false →
      Answers (.imageUnloadDone fn h) s fun t => done t fn .ok ∧ t.images = assocErase (imageKey fn h) s.images) ∧
    (s.imageJobs fn h ≠ [] → Answers (.imageUnloadDone fn h) s fun t => t = s)) ∧
  (∀ s fn h im k, s.image fn h = some im → im.replacing = some k →
    ((∃ e ∈ s.imageJobs fn h, e.2.st = .started ∧ e.2.startTick ≤ k) → Answers (.imageReplaceDone fn h) s fun t => t = s) ∧
    ((∀ e ∈ s.imageJobs fn h, e.2.st = .started → k < e.2.startTick) → Answers (.imageReplaceDone fn h) s fun t => done t fn .ok ∧
      t.images = assocInsert (imageKey fn h) { im with replacing := none } s.images ∧ t.mem = s.mem))

/-! ## Peripheral controllers -/

/-- R233, R529, R669, R670: the doorbell of a peripheral ring, a descriptor taken by each operation, its timeout and its completion. The
taken descriptor stands in the controller, so the reads of the ring are not part of these statements; the data of a READ and of a
WRITE_READ is stated for buses that give RLEN bytes at once. What the bus answers is the model's free value (log entry 37). -/
def Obligations.PeripheralDescriptorsRunAndComplete : Prop :=
  let taken := fun (s : State) (c op : Nat) (d : List Byte) => c < 14 ∧ s.perOn c = true ∧ (s.per c).desc = some d ∧
    (s.per c).outcome = none ∧ s.perHead c ≠ s.perTail c ∧ pdOp d = op
  let out := fun (t : State) (c : Nat) (st : Status) (cause n : Nat) => (t.per c).outcome = some (st, cause, n)
  let bus := fun (t : State) (c n : Nat) => ∃ cause, cause ≤ 4 ∧ out t c (if cause = 0 then .ok else .timeout) cause n
  (∀ s fn v, Reaches s fn 0x13 → v < 2 ^ 32 →
    let c := s.getF 0 Fld.GPI_PER_SEL_CTRL
    let h := s.perHead c
    (s.perMay fn c = true → sub32 (s.perTail c) h < sub32 v h → sub32 v h ≤ s.perSize c → Answers (.perTailDoorbell fn v) s fun t =>
      t.perTail c = v ∧ RegsKept s t [(perBank c, 0x13, 0x090)] ∧ t.mem = s.mem) ∧
    (s.perMay fn c = true → sub32 v h ≤ sub32 (s.perTail c) h → Answers (.perTailDoorbell fn v) s fun t => t = s) ∧
    (s.perMay fn c = true → sub32 (s.perTail c) h < sub32 v h → s.perSize c < sub32 v h → Answers (.perTailDoorbell fn v) s fun t =>
      t.perTail c = s.perTail c ∧ t.getF fn (Fld.ERR_CODE_CODE.onPage 0x13) = Status.doorbellInvalid.code) ∧
    (s.perMay fn c = false → Answers (.perTailDoorbell fn v) s fun t =>
      t.perTail c = s.perTail c ∧ t.getF fn (Fld.ERR_CODE_CODE.onPage 0x13) = Status.owned.code)) ∧
  (∀ s c d data,
    (∀ op, taken s c op d → pdBad c d = true →
      Answers (.perWrite c) s (fun t => out t c .entryMalformed 0 0 ∧ t.regs = s.regs ∧ t.mem = s.mem) ∧
      Answers (.perRead c data) s (fun t => out t c .entryMalformed 0 0 ∧ t.regs = s.regs ∧ t.mem = s.mem) ∧
      Answers (.perWriteRead c data) s (fun t => out t c .entryMalformed 0 0 ∧ t.regs = s.regs ∧ t.mem = s.mem)) ∧
    (taken s c 1 d → pdBad c d = false →
      let r := s.vaRead (s.perFn c) .engine (pdVa d) (pdWlen d)
      Answers (.perWrite c) s fun t => (t.per c).desc = some d ∧ t.mem = r.1.mem ∧
        (∀ e, r.2 = .error e → out t c (readStatus e) 0 0) ∧ (∀ b, r.2 = .ok b → bus t c 0)) ∧
    (taken s c 2 d → pdBad c d = false → c < 8 → pdRlen d ≤ data.length →
      let s1 := s.setPer c { s.per c with data := data.take (pdRlen d) }
      let w := s1.vaWrite (s1.perFn c) .engine (pdVa d + pdWlen d) (data.take (pdRlen d))
      Answers (.perRead c data) s fun t => t.mem = w.1.mem ∧ (t.per c).data = data.take (pdRlen d) ∧
        (∀ e, w.2 = .error e → out t c e.status 0 0) ∧ (∀ b, w.2 = .ok b → bus t c (pdRlen d))) ∧
    (taken s c 2 d → pdBad c d = false → 8 ≤ c → c < 12 → ((s.per c).data ++ data).length < pdRlen d → Answers (.perRead c data) s fun t =>
      (t.per c).data = (s.per c).data ++ data ∧ (t.per c).outcome = none ∧ t.mem = s.mem ∧ t.regs = s.regs) ∧
    (taken s c 3 d → pdBad c d = false → c < 8 → pdRlen d ≤ data.length →
      let r := s.vaRead (s.perFn c) .engine (pdVa d) (pdWlen d)
      let s1 := r.1.setPer c { r.1.per c with data := data.take (pdRlen d) }
      let w := s1.vaWrite (s1.perFn c) .engine (pdVa d + pdWlen d) (data.take (pdRlen d))
      Answers (.perWriteRead c data) s fun t => (∀ e, r.2 = .error e → out t c (readStatus e) 0 0) ∧
        (∀ b, r.2 = .ok b → t.mem = w.1.mem ∧ (∀ e, w.2 = .error e → out t c e.status 0 0) ∧
          (∀ u, w.2 = .ok u → bus t c (pdRlen d)))) ∧
    (∀ op, taken s c op d → pdBad c d = false → pdTmo d ≠ 0 → op ≠ 2 ∨ (s.per c).data = [] → Answers (.perTimeout c) s fun t =>
      out t c .timeout 0 0 ∧ t.regs = s.regs ∧ t.mem = s.mem) ∧
    (∀ op, taken s c op d → pdBad c d = false → pdTmo d = 0 → Answers (.perTimeout c) s fun t => t = s)) ∧
  (∀ s c d st cause n, c < 14 → s.perOn c = true → (s.per c).desc = some d → d.length = 64 →
    (s.per c).outcome = some (st, cause, n) → Answers (.peripheralComplete c) s fun t => ∃ stamp : List Byte, stamp.length = 16 ∧
      (s.arb.restarting = true → stamp = (d.take 48).drop 32) ∧
      (s.arb.restarting = false → c < 12 → stamp.take 8 = leBytes 8 s.now) ∧
      (let b := d.take 1 ++ leBytes 1 cause ++ leBytes 2 st.code ++ (d.take 10).drop 4 ++ leBytes 2 n ++ (d.take 32).drop 12 ++ stamp ++
        d.drop 48
      let w := { s with free := s.free + 16 }.vaWrite (s.perFn c) .engine (s.perVa c) b
      t.perHead c = add32 (s.perHead c) 1 ∧ t.per c = {} ∧ t.mem = w.1.mem) ∧
      bit (t.getReg (irqBank 0x13 (s.perFn c)) 0x13 0x010).toNat 1 = true)

/-! ## The machine -/

/-- A step takes the command at the front of the queue and answers what it does with the queue's rest; with no command waiting the block
idles, which is the model's choice (log entry 8). -/
def Obligations.StepRunsTheFrontCommand : Prop :=
  (∀ (c : Instr) (s : State), step { s with pending := c :: s.pending } = exec c s) ∧
  (∀ s : State, s.pending = [] → step s = .next s)

/-- R79, R542, R559, R573, R594 and the reset columns of the register maps: the state before the first boot. The interrupt registers
read 0, files and blocks are OFF, the square clock is 600 MHz, the cap is 25 W with its fractions, nobody owns the device, nothing runs or
waits, and every byte memory is in canonical form. -/
def Obligations.ResetHoldsTheValuesTheSpecGives : Prop :=
  let r := State.reset
  Inv r ∧ r.pending = [] ∧ r.now = 0 ∧ r.jobs = [] ∧ r.groups = [] ∧ r.queues = [] ∧ r.images = [] ∧ r.streams = [] ∧ r.parts = [] ∧
  r.mem.tlb = [] ∧ r.isOff = true ∧ r.ownerFn = none ∧ r.ctlOwner = none ∧
  (∀ p ∈ List.range 20 ++ (List.range 16).map filePage, ∀ fn < 64, r.getReg fn p 0x010 = 0#32) ∧
  (∀ f < 16, r.pageSt (filePage f) = stOff ∧ r.getF 0 (Fld.FIL_CLK_MHZ.onPage (filePage f)) = 600 ∧
    r.getF 0 (Fld.FIL_SPLIT_KSIZE.onPage (filePage f)) = 0) ∧
  (∀ p ∈ [0x05, 0x09, 0x0A, 0x0B, 0x0C, 0x0D, 0x0E, 0x0F], r.pageSt p = stOff) ∧ (∀ sq < 256, r.sqSt sq = sqGated) ∧
  r.getF 0 Fld.PWR_CAP_CAP = 250 ∧ r.getReg 0 0x03 0x060 = 0x0706163A#32 ∧ r.getReg 0 0x03 0x064 = 0x00010204#32 ∧
  r.getF 0 Fld.PWR_OPP_MAX = 8 ∧ r.getF 0 Fld.PWR_OPP_MIN = 0 ∧ r.getF 0 Fld.PWR_HOLD_DRAIN = 1000 ∧ r.getF 0 Fld.DEV_GRACE_S = 10

/-- Every step keeps the invariant: from any state whose byte memories are in canonical form, a step that answers a next state answers one
whose byte memories are. -/
def Obligations.EveryStepKeepsTheMemoriesCanonical : Prop :=
  ∀ s t : State, Inv s → step s = .next t → Inv t
end

