-- ==== Sys2Proof/Laws/Assoc.lean ====
section
/-! SUPPORT. Laws of the sparse tables and of the byte memories: what a read answers after a write, and that every operation
keeps the canonical form. -/

namespace Sys2Proof.Machine

variable {α : Type}

theorem assocGet_insert (d : α) (k j : Nat) (v : α) (l : List (Nat × α)) :
    assocGet d (assocInsert k v l) j = if k = j then v else assocGet d l j := by
  induction l with
  | nil => simp [assocInsert, assocGet]
  | cons e t ih =>
    obtain ⟨a, b⟩ := e
    simp only [assocInsert]
    split
    · simp only [assocGet]
    · split
      · subst a
        simp only [assocGet]
        split <;> rfl
      · simp only [assocGet, ih]
        split
        · subst a; rw [if_neg (by omega)]
        · rfl

theorem assocGet_filter (d : α) (p : Nat → Bool) (l : List (Nat × α)) (j : Nat) :
    assocGet d (l.filter fun e => p e.1) j = if p j then assocGet d l j else d := by
  induction l with
  | nil => simp [assocGet]
  | cons e t ih =>
    obtain ⟨a, b⟩ := e
    by_cases hp : p a = true
    · rw [List.filter_cons_of_pos (by simpa using hp)]
      simp only [assocGet, ih]
      by_cases haj : a = j
      · subst haj; simp [hp]
      · simp [haj]
    · rw [List.filter_cons_of_neg (by simpa using hp)]
      simp only [assocGet, ih]
      by_cases haj : a = j
      · subst haj; simp [hp]
      · simp [haj]

theorem assocGet_erase (d : α) (k j : Nat) (l : List (Nat × α)) :
    assocGet d (assocErase k l) j = if k = j then d else assocGet d l j := by
  unfold assocErase
  rw [assocGet_filter d (fun a => !(a == k)) l j]
  by_cases h : k = j
  · subst h; simp
  · have : ¬ j = k := fun e => h e.symm
    simp [h, this]

/-- A read after a write: the value written under its key, and every other key as before. -/
theorem assocGet_set [DecidableEq α] (d : α) (k j : Nat) (v : α) (l : List (Nat × α)) :
    assocGet d (assocSet d l k v) j = if k = j then v else assocGet d l j := by
  unfold assocSet
  split
  · subst v; rw [assocGet_erase]
  · rw [assocGet_insert]

@[simp] theorem assocGet_set_same [DecidableEq α] (d : α) (k : Nat) (v : α) (l : List (Nat × α)) :
    assocGet d (assocSet d l k v) k = v := by
  rw [assocGet_set, if_pos rfl]

theorem assocGet_set_other [DecidableEq α] (d : α) {k j : Nat} (h : k ≠ j) (v : α) (l : List (Nat × α)) :
    assocGet d (assocSet d l k v) j = assocGet d l j := by
  rw [assocGet_set, if_neg h]

/-! ## The canonical form -/

/-- The canonical form as a property of pairs of entries. -/
theorem assocWf_iff [DecidableEq α] (d : α) (l : List (Nat × α)) :
    assocWf d l = true ↔ (∀ e ∈ l, e.2 ≠ d) ∧ l.Pairwise (fun a b => a.1 < b.1) := by
  induction l with
  | nil => simp [assocWf]
  | cons e t ih =>
    obtain ⟨a, b⟩ := e
    cases t with
    | nil => simp [assocWf]
    | cons e' t' =>
      obtain ⟨a', b'⟩ := e'
      simp only [assocWf, Bool.and_eq_true, decide_eq_true_eq, ih]
      constructor
      · rintro ⟨⟨h1, h2⟩, h3, h4⟩
        refine ⟨?_, ?_⟩
        · intro x hx
          rcases List.mem_cons.mp hx with rfl | hx
          · exact h1
          · exact h3 x hx
        · refine List.pairwise_cons.mpr ⟨?_, h4⟩
          intro x hx
          rcases List.mem_cons.mp hx with rfl | hx
          · exact h2
          · exact Nat.lt_trans h2 ((List.pairwise_cons.mp h4).1 x hx)
      · rintro ⟨h1, h2⟩
        have h3 := List.pairwise_cons.mp h2
        exact ⟨⟨h1 (a, b) (by simp), h3.1 (a', b') (by simp)⟩, fun x hx => h1 x (List.mem_cons_of_mem _ hx), h3.2⟩

theorem assocWf_filter [DecidableEq α] (d : α) (p : Nat × α → Bool) (l : List (Nat × α)) (h : assocWf d l = true) :
    assocWf d (l.filter p) = true := by
  rw [assocWf_iff] at *
  exact ⟨fun e he => h.1 e (List.mem_filter.mp he).1, h.2.filter p⟩

theorem assocWf_erase [DecidableEq α] (d : α) (k : Nat) (l : List (Nat × α)) (h : assocWf d l = true) :
    assocWf d (assocErase k l) = true := assocWf_filter d _ l h

theorem mem_assocInsert (k : Nat) (v : α) (l : List (Nat × α)) (e : Nat × α) (he : e ∈ assocInsert k v l) :
    e = (k, v) ∨ e ∈ l := by
  induction l with
  | nil => simpa [assocInsert] using he
  | cons x t ih =>
    obtain ⟨a, b⟩ := x
    simp only [assocInsert] at he
    split at he
    · rcases List.mem_cons.mp he with h | h
      · exact .inl h
      · exact .inr h
    · split at he
      · rcases List.mem_cons.mp he with h | h
        · exact .inl h
        · exact .inr (List.mem_cons_of_mem _ h)
      · rcases List.mem_cons.mp he with h | h
        · exact .inr (by simp [h])
        · rcases ih h with h | h
          · exact .inl h
          · exact .inr (List.mem_cons_of_mem _ h)

theorem assocWf_insert [DecidableEq α] (d : α) (k : Nat) (v : α) (hv : v ≠ d) (l : List (Nat × α))
    (h : assocWf d l = true) : assocWf d (assocInsert k v l) = true := by
  rw [assocWf_iff] at *
  refine ⟨fun e he => ?_, ?_⟩
  · rcases mem_assocInsert k v l e he with rfl | h'
    · exact hv
    · exact h.1 e h'
  · obtain ⟨-, hp⟩ := h
    induction l with
    | nil => simp [assocInsert]
    | cons x t ih =>
      obtain ⟨a, b⟩ := x
      have hp' := List.pairwise_cons.mp hp
      simp only [assocInsert]
      split
      · rename_i hlt
        refine List.pairwise_cons.mpr ⟨?_, hp⟩
        intro y hy
        rcases List.mem_cons.mp hy with rfl | hy
        · exact hlt
        · exact Nat.lt_trans hlt (hp'.1 y hy)
      · split
        · subst a; exact List.pairwise_cons.mpr ⟨hp'.1, hp'.2⟩
        · refine List.pairwise_cons.mpr ⟨?_, ih hp'.2⟩
          intro y hy
          rcases mem_assocInsert k v t y hy with rfl | hy
          · show a < k; omega
          · exact hp'.1 y hy

/-- A write keeps the canonical form. -/
theorem assocWf_set [DecidableEq α] (d : α) (l : List (Nat × α)) (k : Nat) (v : α) (h : assocWf d l = true) :
    assocWf d (assocSet d l k v) = true := by
  unfold assocSet
  split
  · exact assocWf_erase d k l h
  · rename_i hv; exact assocWf_insert d k v hv l h

theorem assocWf_setMany [DecidableEq α] (d : α) (kvs l : List (Nat × α)) (h : assocWf d l = true) :
    assocWf d (assocSetMany d l kvs) = true := by
  unfold assocSetMany
  induction kvs generalizing l with
  | nil => exact h
  | cons e t ih => exact ih _ (assocWf_set d l e.1 e.2 h)

/-- Two tables in canonical form that answer every read alike are equal data. -/
theorem assocWf_ext [DecidableEq α] (d : α) (l m : List (Nat × α)) (hl : assocWf d l = true) (hm : assocWf d m = true)
    (h : ∀ k, assocGet d l k = assocGet d m k) : l = m := by
  have out : ∀ (t : List (Nat × α)) (k : Nat), (∀ e ∈ t, k < e.1) → assocGet d t k = d := by
    intro t k ht
    induction t with
    | nil => rfl
    | cons e t ih =>
      obtain ⟨a, b⟩ := e
      have h0 := ht (a, b) (by simp)
      have : a ≠ k := by simp at h0; omega
      simp only [assocGet, this, if_false]
      exact ih fun e he => ht e (List.mem_cons_of_mem _ he)
  rw [assocWf_iff] at hl hm
  induction l generalizing m with
  | nil =>
    cases m with
    | nil => rfl
    | cons e t =>
      obtain ⟨a, b⟩ := e
      exact absurd (by simpa [assocGet] using (h a).symm) (hm.1 (a, b) (by simp))
  | cons e t ih =>
    obtain ⟨a, b⟩ := e
    have hlp := List.pairwise_cons.mp hl.2
    have hb := hl.1 (a, b) (by simp)
    cases m with
    | nil => exact absurd (by simpa [assocGet] using h a) hb
    | cons e' t' =>
      obtain ⟨a', b'⟩ := e'
      have hmp := List.pairwise_cons.mp hm.2
      have hb' := hm.1 (a', b') (by simp)
      have haa : a = a' := by
        rcases Nat.lt_trichotomy a a' with hlt | heq | hgt
        · have h1 := h a
          rw [out ((a', b') :: t') a (fun e he => by
            rcases List.mem_cons.mp he with rfl | he
            · exact hlt
            · exact Nat.lt_trans hlt (hmp.1 e he))] at h1
          exact absurd (by simpa [assocGet] using h1) hb
        · exact heq
        · have h1 := h a'
          rw [out ((a, b) :: t) a' (fun e he => by
            rcases List.mem_cons.mp he with rfl | he
            · exact hgt
            · exact Nat.lt_trans hgt (hlp.1 e he))] at h1
          exact absurd (by simpa [assocGet] using h1.symm) hb'
      subst haa
      have hbb : b = b' := by simpa [assocGet] using h a
      subst hbb
      have htl : t = t' := by
        refine ih t' ⟨fun e he => hl.1 e (List.mem_cons_of_mem _ he), hlp.2⟩
          ⟨fun e he => hm.1 e (List.mem_cons_of_mem _ he), hmp.2⟩ (fun k => ?_)
        by_cases hk : a = k
        · subst hk; rw [out t a hlp.1, out t' a hmp.1]
        · simpa [assocGet, hk] using h k
      rw [htl]

/-! ## Byte memories -/

theorem assocWf_cellsWrite (l : List (Nat × Byte)) (a : Nat) (b : List Byte) (h : assocWf 0 l = true) :
    assocWf 0 (cellsWrite l a b) = true := by
  induction b generalizing l a with
  | nil => exact h
  | cons x t ih => exact ih _ _ (assocWf_set 0 l a x h)

theorem assocWf_cellsZero (l : List (Nat × Byte)) (a n : Nat) (h : assocWf 0 l = true) :
    assocWf 0 (cellsZero l a n) = true := assocWf_filter 0 _ l h

@[simp] theorem cellsRead_length (l : List (Nat × Byte)) (a n : Nat) : (cellsRead l a n).length = n := by
  induction n generalizing a with
  | zero => rfl
  | succ n ih => simp [cellsRead, ih]

/-- One byte after a write of bytes: the byte written, or the byte before. -/
theorem assocGet_cellsWrite (l : List (Nat × Byte)) (a : Nat) (b : List Byte) (j : Nat) :
    assocGet 0 (cellsWrite l a b) j = if a ≤ j ∧ j < a + b.length then b.getD (j - a) 0 else assocGet 0 l j := by
  induction b generalizing l a with
  | nil => simp only [cellsWrite, List.length_nil]; rw [if_neg (by omega)]
  | cons x t ih =>
    simp only [cellsWrite, ih, assocGet_set, List.length_cons]
    by_cases h1 : a + 1 ≤ j ∧ j < a + 1 + t.length
    · rw [if_pos h1, if_pos (by omega)]
      have : j - a = (j - (a + 1)) + 1 := by omega
      rw [this, List.getD_cons_succ]
    · rw [if_neg h1]
      by_cases h2 : a = j
      · subst h2; rw [if_pos rfl, if_pos (by omega)]; simp
      · rw [if_neg h2, if_neg (by omega)]

/-- Outside the bytes written every byte reads as before. -/
theorem cellsWrite_frame (l : List (Nat × Byte)) (a : Nat) (b : List Byte) (j : Nat) (h : j < a ∨ a + b.length ≤ j) :
    assocGet 0 (cellsWrite l a b) j = assocGet 0 l j := by
  rw [assocGet_cellsWrite, if_neg (by omega)]

theorem cellsRead_congr (l m : List (Nat × Byte)) (a n : Nat)
    (h : ∀ j, a ≤ j → j < a + n → assocGet 0 l j = assocGet 0 m j) : cellsRead l a n = cellsRead m a n := by
  induction n generalizing a with
  | zero => rfl
  | succ n ih =>
    simp only [cellsRead]
    rw [h a (Nat.le_refl a) (by omega), ih (a + 1) fun j h1 h2 => h j (by omega) (by omega)]

/-- A read after a write to the same place gives the bytes written. -/
theorem cellsRead_write (l : List (Nat × Byte)) (a : Nat) (b : List Byte) :
    cellsRead (cellsWrite l a b) a b.length = b := by
  induction b generalizing l a with
  | nil => rfl
  | cons x t ih =>
    simp only [List.length_cons, cellsRead]
    congr 1
    · simp only [cellsWrite]
      rw [cellsWrite_frame _ _ _ _ (by omega)]
      exact assocGet_set_same _ _ _ _
    · exact ih _ _

/-- A write leaves every other place alone. -/
theorem cellsRead_write_disjoint (l : List (Nat × Byte)) (a c n : Nat) (b : List Byte)
    (h : c + n ≤ a ∨ a + b.length ≤ c) : cellsRead (cellsWrite l a b) c n = cellsRead l c n :=
  cellsRead_congr _ _ _ _ fun j h1 h2 => cellsWrite_frame l a b j (by omega)

theorem assocGet_cellsZero (l : List (Nat × Byte)) (a n j : Nat) :
    assocGet 0 (cellsZero l a n) j = if a ≤ j ∧ j < a + n then 0 else assocGet 0 l j := by
  unfold cellsZero
  rw [assocGet_filter 0 (fun i => decide (i < a) || decide (a + n ≤ i)) l j]
  by_cases h : a ≤ j ∧ j < a + n
  · rw [if_pos h, if_neg (by simp; omega)]
  · rw [if_neg h, if_pos (by simp; omega)]

/-! ## Bit fields -/

theorem bits_lt (n hi lo : Nat) : bits n hi lo < 2 ^ (hi + 1 - lo) := Nat.mod_lt _ (Nat.two_pow_pos _)

/-- A number with a field replaced, as the digits above, in and below the field. -/
theorem withBits_eq (n hi lo v : Nat) :
    withBits n hi lo v =
      n / 2 ^ lo / 2 ^ (hi + 1 - lo) * (2 ^ (hi + 1 - lo) * 2 ^ lo) + v % 2 ^ (hi + 1 - lo) * 2 ^ lo + n % 2 ^ lo := by
  unfold withBits bits
  generalize 2 ^ (hi + 1 - lo) = W
  generalize 2 ^ lo = P
  have h1 : P * (n / P) + n % P = n := Nat.div_add_mod n P
  have h2 : W * (n / P / W) + n / P % W = n / P := Nat.div_add_mod (n / P) W
  have h3 : n / P * P = n / P / W * (W * P) + n / P % W * P := by
    conv_lhs => rw [← h2]
    ring
  rw [Nat.mul_comm] at h1
  omega

/-- A field read back holds the low bits of what was written to it. -/
theorem bits_withBits (n hi lo v : Nat) : bits (withBits n hi lo v) hi lo = v % 2 ^ (hi + 1 - lo) := by
  rw [withBits_eq]
  unfold bits
  have hP : 0 < 2 ^ lo := Nat.two_pow_pos _
  have hW : 0 < 2 ^ (hi + 1 - lo) := Nat.two_pow_pos _
  generalize 2 ^ (hi + 1 - lo) = W at *
  generalize 2 ^ lo = P at *
  have : n / P / W * (W * P) + v % W * P + n % P = n % P + (n / P / W * W + v % W) * P := by ring
  rw [this, Nat.add_mul_div_right _ _ hP, Nat.div_eq_of_lt (Nat.mod_lt _ hP), Nat.zero_add, Nat.mul_comm,
    Nat.mul_add_mod, Nat.mod_mod]

/-- A field keeps its value when another field is written. -/
theorem bits_withBits_other (n hi lo v hi' lo' : Nat) (h : hi' < lo ∨ hi < lo') (hlo : lo ≤ hi) :
    bits (withBits n hi lo v) hi' lo' = bits n hi' lo' := by
  have e : 2 ^ (hi + 1 - lo) * 2 ^ lo = 2 ^ (hi + 1) := by rw [← pow_add]; congr 1; omega
  have hq : n / 2 ^ lo / 2 ^ (hi + 1 - lo) = n / 2 ^ (hi + 1) := by rw [Nat.div_div_eq_div_mul, Nat.mul_comm, e]
  rw [withBits_eq, e, hq]
  unfold bits
  rcases h with h | h
  · by_cases hl : lo' ≤ hi'
    · have hd : 2 ^ (hi' + 1 - lo') * 2 ^ lo' = 2 ^ (hi' + 1) := by rw [← pow_add]; congr 1; omega
      have low : ∀ m, m / 2 ^ lo' % 2 ^ (hi' + 1 - lo') = m % 2 ^ (hi' + 1) / 2 ^ lo' := fun m => by
        rw [← hd, Nat.mul_comm, Nat.mod_mul_right_div_self]
      rw [low, low]
      congr 1
      have hb : 2 ^ lo = 2 ^ (hi' + 1) * 2 ^ (lo - (hi' + 1)) := by rw [← pow_add]; congr 1; omega
      have hc : 2 ^ (hi + 1) = 2 ^ (hi' + 1) * 2 ^ (hi + 1 - (hi' + 1)) := by rw [← pow_add]; congr 1; omega
      have r : n % 2 ^ lo % 2 ^ (hi' + 1) = n % 2 ^ (hi' + 1) := by rw [hb, Nat.mod_mul_right_mod]
      rw [← r]
      generalize n % 2 ^ lo = y
      have : n / 2 ^ (hi + 1) * 2 ^ (hi + 1) + v % 2 ^ (hi + 1 - lo) * 2 ^ lo + y =
          2 ^ (hi' + 1) * (2 ^ (hi + 1 - (hi' + 1)) * (n / 2 ^ (hi + 1)) +
            2 ^ (lo - (hi' + 1)) * (v % 2 ^ (hi + 1 - lo))) + y := by
        rw [Nat.mul_add, ← Nat.mul_assoc, ← Nat.mul_assoc, ← hb, ← hc]; ring
      rw [this, Nat.mul_add_mod]
    · have : hi' + 1 - lo' = 0 := by omega
      rw [this]; simp [Nat.mod_one]
  · have hs : 2 ^ lo' = 2 ^ (hi + 1) * 2 ^ (lo' - (hi + 1)) := by rw [← pow_add]; congr 1; omega
    rw [hs, ← Nat.div_div_eq_div_mul, ← Nat.div_div_eq_div_mul]
    congr 2
    have hr : v % 2 ^ (hi + 1 - lo) * 2 ^ lo + n % 2 ^ lo < 2 ^ (hi + 1) := by
      rw [← e]
      have h1 : v % 2 ^ (hi + 1 - lo) < 2 ^ (hi + 1 - lo) := Nat.mod_lt _ (Nat.two_pow_pos _)
      have h2 : n % 2 ^ lo < 2 ^ lo := Nat.mod_lt _ (Nat.two_pow_pos _)
      calc v % 2 ^ (hi + 1 - lo) * 2 ^ lo + n % 2 ^ lo < v % 2 ^ (hi + 1 - lo) * 2 ^ lo + 2 ^ lo := by omega
        _ = (v % 2 ^ (hi + 1 - lo) + 1) * 2 ^ lo := by ring
        _ ≤ 2 ^ (hi + 1 - lo) * 2 ^ lo := Nat.mul_le_mul_right _ h1
    rw [Nat.add_assoc, Nat.add_comm, Nat.add_mul_div_right _ _ (Nat.two_pow_pos _), Nat.div_eq_of_lt hr, Nat.zero_add]

/-- A register keeps its width when a field of it is written. -/
theorem withBits_lt (n hi lo v w : Nat) (hn : n < 2 ^ w) (hw : hi < w) (hlo : lo ≤ hi) : withBits n hi lo v < 2 ^ w := by
  have e : 2 ^ (hi + 1 - lo) * 2 ^ lo = 2 ^ (hi + 1) := by rw [← pow_add]; congr 1; omega
  have hq : n / 2 ^ lo / 2 ^ (hi + 1 - lo) = n / 2 ^ (hi + 1) := by rw [Nat.div_div_eq_div_mul, Nat.mul_comm, e]
  rw [withBits_eq, e, hq]
  have h1 : v % 2 ^ (hi + 1 - lo) + 1 ≤ 2 ^ (hi + 1 - lo) := Nat.mod_lt _ (Nat.two_pow_pos _)
  have h2 : n % 2 ^ lo < 2 ^ lo := Nat.mod_lt _ (Nat.two_pow_pos _)
  have h3 : (v % 2 ^ (hi + 1 - lo) + 1) * 2 ^ lo ≤ 2 ^ (hi + 1) := e ▸ Nat.mul_le_mul_right _ h1
  have h4 : 2 ^ w = 2 ^ (w - (hi + 1)) * 2 ^ (hi + 1) := by rw [← pow_add]; congr 1; omega
  have h5 : n / 2 ^ (hi + 1) + 1 ≤ 2 ^ (w - (hi + 1)) := by
    apply Nat.div_lt_of_lt_mul; rw [Nat.mul_comm, ← h4]; exact hn
  have h6 : (n / 2 ^ (hi + 1) + 1) * 2 ^ (hi + 1) ≤ 2 ^ w := h4 ▸ Nat.mul_le_mul_right _ h5
  rw [Nat.add_mul] at h3 h6
  omega

end Sys2Proof.Machine
end

