-- ==== Sys2Proof/Laws/State.lean ====
section
/-! SUPPORT. What each update of the state leaves alone, and what a register or a field reads as after a write. -/

namespace Sys2Proof.Machine

/-! ## What each update leaves alone -/

@[simp] theorem State.setReg_kept (s : State) (b p o : Nat) (v : Word) :
    (s.setReg b p o v).readData = s.readData ∧ (s.setReg b p o v).free = s.free ∧ (s.setReg b p o v).now = s.now ∧
    (s.setReg b p o v).nowFrac = s.nowFrac ∧ (s.setReg b p o v).ticks = s.ticks ∧ (s.setReg b p o v).msix = s.msix ∧
    (s.setReg b p o v).parts = s.parts ∧ (s.setReg b p o v).mem = s.mem ∧ (s.setReg b p o v).squares = s.squares ∧
    (s.setReg b p o v).files = s.files ∧ (s.setReg b p o v).groups = s.groups ∧
    (s.setReg b p o v).nextGroup = s.nextGroup ∧ (s.setReg b p o v).jobs = s.jobs ∧
    (s.setReg b p o v).nextJob = s.nextJob ∧ (s.setReg b p o v).queues = s.queues ∧
    (s.setReg b p o v).images = s.images ∧ (s.setReg b p o v).turns = s.turns ∧ (s.setReg b p o v).seqUndo = s.seqUndo ∧
    (s.setReg b p o v).streams = s.streams ∧
    (s.setReg b p o v).trackers = s.trackers ∧ (s.setReg b p o v).rings = s.rings ∧
    (s.setReg b p o v).hello = s.hello ∧ (s.setReg b p o v).ctls = s.ctls ∧ (s.setReg b p o v).tempo = s.tempo ∧
    (s.setReg b p o v).ring = s.ring ∧ (s.setReg b p o v).time = s.time ∧ (s.setReg b p o v).eth = s.eth ∧
    (s.setReg b p o v).arb = s.arb ∧ (s.setReg b p o v).rst = s.rst ∧ (s.setReg b p o v).pow = s.pow ∧
    (s.setReg b p o v).csl = s.csl ∧ (s.setReg b p o v).pers = s.pers ∧ (s.setReg b p o v).edge = s.edge ∧
    (s.setReg b p o v).knight = s.knight ∧ (s.setReg b p o v).solver = s.solver ∧
    (s.setReg b p o v).fusion = s.fusion ∧ (s.setReg b p o v).input = s.input ∧
    (s.setReg b p o v).suspEnd = s.suspEnd ∧ (s.setReg b p o v).pending = s.pending :=
  ⟨rfl, rfl, rfl, rfl, rfl, rfl, rfl, rfl, rfl, rfl, rfl, rfl, rfl, rfl, rfl, rfl, rfl, rfl, rfl, rfl, rfl, rfl, rfl, rfl, rfl,
  rfl, rfl, rfl, rfl, rfl, rfl, rfl, rfl, rfl, rfl, rfl, rfl, rfl, rfl⟩

@[simp] theorem State.setF_kept (s : State) (b : Nat) (f : Fld) (v : Nat) :
    (s.setF b f v).readData = s.readData ∧ (s.setF b f v).free = s.free ∧ (s.setF b f v).now = s.now ∧
    (s.setF b f v).nowFrac = s.nowFrac ∧ (s.setF b f v).ticks = s.ticks ∧ (s.setF b f v).msix = s.msix ∧
    (s.setF b f v).parts = s.parts ∧ (s.setF b f v).mem = s.mem ∧ (s.setF b f v).squares = s.squares ∧
    (s.setF b f v).files = s.files ∧ (s.setF b f v).groups = s.groups ∧ (s.setF b f v).nextGroup = s.nextGroup ∧
    (s.setF b f v).jobs = s.jobs ∧ (s.setF b f v).nextJob = s.nextJob ∧ (s.setF b f v).queues = s.queues ∧
    (s.setF b f v).images = s.images ∧ (s.setF b f v).turns = s.turns ∧ (s.setF b f v).seqUndo = s.seqUndo ∧
    (s.setF b f v).streams = s.streams ∧ (s.setF b f v).trackers = s.trackers ∧
    (s.setF b f v).rings = s.rings ∧ (s.setF b f v).hello = s.hello ∧ (s.setF b f v).ctls = s.ctls ∧
    (s.setF b f v).tempo = s.tempo ∧ (s.setF b f v).ring = s.ring ∧ (s.setF b f v).time = s.time ∧
    (s.setF b f v).eth = s.eth ∧ (s.setF b f v).arb = s.arb ∧ (s.setF b f v).rst = s.rst ∧
    (s.setF b f v).pow = s.pow ∧ (s.setF b f v).csl = s.csl ∧ (s.setF b f v).pers = s.pers ∧
    (s.setF b f v).edge = s.edge ∧ (s.setF b f v).knight = s.knight ∧ (s.setF b f v).solver = s.solver ∧
    (s.setF b f v).fusion = s.fusion ∧ (s.setF b f v).input = s.input ∧ (s.setF b f v).suspEnd = s.suspEnd ∧
    (s.setF b f v).pending = s.pending :=
  State.setReg_kept s b f.page f.off _

@[simp] theorem State.setFlag_kept (s : State) (b : Nat) (f : Fld) (v : Bool) :
    (s.setFlag b f v).readData = s.readData ∧ (s.setFlag b f v).free = s.free ∧ (s.setFlag b f v).now = s.now ∧
    (s.setFlag b f v).nowFrac = s.nowFrac ∧ (s.setFlag b f v).ticks = s.ticks ∧ (s.setFlag b f v).msix = s.msix ∧
    (s.setFlag b f v).parts = s.parts ∧ (s.setFlag b f v).mem = s.mem ∧ (s.setFlag b f v).squares = s.squares ∧
    (s.setFlag b f v).files = s.files ∧ (s.setFlag b f v).groups = s.groups ∧
    (s.setFlag b f v).nextGroup = s.nextGroup ∧ (s.setFlag b f v).jobs = s.jobs ∧
    (s.setFlag b f v).nextJob = s.nextJob ∧ (s.setFlag b f v).queues = s.queues ∧
    (s.setFlag b f v).images = s.images ∧ (s.setFlag b f v).turns = s.turns ∧ (s.setFlag b f v).seqUndo = s.seqUndo ∧
    (s.setFlag b f v).streams = s.streams ∧
    (s.setFlag b f v).trackers = s.trackers ∧ (s.setFlag b f v).rings = s.rings ∧ (s.setFlag b f v).hello = s.hello ∧
    (s.setFlag b f v).ctls = s.ctls ∧ (s.setFlag b f v).tempo = s.tempo ∧ (s.setFlag b f v).ring = s.ring ∧
    (s.setFlag b f v).time = s.time ∧ (s.setFlag b f v).eth = s.eth ∧ (s.setFlag b f v).arb = s.arb ∧
    (s.setFlag b f v).rst = s.rst ∧ (s.setFlag b f v).pow = s.pow ∧ (s.setFlag b f v).csl = s.csl ∧
    (s.setFlag b f v).pers = s.pers ∧ (s.setFlag b f v).edge = s.edge ∧ (s.setFlag b f v).knight = s.knight ∧
    (s.setFlag b f v).solver = s.solver ∧ (s.setFlag b f v).fusion = s.fusion ∧ (s.setFlag b f v).input = s.input ∧
    (s.setFlag b f v).suspEnd = s.suspEnd ∧ (s.setFlag b f v).pending = s.pending :=
  State.setF_kept s b f _

@[simp] theorem State.bump_kept (s : State) (b : Nat) (f : Fld) (d : Nat) :
    (s.bump b f d).readData = s.readData ∧ (s.bump b f d).free = s.free ∧ (s.bump b f d).now = s.now ∧
    (s.bump b f d).nowFrac = s.nowFrac ∧ (s.bump b f d).ticks = s.ticks ∧ (s.bump b f d).msix = s.msix ∧
    (s.bump b f d).parts = s.parts ∧ (s.bump b f d).mem = s.mem ∧ (s.bump b f d).squares = s.squares ∧
    (s.bump b f d).files = s.files ∧ (s.bump b f d).groups = s.groups ∧ (s.bump b f d).nextGroup = s.nextGroup ∧
    (s.bump b f d).jobs = s.jobs ∧ (s.bump b f d).nextJob = s.nextJob ∧ (s.bump b f d).queues = s.queues ∧
    (s.bump b f d).images = s.images ∧ (s.bump b f d).turns = s.turns ∧ (s.bump b f d).seqUndo = s.seqUndo ∧
    (s.bump b f d).streams = s.streams ∧ (s.bump b f d).trackers = s.trackers ∧
    (s.bump b f d).rings = s.rings ∧ (s.bump b f d).hello = s.hello ∧ (s.bump b f d).ctls = s.ctls ∧
    (s.bump b f d).tempo = s.tempo ∧ (s.bump b f d).ring = s.ring ∧ (s.bump b f d).time = s.time ∧
    (s.bump b f d).eth = s.eth ∧ (s.bump b f d).arb = s.arb ∧ (s.bump b f d).rst = s.rst ∧
    (s.bump b f d).pow = s.pow ∧ (s.bump b f d).csl = s.csl ∧ (s.bump b f d).pers = s.pers ∧
    (s.bump b f d).edge = s.edge ∧ (s.bump b f d).knight = s.knight ∧ (s.bump b f d).solver = s.solver ∧
    (s.bump b f d).fusion = s.fusion ∧ (s.bump b f d).input = s.input ∧ (s.bump b f d).suspEnd = s.suspEnd ∧
    (s.bump b f d).pending = s.pending :=
  State.setF_kept s b f _

@[simp] theorem State.set64_kept (s : State) (b : Nat) (lo hi : Fld) (v : Nat) :
    (s.set64 b lo hi v).readData = s.readData ∧ (s.set64 b lo hi v).free = s.free ∧ (s.set64 b lo hi v).now = s.now ∧
    (s.set64 b lo hi v).nowFrac = s.nowFrac ∧ (s.set64 b lo hi v).ticks = s.ticks ∧
    (s.set64 b lo hi v).msix = s.msix ∧ (s.set64 b lo hi v).parts = s.parts ∧ (s.set64 b lo hi v).mem = s.mem ∧
    (s.set64 b lo hi v).squares = s.squares ∧ (s.set64 b lo hi v).files = s.files ∧
    (s.set64 b lo hi v).groups = s.groups ∧ (s.set64 b lo hi v).nextGroup = s.nextGroup ∧
    (s.set64 b lo hi v).jobs = s.jobs ∧ (s.set64 b lo hi v).nextJob = s.nextJob ∧
    (s.set64 b lo hi v).queues = s.queues ∧ (s.set64 b lo hi v).images = s.images ∧ (s.set64 b lo hi v).turns = s.turns ∧
      (s.set64 b lo hi v).seqUndo = s.seqUndo ∧
    (s.set64 b lo hi v).streams = s.streams ∧ (s.set64 b lo hi v).trackers = s.trackers ∧
    (s.set64 b lo hi v).rings = s.rings ∧ (s.set64 b lo hi v).hello = s.hello ∧ (s.set64 b lo hi v).ctls = s.ctls ∧
    (s.set64 b lo hi v).tempo = s.tempo ∧ (s.set64 b lo hi v).ring = s.ring ∧ (s.set64 b lo hi v).time = s.time ∧
    (s.set64 b lo hi v).eth = s.eth ∧ (s.set64 b lo hi v).arb = s.arb ∧ (s.set64 b lo hi v).rst = s.rst ∧
    (s.set64 b lo hi v).pow = s.pow ∧ (s.set64 b lo hi v).csl = s.csl ∧ (s.set64 b lo hi v).pers = s.pers ∧
    (s.set64 b lo hi v).edge = s.edge ∧ (s.set64 b lo hi v).knight = s.knight ∧
    (s.set64 b lo hi v).solver = s.solver ∧ (s.set64 b lo hi v).fusion = s.fusion ∧
    (s.set64 b lo hi v).input = s.input ∧ (s.set64 b lo hi v).suspEnd = s.suspEnd ∧
    (s.set64 b lo hi v).pending = s.pending := by
  simp [State.set64]

@[simp] theorem State.setPageSt_kept (s : State) (p v : Nat) :
    (s.setPageSt p v).readData = s.readData ∧ (s.setPageSt p v).free = s.free ∧ (s.setPageSt p v).now = s.now ∧
    (s.setPageSt p v).nowFrac = s.nowFrac ∧ (s.setPageSt p v).ticks = s.ticks ∧ (s.setPageSt p v).msix = s.msix ∧
    (s.setPageSt p v).parts = s.parts ∧ (s.setPageSt p v).mem = s.mem ∧ (s.setPageSt p v).squares = s.squares ∧
    (s.setPageSt p v).files = s.files ∧ (s.setPageSt p v).groups = s.groups ∧
    (s.setPageSt p v).nextGroup = s.nextGroup ∧ (s.setPageSt p v).jobs = s.jobs ∧
    (s.setPageSt p v).nextJob = s.nextJob ∧ (s.setPageSt p v).queues = s.queues ∧
    (s.setPageSt p v).images = s.images ∧ (s.setPageSt p v).turns = s.turns ∧ (s.setPageSt p v).seqUndo = s.seqUndo ∧
    (s.setPageSt p v).streams = s.streams ∧
    (s.setPageSt p v).trackers = s.trackers ∧ (s.setPageSt p v).rings = s.rings ∧ (s.setPageSt p v).hello = s.hello ∧
    (s.setPageSt p v).ctls = s.ctls ∧ (s.setPageSt p v).tempo = s.tempo ∧ (s.setPageSt p v).ring = s.ring ∧
    (s.setPageSt p v).time = s.time ∧ (s.setPageSt p v).eth = s.eth ∧ (s.setPageSt p v).arb = s.arb ∧
    (s.setPageSt p v).rst = s.rst ∧ (s.setPageSt p v).pow = s.pow ∧ (s.setPageSt p v).csl = s.csl ∧
    (s.setPageSt p v).pers = s.pers ∧ (s.setPageSt p v).edge = s.edge ∧ (s.setPageSt p v).knight = s.knight ∧
    (s.setPageSt p v).solver = s.solver ∧ (s.setPageSt p v).fusion = s.fusion ∧ (s.setPageSt p v).input = s.input ∧
    (s.setPageSt p v).suspEnd = s.suspEnd ∧ (s.setPageSt p v).pending = s.pending :=
  State.setF_kept s 0 _ v

@[simp] theorem State.setEnableReq_kept (s : State) (p : Nat) (b : Bool) :
    (s.setEnableReq p b).readData = s.readData ∧ (s.setEnableReq p b).free = s.free ∧
    (s.setEnableReq p b).now = s.now ∧ (s.setEnableReq p b).nowFrac = s.nowFrac ∧
    (s.setEnableReq p b).ticks = s.ticks ∧ (s.setEnableReq p b).msix = s.msix ∧
    (s.setEnableReq p b).parts = s.parts ∧ (s.setEnableReq p b).mem = s.mem ∧
    (s.setEnableReq p b).squares = s.squares ∧ (s.setEnableReq p b).files = s.files ∧
    (s.setEnableReq p b).groups = s.groups ∧ (s.setEnableReq p b).nextGroup = s.nextGroup ∧
    (s.setEnableReq p b).jobs = s.jobs ∧ (s.setEnableReq p b).nextJob = s.nextJob ∧
    (s.setEnableReq p b).queues = s.queues ∧ (s.setEnableReq p b).images = s.images ∧ (s.setEnableReq p b).turns = s.turns ∧
      (s.setEnableReq p b).seqUndo = s.seqUndo ∧
    (s.setEnableReq p b).streams = s.streams ∧ (s.setEnableReq p b).trackers = s.trackers ∧
    (s.setEnableReq p b).rings = s.rings ∧ (s.setEnableReq p b).hello = s.hello ∧
    (s.setEnableReq p b).ctls = s.ctls ∧ (s.setEnableReq p b).tempo = s.tempo ∧ (s.setEnableReq p b).ring = s.ring ∧
    (s.setEnableReq p b).time = s.time ∧ (s.setEnableReq p b).eth = s.eth ∧ (s.setEnableReq p b).arb = s.arb ∧
    (s.setEnableReq p b).rst = s.rst ∧ (s.setEnableReq p b).pow = s.pow ∧ (s.setEnableReq p b).csl = s.csl ∧
    (s.setEnableReq p b).pers = s.pers ∧ (s.setEnableReq p b).edge = s.edge ∧
    (s.setEnableReq p b).knight = s.knight ∧ (s.setEnableReq p b).solver = s.solver ∧
    (s.setEnableReq p b).fusion = s.fusion ∧ (s.setEnableReq p b).input = s.input ∧
    (s.setEnableReq p b).suspEnd = s.suspEnd ∧ (s.setEnableReq p b).pending = s.pending :=
  State.setFlag_kept s 0 _ b

@[simp] theorem State.setSqSt_kept (s : State) (q v : Nat) :
    (s.setSqSt q v).readData = s.readData ∧ (s.setSqSt q v).free = s.free ∧ (s.setSqSt q v).now = s.now ∧
    (s.setSqSt q v).nowFrac = s.nowFrac ∧ (s.setSqSt q v).ticks = s.ticks ∧ (s.setSqSt q v).msix = s.msix ∧
    (s.setSqSt q v).parts = s.parts ∧ (s.setSqSt q v).mem = s.mem ∧ (s.setSqSt q v).squares = s.squares ∧
    (s.setSqSt q v).files = s.files ∧ (s.setSqSt q v).groups = s.groups ∧ (s.setSqSt q v).nextGroup = s.nextGroup ∧
    (s.setSqSt q v).jobs = s.jobs ∧ (s.setSqSt q v).nextJob = s.nextJob ∧ (s.setSqSt q v).queues = s.queues ∧
    (s.setSqSt q v).images = s.images ∧ (s.setSqSt q v).turns = s.turns ∧ (s.setSqSt q v).seqUndo = s.seqUndo ∧
    (s.setSqSt q v).streams = s.streams ∧ (s.setSqSt q v).trackers = s.trackers ∧
    (s.setSqSt q v).rings = s.rings ∧ (s.setSqSt q v).hello = s.hello ∧ (s.setSqSt q v).ctls = s.ctls ∧
    (s.setSqSt q v).tempo = s.tempo ∧ (s.setSqSt q v).ring = s.ring ∧ (s.setSqSt q v).time = s.time ∧
    (s.setSqSt q v).eth = s.eth ∧ (s.setSqSt q v).arb = s.arb ∧ (s.setSqSt q v).rst = s.rst ∧
    (s.setSqSt q v).pow = s.pow ∧ (s.setSqSt q v).csl = s.csl ∧ (s.setSqSt q v).pers = s.pers ∧
    (s.setSqSt q v).edge = s.edge ∧ (s.setSqSt q v).knight = s.knight ∧ (s.setSqSt q v).solver = s.solver ∧
    (s.setSqSt q v).fusion = s.fusion ∧ (s.setSqSt q v).input = s.input ∧ (s.setSqSt q v).suspEnd = s.suspEnd ∧
    (s.setSqSt q v).pending = s.pending :=
  State.setF_kept s 0 _ v

@[simp] theorem State.finishCmd_kept (s : State) (b : Nat) (f : Fld) (st : Status) :
    (s.finishCmd b f st).readData = s.readData ∧ (s.finishCmd b f st).free = s.free ∧
    (s.finishCmd b f st).now = s.now ∧ (s.finishCmd b f st).nowFrac = s.nowFrac ∧
    (s.finishCmd b f st).ticks = s.ticks ∧ (s.finishCmd b f st).msix = s.msix ∧
    (s.finishCmd b f st).parts = s.parts ∧ (s.finishCmd b f st).mem = s.mem ∧
    (s.finishCmd b f st).squares = s.squares ∧ (s.finishCmd b f st).files = s.files ∧
    (s.finishCmd b f st).groups = s.groups ∧ (s.finishCmd b f st).nextGroup = s.nextGroup ∧
    (s.finishCmd b f st).jobs = s.jobs ∧ (s.finishCmd b f st).nextJob = s.nextJob ∧
    (s.finishCmd b f st).queues = s.queues ∧ (s.finishCmd b f st).images = s.images ∧ (s.finishCmd b f st).turns = s.turns ∧
      (s.finishCmd b f st).seqUndo = s.seqUndo ∧
    (s.finishCmd b f st).streams = s.streams ∧ (s.finishCmd b f st).trackers = s.trackers ∧
    (s.finishCmd b f st).rings = s.rings ∧ (s.finishCmd b f st).hello = s.hello ∧
    (s.finishCmd b f st).ctls = s.ctls ∧ (s.finishCmd b f st).tempo = s.tempo ∧ (s.finishCmd b f st).ring = s.ring ∧
    (s.finishCmd b f st).time = s.time ∧ (s.finishCmd b f st).eth = s.eth ∧ (s.finishCmd b f st).arb = s.arb ∧
    (s.finishCmd b f st).rst = s.rst ∧ (s.finishCmd b f st).pow = s.pow ∧ (s.finishCmd b f st).csl = s.csl ∧
    (s.finishCmd b f st).pers = s.pers ∧ (s.finishCmd b f st).edge = s.edge ∧
    (s.finishCmd b f st).knight = s.knight ∧ (s.finishCmd b f st).solver = s.solver ∧
    (s.finishCmd b f st).fusion = s.fusion ∧ (s.finishCmd b f st).input = s.input ∧
    (s.finishCmd b f st).suspEnd = s.suspEnd ∧ (s.finishCmd b f st).pending = s.pending := by
  simp [State.finishCmd]

@[simp] theorem State.startCmd_kept (s : State) (b : Nat) (f : Fld) :
    (s.startCmd b f).readData = s.readData ∧ (s.startCmd b f).free = s.free ∧ (s.startCmd b f).now = s.now ∧
    (s.startCmd b f).nowFrac = s.nowFrac ∧ (s.startCmd b f).ticks = s.ticks ∧ (s.startCmd b f).msix = s.msix ∧
    (s.startCmd b f).parts = s.parts ∧ (s.startCmd b f).mem = s.mem ∧ (s.startCmd b f).squares = s.squares ∧
    (s.startCmd b f).files = s.files ∧ (s.startCmd b f).groups = s.groups ∧
    (s.startCmd b f).nextGroup = s.nextGroup ∧ (s.startCmd b f).jobs = s.jobs ∧
    (s.startCmd b f).nextJob = s.nextJob ∧ (s.startCmd b f).queues = s.queues ∧ (s.startCmd b f).images = s.images ∧
      (s.startCmd b f).turns = s.turns ∧ (s.startCmd b f).seqUndo = s.seqUndo ∧
    (s.startCmd b f).streams = s.streams ∧ (s.startCmd b f).trackers = s.trackers ∧
    (s.startCmd b f).rings = s.rings ∧ (s.startCmd b f).hello = s.hello ∧ (s.startCmd b f).ctls = s.ctls ∧
    (s.startCmd b f).tempo = s.tempo ∧ (s.startCmd b f).ring = s.ring ∧ (s.startCmd b f).time = s.time ∧
    (s.startCmd b f).eth = s.eth ∧ (s.startCmd b f).arb = s.arb ∧ (s.startCmd b f).rst = s.rst ∧
    (s.startCmd b f).pow = s.pow ∧ (s.startCmd b f).csl = s.csl ∧ (s.startCmd b f).pers = s.pers ∧
    (s.startCmd b f).edge = s.edge ∧ (s.startCmd b f).knight = s.knight ∧ (s.startCmd b f).solver = s.solver ∧
    (s.startCmd b f).fusion = s.fusion ∧ (s.startCmd b f).input = s.input ∧ (s.startCmd b f).suspEnd = s.suspEnd ∧
    (s.startCmd b f).pending = s.pending :=
  State.setF_kept s b _ 0

@[simp] theorem State.recErr_kept (s : State) (p fn : Nat) (st : Status) (o : Nat) :
    (s.recErr p fn st o).readData = s.readData ∧ (s.recErr p fn st o).free = s.free ∧
    (s.recErr p fn st o).now = s.now ∧ (s.recErr p fn st o).nowFrac = s.nowFrac ∧
    (s.recErr p fn st o).ticks = s.ticks ∧ (s.recErr p fn st o).msix = s.msix ∧
    (s.recErr p fn st o).parts = s.parts ∧ (s.recErr p fn st o).mem = s.mem ∧
    (s.recErr p fn st o).squares = s.squares ∧ (s.recErr p fn st o).files = s.files ∧
    (s.recErr p fn st o).groups = s.groups ∧ (s.recErr p fn st o).nextGroup = s.nextGroup ∧
    (s.recErr p fn st o).jobs = s.jobs ∧ (s.recErr p fn st o).nextJob = s.nextJob ∧
    (s.recErr p fn st o).queues = s.queues ∧ (s.recErr p fn st o).images = s.images ∧ (s.recErr p fn st o).turns = s.turns ∧
      (s.recErr p fn st o).seqUndo = s.seqUndo ∧
    (s.recErr p fn st o).streams = s.streams ∧ (s.recErr p fn st o).trackers = s.trackers ∧
    (s.recErr p fn st o).rings = s.rings ∧ (s.recErr p fn st o).hello = s.hello ∧
    (s.recErr p fn st o).ctls = s.ctls ∧ (s.recErr p fn st o).tempo = s.tempo ∧ (s.recErr p fn st o).ring = s.ring ∧
    (s.recErr p fn st o).time = s.time ∧ (s.recErr p fn st o).eth = s.eth ∧ (s.recErr p fn st o).arb = s.arb ∧
    (s.recErr p fn st o).rst = s.rst ∧ (s.recErr p fn st o).pow = s.pow ∧ (s.recErr p fn st o).csl = s.csl ∧
    (s.recErr p fn st o).pers = s.pers ∧ (s.recErr p fn st o).edge = s.edge ∧
    (s.recErr p fn st o).knight = s.knight ∧ (s.recErr p fn st o).solver = s.solver ∧
    (s.recErr p fn st o).fusion = s.fusion ∧ (s.recErr p fn st o).input = s.input ∧
    (s.recErr p fn st o).suspEnd = s.suspEnd ∧ (s.recErr p fn st o).pending = s.pending := by
  simp [State.recErr]

@[simp] theorem State.mmuFault_kept (s : State) (fn : Nat) (r : Req) (va c : Nat) :
    (s.mmuFault fn r va c).readData = s.readData ∧ (s.mmuFault fn r va c).free = s.free ∧
    (s.mmuFault fn r va c).now = s.now ∧ (s.mmuFault fn r va c).nowFrac = s.nowFrac ∧
    (s.mmuFault fn r va c).ticks = s.ticks ∧ (s.mmuFault fn r va c).msix = s.msix ∧
    (s.mmuFault fn r va c).parts = s.parts ∧ (s.mmuFault fn r va c).mem = s.mem ∧
    (s.mmuFault fn r va c).squares = s.squares ∧ (s.mmuFault fn r va c).files = s.files ∧
    (s.mmuFault fn r va c).groups = s.groups ∧ (s.mmuFault fn r va c).nextGroup = s.nextGroup ∧
    (s.mmuFault fn r va c).jobs = s.jobs ∧ (s.mmuFault fn r va c).nextJob = s.nextJob ∧
    (s.mmuFault fn r va c).queues = s.queues ∧ (s.mmuFault fn r va c).images = s.images ∧ (s.mmuFault fn r va c).turns = s.turns ∧
      (s.mmuFault fn r va c).seqUndo = s.seqUndo ∧
    (s.mmuFault fn r va c).streams = s.streams ∧ (s.mmuFault fn r va c).trackers = s.trackers ∧
    (s.mmuFault fn r va c).rings = s.rings ∧ (s.mmuFault fn r va c).hello = s.hello ∧
    (s.mmuFault fn r va c).ctls = s.ctls ∧ (s.mmuFault fn r va c).tempo = s.tempo ∧
    (s.mmuFault fn r va c).ring = s.ring ∧ (s.mmuFault fn r va c).time = s.time ∧
    (s.mmuFault fn r va c).eth = s.eth ∧ (s.mmuFault fn r va c).arb = s.arb ∧ (s.mmuFault fn r va c).rst = s.rst ∧
    (s.mmuFault fn r va c).pow = s.pow ∧ (s.mmuFault fn r va c).csl = s.csl ∧ (s.mmuFault fn r va c).pers = s.pers ∧
    (s.mmuFault fn r va c).edge = s.edge ∧ (s.mmuFault fn r va c).knight = s.knight ∧
    (s.mmuFault fn r va c).solver = s.solver ∧ (s.mmuFault fn r va c).fusion = s.fusion ∧
    (s.mmuFault fn r va c).input = s.input ∧ (s.mmuFault fn r va c).suspEnd = s.suspEnd ∧
    (s.mmuFault fn r va c).pending = s.pending := by
  simp [State.mmuFault]

@[simp] theorem State.drawFree_kept (s : State)  :
    (s.drawFree).regs = s.regs ∧ (s.drawFree).readData = s.readData ∧ (s.drawFree).now = s.now ∧
    (s.drawFree).nowFrac = s.nowFrac ∧ (s.drawFree).ticks = s.ticks ∧ (s.drawFree).msix = s.msix ∧
    (s.drawFree).parts = s.parts ∧ (s.drawFree).mem = s.mem ∧ (s.drawFree).squares = s.squares ∧
    (s.drawFree).files = s.files ∧ (s.drawFree).groups = s.groups ∧ (s.drawFree).nextGroup = s.nextGroup ∧
    (s.drawFree).jobs = s.jobs ∧ (s.drawFree).nextJob = s.nextJob ∧ (s.drawFree).queues = s.queues ∧
    (s.drawFree).images = s.images ∧ (s.drawFree).turns = s.turns ∧ (s.drawFree).seqUndo = s.seqUndo ∧
    (s.drawFree).streams = s.streams ∧ (s.drawFree).trackers = s.trackers ∧
    (s.drawFree).rings = s.rings ∧ (s.drawFree).hello = s.hello ∧ (s.drawFree).ctls = s.ctls ∧
    (s.drawFree).tempo = s.tempo ∧ (s.drawFree).ring = s.ring ∧ (s.drawFree).time = s.time ∧
    (s.drawFree).eth = s.eth ∧ (s.drawFree).arb = s.arb ∧ (s.drawFree).rst = s.rst ∧ (s.drawFree).pow = s.pow ∧
    (s.drawFree).csl = s.csl ∧ (s.drawFree).pers = s.pers ∧ (s.drawFree).edge = s.edge ∧
    (s.drawFree).knight = s.knight ∧ (s.drawFree).solver = s.solver ∧ (s.drawFree).fusion = s.fusion ∧
    (s.drawFree).input = s.input ∧ (s.drawFree).suspEnd = s.suspEnd ∧ (s.drawFree).pending = s.pending :=
  ⟨rfl, rfl, rfl, rfl, rfl, rfl, rfl, rfl, rfl, rfl, rfl, rfl, rfl, rfl, rfl, rfl, rfl, rfl, rfl, rfl, rfl, rfl, rfl, rfl, rfl,
  rfl, rfl, rfl, rfl, rfl, rfl, rfl, rfl, rfl, rfl, rfl, rfl, rfl, rfl⟩

@[simp] theorem State.signal_kept (s : State) (fn v : Nat) :
    (s.signal fn v).regs = s.regs ∧ (s.signal fn v).readData = s.readData ∧ (s.signal fn v).free = s.free ∧
    (s.signal fn v).now = s.now ∧ (s.signal fn v).nowFrac = s.nowFrac ∧ (s.signal fn v).ticks = s.ticks ∧
    (s.signal fn v).parts = s.parts ∧ (s.signal fn v).mem = s.mem ∧ (s.signal fn v).squares = s.squares ∧
    (s.signal fn v).files = s.files ∧ (s.signal fn v).groups = s.groups ∧ (s.signal fn v).nextGroup = s.nextGroup ∧
    (s.signal fn v).jobs = s.jobs ∧ (s.signal fn v).nextJob = s.nextJob ∧ (s.signal fn v).queues = s.queues ∧
    (s.signal fn v).images = s.images ∧ (s.signal fn v).turns = s.turns ∧ (s.signal fn v).seqUndo = s.seqUndo ∧
    (s.signal fn v).streams = s.streams ∧ (s.signal fn v).trackers = s.trackers ∧
    (s.signal fn v).rings = s.rings ∧ (s.signal fn v).hello = s.hello ∧ (s.signal fn v).ctls = s.ctls ∧
    (s.signal fn v).tempo = s.tempo ∧ (s.signal fn v).ring = s.ring ∧ (s.signal fn v).time = s.time ∧
    (s.signal fn v).eth = s.eth ∧ (s.signal fn v).arb = s.arb ∧ (s.signal fn v).rst = s.rst ∧
    (s.signal fn v).pow = s.pow ∧ (s.signal fn v).csl = s.csl ∧ (s.signal fn v).pers = s.pers ∧
    (s.signal fn v).edge = s.edge ∧ (s.signal fn v).knight = s.knight ∧ (s.signal fn v).solver = s.solver ∧
    (s.signal fn v).fusion = s.fusion ∧ (s.signal fn v).input = s.input ∧ (s.signal fn v).suspEnd = s.suspEnd ∧
    (s.signal fn v).pending = s.pending :=
  ⟨rfl, rfl, rfl, rfl, rfl, rfl, rfl, rfl, rfl, rfl, rfl, rfl, rfl, rfl, rfl, rfl, rfl, rfl, rfl, rfl, rfl, rfl, rfl, rfl, rfl,
  rfl, rfl, rfl, rfl, rfl, rfl, rfl, rfl, rfl, rfl, rfl, rfl, rfl, rfl⟩

@[simp] theorem State.devWrite_kept (s : State) (a : Nat) (d : List Byte) :
    (s.devWrite a d).regs = s.regs ∧ (s.devWrite a d).readData = s.readData ∧ (s.devWrite a d).free = s.free ∧
    (s.devWrite a d).now = s.now ∧ (s.devWrite a d).nowFrac = s.nowFrac ∧ (s.devWrite a d).ticks = s.ticks ∧
    (s.devWrite a d).msix = s.msix ∧ (s.devWrite a d).parts = s.parts ∧ (s.devWrite a d).squares = s.squares ∧
    (s.devWrite a d).files = s.files ∧ (s.devWrite a d).groups = s.groups ∧
    (s.devWrite a d).nextGroup = s.nextGroup ∧ (s.devWrite a d).jobs = s.jobs ∧
    (s.devWrite a d).nextJob = s.nextJob ∧ (s.devWrite a d).queues = s.queues ∧ (s.devWrite a d).images = s.images ∧
      (s.devWrite a d).turns = s.turns ∧ (s.devWrite a d).seqUndo = s.seqUndo ∧
    (s.devWrite a d).streams = s.streams ∧ (s.devWrite a d).trackers = s.trackers ∧
    (s.devWrite a d).rings = s.rings ∧ (s.devWrite a d).hello = s.hello ∧ (s.devWrite a d).ctls = s.ctls ∧
    (s.devWrite a d).tempo = s.tempo ∧ (s.devWrite a d).ring = s.ring ∧ (s.devWrite a d).time = s.time ∧
    (s.devWrite a d).eth = s.eth ∧ (s.devWrite a d).arb = s.arb ∧ (s.devWrite a d).rst = s.rst ∧
    (s.devWrite a d).pow = s.pow ∧ (s.devWrite a d).csl = s.csl ∧ (s.devWrite a d).pers = s.pers ∧
    (s.devWrite a d).edge = s.edge ∧ (s.devWrite a d).knight = s.knight ∧ (s.devWrite a d).solver = s.solver ∧
    (s.devWrite a d).fusion = s.fusion ∧ (s.devWrite a d).input = s.input ∧ (s.devWrite a d).suspEnd = s.suspEnd ∧
    (s.devWrite a d).pending = s.pending :=
  ⟨rfl, rfl, rfl, rfl, rfl, rfl, rfl, rfl, rfl, rfl, rfl, rfl, rfl, rfl, rfl, rfl, rfl, rfl, rfl, rfl, rfl, rfl, rfl, rfl, rfl,
  rfl, rfl, rfl, rfl, rfl, rfl, rfl, rfl, rfl, rfl, rfl, rfl, rfl, rfl⟩

@[simp] theorem State.storeWrite_kept (s : State) (q o : Nat) (d : List Byte) :
    (s.storeWrite q o d).regs = s.regs ∧ (s.storeWrite q o d).readData = s.readData ∧
    (s.storeWrite q o d).free = s.free ∧ (s.storeWrite q o d).now = s.now ∧
    (s.storeWrite q o d).nowFrac = s.nowFrac ∧ (s.storeWrite q o d).ticks = s.ticks ∧
    (s.storeWrite q o d).msix = s.msix ∧ (s.storeWrite q o d).parts = s.parts ∧
    (s.storeWrite q o d).squares = s.squares ∧ (s.storeWrite q o d).files = s.files ∧
    (s.storeWrite q o d).groups = s.groups ∧ (s.storeWrite q o d).nextGroup = s.nextGroup ∧
    (s.storeWrite q o d).jobs = s.jobs ∧ (s.storeWrite q o d).nextJob = s.nextJob ∧
    (s.storeWrite q o d).queues = s.queues ∧ (s.storeWrite q o d).images = s.images ∧ (s.storeWrite q o d).turns = s.turns ∧
      (s.storeWrite q o d).seqUndo = s.seqUndo ∧
    (s.storeWrite q o d).streams = s.streams ∧ (s.storeWrite q o d).trackers = s.trackers ∧
    (s.storeWrite q o d).rings = s.rings ∧ (s.storeWrite q o d).hello = s.hello ∧
    (s.storeWrite q o d).ctls = s.ctls ∧ (s.storeWrite q o d).tempo = s.tempo ∧ (s.storeWrite q o d).ring = s.ring ∧
    (s.storeWrite q o d).time = s.time ∧ (s.storeWrite q o d).eth = s.eth ∧ (s.storeWrite q o d).arb = s.arb ∧
    (s.storeWrite q o d).rst = s.rst ∧ (s.storeWrite q o d).pow = s.pow ∧ (s.storeWrite q o d).csl = s.csl ∧
    (s.storeWrite q o d).pers = s.pers ∧ (s.storeWrite q o d).edge = s.edge ∧
    (s.storeWrite q o d).knight = s.knight ∧ (s.storeWrite q o d).solver = s.solver ∧
    (s.storeWrite q o d).fusion = s.fusion ∧ (s.storeWrite q o d).input = s.input ∧
    (s.storeWrite q o d).suspEnd = s.suspEnd ∧ (s.storeWrite q o d).pending = s.pending :=
  ⟨rfl, rfl, rfl, rfl, rfl, rfl, rfl, rfl, rfl, rfl, rfl, rfl, rfl, rfl, rfl, rfl, rfl, rfl, rfl, rfl, rfl, rfl, rfl, rfl, rfl,
  rfl, rfl, rfl, rfl, rfl, rfl, rfl, rfl, rfl, rfl, rfl, rfl, rfl, rfl⟩

@[simp] theorem State.storePoisonLines_kept (s : State) (q o n : Nat) :
    (s.storePoisonLines q o n).regs = s.regs ∧ (s.storePoisonLines q o n).readData = s.readData ∧
    (s.storePoisonLines q o n).free = s.free ∧ (s.storePoisonLines q o n).now = s.now ∧
    (s.storePoisonLines q o n).nowFrac = s.nowFrac ∧ (s.storePoisonLines q o n).ticks = s.ticks ∧
    (s.storePoisonLines q o n).msix = s.msix ∧ (s.storePoisonLines q o n).parts = s.parts ∧
    (s.storePoisonLines q o n).squares = s.squares ∧ (s.storePoisonLines q o n).files = s.files ∧
    (s.storePoisonLines q o n).groups = s.groups ∧ (s.storePoisonLines q o n).nextGroup = s.nextGroup ∧
    (s.storePoisonLines q o n).jobs = s.jobs ∧ (s.storePoisonLines q o n).nextJob = s.nextJob ∧
    (s.storePoisonLines q o n).queues = s.queues ∧ (s.storePoisonLines q o n).images = s.images ∧
      (s.storePoisonLines q o n).turns = s.turns ∧ (s.storePoisonLines q o n).seqUndo = s.seqUndo ∧
    (s.storePoisonLines q o n).streams = s.streams ∧ (s.storePoisonLines q o n).trackers = s.trackers ∧
    (s.storePoisonLines q o n).rings = s.rings ∧ (s.storePoisonLines q o n).hello = s.hello ∧
    (s.storePoisonLines q o n).ctls = s.ctls ∧ (s.storePoisonLines q o n).tempo = s.tempo ∧
    (s.storePoisonLines q o n).ring = s.ring ∧ (s.storePoisonLines q o n).time = s.time ∧
    (s.storePoisonLines q o n).eth = s.eth ∧ (s.storePoisonLines q o n).arb = s.arb ∧
    (s.storePoisonLines q o n).rst = s.rst ∧ (s.storePoisonLines q o n).pow = s.pow ∧
    (s.storePoisonLines q o n).csl = s.csl ∧ (s.storePoisonLines q o n).pers = s.pers ∧
    (s.storePoisonLines q o n).edge = s.edge ∧ (s.storePoisonLines q o n).knight = s.knight ∧
    (s.storePoisonLines q o n).solver = s.solver ∧ (s.storePoisonLines q o n).fusion = s.fusion ∧
    (s.storePoisonLines q o n).input = s.input ∧ (s.storePoisonLines q o n).suspEnd = s.suspEnd ∧
    (s.storePoisonLines q o n).pending = s.pending :=
  ⟨rfl, rfl, rfl, rfl, rfl, rfl, rfl, rfl, rfl, rfl, rfl, rfl, rfl, rfl, rfl, rfl, rfl, rfl, rfl, rfl, rfl, rfl, rfl, rfl, rfl,
  rfl, rfl, rfl, rfl, rfl, rfl, rfl, rfl, rfl, rfl, rfl, rfl, rfl, rfl⟩

@[simp] theorem State.storeClear_kept (s : State) (q : Nat) :
    (s.storeClear q).regs = s.regs ∧ (s.storeClear q).readData = s.readData ∧ (s.storeClear q).free = s.free ∧
    (s.storeClear q).now = s.now ∧ (s.storeClear q).nowFrac = s.nowFrac ∧ (s.storeClear q).ticks = s.ticks ∧
    (s.storeClear q).msix = s.msix ∧ (s.storeClear q).parts = s.parts ∧ (s.storeClear q).squares = s.squares ∧
    (s.storeClear q).files = s.files ∧ (s.storeClear q).groups = s.groups ∧
    (s.storeClear q).nextGroup = s.nextGroup ∧ (s.storeClear q).jobs = s.jobs ∧
    (s.storeClear q).nextJob = s.nextJob ∧ (s.storeClear q).queues = s.queues ∧ (s.storeClear q).images = s.images ∧
      (s.storeClear q).turns = s.turns ∧ (s.storeClear q).seqUndo = s.seqUndo ∧
    (s.storeClear q).streams = s.streams ∧ (s.storeClear q).trackers = s.trackers ∧
    (s.storeClear q).rings = s.rings ∧ (s.storeClear q).hello = s.hello ∧ (s.storeClear q).ctls = s.ctls ∧
    (s.storeClear q).tempo = s.tempo ∧ (s.storeClear q).ring = s.ring ∧ (s.storeClear q).time = s.time ∧
    (s.storeClear q).eth = s.eth ∧ (s.storeClear q).arb = s.arb ∧ (s.storeClear q).rst = s.rst ∧
    (s.storeClear q).pow = s.pow ∧ (s.storeClear q).csl = s.csl ∧ (s.storeClear q).pers = s.pers ∧
    (s.storeClear q).edge = s.edge ∧ (s.storeClear q).knight = s.knight ∧ (s.storeClear q).solver = s.solver ∧
    (s.storeClear q).fusion = s.fusion ∧ (s.storeClear q).input = s.input ∧ (s.storeClear q).suspEnd = s.suspEnd ∧
    (s.storeClear q).pending = s.pending :=
  ⟨rfl, rfl, rfl, rfl, rfl, rfl, rfl, rfl, rfl, rfl, rfl, rfl, rfl, rfl, rfl, rfl, rfl, rfl, rfl, rfl, rfl, rfl, rfl, rfl, rfl,
  rfl, rfl, rfl, rfl, rfl, rfl, rfl, rfl, rfl, rfl, rfl, rfl, rfl, rfl⟩

@[simp] theorem State.setSquare_kept (s : State) (q : Nat) (x : Square) :
    (s.setSquare q x).regs = s.regs ∧ (s.setSquare q x).readData = s.readData ∧ (s.setSquare q x).free = s.free ∧
    (s.setSquare q x).now = s.now ∧ (s.setSquare q x).nowFrac = s.nowFrac ∧ (s.setSquare q x).ticks = s.ticks ∧
    (s.setSquare q x).msix = s.msix ∧ (s.setSquare q x).parts = s.parts ∧ (s.setSquare q x).mem = s.mem ∧
    (s.setSquare q x).files = s.files ∧ (s.setSquare q x).groups = s.groups ∧
    (s.setSquare q x).nextGroup = s.nextGroup ∧ (s.setSquare q x).jobs = s.jobs ∧
    (s.setSquare q x).nextJob = s.nextJob ∧ (s.setSquare q x).queues = s.queues ∧
    (s.setSquare q x).images = s.images ∧ (s.setSquare q x).turns = s.turns ∧ (s.setSquare q x).seqUndo = s.seqUndo ∧
    (s.setSquare q x).streams = s.streams ∧
    (s.setSquare q x).trackers = s.trackers ∧ (s.setSquare q x).rings = s.rings ∧ (s.setSquare q x).hello = s.hello ∧
    (s.setSquare q x).ctls = s.ctls ∧ (s.setSquare q x).tempo = s.tempo ∧ (s.setSquare q x).ring = s.ring ∧
    (s.setSquare q x).time = s.time ∧ (s.setSquare q x).eth = s.eth ∧ (s.setSquare q x).arb = s.arb ∧
    (s.setSquare q x).rst = s.rst ∧ (s.setSquare q x).pow = s.pow ∧ (s.setSquare q x).csl = s.csl ∧
    (s.setSquare q x).pers = s.pers ∧ (s.setSquare q x).edge = s.edge ∧ (s.setSquare q x).knight = s.knight ∧
    (s.setSquare q x).solver = s.solver ∧ (s.setSquare q x).fusion = s.fusion ∧ (s.setSquare q x).input = s.input ∧
    (s.setSquare q x).suspEnd = s.suspEnd ∧ (s.setSquare q x).pending = s.pending :=
  ⟨rfl, rfl, rfl, rfl, rfl, rfl, rfl, rfl, rfl, rfl, rfl, rfl, rfl, rfl, rfl, rfl, rfl, rfl, rfl, rfl, rfl, rfl, rfl, rfl, rfl,
  rfl, rfl, rfl, rfl, rfl, rfl, rfl, rfl, rfl, rfl, rfl, rfl, rfl, rfl⟩

@[simp] theorem State.setFile_kept (s : State) (f : Nat) (x : FileSt) :
    (s.setFile f x).regs = s.regs ∧ (s.setFile f x).readData = s.readData ∧ (s.setFile f x).free = s.free ∧
    (s.setFile f x).now = s.now ∧ (s.setFile f x).nowFrac = s.nowFrac ∧ (s.setFile f x).ticks = s.ticks ∧
    (s.setFile f x).msix = s.msix ∧ (s.setFile f x).parts = s.parts ∧ (s.setFile f x).mem = s.mem ∧
    (s.setFile f x).squares = s.squares ∧ (s.setFile f x).groups = s.groups ∧
    (s.setFile f x).nextGroup = s.nextGroup ∧ (s.setFile f x).jobs = s.jobs ∧ (s.setFile f x).nextJob = s.nextJob ∧
    (s.setFile f x).queues = s.queues ∧ (s.setFile f x).images = s.images ∧ (s.setFile f x).turns = s.turns ∧
      (s.setFile f x).seqUndo = s.seqUndo ∧
    (s.setFile f x).streams = s.streams ∧
    (s.setFile f x).trackers = s.trackers ∧ (s.setFile f x).rings = s.rings ∧ (s.setFile f x).hello = s.hello ∧
    (s.setFile f x).ctls = s.ctls ∧ (s.setFile f x).tempo = s.tempo ∧ (s.setFile f x).ring = s.ring ∧
    (s.setFile f x).time = s.time ∧ (s.setFile f x).eth = s.eth ∧ (s.setFile f x).arb = s.arb ∧
    (s.setFile f x).rst = s.rst ∧ (s.setFile f x).pow = s.pow ∧ (s.setFile f x).csl = s.csl ∧
    (s.setFile f x).pers = s.pers ∧ (s.setFile f x).edge = s.edge ∧ (s.setFile f x).knight = s.knight ∧
    (s.setFile f x).solver = s.solver ∧ (s.setFile f x).fusion = s.fusion ∧ (s.setFile f x).input = s.input ∧
    (s.setFile f x).suspEnd = s.suspEnd ∧ (s.setFile f x).pending = s.pending :=
  ⟨rfl, rfl, rfl, rfl, rfl, rfl, rfl, rfl, rfl, rfl, rfl, rfl, rfl, rfl, rfl, rfl, rfl, rfl, rfl, rfl, rfl, rfl, rfl, rfl, rfl,
  rfl, rfl, rfl, rfl, rfl, rfl, rfl, rfl, rfl, rfl, rfl, rfl, rfl, rfl⟩

@[simp] theorem State.setGroup_kept (s : State) (g : Nat) (x : Group) :
    (s.setGroup g x).regs = s.regs ∧ (s.setGroup g x).readData = s.readData ∧ (s.setGroup g x).free = s.free ∧
    (s.setGroup g x).now = s.now ∧ (s.setGroup g x).nowFrac = s.nowFrac ∧ (s.setGroup g x).ticks = s.ticks ∧
    (s.setGroup g x).msix = s.msix ∧ (s.setGroup g x).parts = s.parts ∧ (s.setGroup g x).mem = s.mem ∧
    (s.setGroup g x).squares = s.squares ∧ (s.setGroup g x).files = s.files ∧
    (s.setGroup g x).nextGroup = s.nextGroup ∧ (s.setGroup g x).jobs = s.jobs ∧
    (s.setGroup g x).nextJob = s.nextJob ∧ (s.setGroup g x).queues = s.queues ∧ (s.setGroup g x).images = s.images ∧
      (s.setGroup g x).turns = s.turns ∧ (s.setGroup g x).seqUndo = s.seqUndo ∧
    (s.setGroup g x).streams = s.streams ∧ (s.setGroup g x).trackers = s.trackers ∧
    (s.setGroup g x).rings = s.rings ∧ (s.setGroup g x).hello = s.hello ∧ (s.setGroup g x).ctls = s.ctls ∧
    (s.setGroup g x).tempo = s.tempo ∧ (s.setGroup g x).ring = s.ring ∧ (s.setGroup g x).time = s.time ∧
    (s.setGroup g x).eth = s.eth ∧ (s.setGroup g x).arb = s.arb ∧ (s.setGroup g x).rst = s.rst ∧
    (s.setGroup g x).pow = s.pow ∧ (s.setGroup g x).csl = s.csl ∧ (s.setGroup g x).pers = s.pers ∧
    (s.setGroup g x).edge = s.edge ∧ (s.setGroup g x).knight = s.knight ∧ (s.setGroup g x).solver = s.solver ∧
    (s.setGroup g x).fusion = s.fusion ∧ (s.setGroup g x).input = s.input ∧ (s.setGroup g x).suspEnd = s.suspEnd ∧
    (s.setGroup g x).pending = s.pending :=
  ⟨rfl, rfl, rfl, rfl, rfl, rfl, rfl, rfl, rfl, rfl, rfl, rfl, rfl, rfl, rfl, rfl, rfl, rfl, rfl, rfl, rfl, rfl, rfl, rfl, rfl,
  rfl, rfl, rfl, rfl, rfl, rfl, rfl, rfl, rfl, rfl, rfl, rfl, rfl, rfl⟩

@[simp] theorem State.setJob_kept (s : State) (j : Nat) (x : Job) :
    (s.setJob j x).regs = s.regs ∧ (s.setJob j x).readData = s.readData ∧ (s.setJob j x).free = s.free ∧
    (s.setJob j x).now = s.now ∧ (s.setJob j x).nowFrac = s.nowFrac ∧ (s.setJob j x).ticks = s.ticks ∧
    (s.setJob j x).msix = s.msix ∧ (s.setJob j x).parts = s.parts ∧ (s.setJob j x).mem = s.mem ∧
    (s.setJob j x).squares = s.squares ∧ (s.setJob j x).files = s.files ∧ (s.setJob j x).groups = s.groups ∧
    (s.setJob j x).nextGroup = s.nextGroup ∧ (s.setJob j x).nextJob = s.nextJob ∧ (s.setJob j x).queues = s.queues ∧
    (s.setJob j x).images = s.images ∧ (s.setJob j x).turns = s.turns ∧ (s.setJob j x).seqUndo = s.seqUndo ∧
    (s.setJob j x).streams = s.streams ∧ (s.setJob j x).trackers = s.trackers ∧
    (s.setJob j x).rings = s.rings ∧ (s.setJob j x).hello = s.hello ∧ (s.setJob j x).ctls = s.ctls ∧
    (s.setJob j x).tempo = s.tempo ∧ (s.setJob j x).ring = s.ring ∧ (s.setJob j x).time = s.time ∧
    (s.setJob j x).eth = s.eth ∧ (s.setJob j x).arb = s.arb ∧ (s.setJob j x).rst = s.rst ∧
    (s.setJob j x).pow = s.pow ∧ (s.setJob j x).csl = s.csl ∧ (s.setJob j x).pers = s.pers ∧
    (s.setJob j x).edge = s.edge ∧ (s.setJob j x).knight = s.knight ∧ (s.setJob j x).solver = s.solver ∧
    (s.setJob j x).fusion = s.fusion ∧ (s.setJob j x).input = s.input ∧ (s.setJob j x).suspEnd = s.suspEnd ∧
    (s.setJob j x).pending = s.pending :=
  ⟨rfl, rfl, rfl, rfl, rfl, rfl, rfl, rfl, rfl, rfl, rfl, rfl, rfl, rfl, rfl, rfl, rfl, rfl, rfl, rfl, rfl, rfl, rfl, rfl, rfl,
  rfl, rfl, rfl, rfl, rfl, rfl, rfl, rfl, rfl, rfl, rfl, rfl, rfl, rfl⟩

@[simp] theorem State.setQueue_kept (s : State) (fn q : Nat) (x : Queue) :
    (s.setQueue fn q x).regs = s.regs ∧ (s.setQueue fn q x).readData = s.readData ∧
    (s.setQueue fn q x).free = s.free ∧ (s.setQueue fn q x).now = s.now ∧ (s.setQueue fn q x).nowFrac = s.nowFrac ∧
    (s.setQueue fn q x).ticks = s.ticks ∧ (s.setQueue fn q x).msix = s.msix ∧ (s.setQueue fn q x).parts = s.parts ∧
    (s.setQueue fn q x).mem = s.mem ∧ (s.setQueue fn q x).squares = s.squares ∧ (s.setQueue fn q x).files = s.files ∧
    (s.setQueue fn q x).groups = s.groups ∧ (s.setQueue fn q x).nextGroup = s.nextGroup ∧
    (s.setQueue fn q x).jobs = s.jobs ∧ (s.setQueue fn q x).nextJob = s.nextJob ∧
    (s.setQueue fn q x).images = s.images ∧ (s.setQueue fn q x).turns = s.turns ∧ (s.setQueue fn q x).seqUndo = s.seqUndo ∧
    (s.setQueue fn q x).streams = s.streams ∧
    (s.setQueue fn q x).trackers = s.trackers ∧ (s.setQueue fn q x).rings = s.rings ∧
    (s.setQueue fn q x).hello = s.hello ∧ (s.setQueue fn q x).ctls = s.ctls ∧ (s.setQueue fn q x).tempo = s.tempo ∧
    (s.setQueue fn q x).ring = s.ring ∧ (s.setQueue fn q x).time = s.time ∧ (s.setQueue fn q x).eth = s.eth ∧
    (s.setQueue fn q x).arb = s.arb ∧ (s.setQueue fn q x).rst = s.rst ∧ (s.setQueue fn q x).pow = s.pow ∧
    (s.setQueue fn q x).csl = s.csl ∧ (s.setQueue fn q x).pers = s.pers ∧ (s.setQueue fn q x).edge = s.edge ∧
    (s.setQueue fn q x).knight = s.knight ∧ (s.setQueue fn q x).solver = s.solver ∧
    (s.setQueue fn q x).fusion = s.fusion ∧ (s.setQueue fn q x).input = s.input ∧
    (s.setQueue fn q x).suspEnd = s.suspEnd ∧ (s.setQueue fn q x).pending = s.pending :=
  ⟨rfl, rfl, rfl, rfl, rfl, rfl, rfl, rfl, rfl, rfl, rfl, rfl, rfl, rfl, rfl, rfl, rfl, rfl, rfl, rfl, rfl, rfl, rfl, rfl, rfl,
  rfl, rfl, rfl, rfl, rfl, rfl, rfl, rfl, rfl, rfl, rfl, rfl, rfl, rfl⟩

@[simp] theorem State.setStream_kept (s : State) (fn h : Nat) (x : Stream) :
    (s.setStream fn h x).regs = s.regs ∧ (s.setStream fn h x).readData = s.readData ∧
    (s.setStream fn h x).free = s.free ∧ (s.setStream fn h x).now = s.now ∧
    (s.setStream fn h x).nowFrac = s.nowFrac ∧ (s.setStream fn h x).ticks = s.ticks ∧
    (s.setStream fn h x).msix = s.msix ∧ (s.setStream fn h x).parts = s.parts ∧ (s.setStream fn h x).mem = s.mem ∧
    (s.setStream fn h x).squares = s.squares ∧ (s.setStream fn h x).files = s.files ∧
    (s.setStream fn h x).groups = s.groups ∧ (s.setStream fn h x).nextGroup = s.nextGroup ∧
    (s.setStream fn h x).jobs = s.jobs ∧ (s.setStream fn h x).nextJob = s.nextJob ∧
    (s.setStream fn h x).queues = s.queues ∧ (s.setStream fn h x).images = s.images ∧ (s.setStream fn h x).turns = s.turns ∧
      (s.setStream fn h x).seqUndo = s.seqUndo ∧
    (s.setStream fn h x).trackers = s.trackers ∧ (s.setStream fn h x).rings = s.rings ∧
    (s.setStream fn h x).hello = s.hello ∧ (s.setStream fn h x).ctls = s.ctls ∧
    (s.setStream fn h x).tempo = s.tempo ∧ (s.setStream fn h x).ring = s.ring ∧ (s.setStream fn h x).time = s.time ∧
    (s.setStream fn h x).eth = s.eth ∧ (s.setStream fn h x).arb = s.arb ∧ (s.setStream fn h x).rst = s.rst ∧
    (s.setStream fn h x).pow = s.pow ∧ (s.setStream fn h x).csl = s.csl ∧ (s.setStream fn h x).pers = s.pers ∧
    (s.setStream fn h x).edge = s.edge ∧ (s.setStream fn h x).knight = s.knight ∧
    (s.setStream fn h x).solver = s.solver ∧ (s.setStream fn h x).fusion = s.fusion ∧
    (s.setStream fn h x).input = s.input ∧ (s.setStream fn h x).suspEnd = s.suspEnd ∧
    (s.setStream fn h x).pending = s.pending :=
  ⟨rfl, rfl, rfl, rfl, rfl, rfl, rfl, rfl, rfl, rfl, rfl, rfl, rfl, rfl, rfl, rfl, rfl, rfl, rfl, rfl, rfl, rfl, rfl, rfl, rfl,
  rfl, rfl, rfl, rfl, rfl, rfl, rfl, rfl, rfl, rfl, rfl, rfl, rfl, rfl⟩

@[simp] theorem State.setLoop_kept (s : State) (l : Nat) (x : Loop) :
    (s.setLoop l x).regs = s.regs ∧ (s.setLoop l x).readData = s.readData ∧ (s.setLoop l x).free = s.free ∧
    (s.setLoop l x).now = s.now ∧ (s.setLoop l x).nowFrac = s.nowFrac ∧ (s.setLoop l x).ticks = s.ticks ∧
    (s.setLoop l x).msix = s.msix ∧ (s.setLoop l x).parts = s.parts ∧ (s.setLoop l x).mem = s.mem ∧
    (s.setLoop l x).squares = s.squares ∧ (s.setLoop l x).files = s.files ∧ (s.setLoop l x).groups = s.groups ∧
    (s.setLoop l x).nextGroup = s.nextGroup ∧ (s.setLoop l x).jobs = s.jobs ∧ (s.setLoop l x).nextJob = s.nextJob ∧
    (s.setLoop l x).queues = s.queues ∧ (s.setLoop l x).images = s.images ∧ (s.setLoop l x).turns = s.turns ∧
      (s.setLoop l x).seqUndo = s.seqUndo ∧
    (s.setLoop l x).streams = s.streams ∧
    (s.setLoop l x).trackers = s.trackers ∧ (s.setLoop l x).rings = s.rings ∧ (s.setLoop l x).hello = s.hello ∧
    (s.setLoop l x).ctls = s.ctls ∧ (s.setLoop l x).ring = s.ring ∧ (s.setLoop l x).time = s.time ∧
    (s.setLoop l x).eth = s.eth ∧ (s.setLoop l x).arb = s.arb ∧ (s.setLoop l x).rst = s.rst ∧
    (s.setLoop l x).pow = s.pow ∧ (s.setLoop l x).csl = s.csl ∧ (s.setLoop l x).pers = s.pers ∧
    (s.setLoop l x).edge = s.edge ∧ (s.setLoop l x).knight = s.knight ∧ (s.setLoop l x).solver = s.solver ∧
    (s.setLoop l x).fusion = s.fusion ∧ (s.setLoop l x).input = s.input ∧ (s.setLoop l x).suspEnd = s.suspEnd ∧
    (s.setLoop l x).pending = s.pending :=
  ⟨rfl, rfl, rfl, rfl, rfl, rfl, rfl, rfl, rfl, rfl, rfl, rfl, rfl, rfl, rfl, rfl, rfl, rfl, rfl, rfl, rfl, rfl, rfl, rfl, rfl,
  rfl, rfl, rfl, rfl, rfl, rfl, rfl, rfl, rfl, rfl, rfl, rfl, rfl, rfl⟩

@[simp] theorem State.setTrigger_kept (s : State) (n : Nat) (x : Trigger) :
    (s.setTrigger n x).regs = s.regs ∧ (s.setTrigger n x).readData = s.readData ∧ (s.setTrigger n x).free = s.free ∧
    (s.setTrigger n x).now = s.now ∧ (s.setTrigger n x).nowFrac = s.nowFrac ∧ (s.setTrigger n x).ticks = s.ticks ∧
    (s.setTrigger n x).msix = s.msix ∧ (s.setTrigger n x).parts = s.parts ∧ (s.setTrigger n x).mem = s.mem ∧
    (s.setTrigger n x).squares = s.squares ∧ (s.setTrigger n x).files = s.files ∧
    (s.setTrigger n x).groups = s.groups ∧ (s.setTrigger n x).nextGroup = s.nextGroup ∧
    (s.setTrigger n x).jobs = s.jobs ∧ (s.setTrigger n x).nextJob = s.nextJob ∧
    (s.setTrigger n x).queues = s.queues ∧ (s.setTrigger n x).images = s.images ∧ (s.setTrigger n x).turns = s.turns ∧
      (s.setTrigger n x).seqUndo = s.seqUndo ∧
    (s.setTrigger n x).streams = s.streams ∧ (s.setTrigger n x).trackers = s.trackers ∧
    (s.setTrigger n x).rings = s.rings ∧ (s.setTrigger n x).hello = s.hello ∧ (s.setTrigger n x).ctls = s.ctls ∧
    (s.setTrigger n x).tempo = s.tempo ∧ (s.setTrigger n x).ring = s.ring ∧ (s.setTrigger n x).eth = s.eth ∧
    (s.setTrigger n x).arb = s.arb ∧ (s.setTrigger n x).rst = s.rst ∧ (s.setTrigger n x).pow = s.pow ∧
    (s.setTrigger n x).csl = s.csl ∧ (s.setTrigger n x).pers = s.pers ∧ (s.setTrigger n x).edge = s.edge ∧
    (s.setTrigger n x).knight = s.knight ∧ (s.setTrigger n x).solver = s.solver ∧
    (s.setTrigger n x).fusion = s.fusion ∧ (s.setTrigger n x).input = s.input ∧
    (s.setTrigger n x).suspEnd = s.suspEnd ∧ (s.setTrigger n x).pending = s.pending :=
  ⟨rfl, rfl, rfl, rfl, rfl, rfl, rfl, rfl, rfl, rfl, rfl, rfl, rfl, rfl, rfl, rfl, rfl, rfl, rfl, rfl, rfl, rfl, rfl, rfl, rfl,
  rfl, rfl, rfl, rfl, rfl, rfl, rfl, rfl, rfl, rfl, rfl, rfl, rfl, rfl⟩

@[simp] theorem State.setTrack_kept (s : State) (n : Nat) (x : Track) :
    (s.setTrack n x).regs = s.regs ∧ (s.setTrack n x).readData = s.readData ∧ (s.setTrack n x).free = s.free ∧
    (s.setTrack n x).now = s.now ∧ (s.setTrack n x).nowFrac = s.nowFrac ∧ (s.setTrack n x).ticks = s.ticks ∧
    (s.setTrack n x).msix = s.msix ∧ (s.setTrack n x).parts = s.parts ∧ (s.setTrack n x).mem = s.mem ∧
    (s.setTrack n x).squares = s.squares ∧ (s.setTrack n x).files = s.files ∧ (s.setTrack n x).groups = s.groups ∧
    (s.setTrack n x).nextGroup = s.nextGroup ∧ (s.setTrack n x).jobs = s.jobs ∧
    (s.setTrack n x).nextJob = s.nextJob ∧ (s.setTrack n x).queues = s.queues ∧ (s.setTrack n x).images = s.images ∧
      (s.setTrack n x).turns = s.turns ∧ (s.setTrack n x).seqUndo = s.seqUndo ∧
    (s.setTrack n x).streams = s.streams ∧ (s.setTrack n x).trackers = s.trackers ∧
    (s.setTrack n x).rings = s.rings ∧ (s.setTrack n x).hello = s.hello ∧ (s.setTrack n x).ctls = s.ctls ∧
    (s.setTrack n x).tempo = s.tempo ∧ (s.setTrack n x).ring = s.ring ∧ (s.setTrack n x).time = s.time ∧
    (s.setTrack n x).eth = s.eth ∧ (s.setTrack n x).arb = s.arb ∧ (s.setTrack n x).rst = s.rst ∧
    (s.setTrack n x).pow = s.pow ∧ (s.setTrack n x).csl = s.csl ∧ (s.setTrack n x).pers = s.pers ∧
    (s.setTrack n x).edge = s.edge ∧ (s.setTrack n x).knight = s.knight ∧ (s.setTrack n x).solver = s.solver ∧
    (s.setTrack n x).input = s.input ∧ (s.setTrack n x).suspEnd = s.suspEnd ∧ (s.setTrack n x).pending = s.pending :=
  ⟨rfl, rfl, rfl, rfl, rfl, rfl, rfl, rfl, rfl, rfl, rfl, rfl, rfl, rfl, rfl, rfl, rfl, rfl, rfl, rfl, rfl, rfl, rfl, rfl, rfl,
  rfl, rfl, rfl, rfl, rfl, rfl, rfl, rfl, rfl, rfl, rfl, rfl, rfl, rfl⟩

@[simp] theorem State.setFusSrc_kept (s : State) (n : Nat) (x : FusSrc) :
    (s.setFusSrc n x).regs = s.regs ∧ (s.setFusSrc n x).readData = s.readData ∧ (s.setFusSrc n x).free = s.free ∧
    (s.setFusSrc n x).now = s.now ∧ (s.setFusSrc n x).nowFrac = s.nowFrac ∧ (s.setFusSrc n x).ticks = s.ticks ∧
    (s.setFusSrc n x).msix = s.msix ∧ (s.setFusSrc n x).parts = s.parts ∧ (s.setFusSrc n x).mem = s.mem ∧
    (s.setFusSrc n x).squares = s.squares ∧ (s.setFusSrc n x).files = s.files ∧ (s.setFusSrc n x).groups = s.groups ∧
    (s.setFusSrc n x).nextGroup = s.nextGroup ∧ (s.setFusSrc n x).jobs = s.jobs ∧
    (s.setFusSrc n x).nextJob = s.nextJob ∧ (s.setFusSrc n x).queues = s.queues ∧
    (s.setFusSrc n x).images = s.images ∧ (s.setFusSrc n x).turns = s.turns ∧ (s.setFusSrc n x).seqUndo = s.seqUndo ∧
    (s.setFusSrc n x).streams = s.streams ∧
    (s.setFusSrc n x).trackers = s.trackers ∧ (s.setFusSrc n x).rings = s.rings ∧ (s.setFusSrc n x).hello = s.hello ∧
    (s.setFusSrc n x).ctls = s.ctls ∧ (s.setFusSrc n x).tempo = s.tempo ∧ (s.setFusSrc n x).ring = s.ring ∧
    (s.setFusSrc n x).time = s.time ∧ (s.setFusSrc n x).eth = s.eth ∧ (s.setFusSrc n x).arb = s.arb ∧
    (s.setFusSrc n x).rst = s.rst ∧ (s.setFusSrc n x).pow = s.pow ∧ (s.setFusSrc n x).csl = s.csl ∧
    (s.setFusSrc n x).pers = s.pers ∧ (s.setFusSrc n x).edge = s.edge ∧ (s.setFusSrc n x).knight = s.knight ∧
    (s.setFusSrc n x).solver = s.solver ∧ (s.setFusSrc n x).input = s.input ∧ (s.setFusSrc n x).suspEnd = s.suspEnd ∧
    (s.setFusSrc n x).pending = s.pending :=
  ⟨rfl, rfl, rfl, rfl, rfl, rfl, rfl, rfl, rfl, rfl, rfl, rfl, rfl, rfl, rfl, rfl, rfl, rfl, rfl, rfl, rfl, rfl, rfl, rfl, rfl,
  rfl, rfl, rfl, rfl, rfl, rfl, rfl, rfl, rfl, rfl, rfl, rfl, rfl, rfl⟩

@[simp] theorem State.setBq_kept (s : State) (n : Nat) (x : BatchQ) :
    (s.setBq n x).regs = s.regs ∧ (s.setBq n x).readData = s.readData ∧ (s.setBq n x).free = s.free ∧
    (s.setBq n x).now = s.now ∧ (s.setBq n x).nowFrac = s.nowFrac ∧ (s.setBq n x).ticks = s.ticks ∧
    (s.setBq n x).msix = s.msix ∧ (s.setBq n x).parts = s.parts ∧ (s.setBq n x).mem = s.mem ∧
    (s.setBq n x).squares = s.squares ∧ (s.setBq n x).files = s.files ∧ (s.setBq n x).groups = s.groups ∧
    (s.setBq n x).nextGroup = s.nextGroup ∧ (s.setBq n x).jobs = s.jobs ∧ (s.setBq n x).nextJob = s.nextJob ∧
    (s.setBq n x).queues = s.queues ∧ (s.setBq n x).images = s.images ∧ (s.setBq n x).turns = s.turns ∧ (s.setBq n x).seqUndo = s.seqUndo ∧
    (s.setBq n x).streams = s.streams ∧
    (s.setBq n x).trackers = s.trackers ∧ (s.setBq n x).rings = s.rings ∧ (s.setBq n x).hello = s.hello ∧
    (s.setBq n x).ctls = s.ctls ∧ (s.setBq n x).tempo = s.tempo ∧ (s.setBq n x).ring = s.ring ∧
    (s.setBq n x).time = s.time ∧ (s.setBq n x).eth = s.eth ∧ (s.setBq n x).arb = s.arb ∧ (s.setBq n x).rst = s.rst ∧
    (s.setBq n x).pow = s.pow ∧ (s.setBq n x).csl = s.csl ∧ (s.setBq n x).pers = s.pers ∧
    (s.setBq n x).edge = s.edge ∧ (s.setBq n x).knight = s.knight ∧ (s.setBq n x).solver = s.solver ∧
    (s.setBq n x).fusion = s.fusion ∧ (s.setBq n x).suspEnd = s.suspEnd ∧ (s.setBq n x).pending = s.pending :=
  ⟨rfl, rfl, rfl, rfl, rfl, rfl, rfl, rfl, rfl, rfl, rfl, rfl, rfl, rfl, rfl, rfl, rfl, rfl, rfl, rfl, rfl, rfl, rfl, rfl, rfl,
  rfl, rfl, rfl, rfl, rfl, rfl, rfl, rfl, rfl, rfl, rfl, rfl, rfl, rfl⟩

@[simp] theorem State.setSess_kept (s : State) (n : Nat) (x : Session) :
    (s.setSess n x).regs = s.regs ∧ (s.setSess n x).readData = s.readData ∧ (s.setSess n x).free = s.free ∧
    (s.setSess n x).now = s.now ∧ (s.setSess n x).nowFrac = s.nowFrac ∧ (s.setSess n x).ticks = s.ticks ∧
    (s.setSess n x).msix = s.msix ∧ (s.setSess n x).parts = s.parts ∧ (s.setSess n x).mem = s.mem ∧
    (s.setSess n x).squares = s.squares ∧ (s.setSess n x).files = s.files ∧ (s.setSess n x).groups = s.groups ∧
    (s.setSess n x).nextGroup = s.nextGroup ∧ (s.setSess n x).jobs = s.jobs ∧ (s.setSess n x).nextJob = s.nextJob ∧
    (s.setSess n x).queues = s.queues ∧ (s.setSess n x).images = s.images ∧ (s.setSess n x).turns = s.turns ∧
      (s.setSess n x).seqUndo = s.seqUndo ∧
    (s.setSess n x).streams = s.streams ∧
    (s.setSess n x).trackers = s.trackers ∧ (s.setSess n x).rings = s.rings ∧ (s.setSess n x).hello = s.hello ∧
    (s.setSess n x).ctls = s.ctls ∧ (s.setSess n x).tempo = s.tempo ∧ (s.setSess n x).ring = s.ring ∧
    (s.setSess n x).time = s.time ∧ (s.setSess n x).eth = s.eth ∧ (s.setSess n x).arb = s.arb ∧
    (s.setSess n x).rst = s.rst ∧ (s.setSess n x).pow = s.pow ∧ (s.setSess n x).csl = s.csl ∧
    (s.setSess n x).pers = s.pers ∧ (s.setSess n x).edge = s.edge ∧ (s.setSess n x).knight = s.knight ∧
    (s.setSess n x).solver = s.solver ∧ (s.setSess n x).fusion = s.fusion ∧ (s.setSess n x).suspEnd = s.suspEnd ∧
    (s.setSess n x).pending = s.pending :=
  ⟨rfl, rfl, rfl, rfl, rfl, rfl, rfl, rfl, rfl, rfl, rfl, rfl, rfl, rfl, rfl, rfl, rfl, rfl, rfl, rfl, rfl, rfl, rfl, rfl, rfl,
  rfl, rfl, rfl, rfl, rfl, rfl, rfl, rfl, rfl, rfl, rfl, rfl, rfl, rfl⟩

/-! ## Registers after a write -/

@[simp] theorem State.getReg_setReg (s : State) (b p o : Nat) (v : Word) : (s.setReg b p o v).getReg b p o = v :=
  assocGet_set_same _ _ _ _

theorem State.getReg_setReg_other (s : State) {b p o b' p' o' : Nat} (h : regKey b p o ≠ regKey b' p' o') (v : Word) :
    (s.setReg b p o v).getReg b' p' o' = s.getReg b' p' o' := by
  unfold State.getReg State.setReg
  unfold assocSet
  split
  · rw [assocGet_erase, if_neg h]
  · rw [assocGet_insert, if_neg h]

theorem State.getF_lt (s : State) (b : Nat) (f : Fld) : s.getF b f < 2 ^ (f.hi + 1 - f.lo) := bits_lt _ _ _

/-- A field read back holds the low bits of what was written. -/
theorem State.getF_setF (s : State) (b : Nat) (f : Fld) (v : Nat) (h : f.lo ≤ f.hi) (hw : f.hi < 32) :
    (s.setF b f v).getF b f = v % 2 ^ (f.hi + 1 - f.lo) := by
  unfold State.setF State.getF
  rw [State.getReg_setReg, BitVec.toNat_ofNat,
    Nat.mod_eq_of_lt (withBits_lt _ _ _ _ 32 (s.getReg b f.page f.off).isLt hw h), bits_withBits]

/-- A field keeps its value when another register is written. -/
theorem State.getF_setF_reg (s : State) {b b' : Nat} {f g : Fld} (v : Nat)
    (h : regKey b f.page f.off ≠ regKey b' g.page g.off) : (s.setF b f v).getF b' g = s.getF b' g := by
  unfold State.setF State.getF
  rw [State.getReg_setReg_other s h]

/-- A field keeps its value when another field of its register is written. -/
theorem State.getF_setF_bits (s : State) (b : Nat) {f g : Fld} (v : Nat) (hp : f.page = g.page) (ho : f.off = g.off)
    (h : f.lo ≤ f.hi) (hw : f.hi < 32) (hd : g.hi < f.lo ∨ f.hi < g.lo) : (s.setF b f v).getF b g = s.getF b g := by
  unfold State.setF State.getF
  rw [hp, ho, State.getReg_setReg, BitVec.toNat_ofNat,
    Nat.mod_eq_of_lt (withBits_lt _ _ _ _ 32 (s.getReg b g.page g.off).isLt hw h), bits_withBits_other _ _ _ _ _ _ hd h]

theorem State.getReg_setF_other (s : State) {b b' p o : Nat} {f : Fld} (v : Nat)
    (h : regKey b f.page f.off ≠ regKey b' p o) : (s.setF b f v).getReg b' p o = s.getReg b' p o :=
  State.getReg_setReg_other s h _

theorem regsKept_setF (s : State) (b : Nat) (f : Fld) (v : Nat) : RegsKept s (s.setF b f v) [(b, f.page, f.off)] :=
  fun b' p o h => State.getReg_setF_other (b' := b') (p := p) (o := o) s v (h (b, f.page, f.off) (List.mem_singleton.mpr rfl))

theorem RegsKept.trans {s t u : State} {l m : List (Nat × Nat × Nat)} (h : RegsKept s t l) (k : RegsKept t u m) :
    RegsKept s u (l ++ m) := fun b p o hb => by
  rw [k b p o fun e he => hb e (List.mem_append_right _ he), h b p o fun e he => hb e (List.mem_append_left _ he)]

/-! ## Completion -/

theorem Answers.of_eq {i : Instr} {s t : State} {P : State → Prop} (h : exec i s = .next t) (hp : P t) : Answers i s P :=
  ⟨t, h, hp⟩

/-! ## The byte memories -/

theorem MemSt.wf_iff (m : MemSt) :
    m.wf = true ↔ assocWf 0 m.dev = true ∧ assocWf 0 m.rsv = true ∧ assocWf 0 m.host = true ∧ assocWf 0 m.store = true := by
  simp [MemSt.wf, and_assoc]

theorem State.reset_memWf : State.reset.mem.wf = true := rfl

end Sys2Proof.Machine
end

