-- ==== Sys2Proof/Laws/Cmd.lean ====
section
/-! SUPPORT. Laws of the shared operations of registers and commands: interrupts, error records, gating and completion. -/

namespace Sys2Proof.Machine

/-! ## Interrupts -/

/-- Raising bits of a page writes its IRQ_RAW and nothing else, but for the message that it may signal. -/
theorem State.raiseBits_spec (s : State) (page fn mask : Nat) : ∃ m, s.raiseBits page fn mask =
    { s.setReg (irqBank page fn) page 0x010 (s.getReg (irqBank page fn) page 0x010 ||| BitVec.ofNat 32 mask) with msix := m } := by
  unfold State.raiseBits State.signalPage State.signal
  dsimp only
  split
  · split
    · exact ⟨_, rfl⟩
    · exact ⟨_, rfl⟩
  · exact ⟨_, rfl⟩

theorem State.raiseBits_reg (s : State) (page fn mask : Nat) : (s.raiseBits page fn mask).getReg (irqBank page fn) page 0x010 =
    s.getReg (irqBank page fn) page 0x010 ||| BitVec.ofNat 32 mask := by
  obtain ⟨m, h⟩ := s.raiseBits_spec page fn mask
  rw [h]
  exact State.getReg_setReg s _ _ _ _

/-- A raised bit reads 1. -/
theorem State.raiseIrq_bit (s : State) (page fn i : Nat) (h : i < 32) :
    bit ((s.raiseIrq page fn i).getReg (irqBank page fn) page 0x010).toNat i = true := by
  unfold State.raiseIrq
  rw [State.raiseBits_reg, BitVec.toNat_or, BitVec.toNat_ofNat, Nat.mod_eq_of_lt (Nat.pow_lt_pow_right (by decide) h)]
  have e : ∀ n : Nat, bit n i = n.testBit i := fun n => by
    simp only [bit, Nat.testBit_eq_decide_div_mod_eq]; rfl
  rw [e, Nat.testBit_or, Nat.testBit_two_pow_self, Bool.or_true]

theorem State.raiseIrq_regs (s : State) (page fn i : Nat) : RegsKept s (s.raiseIrq page fn i) [(irqBank page fn, page, 0x010)] := by
  intro b p o h
  obtain ⟨m, e⟩ := s.raiseBits_spec page fn (2 ^ i)
  unfold State.raiseIrq
  rw [e]
  exact State.getReg_setReg_other s (h _ (List.mem_singleton.mpr rfl)) _

@[simp] theorem State.raiseIrq_mem (s : State) (page fn i : Nat) : (s.raiseIrq page fn i).mem = s.mem := by
  obtain ⟨m, e⟩ := s.raiseBits_spec page fn (2 ^ i)
  unfold State.raiseIrq
  rw [e]
  simp

/-! ## Error records -/

/-- A status code has 16 bits. -/
theorem Status.code_mod (st : Status) : st.code % 2 ^ 16 = st.code := by cases st <;> rfl

/-- The CODE of a recorded error. -/
theorem State.recErr_code (s : State) (page fn : Nat) (st : Status) (off : Nat) :
    (s.recErr page fn st off).getF fn (Fld.ERR_CODE_CODE.onPage page) = st.code := by
  unfold State.recErr
  dsimp only
  rw [State.getF_setF_reg _ _ (by unfold regKey; simp only [Fld.onPage, Fld.ERR_INFO, Fld.ERR_CODE_CODE]; omega),
    State.getF_setF _ _ _ _ (show 0 ≤ 15 by decide) (show 15 < 32 by decide)]
  exact st.code_mod

/-! ## Completion -/

/-- A finished command reads complete. -/
theorem State.finishCmd_completed (s : State) (bank : Nat) (sts : Fld) (st : Status) : Completed (s.finishCmd bank sts st) bank sts st := by
  unfold State.finishCmd
  refine ⟨?_, State.getF_setF _ _ _ _ (Nat.le_refl 15) (show 15 < 32 by decide)⟩
  refine (State.getF_setF_bits _ bank (f := { sts with hi := 15, lo := 15 }) (g := { sts with hi := 31, lo := 16 }) 1 rfl rfl
    (Nat.le_refl 15) (show 15 < 32 by decide) (.inr (show 15 < 16 by decide))).trans ?_
  refine (State.getF_setF _ _ _ _ (show 16 ≤ 31 by decide) (show 31 < 32 by decide)).trans ?_
  exact st.code_mod

/-- A started command reads DONE 0. -/
theorem State.startCmd_done (s : State) (bank : Nat) (sts : Fld) :
    (s.startCmd bank sts).getF bank { sts with hi := 15, lo := 15 } = 0 :=
  State.getF_setF _ _ _ _ (Nat.le_refl 15) (show 15 < 32 by decide)

/-! ## Gating and command registers -/

/-- Everything that the gate can do. -/
theorem State.gated_cases (s : State) (fn page off : Nat) (f : State) :
    (s.serves page = false ∧ s.gated fn page off f = s) ∨
    (s.serves page = true ∧ page ≠ 1 ∧ page ≠ 2 ∧ page ≠ 8 ∧ s.unsupported fn = true ∧
      s.gated fn page off f = s.recErr page fn .versionUnsupported off) ∨
    (Reaches s fn page ∧ s.gated fn page off f = f) := by
  unfold State.gated
  by_cases h1 : s.serves page = true
  · by_cases h2 : page ≠ 1 ∧ page ≠ 2 ∧ page ≠ 8 ∧ s.unsupported fn = true
    · exact .inr (.inl ⟨h1, h2.1, h2.2.1, h2.2.2.1, h2.2.2.2, by simp [h1, h2]⟩)
    · refine .inr (.inr ⟨⟨h1, ?_⟩, by simp only [h1, h2]; rfl⟩)
      by_cases a : page = 1
      · exact .inl a
      · by_cases b : page = 2
        · exact .inr (.inl b)
        · by_cases c : page = 8
          · exact .inr (.inr (.inl c))
          · exact .inr (.inr (.inr (Bool.eq_false_iff.mpr fun d => h2 ⟨a, b, c, d⟩)))
  · exact .inl ⟨by simpa using h1, by simp [h1]⟩

/-- A write that reaches its page does what the page does. -/
theorem State.gated_reaches {s : State} {fn page : Nat} (h : Reaches s fn page) (off : Nat) (f : State) : s.gated fn page off f = f := by
  rcases s.gated_cases fn page off f with c | c | c
  · rw [h.1] at c; cases c.1
  · rcases h.2 with e | e | e | e
    · exact absurd e c.2.1
    · exact absurd e c.2.2.1
    · exact absurd e c.2.2.2.1
    · rw [e] at c; cases c.2.2.2.2.1
  · exact c.2

/-- A command that is ready runs and completes with its status. -/
theorem State.pageCmd_ready {s : State} {fn page off v op bank : Nat} {may : Bool} {sts : Fld}
    (h : CmdReady s fn page off v op may bank sts) (deny : Status) (irq : Option Nat) (f : State × Status) :
    s.pageCmd fn page off v op may deny bank sts irq f =
      match irq with
      | some i => (f.1.finishCmd bank sts f.2).raiseIrq page fn i
      | none => f.1.finishCmd bank sts f.2 := by
  unfold State.pageCmd
  rw [if_neg (by simp [h.op]), State.gated_reaches h.reach]
  simp only [h.may, h.done, h.resv]
  rfl

end Sys2Proof.Machine
end

