-- ==== Sys2Proof/Laws/Insn.lean ====
section
/-! SUPPORT. What the shared operations of the Ferlith instructions do: meeting an instruction, writing a register in the executing
lanes, and going on to the next instruction. -/

namespace Sys2Proof.Machine

/-! ## Groups and lanesets -/

theorem find_assocInsert {α : Type} (k j : Nat) (v : α) (l : List (Nat × α)) :
    (assocInsert k v l).find? (fun e => e.1 == j) = if k = j then some (k, v) else l.find? fun e => e.1 == j := by
  induction l with
  | nil => by_cases h : k = j <;> simp [assocInsert, h]
  | cons e t ih =>
    obtain ⟨a, b⟩ := e
    simp only [assocInsert]
    split
    · by_cases h : k = j <;> simp [h]
    · split
      · subst a
        by_cases h : k = j <;> simp [h]
      · simp only [List.find?_cons, ih]
        by_cases h : a = j
        · subst h
          have hk : ¬ k = a := by omega
          simp [hk]
        · have hb : (a == j) = false := by simp [h]
          simp only [hb]

theorem State.group_setGroup (s : State) (g : Nat) (x : Group) : (s.setGroup g x).group g = some x := by
  simp [State.group, State.setGroup, find_assocInsert]

theorem State.laneset_setLaneset (s : State) (g l : Nat) (ls : Laneset) (x : Group) (h : s.group g = some x) :
    (s.setLaneset g l ls).laneset g l = some ls := by
  simp [State.setLaneset, h, State.laneset, State.group_setGroup, find_assocInsert]

@[simp] theorem State.group_setFile (s : State) (f g : Nat) (x : FileSt) : (s.setFile f x).group g = s.group g := rfl

theorem State.perfCount_group (s : State) (sq ev n g : Nat) : (s.perfCount sq ev n).group g = s.group g := by
  unfold State.perfCount
  dsimp only
  split <;> rfl

theorem State.noteRetire_group (s : State) (sq g : Nat) : (s.noteRetire sq).group g = s.group g := rfl

/-- What a context says of the state. -/
theorem State.ctx_spec {s : State} {g l : Nat} {c : Ctx} (h : s.ctx g l = some c) :
    c.g = g ∧ c.l = l ∧ s.group g = some c.x ∧ s.laneset g l = some c.ls := by
  unfold State.ctx at h
  split at h
  · cases h
  · rename_i x hx
    split at h
    · cases h
    · rename_i e he
      split at h
      · cases h
        exact ⟨rfl, rfl, hx, by simp [State.laneset, hx, he]⟩
      · cases h

/-- A sound range is read without an event. -/
theorem State.storeScan_sound {s : State} {sq off n : Nat} (h : Sound s sq off n) : s.storeScan sq off n = s := by
  unfold State.storeScan
  rw [h.1]
  rfl

/-- A text word that can be fetched lies in the region, and its fetch leaves the state and meets no poison. -/
theorem Fetches.clean {s : State} {c : Ctx} {pc : Nat} (h : Fetches s c pc) :
    c.outside pc = false ∧ s.fetch c pc = s ∧ s.fetchBad c pc = false := by
  have e : s.fetch c pc = s := State.storeScan_sound h.2
  exact ⟨by simpa [Ctx.outside] using h.1, e, by rw [State.fetchBad, e]; exact h.2.2⟩

/-- Meeting the instruction that the laneset stands at. -/
theorem State.meet_at {s : State} {g l op : Nat} {c : Ctx} (h : AtInsn s g l op c) (hl : listedOp op = true)
    (f : State → Ctx → State) : s.meet g l op f = f s c := by
  obtain ⟨h1, h2, h3⟩ := h.fetch.clean
  simp [State.meet, h.ctx, h1, h2, h3, h.op, hl]

theorem firstBadReg_none (n : Nat) (rs : List Reg) (h : ∀ r ∈ rs, r.badReg n = false) : firstBadReg n rs = none := by
  simp only [firstBadReg, Option.map_eq_none_iff, List.find?_eq_none]
  exact fun r hr => by simp [h r hr]

theorem Ctx.firstBad_none (c : Ctx) (rs : List Reg) (h : ∀ r ∈ rs, r.badReg c.x.nreg = false) : c.firstBad rs = none := by
  unfold Ctx.firstBad
  split
  · rfl
  · exact firstBadReg_none _ _ h

/-- Operands that are good: the instruction goes on in the same state. -/
theorem State.operands_ok {s : State} {c : Ctx} {srcs regs : List Reg} (hl : LiteralOk s c srcs)
    (hr : ∀ r ∈ regs, r.badReg c.x.nreg = false) (k : State → State) : s.operands c srcs regs k = k s := by
  unfold State.operands
  rw [c.firstBad_none _ hr]
  cases h : Ctx.literal srcs with
  | false => simp
  | true =>
    obtain ⟨h1, h2, h3⟩ := (hl h).clean
    simp [h1, h2, h3]

/-- The instruction is done: what its laneset holds, and what is left alone. -/
theorem State.retire_spec {s : State} {g l : Nat} {c : Ctx} (h : s.ctx g l = some c) (ls : Laneset) (w : Nat) :
    (s.retire c ls w).laneset g l = some (ls.goto (c.ls.pc + w)) ∧
      { s.retire c ls w with groups := s.groups, files := s.files } = s := by
  obtain ⟨hg, hl, hx, -⟩ := State.ctx_spec h
  subst hg hl
  refine ⟨State.laneset_setLaneset _ _ _ _ c.x ?_, ?_⟩
  · rw [State.noteRetire_group, State.perfCount_group, hx]
  · unfold State.retire State.setLaneset
    rw [State.noteRetire_group, State.perfCount_group, hx]
    unfold State.perfCount State.noteRetire
    dsimp only
    split <;> rfl

/-! ## Registers of a laneset -/

theorem Laneset.reg_setReg (ls : Laneset) (lane r v lane' r' : Nat) (hr : r < 256) (hr' : r' < 256) :
    (ls.setReg lane r v).reg lane' r' = if lane = lane' ∧ r = r' then v % 2 ^ 32 else ls.reg lane' r' := by
  unfold Laneset.reg Laneset.setReg
  dsimp only
  rw [assocGet_set]
  have : lane * 256 + r = lane' * 256 + r' ↔ lane = lane' ∧ r = r' := by omega
  simp only [this]
  split <;> simp

theorem Laneset.ureg_setUreg (ls : Laneset) (r v r' : Nat) (hr : r < 64) (hr' : r' < 64) :
    (ls.setUreg r v).ureg r' = if r = r' then v % 2 ^ 32 else ls.ureg r' := by
  unfold Laneset.ureg Laneset.setUreg
  dsimp only
  rw [assocGet_set, Nat.mod_eq_of_lt hr, Nat.mod_eq_of_lt hr']
  split <;> simp

@[simp] theorem Laneset.ureg_setReg (ls : Laneset) (lane r v r' : Nat) : (ls.setReg lane r v).ureg r' = ls.ureg r' := rfl
@[simp] theorem Laneset.reg_setUreg (ls : Laneset) (r v lane r' : Nat) : (ls.setUreg r v).reg lane r' = ls.reg lane r' := rfl

/-- One write of a thread register field. -/
theorem Laneset.write_reg (ls : Laneset) (lane : Nat) (d : Reg) (v : Nat) (hu : d.u = false)
    (hd : d.none? = false) (hb : d.v + d.n ≤ 256) (lane' r' : Nat) (hr' : r' < 256) :
    (ls.write lane d v).reg lane' r' =
      if lane = lane' ∧ d.v ≤ r' ∧ r' < d.v + d.n then v / 2 ^ (32 * (r' - d.v)) % 2 ^ 32 else ls.reg lane' r' := by
  unfold Laneset.write
  rw [hd]
  simp only [hu, Bool.false_eq_true, if_false]
  have : ∀ n, d.v + n ≤ 256 → ((List.range n).foldl (fun ls k => ls.setReg lane (d.v + k) (v / 2 ^ (32 * k) % 2 ^ 32)) ls).reg
      lane' r' = if lane = lane' ∧ d.v ≤ r' ∧ r' < d.v + n then v / 2 ^ (32 * (r' - d.v)) % 2 ^ 32 else ls.reg lane' r' := by
    intro n
    induction n with
    | zero => intro _; rw [if_neg (by omega)]; rfl
    | succ n ih =>
      intro hn
      rw [List.range_succ, List.foldl_append, List.foldl_cons, List.foldl_nil, Laneset.reg_setReg _ _ _ _ _ _ (by omega) hr',
        ih (by omega)]
      by_cases h : lane = lane' ∧ d.v + n = r'
      · obtain ⟨rfl, rfl⟩ := h
        rw [if_pos ⟨rfl, rfl⟩, if_pos ⟨rfl, by omega, by omega⟩, Nat.add_sub_cancel_left, Nat.mod_mod]
      · rw [if_neg h]
        by_cases h' : lane = lane' ∧ d.v ≤ r' ∧ r' < d.v + n
        · rw [if_pos h', if_pos (by omega)]
        · rw [if_neg h', if_neg (by omega)]
  exact this d.n hb

/-- One write of a uniform register field. -/
theorem Laneset.write_ureg (ls : Laneset) (lane : Nat) (d : Reg) (v : Nat) (hu : d.u = true)
    (hb : d.v + d.n ≤ 64) (r' : Nat) (hr' : r' < 64) :
    (ls.write lane d v).ureg r' = if d.v ≤ r' ∧ r' < d.v + d.n then v / 2 ^ (32 * (r' - d.v)) % 2 ^ 32 else ls.ureg r' := by
  have hd : d.none? = false := by simp [Reg.none?, hu]
  unfold Laneset.write
  rw [hd]
  simp only [hu, Bool.false_eq_true, if_false, if_true]
  have : ∀ n, d.v + n ≤ 64 → ((List.range n).foldl (fun ls k => ls.setUreg (d.v + k) (v / 2 ^ (32 * k) % 2 ^ 32)) ls).ureg r' =
      if d.v ≤ r' ∧ r' < d.v + n then v / 2 ^ (32 * (r' - d.v)) % 2 ^ 32 else ls.ureg r' := by
    intro n
    induction n with
    | zero => intro _; rw [if_neg (by omega)]; rfl
    | succ n ih =>
      intro hn
      rw [List.range_succ, List.foldl_append, List.foldl_cons, List.foldl_nil, Laneset.ureg_setUreg _ _ _ _ (by omega) hr',
        ih (by omega)]
      by_cases h : d.v + n = r'
      · subst h
        rw [if_pos rfl, if_pos ⟨by omega, by omega⟩, Nat.add_sub_cancel_left, Nat.mod_mod]
      · rw [if_neg h]
        by_cases h' : d.v ≤ r' ∧ r' < d.v + n
        · rw [if_pos h', if_pos (by omega)]
        · rw [if_neg h', if_neg (by omega)]
  exact this d.n hb

theorem Laneset.write_none (ls : Laneset) (lane : Nat) (d : Reg) (v : Nat) (hd : d.none? = true) : ls.write lane d v = ls := by
  simp [Laneset.write, hd]

/-- A write leaves everything of a laneset but its registers. -/
theorem Laneset.write_kept (ls : Laneset) (lane : Nat) (d : Reg) (v : Nat) :
    { ls.write lane d v with regs := ls.regs, uregs := ls.uregs } = ls := by
  unfold Laneset.write
  split
  · rfl
  · generalize List.range d.n = l
    have : ∀ m : Laneset, { m with regs := ls.regs, uregs := ls.uregs } = ls →
        { (l.foldl (fun ls k =>
          if d.u = true then ls.setUreg (d.v + k) (v / 2 ^ (32 * k) % 2 ^ 32)
          else ls.setReg lane (d.v + k) (v / 2 ^ (32 * k) % 2 ^ 32)) m) with regs := ls.regs, uregs := ls.uregs } = ls := by
      induction l with
      | nil => exact fun m h => h
      | cons k t ih =>
        intro m h
        refine ih _ ?_
        split <;> exact h
    exact this ls rfl

theorem Laneset.write_uregs (ls : Laneset) (lane : Nat) (d : Reg) (v : Nat) (hu : d.u = false) :
    (ls.write lane d v).uregs = ls.uregs := by
  unfold Laneset.write
  split
  · rfl
  · simp only [hu, Bool.false_eq_true, if_false]
    generalize List.range d.n = l
    induction l generalizing ls with
    | nil => rfl
    | cons k t ih => rw [List.foldl_cons, ih]; rfl

theorem Laneset.write_regs (ls : Laneset) (lane : Nat) (d : Reg) (v : Nat) (hu : d.u = true) :
    (ls.write lane d v).regs = ls.regs := by
  unfold Laneset.write
  split
  · rfl
  · generalize List.range d.n = l
    induction l generalizing ls with
    | nil => rfl
    | cons k t ih => rw [List.foldl_cons, ih]; simp [hu]; rfl

/-! ## A register field written in every executing lane -/

theorem foldl_write_reg (d : Reg) (val : Nat → Nat) (hu : d.u = false) (hd : d.none? = false)
    (hb : d.v + d.n ≤ 256) (L : List Nat) (hL : L.Nodup) (ls : Laneset) (lane r : Nat) (hr : r < 256) :
    (L.foldl (fun ls i => ls.write i d (val i)) ls).reg lane r =
      if lane ∈ L ∧ d.v ≤ r ∧ r < d.v + d.n then val lane / 2 ^ (32 * (r - d.v)) % 2 ^ 32 else ls.reg lane r := by
  induction L generalizing ls with
  | nil => simp
  | cons k t ih =>
    obtain ⟨hk, ht⟩ := List.nodup_cons.mp hL
    rw [List.foldl_cons, ih ht, Laneset.write_reg _ _ _ _ hu hd hb _ _ hr]
    by_cases h1 : lane ∈ t ∧ d.v ≤ r ∧ r < d.v + d.n
    · rw [if_pos h1, if_pos ⟨List.mem_cons_of_mem _ h1.1, h1.2⟩]
    · rw [if_neg h1]
      by_cases h2 : k = lane ∧ d.v ≤ r ∧ r < d.v + d.n
      · obtain ⟨rfl, h2⟩ := h2
        rw [if_pos ⟨rfl, h2⟩, if_pos ⟨List.mem_cons_self .., h2⟩]
      · rw [if_neg h2, if_neg]
        rintro ⟨h3, h4⟩
        rcases List.mem_cons.mp h3 with rfl | h3
        · exact h2 ⟨rfl, h4⟩
        · exact h1 ⟨h3, h4⟩

theorem Laneset.kept_trans {a b c : Laneset} (h : { a with regs := b.regs, uregs := b.uregs } = b)
    (k : { b with regs := c.regs, uregs := c.uregs } = c) : { a with regs := c.regs, uregs := c.uregs } = c := by
  cases a; cases b; cases c
  simp_all

theorem foldl_write_kept (d : Reg) (val : Nat → Nat) (L : List Nat) (ls : Laneset) :
    { L.foldl (fun ls i => ls.write i d (val i)) ls with regs := ls.regs, uregs := ls.uregs } = ls := by
  have : ∀ m : Laneset, { m with regs := ls.regs, uregs := ls.uregs } = ls →
      { L.foldl (fun ls i => ls.write i d (val i)) m with regs := ls.regs, uregs := ls.uregs } = ls := by
    induction L with
    | nil => exact fun m h => h
    | cons k t ih =>
      intro m h
      exact ih _ (Laneset.kept_trans (Laneset.write_kept m k d (val k)) h)
  exact this ls rfl

theorem foldl_write_uregs (d : Reg) (val : Nat → Nat) (hu : d.u = false) (L : List Nat) (ls : Laneset) :
    (L.foldl (fun ls i => ls.write i d (val i)) ls).uregs = ls.uregs := by
  induction L generalizing ls with
  | nil => rfl
  | cons k t ih => rw [List.foldl_cons, ih, Laneset.write_uregs _ _ _ _ hu]

theorem foldl_write_regs (d : Reg) (val : Nat → Nat) (hu : d.u = true) (L : List Nat) (ls : Laneset) :
    (L.foldl (fun ls i => ls.write i d (val i)) ls).regs = ls.regs := by
  induction L generalizing ls with
  | nil => rfl
  | cons k t ih => rw [List.foldl_cons, ih, Laneset.write_regs _ _ _ _ hu]

theorem Ctx.lanes_nodup (c : Ctx) : c.lanes.Nodup :=
  ((List.nodup_range).filter _).filter _

theorem fA_lt (w : Nat) : fA w < 256 := bits_lt w 41 34
theorem fD_lt (w : Nat) : fD w < 256 := bits_lt w 49 42

/-- What the write of field `d` in the executing lanes leaves in the laneset. -/
theorem writes_spec (c : Ctx) (d : Reg) (val : Nat → Nat) (hn : d.n = 1 ∨ d.n = 2 ∨ d.n = 4) (h8 : d.v < 256)
    (hf : d.badField = false) (hr : d.badReg c.x.nreg = false) :
    let ls := (c.runLanes d.u).foldl (fun ls i => ls.write i d (val i)) c.ls
    (d.none? = false → ∀ lane ∈ c.runLanes d.u, ∀ k, k < d.n → ls.at lane d k = val lane / 2 ^ (32 * k) % 2 ^ 32) ∧
    (∀ lane r, r < 256 → (d.none? = true ∨ d.u = true ∨ lane ∉ c.runLanes d.u ∨ r < d.v ∨ d.v + d.n ≤ r) →
      ls.reg lane r = c.ls.reg lane r) ∧
    (∀ r, r < 64 → (d.u = false ∨ c.lanes = [] ∨ r < d.v ∨ d.v + d.n ≤ r) → ls.ureg r = c.ls.ureg r) ∧
    { ls with regs := c.ls.regs, uregs := c.ls.uregs } = c.ls := by
  intro ls
  have align : d.none? = false → d.v % d.n = 0 := fun h => by
    simp only [Reg.badReg, h, Bool.not_false, Bool.true_and, Bool.or_eq_false_iff, decide_eq_false_iff_not, not_not] at hr
    exact hr.1
  by_cases hd : d.none? = true
  · have e : ls = c.ls := by
      show (c.runLanes d.u).foldl _ c.ls = c.ls
      generalize c.runLanes d.u = L
      induction L with
      | nil => rfl
      | cons k t ih => rw [List.foldl_cons, Laneset.write_none _ _ _ _ hd, ih]
    rw [e]
    exact ⟨fun h => by simp [hd] at h, fun _ _ _ _ => rfl, fun _ _ _ => rfl, rfl⟩
  · have hd' : d.none? = false := by simpa using hd
    have ha := align hd'
    cases hu : d.u with
    | false =>
      have hv : d.v + d.n ≤ 256 := by rcases hn with hn | hn | hn <;> rw [hn] at ha ⊢ <;> omega
      have hL : (c.runLanes d.u).Nodup := by simp [Ctx.runLanes, hu, Ctx.lanes_nodup]
      have reg : ∀ lane r, r < 256 → ls.reg lane r = if lane ∈ c.runLanes false ∧ d.v ≤ r ∧ r < d.v + d.n then
          val lane / 2 ^ (32 * (r - d.v)) % 2 ^ 32 else c.ls.reg lane r := fun lane r hr => by
        rw [← hu]
        exact foldl_write_reg d val hu hd' hv (c.runLanes d.u) hL c.ls lane r hr
      refine ⟨fun _ lane hm k hk => ?_, fun lane r hr h => ?_, fun r hr _ => ?_, ?_⟩
      · unfold Laneset.at
        rw [if_neg (by simp [hu]), reg lane (d.v + k) (by omega), if_pos ⟨hm, by omega, by omega⟩, Nat.add_sub_cancel_left]
      · exact (reg lane r hr).trans (if_neg (by
          rintro ⟨h1, h2, h3⟩
          rcases h with h | h | h | h | h
          · simp [hd'] at h
          · simp at h
          · exact h h1
          · omega
          · omega))
      · show (assocGet 0#32 ls.uregs (r % 64)).toNat = _
        rw [show ls.uregs = c.ls.uregs from foldl_write_uregs d val hu _ _]
        rfl
      · exact foldl_write_kept d val _ _
    | true =>
      have hv : d.v + d.n ≤ 64 := by
        simp only [Reg.badField, hu, Bool.true_and, decide_eq_false_iff_not, not_le] at hf
        rcases hn with hn | hn | hn <;> rw [hn] at ha ⊢ <;> omega
      have hrl : c.runLanes true = c.lanes.take 1 := by simp [Ctx.runLanes]
      have ur : ∀ k t, c.lanes = k :: t → ∀ r, r < 64 → ls.ureg r =
          if d.v ≤ r ∧ r < d.v + d.n then val k / 2 ^ (32 * (r - d.v)) % 2 ^ 32 else c.ls.ureg r := fun k t hk r hr => by
        show ((c.runLanes d.u).foldl _ c.ls).ureg r = _
        rw [hu, hrl, hk]
        exact Laneset.write_ureg c.ls k d (val k) hu hv r hr
      refine ⟨fun _ lane hm k hk => ?_, fun lane r _ _ => ?_, fun r hr h => ?_, ?_⟩
      · rw [hrl] at hm
        cases hl : c.lanes with
        | nil => rw [hl] at hm; simp at hm
        | cons j t =>
          rw [hl] at hm
          have : lane = j := by simpa using hm
          subst this
          unfold Laneset.at
          rw [if_pos hu, ur lane t hl (d.v + k) (by omega), if_pos ⟨by omega, by omega⟩, Nat.add_sub_cancel_left]
      · show (assocGet 0#32 ls.regs _).toNat = _
        rw [show ls.regs = c.ls.regs from foldl_write_regs d val hu _ _]
        rfl
      · cases hk : c.lanes with
        | nil =>
          show ((c.runLanes d.u).foldl _ c.ls).ureg r = _
          rw [hu, hrl, hk]; rfl
        | cons k t =>
          rw [ur k t hk r hr, if_neg]
          rintro ⟨h1, h2⟩
          rcases h with h | h | h | h
          · simp at h
          · rw [hk] at h; cases h
          · omega
          · omega
      · exact foldl_write_kept d val _ _

/-! ## Format R and Format I -/

theorem free_aside {u s : State} {n : Nat} (k : { u with groups := s.groups, files := s.files } = { s with free := n }) :
    { u with groups := s.groups, files := s.files, free := s.free } = s :=
  congrArg (fun x : State => { x with free := s.free }) k

/-- What a Format R operation does where its word is good: it writes its destination, and goes on. -/
theorem runR_writes {i : Instr} {s : State} {g l : Nat} {c : Ctx} {t : Ty} (o : ROp) (h : AtInsn s g l o.op c)
    (hl : listedOp o.op = true) (ht : tyOf (fTY c.w) = some t) (hty : o.tyOk t = true) (hrm : fRM c.w ≤ o.rmMax)
    (h0 : bits c.w 3 0 = 0) (hf : FieldsOk s c (o.srcs c.w t) (o.dst c.w t)) (hi : exec i s = .next (s.runR g l o)) :
    WritesReg i s c (o.dst c.w t) (wordsOf (o.srcs c.w t)) fun lane =>
      o.f { c := c, lane := lane, ty := t, rm := fRM c.w, pd := c.ls.pred lane (fPD c.w), lit := fC c.w,
            old := if (o.dst c.w t).none? then 0 else c.read lane (o.dst c.w t),
            r := (Config.free (s.free + lane) 16).toNat }
        (if o.useA then c.read lane { v := fA c.w, u := fAU c.w, n := nOf (o.wideA t) } else 0)
        (if o.useB then c.read lane { v := fB c.w, u := fBU c.w, n := nOf (o.wideB t) } else 0)
        (if o.useC then c.read lane { v := fC c.w, u := fCU c.w, n := nOf (o.wideC t) } else 0) := by
  obtain ⟨hf1, hf2, hf3⟩ := hf
  have hsrc : (o.srcs c.w t).any (fun r => r.badField) = false := by
    simp only [List.any_eq_false]
    exact fun r hr => by simp [(hf1 r (List.mem_append_left _ hr)).1]
  have hd := hf1 (o.dst c.w t) (List.mem_append_right _ (by simp))
  have hbad : o.bad c.w t = false := by
    simp only [ROp.bad, hty, hsrc, hd.1, Nat.not_lt.mpr hrm, h0, Bool.not_true, Bool.false_or, decide_false,
      ne_eq, not_true_eq_false, Bool.and_eq_false_iff]
    by_cases hu : fDU c.w = true
    · right
      simp only [List.any_eq_false]
      intro r hr
      rcases hf2 hu r hr with h | h <;> simp [h]
    · left; simpa using hu
  have hgo := fun k => State.operands_ok hf3 (fun r hr => (hf1 r hr).2) k
  obtain ⟨hg, hl', -, -⟩ := State.ctx_spec h.ctx
  subst hg hl'
  have hs : (if fRM c.w = 4 then { s with free := s.free + 32 } else s) =
      { s with free := if fRM c.w = 4 then s.free + 32 else s.free } := by split <;> rfl
  have e : s.runR c.g c.l o =
      ({ s with free := if fRM c.w = 4 then s.free + 32 else s.free } : State).retire c
        ((c.runLanes (fDU c.w)).foldl (o.lane c t s.free) c.ls) (wordsOf (o.srcs c.w t)) := by
    unfold State.runR
    rw [State.meet_at h hl, ht, ← hs]
    simp only [hbad, hgo, Bool.false_eq_true, if_false]
  generalize (if fRM c.w = 4 then s.free + 32 else s.free) = n at e
  have k := State.retire_spec (s := { s with free := n }) (g := c.g) (l := c.l) (c := c) h.ctx
    ((c.runLanes (fDU c.w)).foldl (o.lane c t s.free) c.ls) (wordsOf (o.srcs c.w t))
  have hn : (o.dst c.w t).n = 1 ∨ (o.dst c.w t).n = 2 ∨ (o.dst c.w t).n = 4 := by
    show nOf (o.wideD t) = 1 ∨ nOf (o.wideD t) = 2 ∨ nOf (o.wideD t) = 4
    unfold nOf; split <;> simp
  obtain ⟨w1, w2, w3, w4⟩ := writes_spec c (o.dst c.w t) _ hn (fD_lt c.w) hd.1 hd.2
  exact Answers.of_eq (hi.trans (congrArg _ e)) ⟨_, k.1, w1, w2, w3, w4, free_aside k.2⟩

/-- What a Format I operation does where its word is good. -/
theorem runI_writes {i : Instr} {s : State} {g l op : Nat} {c : Ctx} (useA : Bool) (f : Nat → Nat → Nat)
    (h : AtInsn s g l op c) (hl : listedOp op = true) (hf : FieldsOk s c (if useA then [c.iA] else []) c.iD)
    (hi : exec i s = .next (s.runI g l op useA f)) :
    WritesReg i s c c.iD (wordsOf (if useA then [c.iA] else [])) fun lane =>
      f (if useA then c.read lane c.iA else 0) (fIMM c.w) := by
  obtain ⟨hf1, hf2, hf3⟩ := hf
  have hsrc : (if useA then [c.iA] else []).any (fun r => r.badField) = false := by
    simp only [List.any_eq_false]
    exact fun r hr => by simp [(hf1 r (List.mem_append_left _ hr)).1]
  have hd := hf1 c.iD (List.mem_append_right _ (by simp))
  have hmix : (fDUi c.w && (if useA then [c.iA] else []).any fun r => !r.u && !r.none?) = false := by
    rw [Bool.and_eq_false_iff]
    by_cases hu : fDUi c.w = true
    · right
      simp only [List.any_eq_false]
      intro r hr
      rcases hf2 hu r hr with h | h <;> simp [h]
    · left; simpa using hu
  have hgo := fun k => State.operands_ok hf3 (fun r hr => (hf1 r hr).2) k
  obtain ⟨hg, hl', -, -⟩ := State.ctx_spec h.ctx
  subst hg hl'
  have e : s.runI c.g c.l op useA f = s.retire c
      ((c.runLanes (fDUi c.w)).foldl (fun ls lane =>
        ls.write lane c.iD (f (if useA then c.read lane c.iA else 0) (fIMM c.w))) c.ls)
      (wordsOf (if useA then [c.iA] else [])) := by
    unfold State.runI
    rw [State.meet_at h hl]
    have hd1 := hd.1
    unfold Ctx.iA at hsrc hmix
    unfold Ctx.iA Ctx.iD at hgo
    unfold Ctx.iD at hd1
    simp only [hsrc, hgo, hd1, hmix, Bool.or_self, Bool.false_eq_true, if_false]
    rfl
  have k := State.retire_spec h.ctx ((c.runLanes (fDUi c.w)).foldl (fun ls lane =>
        ls.write lane c.iD (f (if useA then c.read lane c.iA else 0) (fIMM c.w))) c.ls)
      (wordsOf (if useA then [c.iA] else []))
  obtain ⟨w1, w2, w3, w4⟩ := writes_spec c c.iD (fun lane => f (if useA then c.read lane c.iA else 0) (fIMM c.w))
    (.inl rfl) (fD_lt c.w) hd.1 hd.2
  exact Answers.of_eq (hi.trans (congrArg _ e)) ⟨_, k.1, w1, w2, w3, w4, free_aside (n := s.free) k.2⟩

/-- Values that agree in the registers of the field give the same write. -/
theorem WritesRegIn.congr {K : State → State → Prop} {i : Instr} {s : State} {c : Ctx} {d : Reg} {w : Nat} {f g : Nat → Nat}
    (h : WritesRegIn K i s c d w f) (e : ∀ lane, f lane % 2 ^ (32 * d.n) = g lane % 2 ^ (32 * d.n)) :
    WritesRegIn K i s c d w g := by
  obtain ⟨t, h1, ls, h2, h3, h4⟩ := h
  refine ⟨t, h1, ls, h2, fun hd lane hl k hk => (h3 hd lane hl k hk).trans ?_, h4⟩
  have cut : ∀ x, x / 2 ^ (32 * k) % 2 ^ 32 = x % 2 ^ (32 * d.n) / 2 ^ (32 * k) % 2 ^ 32 := fun x => by
    have e : 2 ^ (32 * d.n) = 2 ^ (32 * k) * 2 ^ (32 * (d.n - k)) := by rw [← pow_add]; congr 1; omega
    rw [e, Nat.mod_mul_right_div_self, Nat.mod_mod_of_dvd]
    exact pow_dvd_pow 2 (by omega)
  rw [cut, e lane, ← cut]

/-! ## Predicates -/

theorem Laneset.pred_setPred (ls : Laneset) (lane p : Nat) (b : Bool) (lane' p' : Nat) (hp : p < 8) (hp' : p' < 8) :
    (ls.setPred lane p b).pred lane' p' = if lane = lane' ∧ p = p' ∧ p' ≠ 7 then b else ls.pred lane' p' := by
  unfold Laneset.pred Laneset.setPred
  rw [Nat.mod_eq_of_lt hp, Nat.mod_eq_of_lt hp']
  by_cases h7 : p = 7
  · rw [if_pos h7]
    rw [if_neg (c := lane = lane' ∧ _) (by omega)]
  · rw [if_neg h7]
    by_cases h7' : p' = 7
    · rw [if_pos h7', if_neg (by omega), if_pos h7']
    · rw [if_neg h7', if_neg h7']
      dsimp only
      rw [assocGet_set]
      by_cases hl : lane = lane'
      · subst hl
        rw [if_pos rfl, BitVec.toNat_ofNat, Nat.mod_eq_of_lt
          (withBits_lt _ _ _ _ 8 (assocGet 0#8 ls.preds lane).isLt hp (Nat.le_refl p))]
        have key : ∀ n i, bit n i = (bits n i i == 1) := fun n i => by simp [bit, bits]
        rw [key, key]
        by_cases hpp : p = p'
        · subst hpp
          rw [bits_withBits, if_pos (show lane = lane ∧ p = p ∧ p ≠ 7 from ⟨rfl, rfl, h7'⟩)]
          cases b <;> simp
        · rw [if_neg (c := lane = lane ∧ p = p' ∧ p' ≠ 7) (fun h => hpp h.2.1),
            bits_withBits_other _ _ _ _ _ _ (by omega) (Nat.le_refl p)]
      · rw [if_neg hl, if_neg (by omega)]

theorem Laneset.setPred_kept (ls : Laneset) (lane p : Nat) (b : Bool) :
    { ls.setPred lane p b with preds := ls.preds } = ls := by
  unfold Laneset.setPred
  split <;> rfl

/-- Predicate `p` written in several lanes. -/
theorem foldl_setPred (p : Nat) (hp : p < 8) (f : Nat → Bool) (L : List Nat) (hL : L.Nodup) (ls : Laneset) :
    (∀ lane p', p' < 8 → (L.foldl (fun ls i => ls.setPred i p (f i)) ls).pred lane p' =
      if lane ∈ L ∧ p' = p ∧ p' ≠ 7 then f lane else ls.pred lane p') ∧
    { L.foldl (fun ls i => ls.setPred i p (f i)) ls with preds := ls.preds } = ls := by
  induction L generalizing ls with
  | nil => exact ⟨fun _ _ _ => by simp, rfl⟩
  | cons k t ih =>
    obtain ⟨hk, ht⟩ := List.nodup_cons.mp hL
    obtain ⟨i1, i2⟩ := ih ht (ls.setPred k p (f k))
    refine ⟨fun lane p' hp' => ?_, ?_⟩
    · rw [List.foldl_cons, i1 lane p' hp', Laneset.pred_setPred _ _ _ _ _ _ hp hp']
      by_cases h1 : lane ∈ t ∧ p' = p ∧ p' ≠ 7
      · rw [if_pos h1, if_pos ⟨List.mem_cons_of_mem _ h1.1, h1.2⟩]
      · rw [if_neg h1]
        by_cases h2 : k = lane ∧ p = p' ∧ p' ≠ 7
        · obtain ⟨rfl, rfl, h2⟩ := h2
          rw [if_pos ⟨rfl, rfl, h2⟩, if_pos ⟨List.mem_cons_self .., rfl, h2⟩]
        · rw [if_neg h2, if_neg]
          rintro ⟨h3, h4, h5⟩
          rcases List.mem_cons.mp h3 with rfl | h3
          · exact h2 ⟨rfl, h4.symm, h5⟩
          · exact h1 ⟨h3, h4, h5⟩
    · rw [List.foldl_cons]
      have := Laneset.setPred_kept ls k p (f k)
      generalize ls.setPred k p (f k) = m at *
      generalize List.foldl _ m t = u at *
      cases u; cases m; cases ls
      simp_all

theorem fPD_lt (w : Nat) : fPD w < 8 := bits_lt w 10 8

/-- What an instruction that writes predicate PD does where its word is good. -/
theorem putPreds_writes {i : Instr} {s : State} {g l : Nat} {c : Ctx} (hc : s.ctx g l = some c) (words : Nat) (f : Nat → Bool)
    (hi : exec i s = .next (s.putPreds c words f)) : WritesPred i s c words f := by
  obtain ⟨hg, hl', -, -⟩ := State.ctx_spec hc
  subst hg hl'
  obtain ⟨h1, h2⟩ := foldl_setPred (fPD c.w) (fPD_lt c.w) f c.lanes c.lanes_nodup c.ls
  have k := State.retire_spec hc (c.lanes.foldl (fun ls i => ls.setPred i (fPD c.w) (f i)) c.ls) words
  exact Answers.of_eq hi ⟨_, k.1, h1, h2, k.2⟩

end Sys2Proof.Machine
end

