-- ==== Sys2Proof/Laws/Mem.lean ====
section
/-! SUPPORT. Laws of the named memory operations: each keeps the canonical form of the byte memories, and what a read answers after a
write. -/

namespace Sys2Proof.Machine

/-- A fold keeps a property that each of its steps keeps. -/
theorem foldl_keeps {α β : Type} {P : α → Prop} {f : α → β → α} (h : ∀ a b, P a → P (f a b)) (l : List β) :
    ∀ a, P a → P (l.foldl f a) := by
  induction l with
  | nil => exact fun _ ha => ha
  | cons b t ih => exact fun a ha => ih _ (h a b ha)

theorem MemSt.wf_of {m n : MemSt} (h : m.wf = true) (hd : assocWf 0 n.dev = true) (hr : assocWf 0 n.rsv = true) (hh : n.host = m.host)
    (hs : assocWf 0 n.store = true) : n.wf = true := by
  rw [MemSt.wf_iff] at *
  exact ⟨hd, hr, by rw [hh]; exact h.2.2.1, hs⟩

theorem entriesFollow_wf (m : MemSt) (pa : Nat) (data : List Byte) (h : m.wf = true) : (entriesFollow m pa data).wf = true := by
  refine foldl_keeps (P := fun m : MemSt => m.wf = true) (fun m e hm => ?_) _ _ h
  dsimp only
  split
  · exact hm
  · split
    · exact hm
    · refine foldl_keeps (P := fun m : MemSt => m.wf = true) (fun m li hm => ?_) _ _ hm
      refine foldl_keeps (P := fun m : MemSt => m.wf = true) (fun m k hm => ?_) _ _ hm
      split
      · have := (MemSt.wf_iff m).mp hm
        exact MemSt.wf_of hm this.1 (assocWf_set _ _ _ _ this.2.1) rfl this.2.2.2
      · exact hm

/-- A write of device memory, also of Reserve entries that follow it. -/
theorem State.devWrite_wf (s : State) (pa : Nat) (data : List Byte) (h : s.mem.wf = true) : (s.devWrite pa data).mem.wf = true := by
  have w := (MemSt.wf_iff s.mem).mp h
  exact entriesFollow_wf _ _ _ (MemSt.wf_of h (assocWf_cellsWrite _ _ _ w.1) w.2.1 rfl w.2.2.2)

theorem State.tierWrite_wf (s : State) (fn tier a : Nat) (data : List Byte) (h : s.mem.wf = true) :
    (s.tierWrite fn tier a data).mem.wf = true := by
  have w := (MemSt.wf_iff s.mem).mp h
  unfold State.tierWrite
  split
  · exact s.devWrite_wf a data h
  · refine entriesFollow_wf _ _ _ ?_
    split
    · exact (MemSt.wf_iff _).mpr ⟨w.1, assocWf_cellsWrite _ _ _ w.2.1, w.2.2.1, w.2.2.2⟩
    · exact (MemSt.wf_iff _).mpr ⟨w.1, w.2.1, assocWf_cellsWrite _ _ _ w.2.2.1, w.2.2.2⟩

theorem State.storeWrite_wf (s : State) (sq off : Nat) (data : List Byte) (h : s.mem.wf = true) :
    (s.storeWrite sq off data).mem.wf = true := by
  have w := (MemSt.wf_iff s.mem).mp h
  exact MemSt.wf_of h w.1 w.2.1 rfl (assocWf_cellsWrite _ _ _ w.2.2.2)

theorem State.storePoisonLines_wf (s : State) (sq off n : Nat) (h : s.mem.wf = true) : (s.storePoisonLines sq off n).mem.wf = true := h

theorem State.noteEcc_mem (s : State) (sq off : Nat) (unc : Bool) : (s.noteEcc sq off unc).mem = s.mem := by
  unfold State.noteEcc
  dsimp only
  split <;> simp

/-- Poison that a store range takes leaves its bytes. -/
theorem State.poisonStore_wf (s : State) (sq off n : Nat) (h : s.mem.wf = true) : (s.poisonStore sq off n).mem.wf = true := by
  unfold State.poisonStore
  dsimp only
  rw [State.raiseIrq_mem]
  refine foldl_keeps (P := fun s : State => s.mem.wf = true) (fun s i hs => ?_) _ _ (s.storePoisonLines_wf sq off n h)
  rw [State.noteEcc_mem, (State.bump_kept _ _ _ _).2.2.2.2.2.2.2.1]
  exact hs

/-- A read that meets wrong bits leaves the bytes. -/
theorem State.storeScan_wf (s : State) (sq off n : Nat) (h : s.mem.wf = true) : (s.storeScan sq off n).mem.wf = true := by
  refine foldl_keeps (P := fun s : State => s.mem.wf = true) (fun s e hs => ?_) _ _ h
  unfold State.readErr
  dsimp only
  split
  · unfold State.perfCount
    dsimp only
    split <;> simpa [State.noteEcc_mem] using hs
  · rw [State.noteEcc_mem]
    exact State.poisonStore_wf _ _ _ _ hs

theorem State.upsets_wf (s : State) (h : s.mem.wf = true) : s.upsets.mem.wf = true := by
  have up : ∀ (s : State) k, s.mem.wf = true → (s.storeUpset k).mem.wf = true := fun s k hs => by
    unfold State.storeUpset; split <;> exact hs
  have lo : ∀ (s : State) e, s.mem.wf = true → (s.localUpset e).mem.wf = true := fun s e hs => by
    unfold State.localUpset; split <;> exact hs
  unfold State.upsets
  dsimp only
  rw [(State.drawFree_kept _).2.2.2.2.2.2.2.1]
  split <;> split <;> first | exact lo _ _ (up _ _ h) | exact lo _ _ h | exact up _ _ h | exact h

/-- The upsets of a tick change memory and the count of free values only. -/
theorem State.upsets_kept (s : State) : { s.upsets with mem := s.mem, free := s.free } = s := by
  have up : ∀ (s : State) k m, { (s.storeUpset k) with mem := m } = { s with mem := m } := fun s k m => by
    unfold State.storeUpset; split <;> rfl
  have lo : ∀ (s : State) e m, { (s.localUpset e) with mem := m } = { s with mem := m } := fun s e m => by
    unfold State.localUpset; split <;> rfl
  have dr : ∀ (s : State) m n, { s.drawFree with mem := m, free := n } = { s with mem := m, free := n } := fun _ _ _ => rfl
  have key : ∀ (t : State) m n, { t with mem := m } = { s with mem := m } → { t.drawFree with mem := m, free := n } =
      { s with mem := m, free := n } := fun t m n h => by
    rw [dr]; exact congrArg (fun x : State => { x with free := n }) h
  unfold State.upsets
  refine key _ s.mem s.free ?_
  split <;> split <;> simp only [up, lo]

theorem State.storeClear_wf (s : State) (sq : Nat) (h : s.mem.wf = true) : (s.storeClear sq).mem.wf = true := by
  have w := (MemSt.wf_iff s.mem).mp h
  exact MemSt.wf_of h w.1 w.2.1 rfl (assocWf_cellsZero _ _ _ w.2.2.2)

theorem State.releasePages_wf (s : State) (ps : List Nat) (h : s.mem.wf = true) : (s.releasePages ps).mem.wf = true := by
  refine foldl_keeps (P := fun m : MemSt => m.wf = true) (fun m p hm => ?_) ps _ h
  have w := (MemSt.wf_iff m).mp hm
  exact MemSt.wf_of hm w.1 (assocWf_cellsZero _ _ _ w.2.1) rfl w.2.2.2

theorem State.dropEntry_wf (s : State) (id : Nat) (h : s.mem.wf = true) : (s.dropEntry id).mem.wf = true := by
  unfold State.dropEntry
  split
  · exact h
  · exact s.releasePages_wf _ h

theorem State.pagesWrite_wf (s : State) (ps : List Nat) (data : List Byte) (h : s.mem.wf = true) : (s.pagesWrite ps data).mem.wf = true := by
  refine foldl_keeps (P := fun s : State => s.mem.wf = true) (fun s p hs => ?_) _ _ h
  have w := (MemSt.wf_iff s.mem).mp hs
  exact MemSt.wf_of hs w.1 (assocWf_cellsWrite _ _ _ w.2.1) rfl w.2.2.2

theorem State.slotWrite_wf (s : State) (fn h slot : Nat) (data : List Byte) (hw : s.mem.wf = true) :
    (s.slotWrite fn h slot data).mem.wf = true :=
  foldl_keeps (P := fun s : State => s.mem.wf = true) (fun s _ hs => s.storeWrite_wf _ _ _ hs) _ _ hw

/-! ## Accesses through the MMU -/

theorem State.mmuTouch_wf (s : State) (fn va : Nat) (h : s.mem.wf = true) : (s.mmuTouch fn va).mem.wf = true := by
  unfold State.mmuTouch
  dsimp only
  split
  · exact h
  · split
    · exact h
    · split
      · exact h
      · split
        · exact (MemSt.wf_iff _).mpr (by simpa using (MemSt.wf_iff _).mp h)
        · simpa using h

theorem State.vaTrace_wf (s : State) (fn : Nat) (req : Req) (va n : Nat) (acc : Acc) (h : s.mem.wf = true) :
    (s.vaTrace fn req va n acc).mem.wf = true := by
  have k := foldl_keeps (P := fun s : State => s.mem.wf = true) (f := fun s a => s.mmuTouch fn a) (fun s a hs => s.mmuTouch_wf fn a hs)
    ((List.range (cdiv (va % 4096 + n) 4096)).map fun i => (va / 4096 + i) * 4096) s h
  unfold State.vaTrace
  dsimp only
  split
  · split
    · exact k
    · rw [(State.mmuFault_kept _ _ _ _ _).2.2.2.2.2.2.2.1]; exact k
  · exact k

theorem State.noteHeld_mem (s : State) : s.noteHeld.mem = s.mem := by
  unfold State.noteHeld State.recErrBlock
  split
  · split
    · exact (State.recErr_kept _ _ _ _ _).2.2.2.2.2.2.2.1
    · rfl
  · rfl

theorem State.vaRead_wf (s : State) (fn : Nat) (req : Req) (va n : Nat) (h : s.mem.wf = true) : (s.vaRead fn req va n).1.mem.wf = true := by
  have k := s.vaTrace_wf fn req va n .read h
  unfold State.vaRead
  dsimp only
  split
  · rw [State.noteHeld_mem]; exact k
  · exact k

theorem State.vaPut_wf (fuel : Nat) : ∀ (s : State) (fn va : Nat) (data : List Byte), s.mem.wf = true →
    (s.vaPut fn va data fuel).mem.wf = true := by
  induction fuel with
  | zero => exact fun _ _ _ _ h => h
  | succ n ih =>
    intro s fn va data h
    unfold State.vaPut
    split
    · exact h
    · refine ih _ _ _ _ ?_
      split
      · exact s.tierWrite_wf _ _ _ _ h
      · exact h

theorem State.vaWrite_wf (s : State) (fn : Nat) (req : Req) (va : Nat) (data : List Byte) (h : s.mem.wf = true) :
    (s.vaWrite fn req va data).1.mem.wf = true := by
  have k := s.vaTrace_wf fn req va data.length .write h
  unfold State.vaWrite
  dsimp only
  split
  · split
    · rw [State.noteHeld_mem]; exact k
    · exact k
  · split
    · split
      · exact State.vaPut_wf _ _ _ _ _ k
      · rw [State.noteHeld_mem]; exact k
    · exact State.vaPut_wf _ _ _ _ _ k

/-! ## Reads after writes -/

theorem entriesFollow_dev (m : MemSt) (pa : Nat) (data : List Byte) : (entriesFollow m pa data).dev = m.dev := by
  refine foldl_keeps (P := fun n : MemSt => n.dev = m.dev) (fun n e hn => ?_) _ _ rfl
  dsimp only
  split
  · exact hn
  · split
    · exact hn
    · refine foldl_keeps (P := fun n : MemSt => n.dev = m.dev) (fun n li hn => ?_) _ _ hn
      refine foldl_keeps (P := fun n : MemSt => n.dev = m.dev) (fun n k hn => ?_) _ _ hn
      split <;> exact hn

/-- A read of device memory after a write to the same place gives the bytes written. -/
theorem State.devRead_devWrite (s : State) (pa : Nat) (data : List Byte) : (s.devWrite pa data).devRead pa data.length = data := by
  unfold State.devRead State.devWrite
  dsimp only
  rw [entriesFollow_dev]
  exact cellsRead_write _ _ _

/-- A write of device memory leaves every other place alone. -/
theorem State.devRead_devWrite_other (s : State) (pa a n : Nat) (data : List Byte) (h : a + n ≤ pa ∨ pa + data.length ≤ a) :
    (s.devWrite pa data).devRead a n = s.devRead a n := by
  unfold State.devRead State.devWrite
  dsimp only
  rw [entriesFollow_dev]
  exact cellsRead_write_disjoint _ _ _ _ _ h

/-- The same of a square store. -/
theorem State.storeRead_storeWrite (s : State) (sq off : Nat) (data : List Byte) :
    (s.storeWrite sq off data).storeRead sq off data.length = data := cellsRead_write _ _ _

theorem State.storeRead_storeWrite_other (s : State) (sq off a n : Nat) (data : List Byte) (h : a + n ≤ off ∨ off + data.length ≤ a) :
    (s.storeWrite sq off data).storeRead sq a n = s.storeRead sq a n :=
  cellsRead_write_disjoint _ _ _ _ _ (by omega)

end Sys2Proof.Machine
end

