-- ==== Sys2Proof/Laws/Recur.lean ====
section
/-! SUPPORT. Recurrences over the steps of a call: a call that is split in two carries its state over (R261). -/

namespace Sys2Proof.Machine

@[simp] theorem recRun_length (h : Nat) (l : List RecIn) : (recRun h l).length = l.length := by
  induction l generalizing h with
  | nil => rfl
  | cons i t ih => simp [recRun, ih]

@[simp] theorem recEnd_append (h : Nat) (l m : List RecIn) : recEnd h (l ++ m) = recEnd (recEnd h l) m := by simp [recEnd]

theorem recRun_append (h : Nat) (l m : List RecIn) : recRun h (l ++ m) = recRun h l ++ recRun (recEnd h l) m := by
  induction l generalizing h with
  | nil => rfl
  | cons i t ih => simp [recRun, recEnd, ih]

/-- A reset cuts the past off: what comes after it does not depend on the state before (R257). -/
theorem recStep_reset (h k : Nat) (i : RecIn) (hr : i.reset = true) : recStep h i = recStep k i := by simp [recStep, hr]

theorem recEnd_after_reset (h k : Nat) (i : RecIn) (l : List RecIn) (hr : i.reset = true) : recEnd h (i :: l) = recEnd k (i :: l) := by
  simp only [recEnd, List.foldl_cons, recStep_reset h k i hr]

end Sys2Proof.Machine
end

