-- ==== Sys2Proof/WellFormed.lean ====
section
/-! DEFINITION. Which commands are well formed: every operand within the width the spec gives it. -/

namespace Sys2Proof

/-- Whether every operand of a command lies in its range: functions 0 to 63 (R220), 32-bit written values and BAR0 addresses (R671,
R673), files, squares and movers of R3, ports, channels, loops, sources and contexts of their chapters. -/
def Instr.wf : Instr → Bool
  | .registerWrite fn addr width v => decide (fn < 64) && decide (addr < 2 ^ 24) && [1, 2, 4, 8].contains width && decide (v < 2 ^ 64)
  | .rcRead fn addr width => decide (fn < 64) && decide (addr < 2 ^ 24) && [1, 2, 4, 8].contains width
  | .irqSet fn page v => decide (fn < 64) && decide (page < 256) && decide (v < 2 ^ 32)
  | .filPerfSelWrite fn file v => decide (fn < 64) && decide (file < 16) && decide (v < 2 ^ 32)
  | .filPerfLoRead fn file => decide (fn < 64) && decide (file < 16)
  | .bar2Access fn off _ => decide (fn < 64) && decide (off < 2 ^ 24)
  | .bar6Access fn off _ _ => decide (fn < 64) && decide (off < 2 ^ 35)
  | .fileEnable fn file _ => decide (fn < 64) && decide (file < 16)
  | .fileQuiesce fn file => decide (fn < 64) && decide (file < 16)
  | .fileReset fn file => decide (fn < 64) && decide (file < 16)
  | .fileStartDone file => decide (file < 16)
  | .fileStartTimeout file => decide (file < 16)
  | .fileStopDone file => decide (file < 16)
  | .squareSelftestDone sq _ => decide (sq < 256)
  | .squareFault sq => decide (sq < 256)
  | .squareStallWatchdog sq => decide (sq < 256)
  | .groupPlace _ => true
  | .preemption _ => true
  | .preemptionComplete sq => decide (sq < 256)
  | .groupResume sq => decide (sq < 256)
  | .groupMove _ => true
  | .flitRetry file => decide (file < 16)
  | .linkFailed file link east => decide (file < 16) && decide (link < (if east then 19 else 18))
  | .nop _ l => decide (l < 128)
  | .mov _ l => decide (l < 128)
  | .movi _ l => decide (l < 128)
  | .sel _ l => decide (l < 128)
  | .iadd _ l => decide (l < 128)
  | .iaddi _ l => decide (l < 128)
  | .isub _ l => decide (l < 128)
  | .imul _ l => decide (l < 128)
  | .imulh _ l => decide (l < 128)
  | .imad _ l => decide (l < 128)
  | .idiv _ l => decide (l < 128)
  | .irem _ l => decide (l < 128)
  | .imin _ l => decide (l < 128)
  | .imax _ l => decide (l < 128)
  | .iabs _ l => decide (l < 128)
  | .ineg _ l => decide (l < 128)
  | .andB _ l => decide (l < 128)
  | .orB _ l => decide (l < 128)
  | .xorB _ l => decide (l < 128)
  | .notB _ l => decide (l < 128)
  | .andi _ l => decide (l < 128)
  | .ori _ l => decide (l < 128)
  | .xori _ l => decide (l < 128)
  | .shl _ l => decide (l < 128)
  | .shr _ l => decide (l < 128)
  | .sar _ l => decide (l < 128)
  | .shli _ l => decide (l < 128)
  | .shri _ l => decide (l < 128)
  | .sari _ l => decide (l < 128)
  | .popc _ l => decide (l < 128)
  | .clz _ l => decide (l < 128)
  | .brev _ l => decide (l < 128)
  | .bfe _ l => decide (l < 128)
  | .bfi _ l => decide (l < 128)
  | .isetp _ l => decide (l < 128)
  | .plop _ l => decide (l < 128)
  | .psave _ l => decide (l < 128)
  | .pload _ l => decide (l < 128)
  | .shfl _ l => decide (l < 128)
  | .shflx _ l => decide (l < 128)
  | .voteany _ l => decide (l < 128)
  | .voteall _ l => decide (l < 128)
  | .ballot _ l => decide (l < 128)
  | .redux _ l => decide (l < 128)
  | .sreg _ l => decide (l < 128)
  | .timeR _ l => decide (l < 128)
  | .clk _ l => decide (l < 128)
  | .t2u _ l => decide (l < 128)
  | .fadd _ l => decide (l < 128)
  | .fsub _ l => decide (l < 128)
  | .fmul _ l => decide (l < 128)
  | .ffma _ l => decide (l < 128)
  | .fmin _ l => decide (l < 128)
  | .fmax _ l => decide (l < 128)
  | .fabs _ l => decide (l < 128)
  | .fneg _ l => decide (l < 128)
  | .fsetp _ l => decide (l < 128)
  | .faddi _ l => decide (l < 128)
  | .fmuli _ l => decide (l < 128)
  | .rcp _ l => decide (l < 128)
  | .rsq _ l => decide (l < 128)
  | .sqrt _ l => decide (l < 128)
  | .exp2 _ l => decide (l < 128)
  | .log2 _ l => decide (l < 128)
  | .sin _ l => decide (l < 128)
  | .cos _ l => decide (l < 128)
  | .tanh _ l => decide (l < 128)
  | .fdiv _ l => decide (l < 128)
  | .fscl _ l => decide (l < 128)
  | .cvt _ l => decide (l < 128)
  | .cvtpk _ l => decide (l < 128)
  | .cvtup _ l => decide (l < 128)
  | .lds _ l => decide (l < 128)
  | .sts _ l => decide (l < 128)
  | .ldg _ l => decide (l < 128)
  | .stg _ l => decide (l < 128)
  | .ats _ l => decide (l < 128)
  | .atg _ l => decide (l < 128)
  | .mma _ l => decide (l < 128)
  | .mmasp _ l => decide (l < 128)
  | .mld _ l => decide (l < 128)
  | .drn _ l => decide (l < 128)
  | .tmv _ l => decide (l < 128)
  | .twait _ l => decide (l < 128)
  | .ttest _ l => decide (l < 128)
  | .ewait _ l => decide (l < 128)
  | .bar _ l => decide (l < 128)
  | .fence _ l => decide (l < 128)
  | .semw _ l => decide (l < 128)
  | .semwTimeout _ l => decide (l < 128)
  | .semp _ l => decide (l < 128)
  | .bndy _ l => decide (l < 128)
  | .bra _ l => decide (l < 128)
  | .brx _ l => decide (l < 128)
  | .callB _ l => decide (l < 128)
  | .retB _ l => decide (l < 128)
  | .exitL _ l => decide (l < 128)
  | .trap _ l => decide (l < 128)
  | .matrixStep sq => decide (sq < 256)
  | .gateDrain sq => decide (sq < 256)
  | .moverFetch sq mv => decide (sq < 256) && decide (mv < 2)
  | .moverStore sq mv => decide (sq < 256) && decide (mv < 2)
  | .moverBcastStore sq mv => decide (sq < 256) && decide (mv < 2)
  | .moverPrefetch sq mv => decide (sq < 256) && decide (mv < 2)
  | .moverUnpin sq mv => decide (sq < 256) && decide (mv < 2)
  | .moverInval sq mv => decide (sq < 256) && decide (mv < 2)
  | .tileArrival sq mv tile => decide (sq < 256) && decide (mv < 2) && decide (tile < 4096)
  | .tileDeadlineExpiry sq mv => decide (sq < 256) && decide (mv < 2)
  | .moverDescriptorComplete sq mv => decide (sq < 256) && decide (mv < 2)
  | .rsvAlloc fn v => decide (fn < 64) && decide (v < 2 ^ 32)
  | .rsvFree fn v => decide (fn < 64) && decide (v < 2 ^ 32)
  | .rsvUnpinAll fn v => decide (fn < 64) && decide (v < 2 ^ 32)
  | .rsvInvalAll fn v => decide (fn < 64) && decide (v < 2 ^ 32)
  | .rsvFbvCtlWrite fn v => decide (fn < 64) && decide (v < 2 ^ 32)
  | .mmuInval fn v => decide (fn < 64) && decide (v < 2 ^ 32)
  | .mmuInvalComplete fn => decide (fn < 64)
  | .memRead pa _ => decide (pa < 2 ^ 35)
  | .memWrite pa _ _ => decide (pa < 2 ^ 35)
  | .patrolScrub chan _ => decide (chan < 8)
  | .demandWriteback _ => true
  | .autoPinRetire chan pin => decide (chan < 8) && decide (pin < 32)
  | .memRetire fn v => decide (fn < 64) && decide (v < 2 ^ 32)
  | .memUnretire fn v => decide (fn < 64) && decide (v < 2 ^ 32)
  | .memRetrain fn v => decide (fn < 64) && decide (v < 2 ^ 32)
  | .memTracking chan _ => decide (chan < 8)
  | .bankRefresh chan bank => decide (chan < 8) && decide (bank < 16)
  | .memTempHot chan _ => decide (chan < 8)
  | .memSelfRefreshEntry => true
  | .memReady => true
  | .sqDoorbell fn q v => decide (fn < 64) && decide (q < 65536) && decide (v < 2 ^ 32)
  | .cqHeadDoorbell fn q v => decide (fn < 64) && decide (q < 65536) && decide (v < 2 ^ 32)
  | .entryTake fn q => decide (fn < 64) && decide (q < 65536)
  | .sqLaunch fn q => decide (fn < 64) && decide (q < 65536)
  | .sqNop fn q => decide (fn < 64) && decide (q < 65536)
  | .sqCancel fn q => decide (fn < 64) && decide (q < 65536)
  | .cqIrqTimer fn q => decide (fn < 64) && decide (q < 65536)
  | .jobDeadlineExpiry _ => true
  | .jobRuntimeExpiry _ => true
  | .dspQcmdCreate fn v => decide (fn < 64) && decide (v < 2 ^ 32)
  | .dspQcmdDelete fn v => decide (fn < 64) && decide (v < 2 ^ 32)
  | .dspQcmdReset fn v => decide (fn < 64) && decide (v < 2 ^ 32)
  | .queueCmdDone fn => decide (fn < 64)
  | .dspQselWrite fn v => decide (fn < 64) && decide (v < 2 ^ 32)
  | .dspCancel fn v => decide (fn < 64) && decide (v < 2 ^ 32)
  | .dspStatLoRead fn => decide (fn < 64)
  | .dispatcherEnable fn _ => decide (fn < 64)
  | .dispatcherQuiesce fn => decide (fn < 64)
  | .dispatcherReset fn => decide (fn < 64)
  | .dispatcherStartDone => true
  | .dispatcherStopDone => true
  | .dispatcherCoreFailover core => decide (core < 8)
  | .functionLevelReset fn => decide (fn < 64)
  | .vfEnableClear port => decide (port < 4)
  | .pcieFundamentalReset port => decide (port < 4)
  | .seqCallTake _ => true
  | .seqCallStart _ => true
  | .streamOpen fn v => decide (fn < 64) && decide (v < 2 ^ 32)
  | .streamClose fn v => decide (fn < 64) && decide (v < 2 ^ 32)
  | .streamPark fn v => decide (fn < 64) && decide (v < 2 ^ 32)
  | .streamUnpark fn v => decide (fn < 64) && decide (v < 2 ^ 32)
  | .streamSreset fn v => decide (fn < 64) && decide (v < 2 ^ 32)
  | .streamSsave fn v => decide (fn < 64) && decide (v < 2 ^ 32)
  | .streamSload fn v => decide (fn < 64) && decide (v < 2 ^ 32)
  | .streamIdleSExpiry fn _ => decide (fn < 64)
  | .streamIdleRExpiry fn _ => decide (fn < 64)
  | .streamSwapOutDone fn _ => decide (fn < 64)
  | .streamSwapInDone fn _ => decide (fn < 64)
  | .attAttend _ => true
  | .attAppend _ => true
  | .pageRingConsumed _ _ => true
  | .edgeTailDoorbell fn v => decide (fn < 64) && decide (v < 2 ^ 32)
  | .edgeConv fn => decide (fn < 64)
  | .edgeConvt fn => decide (fn < 64)
  | .edgeSegmentEnd ctx => decide (ctx < 2)
  | .edgeDescriptorComplete ctx => decide (ctx < 2)
  | .edgeResidueMismatch ctx => decide (ctx < 2)
  | .edgeThirdMismatch => true
  | .edgeEnable fn _ => decide (fn < 64)
  | .edgeQuiesce fn => decide (fn < 64)
  | .edgeReset fn => decide (fn < 64)
  | .edgeStartDone => true
  | .edgeStopDone => true
  | .csiFrameStart vc _ => decide (vc < 16)
  | .csiLine vc _ _ => decide (vc < 16)
  | .csiFrameEnd vc _ => decide (vc < 16)
  | .csiPbArm fn v => decide (fn < 64) && decide (v < 2 ^ 32)
  | .bqCreate fn v => decide (fn < 64) && decide (v < 2 ^ 32)
  | .bqDelete fn v => decide (fn < 64) && decide (v < 2 ^ 32)
  | .sessOpen fn v => decide (fn < 64) && decide (v < 2 ^ 32)
  | .sessClose fn v => decide (fn < 64) && decide (v < 2 ^ 32)
  | .sessReset fn v => decide (fn < 64) && decide (v < 2 ^ 32)
  | .sessTailDoorbell fn v => decide (fn < 64) && decide (v < 2 ^ 32)
  | .augTailDoorbell fn v => decide (fn < 64) && decide (v < 2 ^ 32)
  | .decodePicture sess => decide (sess < 64)
  | .decodePictureDone sess _ => decide (sess < 64)
  | .batchGroupWindowExpiry bq => decide (bq < 512)
  | .batchComplete bq => decide (bq < 512)
  | .bqConsumedPoll bq => decide (bq < 512)
  | .inputEnable fn _ => decide (fn < 64)
  | .inputQuiesce fn => decide (fn < 64)
  | .inputStartDone => true
  | .inputStopDone => true
  | .fusTailWrite fn src v => decide (fn < 64) && decide (src < 32) && decide (v < 2 ^ 32)
  | .fusionTick => true
  | .fusionTickSkipped => true
  | .occupancyPassDone => true
  | .fusionSrcPbLoad fn v => decide (fn < 64) && decide (v < 2 ^ 32)
  | .fusionPbLoad fn v => decide (fn < 64) && decide (v < 2 ^ 32)
  | .fusionResolve fn v => decide (fn < 64) && decide (v < 2 ^ 32)
  | .fusionDroptrk fn v => decide (fn < 64) && decide (v < 2 ^ 32)
  | .fusionRebase fn v => decide (fn < 64) && decide (v < 2 ^ 32)
  | .fusionCalbatch fn v => decide (fn < 64) && decide (v < 2 ^ 32)
  | .fusionCalread fn v => decide (fn < 64) && decide (v < 2 ^ 32)
  | .fusionCalwrite fn v => decide (fn < 64) && decide (v < 2 ^ 32)
  | .fusionEnable fn _ => decide (fn < 64)
  | .fusionQuiesce fn => decide (fn < 64)
  | .fusionReset fn => decide (fn < 64)
  | .fusionStartDone => true
  | .fusionStopDone => true
  | .fusionResidueMismatch => true
  | .fusionThirdMismatch => true
  | .knightTailDoorbell fn v => decide (fn < 64) && decide (v < 2 ^ 32)
  | .knightPlan fn => decide (fn < 64)
  | .knightCheck fn => decide (fn < 64)
  | .knightBatch ctx => decide (ctx < 2)
  | .knightWatchRecheck slot => decide (slot < 4)
  | .knightWatchExpire slot => decide (slot < 4)
  | .knightWatchEndCmd fn v => decide (fn < 64) && decide (v < 2 ^ 32)
  | .clearanceUpdateDone => true
  | .mapcfg fn v => decide (fn < 64) && decide (v < 2 ^ 32)
  | .mapload fn v => decide (fn < 64) && decide (v < 2 ^ 32)
  | .mapsave fn v => decide (fn < 64) && decide (v < 2 ^ 32)
  | .mapclear fn v => decide (fn < 64) && decide (v < 2 ^ 32)
  | .kntUnkobsWrite fn v => decide (fn < 64) && decide (v < 2 ^ 32)
  | .knightEnable fn _ => decide (fn < 64)
  | .knightQuiesce fn => decide (fn < 64)
  | .knightReset fn => decide (fn < 64)
  | .knightStartDone => true
  | .knightStopDone => true
  | .knightResidueMismatch ctx => decide (ctx < 2)
  | .knightThirdMismatch => true
  | .solverTailDoorbell fn v => decide (fn < 64) && decide (v < 2 ^ 32)
  | .solverSolve fn => decide (fn ≤ 64)
  | .solverReplay fn => decide (fn < 64)
  | .solverPanel ctx => decide (ctx < 2)
  | .solverBudgetExpiry ctx => decide (ctx < 2)
  | .solverProblemComplete ctx => decide (ctx < 2)
  | .solverEnable fn _ => decide (fn < 64)
  | .solverQuiesce fn => decide (fn < 64)
  | .solverReset fn => decide (fn < 64)
  | .solverStartDone => true
  | .solverStopDone => true
  | .solverResidueMismatch ctx => decide (ctx < 2)
  | .solverThirdMismatch => true
  | .tempoSampleInstant loop => decide (loop < 4)
  | .tempoCompute loop => decide (loop < 4)
  | .tempoRttExpiry loop => decide (loop < 4)
  | .tempoOverrun loop => decide (loop < 4)
  | .tempoMissmax loop => decide (loop < 4)
  | .tempoMbxStale loop => decide (loop < 4)
  | .tempoMailboxStore fn _ _ => decide (fn < 64)
  | .tempoMailboxCommit fn v => decide (fn < 64) && decide (v < 2 ^ 32)
  | .tempoLoad fn v => decide (fn < 64) && decide (v < 2 ^ 32)
  | .tempoStart fn v => decide (fn < 64) && decide (v < 2 ^ 32)
  | .tempoStop fn v => decide (fn < 64) && decide (v < 2 ^ 32)
  | .tempoSelectPrimary fn v => decide (fn < 64) && decide (v < 2 ^ 32)
  | .tempoSelectSafe fn v => decide (fn < 64) && decide (v < 2 ^ 32)
  | .tempoInject fn v => decide (fn < 64) && decide (v < 2 ^ 32)
  | .tempoInjstop fn v => decide (fn < 64) && decide (v < 2 ^ 32)
  | .tempoInjectionEnd loop => decide (loop < 4)
  | .tempoCapstart fn v => decide (fn < 64) && decide (v < 2 ^ 32)
  | .tempoCapstop fn v => decide (fn < 64) && decide (v < 2 ^ 32)
  | .tempoUnload fn v => decide (fn < 64) && decide (v < 2 ^ 32)
  | .tempoCheckerMismatch loop _ => decide (loop < 4)
  | .tempoThirdMismatch => true
  | .tempoEnable fn _ => decide (fn < 64)
  | .tempoQuiesce fn => decide (fn < 64)
  | .tempoReset fn => decide (fn < 64)
  | .tempoStartDone => true
  | .tempoStopDone => true
  | .ringCyclicLaunch => true
  | .ringCopyReturn port _ _ => decide (port < 2)
  | .ringMergeDeadline => true
  | .ringNodeFrame inPort _ _ => decide (inPort < 2)
  | .ringLinkDown port => decide (port < 2)
  | .ringLinkUpSettled port => decide (port < 2)
  | .ringModeWrite fn v => decide (fn < 64) && decide (v < 2 ^ 32)
  | .ringLoad fn v => decide (fn < 64) && decide (v < 2 ^ 32)
  | .ringAcyc fn v => decide (fn < 64) && decide (v < 2 ^ 32)
  | .ringAcycReturn _ => true
  | .ringWakeFrame inPort _ => decide (inPort < 2)
  | .ringEnable fn _ => decide (fn < 64)
  | .ringQuiesce fn => decide (fn < 64)
  | .ringStartDone => true
  | .timebaseTick => true
  | .tmbTimeLoRead fn => decide (fn < 64)
  | .timebaseStep fn v => decide (fn < 64) && decide (v < 2 ^ 32)
  | .timebaseOffset src _ => (src == 1 || src == 2)
  | .timebaseSourceQualified src => (src == 1 || src == 2)
  | .timebaseSourceLost => true
  | .triggerFire trg => decide (trg < 16)
  | .captureEdge cap _ => decide (cap < 16)
  | .tmbCapLoRead fn cap => decide (fn < 64) && decide (cap < 16)
  | .timebaseAlarm => true
  | .alarmArm fn v => decide (fn < 64) && decide (v < 2 ^ 32)
  | .ethPbLoad fn port v => decide (fn < 64) && decide (port < 2) && decide (v < 2 ^ 32)
  | .ethTxDoorbell fn port v => decide (fn < 64) && decide (port < 2) && decide (v < 2 ^ 32)
  | .ethRxDoorbell fn port v => decide (fn < 64) && decide (port < 2) && decide (v < 2 ^ 32)
  | .ethTxComplete port => decide (port < 2)
  | .ethFrameRx port _ _ => decide (port < 2)
  | .ethMagicPacket port _ => decide (port < 2)
  | .powerGrant fn v => decide (fn < 64) && decide (v < 2 ^ 32)
  | .kboundRestore => true
  | .grantInForce => true
  | .fractionCommit fn v => decide (fn < 64) && decide (v < 2 ^ 32)
  | .powerEvaluation _ => true
  | .powerGuard _ => true
  | .powerRefit => true
  | .droop file => decide (file < 16)
  | .oppChangeDone => true
  | .thermalLimit _ _ => true
  | .thermalRelease => true
  | .thermalTrip => true
  | .inputBrownout => true
  | .powerReqActive fn v => decide (fn < 64) && decide (v < 2 ^ 32)
  | .powerReqHold fn v => decide (fn < 64) && decide (v < 2 ^ 32)
  | .powerReqSleep fn v => decide (fn < 64) && decide (v < 2 ^ 32)
  | .powerReqOff fn v => decide (fn < 64) && decide (v < 2 ^ 32)
  | .holdDrainExpiry => true
  | .entryStepDone => true
  | .wakeEv src => decide (src < 9)
  | .exitStageReady => true
  | .gpioWake pin => decide (pin < 48)
  | .coldBoot => true
  | .bootStageReady _ => true
  | .warmReset fn v => decide (fn < 64) && decide (v < 2 ^ 32)
  | .warmResetPin => true
  | .boardReset fn v => decide (fn < 64) && decide (v < 2 ^ 32)
  | .computeReset fn v => decide (fn < 64) && decide (v < 2 ^ 32)
  | .bistCmd fn v => decide (fn < 64) && decide (v < 2 ^ 32)
  | .bistDone _ => true
  | .replayEnter fn v => decide (fn < 64) && decide (v < 2 ^ 32)
  | .replayExit fn v => decide (fn < 64) && decide (v < 2 ^ 32)
  | .resetStepDone => true
  | .arbiterRestart => true
  | .challenge fn v => decide (fn < 64) && decide (v < 2 ^ 32)
  | .challengeLapse fn => decide (fn < 64)
  | .tokenCmd fn v => decide (fn < 64) && decide (v < 2 ^ 32)
  | .attest fn v => decide (fn < 64) && decide (v < 2 ^ 32)
  | .certread fn v => decide (fn < 64) && decide (v < 2 ^ 32)
  | .updateCmd fn v => decide (fn < 64) && decide (v < 2 ^ 32)
  | .arbcommit fn v => decide (fn < 64) && decide (v < 2 ^ 32)
  | .lockdown fn v => decide (fn < 64) && decide (v < 2 ^ 32)
  | .debugEnd fn v => decide (fn < 64) && decide (v < 2 ^ 32)
  | .debugExpiry => true
  | .keygen fn v => decide (fn < 64) && decide (v < 2 ^ 32)
  | .signCmd fn v => decide (fn < 64) && decide (v < 2 ^ 32)
  | .trngHealthFail _ => true
  | .backoffEnd => true
  | .rcvStart fn v => decide (fn < 64) && decide (v < 2 ^ 32)
  | .rcvChunk fn v => decide (fn < 64) && decide (v < 2 ^ 32)
  | .rcvWindowWrite fn _ v => decide (fn < 64) && decide (v < 2 ^ 32)
  | .arbMbxGo fn v => decide (fn < 64) && decide (v < 2 ^ 32)
  | .hello fn => decide (fn < 64)
  | .releaseOwn fn => decide (fn < 64)
  | .configWrite fn => decide (fn < 64)
  | .configTakeEffect => true
  | .configRead fn => decide (fn < 64)
  | .sensors fn => decide (fn < 64)
  | .logRead fn => decide (fn < 64)
  | .arbSensorScan _ => true
  | .mctpMessage _ => true
  | .pcieLinkDown port => decide (port < 4)
  | .pcieLinkUp port _ _ => decide (port < 4)
  | .hostLost port => decide (port < 4)
  | .graceExpiry port => decide (port < 4)
  | .imageLoad fn v => decide (fn < 64) && decide (v < 2 ^ 32)
  | .imageUnload fn v => decide (fn < 64) && decide (v < 2 ^ 32)
  | .imageUnloadDone fn _ => decide (fn < 64)
  | .imageReplace fn v => decide (fn < 64) && decide (v < 2 ^ 32)
  | .imageReplaceDone fn _ => decide (fn < 64)
  | .perTailDoorbell fn v => decide (fn < 64) && decide (v < 2 ^ 32)
  | .perWrite ctrl => decide (ctrl < 14)
  | .perRead ctrl _ => decide (ctrl < 14)
  | .perWriteRead ctrl _ => decide (ctrl < 14)
  | .perTimeout ctrl => decide (ctrl < 14)
  | .peripheralComplete ctrl => decide (ctrl < 14)
  | .arbiterRestartDone => true
  | .ringLinkUp port => decide (port < 2)
  | .ethLinkUp port _ => decide (port < 2)
  | .ethLinkDown port => decide (port < 2)
  | .csiPortStateChange port _ => decide (port < 4)
  | .vinBelow5v => true
  | .warmResetNAssert => true
  | .dispatcherCoreFault core => decide (core < 8)
  | .updatePassDone _ => true
  | .rcvChunkProgrammed _ => true
  | .memRetrainDone _ => true
  | .ringStopDone => true

end Sys2Proof
end

