-- ==== Sys2Proof/Tests/Slice0.lean ====
section
/-! SUPPORT. Witnesses of the statements' hypotheses, what ill-formed commands are refused for, and small tests of single steps. -/

set_option maxRecDepth 20000

-- The kernel checks run one at a time, which keeps the memory they take in bounds.
set_option Elab.async false

namespace Sys2Proof.Tests

open Sys2Proof Sys2Proof.Machine

/-! ## States -/

/-- READY, with function 0 the owner, functions 0 and 16 past their HELLO, and the memory ON. Sixteen pages of function 0 from address 0
on are locked translations to the same addresses of device memory, in its first extent. -/
def up : State :=
  let s := (((State.reset.setF 0 Fld.DEV_BOOT_STAGE 7).setF 0 Fld.DEV_OWN_STATE 1).setPageSt 0x07 stOn).setF 0 Fld.MMU_ROOT_LO_EN 1
  let s1 := (s.setFlag 0 Fld.MMU_EXTn_BASE_VALID true).setF 0 Fld.MMU_EXTn_LIMIT_UNIT 1
  let l := (List.range 16).map fun i => (tlbKey 0 (4096 * i), { tier := 0, frame := 4096 * i, shift := 12, r := true, w := true : Xlat })
  { s1 with hello := [(0, 1), (16, 1)], mem := { s1.mem with locked := l } }

/-- A job of function 0, started. -/
def job0 : Job := { st := .started }

/-- One group of one laneset runs on square 0, with lanes 0 of mask `m` active, at the instruction `w` and the word after it; the
registers r2, r6 and r8 of lane 0 hold 3, 5 and 0x1000. -/
def isaM (m : Nat) (w lit : Nat) : State :=
  let ls : Laneset := { mask := BitVec.ofNat 32 m, regs := [(2, 3#32), (6, 5#32), (8, 0x1000#32)], uregs := [(1, 64#32)] }
  let x : Group := { size := 32768, nreg := 32, nls := 1, lanesets := [(0, ls)] }
  let s := ((up.setPageSt 0x20 stOn).setSqSt 0 sqRunning).storeWrite 0 (textOff 1) (leBytes 8 w ++ leBytes 8 lit)
  { s with groups := [(0, x)], nextGroup := 1, jobs := [(0, job0)], nextJob := 1 }

def isa (w : Nat) : State := isaM 1 w 0

/-- An instruction of Format R under p7, with fields D, A, B, C, TY, RM and PD. -/
def fmtR (op d a b c ty rm pd : Nat) : Nat :=
  op * 2 ^ 54 + 7 * 2 ^ 51 + d * 2 ^ 42 + a * 2 ^ 34 + b * 2 ^ 26 + c * 2 ^ 18 + ty * 2 ^ 14 + rm * 2 ^ 11 + pd * 2 ^ 8

/-- Opcode and bits [49:0] of any format under p7. -/
def fmtX (op low : Nat) : Nat := op * 2 ^ 54 + 7 * 2 ^ 51 + low

/-- A range of a store reads without an event. -/
def soundB (s : State) (sq off n : Nat) : Bool :=
  (s.mem.storeErrs.filter fun e => (storeWords sq off n).contains e.1).isEmpty && !s.storePoisoned sq off n

theorem sound_ok {s : State} {sq off n : Nat} (h : soundB s sq off n = true) : Sound s sq off n := by
  simpa [soundB, Sound] using h

/-- A text word can be fetched. -/
def fetchB (s : State) (c : Ctx) (pc : Nat) : Bool :=
  decide (textOff c.x.nls + 8 * pc + 8 ≤ c.x.size) && soundB s c.x.square (c.x.textAt pc) 8

theorem fetch_ok {s : State} {c : Ctx} {pc : Nat} (h : fetchB s c pc = true) : Fetches s c pc := by
  simp only [fetchB, Bool.and_eq_true, decide_eq_true_eq] at h
  exact ⟨h.1, sound_ok h.2⟩

/-- Laneset 0 of group 0 stands at an instruction of an opcode, a word follows it, and `f` holds of it. -/
def at' (s : State) (op : Nat) (f : Ctx → Bool) : Bool :=
  match s.ctx 0 0 with
  | some c => fetchB s c c.ls.pc && fetchB s c (c.ls.pc + 1) && fOP c.w == op && f c
  | none => false

theorem at_ok {s : State} {op : Nat} {f : Ctx → Bool} (h : at' s op f = true) :
    ∃ c, AtInsn s 0 0 op c ∧ Fetches s c (c.ls.pc + 1) ∧ f c = true := by
  unfold at' at h
  split at h
  · rename_i c hc
    simp only [Bool.and_eq_true, beq_iff_eq] at h
    exact ⟨c, ⟨hc, fetch_ok h.1.1.1, h.1.2⟩, fetch_ok h.1.1.2, h.2⟩
  · cases h

/-- The register fields are in order. -/
def fieldsB (c : Ctx) (srcs : List Reg) (d : Reg) : Bool :=
  (srcs ++ [d]).all (fun r => !r.badField && !r.badReg c.x.nreg) && (!d.u || srcs.all fun r => r.u || r.none?)

theorem fields_ok {s : State} {c : Ctx} {srcs : List Reg} {d : Reg} (hl : Fetches s c (c.ls.pc + 1))
    (h : fieldsB c srcs d = true) : FieldsOk s c srcs d := by
  simp only [fieldsB, Bool.and_eq_true, List.all_eq_true, Bool.not_eq_true', Bool.or_eq_true] at h
  exact ⟨h.1, fun hd r hr => h.2.resolve_left (by simp [hd]) r hr, fun _ => hl⟩

/-- What `RegInsn` asks of a state, but for its last premise. -/
def regB (w op : Nat) (ty : Ty → Bool) (rmMax : Nat) (srcs : Ctx → Ty → List Reg) (n : Ty → Nat) (pre : Ctx → Ty → Bool) : Bool :=
  at' (isa w) op fun c => match tyOf (fTY c.w) with
    | some t => ty t && decide (fRM c.w ≤ rmMax) && bits c.w 3 0 == 0 && fieldsB c (srcs c t) (c.rD (n t)) && pre c t
    | none => false

theorem reg_ok {w op : Nat} {ty : Ty → Bool} {rmMax : Nat} {srcs : Ctx → Ty → List Reg} {n : Ty → Nat} {pre : Ctx → Ty → Bool}
    (h : regB w op ty rmMax srcs n pre = true) : ∃ c t, AtInsn (isa w) 0 0 op c ∧ tyOf (fTY c.w) = some t ∧ ty t = true ∧
      fRM c.w ≤ rmMax ∧ bits c.w 3 0 = 0 ∧ FieldsOk (isa w) c (srcs c t) (c.rD (n t)) ∧ pre c t = true := by
  obtain ⟨c, hc, hl, h⟩ := at_ok h
  split at h
  · rename_i t ht
    simp only [Bool.and_eq_true, decide_eq_true_eq, beq_iff_eq] at h
    exact ⟨c, t, hc, ht, h.1.1.1.1, h.1.1.1.2, h.1.1.2, fields_ok hl h.1.2, h.2⟩
  · cases h

/-- Of integer instructions of two sources, of one, and of three: r4 := r2, r6 under a type code. -/
def int2B (ty : Nat) (op : Nat) : Bool :=
  regB (fmtR op 4 2 6 0 ty 0 0) op Ty.isInt 3 (fun c t => [c.rA t.regs, c.rB t.regs]) Ty.regs fun _ _ => true
def fp2B (op : Nat) : Bool := regB (fmtR op 4 2 6 0 0 0 0) op fpTy 3 (fun c _ => [c.rA 1, c.rB 1]) (fun _ => 1) fun _ _ => true
def fp1B (op : Nat) : Bool := regB (fmtR op 4 2 6 0 0 0 0) op fp32Ty 3 (fun c _ => [c.rA 1]) (fun _ => 1) fun _ _ => true
def immB (op : Nat) : Bool := at' (isa (fmtX op (4 * 2 ^ 42 + 2 * 2 ^ 34 + 7))) op fun c => fieldsB c [c.iA] c.iD

/-! ## Instructions: witnesses of the hypotheses -/

/-- Where field A names the literal word, every lane reads it. -/
theorem read_literal {c : Ctx} {r : Reg} (hn : r.none? = true) (h1 : r.n = 1) (lane : Nat) : c.read lane r = c.lit % 2 ^ 32 := by
  simp [Ctx.read, hn, h1]

theorem witness_integerTwoSources : ∀ op ∈ [0x008, 0x00A, 0x00B, 0x00C, 0x00E, 0x00F, 0x010, 0x011, 0x018, 0x019, 0x01A, 0x020, 0x021,
    0x022, 0x02B], int2B 11 op = true ∧ int2B 14 op = true := by decide +kernel

theorem witness_integerThreeSources : ∀ op ∈ [0x00D, 0x02C], regB (fmtR op 4 2 6 8 12 0 0) op Ty.isInt 3
    (fun c t => [c.rA t.regs, c.rB t.regs, c.rC t.regs]) Ty.regs (fun _ _ => true) = true := by decide +kernel

theorem witness_absNeg : ∀ op ∈ [0x012, 0x013], ∃ c t, AtInsn (isaM 1 (fmtR op 4 255 0 0 11 0 0) 9) 0 0 op c ∧
    tyOf (fTY c.w) = some t ∧ t.isInt = true ∧ fRM c.w ≤ 3 ∧ bits c.w 3 0 = 0 ∧
      FieldsOk (isaM 1 (fmtR op 4 255 0 0 11 0 0) 9) c [c.rA t.regs] (c.rD t.regs) ∧
    (∀ lane, ((t.toInt (c.read lane (c.rA t.regs))).natAbs : Int) ≤ t.intRange.2) ∧
    (∀ lane, t.intRange.1 ≤ -t.toInt (c.read lane (c.rA t.regs)) ∧ -t.toInt (c.read lane (c.rA t.regs)) ≤ t.intRange.2) := by
  intro op hop
  have h : ∀ op ∈ [0x012, 0x013], at' (isaM 1 (fmtR op 4 255 0 0 11 0 0) 9) op (fun c => tyOf (fTY c.w) == some .s32 &&
      decide (fRM c.w ≤ 3) && bits c.w 3 0 == 0 && fieldsB c [c.rA 1] (c.rD 1) && (c.rA 1).none? && c.lit == 9) = true := by
    decide +kernel
  obtain ⟨c, hc, hw, hf⟩ := at_ok (h op hop)
  simp only [Bool.and_eq_true, decide_eq_true_eq, beq_iff_eq] at hf
  obtain ⟨⟨⟨⟨⟨ht, hr⟩, hb⟩, hF⟩, hn⟩, hl⟩ := hf
  refine ⟨c, .s32, hc, ht, rfl, hr, hb, fields_ok hw hF, fun lane => ?_, fun lane => ?_⟩
  · rw [show Ty.s32.regs = 1 from rfl, read_literal hn rfl, hl]; decide
  · rw [show Ty.s32.regs = 1 from rfl, read_literal hn rfl, hl]; decide

theorem witness_integerOneSource : ∀ op ∈ [0x01B, 0x028, 0x029, 0x02A], regB (fmtR op 4 2 0 0 12 0 0) op Ty.isInt 3
    (fun c t => [c.rA t.regs]) Ty.regs (fun _ _ => true) = true := by decide +kernel

theorem witness_immediates : ∀ op ∈ [0x009, 0x01C, 0x01D, 0x01E, 0x023, 0x024, 0x025, 0x089, 0x08A], immB op = true := by decide +kernel

theorem witness_moves :
    regB (fmtR 0x001 4 2 0 0 14 0 0) 0x001 (fun _ => true) 3 (fun c t => [c.rA t.regs]) Ty.regs (fun _ _ => true) = true ∧
    at' (isa (fmtX 0x002 (4 * 2 ^ 42 + 7))) 0x002 (fun c => fieldsB c [] c.iD) = true ∧
    regB (fmtR 0x003 4 2 6 0 12 0 3) 0x003 (fun _ => true) 3 (fun c t => [c.rA t.regs, c.rB t.regs]) Ty.regs (fun _ _ => true) = true ∧
    regB (fmtR 0x039 4 0 0 0 0 0 0) 0x039 (fun _ => true) 3 (fun _ _ => []) (fun _ => 1) (fun _ _ => true) = true ∧
    (∀ k ∈ [0, 0x17], regB (fmtR 0x048 4 k 0 0 0 0 0) 0x048 (fun _ => true) 3 (fun _ _ => []) (fun _ => 1)
      (fun c _ => decide (fA c.w ≤ 0x17)) = true) ∧
    at' (isa (fmtR 0x048 4 0x18 0 0 0 0 0)) 0x048 (fun c => decide (0x17 < fA c.w) && fTY c.w != 15 && decide (fRM c.w ≤ 3) &&
      bits c.w 3 0 == 0 && !(c.rD 1).badField && c.lanes != []) = true ∧
    (∀ op ∈ [0x049, 0x04A], regB (fmtR op 4 0 0 0 0 0 0) op (fun _ => true) 3 (fun _ _ => []) (fun _ => 2) (fun _ _ => true) = true) ∧
    at' (isa (fmtR 0x04B 63 2 0 0 0 0 0)) 0x04B (fun c => decide (fRM c.w ≤ 3) && bits c.w 3 0 == 0 && fTY c.w != 15 &&
      decide (fD c.w < 64) && !(c.rA 1).badField && !(c.rA 1).badReg c.x.nreg && c.lanes == [0]) = true := by decide +kernel

theorem witness_laneExchange :
    (∀ op ∈ [0x040, 0x041], regB (fmtR op 4 2 6 0 14 0 0) op (fun _ => true) 3 (fun c t => [c.rA t.regs, c.rB 1]) Ty.regs
      (fun _ _ => true) = true) ∧
    regB (fmtR 0x044 4 3 0 0 0 0 0) 0x044 (fun _ => true) 3 (fun _ _ => []) (fun _ => 1) (fun _ _ => true) = true ∧
    (∀ k ∈ [0, 1, 2], regB (fmtR 0x045 4 2 0 k 11 0 0) 0x045 Ty.isInt 3 (fun c t => [c.rA t.regs]) Ty.regs (fun c t =>
      let v := redux (fC c.w % 4) (c.lanes.map fun k => t.toInt (c.read k (c.rA t.regs)))
      !c.lanes.isEmpty && fC c.w % 4 != 3 && decide (t.intRange.1 ≤ v) && decide (v ≤ t.intRange.2)) = true) := by decide +kernel

theorem witness_predicates :
    (∀ k ∈ [0, 5], at' (isa (fmtR 0x030 0 2 6 k 11 0 2)) 0x030 (fun c => tyOf (fTY c.w) == some .s32 && decide (fRM c.w ≤ 3) &&
      bits c.w 3 0 == 0 && [c.rA 1, c.rB 1].all (fun r => !r.badField && !r.badReg c.x.nreg) && decide (fC c.w % 8 < 6)) = true) ∧
    at' (isa (fmtR 0x088 0 2 6 7 0 0 2)) 0x088 (fun c => fTY c.w == 0 && decide (fRM c.w ≤ 3) && bits c.w 3 0 == 0 &&
      [c.rA 1, c.rB 1].all (fun r => !r.badField && !r.badReg c.x.nreg)) = true ∧
    (∀ op ∈ [0x038, 0x042, 0x043, 0x03A], at' (isa (fmtR op 0 2 6 0 0 0 2)) op (fun c => decide (fRM c.w ≤ 3) && bits c.w 3 0 == 0 &&
      fTY c.w != 15 && !(c.rA 1).badField && !(c.rA 1).badReg c.x.nreg) = true) := by decide +kernel

theorem witness_floating :
    (∀ op ∈ [0x080, 0x081, 0x082, 0x084, 0x085], fp2B op = true) ∧
    regB (fmtR 0x083 4 2 6 2 0 3 0) 0x083 fpTy 3 (fun c _ => [c.rA 1, c.rB 1, c.rC 1]) (fun _ => 1) (fun _ t => t == .fp32) = true ∧
    (∀ op ∈ [0x086, 0x087], regB (fmtR op 4 2 0 0 1 0 0) op fpTy 3 (fun c _ => [c.rA 1]) (fun _ => 1) (fun _ _ => true) = true) ∧
    (∀ op ∈ [0x090, 0x091, 0x092, 0x093, 0x094, 0x095, 0x096, 0x097], fp1B op = true) ∧
    (∀ op ∈ [0x098, 0x099], regB (fmtR op 4 2 6 0 0 0 0) op fp32Ty 3 (fun c _ => [c.rA 1, c.rB 1]) (fun _ => 1)
      (fun _ _ => true) = true) := by decide +kernel

theorem witness_specialValues : fpVal 0x7FC00000 = .nan ∧ fpVal 0x7F800000 = .inf false ∧ fpVal 0xFF800000 = .inf true ∧
    (∃ e, fpVal 0 = .fin false 0 e) ∧ (∃ e, fpVal 0x80000000 = .fin true 0 e) ∧
    (∃ m e, fpVal 0xBF800000 = .fin true (m + 1) e) := by
  refine ⟨by decide +kernel, by decide +kernel, by decide +kernel, ⟨_, rfl⟩, ⟨_, rfl⟩, ⟨2 ^ 23 - 1, _, rfl⟩⟩

theorem witness_conversions :
    regB (fmtR 0x100 4 2 0 11 0 3 0) 0x100 (fun _ => true) 3 (fun c _ => [c.rA Ty.s32.regs]) Ty.regs
      (fun c t => tyOf (fC c.w % 16) == some .s32 && !(Ty.s32.pair && t.pair)) = true ∧
    regB (fmtR 0x101 4 2 6 0 3 0 0) 0x101 slotTy 3 (fun c t => [c.rA t.regs, c.rB t.regs]) Ty.regs
      (fun c t => !(c.rD t.regs).none?) = true ∧
    regB (fmtR 0x102 4 2 6 0 3 0 0) 0x102 slotTy 3 (fun c t => [c.rA t.regs, c.rB t.regs]) Ty.regs (fun _ _ => true) = true := by
  decide +kernel

theorem witness_loadsAndStores :
    (∀ sz ∈ [0, 2], at' (isa (fmtX 0x140 (4 * 2 ^ 42 + 8 * 2 ^ 34 + sz * 2 ^ 29))) 0x140 (fun c =>
      !badM c.w (regAM c.w false) (regDM c.w) true && c.firstBad [regAM c.w false, regDM c.w] == none &&
      (c.storeAddrs (c.runLanes (fDUi c.w))).all fun e => e.2 % szBytes (fSZ c.w) == 0 && c.x.holds e.2 (szBytes (fSZ c.w)) &&
        soundB (isa 0) c.x.square (c.x.base + e.2) (szBytes (fSZ c.w))) = true) ∧
    (∀ sz ∈ [0, 2], at' (isa (fmtX 0x141 (4 * 2 ^ 42 + 8 * 2 ^ 34 + sz * 2 ^ 29))) 0x141 (fun c =>
      !badM c.w (regAM c.w false) (regDM c.w) false && c.firstBad [regAM c.w false, regDM c.w] == none &&
      (c.storeAddrs (c.runLanes (fDUi c.w))).all fun e => e.2 % szBytes (fSZ c.w) == 0 && c.x.data e.2 (szBytes (fSZ c.w))) = true) ∧
    (∀ sz ∈ [0, 2], at' (isa (fmtX 0x142 (4 * 2 ^ 42 + 8 * 2 ^ 34 + sz * 2 ^ 29))) 0x142 (fun c =>
      !badM c.w (regAM c.w true) (regDM c.w) true && c.firstBad [regAM c.w true, regDM c.w] == none &&
      (c.globalAddrs (c.runLanes (fDUi c.w))).all fun e => e.2 % szBytes (fSZ c.w) == 0 &&
        (isa 0).vaFail ((isa 0).ctxFn c) e.2 (szBytes (fSZ c.w)) == none && !(isa 0).inTraining ((isa 0).ctxFn c) e.2 .read) = true) ∧
    (∀ sz ∈ [0, 2], at' (isa (fmtX 0x143 (4 * 2 ^ 42 + 8 * 2 ^ 34 + sz * 2 ^ 29))) 0x143 (fun c =>
      !badM c.w (regAM c.w true) (regDM c.w) false && c.firstBad [regAM c.w true, regDM c.w] == none &&
      (c.globalAddrs (c.runLanes (fDUi c.w))).all fun e => e.2 % szBytes (fSZ c.w) == 0 &&
        (isa 0).vaFailW ((isa 0).ctxFn c) e.2 .write == none && !(isa 0).inTraining ((isa 0).ctxFn c) e.2 .write) = true) := by
  decide +kernel

theorem witness_atomics :
    (∀ rm ∈ [0, 7], at' (isa (fmtR 0x148 4 8 6 2 12 rm 0)) 0x148 (fun c => tyOf (fTY c.w) == some .u32 &&
      !atomBad c.w .u32 false && c.firstBad ((atomRegs c.w .u32 false).1 :: atomSrcs c.w .u32 false) == none &&
      c.runLanes (fDU c.w) == [0] && c.read 0 (c.rA 1) % 4 == 0 && c.x.data (c.read 0 (c.rA 1)) 4 &&
      soundB (isa 0) c.x.square (c.x.base + c.read 0 (c.rA 1)) 4) = true) ∧
    (∀ rm ∈ [0, 7], at' (isa (fmtR 0x149 4 8 6 2 12 rm 0)) 0x149 (fun c => tyOf (fTY c.w) == some .u32 &&
      !atomBad c.w .u32 true && c.firstBad ((atomRegs c.w .u32 true).1 :: atomSrcs c.w .u32 true) == none &&
      (c.runLanes (fDU c.w)).all fun k => c.read k (atomRegs c.w .u32 true).2.1 % 4 == 0 &&
        (isa 0).atgFail ((isa 0).ctxFn c) (c.read k (atomRegs c.w .u32 true).2.1) 4 == none &&
        !(isa 0).inTraining ((isa 0).ctxFn c) (c.read k (atomRegs c.w .u32 true).2.1) .atomic) = true) ∧
    (∀ gs ∈ [0, 8], at' (isa (fmtR 0x203 0 8 6 0 0 0 0 + gs)) 0x203 (fun c => bits c.w 25 14 == 0 && bits c.w 2 0 == 0 &&
      fRM c.w ≤ 3 && !(semRegs c.w).1.badField && !(semRegs c.w).2.badField && !fDU c.w &&
      c.firstBad [(semRegs c.w).1, (semRegs c.w).2] == none && bit c.w 3 == (gs == 8) && c.runLanes (fDU c.w) == [0] &&
      if bit c.w 3 then (isa 0).semFault c true (c.read 0 (semRegs c.w).1) == none &&
          !(isa 0).inTraining ((isa 0).ctxFn c) (c.read 0 (semRegs c.w).1) .write
        else c.read 0 (semRegs c.w).1 % 4 == 0 && c.x.data (c.read 0 (semRegs c.w).1) 4 &&
          soundB (isa 0) c.x.square (c.x.base + c.read 0 (semRegs c.w).1) 4) = true) := by decide +kernel

/-- A SEMW of TMO 1 on the word at r8, whose value is 0, against register `b`. -/
def semwAt (b : Nat) : Nat := fmtR 0x202 0 8 b 0 1 0 2

theorem witness_semaphoreWait :
    (∀ b ∈ [7, 6], at' (isa (semwAt b)) 0x202 (fun c => !semwBad c.w && c.lanes == [0] &&
      c.firstBad [(semRegs c.w).1, (semRegs c.w).2] == none &&
      (isa 0).semFault c false (c.read 0 (semRegs c.w).1) == none && !bit c.w 3 &&
      soundB (isa 0) c.x.square (c.x.base + c.read 0 (semRegs c.w).1) 4 &&
      (decide (sub32 ((isa 0).semWord c (c.read 0 (semRegs c.w).1)) (c.read 0 (semRegs c.w).2) < 2 ^ 31) == (b == 7))) = true) ∧
    at' (isa (semwAt 6 + 8)) 0x202 (fun c => !semwBad c.w && bit c.w 3 && (isa 0).semFault c false (c.read 0 (semRegs c.w).1) == none &&
      !(isa 0).inTraining ((isa 0).ctxFn c) (c.read 0 (semRegs c.w).1) .read) = true ∧
    (let s := isa (semwAt 6)
     let t := { s with ticks := 100, groups := s.groups.map fun (e : Nat × Group) =>
      (e.1, { e.2 with lanesets := e.2.lanesets.map fun (l : Nat × Laneset) => (l.1, { l.2 with sem := some 0 }) }) }
     at' t 0x202 (fun c => c.ls.sem == some 0 && decide (bits c.w 25 14 * 8 * 250 ≤
      t.fileCyc (sqFile c.x.square) - 0)) = true) := by decide +kernel

/-! ## Engines, control flow and barriers -/

/-- A state with its laneset changed, and with its square changed. -/
def withLs (s : State) (f : Laneset → Laneset) : State :=
  { s with groups := s.groups.map fun (e : Nat × Group) =>
      (e.1, { e.2 with lanesets := e.2.lanesets.map fun (l : Nat × Laneset) => (l.1, f l.2) }) }
def withSq (s : State) (f : Square → Square) : State := s.setSquare 0 (f (s.square 0))

/-- Operand word with SCM 1 in u2. -/
def isaU (w : Nat) : State := withLs (isa w) fun ls => ls.setUreg 2 (2 ^ 28)

def mmaB (s : State) (op : Nat) (sparse : Bool) : Bool := at' s op fun c =>
  let fa := bits c.w 45 42
  let fb := bits c.w 41 38
  let a := c.ls.ureg (bits c.w 37 32)
  let b := c.ls.ureg (bits c.w 31 26)
  c.lanes == [0] && decide ((s.square c.x.square).queue.length < 16) && (s.square c.x.square).lease == none &&
    bits c.w 25 0 == 0 && mmaFmtOk sparse fa && mmaFmtOk sparse fb && fmtInt fa == fmtInt fb && scmOk fa (opSCM a) &&
    scmOk fb (opSCM b) && bits a 31 30 == 0 && bits b 31 30 == 0

theorem witness_engineInstructions :
    (∀ f ∈ [1, 2, 9, 10], mmaB (isa (fmtX 0x1C0 (f * 2 ^ 42 + f * 2 ^ 38))) 0x1C0 false = true) ∧
    (∀ f ∈ [3, 4, 7], mmaB (isaU (fmtX 0x1C1 (f * 2 ^ 42 + f * 2 ^ 38 + 2 * 2 ^ 32 + 2 * 2 ^ 26))) 0x1C1 true = true) ∧
    at' (isa (fmtX 0x1C2 (7 * 2 ^ 47 + 2 ^ 46 + 1 * 2 ^ 32))) 0x1C2 (fun c => bits c.w 45 38 == 0 && bits c.w 31 0 == 0) = true ∧
    at' (isa (fmtX 0x1E0 (7 * 2 ^ 47 + 1 * 2 ^ 23))) 0x1E0 (fun c => !drnBad c.w) = true := by decide +kernel

theorem witness_moverTickets :
    let done := fun (s : State) => withSq s fun x => x.setMover 0 { seq := 1, done := 1, statuses := [(0, 0)] }
    let open' := fun (s : State) => withSq s fun x => x.setMover 0 { seq := 1 }
    let stOf := fun (s : State) (c : Ctx) => (s.square c.x.square).ticket (c.ls.ureg (bits c.w 47 42))
    (∀ mv ∈ [0, 1], at' (isa (fmtX 0x1F0 (mv * 2 ^ 49 + 3 * 2 ^ 36))) 0x1F0 (fun c => !bit c.w 48 && bits c.w 35 0 == 0 &&
      c.lanes == [0]) = true) ∧
    at' (done (isa (fmtX 0x1F1 (2 * 2 ^ 36)))) 0x1F1 (fun c => bits c.w 49 48 == 0 && bits c.w 35 0 == 0 &&
      stOf (done (isa 0)) c == .done 0) = true ∧
    at' (open' (isa (fmtX 0x1F1 (2 * 2 ^ 36)))) 0x1F1 (fun c => bits c.w 49 48 == 0 && bits c.w 35 0 == 0 &&
      stOf (open' (isa 0)) c == .waiting) = true ∧
    at' (done (isa (fmtX 0x1F2 (2 * 2 ^ 36 + 3 * 2 ^ 33)))) 0x1F2 (fun c => bits c.w 49 48 == 0 && bits c.w 32 0 == 0 &&
      stOf (done (isa 0)) c == .done 0) = true ∧
    at' (open' (isa (fmtX 0x1F2 (2 * 2 ^ 36 + 3 * 2 ^ 33)))) 0x1F2 (fun c => bits c.w 49 48 == 0 && bits c.w 32 0 == 0 &&
      stOf (open' (isa 0)) c == .waiting) = true ∧
    at' (isa (fmtX 0x1F8 (0xFF * 2 ^ 42 + 2 ^ 41 + 3 * 2 ^ 39))) 0x1F8 (fun c => bits c.w 38 0 == 0 &&
      !((isa 0).square 0).waitsFor 0 (c.ls.waits.getD ((isa 0).square 0).issues) (bits c.w 49 42) (bit c.w 41) (bits c.w 40 39)) = true := by decide +kernel

/-- Entries of the engine queue: a load of accumulator 7 from tile 64, and a drain of accumulator 0 with OPS 4096. -/
def mldE : EngEntry := { op := .mld 7 false 64#32 }
def drnE : EngEntry := { op := .drn 0 0 64#32 4096#32 }

theorem witness_matrixAndGate :
    (let s := withSq (isa 0) fun x => { x with queue := [mldE] }
     nextEntry EngOp.matrixAcc EngOp.drainAcc (s.square 0).queue = some mldE ∧ s.engineOn 0 = true ∧
     ∃ y, s.group 0 = some y ∧ y.square = 0 ∧ y.st = .running ∧ (y.lanesets.any fun e => !e.2.ended) = true ∧
      (∀ r ∈ s.engReads y mldE.op, y.holds r.1 r.2 = true ∧ soundB s 0 (y.base + r.1) r.2 = true) ∧
      ∃ cells, s.matrixCells (s.square 0) y mldE.op = some (7, false, cells)) ∧
    (let s := withSq (isa 0) fun x => { x with queue := [drnE] }
     nextEntry EngOp.drainAcc EngOp.matrixAcc (s.square 0).queue = some drnE ∧
     s.engineOn 0 = true ∧
     ∃ y, s.group 0 = some y ∧ y.square = 0 ∧ (s.square 0).drnBad 0 0 64 = false ∧ s.drnListBad y 0 4096 = false ∧
      s.recMayRun y 0 4096 = true ∧
      (∀ r ∈ s.drnReads y 0 4096 ++ (if opSCM 64 = 2 then [(64 * opSIDE 64 + 64, 4)] else []),
        y.holds r.1 r.2 = true ∧ soundB s 0 (y.base + r.1) r.2 = true) ∧
      ∀ r ∈ s.drnWrites y 0 64 4096, y.data r.1 r.2 = true) := by
  refine ⟨⟨by decide +kernel, by decide +kernel, _, rfl, rfl, rfl, by decide +kernel, by decide +kernel, _, rfl⟩, by decide +kernel,
    by decide +kernel, _, rfl, rfl, by decide +kernel, by decide +kernel, by decide +kernel, by decide +kernel, by decide +kernel⟩

/-- Lane 0 alone holds p1; lanes 0 and 1 are active. -/
def twoLanes (w : Nat) : State := withLs (isaM 3 w 0) fun ls => { ls with preds := [(0, 2#8)] }
/-- Opcode and low bits under p1. -/
def fmtP1 (op low : Nat) : Nat := op * 2 ^ 54 + 1 * 2 ^ 51 + low

theorem witness_controlFlow :
    let good := fun (c : Ctx) => decide (fRM c.w ≤ 3) && bits c.w 3 0 == 0 && fTY c.w != 15
    let all := fun (c : Ctx) => c.lanes.length == c.ls.active.length && !c.lanes.isEmpty
    at' (isa (fmtX 0x000 0)) 0x000 good = true ∧
    at' (withLs (isa (fmtP1 0x240 5)) fun ls => { ls with preds := [] }) 0x240 (fun c => c.lanes == []) = true ∧
    at' (isa (fmtX 0x240 5)) 0x240 all = true ∧
    at' (twoLanes (fmtP1 0x240 (2 ^ 26))) 0x240 (fun c => c.lanes == [0] && c.ls.active == [0, 1] && c.ls.stack == [] &&
      (fRDISP c.w != 0)) = true ∧
    at' (isa (fmtR 0x241 0 2 0 0 0 0 0)) 0x241 (fun c => good c && all c && !(c.rA 1).badField && !(c.rA 1).badReg c.x.nreg &&
      c.ls.active.all fun j => c.read j (c.rA 1) == 3) = true ∧
    at' (isaM 3 (fmtR 0x241 0 2 0 0 0 0 0) 0) 0x241 (fun c => good c && all c && !(c.rA 1).badField && !(c.rA 1).badReg c.x.nreg &&
      c.read 0 (c.rA 1) == 3 && c.read 1 (c.rA 1) == 0 && c.ls.active == [0, 1]) = true ∧
    at' (isa (fmtX 0x242 5)) 0x242 all = true ∧
    at' (withLs (isa (fmtX 0x243 0)) fun ls => { ls with stack := [.ret 9] }) 0x243 (fun c => good c && all c &&
      c.ls.stack == [.ret 9]) = true ∧
    at' (isa (fmtX 0x244 0)) 0x244 (fun c => good c && (c.ls.exited ||| BitVec.ofNat 32 (maskOf c.lanes)) != 0xFFFFFFFF#32) = true ∧
    (∀ i ∈ [0, 6], at' (isa (fmtX 0x201 i)) 0x201 (fun c => c.lanes == [0] && decide (fIMM c.w < 8) && (fIMM c.w % 4 != 3) &&
      !((isa 0).square c.x.square).waitsFor 0 (c.ls.waits.getD ((isa 0).square c.x.square).issues) 0xFF true 3) = true) ∧
    at' (isa (fmtX 0x245 (2 ^ 16 - 1))) 0x245 (fun c => c.lanes == [0] && decide (fIMM c.w < 2 ^ 16)) = true := by decide +kernel

/-- A group of two lanesets, both running. -/
def twoSets (w : Nat) : State :=
  { isaM 0xFFFFFFFF w 0 with groups := (isaM 0xFFFFFFFF w 0).groups.map fun (e : Nat × Group) =>
      (e.1, { e.2 with lanesets := e.2.lanesets ++ [(1, {})], nls := 2 }) }

theorem witness_barriers :
    (let s := (twoSets 0).storeWrite 0 (textOff 2) (leBytes 8 (fmtX 0x200 (2 * 4 + 3)))
     at' s 0x200 (fun c => !c.lanes.isEmpty && decide (fIMM c.w < 2 ^ 10) && decide (bits (fIMM c.w) 9 2 ≤ c.x.nls) &&
      c.ls.mask == 0xFFFFFFFF#32 && (assocGet {} c.x.barriers (bits (fIMM c.w) 1 0)).arrived == [] &&
      decide (0 + 1 < bits (fIMM c.w) 9 2) && (List.range 4).all fun j => !barDone c.x (assocGet {} c.x.barriers j)) = true) ∧
    (let s := (twoSets 0).storeWrite 0 (textOff 2) (leBytes 8 (fmtX 0x204 0))
     at' s 0x204 (fun c => !c.lanes.isEmpty && fIMM c.w == 0 && !c.ls.bndy &&
      c.x.lanesets.any fun e => e.1 != 0 && !e.2.ended && !e.2.bndy) = true) := by decide +kernel

/-! ## Files, squares and groups -/

/-- Function 0 holds file 0, whose page is in a state. -/
def fileS (st : Nat) : State := (up.setFlag 0 (Fld.FIL_PART_ASSIGNED.onPage 0x20) true).setPageSt 0x20 st

theorem witness_files :
    (∀ st ∈ [stOff, stOn, stFault], let s := fileS st
      Reaches s 0 0x20 ∧ s.fileHolder 0 = some 0 ∧ s.filesDown = false ∧ s.pageSt 0x20 = st ∧ s.fileKres 0 = false) ∧
    (let s := (fileS stOff).setF 0 Fld.PWR_STATE_STATE 1
     Reaches s 0 0x20 ∧ s.fileHolder 0 = some 0 ∧ s.filesDown = true ∧ s.pageSt 0x20 = stOff) ∧
    (let s := (fileS stOn).setFlag 0 (Fld.FIL_PART_KRES.onPage 0x20) true
     Reaches s 0 0x20 ∧ s.fileHolder 0 = some 0 ∧ s.pageSt 0x20 = stOn ∧ s.fileKres 0 = true) ∧
    (let s := (fileS stStarting).setFlag 0 (Fld.CTL_ENABLE.onPage 0x20) true
     s.pageSt 0x20 = stStarting ∧ (∀ sq ∈ squaresOf 0, s.sqSt sq ≠ sqTest) ∧ s.rst.bist.contains 0 = false ∧
     s.getF 0 Fld.DEV_BOOT_STAGE = 7 ∧ (s.file 0).recReset = false ∧ (s.file 0).recQuiesce = false ∧ s.enableReq 0x20 = true) ∧
    ((∀ st ∈ [stOff, stFault, stStarting, stStopping], ∀ sq ∈ squaresOf 0, ((fileS st).square sq).awaiting = [])) ∧
    (let s := fileS stStopping
     s.pageSt 0x20 = stStopping ∧ s.fileGroups 0 = [] ∧ (s.file 0).recReset = false ∧ (s.file 0).recEnable = false) ∧
    (let s : State := { fileS stStarting with ticks := 12500 }
     s.pageSt 0x20 = stStarting ∧ (s.file 0).startTick + 12500 ≤ s.ticks) := by
  decide +kernel

theorem witness_squaresAndLinks :
    (∀ sq ∈ [0, 255], (up.setSqSt sq sqTest).sqSt sq = sqTest) ∧
    (∀ sq ∈ [0, 255], ∀ st ∈ [sqIdle, sqTest, sqRunning, sqPreempting], let s := up.setSqSt sq st
      s.sqSt sq = st ∧ s.groups = [] ∧ (s.square sq).awaiting = [] ∧ s.images = [] ∧ s.queues = []) ∧
    ((isa 0).groupsOn 0 ≠ [] ∧ ((isa 0).square 0).mv0.flight = none ∧ ((isa 0).square 0).mv1.flight = none ∧
      ((isa 0).square 0).mv0.issued = [] ∧ ((isa 0).square 0).mv1.issued = [] ∧
      (let s : State := { isa 0 with ticks := 65536 * 250 }
       s.groupsOn 0 ≠ [] ∧ s.retiredAt 0 + 65536 * 250 ≤ s.fileCyc (sqFile 0))) ∧
    (let s := up.setFile 15 { up.file 15 with retries := List.replicate 16 0 }
     s.linkLost 15 = true ∧ s.fileGroups 15 = [] ∧ s.queues = [] ∧ ∀ sq ∈ squaresOf 15, (s.square sq).awaiting = []) := by
  decide +kernel

/-- A started job of one group of image 0, whose region is 4 KiB, on file 0, which is in service with square 0 idle. -/
def placeS (cls : Nat) (sq0 : Nat) : State :=
  let img : Image := { jobs := [{ prim := { store4k := 1, nreg := 32 } }] }
  let s := ((fileS stOn).setSqSt 0 sq0).setPageSt 0x05 stOn
  { s with images := [(0, img)], jobs := [(0, { st := .started, total := 1, cls := cls })], nextJob := 1,
           queues := [(0, { st := .active, kfiles := 1 })] }

/-- A Class K job that finds the register quads of square 0, which is reserved, taken by groups of job 1, of Class Q. -/
def fullS : State :=
  let s := ((placeS 2 sqRunning).setFlag 0 (Fld.FIL_PART_KRES.onPage 0x20) true).setF 0 (Fld.FIL_SPLIT_KSIZE.onPage 0x20) 1
  { s with jobs := s.jobs ++ [(1, { st := .started, placed := 4, total := 4 })]
           groups := (List.range 4).map fun i =>
             (i, { job := 1, index := i, square := 0, base := 32768 + 4096 * i, size := 4096, nreg := 128, nls := 8 }) }

theorem witness_groups :
    (∀ cls ∈ [0, 2], let s := placeS cls sqIdle
      (s.job 0).any (fun j => decide (j.st = .started ∧ j.nop = false ∧ j.stop = none ∧ j.exc = none ∧ (j.redo ≠ [] ∨
        j.placed < j.total) ∧ j.overdue s.now = false ∧ j.overrun s.ticks = false ∧ j.units = [] ∧
        s.dspPlaces = true ∧ s.itsTurn 0 j = true ∧ s.placeOf j = some (0, 0) ∧ NoErrors s)) = true) ∧
    (fullS.job 0).any (fun j => decide (j.st = .started ∧ j.cls = 2 ∧ fullS.wantsGroup j = true ∧ fullS.itsTurn 0 j = true ∧
      fullS.dspPlaces = true ∧ fullS.placeOf j = none ∧ (fullS.groups.map (·.1)).Nodup ∧
      (fullS.jobSquares j).find? (fun q => fullS.inService q && fullS.sqSt q != sqPreempting &&
        ((fullS.lowGroups q).any fun e => e.2.st == .running) && fullS.kRoom q (fullS.launchOf j)) = some 0)) = true ∧
    (let s := placeS 0 sqPreempting
     s.sqSt 0 = sqPreempting ∧ ((s.lowGroups 0).all fun e => e.2.st == .suspended) = true ∧ (s.square 0).awaiting = [] ∧ NoErrors s) ∧
    (let x : Group := { st := .suspended, size := 4096, nreg := 16, nls := 1, contPc := 5 }
     let s := { placeS 0 sqRunning with groups := [(3, x)] }
     (s.groups.filter fun e => e.2.square == 0 && e.2.st == .suspended) = [(3, x)] ∧ s.group 3 = some x ∧ s.hosts 0 = true ∧
      s.sqSt 0 ≠ sqPreempting ∧ s.quadRoom 0 x.nreg x.nls = true ∧ s.fileKres (sqFile 0) = false) ∧
    (let x : Group := { st := .running, size := 4096, nreg := 16, nls := 1, bundleLen := 2000 }
     let s := { (placeS 0 sqRunning).setFlag 0 (Fld.FIL_PART_KRES.onPage 0x20) true with groups := [(3, x)] }
     s.group 3 = some x ∧ (s.job x.job).any (fun j => decide (j.cls ≠ 2)) = true ∧ s.fileKres (sqFile x.square) = true ∧
      s.bundleOk x.bundleLen = false) ∧
    (let x : Group := { st := .suspended, size := 4096, nreg := 16, nls := 1, bundleLen := 2000 }
     let s := { (((placeS 0 sqRunning).setFlag 0 (Fld.FIL_PART_KRES.onPage 0x20) true).setFlag 0 (Fld.FIL_PART_ASSIGNED.onPage 0x21)
      true).setPageSt 0x21 stOn |>.setSqSt 16 sqIdle with groups := [(3, x)] }
     s.group 3 = some x ∧ s.fileKres (sqFile x.square) = true ∧ s.bundleOk x.bundleLen = false ∧ (s.job x.job).any (fun j =>
      decide (j.cls ≠ 2 ∧ (((fileSquares (s.partFiles j.fn)).filter fun q => !s.fileKres (sqFile q)).findSome? fun q =>
        (s.roomOn q false (s.launchOf j)).map fun b => (q, b)) = some (16, 0))) = true) := by
  decide +kernel

/-! ## Register accesses and windows -/

/-- Plain registers: two of a partition and two of the owner, each with a value that its field takes. -/
theorem witness_registerAccesses :
    (∀ e ∈ [(0x01, 0x400, 0xFFFFFFFF), (0x02, 0x04C, 0xFFFFFFC0), (0x03, 0x0A0, 0xFFFF), (0x08, 0x040, 0), (0x07, 0x040, 7)],
      (findReg e.1 e.2.1).any (fun d => d.rw != 0) = true ∧ e.1 ∈ plainPages ∧ up.startLow 0 e.1 e.2.1 e.2.2 = none ∧
        up.startHigh 0 e.1 e.2.1 e.2.2 = none ∧ Reaches up 0 e.1 ∧ up.mayWrite 0 e.1 e.2.1 e.2.2 = true ∧
        up.flag 0 (Fld.LOCK_LOCKDOWN.onPage e.1) = false ∧ resvHit e.1 e.2.1 e.2.2 = false ∧ up.verdict 0 e.1 e.2.1 e.2.2 = .ok) ∧
    (∀ page ∈ [0x00, 0x05, 0x13, 0x20, 0x2F], let s := up.setFlag 0 (Fld.FIL_PART_ASSIGNED.onPage page) (decide (0x20 ≤ page))
      pageExists page = true ∧ Reaches s 0 page ∧ s.irqMay 0 page = true ∧ s.serves page = true ∧ s.mayRead 0 page 0x020 = true) ∧
    (∀ e ∈ [(0x00, 0x048), (0x07, 0x07C), (0x12, 0x080)], e.1 ∈ plainPages ∧ e.1 ≠ 0x0E ∧ up.serves e.1 = true ∧
      (findReg e.1 e.2).any (fun d => d.rc != 0) = true ∧ up.liveReg 0 e.1 e.2 = none) ∧
    ((up.setReg 0 0x00 0x014 1#32).irqTarget 0x00 0 = some 0) := by
  decide +kernel

theorem witness_windows :
    (∀ v ∈ [0, 1], Reaches (fileS stOn) 0 0x20 ∧ (fileS stOn).holdsFile 0 0 = true ∧ resvHit 0x20 0x084 v = false) ∧
    ((fileS stOn).serves 0x20 = true) ∧
    (let s := (fileS stOn).setSqSt 0 sqIdle
     s.isOwner 0 = true ∧ s.sqServes (0xFFFF / 2 ^ 16 % 256) = true ∧ s.fileHolder (sqFile 0) = some 0 ∧
     soundB s 0 0xFFFC 4 = true ∧ (s.storePoisonLines 0 0xFFFC 4).mem.storeErrs = [] ∧
       (s.storePoisonLines 0 0xFFFC 4).storePoisoned 0 0xFFFC 4 = true) ∧
    (up.getF 0 Fld.DEV_BOOT_STAGE = 7 ∧ up.memOn = true ∧ up.extents 0 = [(0, 0x200000)] ∧ (∀ c ∈ List.range 8, up.chanServes c = true) ∧
      up.devPoisoned 0x1FFFFF 1 = false) := by
  decide +kernel

/-! ## Tile movers -/

/-- A block of `n` bytes with fields at byte offsets. -/
def blk (n : Nat) (l : List (Nat × Nat)) : List Byte := leBytes n ((l.map fun e => e.2 * 2 ^ (8 * e.1)).sum)

/-- A descriptor of one raw line (GEOM 3): OP, RES and the other bits of byte 3, the far-side line 0x2000, store line 64. -/
def rawDesc (op b3 : Nat) : List Byte :=
  blk 64 [(0, op), (2, 3), (3, b3), (4, 1), (6, 64), (8, if bit b3 6 then 0 else 0x2000)]

/-- Mover 0 of square 0 is idle, with a descriptor at offset 1024 of group 0 issued to it. -/
def movS (b : List Byte) : State :=
  withSq ((isa 0).storeWrite 0 1024 b) fun x => x.setMover 0 { issued := [{ off := 1024 }] }

/-- Function 0 holds a pinned run of 64 bytes at 0x2000 in Reserve page 5. -/
def pinnedRun : RsvEntry := { addr := 0x2000, len := 64, st := .pinned, pages := [5], lay := dLay (rawDesc 3 1), lines := [0x80] }
def movR (b : List Byte) : State :=
  { movS b with mem := { (movS b).mem with entries := [(7, pinnedRun)], pages := [(5, .entry 7)] } }

def takesB (s : State) (b : List Byte) : Bool :=
  match s.group 0 with
  | none => false
  | some x => decide (((s.square 0).mover 0).flight = none ∧ ((s.square 0).mover 0).issued = [{ off := 1024 }] ∧
      (s.job x.job).isSome = true ∧ s.regionRead x 1024 64 = b ∧ s.engineOn 0 = true ∧ x.covers true (1024, 64) = true ∧
      soundB s 0 (x.base + 1024) 64 = true ∧ descBad b = false ∧ storeOk x b = true)

theorem takes_ok {s : State} {b : List Byte} (h : takesB s b = true) :
    ∃ x j, TakesDesc s 0 0 { off := 1024 } [] x j b := by
  unfold takesB at h
  split at h
  · cases h
  · rename_i x hx
    obtain ⟨h1, h2, h3, h4, h5, h6, h7, h8, h9⟩ := of_decide_eq_true h
    obtain ⟨j, hj⟩ := Option.isSome_iff_exists.mp h3
    exact ⟨x, j, ⟨h1, h2, hx, hj, ⟨rfl, rfl⟩, h4, h5, ⟨rfl, h6, sound_ok h7⟩, h8, h9⟩⟩

/-- Far-side lines and fallback lines that a descriptor of group 0 finds. -/
def farB (s : State) (b : List Byte) : Bool :=
  match s.group 0 with
  | none => false
  | some x => match (s.farLines 0 x.job b).2, (s.fbLines 0 x b).2 with
    | .ok _, .ok _ => true
    | _, _ => false

theorem witness_moversTake :
    (takesB (movS (rawDesc 1 0)) (rawDesc 1 0) = true ∧ farB (movS (rawDesc 1 0)) (rawDesc 1 0) = true) ∧
    (takesB (movS (rawDesc 2 0)) (rawDesc 2 0) = true ∧ farB (movS (rawDesc 2 0)) (rawDesc 2 0) = true) ∧
    (takesB (movS (rawDesc 2 0x40)) (rawDesc 2 0x40) = true ∧ rectFiles (rawDesc 2 0x40) = (0, 0) ∧
      ((movS (rawDesc 2 0x40)).setFlag 0 (Fld.FIL_PART_ASSIGNED.onPage 0x20) true).fileHolder 0 = some 0) ∧
    (takesB (movR (rawDesc 3 1)) (rawDesc 3 1) = true ∧ farB (movR (rawDesc 3 1)) (rawDesc 3 1) = true ∧
      (movR (rawDesc 3 1)).keyedEntry 0 (rawDesc 3 1) = some (7, pinnedRun) ∧ pinnedRun.lay = dLay (rawDesc 3 1)) ∧
    (takesB (movR (rawDesc 4 0)) (rawDesc 4 0) = true ∧ (movR (rawDesc 4 0)).keyedEntry 0 (rawDesc 4 0) = some (7, pinnedRun)) ∧
    (takesB (movR (rawDesc 5 0)) (rawDesc 5 0) = true ∧ ((movR (rawDesc 5 0)).mem.entries.map (·.1)).Nodup) := by
  decide +kernel

/-- Mover 0 executes a flight of group 0. -/
def flyS (f : Flight) : State := withSq (isa 0) fun x => x.setMover 0 { flight := some f }

/-- A FETCH and a STORE of one raw line of device memory, before and after their tile. -/
def flyOf (op : Nat) (left : List Nat) (due : Option Nat) : Flight :=
  { d := { off := 1024 }, desc := rawDesc op 0, left := left, deadline := due, far := [(0, 0x2000)] }

def inFlightB (s : State) (f : Flight) : Bool :=
  decide (((s.square 0).mover 0).flight = some f) && (s.group 0).any (fun x => (s.job x.job).isSome) && s.engineOn 0 && f.d.group == 0

theorem witness_tiles :
    (let f := flyOf 1 [0] none
     inFlightB (flyS f) f = true ∧ 0 ∈ f.left ∧ f.expired (flyS f).now = false ∧ (flyS f).memOn = true ∧ dOp f.desc = 1 ∧ f.entry = none ∧
      dSided f.desc = false ∧ (∀ l ∈ f.far, l.1 = 0 ∧ (flyS f).chanServes (chanOf l.2) = true) ∧
        ((flyS f).group 0).any (fun x => x.st != .ending) = true ∧ (flyS f).linesPoisoned 0 f.far (tileLines f.desc 0) = false) ∧
    (let f := flyOf 1 [0] (some 4)
     inFlightB { flyS f with now := 5 } f = true ∧ f.left ≠ [] ∧ f.expired 5 = true ∧ f.expired 4 = false ∧ f.entry = none ∧ f.fb = []) ∧
    (∀ op ∈ [1, 2], let f := flyOf op [] none
      inFlightB (flyS f) f = true ∧ f.left = [] ∧ f.entry = none ∧ f.d.walk = none ∧ dOp f.desc = op ∧ dBcast f.desc = false ∧
        f.status = .ok ∧ f.taint = false ∧ (∀ l ∈ f.far, l.1 = 0 ∧ (flyS f).chanServes (chanOf l.2) = true) ∧
          f.far.Pairwise (fun p q => p.2 + 64 ≤ q.2 ∨ q.2 + 64 ≤ p.2) ∧
        ((flyS f).group 0).any (fun x => x.square == 0 && !(x.lanesets.all fun e => e.2.ended)) = true) := by
  decide +kernel

/-! ## The Reserve, the MMU and device memory -/

/-- A command register that shows its last operation complete. -/
def idleCmd (s : State) (bank : Nat) (sts : Fld) : State := s.setF bank { sts with hi := 15, lo := 15 } 1

theorem witness_reserve :
    let s := idleCmd up 0 Fld.RSV_CMD_STS_STATUS
    let s5 := { s with mem := { s.mem with pages := [(5, .mapped 0)] } }
    let full := s.setF 0 Fld.RSV_FLOOR_PAGES 1
    (∀ v ∈ [1 * 2 ^ 28, 1 * 2 ^ 28 + 2 ^ 23 + 15 * 2 ^ 24], Reaches s 0 0x06 ∧ s.cmdDone 0 Fld.RSV_CMD_STS_DONE = true ∧
      resvHit 0x06 0x050 v = false ∧
      opCode v = 1 ∧ full.rsvPinned 0 + 1 ≤ full.pinFloor 0 ∧ s.pinFloor 0 < s.rsvPinned 0 + 1 ∧
      (full.freePage (if bit v 23 then bits v 27 24 else s.homeSlice 0)).isSome = true) ∧
    (opCode (2 * 2 ^ 28 + 5) = 2 ∧ s5.holdsPage 0 5 = true ∧ s5.holdsPage 0 6 = false ∧ s5.pageInFlight 5 = false ∧
      resvHit 0x06 0x050 (2 * 2 ^ 28 + 5) = false) ∧
    (∀ op ∈ [3, 4], opCode (op * 2 ^ 28) = op ∧ resvHit 0x06 0x050 (op * 2 ^ 28) = false) ∧
    (let v := 2 ^ 16 + 32 * 2 ^ 8 + 32
     Reaches up 0 0x06 ∧ bits v 15 8 = 32 ∧ bits v 7 0 ≤ bits v 15 8 ∧ bits v 31 16 ≠ 0 ∧ bits 0xFFFF 31 16 = 0) ∧
    (let f : Flight := { flyOf 3 [0] none with far := [(1, 5 * 4096)], inval := true }
     let t := { flyS f with mem := { (flyS f).mem with pages := [(5, .mapped 0)] } }
     t.holdsPage 0 5 = true ∧ t.pageInFlight 5 = true ∧ f ∈ t.flights ∧ t.flightOf 0 f = true ∧ (up.flights.any fun f => f.inval &&
       up.flightOf 0 f) = false) ∧
    (up.serves 0x08 = true ∧ up.flag 0 Fld.MMU_INVAL_STS_BUSY = false ∧ resvHit 0x08 0x04C (2 ^ 31) = false) := by
  decide +kernel

theorem witness_memory :
    (0x700000000 ≤ 0x700000000 ∧ 0x700000000 % 512 = 0) ∧
    (let pa := 0x700000000 - 512
     up.chanServes (chanOf pa) = true ∧ assocGet false up.mem.devPoison (pa / 512) = false ∧ pa % 512 = 0 ∧
      failedCws (up.retiredPins (chanOf pa)) (liveErrs (up.retiredPins (chanOf pa)) [(3, 4)]) = [] ∧
      liveErrs (up.retiredPins (chanOf pa)) [(3, 4)] ≠ [] ∧
      failedCws (up.retiredPins (chanOf pa)) (liveErrs (up.retiredPins (chanOf pa)) ((List.range 9).map fun p => (4 * (p % 8),
        p / 8 * 4))) ≠ []) ∧
    (∀ c ∈ [0, 7], let s := up.setFlag 0 Fld.MEM_CTL_PATROL true
      s.flag 0 Fld.MEM_CTL_PATROL = true ∧ s.chanServes c = true ∧ c ∉ s.mem.ctl.scrubbed ∧
      s.getF 0 Fld.MEM_SCRUB_POS_UNIT + 1 < chanUnits ∧ 7 ∉ [0, 1, 2, 3, 4, 5, 6]) ∧
    (∀ l ∈ [[], [(9, leBytes 512 1)]], let s := { up with mem := { up.mem with ctl := { writeBacks := [9], wbData := l } } }
     9 ∈ s.mem.ctl.writeBacks ∧ s.pageSt 0x07 = stOn ∧ s.mem.ctl.wbData.find? (fun e => e.1 == 9) = l.head? ∧
       (leBytes 512 1).length = 512) := by
  decide +kernel

theorem witness_memoryUpkeep :
    let ret := fun (s : State) => (s.retirePin 7 1)
    let s := (idleCmd up 0 Fld.MEM_CMD_STS_STATUS).setFlag 0 Fld.MEM_CTL_AUTORET true
    let seen := { s with mem := { s.mem with ctl := { pinReads := [(7 * 32 + 31, List.replicate 255 0)] } } }
    (seen.flag 0 Fld.MEM_CTL_AUTORET = true ∧ 31 ∉ seen.retiredPins 7 ∧ seen.getF 0 Fld.MEM_PINRET_COUNT ≤ seen.pinCount 7 31 ∧
      (seen.retiredPins 7).length < 2 ∧ 2 ≤ ((ret ((ret seen).setF 0 (retiredFld 7 4 0) 2)).retiredPins 7).length) ∧
    (∀ op ∈ [1, 2, 3], let v := op * 2 ^ 28 + 7 * 2 ^ 24 + 31
      Reaches s 0 0x07 ∧ s.isOwner 0 = true ∧ s.cmdDone 0 Fld.MEM_CMD_STS_STATUS = true ∧ resvHit 0x07 0x050 v = false ∧ opCode v = op ∧
        31 ∉ s.retiredPins 7 ∧ s.anyKres = false ∧ (s.setFlag 0 (Fld.FIL_PART_KRES.onPage 0x20) true).anyKres = true) ∧
    ((up.setTraining (some 7)).mem.ctl.training = some 7) ∧
    (up.chanServes 7 = true ∧ assocGet 0 up.mem.ctl.trackAt 7 + 62500000 ≤ { up with ticks := 62500000 }.ticks ∧
      up.flag 0 Fld.MEM_TEMP_HOT = false) ∧
    ((up.setPageSt 0x07 stStopping).pageSt 0x07 = stStopping ∧ up.mem.ctl.writeBacks = [] ∧ up.mem.ctl.training = none ∧
      (up.setPageSt 0x07 stStarting).pageSt 0x07 = stStarting) := by
  decide +kernel

/-! ## Queues, entries and block pages -/

/-- Queue 0 of function 0: 16 entries of 64 bytes at page 4, completions at page 5. -/
def q0 : Queue := { st := .active, sqsz := 4, cqsz := 4, sqBase := 0x4000, cqBase := 0x5000 }

def qS (Q : Queue) : State :=
  let s := (up.setPageSt 0x05 stOn).setF 0 Fld.DSP_QRANGE_QCOUNT 4
  { s with queues := [(0, Q)], parts := [(0, { held := true })] }

theorem witness_rings :
    (let s := qS q0
     s.getF 0 Fld.DEV_BOOT_STAGE = 7 ∧ 0 < s.qcount 0 ∧ s.unsupported 0 = false ∧ s.dspOn = true ∧ s.isActive = true ∧
      (s.queue 0 0).takesDb = true ∧ (∀ v ∈ [1, 16], sub32 q0.sqTail q0.sqHead < sub32 v q0.sqHead ∧ sub32 v q0.sqHead ≤ 2 ^ q0.sqsz) ∧
      2 ^ q0.sqsz < sub32 17 q0.sqHead ∧ sub32 0 q0.cqHead ≤ sub32 q0.cqTail q0.cqHead) ∧
    (let Q := { q0 with sqTail := 1 }
     let s := qS Q
     s.queue 0 0 = Q ∧ s.dspOn = true ∧ Q.st = .active ∧ Q.cmd = .none ∧ Q.fetched = none ∧ Q.sqHead ≠ Q.sqTail ∧ Q.slotFree = true ∧
      (match (s.vaRead 0 .dispatcher 0x4000 64).2 with
        | .ok b => !Q.windowFull (parseEntry b)
        | .error _ => false) = true) ∧
    (let Q := { q0 with unsig := 1, modTime := 1 }
     Q.unsig ≠ 0 ∧ Q.modTime ≠ 0 ∧ Q.unsigAt + 1000 * Q.modTime ≤ 1000) := by
  decide +kernel

/-- Queue 0 holds an entry that it has taken; image 0 of function 0 has one plain job. -/
def entS (b : List Byte) : State :=
  { qS { q0 with fetched := some (b, 0, 0), inflight := 1 } with images := [(0, { jobs := [{ prim := { store4k := 1 } }] })] }

/-- A job of queue 0 runs, and may run until time 5 and for 1 µs. -/
def runS : State :=
  let x : Group := { size := 4096, nls := 1, lanesets := [(0, {})] }
  { qS q0 with jobs := [(0, { st := .started, placed := 1, total := 1, deadline := some 5, timeout := 1 })], nextJob := 1
               groups := [(0, x)], nextGroup := 1 }

/-- A queue has taken no LAUNCH that is not yet a job. -/
def noLaunchB (s : State) (fn q : Nat) : Bool :=
  (s.queue fn q).fetched.all fun e => decide ((parseEntry e.1).opc ≤ 2) && (parseEntry e.1).opc != 1

theorem noLaunch_ok {s : State} {fn q : Nat} (h : noLaunchB s fn q = true) : NoLaunchTaken s fn q := by
  intro b i stamp hf
  simpa [noLaunchB, hf] using h

def runsB (s : State) (id : Nat) (p : Job → Bool) : Bool :=
  (s.job id).any fun j => decide (j.st = .started ∧ j.stop = none ∧ s.jobGroups id ≠ [] ∧
    (∀ e ∈ s.jobGroups id, e.2.st ≠ .suspended) ∧ (s.groups.map (·.1)).Nodup ∧ NoErrors s) && p j

theorem witness_entries :
    (∀ e ∈ [(0, []), (1, []), (2, [(36, 3)])], let b := blk 64 ((0, e.1) :: e.2)
      (entS b).queue 0 0 = { q0 with fetched := some (b, 0, 0), inflight := 1 } ∧ (parseEntry b).opc = e.1 ∧
        (parseEntry b).malformed = false ∧
      CqWrites (entS b) 0 0 ∧ NoErrors (entS b) ∧ (entS b).queueJobs 0 0 = [] ∧ (entS b).job (entS b).nextJob = none) ∧
    (let b := blk 64 [(0, 1)]
     let e := parseEntry b
     e.argVa = 0 ∧ e.idem = false ∧ (entS b).launchFault e ((entS b).entryJob 0 0 e 0 0) = none) ∧
    (let s := idleCmd (qS q0) 0 Fld.DSP_CANCEL_STS_STATUS
     Reaches s 0 0x05 ∧ s.cmdDone 0 Fld.DSP_CANCEL_STS_DONE = true ∧ bits 3 15 0 < s.qcount 0 ∧ NoErrors s ∧
      noLaunchB s 0 0 = true ∧ s.cancelTarget 0 0 (fun j => j.cid == 0) = none) ∧
    (let b := blk 64 [(0, 2), (36, 3)]
     (parseEntry b).tq < (entS b).qcount 0 ∧ noLaunchB (entS b) 0 (parseEntry b).tq = true ∧ (entS b).jobs = []) ∧
    (runsB runS 0 (fun j => decide (InTime runS j)) = true ∧ noLaunchB runS 0 0 = true ∧
      (runS.cancelTarget 0 0 fun j => j.cid == 0).map (·.1) = some 0) ∧
    (runsB { runS with now := 6 } 0 (fun j => j.deadline == some 5) = true) ∧
    (runsB { runS with ticks := 251 } 0 (fun j => j.overrun 251) = true) := by
  decide +kernel

theorem witness_queueCommands :
    (let s := idleCmd (qS {}) 0 Fld.DSP_QCMD_STS_STATUS
     let c := ((s.setF 0 Fld.DSP_Q_CFG_SQSZ 16).setF 0 Fld.DSP_Q_CFG_CQSZ 4)
     Reaches s 0 0x05 ∧ s.cmdDone 0 Fld.DSP_QCMD_STS_DONE = true ∧ NoErrors s ∧ c.createOk 0 (c.getF 0 Fld.DSP_QSEL_QUEUE) = true ∧
      (∀ op ∈ [1, 2, 3], resvHit 0x05 0x044 (op * 2 ^ 28) = false ∧ opCode (op * 2 ^ 28) = op)) ∧
    ((qS q0).queue 0 0 ≠ {} ∧ ((qS q0).queue 0 0).st ≠ .disabled ∧ (qS q0).queueJobs 0 0 = [] ∧ ((qS q0).queue 0 0).fetched = none) ∧
    (∀ c ∈ [QCmd.delete, .reset], let Q := { q0 with cmd := c }
      let s := qS Q
      (s.queue 0 0).cmd ≠ .none ∧ s.queueJobs 0 0 = [] ∧
      (s.queues.filter fun e => decide (e.1 / 65536 = 0) && e.2.cmd != .none) = [(queueKey 0 0, s.queue 0 0)]) ∧
    (resvHit 0x05 0x040 0 = false ∧ (qS q0).serves 0x05 = true) := by
  decide +kernel

theorem witness_blockPages :
    (∀ p ∈ [0x05, 0x09, 0x0A, 0x0B, 0x0C, 0x0D, 0x0E, 0x0F],
      let s := (up.setFlag 0 Fld.DEV_CTLOWN_V true)
      let on := s.setPageSt p stOn
      let go := (s.setPageSt p stStarting).setFlag 0 (Fld.CTL_ENABLE.onPage p) true
      Reaches s 0 p ∧ s.ctlMay 0 p = true ∧ s.pageSt p = stOff ∧ s.domainDown p = false ∧
      (s.setF 0 Fld.PWR_STATE_STATE 2).domainDown p = true ∧ on.pageSt p = stOn ∧ on.jobs = [] ∧ on.tempo = {} ∧ on.knight = {} ∧
      (s.setPageSt p stFault).pageSt p = stFault ∧ go.pageSt p = stStarting ∧ go.enableReq p = true ∧ (go.ctl p).recQuiesce = false ∧
      go.queues = [] ∧ (s.setPageSt p stStopping).pageSt p = stStopping ∧ (s.ctl p).hold = false ∧ (s.ctl p).recEnable = false) ∧
    (∀ p ∈ [0x05, 0x09, 0x0B, 0x0C, 0x0D, 0x0F], (up.groups = [] ∧ up.knight.eng.tasks = [] ∧ up.solver.eng.tasks = [] ∧
      up.fusion.pass = none ∧ up.fusion.busyUntil ≤ up.now ∧ up.input.caps = [] ∧ up.edge.eng.tasks = []) ∧ p < 0x20) := by
  decide +kernel

theorem witness_containment :
    (up.isCtlOwner 0 = false ∧ Reaches up 0 0x05 ∧ up.isOwner 0 = true ∧ (up.setPageSt 0x05 stOn).pageSt 0x05 = stOn ∧
      up.isActive = true ∧ up.rst.run = none ∧ up.tempo = {}) ∧
    (∀ c ∈ [0, 1, 2, 7], c ∉ up.rst.failedCores ∧ (up.setPageSt 0x05 stOn).dspOn = true ∧ up.jobs = [] ∧ NoErrors up) := by
  decide +kernel

/-! ## Streams, sequence calls and attention calls -/

/-- An image of function 0 that declares set 0 of one-line streams, with a sequence job and an attention job; stream 0 in a state. -/
def strS (x : Stream) : State :=
  let img : Image := {
    jobs := [{ kind := 1, prim := { store4k := 1 } }, { kind := 2, att := (1, 1, 1, 1), prim := { store4k := 1 } }],
    sets := [{ lines := 1, homes := [[0]] }] }
  let s := (idleCmd (qS q0) 0 Fld.DSP_SEQ_CMD_STS_STATUS).setF 0 Fld.RSV_FLOOR_PAGES 1
  { s with images := [(0, img)], streams := if x = {} then [] else [(0, x)] }

/-- What has been answered, and not an error. -/
def isOk {β γ : Type} : Except β γ → Bool
  | .ok _ => true
  | .error _ => false
def okR {α β γ : Type} (r : α × Except β γ) : Bool := isOk r.2

theorem witness_streamCommands :
    (∀ op ∈ [1, 2, 3, 4, 5, 6, 7], Reaches (strS {}) 0 0x05 ∧ (strS {}).cmdDone 0 Fld.DSP_SEQ_CMD_STS_STATUS = true ∧
      resvHit 0x05 0x104 (op * 2 ^ 28) = false ∧ opCode (op * 2 ^ 28) = op ∧ bit (op * 2 ^ 28) 27 = false ∧ (strS {}).seqSel 0 = 0) ∧
    (((strS {}).setDecl 0 0).isSome = true ∧ ((strS {}).stream 0 0).st = .closed) ∧
    (let x : Stream := { st := .resv, pages := [5] }
     (((strS x).setDecl 0 0).isSome = true ∧ ((strS x).stream 0 0).st ≠ .closed ∧ x.st.rests = true ∧ x.pend = 0)) ∧
    (((strS { st := .store, slot := some 31 }).stream 0 0) = { st := .store, slot := some 31 }) ∧
    (∀ st ∈ [StreamSt.zero, .resv, .outer], ((strS { st := st }).stream 0 0).st = st) ∧
    (let s := ((strS { st := .zero }).setF 0 Fld.DSP_SEQ_VA_LO 0x3000)
     okR (s.vaWrite 0 .dispatcher (s.imageVa 0) (leBytes 64 0)) = true ∧
     let t := { s with mem := { s.mem with dev := cellsWrite s.mem.dev 0x3000 (leBytes 4 1 ++ leBytes 4 0 ++ leBytes 4 1) } }
     let r := t.vaRead 0 .dispatcher (t.imageVa 0) (64 + t.stateBytes 0 0)
     t.stateBytes 0 0 = 64 ∧ okR r = true ∧ okR (r.1.allocMapped 0 1 (r.1.homeSlice 0)) = true) := by
  decide +kernel

/-- A sequence call and an attention call that wait, with their argument blocks at 0x6000 and their lists at 0x7000. -/
def callS (k : Nat) (arg lst : List Byte) (x : Stream) : State :=
  let s := strS x
  { s with
    mem := { s.mem with dev := cellsWrite (cellsWrite s.mem.dev 0x6000 arg) 0x7000 lst }
    jobs := [(0, { job := k, argVa := 0x6000, st := .waiting })], nextJob := 1 }

/-- A sequence call of one stream and one position; an attention call of one table without pages at 0x8000. -/
def seqArg : List Byte := blk 64 [(0, 1), (2, 1), (4, 1), (8, 0x7000)]
def attArg (op : Nat) : List Byte := blk 64 [(0, op), (2, 1), (4, 1), (8, 0x7000)]
def seqCall : State := callS 0 seqArg (leBytes 8 (0xFFFFFFFF * 2 ^ 32)) { st := .store, slot := some 0 }

/-- The call once taken, on a file in service with square 0 idle; the set's slots take no store. -/
def seqTaken : State :=
  let s := callS 0 seqArg [] { st := .store, slot := some 0, pend := 1 }
  let s1 := ((s.setFlag 0 (Fld.FIL_PART_ASSIGNED.onPage 0x20) true).setPageSt 0x20 stOn).setSqSt 0 sqIdle
  { s1 with
    images := s1.images.map fun (e : Nat × Image) => (e.1, { e.2 with sets := [{ lines := 0, homes := [[0]] }] })
    jobs := [(0, { job := 0, st := .waiting, taken := true, arg := seqArg, streams := [(0, 0xFFFFFFFF)] })] }

theorem witness_sequenceCalls :
    (let x : Stream := { st := .store, slot := some 0 }
     let s := { (strS x).setF (setBank 0 0) Fld.DSP_SEQ_IDLE_IDLE_S 1 with now := 1000 }
     s.stream 0 0 = x ∧ x.pend = 0 ∧ x.kheld = false ∧ s.dspOn = true ∧ s.getF (setBank 0 0) Fld.DSP_SEQ_IDLE_IDLE_S = 1) ∧
    (let s := { (strS { st := .resv }).setF (setBank 0 0) Fld.DSP_SEQ_IDLE_IDLE_R 1 with now := 1000000 }
     (s.stream 0 0).st = .resv ∧ s.dspOn = true ∧ s.getF (setBank 0 0) Fld.DSP_SEQ_IDLE_IDLE_R = 1) ∧
    (let s := strS { st := .out, src := .store, copy := leBytes 64 0 }
     (s.stream 0 0).st = .out ∧ okR (s.allocMapped 0 (cdiv (s.stateBytes 0 0) 4096) (s.homeSlice 0)) = true) ∧
    (let s := strS { st := .inn, src := .zero }
     s.freeSlot 0 0 = some 0 ∧ isOk (s.inBytes 0 0) = true) ∧
    ((seqCall.job 0).any (fun j => (seqCall.imgJob j).any (fun ij => ij.set == 0 && !ij.attLayers) && seqCall.mayTake 0 1 j &&
        okR (seqCall.readArg j)) = true ∧
      seqBlockBad seqArg 32 = false ∧ okR (seqCall.vaRead 0 .dispatcher 0x7000 8) = true ∧
      parseStreams (leBytes 8 (0xFFFFFFFF * 2 ^ 32)) 1 = some [(0, 0xFFFFFFFF)] ∧
      (seqCall.setDecl 0 0).any (fun d => decide (seqCall.seqErr 0 d seqArg [(0, 0xFFFFFFFF)] = none)) = true ∧
      seqCall.seqUndo = []) ∧
    ((seqTaken.job 0).any (fun j => seqTaken.dspPlaces && seqTaken.jobKind j == 1 && j.st == .waiting && j.stop.isNone &&
      (j.streams.all fun a => (seqTaken.stream 0 a.1).st == .store) && seqTaken.atCheck j && seqTaken.streamsFresh j &&
      seqTaken.tablesFresh j && seqTaken.itsTurn 0 j && (seqTaken.placeOf j).isSome && (seqTaken.startJob 0 j).2 &&
      ((seqTaken.startJob 0 j).1.job 0).any fun j1 => ((seqTaken.startJob 0 j).1.placeOf j1).isSome && j1.units.isEmpty &&
        decide (NoErrors (seqTaken.startJob 0 j).1)) = true) := by
  decide +kernel

/-- An attention call of the table at 0x8000, which holds no position and has one page. -/
def attCall (op : Nat) : State :=
  let s := callS 1 (attArg op) (blk 16 [(0, 0x8000), (8, 0xFFFFFFFF)]) {}
  { s with mem := { s.mem with dev := cellsWrite s.mem.dev 0x8000 (blk 72 [(16, 0x01010101), (20, 1), (64, 1)]) } }

theorem witness_attention :
    (∀ op ∈ [1, 2], let s := attCall op
      (s.job 0).any (fun j => (s.imgJob j).any (fun ij => okR ((s.readArg j).1.readTables 0 0x7000 1 1 ij.att (op == 2))) &&
        s.mayTake 0 2 j) =
        true ∧ attBlockBad (attArg op) = false ∧ leField (attArg op) 16 8 = 0 ∧ leField (attArg op) 0 1 = op) ∧
    (let x : Group := { size := 4096, nls := 1 }
     let s := { up with groups := [(0, x)], rings := [(0, { issued := 3, consumed := 1 })] }
     s.group 0 = some x ∧ (s.pageRing 0).consumed ≤ 1 ∧ (s.pageRing 0).consumed ≤ 3 ∧ 3 ≤ (s.pageRing 0).issued) := by
  decide +kernel

/-! ## Ring engines -/

/-- An engine's page is ON, and function 0's ring of 16 entries at 0x2000 is enabled. -/
def ringS (e : RingEng) (tail : Nat) : State :=
  ((((up.setPageSt e.page stOn).setReg 0 e.page e.reg 0x2000#32).setF 0 (e.cfg 31 31) 1).setF 0 (e.cfg 3 0) 4).setF 0 e.tail tail

theorem witness_ringEngines :
    (∀ e ∈ [edgeR, knightR, solverR], let s := ringS e 0
      Reaches s 0 e.page ∧ s.flag 0 (e.cfg 31 31) = true ∧ sub32 (s.getF 0 e.tail) (s.getF 0 e.head) = 0 ∧
      sub32 16 (s.getF 0 e.head) = 2 ^ s.getF 0 (e.cfg 3 0) ∧ 2 ^ s.getF 0 (e.cfg 3 0) < sub32 17 (s.getF 0 e.head)) ∧
    (∀ e ∈ [edgeR, knightR, solverR], (up.setTask e 1 {}).task e 1 = some {} ∧ ({} : Task).mism = false) ∧
    (∀ e ∈ [edgeR, knightR, solverR], let s := { (up.setPageSt e.page stOn).setEngSt e { mism := [9, 8, 7] } with ticks := 9 }
      s.pageSt e.page = stOn ∧ s.thirdMism e = true) := by
  decide +kernel

/-- A CONV and a CONVT of one channel, 8 by 4, kernel 1 by 1, channel-blocked FP16, from 0x3000 to 0x4000 with weights at 0x6000. -/
def convB (op : Nat) : List Byte :=
  blk 64 [(0, op), (1, 0x11), (2, 0x50), (4, 8), (6, 4), (8, 1), (10, 1), (12, 0x010101010101), (24, 0x3000), (40, 0x4000), (48, 0x6000)]

def edgeS (b : List Byte) : State :=
  let s := ringS edgeR 1
  { s with mem := { s.mem with dev := cellsWrite s.mem.dev 0x2000 b } }

/-- The descriptor runs in context 1, at a row and a segment of it. -/
def edgeRunS (r : EdgeRun) : State :=
  let s := edgeS (convB 1)
  { s with edge := { eng := { tasks := [(1, { va := 0x2000, desc := convB 1 })] }, runs := [(1, r)] } }

theorem witness_edge :
    (∀ op ∈ [1, 2], let s := edgeS (convB op)
      s.ringServed edgeR 0 = true ∧ okR (s.ringDesc edgeR 0).2 = true ∧ leField (convB op) 0 1 = op ∧ s.devRead 0x2000 64 = convB op ∧
      (let s2 := (s.ringDesc edgeR 0).1.takeTask edgeR 0 0x2000 (convB op)
       s2.edgeRefusal 0 (convB op) = none ∧ (parseConv (convB op)).ilay ≠ 3 ∧
        isOk (s2.engRead 0 (parseConv (convB op)).waddr (parseConv (convB op)).blobBytes) = true ∧
        s2.edgeRefusal 0 (blk 64 [(0, op)]) = some .edgeMalformed ∧ Status.edgeMalformed.isSuccess = false)) ∧
    (let s := edgeRunS {}
     let c := parseConv (convB 1)
     (s.task edgeR 1).any (fun x => x.stop.isNone) = true ∧ (s.edge.runs.find? fun e => e.1 == 1) = some (1, {}) ∧ c.gen = false ∧
      c.ilay ≠ 3 ∧ 0 < c.oh ∧ s.ctxMay edgeR 1 s.edgeReady0 = true ∧ s.localErr 0x0F 1 = none ∧ c.rowCycles ≤ 4096 * (0 + 1) ∧
      isOk ((((s.setTask edgeR 1 {}).ctxRan edgeR 1 s.edgeReady0).bump 0 Fld.EDG_BUSY (min 4096 (c.rowCycles - 4096 * 0))).edgeRow 0 c {} 0) = true) ∧
    (let r : EdgeRun := { row := 4 }
     ((edgeRunS r).task edgeR 1).isSome = true ∧ ((edgeRunS r).edge.runs.find? fun e => e.1 == 1) = some (1, r) ∧
      (parseConv (convB 1)).oh ≤ r.row ∧ (parseConv (convB 1)).next = false) ∧
    (4096 * (0 + 1) < (parseConv (blk 64 [(0, 1), (1, 0x11), (2, 0x50), (4, 4096), (6, 1), (8, 15), (10, 256), (12,
      0x010101010101)])).rowCycles) := by
  decide +kernel

/-! ## The Input pipeline -/

/-- A one-level, one-channel pyramid section. -/
def pyr1 : List (Nat × Nat) := [(0, 1), (2, 1)]
/-- A session of at most 64 by 64 pixels with a ring of 16 entries at 0x2000, and a front-end block of that pyramid. -/
def sessB : List Byte := blk 64 ([(2, 64), (4, 64), (8, 0x2000), (16, 4)] ++ pyr1.map fun e => (32 + e.1, e.2))
def feB : List Byte := blk 2048 (pyr1.map fun e => (48 + e.1, e.2))
/-- A batch queue of two slots that hold one 8 by 4 sample of session 0 each, at page 0. -/
def bqB : List Byte := blk 64 [(1, 0x14), (2, 1), (3, 2), (4, 1), (8, 128), (16, 8), (18, 4), (23, 1)]

/-- Session 0 of function 0 is open; pages of the queue lie in the Reserve. -/
def inpS : State :=
  let s := (idleCmd up 0 Fld.INP_CMD_STS).setPageSt 0x0E stOn
  let l := (List.range 16).map fun i => (tlbKey 0 (4096 * i), { tier := 1, frame := 4096 * i, shift := 12, r := true, w := true : Xlat })
  { s with parts := [(0, { held := true })], input := { sess := [(0, { st := 1, desc := sessB })] }
           mem := { s.mem with locked := l, pages := (List.range 16).map fun i => (i, .mapped 0) } }

theorem witness_inputCommands :
    (∀ op ∈ [1, 2, 3, 4, 5], Reaches inpS 0 0x0E ∧ opCode (op * 2 ^ 28) = op ∧ inpS.hasPart 0 = true ∧
      inpS.cmdDone 0 Fld.INP_CMD_STS = true ∧ resvHit 0x0E 0x040 (op * 2 ^ 28) = false) ∧
    (isOk (inpS.inpDesc 0) = true ∧ (inpS.bq 0).live = false ∧ (inpS.input.bqs.filter fun e => e.2.live).length < 32 ∧
      inpS.bqRefusal 0 { desc := bqB } = none) ∧
    (({ inpS with input := { bqs := [(0, { desc := bqB })] } }.bq 0).live = true) ∧
    (sessRefusal sessB = none ∧ (List.range 64).find? (fun n => (inpS.sess n).st == 0) = some 1) ∧
    ((inpS.sess 0).st ≠ 0 ∧ (inpS.sess 0).fn = 0) ∧
    (inpS.getF 0 Fld.INP_SEL_KIND = 0 ∧ (inpS.setF 0 Fld.INP_SEL_KIND 1).getF 0 Fld.INP_SEL_KIND = 1 ∧
      inpS.getF 0 Fld.INP_SEL_INDEX = 0 ∧ sub32 16 0 ≤ 2 ^ leField sessB 16 1) ∧
    (let q : BatchQ := { desc := blk 64 [(0, 4), (1, 0x14), (2, 1), (3, 2), (40, 4)] }
     q.live = true ∧ sub32 q.augTail q.augHead < sub32 16 q.augHead ∧ sub32 16 q.augHead ≤ 2 ^ q.augsz) ∧
    (Reaches up 0 0x12 ∧ up.isOwner 0 = true) := by
  decide +kernel

theorem witness_frames :
    (let s := (inpS.setReg (vcBank 15) 0x12 0x064 0x80000000#32).setF 0 Fld.CSI_PORTn_CFG_EN 1
     (s.capChan 15).isOpen = false ∧ (s.capChan 15).armed = false ∧ s.capTakes 15 = true ∧ s.input.bqs = []) ∧
    (let c : Capture := { isOpen := true, geom := 2 * 65536 + 3, block := some feB, lines := [[1, 2, 3]] }
     c.isOpen = true ∧ c.lines.length < c.geom / 65536 ∧ [4, 5, 6].length = c.geom % 65536 ∧
      ({ c with lines := [[1, 2, 3], [4, 5, 6]] }.lines.length = c.geom / 65536)) ∧
    (let s := { inpS with input := { sess := [(0, { st := 1, desc := sessB, tail := 1 })] } }
     s.pageSt 0x0E = stOn ∧ s.sessReady 0 = true ∧ (∀ m < 64, (s.sess m).unit = none) ∧
      (∀ m < 64, s.sessReady m = true → s.sessKey 0 ≤ s.sessKey m) ∧ isOk (s.engRead 0 0x2000 32) = true ∧
      0 < leField (blk 32 [(0, 0x3000), (8, 100)]) 8 4) ∧
    (let x : Session := { st := 1, unit := some (blk 32 [(12, 1)], []) }
     x.unit = some (blk 32 [(12, 1)], []) ∧ bit (leField (blk 32 [(12, 1)]) 12 4) 0 = true ∧ x.out = []) ∧
    (let q : BatchQ := { desc := blk 64 [(0, 1), (1, 0x14), (2, 1), (3, 2), (20, 1), (22, 2), (23, 2)], forming := true, opened := 0 }
     q.live = true ∧ q.group = true ∧ q.opened + 1000 * q.win < 1001 ∧ { q with samples := [{ isOpen := false }] }.samples.length = q.n ∧
      q.next = false ∧ sub32 q.written (leNat (leBytes 4 0)) ≤ q.slots ∧ isOk (inpS.engRead 0 4 4) = true) ∧
    (∀ port ∈ [0, 3], up.getF 0 (Fld.CSI_PORTn_STS_STATE.plus (4 * port)) ≠ 1 ∧ up.ownerFn.isSome = true) := by
  decide +kernel

/-! ## Fusion -/

/-- The page is ON, source 31 of kind 0 is enabled with a ring of 16 records. -/
def fusS : State :=
  ((((idleCmd up 0 Fld.FUS_CMD_STS).setPageSt 0x0D stOn).setF (srcBank 31) Fld.FUS_SRC_CFG_EN 1).setF (srcBank 31) Fld.FUS_SRC_CFG_SZ 4)

/-- A good block of a source and a good engine block. -/
def srcB : List Byte := blk 128 [(0, 0x3F800000), (4, 1000)]
def engB : List Byte :=
  blk 64 [(1, 1), (2, 1), (3, 1), (20, 1), (21, 1), (22, 1), (24, 0x3F800000), (28, 0x3F800000)]

theorem witness_fusion :
    (Reaches fusS 0 0x0D ∧ 0 = fusS.srcPart 31 ∧ fusS.srcOn 31 = true ∧
      sub32 16 (fusS.fusSrc 31).head ≤ 2 ^ fusS.getF (srcBank 31) Fld.FUS_SRC_CFG_SZ) ∧
    (∀ op ∈ [1, 2, 3, 4, 5, 6], opCode (op * 2 ^ 28) = op ∧ fusS.isOwner 0 = true ∧ fusS.cmdDone 0 Fld.FUS_CMD_STS = true ∧
      resvHit 0x0D 0x090 (op * 2 ^ 28) = false) ∧
    (isOk (fusS.engRead 0 0x3000 128) = true ∧ srcBlockBad 0 srcB = false ∧ srcBlockBad 0 (leBytes 128 0) = true ∧ engBlockBad engB = false ∧
      engBlockBad (leBytes 64 0) = true) ∧
    (let s := { up.setPageSt 0x0D stOn with now := 1000000 }
     s.tickInstant = some 1000000 ∧ s.pageSt 0x0D = stOn ∧ 1000000 ≠ s.fusion.lastTick ∧ s.fusion.busyUntil ≤ 1000000 ∧
       s.fusion.mismTick < 2 ∧
      (∀ n < 64, s.srcOn n = false) ∧ s.fusion = {} ∧ s.flag 0 Fld.FUS_OUT_CFG_EN = false ∧ s.localErr 0x0D 0 = none) ∧
    (let s := { fusS with fusion := { pass := some [] }, knight := {} }
     s.fusion.pass = some [] ∧ s.knight.mapCmd = none ∧ s.localErr 0x0D 1 = none ∧ s.pageSt 0x0B ≠ stOn ∧
       (s.setPageSt 0x0B stOn).pageSt 0x0B = stOn) ∧
    (fusS.pageSt 0x0D = stOn ∧ 3 ≤ (([9, 8, 7] : List Nat).filter fun x => decide (9 < x + 250000000)).length) := by
  decide +kernel

/-! ## Knight -/

/-- A library of one joint that may only stand at 0, one sphere of radius 0, and one primitive that moves the joint by 1. -/
def libB : List Byte :=
  blk 256 [(0, 1), (2, 1), (3, 1), (4, 1), (6, 1), (8, 256), (12, 64), (16, 128), (20, 160), (24, 192), (161, 1), (162, 1), (176, 1),
    (180, 10),
    (184, 200), (192, 2 ^ 64 - 1)]

/-- A query of that library from and to index 0; a CHECK reads its trajectory at 0x5000. -/
def queryB (op : Nat) : List Byte :=
  blk 128 [(0, op), (4, 1), (8, 64), (12, 1), (16, 0x3000), (24, 0x4000), (32, if op = 2 then 0x5000 else 0), (108, 1)]

/-- The query lies at the head of function 0's ring, context 1 has its library cached, and a trajectory of one segment lies at 0x5000. -/
def kntS (b : List Byte) : State :=
  let s := ringS knightR 1
  let m := cellsWrite (cellsWrite s.mem.dev 0x2000 b) 0x5000 (blk 112 [(6, 1), (64 + 8, 10)])
  { s with mem := { s.mem with dev := m }, knight := { caches := [(1, (0, 0x3000, libB))] } }

/-- A query runs in context 1, its start tested. -/
def kntRunS (k : KSearch) : State :=
  let s := kntS (queryB 1)
  { s with knight := {
    eng := { tasks := [(1, { va := 0x2000, desc := queryB 1 })] }, runs := [(1, { lib := libB, search := k, begun := true })] } }

theorem witness_knightQueries :
    (∀ op ∈ [1, 2], let s := kntS (queryB op)
      let q := parseQuery (queryB op)
      s.ringServed knightR 0 = true ∧ okR (s.ringDesc knightR 0).2 = true ∧ s.devRead 0x2000 128 = queryB op ∧ q.op = op ∧
        s.kHeld 1 0 q = false ∧
      (let s2 := (s.ringDesc knightR 0).1.takeTask knightR 0 0x2000 (queryB op)
       (match s2.kAccept 1 0 0 (queryB op) with
        | .ok r => isOk (r.1.engRead 0 q.scr (64 + 48 * 1)) && decide (r.2 = libB)
        | .error _ => false) = true)) ∧
    (let b := blk 128 [(0, 1)]
     (match (kntS b).kAccept 1 0 0 b with
        | .ok _ => false
        | .error e => !e.isSuccess) = true) ∧
    (leField (blk 112 [(6, 1), (64 + 8, 10)]) 6 2 = 1 ∧
      (∀ g ∈ kParseSegs (parseQuery (queryB 2)) libB (blk 112 [(6, 1), (64 + 8, 10)]) 1 64 0, g.prim < libNPRIM libB)) := by
  decide +kernel

/-- A search from its start state to a goal that it cannot reach, alone and with a second state that is still open. -/
theorem witness_knightBatches :
    (let k := { kSearchMain (parseQuery (queryB 1)) libB with goal := [5] }
     let two : KSearch := { k with states := k.states ++ [{ n := [0], g := 9, order := 1 }], next := 2 }
     let q := parseQuery (queryB 1)
     (kntRunS two).needsDev 0 q.out q.outBytes = false ∧ q.scr = 0 ∧ ((kntRunS two).task knightR 1).any (fun x => x.stop.isNone) = true ∧
     (kntRunS two).ctxMay knightR 1 (kntRunS two).kReady0 = true ∧ (∀ a ∈ [1, 2], (kntRunS two).localErr 0x0B a = none) ∧
     (match (((kntRunS two).chargeTask knightR 1).kTurn q { lib := libB, search := two, begun := true } false).1 with
       | .go _ => true
       | .done _ _ _ _ _ => false) = true ∧
     (match (((kntRunS k).chargeTask knightR 1).kTurn q { lib := libB, search := k, begun := true } false).1 with
       | .go _ => false
       | .done _ st _ _ _ => st == .stalemate) = true) ∧
    (let w : Watch := { desc := queryB 1, lib := libB, path := [{}] }
     let s := { up.setPageSt 0x0B stOn with knight := { watches := [(3, w)], vers := [(511, 1)] } }
     (s.knight.watches.find? fun e => e.1 == 3) = some (3, w) ∧ s.kChanged w.snap = [511] ∧ s.pageSt 0x0B = stOn ∧
      s.needsDev 0 (parseQuery w.desc).out (parseQuery w.desc).outBytes = false ∧ (parseQuery w.desc).t0 + 0 ≤ s.now ∧
      Reaches s 0 0x0B ∧ resvHit 0x0B 0x08C 3 = false) := by
  decide +kernel

/-- Map commands of the smallest map, with its image at 0x2000. -/
def mapS : State :=
  let s := ((idleCmd up 0 Fld.KNT_MAP_CMD_STS).setPageSt 0x0B stOn).setF 0 Fld.KNT_MAP_VA_LO 0x2000
  let s1 := { s with knight := { geom := (0x111, 0x3CA3D70A, 0, 0) } }
  { s1 with mem := { s1.mem with dev := cellsWrite s1.mem.dev 0x2000 s1.mapHeader } }

/-- A fold whose steps leave the start alone. -/
theorem foldl_same {α β : Type} {f : α → β → α} {a : α} (h : ∀ b, f a b = a) : ∀ l : List β, l.foldl f a = a
  | [] => rfl
  | b :: t => by rw [List.foldl_cons, h b]; exact foldl_same h t

theorem mapCodes_zero (s : State) (n : Nat) : s.mapCodes (List.replicate n 0#8) = [] := by
  refine foldl_same (fun i => ?_) _
  have h : (List.replicate n 0#8).getD (i / 4) 0#8 = 0#8 := by
    simp only [List.getD_eq_getElem?_getD, List.getElem?_replicate]; split <;> rfl
  rw [h]; simp [assocSet, assocErase]

theorem witness_mapImage : ∃ b, mapS.engRead 0 mapS.mapVa (64 + mapS.mapCount / 4) = .ok b ∧ b.take 64 = mapS.mapHeader ∧
    mapS.mapCodes (b.drop 64) = [] := by
  have h : (match mapS.engRead 0 mapS.mapVa (64 + mapS.mapCount / 4) with
    | .ok b => decide (b = mapS.mapHeader ++ List.replicate 4096 0#8)
    | .error _ => false) = true := by decide +kernel
  split at h
  · rename_i b hb
    have h : b = mapS.mapHeader ++ List.replicate 4096 0#8 := of_decide_eq_true h
    have hl : mapS.mapHeader.length = 64 := by decide +kernel
    exact ⟨b, hb, by rw [h, ← hl, List.take_left], by rw [h, ← hl, List.drop_left]; exact mapCodes_zero _ _⟩
  · cases h

theorem witness_mapCommands :
    (∀ op ∈ [1, 2, 3, 4], Reaches mapS 0 0x0B ∧ opCode (op * 2 ^ 28) = op ∧ mapS.isOwner 0 = true ∧
      mapS.cmdDone 0 Fld.KNT_MAP_CMD_STS = true ∧ resvHit 0x0B 0x054 (op * 2 ^ 28) = false) ∧
    (mapS.pageSt 0x0B = stOn ∧ mapS.fusion.pass = none ∧ mapS.knight.eng.tasks = [] ∧ mapS.knight.watches = []) ∧
    okR (mapS.vaWrite 0 .engine mapS.mapVa (mapS.mapHeader ++ mapS.mapPlane)) = true ∧
    (∀ v ∈ [0x111, 0x1888], v < 2 ^ 13 ∧ (mapS.getReg 0 0x0B 0x040).toNat < 2 ^ 13 ∧ 1 ≤ bits v 3 0 ∧ bits v 3 0 ≤ 8 ∧ 1 ≤ bits v 7 4 ∧
      bits v 7 4 ≤ 8 ∧ 1 ≤ bits v 11 8 ∧ bits v 11 8 ≤ 8) ∧
    (bit 0x111 12 ≠ (mapS.setFlag 0 Fld.KNT_MAP_CFG_UNKOBS true).flag 0 Fld.KNT_MAP_CFG_UNKOBS ∧
      bit 0x1888 12 ≠ (mapS.setFlag 0 Fld.KNT_MAP_CFG_UNKOBS false).flag 0 Fld.KNT_MAP_CFG_UNKOBS ∧
      mapS.flag 0 (Fld.LOCK_LOCKDOWN.onPage 0x0B) = false) := by
  decide +kernel

/-! ## The Solver engine -/

/-- A problem of one landmark at 0x5000 with a prior at 0x6000; a REPLAY of one operation and one value at 0x5000. -/
def probB (op : Nat) : List Byte :=
  if op = 1 then blk 128 [(0, 1), (4, 1), (8, 1), (12, 1), (24, 0x5000), (32, 0x6000), (40, 0x4000), (48, 0x8000), (80,
    0x3FF0000000000000), (104, 1)]
  else blk 128 [(0, 2), (16, 0x5000), (24, 0x6000), (104, 1)]

def slvS (b : List Byte) (x y : List Byte) : State :=
  let s := ringS solverR 1
  { s with mem := { s.mem with dev := cellsWrite (cellsWrite (cellsWrite (cellsWrite s.mem.dev 0 b) 0x2000 b) 0x5000 x) 0x6000 y } }

def slvP : State := slvS (probB 1) [] (blk 64 [(0, 5), (4, 0xFFFFFFFF)])
def slvR : State := slvS (probB 2) (blk 64 [(0, 0x12100), (4, 1), (8, 1)]) []

theorem witness_solver :
    (∀ e ∈ [(slvP, 1), (slvR, 2)], let b := probB e.2
      e.1.ringServed solverR 0 = true ∧ okR (e.1.ringDesc solverR 0).2 = true ∧ e.1.devRead 0x2000 128 = b ∧ (parseProb b).op = e.2 ∧
      (let s2 := (e.1.ringDesc solverR 0).1.takeTask solverR 0 0x2000 b
       s2.slvMalformed 0 b = false ∧ slvOverLimit (parseProb b) = false ∧
        (if e.2 = 1 then isOk (s2.slvData 0 b) = true else isOk (s2.slvSchedule 0 (parseProb b)) = true) ∧
          s2.slvMalformed 0 (blk 128 [(0, 1)]) = true)) ∧
    (let s := { slvP.setF 0 solverR.tail 0 with solver := { cal := true } }
     s.engTakes solverR = true ∧ s.task solverR 1 = none ∧ s.ringTurn solverR 64 0 = true ∧ s.calVa = 0 ∧
       isOk (s.engRead (s.ownerFn.getD 0) 0 128) = true ∧
      s.slvMalformed 64 (probB 1) = false ∧ isOk (s.slvData 0 (probB 1)) = true) ∧
    (let x : Task := { desc := probB 1 }
     let s := { slvP with solver := { eng := { tasks := [(1, x)] }, runs := [(1, { left := 16385 })] } }
     s.task solverR 1 = some x ∧ (s.solver.runs.find? fun e => e.1 == 1) = some (1, { left := 16385 }) ∧ x.stop = none ∧ x.fn ≠ 64 ∧
       s.ctxMay solverR 1 s.slvReady0 = true ∧ s.localErr 0x0C 1 = none ∧
      250 * (parseProb x.desc).budget ≤ 250) := by
  decide +kernel

/-! ## Tempo -/

/-- Images of a loop of one state, measurement and output: primary and safe. -/
def imgB (safe : Bool) : List Byte :=
  if safe then blk 256 [(0, 1), (2, 1), (3, 1), (4, 1), (6, 1), (8, 256), (20, 64)]
  else blk 960 [(0, 1), (2, 1), (3, 1), (4, 1), (8, 960), (12, 64), (16, 128), (20, 256), (24, 192), (64, 18), (66, 0xFF), (128, 20),
    (136, 5)]

/-- A template of one datagram of 16 bytes. -/
def tmplB : List Byte := blk 316 [(0, 1), (2, 64), (4, 1), (5, 0xFF), (256 + 12, 0xB588), (256 + 14, 0x10), (256 + 22, 0x2010)]

/-- Function 0 is the control-owner's, Tempo and the ring ON, the ring a master at the cycle 2; an image, a template or an injection
block lies at 0x2000. -/
def ctlS (b : List Byte) : State :=
  let s := (((up.setPageSt 0x09 stOn).setPageSt 0x0A stOn).setFlag 0 Fld.DEV_CTLOWN_V true).setF 0 Fld.DEV_CTLOWN_PART 0
  let s1 := ((idleCmd (idleCmd s 0 Fld.TMP_CMD_STS) 0 Fld.JRG_CMD_STS).setF 0 Fld.JRG_STS_MODE 1).setF 0 Fld.TMP_CMD_VA_LO_VA (0x2000 / 64)
  let s2 := (s1.setF 0 Fld.JRG_CMD_VA_LO 0x2000).setF 0 Fld.TMP_CAP_VA_LO_VA (0x4000 / 64)
  { s2 with mem := { s2.mem with dev := cellsWrite s2.mem.dev 0x2000 b }, now := 500000, ring := { tmpl := some (parseTmpl tmplB) } }

/-- A loop of those images, in a state. -/
def loopS (l st : Nat) (b : List Byte) (x : Loop) : State :=
  ((ctlS b).setLoopSt l st).setLoop l { x with prim := imgB false, safe := imgB true }

/-- The command is ready for function 0. -/
def rdyB (s : State) (page off op v : Nat) (sts : Fld) : Bool :=
  decide (Reaches s 0 page) && decide (opCode v = op) && s.isCtlOwner 0 && s.cmdDone 0 sts && !resvHit page off v

theorem witness_tempoCommands :
    (∀ op ∈ [1, 2, 3, 4, 5, 6, 7, 8, 9, 10], ∀ l ∈ [0, 3], ∀ st ∈ [stOn, stOff],
      rdyB ((ctlS []).setPageSt 0x09 st) 0x09 0x050 op (op * 2 ^ 28 + l * 2 ^ 26) Fld.TMP_CMD_STS_STATUS = true) ∧
    (∀ b ∈ [imgB false, imgB true], (parseLoopHdr b).malformed = false ∧
      imageBad b (parseLoopHdr b) = false ∧ (parseLoopHdr b).words ≤ (ctlS b).getF 0 Fld.TMP_FREE_WORDS ∧ (ctlS b).loopActive 3 = false ∧
      ((ctlS b).readImage 0 (ctlS b).tempoVa).2.toOption = some b) ∧
    (parseLoopHdr (imgB false)).sameDims (parseLoopHdr (imgB true)) = true ∧
    (∀ l ∈ [0, 3], let s := (loopS l loopReady [] {}).setF 0 (Fld.TMP_Ln_TCOMP_VALUE.loop l) (parseLoopHdr (imgB false)).tcomp
      s.loopSt l = loopReady ∧ s.ringMode = 1 ∧ s.mapsOk l = true ∧ 62500 ≤ s.loopDiv l * s.cycleNs ∧ s.loopDiv l * s.cycleNs ≤ 4000000 ∧
        s.timingOk l = true) ∧
    (∀ l ∈ [0, 3], let i := blk 64 [(0, 3), (4, 7), (1, 1), (12, 1)]
      let s := loopS l loopRunning i {}
      s.loopActive l = true ∧ s.loopSt l = loopRunning ∧ s.getF 0 (Fld.TMP_Ln_STS_BANK.loop l) = 0 ∧ (s.loop l).toSafe ≠ some true ∧
        okR (s.vaRead 0 .engine s.tempoVa 64) = true ∧ injBad i (parseLoopHdr (s.loop l).prim) = false ∧ leField i 0 1 ≠ 4 ∧
        (s.loop l).inj = none ∧ s.flag 0 Fld.TMP_CAP_CFG_ONINJ = false) ∧
    (let s := (ctlS []).setF 0 Fld.TMP_CAP_CFG_COUNT 16
     s.getF 0 Fld.TMP_CAP_CFG_COUNT ≠ 0 ∧ s.vaCheck 0 s.capVa (32 * s.getF 0 Fld.TMP_CAP_CFG_COUNT) .write = none) := by
  decide +kernel

theorem witness_tempoPeriods :
    (∀ l ∈ [0, 3], ∀ st ∈ [loopArmed, loopRunning], (loopS l st [] {}).sampleCycle l = some 2) ∧
    (∀ l ∈ [0, 3], let s := { loopS l loopRunning [] { await := some 2 } with now := 500100 }
      s.tempoOn = true ∧ s.now ≤ s.stagingDeadline (2 + s.loopDiv l) ∧ s.computesFirst l = true ∧
      { s with ring := { s.ring with returned := some 2 } }.ring.returned = some 2 ∧ s.ring.returned ≠ some 2 ∧
      s.ring.flight = none ∧ s.instant 2 + s.rttMax < 520001 ∧ 520001 ≤ s.stagingDeadline (2 + s.loopDiv l) ∧
      s.stagingDeadline (2 + s.loopDiv l) < 749953) ∧
    (∀ l ∈ [0, 3],
      let s := ((loopS l loopRunning [] { miss := 3 }).setF 0 (Fld.TMP_Ln_GUARD_MISSMAX.loop l) 3).setF 0 (Fld.TMP_Ln_GUARD_MBXMAX.loop l) 3
      let s1 := (((s.setF 0 (Fld.TMP_Ln_MBXAGE_VALUE.loop l) 4).setFlag 0 (Fld.TMP_Ln_CFG_MISSACT.loop l) true).setFlag 0
        (Fld.TMP_Ln_CFG_MBXACT.loop l) true)
      s1.tempoOn = true ∧ s1.loopActive l = true ∧ s1.getF 0 (Fld.TMP_Ln_STS_BANK.loop l) = 0 ∧
        s1.getF 0 (Fld.TMP_Ln_GUARD_MISSMAX.loop l) ≠ 0 ∧
      s1.getF 0 (Fld.TMP_Ln_GUARD_MISSMAX.loop l) ≤ (s1.loop l).miss ∧ s1.flag 0 (Fld.TMP_Ln_CFG_MISSACT.loop l) = true ∧
      s1.getF 0 (Fld.TMP_Ln_GUARD_MBXMAX.loop l) ≠ 0 ∧
      s1.getF 0 (Fld.TMP_Ln_GUARD_MBXMAX.loop l) < s1.getF 0 (Fld.TMP_Ln_MBXAGE_VALUE.loop l) ∧
      s1.flag 0 (Fld.TMP_Ln_CFG_MBXACT.loop l) = true) ∧
    (let i : Inj := { blk := blk 64 [(0, 3), (8, 5)], t := 5 }
     i.dur ≠ 0 ∧ i.dur ≤ i.t) ∧
    (let s := ctlS []
     let s3 := { s with tempo := { s.tempo with mism := [0, 0, 0] } }
     s3.tempoOn = true ∧ 3 ≤ s3.recentMismatches.length) ∧
    (∀ p ∈ [(0x1000, 256), (0x13FC, 4)], (ctlS []).mailboxOk 0 p.1 p.2 = true) ∧
    (let s := loopS 3 loopRunning [] { last := some 2, fresh := [(499999, []), (500001, [])] }
     s.now = 500000 ∧ s.sampleTickOpen 3 = true ∧ ({ s with now := 500001 }).sampleTickOpen 3 = false ∧
      (s.loop 3).stampedBy (s.instant 2) = [(499999, [])] ∧ (s.loop 3).stampedAfter (s.instant 2) = [(500001, [])]) ∧
    (Reaches (ctlS []) 0 0x09 ∧ (ctlS []).isCtlOwner 0 = true ∧ resvHit 0x09 0x090 0xF = false) := by
  decide +kernel

/-! ## The Joint Ring -/

/-- A frame of 64 bytes of a type and sequence number, and of one broadcast write of 16 bytes to image offset 32. -/
def frameB (ty copy seq : Nat) : List Byte :=
  blk 64 [(12, 0xB588), (14, 0x10 + ty), (15, 128 * copy), (16, seq), (22, 0x8010), (26, 32), (32, 7)]

/-- The ring in a mode, at cycle 2. -/
def ringModeS (m : Nat) : State := (ctlS tmplB).setF 0 Fld.JRG_STS_MODE m

theorem witness_ringLinks :
    ∀ p ∈ [0, 1], ∀ m ∈ [0, 1, 2], let s := ringModeS m
      s.ringOn = true ∧ s.pst = 0 ∧ s.pbusy = false ∧ s.getF 0 (linkFld p) = 0 ∧ (s.setFlag 0 (linkFld p) true).getF 0 (linkFld p) = 1 ∧
      (let s1 := { (s.setFlag 0 (linkFld p) true).setFlag 0 (loopFld (1 - p)) true with ticks := 2500000 }
       s1.getF 0 (linkFld p) = 1 ∧ s1.getF 0 (loopFld (1 - p)) = 1 ∧ assocGet 0 s1.ring.upAt p + 2500000 ≤ s1.ticks) := by
  decide +kernel

/-- A cyclic frame of sequence number 5 is under way. -/
def flightS (c0 c1 : RingCopy) : State :=
  let s := ringModeS 1
  { s with now := 520000, ring := { s.ring with flight := some { cycle := 2, seq := 5, frame := frameB 0 0 5, c0 := c0, c1 := c1 } } }

theorem witness_ringMaster :
    (let s := ringModeS 1
     s.cycleNow = some 2 ∧ s.ringOn = true ∧ s.ringMode = 1 ∧ s.ring.flight = none ∧ s.ring.lastLaunch ≠ some 2 ∧
      s.ring.modeAt < s.stagingDeadline 2 ∧ s.ring.next = none ∧ s.ring.tmpl ≠ none ∧ 499951 < s.stagingDeadline 2) ∧
    (∀ c ∈ [0, 1], ∀ q ∈ [5, 6], let s := flightS .away .away
      s.ringOn = true ∧ s.ringMode = 1 ∧ frSeq (frameB 0 c q) = q ∧ (frCopy (frameB 0 c q) = true ↔ c = 1) ∧
        s.now ≤ s.instant 2 + s.rttMax ∧ s.instant 2 + s.rttMax < s.now + 1 ∧
      (q = 6 → frSeq (frameB 0 c q) ≠ s.getF 0 Fld.JRG_SEQ)) ∧
    (RingCopy.frame? .discarded = none ∧ RingCopy.frame? .away = none ∧ RingCopy.frame? (.taken 1 (frameB 0 0 5)) ≠ none ∧
      (flightS .away .away).ring.tmpl ≠ none) := by
  decide +kernel

theorem witness_ringNode :
    (∀ ty ∈ [0, 1], let s := ringModeS 2
      let d : Dg := { pos := 22, cmd := 4, len := 16, offset := 32 }
      s.ringOn = true ∧ s.ringMode ≠ 1 ∧ s.nodeTakes (frameB ty 0 5) = true ∧ s.flag 0 Fld.JRG_CFG_NEXT = false ∧
      frameDgs (frameB ty 0 5) = [d] ∧ s.nodeWrites d = true ∧ s.ring.seqKept ≠ some 5 ∧ frSeq (frameB ty 0 5) = 5) ∧
    (frType (frameB 0 0 5) = 0 ∧ (ringModeS 2).nodeTakes (frameB 2 0 5) = false ∧
      ((ringModeS 2).setFlag 0 (loopFld 1) true).flag 0 (loopFld 1) = true) ∧
    (let f0 := blk 60 [(12, 0xB588), (14, 0x12)]
     let s := (((ringModeS 2).setF 0 Fld.PWR_STATE_STATE 2).setF 0 Fld.PWR_WAKE_EN 2)
     s.pst = 2 ∧ s.pbusy = false ∧ s.wakeFrame (f0 ++ leBytes 4 (crc32 f0)) = true ∧ s.wakeOn 2 1 = true) := by
  decide +kernel

theorem witness_ringCommands :
    (∀ v ∈ [0, 1, 2], let s := ringModeS 1
      Reaches s 0 0x0A ∧ s.isCtlOwner 0 = true ∧ resvHit 0x0A 0x040 v = false ∧ bits v 1 0 ≠ 3 ∧ bit v 8 = false ∧ bits v 31 16 = 0 ∧
      s.anyLoopActive = false) ∧
    (bits (2 ^ 16 + 256) 31 16 < ((ringModeS 1).setF 0 Fld.DSP_QRANGE_QCOUNT 2).qcount 0 ∧ resvHit 0x0A 0x040 (2 ^ 16 + 256) = false) ∧
    (bits 2 1 0 ≠ (ringModeS 1).getF 0 Fld.JRG_CFG_MODE ∧ (((ringModeS 1).setLoopSt 3 loopArmed)).anyLoopActive = true) ∧
    (∀ op ∈ [1, 2], let s := ringModeS 1
      rdyB s 0x0A 0x050 op (op * 2 ^ 28) Fld.JRG_CMD_STS_STATUS = true ∧ s.ringOn = true ∧ s.ringMode = 1 ∧ s.anyLoopActive = false ∧
      okR (s.readTmpl 0 s.ringVa) = true ∧ (s.acycTime 64).isSome = true ∧ (s.setPageSt 0x0A stOff).ringOn = false) ∧
    (let s := ringModeS 1
     let s1 := { s with ring := { s.ring with acyc := some (0x2000, some 490000) } }
     s1.ctlOwner = some 0 ∧ 490000 ≤ s1.now ∧ s1.now ≤ 490000 + s1.rttMax ∧ 490000 + s1.rttMax < ({ s1 with now := 510001 }).now ∧
      okR (({ s1 with ring := { s1.ring with acyc := none } }).vaWrite 0 .engine (0x2000 + 256) (frameBody (frameB 0 0 5))) = true) := by
  decide +kernel

/-! ## The timebase and Ethernet -/

/-- The owner's timebase: both sources allowed and just heard, the last step done; the ring a node. -/
def tmbS : State :=
  let s := ((ringModeS 2).setF 0 Fld.TMB_SRC_CFG_PTPROLE 1).setFlag 0 Fld.TMB_SRC_CFG_RINGEN true
  let s1 := ((idleCmd s 0 Fld.TMB_STEP_STS_STATUS).setF 0 Fld.TMB_SRC_CFG_LOSSTO 10).setF 0 Fld.TMB_SLEW 1000
  { s1 with time := { s1.time with ptp := { lastAt := some 0 }, ring := { lastAt := some 0 }, close := 15 } }

theorem witness_timebase :
    (tmbS.serves 0x04 = true ∧ Reaches tmbS 0 0x04 ∧ tmbS.isOwner 0 = true ∧ tmbS.cmdDone 0 Fld.TMB_STEP_STS_STATUS = true ∧
      tmbS.anyLoopActive = false ∧ (tmbS.setLoopSt 3 loopRunning).anyLoopActive = true) ∧
    (∀ k ∈ [srcRing, srcPtp], let s := (tmbS.setF 0 Fld.TMB_SRC_STS_SRC k).setF 0 Fld.TMB_SRC_STS_STATE tmAcquiring
      s.srcAllowed k = true ∧ s.getF 0 Fld.TMB_SRC_STS_SRC = k ∧ s.getF 0 Fld.TMB_SLEW ≤ 1000000000 ∧
      s.getF 0 Fld.TMB_SRC_STS_STATE = tmAcquiring ∧ 8 * (0 : Int).natAbs ≤ s.getF 0 Fld.TMB_STEPMIN ∧ 15 ≤ s.time.close) ∧
    (∀ k ∈ [srcRing, srcPtp],
      let s := { tmbS.setF 0 Fld.TMB_SRC_CFG_QUAL 0 with
        time := if k = srcPtp then { ptp := { lastAt := some 0 } } else { ring := { lastAt := some 0 } } }
      s.srcQualified k = true ∧ s.asleep = false ∧ s.getF 0 Fld.TMB_SRC_STS_STATE ≠ tmAcquiring ∧
      s.getF 0 Fld.TMB_SRC_STS_STATE ≠ tmLocked ∧ (k = srcRing → s.srcQualified srcPtp = false)) ∧
    (∀ p ∈ [none, some 0], ∀ r ∈ [none, some 0], (p = none ∨ r = none) → let k := if p = none then srcPtp else srcRing
      let s := { (tmbS.setF 0 Fld.TMB_SRC_STS_SRC k).setF 0 Fld.TMB_SRC_STS_STATE tmLocked with
        time := { ptp := { lastAt := p }, ring := { lastAt := r } } }
      s.getF 0 Fld.TMB_SRC_STS_STATE = tmLocked ∧ s.srcAvailable (s.getF 0 Fld.TMB_SRC_STS_SRC) = false ∧
      s.srcAvailable srcPtp = p.isSome ∧ s.srcAvailable srcRing = r.isSome) := by
  decide +kernel

theorem witness_triggersAndCaptures :
    (∀ n ∈ [0, 15], let s := (tmbS.setFlag 0 (Fld.TMB_TRGn_CFG_EN.plus (16 * n)) true).setTrigger n { next := some 500000 }
      n < 16 ∧ (s.trigger n).next = some 500000 ∧ 500000 ≤ s.now ∧ s.flag 0 (Fld.TMB_TRGn_CFG_EN.plus (16 * n)) = true ∧ s.asleep = false) ∧
    (∀ n ∈ [0, 15], ∀ e ∈ [1, 2, 3],
      let s := (tmbS.setFlag 0 (Fld.TMB_CAPn_CFG_EN.plus (16 * n)) true).setF 0 (Fld.TMB_CAPn_CFG_EDGE.plus (16 * n)) e
      let s8 := s.setCapQueue n (List.replicate 8 (5, true))
      s.flag 0 (Fld.TMB_CAPn_CFG_EN.plus (16 * n)) = true ∧ s.getF 0 (Fld.TMB_CAPn_CFG_EDGE.plus (16 * n)) = e ∧ (s.capQueue n).length < 8 ∧
      8 ≤ (s8.capQueue n).length ∧ s.capQueue n = [] ∧ s8.capQueue n = (5, true) :: List.replicate 7 (5, true)) ∧
    (tmbS.pst = 0 ∧ tmbS.pbusy = false ∧ ({ tmbS with time := { alarm := some 500000 } }).time.alarm = some 500000 ∧ 500000 ≤ tmbS.now) := by
  decide +kernel

/-- A port block of rings of 16 descriptors at 0x6000 and 0x7000 and buffers of 256 bytes. -/
def ethB : List Byte := blk 64 [(0, 0x6000), (8, 0x7000), (16, 0x0404), (18, 256)]

/-- Function 0's ports run, with the link up, one descriptor posted in each ring, and its buffer at 0x8000. -/
def ethS (p : Nat) : State :=
  let d := blk 32 [(0, 0x8000), (8, 60)]
  let s := ((up.setPageSt 0x11 stOn).setFlag 0 (Fld.ETH_Pn_CFG_EN.port p) true).setFlag 0 (Fld.ETH_Pn_STS_LINK.port p) true
  let s1 := ((s.setF 0 (Fld.ETH_Pn_TXTAIL.port p) 1).setF 0 (Fld.ETH_Pn_RXTAIL.port p) 1).setReg 0 0x11 (0x048 + 0x40 * p) 0x5000#32
  let m := cellsWrite (cellsWrite (cellsWrite s1.mem.dev 0x5000 ethB) 0x6000 d) 0x7000 d
  ({ s1 with mem := { s1.mem with dev := m } }).setEthPort p { block := some ethB }

theorem witness_ethernet : ∀ p ∈ [0, 1], let s := ethS p
    (Reaches s 0 0x11 ∧ s.ethFn p = 0 ∧ resvHit 0x11 (0x04C + 0x40 * p) 0 = false ∧ ethBlockBad ethB = false ∧
      okR ((s.setReg 0 0x11 (0x04C + 0x40 * p) 0#32).readEthBlock 0 ((s.getReg 0 0x11 (0x048 + 0x40 * p)).toNat)) = true) ∧
    (∀ r ∈ [EthRing.tx, EthRing.rx],
      let h := s.getF 0 (r.headFld.port p)
      (s.ethPort p).block = some ethB ∧ s.flag 0 (Fld.ETH_Pn_CFG_EN.port p) = true ∧
      sub32 (s.getF 0 (r.tailFld.port p)) h < sub32 16 h ∧ sub32 16 h ≤ r.size ethB ∧ r.size ethB < sub32 17 h ∧
      s.ethPosted p r = true ∧ okR (s.vaRead 0 .engine (s.ethDescVa p r ethB) 32) = true ∧ s.ethWaits p ethB r 0x8000 = false) ∧
    (s.ethRuns p = true ∧ s.flag 0 (Fld.ETH_Pn_STS_LINK.port p) = true ∧ s.asleep = false ∧ txDescBad (blk 32 [(0, 0x8000), (8,
      60)]) = false ∧
      txDescBad (blk 32 [(0, 0x8000), (8, 59)]) = true ∧ okR (s.vaRead 0 .engine 0x8000 60) = true ∧ gateFits ethB 0 0 60 = true ∧ gateNow ethB 0 0 60 s.now = true ∧
      okR (s.vaWrite 0 .engine 0x8000 (frameBody (blk 256 []))) = true ∧ s.ptpPort p = false ∧ (blk 256 []).length ≤ leField ethB 18 2) ∧
    (isPtp (blk 64 [(12, 0xF788)]) = true ∧
      ((s.setF 0 Fld.TMB_SRC_CFG_PTPROLE 1).setF 0 Fld.TMB_SRC_CFG_PTPPORT p).ptpPort p = true ∧
      s.getF 0 (Fld.ETH_Pn_STS_LINK.port p) = 1 ∧ (s.setFlag 0 (Fld.ETH_Pn_STS_LINK.port p) false).getF 0 (Fld.ETH_Pn_STS_LINK.port p) = 0 ∧
      s.pst = 0 ∧ s.pbusy = false) := by
  decide +kernel

theorem witness_magicPacket (p : Nat) : hasMagic p ((List.range 102).map (magicByte p)) = true := by
  unfold hasMagic
  rw [List.any_eq_true]
  exact ⟨0, by simp, by simp [List.take_of_length_le]⟩

theorem witness_magicWake : ∀ p ∈ [0, 1], let s := ((ethS p).setF 0 Fld.PWR_STATE_STATE 2).setF 0 Fld.PWR_WAKE_EN (2 ^ (3 + p))
    s.pst = 2 ∧ s.pbusy = false ∧ s.wakeOn 2 (3 + p) = true := by
  decide +kernel

/-! ## Power -/

/-- Give registers of page 0x02 that show fuses a value: ARB, OWNER, POLICY and UNITID. -/
def fused (owner policy : Nat) (s : State) : State :=
  let l := [(0x54, 0), (0x58, owner), (0x5C, policy), (0x84, 1), (0x88, 2), (0x8C, 3), (0x90, 4)]
  { s with regs := l.foldl (fun (r : List (Nat × Word)) (e : Nat × Nat) => assocInsert (regKey 0 2 e.1) (BitVec.ofNat 32 e.2) r) s.regs }

/-- The owner's power page, with every file OFF. -/
def powS : State := idleCmd (idleCmd up 0 Fld.PWR_GRANT_STS_STATUS) 0 Fld.PWR_STATE_STS_STATUS

/-- File 0 is reserved for an image of function 0 that needs 90 W. -/
def needS : State :=
  let s := (powS.setF 0 (Fld.FIL_PART_ASSIGNED.onPage 0x20) 1).setF 0 (Fld.FIL_PART_KRES.onPage 0x20) 1
  { s with images := [(0, { kimg := true, kopp := 8, kmw := 90000 })] }

theorem witness_grants :
    (Reaches powS 0 0x03 ∧ powS.isOwner 0 = true ∧ powS.cmdDone 0 Fld.PWR_GRANT_STS_DONE = true ∧ grantBad 0 = true) ∧
    (∀ cap ∈ [250, 1600], let s := powS.setF 0 Fld.PWR_CAP_CAP 600
      let v := 2 ^ 16 * cap + 5
      grantBad v = false ∧ bits v 26 16 = cap ∧ bit v 31 = false ∧ capMeets (s.fracOf 0) (s.fracOf 6) cap s.kneed = true ∧
      (s.getF 0 Fld.PWR_CAP_CAP ≤ cap ↔ cap = 1600)) ∧
    capMeets (needS.fracOf 0) (needS.fracOf 6) (bits (2 ^ 16 * 250) 26 16) needS.kneed = false ∧
    (let s := { powS with pow := { powS.pow with grant := some (250, 7, false) } }
     ∀ d, d < 7 → s.getF 0 (domFld Fld.PWR_DOMn_EST d) * 10 ≤ s.limitAt 250 d) ∧
    (let s := powS.setFlag 0 Fld.PWR_CAP_KSUSP true
     s.getF 0 Fld.PWR_CAP_KSUSP = 1 ∧ s.getF 0 Fld.PWR_LIMIT_THERM = 0 ∧ s.pow.failing = none ∧
      s.getF 0 Fld.PWR_OPP_KFLOOR ≤ s.getF 0 Fld.PWR_OPP_CUR) := by
  decide +kernel

theorem witness_limits :
    (powS.flag 0 (Fld.LOCK_LOCKDOWN.onPage 0x03) = false ∧
      (∀ v ∈ [0x10204, 0x1010204 - 0x1000000], resvHit 0x03 0x064 v = false ∧ 4 ≤ bits v 7 0 ∧ 2 ≤ bits v 15 8 ∧ 1 ≤ bits v 23 16) ∧
      [powS.getF 0 Fld.PWR_FRAC0_BRD, powS.getF 0 Fld.PWR_FRAC0_MEM, powS.getF 0 Fld.PWR_FRAC0_NOC, powS.getF 0 Fld.PWR_FRAC0_PV,
        bits 0x10204 7 0, bits 0x10204 15 8, bits 0x10204 23 16].sum = 100 ∧
      capMeets 58 1 powS.acceptedCap powS.kneed = true ∧ resvHit 0x03 0x064 0x10205 = false) ∧
    (let s := powS.setF 0 Fld.PWR_OPP_CUR 8
     s.pow.guard = none ∧ s.limitOf 0 < min 0xFFFF 0xFFFF * 10 ∧ s.pow.change = none ∧ s.pow.nextOpp = none ∧
       s.minOpp < s.getF 0 Fld.PWR_OPP_CUR) ∧
    (∀ o ∈ [0, 10], ({ powS with pow := { powS.pow with change := some o } }).pow.change = some o ∧ o ≤ 10) ∧
    (∀ f ∈ [0, 15], (powS.setPageSt (filePage f) stOn).filePowered f = true) ∧
    (powS.getF 0 Fld.PWR_LIMIT_THERM = 0 ∧ (powS.setFlag 0 Fld.PWR_LIMIT_THERM true).getF 0 Fld.PWR_LIMIT_THERM = 1) := by
  decide +kernel

/-- A state of the device, at rest or in a step of a transition. -/
def pstS (st : Nat) : State := powS.setF 0 Fld.PWR_STATE_STATE st
def stepS (st target step : Nat) : State :=
  let s := (((pstS st).setF 0 Fld.PWR_STATE_TARGET target).setF 0 Fld.PWR_STATE_STEP step).setFlag 0 Fld.PWR_STATE_BUSY true
  s.setF 0 { Fld.PWR_STATE_STS_STATUS with hi := 15, lo := 15 } 0

theorem witness_powerRequests :
    ∀ op ∈ [0, 1, 2, 3], ∀ st ∈ [0, 1, 2], let s := pstS st
      let l := s.setLoopSt 3 loopArmed
      s.pst = st ∧ Reaches s 0 0x03 ∧ opCode (op * 2 ^ 28) = op ∧ s.isOwner 0 = true ∧ resvHit 0x03 0x044 (op * 2 ^ 28) = false ∧
      s.pbusy = false ∧ s.anyLoopActive = false ∧ l.pst = st ∧ l.pbusy = false ∧ l.anyLoopActive = true := by
  decide +kernel

theorem witness_powerSteps :
    (∀ n ∈ [2, 5, 7], let s := stepS 0 1 n
      Moving s 1 n ∧ s.pow.woken = false ∧ s.memOn = true ∧ (∀ p ∈ [0x0C, 0x0E, 0x0F], s.pageMoves p = false) ∧ s.pow.off = false ∧
      s.pow.recorded = none ∧ s.pow.warm = none ∧ s.cmdDone 0 Fld.PWR_STATE_STS_STATUS = false ∧
        (s.setPageSt 0x05 stOn).pageSt 0x05 = stOn) ∧
    (let s := { stepS 0 1 3 with ticks := 250000 }
     Moving s 1 3 ∧ s.jobs = [] ∧ s.pow.stepAt + s.getF 0 Fld.PWR_HOLD_DRAIN * 250 ≤ s.ticks) ∧
    (∀ n ∈ [0x80, 0x81, 0x83], let s := (stepS 1 0 n).setPageSt 0x05 stOn
      Moving s 0 n ∧ s.pow.viaHold = false ∧ (s.setPageSt 0x07 stHeld).pageSt 0x07 = stHeld ∧ s.pageSt 0x05 = stOn ∧
      (∀ f, f < 16 → s.pageSt (filePage f) = stOff) ∧ (∀ p ∈ [0x09, 0x0A, 0x0B, 0x0C, 0x0D, 0x0E, 0x0F], s.pageSt p = stOff) ∧
      s.pow.slept = [] ∧ s.pow.warm = none ∧ s.pow.recorded = none ∧ s.cmdDone 0 Fld.PWR_STATE_STS_STATUS = false) ∧
    (∀ st ∈ [1, 2], let s := (pstS st).setF 0 Fld.PWR_WAKE_EN 0x1FE
      s.pst ≠ 0 ∧ s.pbusy = false ∧ s.wakeOn st 8 = true ∧ s.wakeOn st 0 = true ∧
      (∀ pin ∈ [0, 47], s.getF 0 (pinFld 0x058 pin) = 0 ∧ (s.setF 0 (pinFld 0x058 pin) 1).getF 0 (pinFld 0x058 pin) = 1 ∧
        (s.setF 0 (pinFld 0x058 pin) 1).wakeOn st 7 = true)) := by
  decide +kernel

theorem witness_bringUp :
    (powS.isOff = false ∧ State.reset.isOff = true ∧ State.reset.rst.latched = false) ∧
    (∀ n ∈ [1, 2, 3, 4, 5, 6], let s := fused 0 0 (State.reset.setF 0 Fld.DEV_BOOT_STAGE n)
      s.rst.pinLow = false ∧ s.getF 0 Fld.DEV_BOOT_STAGE = n ∧ s.fastBoot = false ∧ (∀ sq, sq < 256 → s.sqSt sq ≠ sqTest) ∧
        s.policy 2 = false ∧
      s.policy 3 = false ∧ s.csl.running = []) := by
  decide +kernel

theorem witness_resets :
    (∀ op ∈ [1, 2, 3, 4, 5, 6], let s := (idleCmd powS 0 Fld.DEV_CMD_STS_STATUS).setF 0 Fld.DEV_MODE_MODE 0
      let v := op * 2 ^ 28 + if op ≤ 3 then 0xA5 else 0
      Reaches s 0 0x00 ∧ s.getF 0 Fld.DEV_BOOT_STAGE = 7 ∧ opCode v = op ∧ s.isOwner 0 = true ∧ s.cmdDone 0 Fld.DEV_CMD_STS_DONE = true ∧
      resvHit 0x00 0x04C v = false ∧ (bits v 7 0 = if op ≤ 3 then 0xA5 else 0) ∧ s.isActive = true ∧ s.isOff = false ∧
      s.arb.restarting = false ∧ s.rst.run = none ∧ s.tempo = {} ∧ s.modeRefused = false ∧ (s.setLoopSt 3 loopArmed).modeRefused = true ∧
      s.getF 0 Fld.DEV_MODE_MODE ≠ 3 ∧ (s.setF 0 Fld.DEV_MODE_MODE 3).getF 0 Fld.DEV_MODE_MODE = 3) ∧
    (∀ l ∈ [[], [1], [1, 2]], ((5 : Nat) :: l.filter fun x => decide (5 < x + 250000000)).length = l.length + 1) ∧
    (∀ c ∈ [true, false], ∀ n ∈ [1, 4, 5], let s := { powS with rst := { powS.rst with run := some (c, n) } }
      s.mem.entries = [] ∧ s.rst.board = false ∧ s.rst.compute = false ∧ s.dspOn = false ∧ { s.mem with locked := [] }.locked = [] ∧
      (s.setF 0 { Fld.DEV_CMD_STS_STATUS with hi := 15, lo := 15 } 0).cmdDone 0 Fld.DEV_CMD_STS_DONE = false) ∧
    (let s := { powS.setF 0 Fld.DEV_MODE_MODE 2 with rst := { powS.rst with bist := [0, 15] } }
     s.getF 0 Fld.DEV_MODE_MODE = 2 ∧ (∀ f ∈ s.rst.bist, f < 16) ∧ sqFile 0 ∈ s.rst.bist) ∧
    (let s := { powS with arb := { powS.arb with restarting := true, mbx := [0] }, rst := { powS.rst with pinLow := true } }
     s.arb.restarting = true ∧ s.arb.mbx = [0] ∧ s.rst.pinLow = true) := by
  decide +kernel

/-! ## Castle -/

/-- Function 0's Castle page: slot 1 is active with AUTH, its challenge stands, and its command's VA is 0x2000, where `b` lies. -/
def cslS (owner : Nat) (b : List Byte) : State :=
  let s := fused owner 0 (idleCmd (up.setF 0 Fld.DEV_MODE_MODE 0) 0 Fld.CSL_CMD_STS_STATUS)
  let s1 := s.setF 0 Fld.CSL_CMD_VA_LO 0x2000
  { s1 with mem := { s1.mem with dev := cellsWrite s1.mem.dev 0x2000 b }, csl := { s1.csl with chal := [(0, 0)] } }

/-- A token of a purpose under a KEYSLOT, with two words of ARG and one byte pair for ENROL. -/
def tokB (purpose slot a0 a1 e : Nat) : List Byte :=
  blk 256 [(0, 0x4B54594B), (4, 1), (6, purpose), (7, slot), (8, 1), (12, 2), (16, 3), (20, 4), (64, a0), (68, a1), (121, e),
    (128, if slot = 0xFE ∧ purpose = 2 then 0 else slot)]

theorem witness_castleCommands :
    (∀ op ∈ [1, 2, 3, 4, 5, 6, 7, 8, 9, 10], let s := cslS 0x200002 []
      Reaches s 0 0x02 ∧ opCode (op * 2 ^ 28) = op ∧ s.isOwner 0 = true ∧ s.cmdDone 0 Fld.CSL_CMD_STS_STATUS = true ∧
      resvHit 0x02 0x044 (op * 2 ^ 28) = false ∧ s.csl.upd = none ∧ s.csl.session = false ∧
      ({ s with csl := { s.csl with upd := some {} } }).csl.upd ≠ none) ∧
    (let s := idleCmd (cslS 0 []) 16 Fld.CSL_CMD_STS_STATUS
     Reaches s 16 0x02 ∧ s.isOwner 16 = false ∧ s.cmdDone 16 Fld.CSL_CMD_STS_STATUS = true) ∧
    (let s := (cslS 0 []).startCmd 0 Fld.CSL_CMD_STS_STATUS
     (s.flag 0 Fld.CSL_STS_BACKOFF = false ∧ s.flag 0 Fld.CSL_STS_TRNGFAIL = false ∧ okR (s.mgrRead 0 0x2000 32) = true ∧
      okR (s.mgrRead 0 0x2000 64) = true ∧ (s.mgrWrite 0 0x2040 [1#8]).2 = .ok) ∧
     ({ s with csl := { s.csl with entries := [(3, 1)] } }).csl.entries.find? (fun k => k.1 == 3) = some (3, 1)) := by
  decide +kernel

/-- A token passes every check, but for a signature that a key would have to be known for. -/
def tokenPasses (s : State) (b : List Byte) : Bool :=
  let r := ((s.startCmd 0 Fld.CSL_CMD_STS_STATUS).useChallenge 0).mgrRead 0 0x2000 256
  (match r.2 with
   | .ok x => x == b
   | .error _ => false) && !tokenBad b && (b.drop 8).take 16 == r.1.unitId && s.challengeOf 0 == some ((b.drop 24).take 32) &&
    r.1.tokenKeyOk 0 b && !r.1.tokenForbidden b

theorem witness_tokens :
    (∀ b ∈ [tokB 1 1 0x1F 86400 0, tokB 4 1 0 0 0x102, tokB 5 1 1 0 0, tokB 6 1 0x1F 0 0], tokenPasses (cslS 0x200002 b) b = true) ∧
    (let b := tokB 2 0xFE 1 0 0
     tokenPasses (cslS 0 b) b = true ∧ (cslS 0 b).tokenSigOk b = true ∧
       ((cslS 0 b).setF 0 Fld.DEV_OWN_STATE 0).getF 0 Fld.DEV_OWN_STATE = 0) ∧
    ((cslS 0x200002 []).slotActive 1 = true ∧ (cslS 0x200002 []).slotActive 0 = false) := by
  decide +kernel

theorem witness_castleEvents :
    (let s := cslS 0 []
     s.csl.chal.find? (fun e => e.1 == 0) = some (0, 0) ∧ s.ticks < 0 + 15000000000 ∧
      0 + 15000000000 ≤ ({ s with ticks := 15000000000 }).ticks) ∧
    (let s := { cslS 0 [] with csl := { session := true, ends := 5, backoffAt := some 0 } }
     s.csl.session = true ∧ s.now < s.csl.ends ∧ s.csl.ends ≤ ({ s with now := 5 }).now ∧ s.csl.backoffAt = some 0 ∧
      s.ticks < 0 + 2500000000 ∧ 0 + 2500000000 ≤ ({ s with ticks := 2500000000 }).ticks) := by
  decide +kernel

theorem witness_imageSets :
    (∀ p ∈ [1, 2, 3], let u : UpdSt := { fn := 0, va := 0x2000, pass := p }
      let s := { cslS 0 [] with csl := { upd := some u } }
      s.csl.upd = some u ∧ s.getF 0 Fld.PWR_STATE_STATE ≠ 2 ∧ s.csl.waiting = [] ∧
      (match (s.readSet u).2 with
       | .ok b => s.setFault b == some .cslMalformed
       | .error _ => false) = true) ∧
    (let s := (cslS 0 []).setF 0 Fld.DEV_BOOT_STAGE 8
     s.serves 0x02 = true ∧ s.getF 0 Fld.DEV_BOOT_STAGE = 8 ∧ (cslS 0 []).getF 0 Fld.DEV_BOOT_STAGE ≠ 8 ∧ opCode (2 ^ 28) = 1 ∧
      resvHit 0x02 0x0A0 (2 ^ 28 + 0xFFF) = false ∧ s.csl.rcv = none ∧
      (let x := { s.setFlag 0 Fld.CSL_RCV_STS_READY true with csl := { rcv := some { port := 3, pages := 1 } } }
       x.csl.rcv = some { port := 3, pages := 1 } ∧ (48 : Nat) % 16 = 0 ∧ 48 / 16 = 3 ∧ x.flag 0 Fld.CSL_RCV_STS_READY = true ∧
        opCode (2 * 2 ^ 28) = 2 ∧ resvHit 0x02 0x0A0 (2 * 2 ^ 28 + 1) = false ∧ bits (2 * 2 ^ 28 + 1) 11 0 ≠ x.getF 0 Fld.CSL_RCV_STS_DONE ∧
        bits (2 * 2 ^ 28) 11 0 = x.getF 0 Fld.CSL_RCV_STS_DONE ∧
        x.manifestFault (cellsRead [] 0 4096) = some .cslMalformed)) ∧
    (∀ n ∈ [0, 511], let r : RcvSt := { pages := 4096, chunk := some n }
      r.chunk = some n ∧ n < 512 ∧ ((n + 1) * 32768 < r.pages * 4096 ↔ n = 0)) := by
  decide +kernel

/-! ## The Arbiter -/

/-- A request stands at the head of the Arbiter's order for a function. -/
def mbxS (fn : Nat) (req : List Byte) : State :=
  let s := idleCmd up fn Fld.ARB_MBX_STS_STATUS
  let s1 := (List.range 8).foldl (fun (s : State) i => s.setReg fn 0x01 (0x400 + 4 * i) (BitVec.ofNat 32 (leField req (4 * i) 4))) s
  { s1 with arb := { s1.arb with mbx := [fn] } }

theorem witness_mailbox :
    (∀ v ∈ [1, 2], let s := idleCmd up 0 Fld.ARB_MBX_STS_STATUS
      Reaches s 0 0x01 ∧ s.arb.restarting = false ∧ s.cmdDone 0 Fld.ARB_MBX_STS_STATUS = true ∧ (resvHit 0x01 0x040 v = true ↔ v = 2) ∧
        bit 1 0 = true ∧
      (s.startCmd 0 Fld.ARB_MBX_STS_STATUS).cmdDone 0 Fld.ARB_MBX_STS_STATUS = false) ∧
    (∀ p ∈ [(1, 4), (2, 0), (3, 8), (4, 8), (5, 0), (6, 16)], ∀ bad ∈ [true, false], ∀ fn ∈ [0, 16],
      let s := mbxS fn (blk 32 [(0, p.1), (4, p.2), (8, if bad then 1 else 0), (24, 0), (28, 1)])
      s.arb.mbx.head? = some fn ∧ s.arb.restarting = false ∧ s.arb.cfg = none ∧ leField (s.mbxReq fn) 0 1 = p.1 ∧
      mbxBad (s.mbxReq fn) = bad ∧ s.isOwner fn = (fn == 0)) := by
  decide +kernel

theorem witness_configuration :
    (∀ q ∈ [true, false],
      let s := { (powS.setF 0 (Fld.FIL_PART_ASSIGNED.onPage 0x20) 1).setPageSt 0x20 (if q then stOff else stOn) with
        parts := [(0, { held := true })], arb := { powS.arb with cfg := some (blk 64 [(4, 1)], 0), mbx := [0] } }
      s.arb.cfg = some (blk 64 [(4, 1)], 0) ∧ s.cfgQuiet (parseCfg (blk 64 [(4, 1)])) = q ∧ s.arb.mbx.head? = some 0 ∧
      (0 ∈ s.heldParts ∧ (parseCfg (blk 64 [(4, 1)])).part 0 = none)) ∧
    ((List.replicate 83 0).length = 83 ∧ powS.arb.restarting = false ∧ powS.getF 0 Fld.PWR_STATE_STATE ≠ 2 ∧ powS.arb.plateAt = none) ∧
    (let s := up.setFlag 0 Fld.ARB_SMB_CFG_EN true
     (up.setFlag 0 Fld.ARB_SMB_CFG_EN false).flag 0 Fld.ARB_SMB_CFG_EN = false ∧ s.flag 0 Fld.ARB_SMB_CFG_EN = true ∧
       s.arb.restarting = false ∧ s.serves 0x01 = true ∧
      leField [0#8, 1#8, 2#8] 0 1 % 128 = 0 ∧ leField [0#8, 1#8, 2#8] 2 1 = 2 ∧
      (∀ o ∈ [1, 2, 3, 4, 5], let m := [0x7E#8, 0#8, 0#8] ++ blk 32 [(0, o), (4, (mbxLen o).getD 0)]
        leField m 0 1 % 128 = 0x7E ∧ leField (m.drop 3) 0 1 = o ∧ mbxBad (m.drop 3) = false)) := by
  decide +kernel

theorem witness_plate : plateOk 0 = true ∧ plateOk 100 = false := by
  unfold plateOk; constructor <;> split <;> decide

theorem witness_hosts : ∀ p ∈ [0, 3], let s := { up with regs := assocInsert (regKey 0 0x10 0x50) 2#32 up.regs }
    (p < s.portCount ∧ s.getF 0 Fld.DEV_BOOT_STAGE = 7 ∧ (s.setHostSt p 0).hostSt p = 0) ∧
    (let d := { (s.setHostSt p 1).setPort p { downAt := some 0, seenUp := true } with ticks := 250000000 }
     d.hostSt p = 1 ∧ d.hostDue p = true ∧ ({ d with ticks := 249999999 }).hostDue p = false) ∧
    (let o := (s.setF 0 Fld.DEV_OWN_STATE 2).setF 0 Fld.DEV_OWN_FUNC (16 * p)
     o.getF 0 Fld.DEV_OWN_STATE = 2 ∧ o.getF 0 Fld.DEV_OWN_FUNC / 16 = p) ∧
    (let l := { (s.setHostSt p 2).setPort p { lostAt := some 0 } with parts := [(16 * p, { held := true })] }
     (l.port p).lostAt = some 0 ∧ l.hostSt p = 2 ∧ l.arb.cfg = none ∧ l.arb.restarting = false ∧
      l.ticks < 0 + l.getF 0 Fld.DEV_GRACE_S * 250000000 ∧
        0 + l.getF 0 Fld.DEV_GRACE_S * 250000000 ≤ ({ l with ticks := 2500000000 }).ticks ∧
      16 * p ∈ l.heldParts ∧ 16 * p / 16 = p) := by
  decide +kernel

/-! ## Images -/

theorem witness_images :
    (∀ op ∈ [1, 2, 3], ∀ i ∈ [none, some ({ kimg := true } : Image), some {}],
      let s := (idleCmd up 0 Fld.DSP_IMG_STS_STATUS).setF 0 (Fld.FIL_PART_ASSIGNED.onPage 0x20) 1
      let s1 := { s with images := match i with
        | some im => [(imageKey 0 5, im)]
        | none => [] }
      Reaches s1 0 0x05 ∧ opCode (op * 2 ^ 28 + 5) = op ∧ bits (op * 2 ^ 28 + 5) 15 0 = 5 ∧ s1.cmdDone 0 Fld.DSP_IMG_STS_STATUS = true ∧
      resvHit 0x05 0x1C8 (op * 2 ^ 28 + if op = 1 then 0 else 5) = false ∧ s1.image 0 5 = i ∧ s1.partKFiles 0 = [] ∧
      (s1.setF 0 (Fld.FIL_PART_KRES.onPage 0x20) 1).partKFiles 0 ≠ [] ∧ okR (s1.readTouth 0 (s1.imgVa 0)) = true) ∧
    (∀ j ∈ [true, false],
      let s := up.startCmd 0 Fld.DSP_IMG_STS_STATUS
      let s1 := { s with
        images := [(imageKey 0 5, { unloading := true, replacing := some 3 })],
        jobs := if j then [(0, { st := .started, image := 5 })] else [] }
      s1.image 0 5 = some { unloading := true, replacing := some 3 } ∧ (s1.imageJobs 0 5 = [] ↔ j = false) ∧
      s1.cmdDone 0 Fld.DSP_IMG_STS_STATUS = false ∧ (s1.imageJobs 0 5).all (fun e => decide (e.2.startTick ≤ 3)) = true) := by
  decide +kernel

/-! ## Peripheral controllers -/

/-- A descriptor of a controller's READ, WRITE or WRITE_READ of 4 bytes each way. -/
def pdB (op tmo : Nat) : List Byte := blk 64 [(0, op), (8, 4), (10, 4), (12, tmo), (16, 0x3000)]

/-- The controller runs for function 0 with a descriptor. -/
def perS (c : Nat) (d : List Byte) (o : Option (Status × Nat × Nat)) : State :=
  let s := ((up.setF (perBank c) Fld.GPI_PER_CFG_EN 1).setF (perBank c) Fld.GPI_PER_CFG_SZ 4).setF (perBank c) Fld.GPI_PER_TAIL 1
  (s.setF 0 Fld.GPI_PER_SEL_CTRL c).setPer c { desc := some d, outcome := o }

theorem witness_peripherals :
    (∀ c ∈ [0, 13], let s := perS c [] none
      Reaches s 0 0x13 ∧ s.getF 0 Fld.GPI_PER_SEL_CTRL = c ∧ s.perMay 0 c = true ∧ s.perMay 16 c = false ∧ Reaches s 16 0x13 ∧
      sub32 (s.perTail c) (s.perHead c) < sub32 16 (s.perHead c) ∧ sub32 16 (s.perHead c) ≤ s.perSize c ∧
      s.perSize c < sub32 17 (s.perHead c) ∧ sub32 0 (s.perHead c) ≤ sub32 (s.perTail c) (s.perHead c)) ∧
    (∀ c ∈ [0, 7, 8, 11, 13], ∀ op ∈ [1, 2, 3], ∀ tmo ∈ [0, 1], let d := pdB op tmo
      let s := perS c d none
      c < 14 ∧ s.perOn c = true ∧ (s.per c).desc = some d ∧ (s.per c).outcome = none ∧ s.perHead c ≠ s.perTail c ∧ pdOp d = op ∧
      pdBad c d = false ∧ pdBad c (setField d 8 2 257) = true ∧ pdTmo d = tmo ∧ pdRlen d ≤ (blk 4 []).length ∧
      ((s.per c).data ++ blk 3 []).length < pdRlen d ∧ (s.per c).data = []) ∧
    (∀ c ∈ [0, 13], let s := perS c (pdB 1 0) (some (.ok, 0, 0))
      s.perOn c = true ∧ (s.per c).desc = some (pdB 1 0) ∧ (pdB 1 0).length = 64 ∧ (s.per c).outcome = some (.ok, 0, 0) ∧
      s.arb.restarting = false) := by
  decide +kernel

/-! ## The machine -/

theorem witness_invariant : Inv State.reset ∧ step State.reset = .next State.reset ∧ Inv powS :=
  ⟨by decide +kernel, rfl, by decide +kernel⟩

/-! ## Ill-formed commands: one for each kind of range -/

theorem test_illFormed : ([
    .registerWrite 64 0 4 0, .registerWrite 0 (2 ^ 24) 4 0, .registerWrite 0 0 3 0, .registerWrite 0 0 8 (2 ^ 64), .rcRead 0 0 0,
    .irqSet 0 256 0, .irqSet 0 0 (2 ^ 32), .bar2Access 0 (2 ^ 24) none, .bar6Access 0 (2 ^ 35) 4 none, .fileReset 0 16, .squareFault 256,
    .linkFailed 0 18 false, .linkFailed 0 19 true, .iadd 0 128, .moverFetch 0 2, .tileArrival 0 0 4096, .memRead (2 ^ 35) [],
      .patrolScrub 8 [],
    .autoPinRetire 0 32, .bankRefresh 0 16, .sqDoorbell 0 65536 0, .dispatcherCoreFailover 8, .vfEnableClear 4, .edgeSegmentEnd 2,
    .csiLine 16 true [], .decodePicture 64, .batchComplete 512, .fusTailWrite 0 32 0, .knightWatchRecheck 4, .solverSolve 65,
      .tempoCompute 4,
    .ringCopyReturn 2 true [], .timebaseOffset 0 0, .timebaseSourceQualified 3, .triggerFire 16, .captureEdge 16 true, .ethPbLoad 0 2 0,
    .wakeEv 9, .gpioWake 48, .rcvWindowWrite 64 0 0, .hostLost 4, .perWrite 14,
      .csiPortStateChange 4 0] : List Instr).all (fun c => !c.wf) = true := by
  decide +kernel

/-! ## Single steps and rules -/

/-- R521: one tick adds 4 ns at reset, and counts one tick of 250 MHz. -/
theorem test_tickAddsFour : ∃ t, exec .timebaseTick State.reset = .next t ∧ t.now = 4 ∧ t.ticks = 1 := by
  refine ⟨_, rfl, ?_, ?_⟩
  · rw [show ∀ s : State, s.upsets.now = s.now from fun s => by simpa using congrArg State.now s.upsets_kept]; decide +kernel
  · rw [show ∀ s : State, s.upsets.ticks = s.ticks from fun s => by simpa using congrArg State.ticks s.upsets_kept]; decide +kernel

/-- R480's worked example: a gain of 0.75 of 1,001 is 751. -/
theorem test_tempoTerm : coefTerm 0xC000 16 1001 = 751 := by decide

/-- R510: the FCS is IEEE 802.3's CRC-32, whose check value is that of the nine digits. -/
theorem test_crc32 : crc32 [0x31, 0x32, 0x33, 0x34, 0x35, 0x36, 0x37, 0x38, 0x39] = 0xCBF43926 := by decide +kernel

/-- R544's example: at 30 W with the default fractions, the reserve is 0.30 W and the BRD limit 17.1 W. -/
theorem test_aonReserve : aonReserve 1 300 = 300 ∧ State.reset.limitAt 300 0 = 17100 := by decide +kernel

/-- Register r4 of lane 0 after an instruction. -/
def r4After (i : Instr) (s : State) : Option Word :=
  match exec i s with
  | .next t => (t.ctx 0 0).map fun c => assocGet 0#32 c.ls.regs 4
  | _ => none

/-- IADD of S32 3 and 5, ISUB of 3 and 5 wraps (R133). -/
theorem test_iadd : r4After (.iadd 0 0) (isa (fmtR 0x008 4 2 6 0 11 0 0)) = some 8#32 := by decide +kernel
theorem test_isub : r4After (.isub 0 0) (isa (fmtR 0x00A 4 2 6 0 11 0 0)) = some 0xFFFFFFFE#32 := by decide +kernel

/-- FP32: 1 + 2⁻²⁴ is a tie, which rounds to even, and up under RP. -/
theorem test_fpRounding : (fmtFp32.encode 0 0 (FVal.add 0 (fpVal 0x3F800000) (fpVal 0x33800000)),
    fmtFp32.encode 2 0 (FVal.add 2 (fpVal 0x3F800000) (fpVal 0x33800000)),
    fmtFp32.encode 3 0 (FVal.add 3 (fpVal 0x3F800000) (fpVal 0x33800000))) = (0x3F800000, 0x3F800001, 0x3F800000) := by decide +kernel

/-- The worked example of chapter 4: outliers 96 and −40, and a drain of 1,000 and 0.3 under a scale of 2. -/
theorem test_e4m3 : ([0x6C, 0xE2].map fun c => fmtFp32.encode 0 0 (fmtE4m3.decode c)) = [0x42C00000, 0xC2200000] ∧
    ([0x43FA0000, 0x3E19999A].map fun c => Ty.e4m3.code 0 0 (fpVal c)) = [0x7E, 0x22] := by decide +kernel

/-- R549: the operating points' clocks. -/
theorem test_oppMhz : (oppMhz 0, oppMhz 8, oppMhz 10) = (600, 1800, 2100) := by decide

/-- R201: α^8 = x^4 + x^3 + x^2 + 1, and the constant term of g(x) is the product of its roots, α^(0 + 1 + … + 15). -/
theorem test_rsField : gfDouble 0x80 = 0x1D ∧ genPoly.length = 17 ∧ genPoly.getLast? = some (gfShift 1 120) := by decide +kernel

/-- R198: of eight copies five decide, and four to four read as 1. -/
theorem test_tagVote : [3, 4, 5].map (tagVote false) = [false, true, true] ∧ [3, 4, 5].map (tagVote true) = [true, true, false] := by decide

/-- R260: one step runs in step mode, a selective layer scans, and another takes the convolution from CONVMIN on. -/
theorem test_layerForm : Layer.form { convMin := 64 } 1 0 = .step ∧ Layer.form { kind := .selective } 64 2 = .scan ∧
    Layer.form { kind := .longConv, convMin := 64 } 63 0 = .scan ∧ Layer.form { kind := .longConv, convMin := 64 } 64 0 = .conv := by
  decide

end Sys2Proof.Tests
end

section
/-! # What every operation keeps

One lemma for each operation of the model. `State.foo_sat` and `State.foo_sat_iff` are about any predicate that is a `Frame`: one that only
the byte memories, the partitions, the Arbiter's state and the Arbiter's own registers decide. `_wf` and `_wf_iff` are about the canonical
form of the byte memories alone (O60). A lemma with `_iff` is of an operation that leaves all of these as they are.

Some proofs name a callee without its body (`obtain ⟨f, ef⟩ : ∃ f, State.foo = f := ⟨_, rfl⟩`): what the callee does is no part of the
argument there, its own lemma says all that is needed, and the kernel does not evaluate it in a `match` on its answer. -/

namespace Sys2Proof.Machine

/-! ## Predicates on a state -/

/-- A state satisfies a predicate. A definition of its own, so that the kernel compares two states under it by their terms and does not
evaluate either. -/
def State.Sat (s : State) (P : State → Prop) : Prop := P s

/-- The state that a call hands on beside its answer satisfies a predicate. -/
def FstSat {α : Type} (p : State × α) (P : State → Prop) : Prop := p.1.Sat P

/-- The byte memories are in canonical form: the invariant of O60. -/
def MemWf (s : State) : Prop := Inv s

abbrev State.Wf (s : State) : Prop := s.Sat MemWf

abbrev FstWf {α : Type} (p : State × α) : Prop := FstSat p MemWf

@[simp] theorem State.mem_wf_iff (s : State) : s.mem.wf = true ↔ s.Wf := Iff.rfl

@[simp] theorem State.wf_mk (a1 a2 a3 a4 a5 a6 a7 a8) (m : MemSt) (b1 b2 b3 b4 b5 b6 b7 b8 b9 b10 b11 b12 b13 b14 b15 b16 b17 b18 b19 b20
    b21 b22 b23 b24 b25 b26 b27 b28 b29 b30 b31) : (State.mk a1 a2 a3 a4 a5 a6 a7 a8 m b1 b2 b3 b4 b5 b6 b7 b8 b9 b10 b11 b12 b13 b14
    b15 b16 b17 b18 b19 b20 b21 b22 b23 b24 b25 b26 b27 b28 b29 b30 b31).Wf ↔ m.wf = true := Iff.rfl

/-- The canonical form is one of the four byte memories alone. -/
@[simp] theorem MemSt.wf_others (m : MemSt) (dp : List (Nat × Bool)) (sp : List (Nat × Bool)) (se le : List (Nat × Nat))
    (lp : List (Nat × Bool)) (fr : List (Nat × Nat)) (pg : List (Nat × PageUse)) (en : List (Nat × RsvEntry)) (ne : Nat)
    (tl lo : List (Nat × Xlat)) (ct : MemCtl) :
    (⟨m.dev, dp, m.rsv, m.host, m.store, sp, se, le, lp, fr, pg, en, ne, tl, lo, ct⟩ : MemSt).wf = m.wf := rfl

@[simp] theorem MemSt.wf_ite (c : Prop) [Decidable c] (m n : MemSt) : (if c then m else n).wf = if c then m.wf else n.wf :=
  apply_ite MemSt.wf c m n

section
variable {P : State → Prop}

@[simp] theorem State.sat_ite (c : Prop) [Decidable c] (s t : State) : (if c then s else t).Sat P ↔ if c then s.Sat P else t.Sat P := by
  split <;> rfl

theorem State.ite_sat {c : Prop} [Decidable c] {s t : State} (hs : c → s.Sat P) (ht : ¬c → t.Sat P) : (if c then s else t).Sat P := by
  split
  · exact hs ‹_›
  · exact ht ‹_›

@[simp] theorem State.fst_sat_iff {α : Type} (p : State × α) : p.1.Sat P ↔ FstSat p P := Iff.rfl

@[simp] theorem fstSat_mk {α : Type} (s : State) (a : α) : FstSat (s, a) P ↔ s.Sat P := Iff.rfl

theorem FstSat.mk {α : Type} {s : State} {a : α} (h : s.Sat P) : FstSat (s, a) P := h

@[simp] theorem fstSat_ite {α : Type} (c : Prop) [Decidable c] (p q : State × α) :
    FstSat (if c then p else q) P ↔ if c then FstSat p P else FstSat q P := by
  split <;> rfl

/-- What a pair satisfies, the state of its pattern satisfies. -/
theorem FstSat.of_eq {α : Type} {p : State × α} {s : State} {a : α} (h : FstSat p P) (e : p = (s, a)) : s.Sat P := by
  rw [e] at h
  exact h

/-! ## Folds -/

@[simp] theorem foldl_sat_iff {β : Type} {f : State → β → State} (h : ∀ s b, (f s b).Sat P ↔ s.Sat P) (l : List β) (s : State) :
    (l.foldl f s).Sat P ↔ s.Sat P := by
  induction l generalizing s with
  | nil => rfl
  | cons b t ih => exact (ih (f s b)).trans (h s b)

theorem foldl_sat_iff_mem {β : Type} {f : State → β → State} {l : List β} (h : ∀ s, ∀ b ∈ l, (f s b).Sat P ↔ s.Sat P) (s : State) :
    (l.foldl f s).Sat P ↔ s.Sat P := by
  induction l generalizing s with
  | nil => rfl
  | cons b t ih => exact (ih (fun s c hc => h s c (List.mem_cons_of_mem b hc)) (f s b)).trans (h s b List.mem_cons_self)

@[simp] theorem foldl_sat {β : Type} {f : State → β → State} (h : ∀ s b, s.Sat P → (f s b).Sat P) (l : List β) (s : State)
    (hi : s.Sat P) : (l.foldl f s).Sat P := foldl_keeps h l s hi

@[simp] theorem foldr_sat {β : Type} {f : β → State → State} (h : ∀ b s, s.Sat P → (f b s).Sat P) (l : List β) (s : State)
    (hi : s.Sat P) : (l.foldr f s).Sat P := by
  induction l with
  | nil => exact hi
  | cons b t ih => exact h b _ ih

theorem foldl_fstSat_iff {β γ : Type} {f : State × γ → β → State × γ} (h : ∀ a b, FstSat (f a b) P ↔ FstSat a P) (l : List β)
    (a : State × γ) : FstSat (l.foldl f a) P ↔ FstSat a P := by
  induction l generalizing a with
  | nil => rfl
  | cons b t ih => exact (ih (f a b)).trans (h a b)

theorem foldl_fstSat {β γ : Type} {f : State × γ → β → State × γ} (h : ∀ a b, FstSat a P → FstSat (f a b) P) (l : List β)
    (a : State × γ) (hi : FstSat a P) : FstSat (l.foldl f a) P := foldl_keeps h l a hi

end

/-! ## Predicates that only the Arbiter's own registers, the partitions, the Arbiter's state and the byte memories decide -/

/-- The registers that the Arbiter alone writes: DEV_GEN, DEV_OWN and DEV_HOSTS, the mailbox's request and response, and FIL_PART. -/
@[simp] def arbReg (page off : Nat) : Bool :=
  (page == 0x00 && (off == 0x100 || off == 0x104 || off == 0x10C)) || (page == 0x01 && decide (0x400 ≤ off) && decide (off < 0x600)) ||
    (decide (0x20 ≤ page) && decide (page < 0x30) && off == 0x48)

/-- A register that is none of these whatever its copy is: its offset is none of theirs, or page and offset are in range and name none. -/
@[simp] def farReg (page off : Nat) : Bool :=
  decide (off < 2 ^ 16) && ((decide (page < 2 ^ 8) && !arbReg page off) ||
    !(off == 0x100 || off == 0x104 || off == 0x10C || off == 0x48 || (decide (0x400 ≤ off) && decide (off < 0x600))))

/-- A predicate that registers other than the Arbiter's, and fields other than the named ones, do not decide, and that a change of memory
keeps where it keeps the canonical form. -/
structure Frame (P : State → Prop) : Prop where
  fields : ∀ s t : State, t.regs = s.regs → t.parts = s.parts → t.mem = s.mem → t.arb = s.arb → P s → P t
  reg : ∀ (s : State) b p o v, farReg p o = true → (P (s.setReg b p o v) ↔ P s)
  mem : ∀ (s : State) m, (s.mem.wf = true → m.wf = true) → P s → P { s with mem := m }

@[simp] theorem memWf_frame : Frame MemWf where
  fields s t _ _ hm _ h := by
    unfold MemWf Inv at *
    rwa [hm]
  reg _ _ _ _ _ _ := Iff.rfl
  mem _ _ hm h := hm h

section
variable {P : State → Prop}

theorem Frame.fields_iff (hP : Frame P) {s t : State} (hr : t.regs = s.regs) (hp : t.parts = s.parts) (hm : t.mem = s.mem)
    (ha : t.arb = s.arb) : t.Sat P ↔ s.Sat P :=
  ⟨hP.fields t s hr.symm hp.symm hm.symm ha.symm, hP.fields s t hr hp hm ha⟩

theorem Frame.keep (hP : Frame P) {s t : State} (h : s.Sat P) (hr : t.regs = s.regs) (hp : t.parts = s.parts) (hm : t.mem = s.mem)
    (ha : t.arb = s.arb) : t.Sat P := (hP.fields_iff hr hp hm ha).mpr h

/-- An update of any other field. -/
@[simp ↓] theorem State.sat_mk (hP : Frame P) (s : State) (a1 a2 a3 a4 a5 a6 b1 b2 b3 b4 b5 b6 b7 b8 b9 b10 b11 b12 b13 b14 b15 b16 b17
    b18 b19
    c1 c2 c3 c4 c5 c6 c7 c8 c9 c10 c11) :
    (State.mk s.regs a1 a2 a3 a4 a5 a6 s.parts s.mem b1 b2 b3 b4 b5 b6 b7 b8 b9 b10 b11 b12 b13 b14 b15 b16 b17 b18 b19
      s.arb c1 c2 c3 c4 c5 c6 c7 c8 c9 c10 c11).Sat P ↔ s.Sat P :=
  hP.fields_iff rfl rfl rfl rfl

/-! ## Registers -/

@[simp] theorem State.setReg_sat_iff (hP : Frame P) (s : State) (b p o : Nat) (v : Word) (h : farReg p o = true) :
    (s.setReg b p o v).Sat P ↔ s.Sat P := hP.reg s b p o v h

end

/-! ## Outcomes -/

/-- An outcome's next state, where it has one, holds the byte memories in canonical form. -/
def Out.Wf (o : Out) : Prop := ∀ t, o = .next t → t.Wf

theorem Out.wf_next {t : State} (h : t.Wf) : Out.Wf (.next t) := fun _ e => by
  cases e
  exact h

@[simp] theorem Out.wf_next_iff (t : State) : Out.Wf (.next t) ↔ t.Wf := ⟨fun h => h t rfl, Out.wf_next⟩

@[simp] theorem Out.wf_refused (r : Refusal) : Out.Wf (.refused r) := fun _ e => by cases e

@[simp] theorem Out.wf_fault (r : Fault) : Out.Wf (.fault r) := fun _ e => by cases e

theorem Out.wf_ite {c : Prop} [Decidable c] {o p : Out} (ho : c → Out.Wf o) (hp : ¬c → Out.Wf p) : Out.Wf (if c then o else p) := by
  split
  · exact ho ‹_›
  · exact hp ‹_›

end Sys2Proof.Machine
end

section
/-! ## What the operations keep: Ops -/

namespace Sys2Proof.Machine

variable {P : State → Prop}

@[simp] theorem State.setReg_wf_iff (s : State) (b p o : Nat) (v : Word) : (s.setReg b p o v).Wf ↔ s.Wf := Iff.rfl

@[simp] theorem State.setF_sat_iff (hP : Frame P) (s : State) (b : Nat) (f : Fld) (v : Nat) (h : farReg f.page f.off = true) :
    (s.setF b f v).Sat P ↔ s.Sat P := State.setReg_sat_iff hP s b _ _ _ h

@[simp] theorem State.setF_wf_iff (s : State) (b : Nat) (f : Fld) (v : Nat) : (s.setF b f v).Wf ↔ s.Wf := Iff.rfl

@[simp] theorem State.setFlag_sat_iff (hP : Frame P) (s : State) (b : Nat) (f : Fld) (v : Bool) (h : farReg f.page f.off = true) :
    (s.setFlag b f v).Sat P ↔ s.Sat P := State.setReg_sat_iff hP s b _ _ _ h

@[simp] theorem State.setFlag_wf_iff (s : State) (b : Nat) (f : Fld) (v : Bool) : (s.setFlag b f v).Wf ↔ s.Wf := Iff.rfl

@[simp] theorem State.bump_sat_iff (hP : Frame P) (s : State) (b : Nat) (f : Fld) (d : Nat) (h : farReg f.page f.off = true) :
    (s.bump b f d).Sat P ↔ s.Sat P := State.setReg_sat_iff hP s b _ _ _ h

@[simp] theorem State.bump_wf_iff (s : State) (b : Nat) (f : Fld) (d : Nat) : (s.bump b f d).Wf ↔ s.Wf := Iff.rfl

@[simp] theorem State.set64_wf_iff (s : State) (bank : Nat) (lo hi : Fld) (v : Nat) : (s.set64 bank lo hi v).Wf ↔ s.Wf := by
  simp [State.set64]

@[simp] theorem State.drawFree_sat_iff (hP : Frame P) (s : State) : s.drawFree.Sat P ↔ s.Sat P := hP.fields_iff rfl rfl rfl rfl

@[simp] theorem State.setPageSt_sat_iff (hP : Frame P) (s : State) (page st : Nat) : (s.setPageSt page st).Sat P ↔ s.Sat P := by
  simp [State.setPageSt, Fld.STS_STATE, Fld.onPage, hP]

@[simp] theorem State.setEnableReq_sat_iff (hP : Frame P) (s : State) (page : Nat) (b : Bool) :
    (s.setEnableReq page b).Sat P ↔ s.Sat P := by simp [State.setEnableReq, Fld.CTL_ENABLE, Fld.onPage, hP]

@[simp] theorem State.signal_sat_iff (hP : Frame P) (s : State) (fn vec : Nat) : (s.signal fn vec).Sat P ↔ s.Sat P :=
  hP.fields_iff rfl rfl rfl rfl

@[simp] theorem State.signalPage_sat_iff (hP : Frame P) (s : State) (page fn : Nat) : (s.signalPage page fn).Sat P ↔ s.Sat P := by
  unfold State.signalPage
  split <;> simp [hP]

@[simp] theorem State.raiseBits_sat_iff (hP : Frame P) (s : State) (page fn mask : Nat) : (s.raiseBits page fn mask).Sat P ↔ s.Sat P := by
  simp [State.raiseBits, hP]

@[simp] theorem State.raiseIrq_sat_iff (hP : Frame P) (s : State) (page fn i : Nat) : (s.raiseIrq page fn i).Sat P ↔ s.Sat P := by
  simp [State.raiseIrq, hP]

@[simp] theorem State.recErr_sat_iff (hP : Frame P) (s : State) (page fn : Nat) (st : Status) (offset : Nat) :
    (s.recErr page fn st offset).Sat P ↔ s.Sat P := by
  simp [State.recErr, Fld.ERR_CODE_CODE, Fld.ERR_CODE_COUNT, Fld.ERR_INFO, Fld.onPage, hP]

@[simp] theorem State.recErrBlock_sat_iff (hP : Frame P) (s : State) (page fn : Nat) (st : Status) :
    (s.recErrBlock page fn st).Sat P ↔ s.Sat P := by
  unfold State.recErrBlock
  split <;> simp [hP]

@[simp] theorem State.finishCmd_sat_iff (hP : Frame P) (s : State) (b : Nat) (f : Fld) (st : Status) (h : farReg f.page f.off = true) :
    (s.finishCmd b f st).Sat P ↔ s.Sat P :=
  (State.setF_sat_iff hP _ b { f with hi := 15, lo := 15 } _ h).trans (State.setF_sat_iff hP s b { f with hi := 31, lo := 16 } _ h)

@[simp] theorem State.finishCmd_wf_iff (s : State) (b : Nat) (f : Fld) (st : Status) : (s.finishCmd b f st).Wf ↔ s.Wf := by
  simp [State.finishCmd]

@[simp] theorem State.startCmd_wf_iff (s : State) (bank : Nat) (sts : Fld) : (s.startCmd bank sts).Wf ↔ s.Wf := by simp [State.startCmd]

@[simp] theorem State.gated_wf_iff (s : State) (fn page off : Nat) (f : State) (h : f.Wf ↔ s.Wf) : (s.gated fn page off f).Wf ↔ s.Wf := by
  simp [State.gated, h]

@[simp] theorem State.gated_wf (s : State) (fn page off : Nat) (f : State) (hi : s.Wf) (hf : f.Wf) :
    (s.gated fn page off f).Wf := by
  have h1 : f.Wf := hf
  simp [State.gated, hi, h1]

@[simp] theorem State.pageCmd_wf_iff (s : State) (fn page off v op : Nat) (may : Bool) (deny : Status) (bank : Nat) (sts : Fld)
    (irq : Option Nat) (f : State × Status) (h : FstWf f ↔ s.Wf) :
    (s.pageCmd fn page off v op may deny bank sts irq f).Wf ↔ s.Wf := by
  unfold State.pageCmd
  cases irq <;> simp [h]

@[simp] theorem State.pageCmd_wf (s : State) (fn page off v op : Nat) (may : Bool) (deny : Status) (bank : Nat) (sts : Fld)
    (irq : Option Nat) (f : State × Status) (hi : s.Wf) (hf : FstWf f) :
    (s.pageCmd fn page off v op may deny bank sts irq f).Wf := by
  have h1 : FstWf f := hf
  unfold State.pageCmd
  cases irq <;> simp [hi, h1]

@[simp] theorem State.pageCmdLong_wf_iff (s : State) (fn page off v op : Nat) (may : Bool) (deny : Status) (bank : Nat) (sts : Fld)
    (irq : Option Nat) (f : State × Option Status) (h : FstWf f ↔ s.Wf) :
    (s.pageCmdLong fn page off v op may deny bank sts irq f).Wf ↔ s.Wf := by
  unfold State.pageCmdLong
  split
  · exact State.pageCmd_wf_iff _ _ _ _ _ _ _ _ _ _ _ _ h
  · split
    · rfl
    · exact State.gated_wf_iff _ _ _ _ _ (by simpa using h)

@[simp] theorem State.pageCmdLong_wf (s : State) (fn page off v op : Nat) (may : Bool) (deny : Status) (bank : Nat) (sts : Fld)
    (irq : Option Nat) (f : State × Option Status) (hi : s.Wf) (hf : FstWf f) :
    (s.pageCmdLong fn page off v op may deny bank sts irq f).Wf := by
  unfold State.pageCmdLong
  split
  · exact State.pageCmd_wf _ _ _ _ _ _ _ _ _ _ _ _ hi hf
  · split
    · exact hi
    · exact State.gated_wf _ _ _ _ _ hi (by simpa using hf)

@[simp] theorem State.devWrite_sat (hP : Frame P) (s : State) (pa : Nat) (data : List Byte) (hi : s.Sat P) : (s.devWrite pa data).Sat P :=
  hP.mem s _ (s.devWrite_wf pa data) hi

@[simp] theorem State.tierWrite_sat (hP : Frame P) (s : State) (fn tier a : Nat) (data : List Byte) (hi : s.Sat P) :
    (s.tierWrite fn tier a data).Sat P := by
  have hw := s.tierWrite_wf fn tier a data
  cases tier with
  | zero => exact hP.mem s _ hw hi
  | succ t => exact hP.mem s _ hw hi

@[simp] theorem State.mmuFault_sat_iff (hP : Frame P) (s : State) (fn : Nat) (req : Req) (va cause : Nat) :
    (s.mmuFault fn req va cause).Sat P ↔ s.Sat P := by
  simp [State.mmuFault, Fld.MMU_FAULT_HI_CAUSE, Fld.MMU_FAULT_HI_REQ, Fld.MMU_FAULT_HI_VA, Fld.MMU_FAULT_LO, hP]

@[simp] theorem State.mmuTouch_sat (hP : Frame P) (s : State) (fn va : Nat) (hi : s.Sat P) : (s.mmuTouch fn va).Sat P := by
  have h1 : ((s.bump fn Fld.MMU_WALKS 1).bump fn Fld.MMU_MISS 1).Sat P := by simp [Fld.MMU_WALKS, Fld.MMU_MISS, hP, hi]
  unfold State.mmuTouch
  extract_lets +onlyGivenNames k
  split
  · exact hi
  split
  · exact hi
  split
  · exact hi
  extract_lets s'
  split
  · rw [State.drawFree_sat_iff hP]
    exact hP.mem s' _ id h1
  · rw [State.drawFree_sat_iff hP]
    exact h1

@[simp] theorem State.vaTrace_sat (hP : Frame P) (s : State) (fn : Nat) (req : Req) (va n : Nat) (acc : Acc) (hi : s.Sat P) :
    (s.vaTrace fn req va n acc).Sat P := by
  unfold State.vaTrace
  extract_lets s'
  have h1 : s'.Sat P := foldl_sat (fun s a h => s.mmuTouch_sat hP fn a h) _ s hi
  clear_value s'
  split
  · split <;> simp [hP, h1]
  · exact h1

@[simp] theorem State.noteHeld_sat_iff (hP : Frame P) (s : State) : s.noteHeld.Sat P ↔ s.Sat P := by simp [State.noteHeld, hP]

@[simp] theorem State.vaRead_sat (hP : Frame P) (s : State) (fn : Nat) (req : Req) (va n : Nat) (hi : s.Sat P) :
    FstSat (s.vaRead fn req va n) P := by
  unfold State.vaRead
  extract_lets r s'
  have h1 : s'.Sat P := s.vaTrace_sat hP _ _ _ _ _ hi
  clear_value r s'
  refine FstSat.mk ?_
  split <;> simp [hP, h1]

@[simp] theorem State.vaPut_sat (hP : Frame P) (fuel : Nat) : ∀ (s : State) (fn va : Nat) (data : List Byte), s.Sat P →
    (s.vaPut fn va data fuel).Sat P := by
  induction fuel with
  | zero => exact fun _ _ _ _ h => h
  | succ n ih =>
    intro s fn va data hi
    unfold State.vaPut
    split
    · exact hi
    · refine ih _ _ _ _ ?_
      split <;> simp [hP, hi]

@[simp] theorem State.vaWrite_sat (hP : Frame P) (s : State) (fn : Nat) (req : Req) (va : Nat) (data : List Byte) (hi : s.Sat P) :
    FstSat (s.vaWrite fn req va data) P := by
  unfold State.vaWrite
  extract_lets s'
  have h1 : s'.Sat P := s.vaTrace_sat hP _ _ _ _ _ hi
  clear_value s'
  split
  · refine FstSat.mk ?_
    split <;> simp [hP, h1]
  · split
    · split <;> exact FstSat.mk (by simp [hP, h1])
    · exact FstSat.mk (by simp [hP, h1])

@[simp] theorem State.storeWrite_sat (hP : Frame P) (s : State) (sq off : Nat) (data : List Byte) (hi : s.Sat P) :
    (s.storeWrite sq off data).Sat P := hP.mem s _ (s.storeWrite_wf sq off data) hi

@[simp] theorem State.storePoisonLines_sat (hP : Frame P) (s : State) (sq off n : Nat) (hi : s.Sat P) :
    (s.storePoisonLines sq off n).Sat P := hP.mem s _ (s.storePoisonLines_wf sq off n) hi

@[simp] theorem State.storeClear_sat (s : State) (sq : Nat) (hi : s.Wf) : (s.storeClear sq).Wf := s.storeClear_wf sq hi

@[simp] theorem State.setSqSt_sat_iff (hP : Frame P) (s : State) (sq st : Nat) : (s.setSqSt sq st).Sat P ↔ s.Sat P := by
  refine State.setF_sat_iff hP s 0 _ st ?_
  unfold sqStateFld
  dsimp only
  split <;> simp

@[simp] theorem State.setSquare_sat_iff (hP : Frame P) (s : State) (sq : Nat) (x : Square) : (s.setSquare sq x).Sat P ↔ s.Sat P :=
  hP.fields_iff rfl rfl rfl rfl

@[simp] theorem State.setFile_sat_iff (hP : Frame P) (s : State) (f : Nat) (x : FileSt) : (s.setFile f x).Sat P ↔ s.Sat P :=
  hP.fields_iff rfl rfl rfl rfl

@[simp] theorem State.setGroup_sat_iff (hP : Frame P) (s : State) (g : Nat) (x : Group) : (s.setGroup g x).Sat P ↔ s.Sat P :=
  hP.fields_iff rfl rfl rfl rfl

@[simp] theorem State.dropGroup_sat_iff (hP : Frame P) (s : State) (g : Nat) : (s.dropGroup g).Sat P ↔ s.Sat P :=
  hP.fields_iff rfl rfl rfl rfl

@[simp] theorem State.setJob_sat_iff (hP : Frame P) (s : State) (j : Nat) (x : Job) : (s.setJob j x).Sat P ↔ s.Sat P :=
  hP.fields_iff rfl rfl rfl rfl

@[simp] theorem State.setQueue_sat_iff (hP : Frame P) (s : State) (fn q : Nat) (x : Queue) : (s.setQueue fn q x).Sat P ↔ s.Sat P :=
  hP.fields_iff rfl rfl rfl rfl

@[simp] theorem State.setClk_wf_iff (s : State) (f o : Nat) : (s.setClk f o).Wf ↔ s.Wf := by simp [State.setClk]

@[simp] theorem State.noteRetire_wf_iff (s : State) (sq : Nat) : (s.noteRetire sq).Wf ↔ s.Wf := by simp [State.noteRetire]

@[simp] theorem State.perfCount_sat_iff (hP : Frame P) (s : State) (sq ev n : Nat) : (s.perfCount sq ev n).Sat P ↔ s.Sat P := by
  unfold State.perfCount
  dsimp only
  repeat' split
  all_goals simp [hP]

@[simp] theorem State.noteEcc_sat_iff (hP : Frame P) (s : State) (sq off : Nat) (unc : Bool) : (s.noteEcc sq off unc).Sat P ↔ s.Sat P := by
  simp [State.noteEcc, Fld.FIL_ECC_ADDR_OFFSET, Fld.FIL_ECC_ADDR_RANK, Fld.FIL_ECC_ADDR_UNC, Fld.onPage, hP]

@[simp] theorem State.poisonStore_sat (hP : Frame P) (s : State) (sq off n : Nat) (hi : s.Sat P) : (s.poisonStore sq off n).Sat P := by
  simp [State.poisonStore, Fld.FIL_ECC_CNT_UNCORR, Fld.onPage, hP, hi]

@[simp] theorem State.readErr_sat (hP : Frame P) (s : State) (e : Nat × Nat) (hi : s.Sat P) : (s.readErr e).Sat P := by
  unfold State.readErr
  extract_lets sq off
  split
  · simp [Fld.FIL_ECC_CNT_CORR, Fld.onPage, hP, hi]
  · have h1 := hP.mem s { s.mem with storeErrs := s.mem.storeErrs.filter fun x => x.1 / 8 != e.1 / 8 } id hi
    rw [State.noteEcc_sat_iff hP]
    exact State.poisonStore_sat hP _ _ _ _ h1

@[simp] theorem State.upsets_sat (s : State) (hi : s.Wf) : s.upsets.Wf := s.upsets_wf hi

theorem State.localErr_wf {s t : State} {page area k : Nat} (h : s.localErr page area = some (k, t)) (hi : s.Wf) :
    t.Wf := by
  obtain ⟨e, -, he⟩ := Option.map_eq_some_iff.mp h
  obtain ⟨-, rfl⟩ := Prod.mk.inj he
  exact hi

@[simp] theorem State.storeScan_sat (hP : Frame P) (s : State) (sq off n : Nat) (hi : s.Sat P) : (s.storeScan sq off n).Sat P :=
  foldl_sat (fun s e h => s.readErr_sat hP e h) _ s hi

end Sys2Proof.Machine
end

section
/-! ## What the operations keep: Events -/

namespace Sys2Proof.Machine

variable {P : State → Prop}

@[simp] theorem State.arbIrqAll_wf_iff (s : State) (i : Nat) : (s.arbIrqAll i).Wf ↔ s.Wf := by simp [State.arbIrqAll]

@[simp] theorem State.logEvent_wf_iff (s : State) (sev page part kind code : Nat) (data : List Nat) :
    (s.logEvent sev page part kind code data).Wf ↔ s.Wf := by simp [State.logEvent]

@[simp] theorem State.genChange_wf_iff (s : State) (path : Nat) : (s.genChange path).Wf ↔ s.Wf := by simp [State.genChange]

end Sys2Proof.Machine
end

section
/-! ## What the operations keep: Reserve -/

namespace Sys2Proof.Machine

variable {P : State → Prop}

@[simp] theorem State.releasePages_sat (hP : Frame P) (s : State) (ps : List Nat) (hi : s.Sat P) : (s.releasePages ps).Sat P :=
  hP.mem s _ (s.releasePages_wf ps) hi

@[simp] theorem State.dropEntry_sat (hP : Frame P) (s : State) (id : Nat) (hi : s.Sat P) : (s.dropEntry id).Sat P := by
  have hw := s.dropEntry_wf id
  unfold State.dropEntry at hw ⊢
  split
  · exact hi
  · next e he =>
    rw [he] at hw
    exact hP.mem s _ hw hi

@[simp] theorem State.evictEntry_wf (s : State) (id : Nat) (hi : s.Wf) : (s.evictEntry id).Wf := by
  unfold State.evictEntry
  split <;> simp [hi]

theorem State.acquire_zero (s : State) (fn n slice : Nat) (use : PageUse) (got : List Nat) :
    s.acquire fn n slice use got 0 = (s.releasePages got, none) := rfl

set_option maxRecDepth 4000 in
theorem State.acquire_succ (s : State) (fn n slice : Nat) (use : PageUse) (got : List Nat) (fuel : Nat) :
    s.acquire fn n slice use got (fuel + 1) =
      if got.length = n then (s, some got.reverse)
      else match s.freePage slice with
        | some p => ({ s with mem := { s.mem with pages := assocSet .free s.mem.pages p use } }).acquire fn n slice use (p :: got) fuel
        | none => match oldestEntry (s.evictable fn (s.rsvUsed fn + (if use = .mapped fn then 0 else got.length))) with
          | some id => (s.evictEntry id).acquire fn n slice use got fuel
          | none => (s.releasePages got, none) := rfl

theorem State.acquire_wf (fuel : Nat) : ∀ (s : State) (fn n slice : Nat) (use : PageUse) (got : List Nat), s.Wf →
    FstWf (s.acquire fn n slice use got fuel) := by
  induction fuel with
  | zero =>
    intro s fn n slice use got hi
    rw [State.acquire_zero]
    exact s.releasePages_sat memWf_frame got hi
  | succ fuel ih =>
    intro s fn n slice use got hi
    rw [State.acquire_succ]
    split
    · exact hi
    · split
      · exact ih _ _ _ _ _ _ hi
      · split
        · exact ih _ _ _ _ _ _ (s.evictEntry_wf _ hi)
        · exact s.releasePages_sat memWf_frame got hi

@[simp] theorem State.takePages_wf (s : State) (fn n slice : Nat) (use : PageUse) (hi : s.Wf) :
    FstWf (s.takePages fn n slice use) := State.acquire_wf _ _ _ _ _ _ _ hi

@[simp] theorem State.allocMapped_wf (s : State) (fn n slice : Nat) (hi : s.Wf) :
    FstWf (s.allocMapped fn n slice) := by
  have ht := s.takePages_wf fn n slice (.mapped fn) hi
  unfold State.allocMapped
  split
  · exact hi
  · split
    · next e => exact FstSat.of_eq ht e
    · next e => exact FstSat.of_eq ht e

@[simp] theorem State.rsvDone_wf_iff (s : State) (fn : Nat) (st : Status) : (s.rsvDone fn st).Wf ↔ s.Wf := by simp [State.rsvDone]

@[simp] theorem State.settleFrees_wf (s : State) (hi : s.Wf) : s.settleFrees.Wf := by simp +contextual [State.settleFrees, hi]

@[simp] theorem State.rsvCmd_wf (s : State) (fn v : Nat) (hi : s.Wf) : (s.rsvCmd fn v).Wf := by
  have ha := fun slice => s.allocMapped_wf fn 1 slice hi
  unfold State.rsvCmd
  split
  · exact hi
  split
  · simp [hi]
  split
  · dsimp only
    generalize (if bit v 23 = true then bits v 27 24 else s.homeSlice fn) = slice
    split
    · next e => simp [FstSat.of_eq (ha _) e]
    · next e => simp [FstSat.of_eq (ha _) e]
  · simp [State.releasePages_sat memWf_frame _ _ hi, hi]
  · simp [hi]
  · simp [foldl_sat (fun s i => s.dropEntry_sat memWf_frame i) _ s hi]
  · simp [hi]

@[simp] theorem execRsvAlloc_wf (fn v : Nat) (s : State) (hi : s.Wf) : Out.Wf (execRsvAlloc fn v s) := by simp [execRsvAlloc, hi]

@[simp] theorem execRsvFree_wf (fn v : Nat) (s : State) (hi : s.Wf) : Out.Wf (execRsvFree fn v s) := by simp [execRsvFree, hi]

@[simp] theorem execRsvUnpinAll_wf (fn v : Nat) (s : State) (hi : s.Wf) : Out.Wf (execRsvUnpinAll fn v s) := by simp [execRsvUnpinAll, hi]

@[simp] theorem execRsvInvalAll_wf (fn v : Nat) (s : State) (hi : s.Wf) : Out.Wf (execRsvInvalAll fn v s) := by simp [execRsvInvalAll, hi]

@[simp] theorem State.clearTrackers_sat_iff (hP : Frame P) (s : State) (fn : Nat) : (s.clearTrackers fn).Sat P ↔ s.Sat P :=
  hP.fields_iff rfl rfl rfl rfl

@[simp] theorem execRsvFbvCtlWrite_wf (fn v : Nat) (s : State) (hi : s.Wf) : Out.Wf (execRsvFbvCtlWrite fn v s) := by
  simp [execRsvFbvCtlWrite, hi]

@[simp] theorem State.countWalks_sat_iff (hP : Frame P) (s : State) (fn n : Nat) : (s.countWalks fn n).Sat P ↔ s.Sat P := by
  simp [State.countWalks, Fld.MMU_WALKS, hP]

@[simp] theorem State.showLocked_sat_iff (hP : Frame P) (s : State) (fn : Nat) : (s.showLocked fn).Sat P ↔ s.Sat P := by
  simp [State.showLocked, Fld.MMU_LOCK_CNT_COUNT, hP]

end Sys2Proof.Machine
end

section
/-! ## What the operations keep: Streams -/

namespace Sys2Proof.Machine

variable {P : State → Prop}

@[simp] theorem State.setStream_sat_iff (hP : Frame P) (s : State) (fn h : Nat) (x : Stream) : (s.setStream fn h x).Sat P ↔ s.Sat P :=
  hP.fields_iff rfl rfl rfl rfl

@[simp] theorem State.slotScan_sat (hP : Frame P) (s : State) (fn h slot : Nat) (hi : s.Sat P) : (s.slotScan fn h slot).Sat P := by
  simp +contextual [State.slotScan, hP, hi]

@[simp] theorem State.slotWrite_sat (s : State) (fn h slot : Nat) (data : List Byte) (hi : s.Wf) : (s.slotWrite fn h slot data).Wf :=
  s.slotWrite_wf fn h slot data hi

@[simp] theorem State.pagesWrite_sat (s : State) (ps : List Nat) (data : List Byte) (hi : s.Wf) : (s.pagesWrite ps data).Wf :=
  s.pagesWrite_wf ps data hi

@[simp] theorem State.freeCopies_sat (hP : Frame P) (s : State) (fn h : Nat) (hi : s.Sat P) : (s.freeCopies fn h).Sat P := by
  simp [State.freeCopies, hP, hi]

@[simp] theorem State.tearStream_sat_iff (hP : Frame P) (s : State) (fn h : Nat) : (s.tearStream fn h).Sat P ↔ s.Sat P := by
  simp [State.tearStream, Fld.DSP_SEQ_TORN, hP]

@[simp] theorem State.shadowStream_sat_iff (hP : Frame P) (s : State) (fn h : Nat) (data : List Byte) :
    (s.shadowStream fn h data).Sat P ↔ s.Sat P := by
  unfold State.shadowStream
  split <;> simp [hP]

@[simp] theorem State.streamJobEnd_sat (hP : Frame P) (s : State) (fn h : Nat) (started ok : Bool) (hi : s.Sat P) :
    (s.streamJobEnd fn h started ok).Sat P := by
  unfold State.streamJobEnd
  dsimp only
  repeat' split
  all_goals simp [hP, hi]

@[simp] theorem State.beginOut_sat (hP : Frame P) (s : State) (fn h : Nat) (outer : Bool) (hi : s.Sat P) :
    (s.beginOut fn h outer).Sat P := by
  unfold State.beginOut
  dsimp only
  repeat' split
  all_goals simp [hP, hi]

@[simp] theorem State.parkIfDue_sat (hP : Frame P) (s : State) (fn h : Nat) (hi : s.Sat P) : (s.parkIfDue fn h).Sat P := by
  unfold State.parkIfDue
  dsimp only
  repeat' split
  all_goals simp [hP, hi]

@[simp] theorem State.writeGens_sat (hP : Frame P) (s : State) (fn va : Nat) (hs : List Nat) (hi : s.Sat P) :
    (s.writeGens fn va hs).Sat P := by simp [State.writeGens, hP, hi]

@[simp] theorem State.tableJobEnd_sat (hP : Frame P) (s : State) (fn va append : Nat) (rst : Option Nat) (ok : Bool) (hi : s.Sat P) :
    (s.tableJobEnd fn va append rst ok).Sat P := by
  unfold State.tableJobEnd
  split <;> simp [hP, hi]

@[simp] theorem State.writeTableGens_sat (hP : Frame P) (s : State) (fn va : Nat) (ts : List Nat) (hi : s.Sat P) :
    (s.writeTableGens fn va ts).Sat P := by simp [State.writeTableGens, hP, hi]

@[simp] theorem State.callEnd_sat (hP : Frame P) (s : State) (j : Job) (ok checked : Bool) (hi : s.Sat P) :
    (s.callEnd j ok checked).Sat P := by
  unfold State.callEnd
  split
  · exact hi
  · extract_lets started hs s1 s2
    have h1 : s1.Sat P := State.ite_sat (fun _ => foldl_sat (fun s e h => s.tableJobEnd_sat hP _ _ _ _ _ h) _ s hi) (fun _ => hi)
    have h2 : s2.Sat P := foldl_sat (fun s h w => by simp [hP, w]) hs s1 h1
    split
    · exact h2
    · split
      · exact s2.writeTableGens_sat hP _ _ _ h2
      · exact s2.writeGens_sat hP _ _ _ h2

end Sys2Proof.Machine
end

section
/-! ## What the operations keep: Jobs -/

namespace Sys2Proof.Machine

variable {P : State → Prop}

@[simp] theorem State.signalCq_sat_iff (hP : Frame P) (s : State) (fn q : Nat) : (s.signalCq fn q).Sat P ↔ s.Sat P := by
  simp [State.signalCq, hP]

@[simp] theorem State.queueError_sat_iff (hP : Frame P) (s : State) (fn q src : Nat) : (s.queueError fn q src).Sat P ↔ s.Sat P := by
  simp [State.queueError, hP]

@[simp] theorem State.writeCq_sat (hP : Frame P) (s : State) (fn q cid status detail : Nat) (pre var now : Bool) (hi : s.Sat P) :
    (s.writeCq fn q cid status detail pre var now).Sat P := by
  have hw := fun va b => s.vaWrite_sat hP fn .dispatcher va b hi
  rw [State.writeCq]
  split
  · next e => simp [hP, FstSat.of_eq (hw _ _) e]
  · next e => simp [hP, Fld.DSP_DUP, FstSat.of_eq (hw _ _) e]

@[simp] theorem State.purgeJobs_sat_iff (hP : Frame P) (s : State) : s.purgeJobs.Sat P ↔ s.Sat P := hP.fields_iff rfl rfl rfl rfl

@[simp] theorem State.markEnded_sat_iff (hP : Frame P) (s : State) (id : Nat) (j : Job) : (s.markEnded id j).Sat P ↔ s.Sat P :=
  hP.fields_iff rfl rfl rfl rfl

@[simp] theorem State.completeDup_sat (hP : Frame P) (s : State) (id : Nat) (j : Job) (st : Nat) (hi : s.Sat P) :
    (s.completeDup id j st).Sat P := by simp [State.completeDup, hP, hi]

@[simp] theorem State.windowEnd_sat (hP : Frame P) (s : State) (j : Job) (st : Status) (hi : s.Sat P) : (s.windowEnd j st).Sat P := by
  unfold State.windowEnd
  extract_lets +onlyGivenNames Q
  split
  · exact foldl_sat (fun s e h => s.completeDup_sat hP _ _ _ h) _ _ (by simpa [hP] using hi)
  · extract_lets w s1
    split <;> simp [s1, hP, hi]

@[simp] theorem State.trackEnd_sat_iff (hP : Frame P) (s : State) (j : Job) : (s.trackEnd j).Sat P ↔ s.Sat P := by
  unfold State.trackEnd
  extract_lets k
  split <;> simp [hP]

@[simp] theorem State.noteKEnd_sat_iff (hP : Frame P) (s : State) (j : Job) : (s.noteKEnd j).Sat P ↔ s.Sat P := by simp [State.noteKEnd, hP]

@[simp] theorem State.endJob_sat (hP : Frame P) (s : State) (id : Nat) (checked : Bool) (hi : s.Sat P) : (s.endJob id checked).Sat P := by
  unfold State.endJob
  split
  · exact hi
  · split
    · exact hi
    · extract_lets j own s1 r Q ran Q1 Q2 s2 s3 s4 s5
      have h2 : s2.Sat P := by simp [s2, s1, hP, hi]
      have h3 : s3.Sat P := State.ite_sat (fun _ => by simp [hP, h2]) (fun _ => by simp [hP, h2])
      have h4 : s4.Sat P := State.ite_sat (fun _ => by simp [hP, h3]) (fun _ => h3)
      have h5 : s5.Sat P := by simp [s5, hP, h4]
      exact State.ite_sat (fun _ => s5.windowEnd_sat hP _ _ h5) (fun _ => h5)

@[simp] theorem State.settleSquare_sat_iff (hP : Frame P) (s : State) (sq : Nat) : (s.settleSquare sq).Sat P ↔ s.Sat P := by
  simp [State.settleSquare, hP]

@[simp] theorem State.settleJob_sat (hP : Frame P) (s : State) (id : Nat) (hi : s.Sat P) : (s.settleJob id).Sat P := by
  unfold State.settleJob
  split <;> simp [hP, hi]

@[simp] theorem State.endGroup_sat (hP : Frame P) (s : State) (g : Nat) (hi : s.Sat P) : (s.endGroup g).Sat P := by
  unfold State.endGroup
  dsimp only
  repeat' split
  all_goals simp [hP, hi]

@[simp] theorem State.stopGroups_sat (hP : Frame P) (s : State) (id : Nat) (hi : s.Sat P) : (s.stopGroups id).Sat P := by
  refine foldl_sat (fun s e h => ?_) _ s hi
  split
  · exact s.endGroup_sat hP _ h
  · split <;> simp [hP, h]

@[simp] theorem State.stopJob_sat (hP : Frame P) (s : State) (id : Nat) (st : Status) (detail detailBefore : Nat) (hi : s.Sat P) :
    (s.stopJob id st detail detailBefore).Sat P := by
  unfold State.stopJob
  split
  · exact hi
  · extract_lets +onlyGivenNames j new keep s1
    have h1 : s1.Sat P := by simp [s1, hP, hi]
    split
    · exact hi
    · exact State.settleJob_sat hP _ _ (s1.stopGroups_sat hP _ h1)
    · exact s1.endJob_sat hP _ _ h1

@[simp] theorem State.stopQueueJobs_sat (hP : Frame P) (s : State) (fn q : Nat) (detail : Nat) (silent : Bool) (hi : s.Sat P) :
    (s.stopQueueJobs fn q detail silent).Sat P := by
  refine foldl_sat (fun s e h => ?_) _ s hi
  refine State.stopJob_sat hP _ _ _ _ _ ?_
  split <;> simp [hP, h]

@[simp] theorem State.settleQueue_sat (hP : Frame P) (s : State) (fn q : Nat) (hi : s.Sat P) : (s.settleQueue fn q).Sat P := by
  simp [State.settleQueue, hP, hi]

@[simp] theorem State.settleQueues_sat (hP : Frame P) (s : State) (hi : s.Sat P) : s.settleQueues.Sat P := by
  simp +contextual [State.settleQueues, hP, hi]

@[simp] theorem State.writeExcRecord_wf_iff (s : State) (fn : Nat) (x : Group) (e : Exc) : (s.writeExcRecord fn x e).Wf ↔ s.Wf := by
  simp [State.writeExcRecord]

@[simp] theorem State.raiseExc_wf (s : State) (g : Nat) (e : Exc) (hi : s.Wf) : (s.raiseExc g e).Wf := by
  unfold State.raiseExc
  split
  · exact hi
  · split
    · exact s.endGroup_sat memWf_frame g hi
    · exact State.settleJob_sat memWf_frame _ _ (State.stopGroups_sat memWf_frame _ _ (State.endGroup_sat memWf_frame _ _ (by simpa using
        hi)))

end Sys2Proof.Machine
end

section
/-! ## What the operations keep: Walk -/

namespace Sys2Proof.Machine

variable {P : State → Prop}

@[simp] theorem State.setMover_wf_iff (s : State) (sq mv : Nat) (m : Mover) : (s.setMover sq mv m).Wf ↔ s.Wf := by simp [State.setMover]

@[simp] theorem State.planUnit_wf (s : State) (id : Nat) (j : Job) (seq head bucket fetched db rb : Nat) (hi : s.Wf) :
    (s.planUnit id j seq head bucket fetched db rb).Wf := by
  have ha := fun n slice => s.allocMapped_wf j.fn n slice hi
  obtain ⟨alloc, ea⟩ : ∃ f, State.allocMapped = f := ⟨_, rfl⟩
  unfold State.planUnit
  rw [ea] at ha ⊢
  dsimp only
  split
  · split <;> simp [hi]
  · split
    · next e =>
      have h := FstSat.of_eq (ha _ _) e
      split <;> simp [h]
    · next e =>
      have h := FstSat.of_eq (ha _ _) e
      split <;> simp [h]

@[simp] theorem State.planUnits_wf (s : State) (id : Nat) (j : Job) (hi : s.Wf) : (s.planUnits id j).Wf := by
  refine foldl_sat (fun s k h => ?_) _ s hi
  refine foldl_sat (fun s q h => ?_) _ s h
  exact foldl_sat (fun s u h => s.planUnit_wf _ _ _ _ _ _ _ _ h) _ s h

@[simp] theorem State.setPageRing_wf_iff (s : State) (g : Nat) (r : PageRing) : (s.setPageRing g r).Wf ↔ s.Wf := by simp [State.setPageRing]

@[simp] theorem State.emitPages_wf_iff (g fuel : Nat) : ∀ s : State, (s.emitPages g fuel).Wf ↔ s.Wf := by
  induction fuel with
  | zero => exact fun s => Iff.rfl
  | succ fuel ih =>
    intro s
    rw [State.emitPages]
    split
    · rfl
    · dsimp only
      split
      · rfl
      · split
        · rfl
        · rw [ih]
          split
          · split <;> simp
          · simp

@[simp] theorem State.emitWalk_wf_iff (s : State) (g : Nat) : (s.emitWalk g).Wf ↔ s.Wf := s.emitPages_wf_iff g 8

@[simp] theorem State.resumeWalks_wf_iff (s : State) (sq : Nat) : (s.resumeWalks sq).Wf ↔ s.Wf := by simp [State.resumeWalks]

@[simp] theorem State.startWalk_wf_iff (s : State) (g : Nat) (x : Group) (j : Job) : (s.startWalk g x j).Wf ↔ s.Wf := by
  unfold State.startWalk
  dsimp only
  repeat' split
  all_goals simp

@[simp] theorem State.consume_wf_iff (s : State) (g : Nat) (x : Group) (r : PageRing) : (s.consume g x r).Wf ↔ s.Wf := by
  simp [State.consume]

@[simp] theorem State.noteConsumed_wf_iff (s : State) (g : Nat) (as : List (Nat × Nat)) (n : Nat) : (s.noteConsumed g as n).Wf ↔ s.Wf := by
  unfold State.noteConsumed
  repeat' split
  all_goals simp

@[simp] theorem State.pageArrived_wf (s : State) (g : Nat) (x : Group) (k fallback : Nat) (st : Status) (hi : s.Wf) :
    (s.pageArrived g x k fallback st).Wf := by simp [State.pageArrived, hi]

end Sys2Proof.Machine
end

section
/-! ## What the operations keep: Board -/

namespace Sys2Proof.Machine

variable {P : State → Prop}

@[simp] theorem State.loadPortion_sat (hP : Frame P) (s : State) (sq : Nat) (hi : s.Sat P) : (s.loadPortion sq).Sat P := by
  unfold State.loadPortion
  repeat' split
  all_goals simp [hP, hi]

@[simp] theorem State.loadFilePortions_sat (hP : Frame P) (s : State) (f : Nat) (hi : s.Sat P) : (s.loadFilePortions f).Sat P := by
  simp +contextual [State.loadFilePortions, hP, hi]

@[simp] theorem State.loadPortions_sat (hP : Frame P) (s : State) (p : Nat → Bool) (hi : s.Sat P) : (s.loadPortions p).Sat P := by
  simp +contextual [State.loadPortions, hP, hi]

@[simp] theorem State.placeGroup_wf (s : State) (id index sq base : Nat) (rep : Option Nat) (hi : s.Wf) :
    (s.placeGroup id index sq base rep).Wf := by
  unfold State.placeGroup
  split <;> simp [hi]

@[simp] theorem State.makeTracker_wf_iff (s : State) (j : Job) : (s.makeTracker j).Wf ↔ s.Wf := by simp [State.makeTracker]

@[simp] theorem State.useTracker_wf_iff (s : State) (j : Job) : (s.useTracker j).Wf ↔ s.Wf := by simp [State.useTracker]

@[simp] theorem State.decideVariant_wf_iff (s : State) (id : Nat) (j : Job) : (s.decideVariant id j).Wf ↔ s.Wf := by
  unfold State.decideVariant
  split <;> simp

@[simp] theorem State.readArg_wf (s : State) (j : Job) (hi : s.Wf) : FstWf (s.readArg j) := by simp [State.readArg, hi]

@[simp] theorem State.noteKint_wf_iff (s : State) (id : Nat) : (s.noteKint id).Wf ↔ s.Wf := by
  unfold State.noteKint
  repeat' split
  all_goals simp

@[simp] theorem State.noteStart_wf_iff (s : State) (id : Nat) (j : Job) : (s.noteStart id j).Wf ↔ s.Wf := by simp [State.noteStart]

@[simp] theorem State.startJob_wf (s : State) (id : Nat) (j : Job) (hi : s.Wf) : FstWf (s.startJob id j) := by
  have hr := s.readArg_wf j hi
  unfold State.startJob
  split
  · next e => simp [FstSat.of_eq hr e]
  · next s1 b e =>
    have h1 := FstSat.of_eq hr e
    extract_lets s2
    have h2 : s2.Wf := by simpa [s2] using h1
    split
    · exact h2
    · extract_lets j2 l forms s3 p4 s4 s5
      have h4 : s4.Wf := by
        unfold s4
        split
        · have h3 := s3.planUnits_wf id j2 h2
          split
          · exact h3
          · exact h3
        · exact h2
      have h5 : s5.Wf := foldl_sat (fun s a h => by simpa using h) _ s4 h4
      split
      · exact h5
      · simpa using h5

@[simp] theorem State.placeNext_wf (s : State) (id : Nat) (hi : s.Wf) : (s.placeNext id).Wf := by
  unfold State.placeNext
  dsimp only
  repeat' split
  all_goals simp [hi]

@[simp] theorem State.genMismatch_wf (s : State) (id : Nat) (j : Job) (hi : s.Wf) : (s.genMismatch id j).Wf :=
  State.settleQueues_sat memWf_frame _ (State.endJob_sat memWf_frame _ _ _ (by simp [hi]))

@[simp] theorem execGroupPlace_wf (job : Nat) (s : State) (hi : s.Wf) : Out.Wf (execGroupPlace job s) := by
  refine Out.wf_next ?_
  split <;> simp [hi]

@[simp] theorem State.preemptLow_wf_iff (s : State) (sq : Nat) : (s.preemptLow sq).Wf ↔ s.Wf := by simp [State.preemptLow]

@[simp] theorem State.suspendGroup_wf (s : State) (g : Nat) (hi : s.Wf) : (s.suspendGroup g).Wf := by
  unfold State.suspendGroup
  dsimp only
  repeat' split
  all_goals simp [hi]

@[simp] theorem State.resumeGroup_wf_iff (s : State) (g : Nat) : (s.resumeGroup g).Wf ↔ s.Wf := by
  unfold State.resumeGroup
  split <;> simp

@[simp] theorem execPreemption_wf (job : Nat) (s : State) (hi : s.Wf) : Out.Wf (execPreemption job s) := by
  refine Out.wf_next ?_
  repeat' split
  all_goals simp [hi]

@[simp] theorem State.replayFail_wf (s : State) (id : Nat) (hi : s.Wf) : (s.replayFail id).Wf := by simp [State.replayFail, hi]

@[simp] theorem State.unawait_wf (s : State) (a : Await) (hi : s.Wf) : (s.unawait a).Wf := by
  unfold State.unawait
  split <;> simp [hi]

@[simp] theorem State.placeAwait_wf (s : State) (sq : Nat) (a : Await) (hi : s.Wf) : (s.placeAwait sq a).Wf := by
  unfold State.placeAwait
  dsimp only
  repeat' split
  all_goals simp [hi]

@[simp] theorem State.placeAwaited_wf (s : State) (sq : Nat) (l : List Await) (hi : s.Wf) : (s.placeAwaited sq l).Wf := by
  simp +contextual [State.placeAwaited, hi]

@[simp] theorem execPreemptionComplete_wf (sq : Nat) (s : State) (hi : s.Wf) : Out.Wf (execPreemptionComplete sq s) := by
  refine Out.wf_next (State.ite_sat (fun _ => ?_) (fun _ => hi))
  extract_lets l x s1
  have h1 : s1.Wf := by simp [s1, hi]
  exact State.settleQueues_sat memWf_frame _ (by simp [h1])

@[simp] theorem execGroupResume_wf (sq : Nat) (s : State) (hi : s.Wf) : Out.Wf (execGroupResume sq s) := by
  refine Out.wf_next ?_
  dsimp only
  repeat' split
  all_goals simp [hi]

@[simp] theorem State.copyRegion_wf (s : State) (x : Group) (sq b : Nat) (hi : s.Wf) : (s.copyRegion x sq b).Wf :=
  foldl_sat (fun s _ h => s.poisonStore_sat memWf_frame _ _ _ h) _ _ (State.storeWrite_sat memWf_frame _ _ _ _ (State.storeScan_sat
      memWf_frame _ _ _ _ hi))

@[simp] theorem execGroupMove_wf (g : Nat) (s : State) (hi : s.Wf) : Out.Wf (execGroupMove g s) := by
  refine Out.wf_next ?_
  dsimp only
  repeat' split
  all_goals simp [hi]

@[simp] theorem State.noteFault_wf_iff (s : State) (kind wh : Nat) : (s.noteFault kind wh).Wf ↔ s.Wf := by simp [State.noteFault]

@[simp] theorem State.dropFaulted_wf (s : State) (g : Nat) (x : Group) (hi : s.Wf) : (s.dropFaulted g x).Wf := by
  simp [State.dropFaulted, hi]

@[simp] theorem State.replayGroup_wf (s : State) (sq : Nat) (x : Group) (hi : s.Wf) : (s.replayGroup sq x).Wf := by
  unfold State.replayGroup
  dsimp only
  repeat' split
  all_goals simp [hi]

@[simp] theorem State.moveHomes_wf_iff (s : State) (fn sq : Nat) : (s.moveHomes fn sq).Wf ↔ s.Wf := by simp [State.moveHomes]

@[simp] theorem State.restoreStream_wf (s : State) (fn h : Nat) (hi : s.Wf) : (s.restoreStream fn h).Wf := by
  unfold State.restoreStream
  dsimp only
  repeat' split
  all_goals simp [hi]

@[simp] theorem State.faultStreams_wf (s : State) (fn sq : Nat) (hi : s.Wf) : (s.faultStreams fn sq).Wf := by
  refine foldl_sat (fun s k h => ?_) _ _ (by simpa using hi)
  extract_lets hs shadow calls
  split
  · refine foldl_sat (fun s e h => ?_) _ _ (foldl_sat (fun s e h => s.restoreStream_wf _ _ h) _ s h)
    extract_lets s3
    have h3 : s3.Wf := foldl_sat (fun s g h => by simp [h]) _ s h
    split <;> simpa using h3
  · exact foldl_sat (fun s e h => s.replayFail_wf _ h) _ _ (foldl_sat (fun s e h => by simp [h]) _ s h)

@[simp] theorem State.replayAwaits_wf (s : State) (sq : Nat) (l : List Await) (hi : s.Wf) :
    (s.replayAwaits sq l).Wf := by
  refine foldl_sat (fun s a h => ?_) _ s hi
  split
  · exact h
  · split
    · exact s.replayGroup_wf _ _ h
    · exact s.unawait_wf _ h

@[simp] theorem State.squareFault_wf (s : State) (sq : Nat) (hi : s.Wf) : (s.squareFault sq).Wf := by
  unfold State.squareFault
  refine State.ite_sat (fun _ => ?_) (fun _ => hi)
  refine State.settleQueues_sat memWf_frame _ (State.replayAwaits_wf _ _ _ (foldl_sat (fun s e h => ?_) _ _ (State.faultStreams_wf _ _ _
    (foldl_sat (fun s e h => s.dropFaulted_wf _ _ h) _ _ ?_))))
  · split
    · split
      · exact s.replayGroup_wf _ _ h
      · exact s.settleJob_sat memWf_frame _ h
    · exact h
  · simp [hi]

@[simp] theorem execSquareFault_wf (sq : Nat) (s : State) (hi : s.Wf) : Out.Wf (execSquareFault sq s) := by simp [execSquareFault, hi]

@[simp] theorem execSquareStallWatchdog_wf (sq : Nat) (s : State) (hi : s.Wf) : Out.Wf (execSquareStallWatchdog sq s) := by
  simp [execSquareStallWatchdog, hi]

@[simp] theorem execJobDeadlineExpiry_wf (job : Nat) (s : State) (hi : s.Wf) : Out.Wf (execJobDeadlineExpiry job s) := by
  refine Out.wf_next ?_
  split <;> simp [hi]

@[simp] theorem execJobRuntimeExpiry_wf (job : Nat) (s : State) (hi : s.Wf) : Out.Wf (execJobRuntimeExpiry job s) := by
  refine Out.wf_next ?_
  split <;> simp [hi]

end Sys2Proof.Machine
end

section
/-! ## What the operations keep: Mem -/

namespace Sys2Proof.Machine

variable {P : State → Prop}

@[simp] theorem State.memIrq_wf_iff (s : State) (i : Nat) : (s.memIrq i).Wf ↔ s.Wf := by simp [State.memIrq]

@[simp] theorem State.noteCe_wf (s : State) (unit src : Nat) (es : List (Nat × Nat)) (hi : s.Wf) : (s.noteCe unit src es).Wf := by
  simp [State.noteCe, hi]

@[simp] theorem State.noteUe_wf (s : State) (unit src : Nat) (cws : List Nat) (hi : s.Wf) : (s.noteUe unit src cws).Wf := by
  simp [State.noteUe, hi]

@[simp] theorem State.readTags_wf (s : State) (unit : Nat) (errs : List (Nat × Nat)) (hi : s.Wf) : (s.readTags unit errs).Wf := by
  simp [State.readTags, hi]

@[simp] theorem State.decodeUnit_wf (s : State) (unit src : Nat) (errs : List (Nat × Nat)) (hi : s.Wf) :
    (s.decodeUnit unit src errs).Wf := by
  unfold State.decodeUnit
  dsimp only
  repeat' split
  all_goals simp [hi]

@[simp] theorem State.memRefuse_wf_iff (s : State) : s.memRefuse.Wf ↔ s.Wf :=
  s.noteHeld_sat_iff memWf_frame

@[simp] theorem execMemRead_wf (pa : Nat) (errs : List (Nat × Nat)) (s : State) (hi : s.Wf) :
    Out.Wf (execMemRead pa errs s) := by
  refine Out.wf_ite (fun _ => Out.wf_fault _) (fun _ => Out.wf_next ?_)
  dsimp only
  split
  · simp [hi]
  · have h1 := s.decodeUnit_wf (pa / 512) 0 errs hi
    split
    · simp [h1]
    · exact h1

@[simp] theorem execMemWrite_wf (pa : Nat) (data : List Byte) (errs : List (Nat × Nat)) (s : State) (hi : s.Wf) :
    Out.Wf (execMemWrite pa data errs s) := by
  refine Out.wf_ite (fun _ => Out.wf_fault _) (fun _ => Out.wf_next ?_)
  dsimp only
  split
  · exact hi
  split
  · simp [hi]
  split
  · exact s.devWrite_sat memWf_frame _ _ hi
  · refine State.devWrite_sat memWf_frame _ _ _ ?_
    have h1 := s.decodeUnit_wf (pa / 512) 1 errs hi
    split
    · exact State.devWrite_sat memWf_frame _ _ _ h1
    · exact h1

@[simp] theorem execPatrolScrub_wf (chan : Nat) (errs : List (Nat × Nat)) (s : State) (hi : s.Wf) :
    Out.Wf (execPatrolScrub chan errs s) := by simp [execPatrolScrub, hi]

@[simp] theorem execDemandWriteback_wf (unit : Nat) (s : State) (hi : s.Wf) : Out.Wf (execDemandWriteback unit s) := by
  refine Out.wf_ite (fun _ => Out.wf_fault _) (fun _ => Out.wf_next ?_)
  extract_lets +onlyGivenNames c st
  split
  · exact hi
  · have h1 (o : Option (Nat × List (BitVec 8))) :
        (match o with | some e => s.devWrite (unit * 512) e.2 | none => s).Wf := by
      cases o with
      | none => exact hi
      | some e => exact s.devWrite_sat memWf_frame _ _ hi
    exact h1 _

@[simp] theorem State.retirePin_wf_iff (s : State) (chan pin : Nat) : (s.retirePin chan pin).Wf ↔ s.Wf := by simp [State.retirePin]

@[simp] theorem execAutoPinRetire_wf (chan pin : Nat) (s : State) (hi : s.Wf) : Out.Wf (execAutoPinRetire chan pin s) := by
  simp [execAutoPinRetire, hi]

@[simp] theorem State.memCmd_wf (s : State) (fn v op : Nat) (f : State × Option Status) (hi : s.Wf)
    (hf : FstWf f) : (s.memCmd fn v op f).Wf := s.pageCmdLong_wf _ _ _ _ _ _ _ _ _ _ f hi hf

@[simp] theorem State.memCmd_wf_iff (s : State) (fn v op : Nat) (f : State × Option Status) (hf : FstWf f ↔ s.Wf) :
    (s.memCmd fn v op f).Wf ↔ s.Wf := s.pageCmdLong_wf_iff _ _ _ _ _ _ _ _ _ _ f hf

@[simp] theorem execMemRetire_wf (fn v : Nat) (s : State) (hi : s.Wf) : Out.Wf (execMemRetire fn v s) := by simp [execMemRetire, hi]

@[simp] theorem execMemUnretire_wf (fn v : Nat) (s : State) (hi : s.Wf) : Out.Wf (execMemUnretire fn v s) := by simp [execMemUnretire, hi]

@[simp] theorem State.setTraining_wf (s : State) (c : Option Nat) (hi : s.Wf) : (s.setTraining c).Wf := by simp [State.setTraining, hi]

@[simp] theorem execMemRetrain_wf (fn v : Nat) (s : State) (hi : s.Wf) : Out.Wf (execMemRetrain fn v s) := by simp [execMemRetrain, hi]

@[simp] theorem execMemRetrainDone_wf (ok : Bool) (s : State) (hi : s.Wf) : Out.Wf (execMemRetrainDone ok s) := by
  refine Out.wf_next ?_
  split <;> simp [hi]

@[simp] theorem State.noteTemp_wf (s : State) (chan : Nat) (t : Int) (hi : s.Wf) : (s.noteTemp chan t).Wf := by simp [State.noteTemp, hi]

@[simp] theorem execMemTracking_wf (chan : Nat) (temp : Int) (s : State) (hi : s.Wf) : Out.Wf (execMemTracking chan temp s) := by
  simp [execMemTracking, hi]

@[simp] theorem execBankRefresh_wf (chan bank : Nat) (s : State) (hi : s.Wf) : Out.Wf (execBankRefresh chan bank s) := by
  simp [execBankRefresh, hi]

@[simp] theorem execMemTempHot_wf (chan : Nat) (temp : Int) (s : State) (hi : s.Wf) : Out.Wf (execMemTempHot chan temp s) := by
  simp [execMemTempHot, hi]

@[simp] theorem execMemSelfRefreshEntry_wf (s : State) (hi : s.Wf) : Out.Wf (execMemSelfRefreshEntry s) := by
  simp [execMemSelfRefreshEntry, hi]

@[simp] theorem execMemReady_wf (s : State) (hi : s.Wf) : Out.Wf (execMemReady s) := by simp [execMemReady, hi]

end Sys2Proof.Machine
end

section
/-! ## What the operations keep: Files -/

namespace Sys2Proof.Machine

variable {P : State → Prop}

@[simp] theorem State.setFileSt_sat_iff (hP : Frame P) (s : State) (f st : Nat) : (s.setFileSt f st).Sat P ↔ s.Sat P := by
  simp [State.setFileSt, hP]

@[simp] theorem State.unawaitFile_wf (s : State) (f : Nat) (hi : s.Wf) : (s.unawaitFile f).Wf := by
  refine foldl_sat (fun s sq h => ?_) _ s hi
  exact foldl_sat (fun s a h => s.unawait_wf a h) _ _ (by simpa using h)

@[simp] theorem State.gateFile_wf (s : State) (f : Nat) (hi : s.Wf) : (s.gateFile f).Wf := by simp +contextual [State.gateFile, hi]

@[simp] theorem State.retestFile_wf_iff (s : State) (f : Nat) : (s.retestFile f).Wf ↔ s.Wf := by simp [State.retestFile]

@[simp] theorem State.startFile_wf_iff (s : State) (f : Nat) : (s.startFile f).Wf ↔ s.Wf := by simp [State.startFile]

@[simp] theorem State.resetFile_wf (s : State) (f : Nat) (hi : s.Wf) : (s.resetFile f).Wf := by simp [State.resetFile, hi]

@[simp] theorem State.fileOff_wf (s : State) (f : Nat) (hi : s.Wf) : (s.fileOff f).Wf := by simp [State.fileOff, hi]

@[simp] theorem State.stopFile_sat_iff (hP : Frame P) (s : State) (f : Nat) : (s.stopFile f).Sat P ↔ s.Sat P := by simp [State.stopFile, hP]

@[simp] theorem State.resetOn_wf (s : State) (f : Nat) (hi : s.Wf) : (s.resetOn f).Wf := by simp [State.resetOn, hi]

@[simp] theorem State.fileEnable_wf_iff (s : State) (fn f : Nat) (on : Bool) : (s.fileEnable fn f on).Wf ↔ s.Wf := by
  simp [State.fileEnable]

@[simp] theorem State.fileQuiesce_wf_iff (s : State) (fn f : Nat) : (s.fileQuiesce fn f).Wf ↔ s.Wf := by simp [State.fileQuiesce]

@[simp] theorem State.fileReset_wf (s : State) (fn f : Nat) (hi : s.Wf) : (s.fileReset fn f).Wf := by simp [State.fileReset, hi]

@[simp] theorem execFileEnable_wf (fn file : Nat) (on : Bool) (s : State) (hi : s.Wf) : Out.Wf (execFileEnable fn file on s) := by
  simp [execFileEnable, hi]

@[simp] theorem execFileQuiesce_wf (fn file : Nat) (s : State) (hi : s.Wf) : Out.Wf (execFileQuiesce fn file s) := by
  simp [execFileQuiesce, hi]

@[simp] theorem execFileReset_wf (fn file : Nat) (s : State) (hi : s.Wf) : Out.Wf (execFileReset fn file s) := by simp [execFileReset, hi]

@[simp] theorem State.fileOn_wf (s : State) (f : Nat) (hi : s.Wf) : (s.fileOn f).Wf := by
  unfold State.fileOn
  extract_lets s1 s2 x s3
  have h1 : s1.Wf := foldl_sat (fun s sq h => State.ite_sat (fun _ => h) (fun _ => by simp [h])) _ s hi
  have h3 : s3.Wf := by simp [s3, s2, h1]
  clear_value s3
  repeat' split
  all_goals simp [h3]

@[simp] theorem execFileStartDone_wf (file : Nat) (s : State) (hi : s.Wf) : Out.Wf (execFileStartDone file s) := by
  simp [execFileStartDone, hi]

@[simp] theorem execFileStartTimeout_wf (file : Nat) (s : State) (hi : s.Wf) : Out.Wf (execFileStartTimeout file s) := by
  simp [execFileStartTimeout, hi]

@[simp] theorem execFileStopDone_wf (file : Nat) (s : State) (hi : s.Wf) : Out.Wf (execFileStopDone file s) := by
  simp [execFileStopDone, hi]

@[simp] theorem execSquareSelftestDone_wf (sq : Nat) (pass : Bool) (s : State) (hi : s.Wf) : Out.Wf (execSquareSelftestDone sq pass s) := by
  simp [execSquareSelftestDone, hi]

@[simp] theorem execFlitRetry_wf (file : Nat) (s : State) (hi : s.Wf) : Out.Wf (execFlitRetry file s) := by simp [execFlitRetry, hi]

@[simp] theorem State.failFile_wf (s : State) (f : Nat) (hi : s.Wf) : (s.failFile f).Wf := by
  unfold State.failFile
  extract_lets gs waits s0 s1 s2 s3
  have h0 : s0.Wf := by simp [s0, hi]
  have h1 : s1.Wf := foldl_sat (fun s e h => s.dropFaulted_wf _ _ h) _ _ h0
  have h2 : s2.Wf := by simp [s2, h1]
  have h3 : s3.Wf := foldl_sat (fun s e h => s.replayGroup_wf _ _ h) _ _ h2
  exact State.settleQueues_sat memWf_frame _ (foldl_sat (fun s w h => s.replayAwaits_wf _ _ h) _ s3 h3)

@[simp] theorem State.detour_wf_iff (s : State) (file link : Nat) : (s.detour file link).Wf ↔ s.Wf := by simp [State.detour]

@[simp] theorem execLinkFailed_wf (file link : Nat) (east : Bool) (s : State) (hi : s.Wf) : Out.Wf (execLinkFailed file link east s) := by
  simp [execLinkFailed, hi]

end Sys2Proof.Machine
end

section
/-! ## What the operations keep: Power -/

namespace Sys2Proof.Machine

variable {P : State → Prop}

@[simp] theorem State.pwrIrq_wf_iff (s : State) (i : Nat) : (s.pwrIrq i).Wf ↔ s.Wf := by simp [State.pwrIrq]

@[simp] theorem State.showBelowK_sat_iff (hP : Frame P) (s : State) : s.showBelowK.Sat P ↔ s.Sat P := by
  simp [State.showBelowK, Fld.PWR_LIMIT_BELOWK, Fld.PWR_OPP_CUR, Fld.PWR_OPP_KFLOOR, hP]

@[simp] theorem State.showKneed_sat_iff (hP : Frame P) (s : State) : s.showKneed.Sat P ↔ s.Sat P := by
  simp [State.showKneed, Fld.PWR_KNEED, Fld.PWR_OPP_KFLOOR, hP]

@[simp] theorem State.suspend_wf_iff (s : State) : s.suspend.Wf ↔ s.Wf := by simp [State.suspend]

@[simp] theorem execKboundRestore_wf (s : State) (hi : s.Wf) : Out.Wf (execKboundRestore s) := by simp [execKboundRestore, hi]

@[simp] theorem State.grantDone_wf_iff (s : State) (st : Status) : (s.grantDone st).Wf ↔ s.Wf := by simp [State.grantDone]

@[simp] theorem State.capInForce_wf_iff (s : State) (cap id : Nat) (force : Bool) : (s.capInForce cap id force).Wf ↔ s.Wf := by
  simp [State.capInForce]

@[simp] theorem State.newGrant_wf_iff (s : State) (v : Nat) : (s.newGrant v).Wf ↔ s.Wf := by simp [State.newGrant]

@[simp] theorem State.cancelGrant_wf_iff (s : State) : s.cancelGrant.Wf ↔ s.Wf := by
  unfold State.cancelGrant
  split <;> simp

@[simp] theorem execPowerGrant_wf (fn v : Nat) (s : State) (hi : s.Wf) : Out.Wf (execPowerGrant fn v s) := by simp [execPowerGrant, hi]

@[simp] theorem execGrantInForce_wf (s : State) (hi : s.Wf) : Out.Wf (execGrantInForce s) := by
  refine Out.wf_next ?_
  split <;> simp [hi]

@[simp] theorem execFractionCommit_wf (fn v : Nat) (s : State) (hi : s.Wf) : Out.Wf (execFractionCommit fn v s) := by
  simp [execFractionCommit, hi]

@[simp] theorem State.requestOpp_wf_iff (s : State) (o : Nat) : (s.requestOpp o).Wf ↔ s.Wf := by
  unfold State.requestOpp
  repeat' split
  all_goals simp

@[simp] theorem State.setOpp_wf_iff (s : State) (o : Nat) : (s.setOpp o).Wf ↔ s.Wf := by simp [State.setOpp]

@[simp] theorem execOppChangeDone_wf (s : State) (hi : s.Wf) : Out.Wf (execOppChangeDone s) := by
  refine Out.wf_next ?_
  split <;> simp [hi]

@[simp] theorem State.setAtlim_wf_iff (s : State) (d : Nat) (b : Bool) : (s.setAtlim d b).Wf ↔ s.Wf := by simp [State.setAtlim]

@[simp] theorem State.limitDomain_wf_iff (s : State) (d : Nat) (isOver calm : Bool) : (s.limitDomain d isOver calm).Wf ↔ s.Wf := by
  simp [State.limitDomain]

@[simp] theorem State.limitBrd_wf_iff (s : State) (isOver calm : Bool) : (s.limitBrd isOver calm).Wf ↔ s.Wf := by simp [State.limitBrd]

@[simp] theorem State.noteEstimates_wf_iff (s : State) (est : List Nat) : (s.noteEstimates est).Wf ↔ s.Wf := by simp [State.noteEstimates]

@[simp] theorem execPowerEvaluation_wf (est : List Nat) (s : State) (hi : s.Wf) : Out.Wf (execPowerEvaluation est s) := by
  simp [execPowerEvaluation, hi]

@[simp] theorem execPowerGuard_wf (mw : Nat) (s : State) (hi : s.Wf) : Out.Wf (execPowerGuard mw s) := by simp [execPowerGuard, hi]

@[simp] theorem execPowerRefit_wf (s : State) (hi : s.Wf) : Out.Wf (execPowerRefit s) := by simp [execPowerRefit, hi]

@[simp] theorem execDroop_wf (file : Nat) (s : State) (hi : s.Wf) : Out.Wf (execDroop file s) := by simp [execDroop, hi]

@[simp] theorem State.setTj_wf_iff (s : State) (sensor temp : Nat) : (s.setTj sensor temp).Wf ↔ s.Wf := by simp [State.setTj]

@[simp] theorem execThermalLimit_wf (sensor temp : Nat) (s : State) (hi : s.Wf) : Out.Wf (execThermalLimit sensor temp s) := by
  simp [execThermalLimit, hi]

@[simp] theorem execThermalRelease_wf (s : State) (hi : s.Wf) : Out.Wf (execThermalRelease s) := by simp [execThermalRelease, hi]

end Sys2Proof.Machine
end

section
/-! ## What the operations keep: Blocks -/

namespace Sys2Proof.Machine

variable {P : State → Prop}

@[simp] theorem State.setCtl_wf_iff (s : State) (page : Nat) (c : PageCtl) : (s.setCtl page c).Wf ↔ s.Wf := by simp [State.setCtl]

@[simp] theorem State.blockStart_wf_iff (s : State) (page : Nat) (start : State → State) (h : ∀ s, (start s).Wf ↔ s.Wf) :
    (s.blockStart page start).Wf ↔ s.Wf := by
  simp [State.blockStart, h]

theorem State.blockStart_wf (s : State) (page : Nat) (start : State → State) (hi : s.Wf)
    (h : ∀ s, s.Wf → (start s).Wf) : (s.blockStart page start).Wf :=
  h _ (by simpa using hi)

@[simp] theorem State.blockStop_wf_iff (s : State) (page : Nat) (stop : State → State) (h : ∀ s, (stop s).Wf ↔ s.Wf) :
    (s.blockStop page stop).Wf ↔ s.Wf := by
  simp [State.blockStop, h]

theorem State.blockStop_wf (s : State) (page : Nat) (stop : State → State) (hi : s.Wf)
    (h : ∀ s, s.Wf → (stop s).Wf) : (s.blockStop page stop).Wf :=
  h _ (by simpa using hi)

@[simp] theorem State.ctlWrite_wf_iff (s : State) (fn page : Nat) (may : Bool) (deny : Status) (f : State) (h : f.Wf ↔ s.Wf) :
    (s.ctlWrite fn page may deny f).Wf ↔ s.Wf := by
  simp [State.ctlWrite, h]

@[simp] theorem State.ctlWrite_wf (s : State) (fn page : Nat) (may : Bool) (deny : Status) (f : State) (hi : s.Wf)
    (hf : f.Wf) : (s.ctlWrite fn page may deny f).Wf := by
  simp [State.ctlWrite, hi, hf]

@[simp] theorem State.blockEnable_wf_iff (s : State) (page : Nat) (on : Bool) (start stop : State → State)
    (hr : ∀ s, (start s).Wf ↔ s.Wf) (hs : ∀ s, (stop s).Wf ↔ s.Wf) : (s.blockEnable page on start stop).Wf ↔ s.Wf := by
  simp [State.blockEnable, hr, hs]

theorem State.blockEnable_wf (s : State) (page : Nat) (on : Bool) (start stop : State → State) (hi : s.Wf)
    (hr : ∀ s, s.Wf → (start s).Wf) (hs : ∀ s, s.Wf → (stop s).Wf) :
    (s.blockEnable page on start stop).Wf := by
  have h1 : (s.setEnableReq page on).Wf := by simpa using hi
  unfold State.blockEnable
  extract_lets st c s1
  split
  · split
    · split
      · simpa [s1] using h1
      · exact State.blockStart_wf _ _ _ h1 hr
    · simpa [s1] using h1
  split
  · split
    · exact h1
    · exact State.blockStop_wf _ _ _ h1 hs
  split
  · simpa [s1] using h1
  · exact h1

@[simp] theorem State.blockQuiesce_wf_iff (s : State) (page : Nat) (stop : State → State) (h : ∀ s, (stop s).Wf ↔ s.Wf) :
    (s.blockQuiesce page stop).Wf ↔ s.Wf := by
  simp [State.blockQuiesce, h]

theorem State.blockQuiesce_wf (s : State) (page : Nat) (stop : State → State) (hi : s.Wf)
    (h : ∀ s, s.Wf → (stop s).Wf) : (s.blockQuiesce page stop).Wf := by
  unfold State.blockQuiesce
  dsimp only
  split
  · exact State.blockStop_wf _ _ _ hi h
  · split
    · simpa using hi
    · exact hi

@[simp] theorem State.blockOn_wf_iff (s : State) (page : Nat) (ready stop : State → State) (hr : ∀ s, (ready s).Wf ↔ s.Wf)
    (hs : ∀ s, (stop s).Wf ↔ s.Wf) : (s.blockOn page ready stop).Wf ↔ s.Wf := by
  simp [State.blockOn, hr, hs]

theorem State.blockOn_wf (s : State) (page : Nat) (ready stop : State → State) (hi : s.Wf)
    (hr : ∀ s, s.Wf → (ready s).Wf) (hs : ∀ s, s.Wf → (stop s).Wf) :
    (s.blockOn page ready stop).Wf := by
  have h1 : (ready (s.setPageSt page stOn)).Wf := hr _ (by simpa using hi)
  unfold State.blockOn
  dsimp only
  split
  · exact hi
  · split
    · exact State.blockStop_wf _ _ _ h1 hs
    · exact h1

@[simp] theorem State.blockOff_wf_iff (s : State) (page : Nat) (start : State → State) (h : ∀ s, (start s).Wf ↔ s.Wf) :
    (s.blockOff page start).Wf ↔ s.Wf := by
  simp [State.blockOff, h]

@[simp] theorem State.blockReset_wf_iff (s : State) (page : Nat) (start : State → State) (h : ∀ s, (start s).Wf ↔ s.Wf) :
    (s.blockReset page start).Wf ↔ s.Wf := s.blockStart_wf_iff page start h

end Sys2Proof.Machine
end

section
/-! ## What the operations keep: Queues -/

namespace Sys2Proof.Machine

variable {P : State → Prop}

@[simp] theorem State.dropDb_wf_iff (s : State) (fn : Nat) : (s.dropDb fn).Wf ↔ s.Wf := by simp [State.dropDb]

@[simp] theorem State.badDb_wf_iff (s : State) (fn : Nat) : (s.badDb fn).Wf ↔ s.Wf := by simp [State.badDb]

@[simp] theorem State.badTail_wf_iff (s : State) (fn page off : Nat) : (s.badTail fn page off).Wf ↔ s.Wf := by simp [State.badTail]

@[simp] theorem State.acceptTail_wf_iff (s : State) (fn q t : Nat) : (s.acceptTail fn q t).Wf ↔ s.Wf := by simp [State.acceptTail]

@[simp] theorem State.acceptHead_wf_iff (s : State) (fn q h : Nat) : (s.acceptHead fn q h).Wf ↔ s.Wf := by simp [State.acceptHead]

@[simp] theorem State.applyDb_wf_iff (s : State) (fn q : Nat) (d : HeldDb) : (s.applyDb fn q d).Wf ↔ s.Wf := by
  cases d <;> simp [State.applyDb]

@[simp] theorem State.holdDb_wf_iff (s : State) (fn q : Nat) (d : HeldDb) : (s.holdDb fn q d).Wf ↔ s.Wf := by simp [State.holdDb]

@[simp] theorem State.doorbell_wf_iff (s : State) (fn q : Nat) (d : HeldDb) : (s.doorbell fn q d).Wf ↔ s.Wf := by simp [State.doorbell]

@[simp] theorem State.internalDb_wf_iff (s : State) (fn q : Nat) : (s.internalDb fn q).Wf ↔ s.Wf := by simp [State.internalDb]

@[simp] theorem State.hostDb_wf_iff (s : State) (fn q : Nat) (d : HeldDb) : (s.hostDb fn q d).Wf ↔ s.Wf := by simp [State.hostDb]

@[simp] theorem execEntryTake_wf (fn q : Nat) (s : State) (hi : s.Wf) : Out.Wf (execEntryTake fn q s) := by
  have hr := State.vaRead_sat memWf_frame
  unfold execEntryTake
  refine Out.wf_next ?_
  split
  · exact hi
  split
  · next e => exact FstSat.of_eq (hr _ _ _ _ _ hi) e
  · next e => simp [FstSat.of_eq (hr _ _ _ _ _ hi) e]
  · next e =>
    have h1 := FstSat.of_eq (hr _ _ _ _ _ hi) e
    split <;> simp [h1]

@[simp] theorem State.completeEntry_wf (s : State) (fn q : Nat) (e : Entry) (stamp : Nat) (st : Status) (detail : Nat) (hi : s.Wf) :
    (s.completeEntry fn q e stamp st detail).Wf := by simp [State.completeEntry, hi]

theorem State.withEntry_wf (s : State) (fn q opc : Nat) (f : State → Entry → Nat → Nat → State) (hi : s.Wf)
    (hf : ∀ s e i t, s.Wf → (f s e i t).Wf) : (s.withEntry fn q opc f).Wf := by
  unfold State.withEntry
  split
  · exact hi
  · dsimp only
    split
    · exact hi
    · split
      · simp [hi]
      · split
        · simp [hi]
        · exact hf _ _ _ _ (by simpa using hi)

@[simp] theorem State.addJob_wf_iff (s : State) (j : Job) : (s.addJob j).Wf ↔ s.Wf := by simp [State.addJob]

@[simp] theorem State.takeLaunch_wf (s : State) (fn q : Nat) (hi : s.Wf) : (s.takeLaunch fn q).Wf := by
  refine State.withEntry_wf _ _ _ _ _ hi (fun s e i t h => ?_)
  extract_lets j s0
  have h0 : s0.Wf := by
    unfold s0
    split
    · exact h
    · exact s.vaTrace_sat memWf_frame _ _ _ _ _ h
  repeat' split
  all_goals simp [h0]

@[simp] theorem execSqLaunch_wf (fn q : Nat) (s : State) (hi : s.Wf) : Out.Wf (execSqLaunch fn q s) := by simp [execSqLaunch, hi]

@[simp] theorem State.settleNops_wf (fn q fuel : Nat) : ∀ s : State, s.Wf → (s.settleNops fn q fuel).Wf := by
  induction fuel with
  | zero => exact fun s hi => hi
  | succ fuel ih =>
    intro s hi
    rw [State.settleNops]
    split
    · exact hi
    · exact ih _ (s.endJob_sat memWf_frame _ _ hi)

@[simp] theorem execSqNop_wf (fn q : Nat) (s : State) (hi : s.Wf) : Out.Wf (execSqNop fn q s) :=
  Out.wf_next (State.settleQueues_sat memWf_frame _ (State.settleNops_wf _ _ _ _
    (State.withEntry_wf _ _ _ _ _ hi (fun s e i t h => by simpa using h))))

@[simp] theorem State.cancel_wf (s : State) (fn q detail : Nat) (p : Job → Bool) (hi : s.Wf) :
    FstWf (s.cancel fn q detail p) := by
  have h1 := s.takeLaunch_wf fn q hi
  unfold State.cancel
  dsimp only
  split
  · exact h1
  · split
    · exact h1
    · exact State.stopJob_sat memWf_frame _ _ _ _ _ h1
    · exact State.stopJob_sat memWf_frame _ _ _ _ _ h1

@[simp] theorem execSqCancel_wf (fn q : Nat) (s : State) (hi : s.Wf) : Out.Wf (execSqCancel fn q s) := by
  have hc := State.cancel_wf
  unfold execSqCancel
  have hk := State.completeEntry_wf
  refine Out.wf_next (State.withEntry_wf _ _ _ _ _ hi (fun s e i t h => ?_))
  refine State.ite_sat (fun _ => ?_) (fun _ => ?_)
  · exact hk _ _ _ _ _ _ _ h
  · exact hk _ _ _ _ _ _ _ (hc _ _ _ _ _ h)

@[simp] theorem State.dspCancel_wf (s : State) (fn v : Nat) (hi : s.Wf) : (s.dspCancel fn v).Wf := by simp [State.dspCancel, hi]

@[simp] theorem execDspCancel_wf (fn v : Nat) (s : State) (hi : s.Wf) : Out.Wf (execDspCancel fn v s) := by simp [execDspCancel, hi]

@[simp] theorem execCqIrqTimer_wf (fn q : Nat) (s : State) (hi : s.Wf) : Out.Wf (execCqIrqTimer fn q s) := by simp [execCqIrqTimer, hi]

@[simp] theorem State.qcmdDone_sat_iff (hP : Frame P) (s : State) (fn : Nat) (st : Status) : (s.qcmdDone fn st).Sat P ↔ s.Sat P := by
  simp [State.qcmdDone, Fld.DSP_QCMD_STS_STATUS, hP]

@[simp] theorem State.clearQueue_sat (hP : Frame P) (s : State) (fn q : Nat) (silent : Bool) (hi : s.Sat P) :
    (s.clearQueue fn q silent).Sat P := by
  unfold State.clearQueue
  split <;> simp [hP, hi]

@[simp] theorem State.qcmd_wf (s : State) (fn v : Nat) (hi : s.Wf) : (s.qcmd fn v).Wf := by
  have hc (t : State) (q : Nat) (h : t.Wf) : (t.clearQueue fn q false).settleQueues.Wf := by simp [h]
  rw [State.qcmd]
  repeat' split
  all_goals simp [hi, hc]

@[simp] theorem execDspQcmdCreate_wf (fn v : Nat) (s : State) (hi : s.Wf) : Out.Wf (execDspQcmdCreate fn v s) := by
  simp [execDspQcmdCreate, hi]

@[simp] theorem execDspQcmdDelete_wf (fn v : Nat) (s : State) (hi : s.Wf) : Out.Wf (execDspQcmdDelete fn v s) := by
  simp [execDspQcmdDelete, hi]

@[simp] theorem execDspQcmdReset_wf (fn v : Nat) (s : State) (hi : s.Wf) : Out.Wf (execDspQcmdReset fn v s) := by
  simp [execDspQcmdReset, hi]

@[simp] theorem execQueueCmdDone_wf (fn : Nat) (s : State) (hi : s.Wf) : Out.Wf (execQueueCmdDone fn s) := by
  refine Out.wf_next ?_
  split <;> simp [hi]

@[simp] theorem State.quiesceQueue_sat (hP : Frame P) (s : State) (fn q : Nat) (silent : Bool) (hi : s.Sat P) :
    (s.quiesceQueue fn q silent).Sat P := by simp [State.quiesceQueue, hP, hi]

@[simp] theorem State.quiesceQueues_sat (hP : Frame P) (s : State) (fn : Nat) (silent : Bool) (hi : s.Sat P) :
    (s.quiesceQueues fn silent).Sat P :=
  State.settleQueues_sat hP _ (foldl_sat (fun s _ h => s.quiesceQueue_sat hP _ _ _ h) _ s hi)

@[simp] theorem State.loadQsel_wf_iff (s : State) (fn q : Nat) : (s.loadQsel fn q).Wf ↔ s.Wf := by simp [State.loadQsel]

@[simp] theorem execDspQselWrite_wf (fn v : Nat) (s : State) (hi : s.Wf) : Out.Wf (execDspQselWrite fn v s) := by
  simp [execDspQselWrite, hi]

@[simp] theorem execDspStatLoRead_wf (fn : Nat) (s : State) (hi : s.Wf) : Out.Wf (execDspStatLoRead fn s) := by simp [execDspStatLoRead, hi]

@[simp] theorem State.stopStarted_wf (s : State) (detail : Nat) (hi : s.Wf) : (s.stopStarted detail).Wf :=
  State.settleQueues_sat memWf_frame _ (foldl_sat (fun s _ h => s.stopJob_sat memWf_frame _ _ _ _ h) _ s hi)

@[simp] theorem State.dspStop_wf (s : State) (hi : s.Wf) : s.dspStop.Wf := by simp [State.dspStop, hi]

@[simp] theorem State.applyHeld_wf_iff (s : State) : s.applyHeld.Wf ↔ s.Wf := by
  refine foldl_sat_iff (fun s e => ?_) _ s
  exact (foldl_sat_iff (fun s d => s.applyDb_wf_iff _ _ d) _ _).trans (by simp)

@[simp] theorem execDispatcherEnable_wf (fn : Nat) (on : Bool) (s : State) (hi : s.Wf) :
    Out.Wf (execDispatcherEnable fn on s) :=
  Out.wf_next (State.ctlWrite_wf _ _ _ _ _ _ hi (State.blockEnable_wf _ _ _ _ _ hi (fun _ h => h) State.dspStop_wf))

@[simp] theorem execDispatcherQuiesce_wf (fn : Nat) (s : State) (hi : s.Wf) : Out.Wf (execDispatcherQuiesce fn s) :=
  Out.wf_next (State.ctlWrite_wf _ _ _ _ _ _ hi (State.blockQuiesce_wf _ _ _ hi State.dspStop_wf))

@[simp] theorem execDispatcherStartDone_wf (s : State) (hi : s.Wf) : Out.Wf (execDispatcherStartDone s) :=
  Out.wf_next (State.blockOn_wf _ _ _ _ hi (fun _ h => by simpa using h) State.dspStop_wf)

@[simp] theorem execDispatcherStopDone_wf (s : State) (hi : s.Wf) : Out.Wf (execDispatcherStopDone s) := by
  simp [execDispatcherStopDone, hi]

end Sys2Proof.Machine
end

section
/-! ## What the operations keep: Image -/

namespace Sys2Proof.Machine

variable {P : State → Prop}

@[simp] theorem State.lockPages_sat (hP : Frame P) (s : State) (fn : Nat) (vas : List Nat) (hi : s.Sat P) : (s.lockPages fn vas).Sat P := by
  unfold State.lockPages
  extract_lets rest l
  rw [State.showLocked_sat_iff hP, State.countWalks_sat_iff hP]
  exact hP.mem s _ id hi

@[simp] theorem State.showSplit_sat_iff (hP : Frame P) (s : State) : s.showSplit.Sat P ↔ s.Sat P := by
  simp [State.showSplit, Fld.FIL_SPLIT_KSIZE, Fld.onPage, hP]

@[simp] theorem State.showImages_sat_iff (hP : Frame P) (s : State) : s.showImages.Sat P ↔ s.Sat P := by simp [State.showImages, hP]

@[simp] theorem State.readTouth_wf (s : State) (fn va : Nat) (hi : s.Wf) : FstWf (s.readTouth fn va) := by
  have hr := s.vaRead_sat memWf_frame fn .dispatcher va 64 hi
  unfold State.readTouth
  split
  · next e => exact FstSat.of_eq hr e
  · next e =>
    have h2 := fun n => State.vaTrace_sat memWf_frame _ fn .dispatcher va n .read (FstSat.of_eq hr e)
    dsimp only
    split
    · exact h2 _
    · split
      · exact h2 _
      · exact h2 _

@[simp] theorem State.imgLoad_wf (s : State) (fn : Nat) (hi : s.Wf) : FstWf (s.imgLoad fn) := by
  have hr := fun va => s.readTouth_wf fn va hi
  rw [State.imgLoad]
  dsimp only
  split
  · next e => exact FstSat.of_eq (hr _) e
  · next s1 b e =>
    have h1 := FstSat.of_eq (hr _) e
    have ha := fun n slice => s1.allocMapped_wf fn n slice h1
    split
    · exact h1
    · split
      · next e2 => exact FstSat.of_eq (ha _ _) e2
      · next s2 ps e2 =>
        have h2 := FstSat.of_eq (ha _ _) e2
        split <;> simp [h2]

@[simp] theorem State.dropImage_wf (s : State) (fn h : Nat) (hi : s.Wf) : (s.dropImage fn h).Wf := by
  unfold State.dropImage
  split <;> simp [hi]

@[simp] theorem State.imgUnload_wf_iff (s : State) (fn h : Nat) : FstWf (s.imgUnload fn h) ↔ s.Wf := by
  unfold State.imgUnload
  split <;> simp

@[simp] theorem State.imgReplace_wf (s : State) (fn h : Nat) (hi : s.Wf) : FstWf (s.imgReplace fn h) := by
  have hr := fun va => s.readTouth_wf fn va hi
  unfold State.imgReplace
  split
  · exact hi
  · dsimp only
    split
    · next e => exact FstSat.of_eq (hr _) e
    · next e =>
      have h1 := FstSat.of_eq (hr _) e
      split
      · exact h1
      · exact h1

@[simp] theorem State.imgCmd_wf (s : State) (fn v op : Nat) (f : State × Option Status) (hi : s.Wf)
    (hf : FstWf f) : (s.imgCmd fn v op f).Wf := s.pageCmdLong_wf _ _ _ _ _ _ _ _ _ _ f hi hf

@[simp] theorem execImageLoad_wf (fn v : Nat) (s : State) (hi : s.Wf) : Out.Wf (execImageLoad fn v s) := by simp [execImageLoad, hi]

@[simp] theorem execImageUnload_wf (fn v : Nat) (s : State) (hi : s.Wf) : Out.Wf (execImageUnload fn v s) := by simp [execImageUnload, hi]

@[simp] theorem execImageReplace_wf (fn v : Nat) (s : State) (hi : s.Wf) : Out.Wf (execImageReplace fn v s) := by
  simp [execImageReplace, hi]

@[simp] theorem execImageUnloadDone_wf (fn h : Nat) (s : State) (hi : s.Wf) : Out.Wf (execImageUnloadDone fn h s) := by
  refine Out.wf_next ?_
  split <;> simp [hi]

@[simp] theorem execImageReplaceDone_wf (fn h : Nat) (s : State) (hi : s.Wf) : Out.Wf (execImageReplaceDone fn h s) := by
  refine Out.wf_next ?_
  repeat' split
  all_goals simp [hi]

end Sys2Proof.Machine
end

section
/-! ## What the operations keep: Seq -/

namespace Sys2Proof.Machine

variable {P : State → Prop}

@[simp] theorem State.tableTrace_wf (s : State) (fn tq : Nat) (appends : Bool) (va : Nat) (hi : s.Wf) :
    (s.tableTrace fn tq appends va).Wf := by
  have h1 := s.vaTrace_sat memWf_frame fn .dispatcher va 64 .read hi
  unfold State.tableTrace
  dsimp only
  split
  · exact h1
  · refine foldl_sat (fun s a h => ?_) _ _ h1
    split
    · exact s.vaTrace_sat memWf_frame _ _ _ _ _ h
    · exact h

@[simp] theorem State.readTables_wf (s : State) (fn va n tq : Nat) (geo : Nat × Nat × Nat × Nat) (appends : Bool) (hi : s.Wf) :
    FstWf (s.readTables fn va n tq geo appends) := by
  have hr := s.vaRead_sat memWf_frame fn .dispatcher va (16 * n) hi
  unfold State.readTables
  split
  · next e => exact FstSat.of_eq hr e
  · next e =>
    have h1 := FstSat.of_eq hr e
    split
    · exact h1
    · dsimp only
      split <;> exact foldl_sat (fun s t h => s.tableTrace_wf _ _ _ _ h) _ _ h1

@[simp] theorem State.takeStream_wf_iff (s : State) (fn cls h : Nat) : (s.takeStream fn cls h).Wf ↔ s.Wf := by
  unfold State.takeStream
  dsimp only
  repeat' split
  all_goals simp

@[simp] theorem State.notTaken_wf (s : State) (id : Nat) (st : Status) (hi : s.Wf) : (s.notTaken id st).Wf := by simp [State.notTaken, hi]

@[simp] theorem State.noteUndo_wf_iff (s : State) (fn h : Nat) (bytes : List Byte) : (s.noteUndo fn h bytes).Wf ↔ s.Wf := by
  simp [State.noteUndo]

theorem State.undoCmd_wf (s : State) (u : SeqUndo) (hi : s.Wf) : ((s.undoCmd u).getD s).Wf := by
  have h0 := s.freeCopies_sat memWf_frame u.fn u.h hi
  have ha := fun n slice => State.allocMapped_wf _ u.fn n slice h0
  unfold State.undoCmd
  dsimp only
  split
  · split
    · exact hi
    · simp [State.slotWrite_sat, h0]
  · split
    · next e => simp [State.pagesWrite_sat, FstSat.of_eq (ha _ _) e]
    · exact hi
  · simp [h0]

@[simp] theorem State.callFirst_wf (s : State) (fn : Nat) (hs : List Nat) (hi : s.Wf) :
    (s.callFirst fn hs).Wf := foldr_sat (fun u s h => s.undoCmd_wf u h) _ _ hi

@[simp] theorem State.markTaken_wf_iff (s : State) (id : Nat) (j : Job) : (s.markTaken id j).Wf ↔ s.Wf := by simp [State.markTaken]

@[simp] theorem State.seqTake_wf (s : State) (id : Nat) (j : Job) (ij : ImgJob) (arg : List Byte) (hi : s.Wf) :
    (s.seqTake id j ij arg).Wf := by
  have hr := fun va n => s.vaRead_sat memWf_frame j.fn .dispatcher va n hi
  unfold State.seqTake
  split
  · simp [hi]
  dsimp only
  split
  · simp [hi]
  split
  · next e => simp [FstSat.of_eq (hr _ _) e]
  next s1 b e =>
  have h1 := FstSat.of_eq (hr _ _) e
  split
  · simp [h1]
  split
  · simp [h1]
  generalize ht : (if ij.attLayers then s1.readTables j.fn (leField arg 48 8) _ (leField arg 4 4) ij.att true else (s1, .ok [])) = r
  have h2 : FstWf r := by
    rw [← ht]
    split
    · exact s1.readTables_wf _ _ _ _ _ _ h1
    · exact h1
  split
  · simp [h2]
  · simp [h2]

@[simp] theorem execSeqCallTake_wf (job : Nat) (s : State) (hi : s.Wf) : Out.Wf (execSeqCallTake job s) := by
  have hr := State.readArg_wf
  unfold execSeqCallTake
  refine Out.wf_next ?_
  split
  · exact hi
  split
  · exact hi
  split
  · exact hi
  split
  · next e => simp [FstSat.of_eq (hr _ _ hi) e]
  · next e => simp [FstSat.of_eq (hr _ _ hi) e]

@[simp] theorem execSeqCallStart_wf (job : Nat) (s : State) (hi : s.Wf) : Out.Wf (execSeqCallStart job s) := by
  refine Out.wf_next ?_
  repeat' split
  all_goals simp [hi]

@[simp] theorem State.seqOpen_wf_iff (s : State) (fn h : Nat) : FstWf (s.seqOpen fn h) ↔ s.Wf := by simp [State.seqOpen]

@[simp] theorem State.seqClose_wf (s : State) (fn h : Nat) (hi : s.Wf) : FstWf (s.seqClose fn h) := by simp [State.seqClose, hi]

@[simp] theorem State.seqPark_wf (s : State) (fn h : Nat) (outer : Bool) (hi : s.Wf) : FstWf (s.seqPark fn h outer) := by
  simp [State.seqPark, hi]

@[simp] theorem State.seqUnpark_wf_iff (s : State) (fn h : Nat) : FstWf (s.seqUnpark fn h) ↔ s.Wf := by
  unfold State.seqUnpark
  dsimp only
  repeat' split
  all_goals simp

@[simp] theorem State.seqReset_wf (s : State) (fn h : Nat) (hi : s.Wf) : FstWf (s.seqReset fn h) := by simp [State.seqReset, hi]

@[simp] theorem State.seqSave_wf (s : State) (fn h : Nat) (hi : s.Wf) : FstWf (s.seqSave fn h) := by
  have hw := State.vaWrite_sat memWf_frame
  obtain ⟨f, ef⟩ : ∃ f, State.vaWrite = f := ⟨_, rfl⟩
  rw [State.seqSave]
  rw [ef] at hw ⊢
  split
  · exact hi
  split
  · exact hi
  extract_lets s1 head
  have h1 : s1.Wf := by
    unfold s1
    split
    · exact s.slotScan_sat memWf_frame _ _ _ hi
    · exact hi
  split
  · exact h1
  · split
    · next e => exact FstSat.of_eq (hw _ _ _ _ _ h1) e
    · next e => exact FstSat.of_eq (hw _ _ _ _ _ h1) e

@[simp] theorem State.seqLoad_wf (s : State) (fn h : Nat) (hi : s.Wf) : FstWf (s.seqLoad fn h) := by
  have hr := fun va n => s.vaRead_sat memWf_frame fn .dispatcher va n hi
  unfold State.seqLoad
  dsimp only
  split
  · exact hi
  split
  · exact hi
  split
  · next e => exact FstSat.of_eq (hr _ _) e
  next s1 b e =>
  have h1 := FstSat.of_eq (hr _ _) e
  have ha := fun n slice => s1.allocMapped_wf fn n slice h1
  split
  · exact h1
  split
  · next e2 => exact FstSat.of_eq (ha _ _) e2
  · next e2 =>
    have h2 := FstSat.of_eq (ha _ _) e2
    simp -proj [State.pagesWrite_sat, h2]

@[simp] theorem State.seqCmd_wf (s : State) (fn v op : Nat) (f : State × Status) (hi : s.Wf)
    (hf : FstWf f) : (s.seqCmd fn v op f).Wf := s.pageCmd_wf _ _ _ _ _ _ _ _ _ _ f hi hf

@[simp] theorem execStreamOpen_wf (fn v : Nat) (s : State) (hi : s.Wf) : Out.Wf (execStreamOpen fn v s) := by simp [execStreamOpen, hi]

@[simp] theorem execStreamClose_wf (fn v : Nat) (s : State) (hi : s.Wf) : Out.Wf (execStreamClose fn v s) := by simp [execStreamClose, hi]

@[simp] theorem execStreamPark_wf (fn v : Nat) (s : State) (hi : s.Wf) : Out.Wf (execStreamPark fn v s) := by simp [execStreamPark, hi]

@[simp] theorem execStreamUnpark_wf (fn v : Nat) (s : State) (hi : s.Wf) : Out.Wf (execStreamUnpark fn v s) := by
  simp [execStreamUnpark, hi]

@[simp] theorem execStreamSreset_wf (fn v : Nat) (s : State) (hi : s.Wf) : Out.Wf (execStreamSreset fn v s) := by
  simp [execStreamSreset, hi]

@[simp] theorem execStreamSsave_wf (fn v : Nat) (s : State) (hi : s.Wf) : Out.Wf (execStreamSsave fn v s) := by simp [execStreamSsave, hi]

@[simp] theorem execStreamSload_wf (fn v : Nat) (s : State) (hi : s.Wf) : Out.Wf (execStreamSload fn v s) := by simp [execStreamSload, hi]

@[simp] theorem execStreamIdleSExpiry_wf (fn h : Nat) (s : State) (hi : s.Wf) : Out.Wf (execStreamIdleSExpiry fn h s) := by
  simp [execStreamIdleSExpiry, hi]

@[simp] theorem execStreamIdleRExpiry_wf (fn h : Nat) (s : State) (hi : s.Wf) : Out.Wf (execStreamIdleRExpiry fn h s) := by
  simp [execStreamIdleRExpiry, hi]

@[simp] theorem State.outToOuter_wf (s : State) (fn h : Nat) (hi : s.Wf) : (s.outToOuter fn h).Wf := by
  have hw := fun va b => s.vaWrite_sat memWf_frame fn .dispatcher va b hi
  rw [State.outToOuter]
  generalize s.vaWrite fn .dispatcher = w at hw ⊢
  split
  · simp [hi]
  split
  · next e => simp [FstSat.of_eq (hw _ _) e]
  · next e => simp [State.releasePages_sat memWf_frame, FstSat.of_eq (hw _ _) e]

@[simp] theorem State.outDone_wf (s : State) (fn h : Nat) (hi : s.Wf) : (s.outDone fn h).Wf := by
  have ha := fun n slice => s.allocMapped_wf fn n slice hi
  unfold State.outDone
  dsimp only
  split
  · simp [hi]
  split
  · next e => simp [FstSat.of_eq (ha _ _) e]
  · next e => simp [State.pagesWrite_sat, FstSat.of_eq (ha _ _) e]

@[simp] theorem execStreamSwapOutDone_wf (fn h : Nat) (s : State) (hi : s.Wf) : Out.Wf (execStreamSwapOutDone fn h s) := by
  simp [execStreamSwapOutDone, hi]

@[simp] theorem State.tearIn_wf_iff (s : State) (fn h : Nat) (why : Status) : (s.tearIn fn h why).Wf ↔ s.Wf := by simp [State.tearIn]

@[simp] theorem execStreamSwapInDone_wf (fn h : Nat) (s : State) (hi : s.Wf) : Out.Wf (execStreamSwapInDone fn h s) := by
  refine Out.wf_next ?_
  dsimp only
  split
  · exact hi
  split
  · split
    · exact State.beginOut_sat memWf_frame _ _ _ _ hi
    · exact hi
  split
  · simp [hi]
  · next k _ _ b _ =>
    have h1 := State.releasePages_sat memWf_frame _ (s.stream fn h).pages (State.slotWrite_sat s fn h k b hi)
    simp [h1]

end Sys2Proof.Machine
end

section
/-! ## What the operations keep: Att -/

namespace Sys2Proof.Machine

variable {P : State → Prop}

@[simp] theorem State.attTake_wf (s : State) (id : Nat) (j : Job) (ij : ImgJob) (arg : List Byte) (hi : s.Wf) :
    (s.attTake id j ij arg).Wf := by
  have hr := fun va n tq app => s.readTables_wf j.fn va n tq ij.att app hi
  unfold State.attTake
  dsimp only
  split
  · simp [hi]
  split
  · next e => simp [FstSat.of_eq (hr _ _ _ _) e]
  · next e => simp [FstSat.of_eq (hr _ _ _ _) e]

@[simp] theorem State.attCall_wf (s : State) (id op : Nat) (hi : s.Wf) : (s.attCall id op).Wf := by
  unfold State.attCall
  split
  · exact hi
  next j _ =>
  have hr := s.readArg_wf j hi
  split
  · exact hi
  split
  · exact hi
  split
  · next e => simp [FstSat.of_eq hr e]
  · next e =>
    have h1 := FstSat.of_eq hr e
    split <;> simp [h1, hi]

@[simp] theorem execAttAttend_wf (job : Nat) (s : State) (hi : s.Wf) : Out.Wf (execAttAttend job s) := by simp [execAttAttend, hi]

@[simp] theorem execAttAppend_wf (job : Nat) (s : State) (hi : s.Wf) : Out.Wf (execAttAppend job s) := by simp [execAttAppend, hi]

@[simp] theorem execPageRingConsumed_wf (g count : Nat) (s : State) (hi : s.Wf) : Out.Wf (execPageRingConsumed g count s) := by
  refine Out.wf_next ?_
  split <;> simp [hi]

end Sys2Proof.Machine
end

section
/-! ## What the operations keep: EngRing -/

namespace Sys2Proof.Machine

variable {P : State → Prop}

@[simp] theorem State.setEngSt_sat_iff (hP : Frame P) (s : State) (e : RingEng) (x : EngSt) : (s.setEngSt e x).Sat P ↔ s.Sat P := by
  simp [State.setEngSt, hP]

@[simp] theorem State.setTask_wf_iff (s : State) (e : RingEng) (ctx : Nat) (t : Task) : (s.setTask e ctx t).Wf ↔ s.Wf := by
  simp [State.setTask]

@[simp] theorem State.dropTask_wf_iff (s : State) (e : RingEng) (ctx : Nat) : (s.dropTask e ctx).Wf ↔ s.Wf := by simp [State.dropTask]

@[simp] theorem State.engTail_wf_iff (s : State) (e : RingEng) (fn v : Nat) : (s.engTail e fn v).Wf ↔ s.Wf := by simp [State.engTail]

@[simp] theorem State.ctxRan_wf_iff (s : State) (e : RingEng) (ctx : Nat) (ready0 : Bool) : (s.ctxRan e ctx ready0).Wf ↔ s.Wf := by
  simp [State.ctxRan]

@[simp] theorem State.ringTaken_wf_iff (s : State) (e : RingEng) (fn cls : Nat) : (s.ringTaken e fn cls).Wf ↔ s.Wf := by
  simp [State.ringTaken]

@[simp] theorem State.ringDesc_wf (s : State) (e : RingEng) (fn : Nat) (hi : s.Wf) : FstWf (s.ringDesc e fn) := by simp [State.ringDesc, hi]

@[simp] theorem State.takeTask_wf_iff (s : State) (e : RingEng) (fn va : Nat) (b : List Byte) : (s.takeTask e fn va b).Wf ↔ s.Wf := by
  simp [State.takeTask]

@[simp] theorem State.finishTask_wf_iff (s : State) (e : RingEng) (ctx : Nat) (t : Task) (st : Status) (next : Option Nat) :
    (s.finishTask e ctx t st next).Wf ↔ s.Wf := by
  unfold State.finishTask
  repeat' split
  all_goals simp

@[simp] theorem State.chargeTask_wf_iff (s : State) (e : RingEng) (ctx : Nat) : (s.chargeTask e ctx).Wf ↔ s.Wf := by
  unfold State.chargeTask
  split <;> simp

@[simp] theorem State.stopTasks_wf_iff (s : State) (e : RingEng) (st : Status) : (s.stopTasks e st).Wf ↔ s.Wf := by simp [State.stopTasks]

@[simp] theorem State.noteMism_wf_iff (s : State) (e : RingEng) (f : Fld) : (s.noteMism e f).Wf ↔ s.Wf := by simp [State.noteMism]

@[simp] theorem State.engRelease_sat_iff (hP : Frame P) (s : State) (e : RingEng) (fn : Nat) (h : farReg e.page (e.reg + 8) = true) :
    (s.engRelease e fn).Sat P ↔ s.Sat P := by
  unfold State.engRelease
  extract_lets x
  rw [State.setF_sat_iff hP _ _ _ _ h, State.setEngSt_sat_iff hP]

@[simp] theorem State.engRelease_wf_iff (s : State) (e : RingEng) (fn : Nat) : (s.engRelease e fn).Wf ↔ s.Wf := by
  simp [State.engRelease]

@[simp] theorem State.engCtl_wf_iff (s : State) (e : RingEng) (fn : Nat) (f : State) (h : f.Wf ↔ s.Wf) : (s.engCtl e fn f).Wf ↔ s.Wf :=
  s.ctlWrite_wf_iff fn e.page _ _ f h

@[simp] theorem State.engCtl_wf (s : State) (e : RingEng) (fn : Nat) (f : State) (hi : s.Wf) (hf : f.Wf) :
    (s.engCtl e fn f).Wf := s.ctlWrite_wf fn e.page _ _ f hi hf

end Sys2Proof.Machine
end

section
/-! ## What the operations keep: KnightMap -/

namespace Sys2Proof.Machine

variable {P : State → Prop}

@[simp] theorem State.bumpVers_wf_iff (s : State) (rs : List Nat) : (s.bumpVers rs).Wf ↔ s.Wf := by
  unfold State.bumpVers
  split <;> simp

@[simp] theorem State.clrBegin_wf_iff (s : State) (rs : List Nat) : (s.clrBegin rs).Wf ↔ s.Wf := by simp [State.clrBegin]

end Sys2Proof.Machine
end

section
/-! ## What the operations keep: KnightPlan -/

namespace Sys2Proof.Machine

variable {P : State → Prop}

@[simp] theorem State.showWatches_sat_iff (hP : Frame P) (s : State) : s.showWatches.Sat P ↔ s.Sat P := by simp [State.showWatches, hP]

@[simp] theorem State.watchStart_wf_iff (s : State) (fn : Nat) (q : KQuery) (desc lib : List Byte) (path brakes : List KSeg) :
    FstWf (s.watchStart fn q desc lib path brakes) ↔ s.Wf := by
  unfold State.watchStart
  repeat' split
  all_goals simp

@[simp] theorem State.kPublish_wf (s : State) (ctx : Nat) (t : Task) (run : KnightRun) (st : Status) (path brakes : List KSeg)
    (flags detail : Nat) (hi : s.Wf) : (s.kPublish ctx t run st path brakes flags detail).Wf := by
  have hw := State.vaWrite_sat memWf_frame
  unfold State.kPublish
  extract_lets q big b bs
  split
  dsimp only
  split <;> split <;> simp [hw, hi]

@[simp] theorem State.kRefuse_wf (s : State) (ctx : Nat) (t : Task) (st : Status) (hi : s.Wf) :
    (s.kRefuse ctx t st).Wf := by
  simp -proj [State.kRefuse, State.vaWrite_sat memWf_frame, hi]

@[simp] theorem State.kSpill_wf (s : State) (fn : Nat) (q : KQuery) (k : KSearch) (hi : s.Wf) : (s.kSpill fn q k).Wf := by
  simp [State.kSpill, hi]

@[simp] theorem State.kCount_wf_iff (s : State) (most : Nat) : (s.kCount most).Wf ↔ s.Wf := by simp [State.kCount]

end Sys2Proof.Machine
end

section
/-! ## What the operations keep: Knight -/

namespace Sys2Proof.Machine

variable {P : State → Prop}

theorem State.kAccept_wf_iff {s s' : State} {ctx fn cls : Nat} {b lib : List Byte} (h : s.kAccept ctx fn cls b = .ok (s', lib)) :
    s'.Wf ↔ s.Wf := by
  unfold State.kAccept at h
  dsimp only at h
  split at h
  · cases h
  split at h
  · cases h
  repeat' split at h
  all_goals cases h
  rfl

@[simp] theorem State.kCheck_wf (s : State) (ctx : Nat) (t : Task) (lib : List Byte) (hi : s.Wf) : (s.kCheck ctx t lib).Wf := by
  unfold State.kCheck
  dsimp only
  repeat' split
  all_goals simp [hi]

@[simp] theorem State.kTake_wf (s : State) (fn op : Nat) (hi : s.Wf) : (s.kTake fn op).Wf := by
  have hr (va : Nat) (b : List Byte) : ((s.ringDesc knightR fn).1.takeTask knightR fn va b).Wf :=
    (State.takeTask_wf_iff _ _ _ _ _).mpr (s.ringDesc_wf knightR fn hi)
  obtain ⟨r, er⟩ : ∃ r, s.ringDesc knightR fn = r := ⟨_, rfl⟩
  obtain ⟨take, et⟩ : ∃ f, State.takeTask = f := ⟨_, rfl⟩
  rw [State.kTake]
  rw [er, et] at hr ⊢
  split
  · exact hi
  dsimp only
  split
  · exact hi
  · split <;> simp [hr]
  split
  · exact hi
  split
  · exact hr _ _
  split
  · simp [hr]
  · next s3 lib e =>
    have h3 : s3.Wf := (State.kAccept_wf_iff e).mpr (hr _ _)
    split
    · simp [h3]
    · exact h3

@[simp] theorem execKnightPlan_wf (fn : Nat) (s : State) (hi : s.Wf) : Out.Wf (execKnightPlan fn s) := by simp [execKnightPlan, hi]

@[simp] theorem execKnightCheck_wf (fn : Nat) (s : State) (hi : s.Wf) : Out.Wf (execKnightCheck fn s) := by simp [execKnightCheck, hi]

@[simp] theorem execKnightTailDoorbell_wf (fn v : Nat) (s : State) (hi : s.Wf) : Out.Wf (execKnightTailDoorbell fn v s) := by
  simp [execKnightTailDoorbell, hi]

@[simp] theorem State.setKRun_wf_iff (s : State) (ctx : Nat) (run : KnightRun) : (s.setKRun ctx run).Wf ↔ s.Wf := by simp [State.setKRun]

@[simp] theorem State.planeErr_wf (s : State) (hi : s.Wf) : s.planeErr.Wf := by
  unfold State.planeErr
  split
  · next e => simp [State.localErr_wf e hi]
  · exact hi

@[simp] theorem execKnightBatch_wf (ctx : Nat) (s : State) (hi : s.Wf) : Out.Wf (execKnightBatch ctx s) := by
  have hl {s t : State} {page area k : Nat} := @State.localErr_wf s t page area k
  have hr := State.kRefuse_wf
  have hs := State.kSpill_wf
  have hp := State.kPublish_wf
  have hn := State.planeErr_wf
  have hd : ∀ s : State, s.drawFree.Wf ↔ s.Wf := fun s => by simp
  unfold execKnightBatch
  refine Out.wf_next ?_
  split
  · extract_lets +onlyGivenNames q busy eng s1 t1 spent r s2 rep
    have h1 : s1.Wf := by simp [s1, hn, hi]
    have h2 : s2.Wf := by simp [s2, hd, h1]
    have h3 (x : KnightRun) (s : State) (h : s.Wf) : (rep x s).Wf := by
      unfold rep
      split
      · exact h
      · simp [h]
      · exact h
    split
    · exact hi
    split
    · exact hi
    split
    · next e => exact hr _ _ _ _ (hl e hi)
    · exact hr _ _ _ _ hi
    split
    · exact h3 _ _ (hs _ _ _ _ (by rw [State.setKRun_wf_iff]; exact h2))
    · exact hp _ _ _ _ _ _ _ _ _ (hs _ _ _ _ h2)
  · exact hi

@[simp] theorem State.watchDrop_sat_iff (hP : Frame P) (s : State) (i : Nat) : (s.watchDrop i).Sat P ↔ s.Sat P := by
  simp [State.watchDrop, hP]

@[simp] theorem State.watchWrite_sat (hP : Frame P) (s : State) (i : Nat) (w : Watch) (st : Status) (path brakes : List KSeg) (flags : Nat)
    (hi : s.Sat P) : (s.watchWrite i w st path brakes flags).Sat P := by
  have hr (va : Nat) (b : List Byte) := s.drawFree.vaWrite_sat hP w.fn .engine va b ((s.drawFree_sat_iff hP).mpr hi)
  obtain ⟨write, ew⟩ : ∃ f, State.vaWrite = f := ⟨_, rfl⟩
  rw [State.watchWrite]
  rw [ew] at hr ⊢
  split
  · exact hr _ _
  · rw [State.raiseIrq_sat_iff hP]
    exact hP.keep (hr _ _) rfl rfl rfl rfl

@[simp] theorem State.watchEnd_sat (hP : Frame P) (s : State) (i : Nat) (st : Status) (hi : s.Sat P) : (s.watchEnd i st).Sat P := by
  unfold State.watchEnd
  split <;> simp [hP, hi]

@[simp] theorem State.watchEndAll_sat (hP : Frame P) (s : State) (p : Watch → Bool) (st : Status) (hi : s.Sat P) :
    (s.watchEndAll p st).Sat P := by simp +contextual [State.watchEndAll, hP, hi]

@[simp] theorem execKnightWatchRecheck_wf (slot : Nat) (s : State) (hi : s.Wf) : Out.Wf (execKnightWatchRecheck slot s) := by
  refine Out.wf_next ?_
  dsimp only
  repeat' split
  all_goals simp [hi]

@[simp] theorem execKnightWatchExpire_wf (slot : Nat) (s : State) (hi : s.Wf) : Out.Wf (execKnightWatchExpire slot s) := by
  refine Out.wf_next ?_
  split <;> simp [hi]

@[simp] theorem execKnightWatchEndCmd_wf (fn v : Nat) (s : State) (hi : s.Wf) : Out.Wf (execKnightWatchEndCmd fn v s) := by
  refine Out.wf_next ?_
  repeat' split
  all_goals simp [hi]

@[simp] theorem State.knightEndAll_wf (s : State) (st : Status) (hi : s.Wf) : (s.knightEndAll st).Wf := by
  simp +contextual [State.knightEndAll, hi]

@[simp] theorem State.mapBegin_wf_iff (s : State) (fn : Nat) : (s.mapBegin fn).Wf ↔ s.Wf := by simp [State.mapBegin]

@[simp] theorem State.mapRun_wf (s : State) (op fn : Nat) (hi : s.Wf) : FstWf (s.mapRun op fn) := by
  have hw := State.vaWrite_sat memWf_frame
  obtain ⟨f, ef⟩ : ∃ f, State.vaWrite = f := ⟨_, rfl⟩
  unfold State.mapRun
  rw [ef] at hw ⊢
  split
  · exact hi
  split
  · simp [hi]
  · split
    · exact hi
    · extract_lets o
      split
      · exact hi
      · simp [hi]
  · exact hw _ _ _ _ _ hi
  · simp [hi]

@[simp] theorem State.mapWrite_wf (s : State) (fn v op : Nat) (hi : s.Wf) : (s.mapWrite fn v op).Wf := by simp [State.mapWrite, hi]

@[simp] theorem State.mapResume_wf (s : State) (hi : s.Wf) : s.mapResume.Wf := by
  unfold State.mapResume
  dsimp only
  repeat' split
  all_goals simp [hi]

@[simp] theorem execMapcfg_wf (fn v : Nat) (s : State) (hi : s.Wf) : Out.Wf (execMapcfg fn v s) := by simp [execMapcfg, hi]

@[simp] theorem execMapload_wf (fn v : Nat) (s : State) (hi : s.Wf) : Out.Wf (execMapload fn v s) := by simp [execMapload, hi]

@[simp] theorem execMapsave_wf (fn v : Nat) (s : State) (hi : s.Wf) : Out.Wf (execMapsave fn v s) := by simp [execMapsave, hi]

@[simp] theorem execMapclear_wf (fn v : Nat) (s : State) (hi : s.Wf) : Out.Wf (execMapclear fn v s) := by simp [execMapclear, hi]

@[simp] theorem execClearanceUpdateDone_wf (s : State) (hi : s.Wf) : Out.Wf (execClearanceUpdateDone s) := by
  refine Out.wf_next ?_
  repeat' split
  all_goals simp [hi]

@[simp] theorem State.unkobsChanged_wf_iff (s : State) : s.unkobsChanged.Wf ↔ s.Wf := by simp [State.unkobsChanged]

@[simp] theorem State.knightStart_wf_iff (s : State) : s.knightStart.Wf ↔ s.Wf := by simp [State.knightStart]

@[simp] theorem State.knightStop_wf (s : State) (hi : s.Wf) : s.knightStop.Wf := by simp [State.knightStop, hi]

@[simp] theorem execKnightEnable_wf (fn : Nat) (on : Bool) (s : State) (hi : s.Wf) : Out.Wf (execKnightEnable fn on s) :=
  Out.wf_next (State.engCtl_wf _ _ _ _ hi (State.blockEnable_wf _ _ _ _ _ hi (fun _ h => by simpa using h) State.knightStop_wf))

@[simp] theorem execKnightQuiesce_wf (fn : Nat) (s : State) (hi : s.Wf) : Out.Wf (execKnightQuiesce fn s) :=
  Out.wf_next (State.engCtl_wf _ _ _ _ hi (State.blockQuiesce_wf _ _ _ hi State.knightStop_wf))

@[simp] theorem execKnightReset_wf (fn : Nat) (s : State) (hi : s.Wf) : Out.Wf (execKnightReset fn s) := by simp [execKnightReset, hi]

@[simp] theorem execKnightStartDone_wf (s : State) (hi : s.Wf) : Out.Wf (execKnightStartDone s) :=
  Out.wf_next (State.blockOn_wf _ _ _ _ hi (fun _ h => h) State.knightStop_wf)

@[simp] theorem execKnightStopDone_wf (s : State) (hi : s.Wf) : Out.Wf (execKnightStopDone s) := by simp [execKnightStopDone, hi]

@[simp] theorem execKnightResidueMismatch_wf (ctx : Nat) (s : State) (hi : s.Wf) : Out.Wf (execKnightResidueMismatch ctx s) := by
  refine Out.wf_next ?_
  split <;> simp [hi]

@[simp] theorem execKnightThirdMismatch_wf (s : State) (hi : s.Wf) : Out.Wf (execKnightThirdMismatch s) := by
  simp [execKnightThirdMismatch, hi]

@[simp] theorem State.knightRelease_sat (hP : Frame P) (s : State) (fn : Nat) (hi : s.Sat P) : (s.knightRelease fn).Sat P := by
  have h1 := s.watchEndAll_sat hP (fun w => w.fn == fn) .cancelled hi
  refine (State.engRelease_sat_iff hP _ knightR fn rfl).mpr ?_
  exact hP.keep h1 rfl rfl rfl rfl

@[simp] theorem State.knightBoard_wf (s : State) (hi : s.Wf) : s.knightBoard.Wf := by
  have hk := State.kRefuse_wf
  unfold State.knightBoard
  exact State.watchEndAll_sat memWf_frame _ _ _ (foldl_sat (fun s t h => hk s _ _ _ h) _ s hi)

end Sys2Proof.Machine
end

section
/-! ## What the operations keep: Solver -/

namespace Sys2Proof.Machine

variable {P : State → Prop}

@[simp] theorem State.slvFinish_wf (s : State) (ctx : Nat) (t : Task) (r : SolverRun) (st : Status) (detail flags : Nat) (hi : s.Wf) :
    (s.slvFinish ctx t r st detail flags).Wf := by simp [State.slvFinish, hi]

@[simp] theorem State.setSRun_wf_iff (s : State) (ctx : Nat) (r : SolverRun) : (s.setSRun ctx r).Wf ↔ s.Wf := by simp [State.setSRun]

@[simp] theorem State.slvScribble_wf (s : State) (fn : Nat) (p : SProb) (d : List Byte) (hi : s.Wf) : (s.slvScribble fn p d).Wf := by
  simp [State.slvScribble, hi]

@[simp] theorem State.slvBegin_wf (s : State) (ctx : Nat) (t : Task) (hi : s.Wf) : (s.slvBegin ctx t).Wf := by
  unfold State.slvBegin
  dsimp only
  repeat' split
  all_goals simp [hi]

@[simp] theorem State.slvTake_wf (s : State) (fn op : Nat) (hi : s.Wf) : (s.slvTake fn op).Wf := by
  have ht := State.takeTask_wf_iff
  have hr := s.ringDesc_wf solverR fn hi
  obtain ⟨take, et⟩ : ∃ f, State.takeTask = f := ⟨_, rfl⟩
  obtain ⟨r, er⟩ : ∃ r, s.ringDesc solverR fn = r := ⟨_, rfl⟩
  obtain ⟨read, el⟩ : ∃ f, State.engRead = f := ⟨_, rfl⟩
  rw [State.slvTake, el]
  rw [et] at ht ⊢
  rw [er] at hr ⊢
  split
  · split
    · exact hi
    · dsimp only
      split <;> simp [hi]
  split
  · exact hi
  dsimp only
  split
  · exact hi
  · split <;> simp [ht, hr]
  · split
    · exact hi
    · split <;> simp [ht, hr]

@[simp] theorem execSolverSolve_wf (fn : Nat) (s : State) (hi : s.Wf) : Out.Wf (execSolverSolve fn s) := by simp [execSolverSolve, hi]

@[simp] theorem execSolverReplay_wf (fn : Nat) (s : State) (hi : s.Wf) : Out.Wf (execSolverReplay fn s) := by simp [execSolverReplay, hi]

@[simp] theorem execSolverTailDoorbell_wf (fn v : Nat) (s : State) (hi : s.Wf) : Out.Wf (execSolverTailDoorbell fn v s) := by
  simp [execSolverTailDoorbell, hi]

@[simp] theorem execSolverPanel_wf (ctx : Nat) (s : State) (hi : s.Wf) : Out.Wf (execSolverPanel ctx s) := by
  refine Out.wf_next ?_
  split
  · extract_lets +onlyGivenNames p busy s1 t1 s2
    have h2 : s2.Wf := by simp [s2, s1, hi]
    clear_value s2
    split
    · exact hi
    split
    · next e => exact State.slvFinish_wf _ _ _ _ _ _ _ (State.localErr_wf e h2)
    split
    · exact State.slvFinish_wf _ _ _ _ _ _ _ h2
    clear_value p t1
    split
    · exact h2
    split
    · exact State.slvFinish_wf _ _ _ _ _ _ _ h2
    split
    · simp [h2]
    split
    · simp [h2]
    split
    · simp [h2]
    · extract_lets +onlyGivenNames r1 r2 s3
      have h3 : s3.Wf := by simp [s3, h2]
      clear_value s3
      split
      · exact h3
      · simp [h3]
  · exact hi

@[simp] theorem execSolverBudgetExpiry_wf (ctx : Nat) (s : State) (hi : s.Wf) : Out.Wf (execSolverBudgetExpiry ctx s) := by
  refine Out.wf_next ?_
  dsimp only
  repeat' split
  all_goals simp [hi]

@[simp] theorem execSolverProblemComplete_wf (ctx : Nat) (s : State) (hi : s.Wf) : Out.Wf (execSolverProblemComplete ctx s) := by
  refine Out.wf_next ?_
  split <;> simp [hi]

@[simp] theorem State.slvEndAll_wf (s : State) (st : Status) (hi : s.Wf) : (s.slvEndAll st).Wf := by simp +contextual [State.slvEndAll, hi]

@[simp] theorem State.slvStart_wf_iff (s : State) : s.slvStart.Wf ↔ s.Wf := by simp [State.slvStart]

@[simp] theorem State.slvStop_wf_iff (s : State) : s.slvStop.Wf ↔ s.Wf := by simp [State.slvStop]

@[simp] theorem execSolverEnable_wf (fn : Nat) (on : Bool) (s : State) (hi : s.Wf) : Out.Wf (execSolverEnable fn on s) := by
  simp [execSolverEnable, hi]

@[simp] theorem execSolverQuiesce_wf (fn : Nat) (s : State) (hi : s.Wf) : Out.Wf (execSolverQuiesce fn s) := by simp [execSolverQuiesce, hi]

@[simp] theorem execSolverReset_wf (fn : Nat) (s : State) (hi : s.Wf) : Out.Wf (execSolverReset fn s) := by simp [execSolverReset, hi]

@[simp] theorem execSolverStartDone_wf (s : State) (hi : s.Wf) : Out.Wf (execSolverStartDone s) := by simp [execSolverStartDone, hi]

@[simp] theorem execSolverStopDone_wf (s : State) (hi : s.Wf) : Out.Wf (execSolverStopDone s) := by simp [execSolverStopDone, hi]

@[simp] theorem execSolverResidueMismatch_wf (ctx : Nat) (s : State) (hi : s.Wf) : Out.Wf (execSolverResidueMismatch ctx s) := by
  refine Out.wf_next ?_
  split <;> simp [hi]

@[simp] theorem execSolverThirdMismatch_wf (s : State) (hi : s.Wf) : Out.Wf (execSolverThirdMismatch s) := by
  simp [execSolverThirdMismatch, hi]

@[simp] theorem State.slvRelease_sat_iff (hP : Frame P) (s : State) (fn : Nat) : (s.slvRelease fn).Sat P ↔ s.Sat P :=
  (State.engRelease_sat_iff hP _ solverR fn rfl).trans (hP.fields_iff rfl rfl rfl rfl)

@[simp] theorem State.slvBoard_wf (s : State) (hi : s.Wf) : s.slvBoard.Wf := by simp +contextual [State.slvBoard, hi]

end Sys2Proof.Machine
end

section
/-! ## What the operations keep: FusTrack -/

namespace Sys2Proof.Machine

variable {P : State → Prop}

@[simp] theorem State.setFusSrc_wf_iff (s : State) (n : Nat) (x : FusSrc) : (s.setFusSrc n x).Wf ↔ s.Wf := by simp [State.setFusSrc]

@[simp] theorem State.fusIrq_wf_iff (s : State) (i : Nat) : (s.fusIrq i).Wf ↔ s.Wf := by
  unfold State.fusIrq
  split <;> simp

@[simp] theorem State.srcFail_wf_iff (s : State) (n : Nat) (st : Status) : (s.srcFail n st).Wf ↔ s.Wf := by simp [State.srcFail]

@[simp] theorem State.setSrcState_sat_iff (hP : Frame P) (s : State) (n st : Nat) : (s.setSrcState n st).Sat P ↔ s.Sat P := by
  simp [State.setSrcState, Fld.FUS_SRC_STS_STATE, hP]

@[simp] theorem State.calBump_wf_iff (s : State) (n : Nat) : (s.calBump n).Wf ↔ s.Wf := by simp [State.calBump]

@[simp] theorem State.fusEvent_wf (s : State) (tick kind a b : Nat) (st trk trkb : Nat) (hi : s.Wf) :
    (s.fusEvent tick kind a b st trk trkb).Wf := by simp [State.fusEvent, hi]

@[simp] theorem State.setTrack_wf_iff (s : State) (i : Nat) (t : Track) : (s.setTrack i t).Wf ↔ s.Wf := by simp [State.setTrack]

@[simp] theorem foldl_work_wf_iff {β : Type} {f : FusWork → β → FusWork} (h : ∀ w b, (f w b).s.Wf ↔ w.s.Wf) (l : List β) (w : FusWork) :
    (l.foldl f w).s.Wf ↔ w.s.Wf := by
  induction l generalizing w with
  | nil => rfl
  | cons b t ih => exact (ih (f w b)).trans (h w b)

@[simp] theorem foldl_work_wf {β : Type} {f : FusWork → β → FusWork} (h : ∀ w b, w.s.Wf → (f w b).s.Wf)
    (l : List β) (w : FusWork) (hi : w.s.Wf) : (l.foldl f w).s.Wf := by
  induction l generalizing w with
  | nil => exact hi
  | cons b t ih => exact ih _ (h w b hi)

@[simp] theorem FusWork.assign_wf_iff (w : FusWork) (i src stamp : Nat) (px pp world : List Nat) (det : List Byte) :
    (w.assign i src stamp px pp world det).s.Wf ↔ w.s.Wf := by
  simp [FusWork.assign]

@[simp] theorem FusWork.birth_wf_iff (w : FusWork) (src stamp : Nat) (world : List Nat) (det : List Byte) :
    (w.birth src stamp world det).s.Wf ↔ w.s.Wf := by
  unfold FusWork.birth
  split <;> simp

@[simp] theorem FusWork.detect_wf_iff (w : FusWork) (src : Nat) (rcd list : List Byte) : (w.detect src rcd list).s.Wf ↔ w.s.Wf := by
  unfold FusWork.detect
  extract_lets +onlyGivenNames s b x stamp n
  split
  · rfl
  · extract_lets dets body worlds fed pred gate gated r oos s1 s2 w1 targets w2 hitIdx w3 lost w4 x4
    have h1 : w1.s.Wf ↔ w.s.Wf := by
      change s2.Wf ↔ w.s.Wf
      unfold s2 s1
      split <;> split <;> simp [s]
    have h2 : w2.s.Wf ↔ w1.s.Wf := by
      refine foldl_work_wf_iff (fun w d => ?_) _ _
      split
      · rfl
      · exact foldl_work_wf_iff (fun w i => w.assign_wf_iff _ _ _ _ _ _ _) _ _
    have h3 : w3.s.Wf ↔ w2.s.Wf := by
      refine foldl_work_wf_iff (fun w e => ?_) _ _
      split <;> simp
    have h4 : w4.s.Wf ↔ w3.s.Wf := foldl_work_wf_iff (fun w d => w.birth_wf_iff _ _ _ _) _ _
    calc _ ↔ w4.s.Wf := by simp
      _ ↔ w.s.Wf := by rw [h4, h3, h2, h1]

@[simp] theorem FusWork.fork_wf (w : FusWork) (tick i a b : Nat) (hi : w.s.Wf) : (w.fork tick i a b).s.Wf := by
  unfold FusWork.fork
  split <;> simp [hi]

@[simp] theorem FusWork.mutual_wf (w : FusWork) (tick i : Nat) (hi : w.s.Wf) : (w.mutual tick i).s.Wf := by
  unfold FusWork.mutual
  extract_lets +onlyGivenNames t b mine
  split
  · exact hi
  · extract_lets +onlyGivenNames pairs fails worst
    clear_value worst
    split
    · extract_lets +onlyGivenNames n w1
      split <;> simp [w1, hi]
    · split <;> simp [hi]

@[simp] theorem FusWork.delete_wf_iff (w : FusWork) (i : Nat) : (w.delete i).s.Wf ↔ w.s.Wf := Iff.rfl

@[simp] theorem FusWork.resolve_wf (w : FusWork) (tick i other : Nat) (hi : w.s.Wf) :
    (w.resolve tick i other).s.Wf := by
  simp [FusWork.resolve, hi]

@[simp] theorem FusWork.deleteAll_wf (w : FusWork) (tick : Nat) (l : List Nat) (hi : w.s.Wf) :
    (w.deleteAll tick l).s.Wf := by
  refine foldl_work_wf (fun w e h => ?_) _ _ (foldl_work_wf (fun w i h => by simpa using h) l w hi)
  split
  · exact h
  · split <;> simp [h]

@[simp] theorem FusWork.trackErrs_wf (tick n : Nat) : ∀ w : FusWork, w.s.Wf → (w.trackErrs tick n).s.Wf := by
  induction n with
  | zero => exact fun w hi => hi
  | succ n ih =>
    intro w hi
    rw [FusWork.trackErrs]
    split
    · exact hi
    · next e =>
      have h1 := State.localErr_wf e hi
      split
      · exact ih _ h1
      · exact ih _ (by simp [h1])

@[simp] theorem State.showSlip_wf_iff (s : State) : s.showSlip.Wf ↔ s.Wf := by simp [State.showSlip]

@[simp] theorem State.slipChange_wf (s : State) (tick i j : Nat) (on : Bool) (hi : s.Wf) : (s.slipChange tick i j on).Wf := by
  simp [State.slipChange, hi]

@[simp] theorem State.slipTest_wf (s : State) (tick : Nat) (hi : s.Wf) : (s.slipTest tick).Wf := by simp +contextual [State.slipTest, hi]

end Sys2Proof.Machine
end

section
/-! ## What the operations keep: RingFrame -/

namespace Sys2Proof.Machine

variable {P : State → Prop}

@[simp] theorem State.setRegByte_wf_iff (s : State) (page a : Nat) (b : Byte) : (s.setRegByte page a b).Wf ↔ s.Wf := by
  simp [State.setRegByte]

@[simp] theorem State.imgWrite_wf_iff (s : State) (base off : Nat) (data : List Byte) : (s.imgWrite base off data).Wf ↔ s.Wf := by
  simp [State.imgWrite]

end Sys2Proof.Machine
end

section
/-! ## What the operations keep: Tempo -/

namespace Sys2Proof.Machine

variable {P : State → Prop}

@[simp] theorem State.setLoop_sat_iff (hP : Frame P) (s : State) (l : Nat) (x : Loop) : (s.setLoop l x).Sat P ↔ s.Sat P := by
  simp [State.setLoop, hP]

@[simp] theorem State.setLoopSt_wf_iff (s : State) (l st : Nat) : (s.setLoopSt l st).Wf ↔ s.Wf := by simp [State.setLoopSt]

@[simp] theorem State.tempoIrq_sat_iff (hP : Frame P) (s : State) (i : Nat) : (s.tempoIrq i).Sat P ↔ s.Sat P := by simp [State.tempoIrq, hP]

/-- The registers of a Tempo loop are none of the Arbiter's. -/
theorem farReg_loop (off : Nat) (ho : off < 0x140) {l : Nat} (hl : l < 4) : farReg 0x09 (off + 0x40 * l) = true := by
  simp only [farReg, arbReg, Bool.and_eq_true, Bool.or_eq_true, decide_eq_true_eq]
  refine ⟨by omega, .inl ⟨by decide, rfl⟩⟩

theorem State.selectSafe_sat_iff (hP : Frame P) (s : State) {l : Nat} (cause : Nat) (hl : l < 4) :
    (s.selectSafe l cause).Sat P ↔ s.Sat P := by
  unfold State.selectSafe
  extract_lets x already
  split
  · rfl
  · rw [State.tempoIrq_sat_iff hP, State.setF_sat_iff hP _ _ _ _ (farReg_loop _ (by decide) hl), State.setLoop_sat_iff hP]

@[simp] theorem State.selectSafe_wf_iff (s : State) (l cause : Nat) : (s.selectSafe l cause).Wf ↔ s.Wf := by
  unfold State.selectSafe
  extract_lets x already
  split <;> simp

theorem State.endInj_sat_iff (hP : Frame P) (s : State) {l : Nat} (hl : l < 4) : (s.endInj l).Sat P ↔ s.Sat P := by
  unfold State.endInj
  rw [State.setFlag_sat_iff hP _ _ _ _ (farReg_loop _ (by decide) hl), State.setLoop_sat_iff hP]

@[simp] theorem State.endInj_wf_iff (s : State) (l : Nat) : (s.endInj l).Wf ↔ s.Wf := by simp [State.endInj]

@[simp] theorem State.flipBank_wf_iff (s : State) (l : Nat) : (s.flipBank l).Wf ↔ s.Wf := by
  unfold State.flipBank
  split <;> simp

@[simp] theorem State.actNow_wf_iff (s : State) (l : Nat) (f : State → Nat → State) (h : ∀ s l, (f s l).Wf ↔ s.Wf) :
    (s.actNow l f).Wf ↔ s.Wf := by
  simp [State.actNow, h]

@[simp] theorem State.reselectSafe_wf_iff (s : State) (l : Nat) : (s.reselectSafe l).Wf ↔ s.Wf := by
  unfold State.reselectSafe
  split <;> simp

@[simp] theorem State.tempoFreeze_sat_iff (hP : Frame P) (s : State) (cause : Nat) : (s.tempoFreeze cause).Sat P ↔ s.Sat P := by
  have h1 (s : State) (l : Nat) (hl : l ∈ List.range 4) : ((if !s.loopActive l then s
      else if cause = 6 then ((s.setLoop l { s.loop l with frozen := true }).selectSafe l cause).endInj l
        else (s.setLoop l { s.loop l with frozen := true }).selectSafe l cause).Sat P ↔ s.Sat P) := by
    have h4 := List.mem_range.mp hl
    split
    · rfl
    · split <;> simp [State.endInj_sat_iff hP _ h4, State.selectSafe_sat_iff hP _ cause h4, hP]
  unfold State.tempoFreeze
  extract_lets s1
  have h2 : s1.Sat P ↔ s.Sat P := foldl_sat_iff_mem h1 s
  split
  · simp [Fld.TMP_CAP_CFG_RUN, hP, h2]
  · exact h2

@[simp] theorem State.tempoThaw_sat_iff (hP : Frame P) (s : State) : s.tempoThaw.Sat P ↔ s.Sat P := by simp [State.tempoThaw, hP]

@[simp] theorem State.setOutSet_wf_iff (s : State) (l : Nat) (o : OutSet) : (s.setOutSet l o).Wf ↔ s.Wf := by simp [State.setOutSet]

@[simp] theorem State.mailboxAccept_wf_iff (s : State) (l : Nat) (ws : List (Nat × Word)) : (s.mailboxAccept l ws).Wf ↔ s.Wf := by
  simp [State.mailboxAccept]

@[simp] theorem State.mailboxStore_wf_iff (s : State) (fn off : Nat) (data : List Byte) : (s.mailboxStore fn off data).Wf ↔ s.Wf := by
  simp [State.mailboxStore]

@[simp] theorem execTempoMailboxStore_wf (fn off : Nat) (data : List Byte) (s : State) (hi : s.Wf) :
    Out.Wf (execTempoMailboxStore fn off data s) := by simp [execTempoMailboxStore, hi]

@[simp] theorem execTempoMailboxCommit_wf (fn v : Nat) (s : State) (hi : s.Wf) : Out.Wf (execTempoMailboxCommit fn v s) := by
  refine Out.wf_next (s.gated_wf _ _ _ _ hi ?_)
  split
  · simp [hi]
  split
  · simp [hi]
  · refine foldl_sat (fun s l h => ?_) _ _ hi
    dsimp only
    split
    · exact h
    · exact (State.mailboxAccept_wf_iff _ _ _).mpr ((State.setLoop_sat_iff memWf_frame _ _ _).mpr h)

@[simp] theorem execTempoMbxStale_wf (loop : Nat) (s : State) (hi : s.Wf) : Out.Wf (execTempoMbxStale loop s) := by
  simp [execTempoMbxStale, hi]

@[simp] theorem execTempoMissmax_wf (loop : Nat) (s : State) (hi : s.Wf) : Out.Wf (execTempoMissmax loop s) := by
  simp [execTempoMissmax, hi]

@[simp] theorem State.freeWordsOf_wf_iff (s : State) (b : List Byte) : (s.freeWordsOf b).Wf ↔ s.Wf := by simp [State.freeWordsOf]

@[simp] theorem State.swapImages_wf_iff (s : State) (l : Nat) : (s.swapImages l).Wf ↔ s.Wf := by
  unfold State.swapImages
  dsimp only
  repeat' split
  all_goals simp

@[simp] theorem execTempoSampleInstant_wf (loop : Nat) (s : State) (hi : s.Wf) : Out.Wf (execTempoSampleInstant loop s) := by
  refine Out.wf_next ?_
  split <;> simp [hi]

@[simp] theorem State.capture_wf (s : State) (l : Nat) (hi : s.Wf) : (s.capture l).Wf := by
  have hw := State.vaWrite_sat memWf_frame
  obtain ⟨f, ef⟩ : ∃ f, State.vaWrite = f := ⟨_, rfl⟩
  rw [State.capture]
  rw [ef] at hw ⊢
  split
  · exact hi
  split
  · exact hi
  dsimp only
  split
  · next e => exact FstSat.of_eq (hw _ _ _ _ _ hi) e
  · next e =>
    have h1 := FstSat.of_eq (hw _ _ _ _ _ hi) e
    split <;> simp [h1]

@[simp] theorem State.detect_wf_iff (s : State) (l : Nat) (u : List Int) : (s.detect l u).Wf ↔ s.Wf := by
  unfold State.detect
  dsimp only
  repeat' split
  all_goals simp

@[simp] theorem State.tempoCompute_wf (s : State) (l c : Nat) (back : Bool) (hi : s.Wf) : (s.tempoCompute l c back).Wf := by
  simp [State.tempoCompute, hi]

@[simp] theorem State.stopLoop_wf_iff (s : State) (l : Nat) : (s.stopLoop l).Wf ↔ s.Wf := by simp [State.stopLoop]

@[simp] theorem State.loopErr_wf (s : State) (l : Nat) (hi : s.Wf) : (s.loopErr l).Wf := by
  unfold State.loopErr
  split
  · next e => simp [State.localErr_wf e hi]
  · next e => simp [State.localErr_wf e hi]
  · exact hi

@[simp] theorem execTempoCompute_wf (loop : Nat) (s : State) (hi : s.Wf) : Out.Wf (execTempoCompute loop s) := by
  refine Out.wf_next ?_
  dsimp only
  repeat' split
  all_goals simp [hi]

@[simp] theorem execTempoRttExpiry_wf (loop : Nat) (s : State) (hi : s.Wf) : Out.Wf (execTempoRttExpiry loop s) := by
  refine Out.wf_next ?_
  dsimp only
  repeat' split
  all_goals simp [hi]

@[simp] theorem execTempoOverrun_wf (loop : Nat) (s : State) (hi : s.Wf) : Out.Wf (execTempoOverrun loop s) := by
  refine Out.wf_next ?_
  dsimp only
  repeat' split
  all_goals simp [hi]

@[simp] theorem State.tempoCmd_wf_iff (s : State) (fn v op : Nat) (f : State × Status) (h : FstWf f ↔ s.Wf) :
    (s.tempoCmd fn v op f).Wf ↔ s.Wf := s.pageCmd_wf_iff _ _ _ _ _ _ _ _ _ _ _ (by split <;> simp [h])

@[simp] theorem State.tempoCmd_wf (s : State) (fn v op : Nat) (f : State × Status) (hi : s.Wf)
    (hf : FstWf f) : (s.tempoCmd fn v op f).Wf :=
  s.pageCmd_wf _ _ _ _ _ _ _ _ _ _ _ hi (by
    split
    · exact hf
    · exact hi)

@[simp] theorem State.readImage_wf (s : State) (fn va : Nat) (hi : s.Wf) : FstWf (s.readImage fn va) := by
  have hr := State.vaRead_sat memWf_frame
  unfold State.readImage
  split
  · next e => exact FstSat.of_eq (hr _ _ _ _ _ hi) e
  · next e =>
    have h1 := FstSat.of_eq (hr _ _ _ _ _ hi) e
    dsimp only
    split
    · exact h1
    · split
      · next e2 => exact FstSat.of_eq (hr _ _ _ _ _ h1) e2
      · next e2 => exact FstSat.of_eq (hr _ _ _ _ _ h1) e2

@[simp] theorem State.putImage_wf_iff (s : State) (l : Nat) (b : List Byte) : (s.putImage l b).Wf ↔ s.Wf := by simp [State.putImage]

@[simp] theorem State.tempoLoad_wf (s : State) (fn l : Nat) (hi : s.Wf) : FstWf (s.tempoLoad fn l) := by
  have hr := State.readImage_wf
  unfold State.tempoLoad
  split
  · next e => exact FstSat.of_eq (hr _ _ _ hi) e
  · next e =>
    have h1 := FstSat.of_eq (hr _ _ _ hi) e
    extract_lets h x other
    split
    · exact h1
    split
    · exact h1
    split
    · exact h1
    split
    · exact h1
    · simp [h1]

@[simp] theorem execTempoLoad_wf (fn v : Nat) (s : State) (hi : s.Wf) : Out.Wf (execTempoLoad fn v s) := by simp [execTempoLoad, hi]

@[simp] theorem State.tempoStart_wf_iff (s : State) (l : Nat) : FstWf (s.tempoStart l) ↔ s.Wf := by simp [State.tempoStart]

@[simp] theorem execTempoStart_wf (fn v : Nat) (s : State) (hi : s.Wf) : Out.Wf (execTempoStart fn v s) := by simp [execTempoStart, hi]

@[simp] theorem execTempoStop_wf (fn v : Nat) (s : State) (hi : s.Wf) : Out.Wf (execTempoStop fn v s) := by simp [execTempoStop, hi]

@[simp] theorem execTempoSelectPrimary_wf (fn v : Nat) (s : State) (hi : s.Wf) : Out.Wf (execTempoSelectPrimary fn v s) := by
  simp [execTempoSelectPrimary, hi]

@[simp] theorem execTempoSelectSafe_wf (fn v : Nat) (s : State) (hi : s.Wf) : Out.Wf (execTempoSelectSafe fn v s) := by
  simp [execTempoSelectSafe, hi]

@[simp] theorem State.capStart_wf_iff (s : State) (fn : Nat) : FstWf (s.capStart fn) ↔ s.Wf := by
  unfold State.capStart
  dsimp only
  repeat' split
  all_goals simp

@[simp] theorem State.tempoInject_wf (s : State) (fn l : Nat) (hi : s.Wf) : FstWf (s.tempoInject fn l) := by
  have hr := State.vaRead_sat memWf_frame
  have hs : ∀ s bank fld b, (State.setFlag s bank fld b).Wf ↔ s.Wf := by simp
  rw [State.tempoInject]
  split
  · exact hi
  split
  · next e => exact FstSat.of_eq (hr _ _ _ _ _ hi) e
  · next s1 b e =>
    have h1 := FstSat.of_eq (hr _ _ _ _ _ hi) e
    extract_lets i r
    have h2 : FstWf r := by
      unfold r
      split
      · exact hr _ _ _ _ _ h1
      · exact h1
    clear_value r
    split
    · exact h1
    split
    · exact h2
    · next _ s2 tb =>
      have h3 : s2.Wf := h2
      extract_lets s3
      have h4 : s3.Wf := by simp [s3, hs, h3]
      split
      · simp [h4]
      · exact h4

@[simp] theorem execTempoInject_wf (fn v : Nat) (s : State) (hi : s.Wf) : Out.Wf (execTempoInject fn v s) := by simp [execTempoInject, hi]

@[simp] theorem execTempoInjstop_wf (fn v : Nat) (s : State) (hi : s.Wf) : Out.Wf (execTempoInjstop fn v s) := by
  simp [execTempoInjstop, hi]

@[simp] theorem execTempoInjectionEnd_wf (loop : Nat) (s : State) (hi : s.Wf) : Out.Wf (execTempoInjectionEnd loop s) := by
  refine Out.wf_next ?_
  split <;> simp [hi]

@[simp] theorem execTempoCapstart_wf (fn v : Nat) (s : State) (hi : s.Wf) : Out.Wf (execTempoCapstart fn v s) := by
  simp [execTempoCapstart, hi]

@[simp] theorem execTempoCapstop_wf (fn v : Nat) (s : State) (hi : s.Wf) : Out.Wf (execTempoCapstop fn v s) := by
  simp [execTempoCapstop, hi]

@[simp] theorem State.unloadLoop_wf_iff (s : State) (l : Nat) : (s.unloadLoop l).Wf ↔ s.Wf := by simp [State.unloadLoop]

@[simp] theorem execTempoUnload_wf (fn v : Nat) (s : State) (hi : s.Wf) : Out.Wf (execTempoUnload fn v s) := by simp [execTempoUnload, hi]

@[simp] theorem execTempoCheckerMismatch_wf (loop : Nat) (again : Bool) (s : State) (hi : s.Wf) :
    Out.Wf (execTempoCheckerMismatch loop again s) := by simp [execTempoCheckerMismatch, hi]

@[simp] theorem State.tempoClear_wf_iff (s : State) : s.tempoClear.Wf ↔ s.Wf := by simp [State.tempoClear]

@[simp] theorem State.tempoHalt_wf_iff (s : State) : s.tempoHalt.Wf ↔ s.Wf := by simp [State.tempoHalt]

@[simp] theorem execTempoThirdMismatch_wf (s : State) (hi : s.Wf) : Out.Wf (execTempoThirdMismatch s) := by
  simp [execTempoThirdMismatch, hi]

@[simp] theorem State.tempoCtl_wf_iff (s : State) (fn : Nat) (f : State) (h : f.Wf ↔ s.Wf) : (s.tempoCtl fn f).Wf ↔ s.Wf :=
  s.ctlWrite_wf_iff fn 0x09 _ _ f h

@[simp] theorem execTempoEnable_wf (fn : Nat) (on : Bool) (s : State) (hi : s.Wf) : Out.Wf (execTempoEnable fn on s) := by
  simp [execTempoEnable, hi]

@[simp] theorem execTempoQuiesce_wf (fn : Nat) (s : State) (hi : s.Wf) : Out.Wf (execTempoQuiesce fn s) := by simp [execTempoQuiesce, hi]

@[simp] theorem execTempoReset_wf (fn : Nat) (s : State) (hi : s.Wf) : Out.Wf (execTempoReset fn s) := by simp [execTempoReset, hi]

@[simp] theorem execTempoStartDone_wf (s : State) (hi : s.Wf) : Out.Wf (execTempoStartDone s) := by simp [execTempoStartDone, hi]

@[simp] theorem execTempoStopDone_wf (s : State) (hi : s.Wf) : Out.Wf (execTempoStopDone s) := by simp [execTempoStopDone, hi]

end Sys2Proof.Machine
end

section
/-! ## What the operations keep: Ring -/

namespace Sys2Proof.Machine

variable {P : State → Prop}

@[simp] theorem State.ringIrq_wf_iff (s : State) (i : Nat) : (s.ringIrq i).Wf ↔ s.Wf := by simp [State.ringIrq]

@[simp] theorem State.showLoops_wf_iff (s : State) : s.showLoops.Wf ↔ s.Wf := by simp [State.showLoops]

@[simp] theorem execRingLinkDown_wf (port : Nat) (s : State) (hi : s.Wf) : Out.Wf (execRingLinkDown port s) := by
  simp [execRingLinkDown, hi]

@[simp] theorem State.ringUp_wf_iff (s : State) (port : Nat) : (s.ringUp port).Wf ↔ s.Wf := by simp [State.ringUp]

@[simp] theorem execRingLinkUpSettled_wf (port : Nat) (s : State) (hi : s.Wf) : Out.Wf (execRingLinkUpSettled port s) := by
  simp [execRingLinkUpSettled, hi]

@[simp] theorem State.txWrite_wf_iff (s : State) (off : Nat) (data : List Byte) : (s.txWrite off data).Wf ↔ s.Wf := by simp [State.txWrite]

@[simp] theorem State.takeTemplate_wf_iff (s : State) (c : Nat) : (s.takeTemplate c).Wf ↔ s.Wf := by
  unfold State.takeTemplate
  split <;> simp

@[simp] theorem State.showOpen_wf_iff (s : State) (t : Tmpl) (dgs : List Dg) (c0 : RingCopy) : (s.showOpen t dgs c0).Wf ↔ s.Wf := by
  unfold State.showOpen
  split
  · extract_lets brk s1
    split <;> simp [s1]
  · split <;> simp
  · rfl

@[simp] theorem State.ringMerge_wf_iff (s : State) : s.ringMerge.Wf ↔ s.Wf := by
  unfold State.ringMerge
  split <;> simp

@[simp] theorem State.mergeIfDone_wf_iff (s : State) : s.mergeIfDone.Wf ↔ s.Wf := by
  unfold State.mergeIfDone
  split <;> simp

@[simp] theorem State.cyclicLaunch_wf_iff (s : State) : s.cyclicLaunch.Wf ↔ s.Wf := by
  unfold State.cyclicLaunch
  dsimp only
  repeat' split
  all_goals simp

@[simp] theorem execRingCyclicLaunch_wf (s : State) (hi : s.Wf) : Out.Wf (execRingCyclicLaunch s) := by
  refine Out.wf_next ?_
  split <;> simp [hi]

@[simp] theorem State.setCopy_wf_iff (s : State) (fl : RingFlight) (redundant : Bool) (c : RingCopy) :
    (s.setCopy fl redundant c).Wf ↔ s.Wf := by simp [State.setCopy]

@[simp] theorem State.mergeIfLate_wf_iff (s : State) : s.mergeIfLate.Wf ↔ s.Wf := by
  unfold State.mergeIfLate
  split <;> simp

@[simp] theorem State.copyBack_wf_iff (s : State) (port : Nat) (good : Bool) (frame : List Byte) :
    (s.copyBack port good frame).Wf ↔ s.Wf := by
  unfold State.copyBack
  split <;> simp

@[simp] theorem execRingCopyReturn_wf (port : Nat) (good : Bool) (frame : List Byte) (s : State) (hi : s.Wf) :
    Out.Wf (execRingCopyReturn port good frame s) := by simp [execRingCopyReturn, hi]

@[simp] theorem execRingMergeDeadline_wf (s : State) (hi : s.Wf) : Out.Wf (execRingMergeDeadline s) := by simp [execRingMergeDeadline, hi]

@[simp] theorem State.nodeCommit_wf_iff (s : State) (f : List Byte) (dgs : List Dg) : (s.nodeCommit f dgs).Wf ↔ s.Wf := by
  unfold State.nodeCommit
  dsimp only
  repeat' split
  all_goals simp

@[simp] theorem State.ringSend_wf_iff (s : State) (port : Nat) (f : List Byte) : (s.ringSend port f).Wf ↔ s.Wf := by simp [State.ringSend]

@[simp] theorem execRingNodeFrame_wf (inPort : Nat) (good : Bool) (frame : List Byte) (s : State) (hi : s.Wf) :
    Out.Wf (execRingNodeFrame inPort good frame s) := by simp [execRingNodeFrame, hi]

@[simp] theorem execRingModeWrite_wf (fn v : Nat) (s : State) (hi : s.Wf) : Out.Wf (execRingModeWrite fn v s) := by
  simp [execRingModeWrite, hi]

@[simp] theorem State.readTmpl_wf (s : State) (fn va : Nat) (hi : s.Wf) : FstWf (s.readTmpl fn va) := by
  have hr := State.vaRead_sat memWf_frame
  unfold State.readTmpl
  split
  · next e => exact FstSat.of_eq (hr _ _ _ _ _ hi) e
  · next e =>
    have h1 := FstSat.of_eq (hr _ _ _ _ _ hi) e
    split
    · exact h1
    · split
      · next e2 => exact FstSat.of_eq (hr _ _ _ _ _ h1) e2
      · next e2 => exact FstSat.of_eq (hr _ _ _ _ _ h1) e2

@[simp] theorem State.ringCmd_wf_iff (s : State) (fn v op : Nat) (f : State × Status) (h : FstWf f ↔ s.Wf) :
    (s.ringCmd fn v op f).Wf ↔ s.Wf := s.pageCmd_wf_iff _ _ _ _ _ _ _ _ _ _ f h

@[simp] theorem State.ringCmd_wf (s : State) (fn v op : Nat) (f : State × Status) (hi : s.Wf)
    (hf : FstWf f) : (s.ringCmd fn v op f).Wf := s.pageCmd_wf _ _ _ _ _ _ _ _ _ _ f hi hf

@[simp] theorem execRingLoad_wf (fn v : Nat) (s : State) (hi : s.Wf) : Out.Wf (execRingLoad fn v s) := by
  refine Out.wf_next (State.ringCmd_wf _ _ _ _ _ hi ?_)
  have ht := s.readTmpl_wf fn s.ringVa hi
  split
  · exact hi
  split
  · next e => exact FstSat.of_eq ht e
  · next e =>
    have h1 := FstSat.of_eq ht e
    exact h1

@[simp] theorem execRingAcyc_wf (fn v : Nat) (s : State) (hi : s.Wf) : Out.Wf (execRingAcyc fn v s) := by
  have ht := s.readTmpl_wf fn s.ringVa hi
  refine Out.wf_next ?_
  split
  · exact hi
  refine State.gated_wf _ _ _ _ _ hi ?_
  extract_lets +onlyGivenNames done
  have hd (s : State) (st : Status) (h : s.Wf) : (done s st).Wf := by simp [done, h]
  clear_value done
  split
  · simp [hi]
  split
  · exact hi
  split
  · exact hd _ _ hi
  split
  · exact hd _ _ hi
  split
  · next e => exact hd _ _ (FstSat.of_eq ht e)
  · next e =>
    have h1 := FstSat.of_eq ht e
    dsimp only
    split <;> simp [h1]

@[simp] theorem execRingAcycReturn_wf (ret : Option (List Byte)) (s : State) (hi : s.Wf) :
    Out.Wf (execRingAcycReturn ret s) := by
  refine Out.wf_next ?_
  split
  · extract_lets +onlyGivenNames r s0 done
    have hd (s : State) (st : Status) (h : s.Wf) : (done s st).Wf := by simp [done, h]
    have h0 : s0.Wf := hi
    clear_value s0 done
    split
    · split
      · exact hd _ _ h0
      · exact hi
    split
    · exact hi
    split
    · next e => exact hd _ _ (FstSat.of_eq (State.vaWrite_sat memWf_frame _ _ _ _ _ h0) e)
    · next e => exact hd _ _ (FstSat.of_eq (State.vaWrite_sat memWf_frame _ _ _ _ _ h0) e)
  · exact hi

@[simp] theorem State.ringCtl_wf_iff (s : State) (fn : Nat) (f : State) (h : f.Wf ↔ s.Wf) : (s.ringCtl fn f).Wf ↔ s.Wf :=
  s.ctlWrite_wf_iff fn 0x0A _ _ f h

@[simp] theorem State.ringDark_wf_iff (s : State) : s.ringDark.Wf ↔ s.Wf := by simp [State.ringDark]

@[simp] theorem execRingEnable_wf (fn : Nat) (on : Bool) (s : State) (hi : s.Wf) : Out.Wf (execRingEnable fn on s) := by
  simp [execRingEnable, hi]

@[simp] theorem execRingQuiesce_wf (fn : Nat) (s : State) (hi : s.Wf) : Out.Wf (execRingQuiesce fn s) := by simp [execRingQuiesce, hi]

@[simp] theorem execRingStartDone_wf (s : State) (hi : s.Wf) : Out.Wf (execRingStartDone s) := by simp [execRingStartDone, hi]

@[simp] theorem execRingStopDone_wf (s : State) (hi : s.Wf) : Out.Wf (execRingStopDone s) := by simp [execRingStopDone, hi]

end Sys2Proof.Machine
end

section
/-! ## What the operations keep: Time -/

namespace Sys2Proof.Machine

variable {P : State → Prop}

@[simp] theorem State.timeIrq_wf_iff (s : State) (i : Nat) : (s.timeIrq i).Wf ↔ s.Wf := by simp [State.timeIrq]

@[simp] theorem State.setTimeSrc_wf_iff (s : State) (k : Nat) (x : TimeSrc) : (s.setTimeSrc k x).Wf ↔ s.Wf := by simp [State.setTimeSrc]

@[simp] theorem State.showSource_wf_iff (s : State) (k : Nat) : (s.showSource k).Wf ↔ s.Wf := by simp [State.showSource]

@[simp] theorem State.showSources_wf_iff (s : State) : s.showSources.Wf ↔ s.Wf := by simp [State.showSources]

@[simp] theorem State.setSource_wf_iff (s : State) (src st : Nat) : (s.setSource src st).Wf ↔ s.Wf := by simp [State.setSource]

@[simp] theorem State.setTrigger_wf_iff (s : State) (n : Nat) (x : Trigger) : (s.setTrigger n x).Wf ↔ s.Wf := by simp [State.setTrigger]

@[simp] theorem State.missTrigger_wf_iff (s : State) (n k : Nat) : (s.missTrigger n k).Wf ↔ s.Wf := by simp [State.missTrigger]

@[simp] theorem State.armTrigger_wf_iff (s : State) (n : Nat) : (s.armTrigger n).Wf ↔ s.Wf := by simp [State.armTrigger]

@[simp] theorem State.stepTrigger_wf_iff (s : State) (n : Nat) : (s.stepTrigger n).Wf ↔ s.Wf := by
  unfold State.stepTrigger
  dsimp only
  repeat' split
  all_goals simp

@[simp] theorem State.stepTime_wf_iff (s : State) (d : Int) : (s.stepTime d).Wf ↔ s.Wf := by simp [State.stepTime]

@[simp] theorem State.selectSource_wf_iff (s : State) (k : Nat) : (s.selectSource k).Wf ↔ s.Wf := by simp [State.selectSource]

@[simp] theorem execTimebaseTick_wf (s : State) (hi : s.Wf) : Out.Wf (execTimebaseTick s) := by simp [execTimebaseTick, hi]

@[simp] theorem execTmbTimeLoRead_wf (_fn : Nat) (s : State) (hi : s.Wf) : Out.Wf (execTmbTimeLoRead _fn s) := by
  simp [execTmbTimeLoRead, hi]

@[simp] theorem execTimebaseStep_wf (fn v : Nat) (s : State) (hi : s.Wf) : Out.Wf (execTimebaseStep fn v s) := by
  simp [execTimebaseStep, hi]

@[simp] theorem State.servo_wf_iff (s : State) : s.servo.Wf ↔ s.Wf := by simp [State.servo]

@[simp] theorem State.compareSources_wf_iff (s : State) : s.compareSources.Wf ↔ s.Wf := by simp [State.compareSources]

@[simp] theorem State.followSource_wf_iff (s : State) (ofs : Int) : (s.followSource ofs).Wf ↔ s.Wf := by simp [State.followSource]

@[simp] theorem execTimebaseOffset_wf (src : Nat) (ofs : Int) (s : State) (hi : s.Wf) : Out.Wf (execTimebaseOffset src ofs s) := by
  simp [execTimebaseOffset, hi]

@[simp] theorem execTimebaseSourceQualified_wf (src : Nat) (s : State) (hi : s.Wf) : Out.Wf (execTimebaseSourceQualified src s) := by
  simp [execTimebaseSourceQualified, hi]

@[simp] theorem execTimebaseSourceLost_wf (s : State) (hi : s.Wf) : Out.Wf (execTimebaseSourceLost s) := by
  simp [execTimebaseSourceLost, hi]

@[simp] theorem execTriggerFire_wf (trg : Nat) (s : State) (hi : s.Wf) : Out.Wf (execTriggerFire trg s) := by
  refine Out.wf_next ?_
  dsimp only
  repeat' split
  all_goals simp [hi]

@[simp] theorem State.setCapQueue_wf_iff (s : State) (n : Nat) (q : List (Nat × Bool)) : (s.setCapQueue n q).Wf ↔ s.Wf := by
  simp [State.setCapQueue]

@[simp] theorem execCaptureEdge_wf (cap : Nat) (rise : Bool) (s : State) (hi : s.Wf) : Out.Wf (execCaptureEdge cap rise s) := by
  simp [execCaptureEdge, hi]

@[simp] theorem execTmbCapLoRead_wf (fn cap : Nat) (s : State) (hi : s.Wf) : Out.Wf (execTmbCapLoRead fn cap s) := by
  refine Out.wf_next ?_
  split <;> simp [hi]

end Sys2Proof.Machine
end

section
/-! ## What the operations keep: Fusion -/

namespace Sys2Proof.Machine

variable {P : State → Prop}

@[simp] theorem State.fusTail_wf_iff (s : State) (n v time : Nat) : (s.fusTail n v time).Wf ↔ s.Wf := by simp [State.fusTail]

@[simp] theorem execFusTailWrite_wf (fn src v : Nat) (s : State) (hi : s.Wf) : Out.Wf (execFusTailWrite fn src v s) := by
  simp [execFusTailWrite, hi]

@[simp] theorem execFusionSrcPbLoad_wf (fn v : Nat) (s : State) (hi : s.Wf) : Out.Wf (execFusionSrcPbLoad fn v s) := by
  refine Out.wf_next ?_
  dsimp only
  repeat' split
  all_goals simp [hi]

@[simp] theorem execFusionPbLoad_wf (fn v : Nat) (s : State) (hi : s.Wf) : Out.Wf (execFusionPbLoad fn v s) := by
  refine Out.wf_next ?_
  dsimp only
  repeat' split
  all_goals simp [hi]

@[simp] theorem State.fusPoll_wf_iff (s : State) (n tick : Nat) : (s.fusPoll n tick).Wf ↔ s.Wf := by
  unfold State.fusPoll
  repeat' split
  all_goals simp

@[simp] theorem State.fusLatest_wf_iff (s : State) (tick n : Nat) : FstWf (s.fusLatest tick n) ↔ s.Wf := by
  obtain ⟨read, er⟩ : ∃ f, State.engRead = f := ⟨_, rfl⟩
  obtain ⟨bytes, eb⟩ : ∃ f, State.vaBytes = f := ⟨_, rfl⟩
  rw [State.fusLatest, er, eb]
  split
  · rfl
  dsimp only
  repeat' split
  all_goals simp

@[simp] theorem State.fusTake_wf_iff (s : State) (tick : Nat) : FstWf (s.fusTake tick) ↔ s.Wf := by
  refine foldl_fstSat_iff (fun a n => ?_) _ _
  have h := a.1.fusLatest_wf_iff tick n
  dsimp only
  split <;> exact h

@[simp] theorem State.calWriteProblem_wf (s : State) (fn src : Nat) (rs : List (List Nat)) (hi : s.Wf) :
    (s.calWriteProblem fn src rs).Wf := by
  have hw := State.vaWrite_sat memWf_frame
  have e : State.calWriteProblem = State.calWriteProblem := rfl
  conv at e => rhs; delta State.calWriteProblem
  rw [e]
  exact hw _ _ _ _ _ (hw _ _ _ _ _ (hw _ _ _ _ _ (hw _ _ _ _ _ hi)))

@[simp] theorem State.calBatch_wf (s : State) (fn src : Nat) (hi : s.Wf) : FstWf (s.calBatch fn src) := by
  have hw := State.calWriteProblem_wf
  obtain ⟨f, ef⟩ : ∃ f, State.calWriteProblem = f := ⟨_, rfl⟩
  rw [State.calBatch]
  rw [ef] at hw ⊢
  split
  · exact hi
  split
  · exact hi
  · exact hw _ _ _ _ hi

@[simp] theorem FusWork.command_wf (w : FusWork) (tick fn v : Nat) (hi : w.s.Wf) :
    (w.command tick fn v).1.s.Wf := by
  have hw := State.vaWrite_sat memWf_frame
  obtain ⟨write, ew⟩ : ∃ f, State.vaWrite = f := ⟨_, rfl⟩
  have hc := State.calBatch_wf
  obtain ⟨batch, ec⟩ : ∃ f, State.calBatch = f := ⟨_, rfl⟩
  obtain ⟨read, er⟩ : ∃ f, State.engRead = f := ⟨_, rfl⟩
  unfold FusWork.command
  rw [ew] at hw ⊢
  rw [ec] at hc ⊢
  rw [er]
  extract_lets +onlyGivenNames s i src t live va
  split
  · split
    · exact hi
    · split <;> simp [hi]
  · split <;> simp [hi]
  · exact foldl_sat (fun s p h => s.slipChange_wf _ _ _ _ h) _ _ hi
  · split
    · exact hi
    · exact hc _ _ _ hi
  · split
    · exact hi
    · exact hw _ _ _ _ _ hi
  · split
    · exact hi
    · split
      · exact hi
      · split
        · exact hi
        · simp [s, hi]
  · exact hi

@[simp] theorem State.fusCmd_wf_iff (s : State) (fn v op : Nat) : (s.fusCmd fn v op).Wf ↔ s.Wf := by simp [State.fusCmd]

@[simp] theorem execFusionResolve_wf (fn v : Nat) (s : State) (hi : s.Wf) : Out.Wf (execFusionResolve fn v s) := by
  simp [execFusionResolve, hi]

@[simp] theorem execFusionDroptrk_wf (fn v : Nat) (s : State) (hi : s.Wf) : Out.Wf (execFusionDroptrk fn v s) := by
  simp [execFusionDroptrk, hi]

@[simp] theorem execFusionRebase_wf (fn v : Nat) (s : State) (hi : s.Wf) : Out.Wf (execFusionRebase fn v s) := by
  simp [execFusionRebase, hi]

@[simp] theorem execFusionCalbatch_wf (fn v : Nat) (s : State) (hi : s.Wf) : Out.Wf (execFusionCalbatch fn v s) := by
  simp [execFusionCalbatch, hi]

@[simp] theorem execFusionCalread_wf (fn v : Nat) (s : State) (hi : s.Wf) : Out.Wf (execFusionCalread fn v s) := by
  simp [execFusionCalread, hi]

@[simp] theorem execFusionCalwrite_wf (fn v : Nat) (s : State) (hi : s.Wf) : Out.Wf (execFusionCalwrite fn v s) := by
  simp [execFusionCalwrite, hi]

@[simp] theorem FusWork.runCommand_wf (w : FusWork) (tick : Nat) (hi : w.s.Wf) : (w.runCommand tick).s.Wf := by
  have hc := FusWork.command_wf
  unfold FusWork.runCommand
  split
  · exact hi
  · simp [hc, hi]

@[simp] theorem FusWork.calibrate_wf (w : FusWork) (tick src : Nat) (hi : w.s.Wf) : (w.calibrate tick src).s.Wf := by
  unfold FusWork.calibrate
  extract_lets +onlyGivenNames x rs
  split
  · exact hi
  · split
    extract_lets +onlyGivenNames clamped ext s1 f l s2
    have h2 : s2.Wf := by simp [s2, s1, hi]
    dsimp only
    split <;> simp [h2]

@[simp] theorem State.calAdopt_wf (s : State) (tick : Nat) (hi : s.Wf) : (s.calAdopt tick).Wf := by
  unfold State.calAdopt
  split <;> simp [hi]

@[simp] theorem State.fusRecord_wf (s : State) (tick : Nat) (hi : s.Wf) : (s.fusRecord tick).Wf := by
  have hw := State.vaWrite_sat memWf_frame
  unfold State.fusRecord
  split
  · exact hi
  extract_lets fu fn va maxOut srcs trks noBody flags seq out body
  split
  · simp [hi]
  split
  · next e => simp [FstSat.of_eq (hw _ _ _ _ _ hi) e]
  · next e => simp [FstSat.of_eq (hw _ _ _ _ _ hi) e]

@[simp] theorem State.passStart_wf_iff (s : State) (news : List (Nat × List Byte × List Byte)) : (s.passStart news).Wf ↔ s.Wf := by
  simp [State.passStart]

@[simp] theorem State.counterErrs_wf (n : Nat) : ∀ s : State, s.Wf → (s.counterErrs n).Wf := by
  induction n with
  | zero => exact fun s hi => hi
  | succ n ih =>
    intro s hi
    rw [State.counterErrs]
    split
    · next e =>
      have h1 := State.localErr_wf e hi
      exact ih _ h1
    · exact hi

@[simp] theorem State.passWrite_wf_iff (s : State) (casts : List (Nat × List Nat × List Nat × Nat)) (p : Nat → Bool) :
    FstWf (s.passWrite casts p) ↔ s.Wf := by simp [State.passWrite]

@[simp] theorem execOccupancyPassDone_wf (s : State) (hi : s.Wf) : Out.Wf (execOccupancyPassDone s) := by
  refine Out.wf_next ?_
  split <;> simp [hi]

@[simp] theorem State.passAbandon_wf (s : State) (hi : s.Wf) : s.passAbandon.Wf := by
  unfold State.passAbandon
  split <;> simp [hi]

@[simp] theorem State.tickSkip_wf_iff (s : State) (tick : Nat) : (s.tickSkip tick).Wf ↔ s.Wf := by simp [State.tickSkip]

@[simp] theorem State.fusBlocks_wf_iff (s : State) : s.fusBlocks.Wf ↔ s.Wf := by simp [State.fusBlocks]

@[simp] theorem State.showTracks_wf_iff (s : State) : s.showTracks.Wf ↔ s.Wf := by simp [State.showTracks]

@[simp] theorem State.fusTick_wf (s : State) (tick : Nat) (hi : s.Wf) : (s.fusTick tick).Wf := by
  unfold State.fusTick
  extract_lets b0 f0 s0 w0 r s1 dets w1 w2 w3 pre w4 s5 exts put s6
  have h0 : w0.s.Wf := FusWork.runCommand_wf _ _ (FusWork.trackErrs_wf _ _ _ (by simp [s0, b0, hi]))
  have h1 : s1.Wf := State.slipTest_wf _ _ (by simp [r, h0])
  have h2 : w2.s.Wf :=
    foldl_work_wf (fun w i h => w.mutual_wf _ _ h) _ _ (foldl_work_wf (fun w e h => by simp [h]) _ _ h1)
  have h3 : w3.s.Wf := by
    unfold w3
    split
    · exact h2
    · exact w2.deleteAll_wf _ _ h2
  have h4 : w4.s.Wf := foldl_work_wf (fun w n h => w.calibrate_wf _ _ h) _ _ h3
  have h5 : s5.Wf := by simp [s5, h4]
  simp [s6, put, h5]

@[simp] theorem execFusionTick_wf (s : State) (hi : s.Wf) : Out.Wf (execFusionTick s) := by
  refine Out.wf_next ?_
  split <;> simp [hi]

@[simp] theorem execFusionTickSkipped_wf (s : State) (hi : s.Wf) : Out.Wf (execFusionTickSkipped s) := by
  refine Out.wf_next ?_
  split <;> simp [hi]

@[simp] theorem State.fusDropCmd_wf_iff (s : State) : s.fusDropCmd.Wf ↔ s.Wf := by
  unfold State.fusDropCmd
  split <;> simp

@[simp] theorem State.fusStart_wf_iff (s : State) : s.fusStart.Wf ↔ s.Wf := by simp [State.fusStart]

@[simp] theorem State.fusReady_wf_iff (s : State) : s.fusReady.Wf ↔ s.Wf := by simp [State.fusReady]

@[simp] theorem State.fusStop_wf_iff (s : State) : s.fusStop.Wf ↔ s.Wf := by simp [State.fusStop]

@[simp] theorem State.fusCtl_wf_iff (s : State) (fn : Nat) (f : State) (h : f.Wf ↔ s.Wf) : (s.fusCtl fn f).Wf ↔ s.Wf :=
  s.ctlWrite_wf_iff fn 0x0D _ _ f h

@[simp] theorem execFusionEnable_wf (fn : Nat) (on : Bool) (s : State) (hi : s.Wf) : Out.Wf (execFusionEnable fn on s) := by
  simp [execFusionEnable, hi]

@[simp] theorem execFusionQuiesce_wf (fn : Nat) (s : State) (hi : s.Wf) : Out.Wf (execFusionQuiesce fn s) := by simp [execFusionQuiesce, hi]

@[simp] theorem execFusionReset_wf (fn : Nat) (s : State) (hi : s.Wf) : Out.Wf (execFusionReset fn s) := by simp [execFusionReset, hi]

@[simp] theorem execFusionStartDone_wf (s : State) (hi : s.Wf) : Out.Wf (execFusionStartDone s) := by simp [execFusionStartDone, hi]

@[simp] theorem execFusionStopDone_wf (s : State) (hi : s.Wf) : Out.Wf (execFusionStopDone s) := by simp [execFusionStopDone, hi]

@[simp] theorem execFusionResidueMismatch_wf (s : State) (hi : s.Wf) : Out.Wf (execFusionResidueMismatch s) := by
  simp [execFusionResidueMismatch, hi]

@[simp] theorem execFusionThirdMismatch_wf (s : State) (hi : s.Wf) : Out.Wf (execFusionThirdMismatch s) := by
  simp [execFusionThirdMismatch, hi]

@[simp] theorem State.fusCompute_wf (s : State) (hi : s.Wf) : s.fusCompute.Wf := by
  unfold State.fusCompute
  split <;> simp [hi]

@[simp] theorem State.srcOff_sat_iff (hP : Frame P) (s : State) (n : Nat) : (s.srcOff n).Sat P ↔ s.Sat P := by
  simp [State.srcOff, Fld.FUS_SRC_CFG_EN, hP]

@[simp] theorem State.fusRelease_sat_iff (hP : Frame P) (s : State) (fn : Nat) : (s.fusRelease fn).Sat P ↔ s.Sat P := by
  simp [State.fusRelease, Fld.FUS_EVT_CFG_EN, Fld.FUS_EVT_CFG_PART, Fld.FUS_OUT_CFG_EN, Fld.FUS_OUT_CFG_PART, hP]

@[simp] theorem State.fusBoard_wf_iff (s : State) : s.fusBoard.Wf ↔ s.Wf := by simp [State.fusBoard]

end Sys2Proof.Machine
end

section
/-! ## What the operations keep: Operands -/

namespace Sys2Proof.Machine

variable {P : State → Prop}

@[simp] theorem State.setLaneset_wf_iff (s : State) (g l : Nat) (ls : Laneset) : (s.setLaneset g l ls).Wf ↔ s.Wf := by
  unfold State.setLaneset
  split <;> simp

@[simp] theorem State.except_wf (s : State) (c : Ctx) (cause : Nat) (st : Status) (lanes : List Nat) (addr detail : Nat) (hi : s.Wf) :
    (s.except c cause st lanes addr detail).Wf := by simp [State.except, hi]

@[simp] theorem State.exFetch_wf (s : State) (c : Ctx) (pc : Nat) (hi : s.Wf) : (s.exFetch c pc).Wf := by simp [State.exFetch, hi]

@[simp] theorem State.exOpcode_wf (s : State) (c : Ctx) (hi : s.Wf) : (s.exOpcode c).Wf := by simp [State.exOpcode, hi]

@[simp] theorem State.exRegister_wf (s : State) (c : Ctx) (r : Nat) (hi : s.Wf) : (s.exRegister c r).Wf := by simp [State.exRegister, hi]

@[simp] theorem State.retire_wf_iff (s : State) (c : Ctx) (ls : Laneset) (words : Nat) : (s.retire c ls words).Wf ↔ s.Wf := by
  simp [State.retire]

@[simp] theorem State.fetch_wf (s : State) (c : Ctx) (pc : Nat) (hi : s.Wf) : (s.fetch c pc).Wf := by simp [State.fetch, hi]

theorem State.meet_wf (s : State) (g l op : Nat) (f : State → Ctx → State) (hi : s.Wf)
    (hf : ∀ s c, s.Wf → (f s c).Wf) : (s.meet g l op f).Wf := by
  unfold State.meet
  split
  · exact hi
  · next c _ =>
    have h1 := s.fetch_wf c c.ls.pc hi
    split
    · simp [hi]
    split
    · simp [h1]
    split
    · simp [h1]
    split
    · exact hi
    · exact hf _ _ h1

theorem State.operands_wf (s : State) (c : Ctx) (srcs regs : List Reg) (k : State → State) (hi : s.Wf)
    (hk : ∀ s, s.Wf → (k s).Wf) : (s.operands c srcs regs k).Wf := by
  unfold State.operands
  extract_lets lit s1
  have h1 : s1.Wf := by
    unfold s1
    split
    · exact s.fetch_wf _ _ hi
    · exact hi
  split
  · simp [h1]
  split
  · simp [h1]
  · split
    · simp [h1]
    · exact hk _ h1

@[simp] theorem State.runR_wf (s : State) (g l : Nat) (o : ROp) (hi : s.Wf) : (s.runR g l o).Wf := by
  refine s.meet_wf _ _ _ _ hi (fun s c h => ?_)
  split
  · simp [h]
  split
  · simp [h]
  refine s.operands_wf _ _ _ _ h (fun s h => ?_)
  dsimp only
  split <;> simp [h]

@[simp] theorem State.runI_wf (s : State) (g l op : Nat) (useA : Bool) (f : Nat → Nat → Nat) (hi : s.Wf) :
    (s.runI g l op useA f).Wf := by
  refine s.meet_wf _ _ _ _ hi (fun s c h => ?_)
  extract_lets a d srcs
  split
  · simp [h]
  exact s.operands_wf _ _ _ _ h (fun s h => by simp [h])

end Sys2Proof.Machine
end

section
/-! ## What the operations keep: Flags -/

namespace Sys2Proof.Machine

variable {P : State → Prop}

@[simp] theorem State.putPreds_wf_iff (s : State) (c : Ctx) (words : Nat) (f : Nat → Bool) : (s.putPreds c words f).Wf ↔ s.Wf := by
  simp [State.putPreds]

@[simp] theorem execIsetp_wf (g l : Nat) (s : State) (hi : s.Wf) : Out.Wf (execIsetp g l s) := by
  refine Out.wf_next (s.meet_wf _ _ _ _ hi (fun s c h => ?_))
  dsimp only
  split
  · simp [h]
  split
  · simp [h]
  · exact s.operands_wf _ _ _ _ h (fun s h => by simp [h])

@[simp] theorem execFsetp_wf (g l : Nat) (s : State) (hi : s.Wf) : Out.Wf (execFsetp g l s) := by
  refine Out.wf_next (s.meet_wf _ _ _ _ hi (fun s c h => ?_))
  dsimp only
  split
  · simp [h]
  · exact s.operands_wf _ _ _ _ h (fun s h => by simp [h])

@[simp] theorem execPlop_wf (g l : Nat) (s : State) (hi : s.Wf) : Out.Wf (execPlop g l s) := by
  refine Out.wf_next (s.meet_wf _ _ _ _ hi (fun s c h => ?_))
  split <;> simp [h]

@[simp] theorem execPload_wf (g l : Nat) (s : State) (hi : s.Wf) : Out.Wf (execPload g l s) := by
  refine Out.wf_next (s.meet_wf _ _ _ _ hi (fun s c h => ?_))
  dsimp only
  split
  · simp [h]
  · exact s.operands_wf _ _ _ _ h (fun s h => by simp [h])

@[simp] theorem execVoteany_wf (g l : Nat) (s : State) (hi : s.Wf) : Out.Wf (execVoteany g l s) := by
  refine Out.wf_next (s.meet_wf _ _ _ _ hi (fun s c h => ?_))
  split <;> simp [h]

@[simp] theorem execVoteall_wf (g l : Nat) (s : State) (hi : s.Wf) : Out.Wf (execVoteall g l s) := by
  refine Out.wf_next (s.meet_wf _ _ _ _ hi (fun s c h => ?_))
  split <;> simp [h]

end Sys2Proof.Machine
end

section
/-! ## What the operations keep: IsaInt -/

namespace Sys2Proof.Machine

variable {P : State → Prop}

@[simp] theorem execNop_wf (g l : Nat) (s : State) (hi : s.Wf) : Out.Wf (execNop g l s) := by
  refine Out.wf_next (s.meet_wf _ _ _ _ hi (fun s c h => ?_))
  split <;> simp [h]

@[simp] theorem execMov_wf (g l : Nat) (s : State) (hi : s.Wf) : Out.Wf (execMov g l s) := by simp [execMov, hi]

@[simp] theorem execMovi_wf (g l : Nat) (s : State) (hi : s.Wf) : Out.Wf (execMovi g l s) := by simp [execMovi, hi]

@[simp] theorem execSel_wf (g l : Nat) (s : State) (hi : s.Wf) : Out.Wf (execSel g l s) := by simp [execSel, hi]

@[simp] theorem execIadd_wf (g l : Nat) (s : State) (hi : s.Wf) : Out.Wf (execIadd g l s) := by simp [execIadd, hi]

@[simp] theorem execIaddi_wf (g l : Nat) (s : State) (hi : s.Wf) : Out.Wf (execIaddi g l s) := by simp [execIaddi, hi]

@[simp] theorem execIsub_wf (g l : Nat) (s : State) (hi : s.Wf) : Out.Wf (execIsub g l s) := by simp [execIsub, hi]

@[simp] theorem execImul_wf (g l : Nat) (s : State) (hi : s.Wf) : Out.Wf (execImul g l s) := by simp [execImul, hi]

@[simp] theorem execImulh_wf (g l : Nat) (s : State) (hi : s.Wf) : Out.Wf (execImulh g l s) := by simp [execImulh, hi]

@[simp] theorem execImad_wf (g l : Nat) (s : State) (hi : s.Wf) : Out.Wf (execImad g l s) := by simp [execImad, hi]

@[simp] theorem execIdiv_wf (g l : Nat) (s : State) (hi : s.Wf) : Out.Wf (execIdiv g l s) := by simp [execIdiv, hi]

@[simp] theorem execIrem_wf (g l : Nat) (s : State) (hi : s.Wf) : Out.Wf (execIrem g l s) := by simp [execIrem, hi]

@[simp] theorem execImin_wf (g l : Nat) (s : State) (hi : s.Wf) : Out.Wf (execImin g l s) := by simp [execImin, hi]

@[simp] theorem execImax_wf (g l : Nat) (s : State) (hi : s.Wf) : Out.Wf (execImax g l s) := by simp [execImax, hi]

@[simp] theorem execIabs_wf (g l : Nat) (s : State) (hi : s.Wf) : Out.Wf (execIabs g l s) := by simp [execIabs, hi]

@[simp] theorem execIneg_wf (g l : Nat) (s : State) (hi : s.Wf) : Out.Wf (execIneg g l s) := by simp [execIneg, hi]

@[simp] theorem execAndB_wf (g l : Nat) (s : State) (hi : s.Wf) : Out.Wf (execAndB g l s) := by simp [execAndB, hi]

@[simp] theorem execOrB_wf (g l : Nat) (s : State) (hi : s.Wf) : Out.Wf (execOrB g l s) := by simp [execOrB, hi]

@[simp] theorem execXorB_wf (g l : Nat) (s : State) (hi : s.Wf) : Out.Wf (execXorB g l s) := by simp [execXorB, hi]

@[simp] theorem execNotB_wf (g l : Nat) (s : State) (hi : s.Wf) : Out.Wf (execNotB g l s) := by simp [execNotB, hi]

@[simp] theorem execAndi_wf (g l : Nat) (s : State) (hi : s.Wf) : Out.Wf (execAndi g l s) := by simp [execAndi, hi]

@[simp] theorem execOri_wf (g l : Nat) (s : State) (hi : s.Wf) : Out.Wf (execOri g l s) := by simp [execOri, hi]

@[simp] theorem execXori_wf (g l : Nat) (s : State) (hi : s.Wf) : Out.Wf (execXori g l s) := by simp [execXori, hi]

@[simp] theorem execShl_wf (g l : Nat) (s : State) (hi : s.Wf) : Out.Wf (execShl g l s) := by simp [execShl, hi]

@[simp] theorem execShr_wf (g l : Nat) (s : State) (hi : s.Wf) : Out.Wf (execShr g l s) := by simp [execShr, hi]

@[simp] theorem execSar_wf (g l : Nat) (s : State) (hi : s.Wf) : Out.Wf (execSar g l s) := by simp [execSar, hi]

@[simp] theorem execShli_wf (g l : Nat) (s : State) (hi : s.Wf) : Out.Wf (execShli g l s) := by simp [execShli, hi]

@[simp] theorem execShri_wf (g l : Nat) (s : State) (hi : s.Wf) : Out.Wf (execShri g l s) := by simp [execShri, hi]

@[simp] theorem execSari_wf (g l : Nat) (s : State) (hi : s.Wf) : Out.Wf (execSari g l s) := by simp [execSari, hi]

@[simp] theorem execPopc_wf (g l : Nat) (s : State) (hi : s.Wf) : Out.Wf (execPopc g l s) := by simp [execPopc, hi]

@[simp] theorem execClz_wf (g l : Nat) (s : State) (hi : s.Wf) : Out.Wf (execClz g l s) := by simp [execClz, hi]

@[simp] theorem execBrev_wf (g l : Nat) (s : State) (hi : s.Wf) : Out.Wf (execBrev g l s) := by simp [execBrev, hi]

@[simp] theorem execBfe_wf (g l : Nat) (s : State) (hi : s.Wf) : Out.Wf (execBfe g l s) := by simp [execBfe, hi]

@[simp] theorem execBfi_wf (g l : Nat) (s : State) (hi : s.Wf) : Out.Wf (execBfi g l s) := by simp [execBfi, hi]

@[simp] theorem execPsave_wf (g l : Nat) (s : State) (hi : s.Wf) : Out.Wf (execPsave g l s) := by simp [execPsave, hi]

@[simp] theorem execShfl_wf (g l : Nat) (s : State) (hi : s.Wf) : Out.Wf (execShfl g l s) := by simp [execShfl, hi]

@[simp] theorem execShflx_wf (g l : Nat) (s : State) (hi : s.Wf) : Out.Wf (execShflx g l s) := by simp [execShflx, hi]

@[simp] theorem execBallot_wf (g l : Nat) (s : State) (hi : s.Wf) : Out.Wf (execBallot g l s) := by simp [execBallot, hi]

@[simp] theorem execRedux_wf (g l : Nat) (s : State) (hi : s.Wf) : Out.Wf (execRedux g l s) := by
  refine Out.wf_next ?_
  dsimp only
  split
  · split
    · exact s.meet_wf _ _ _ _ hi (fun s c h => by simp [h])
    · simp [hi]
  · exact hi

@[simp] theorem execSreg_wf (g l : Nat) (s : State) (hi : s.Wf) : Out.Wf (execSreg g l s) := by
  refine Out.wf_next ?_
  split
  · exact hi
  split
  · exact s.meet_wf _ _ _ _ hi (fun s c h => by simp [h])
  · simp [hi]

@[simp] theorem execTimeR_wf (g l : Nat) (s : State) (hi : s.Wf) : Out.Wf (execTimeR g l s) := by simp [execTimeR, hi]

@[simp] theorem execClk_wf (g l : Nat) (s : State) (hi : s.Wf) : Out.Wf (execClk g l s) := by simp [execClk, hi]

@[simp] theorem execT2u_wf (g l : Nat) (s : State) (hi : s.Wf) : Out.Wf (execT2u g l s) := by
  refine Out.wf_next (s.meet_wf _ _ _ _ hi (fun s c h => ?_))
  dsimp only
  split
  · simp [h]
  · exact s.operands_wf _ _ _ _ h (fun s h => by simp [h])

end Sys2Proof.Machine
end

section
/-! ## What the operations keep: IsaFp -/

namespace Sys2Proof.Machine

variable {P : State → Prop}

@[simp] theorem execFadd_wf (g l : Nat) (s : State) (hi : s.Wf) : Out.Wf (execFadd g l s) := by simp [execFadd, hi]

@[simp] theorem execFsub_wf (g l : Nat) (s : State) (hi : s.Wf) : Out.Wf (execFsub g l s) := by simp [execFsub, hi]

@[simp] theorem execFmul_wf (g l : Nat) (s : State) (hi : s.Wf) : Out.Wf (execFmul g l s) := by simp [execFmul, hi]

@[simp] theorem execFfma_wf (g l : Nat) (s : State) (hi : s.Wf) : Out.Wf (execFfma g l s) := by simp [execFfma, hi]

@[simp] theorem execFmin_wf (g l : Nat) (s : State) (hi : s.Wf) : Out.Wf (execFmin g l s) := by simp [execFmin, hi]

@[simp] theorem execFmax_wf (g l : Nat) (s : State) (hi : s.Wf) : Out.Wf (execFmax g l s) := by simp [execFmax, hi]

@[simp] theorem execFabs_wf (g l : Nat) (s : State) (hi : s.Wf) : Out.Wf (execFabs g l s) := by simp [execFabs, hi]

@[simp] theorem execFneg_wf (g l : Nat) (s : State) (hi : s.Wf) : Out.Wf (execFneg g l s) := by simp [execFneg, hi]

@[simp] theorem execFaddi_wf (g l : Nat) (s : State) (hi : s.Wf) : Out.Wf (execFaddi g l s) := by simp [execFaddi, hi]

@[simp] theorem execFmuli_wf (g l : Nat) (s : State) (hi : s.Wf) : Out.Wf (execFmuli g l s) := by simp [execFmuli, hi]

@[simp] theorem execRcp_wf (g l : Nat) (s : State) (hi : s.Wf) : Out.Wf (execRcp g l s) := by simp [execRcp, hi]

@[simp] theorem execRsq_wf (g l : Nat) (s : State) (hi : s.Wf) : Out.Wf (execRsq g l s) := by simp [execRsq, hi]

@[simp] theorem execSqrt_wf (g l : Nat) (s : State) (hi : s.Wf) : Out.Wf (execSqrt g l s) := by simp [execSqrt, hi]

@[simp] theorem execExp2_wf (g l : Nat) (s : State) (hi : s.Wf) : Out.Wf (execExp2 g l s) := by simp [execExp2, hi]

@[simp] theorem execLog2_wf (g l : Nat) (s : State) (hi : s.Wf) : Out.Wf (execLog2 g l s) := by simp [execLog2, hi]

@[simp] theorem execSin_wf (g l : Nat) (s : State) (hi : s.Wf) : Out.Wf (execSin g l s) := by simp [execSin, hi]

@[simp] theorem execCos_wf (g l : Nat) (s : State) (hi : s.Wf) : Out.Wf (execCos g l s) := by simp [execCos, hi]

@[simp] theorem execTanh_wf (g l : Nat) (s : State) (hi : s.Wf) : Out.Wf (execTanh g l s) := by simp [execTanh, hi]

@[simp] theorem execFdiv_wf (g l : Nat) (s : State) (hi : s.Wf) : Out.Wf (execFdiv g l s) := by simp [execFdiv, hi]

@[simp] theorem execFscl_wf (g l : Nat) (s : State) (hi : s.Wf) : Out.Wf (execFscl g l s) := by simp [execFscl, hi]

@[simp] theorem execCvt_wf (g l : Nat) (s : State) (hi : s.Wf) : Out.Wf (execCvt g l s) := by
  refine Out.wf_next ?_
  split
  · exact hi
  split
  · split
    · exact s.meet_wf _ _ _ _ hi (fun s c h => by simp [h])
    · exact hi
  · simp [hi]

@[simp] theorem execCvtpk_wf (g l : Nat) (s : State) (hi : s.Wf) : Out.Wf (execCvtpk g l s) := by simp [execCvtpk, hi]

@[simp] theorem execCvtup_wf (g l : Nat) (s : State) (hi : s.Wf) : Out.Wf (execCvtup g l s) := by simp [execCvtup, hi]

end Sys2Proof.Machine
end

section
/-! ## What the operations keep: IsaMem -/

namespace Sys2Proof.Machine

variable {P : State → Prop}

@[simp] theorem State.regionWrite_wf (s : State) (x : Group) (off : Nat) (b : List Byte) (hi : s.Wf) : (s.regionWrite x off b).Wf := by
  simp [State.regionWrite, hi]

@[simp] theorem State.taintSpan_wf_iff (s : State) (sq off n : Nat) : (s.taintSpan sq off n).Wf ↔ s.Wf := by simp [State.taintSpan]

@[simp] theorem State.taintReads_wf_iff (s : State) (x : Group) (off n : Nat) : (s.taintReads x off n).Wf ↔ s.Wf := by
  simp [State.taintReads]

theorem State.raiseLanes_wf {s t : State} {c : Ctx} {l : List (Nat × Nat × Nat)} (h : s.raiseLanes c l = some t)
    (hi : s.Wf) : t.Wf := by
  cases l with
  | nil => cases h
  | cons e es =>
    obtain rfl := Option.some.inj h
    exact s.except_wf _ _ _ _ _ _ hi

@[simp] theorem State.scanLanes_wf (s : State) (x : Group) (as : List (Nat × Nat)) (n : Nat) (hi : s.Wf) : (s.scanLanes x as n).Wf := by
  simp +contextual [State.scanLanes, hi]

@[simp] theorem State.countBanks_wf_iff (s : State) (x : Group) (as : List (Nat × Nat)) : (s.countBanks x as).Wf ↔ s.Wf := by
  simp [State.countBanks]

@[simp] theorem execLds_wf (g l : Nat) (s : State) (hi : s.Wf) : Out.Wf (execLds g l s) := by
  refine Out.wf_next (s.meet_wf _ _ _ _ hi (fun s c h => ?_))
  extract_lets +onlyGivenNames a d n
  split
  · simp [h]
  refine s.operands_wf _ _ _ _ h (fun s h => ?_)
  extract_lets +onlyGivenNames as s1
  have h1 : s1.Wf := by simp [s1, h]
  clear_value s1
  split
  · simp [h1]
  split
  · next e => exact State.raiseLanes_wf e h1
  · simp [h1]

@[simp] theorem execSts_wf (g l : Nat) (s : State) (hi : s.Wf) : Out.Wf (execSts g l s) := by
  refine Out.wf_next (s.meet_wf _ _ _ _ hi (fun s c h => ?_))
  extract_lets +onlyGivenNames a d n
  split
  · simp [h]
  refine s.operands_wf _ _ _ _ h (fun s h => ?_)
  extract_lets +onlyGivenNames as
  split
  · next e => exact State.raiseLanes_wf e h
  · have h1 := foldl_sat (P := MemWf) (f := fun s e => (s.taintReads c.x e.2 n).regionWrite c.x e.2 (leBytes n (c.storeData e.1)))
      (fun s e h => by simp [h]) as (s.countBanks c.x as) (by simp [h])
    simp [h1]

theorem State.global_wf (s : State) (c : Ctx) (as : List (Nat × Nat)) (n : Nat) (acc : Acc) (fail : Nat → Option VaErr)
    (k : State → State) (hi : s.Wf) (hk : ∀ s, s.Wf → (k s).Wf) :
    (s.global c as n acc fail k).Wf := by
  unfold State.global
  extract_lets bad s1
  have h1 : s1.Wf := by
    unfold s1
    split
    · exact hi
    · exact foldl_sat (fun s e h => s.vaTrace_sat memWf_frame _ _ _ _ _ h) _ _ hi
  split
  · next e => exact State.raiseLanes_wf e h1
  · split
    · exact (State.noteHeld_sat_iff memWf_frame _).mpr hi
    · exact hk _ h1

@[simp] theorem execLdg_wf (g l : Nat) (s : State) (hi : s.Wf) : Out.Wf (execLdg g l s) := by
  refine Out.wf_next (s.meet_wf _ _ _ _ hi (fun s c h => ?_))
  extract_lets +onlyGivenNames a d n
  split
  · simp [h]
  exact s.operands_wf _ _ _ _ h (fun s h => s.global_wf _ _ _ _ _ _ h (fun s h => by simp [h]))

@[simp] theorem execStg_wf (g l : Nat) (s : State) (hi : s.Wf) : Out.Wf (execStg g l s) := by
  refine Out.wf_next (s.meet_wf _ _ _ _ hi (fun s c h => ?_))
  extract_lets +onlyGivenNames a d n
  split
  · simp [h]
  refine s.operands_wf _ _ _ _ h (fun s h => s.global_wf _ _ _ _ _ _ h (fun s1 h => ?_))
  have h1 := foldl_sat (f := fun t (e : Nat × Nat) => t.vaPut (s.ctxFn c) e.2 (leBytes n (c.storeData e.1)) 2)
    (fun t e h => t.vaPut_sat memWf_frame _ _ _ _ h) (c.globalAddrs (c.runLanes (fDUi c.w))) s1 h
  rw [State.retire_wf_iff]
  exact h1

@[simp] theorem atsLane_wf (c : Ctx) (t : Ty) (st : State × Laneset) (e : Nat × Nat) (hi : FstWf st) :
    FstWf (atsLane c t st e) := by
  simp [atsLane, hi]

@[simp] theorem execAts_wf (g l : Nat) (s : State) (hi : s.Wf) : Out.Wf (execAts g l s) := by
  refine Out.wf_next (s.meet_wf _ _ _ _ hi (fun s c h => ?_))
  split
  · simp [h]
  split
  · simp [h]
  refine s.operands_wf _ _ _ _ h (fun s h => ?_)
  extract_lets +onlyGivenNames n as s1
  have h1 : s1.Wf := by simp [s1, h]
  clear_value s1
  split
  · simp [h1]
  split
  · next e => exact State.raiseLanes_wf e h1
  · simp [foldl_fstSat (fun a b h => atsLane_wf c _ a b h) as (s1.countBanks c.x as, c.ls) (by simp [h1])]

@[simp] theorem atgLane_wf (c : Ctx) (t : Ty) (fn : Nat) (st : State × Laneset) (e : Nat × Nat) (hi : FstWf st) :
    FstWf (atgLane c t fn st e) := by
  unfold atgLane
  dsimp only
  split
  · exact hi
  · exact State.vaPut_sat memWf_frame _ _ _ _ _ hi

@[simp] theorem execAtg_wf (g l : Nat) (s : State) (hi : s.Wf) : Out.Wf (execAtg g l s) := by
  refine Out.wf_next (s.meet_wf _ _ _ _ hi (fun s c h => ?_))
  split
  · simp [h]
  split
  · simp [h]
  refine s.operands_wf _ _ _ _ h (fun s h => s.global_wf _ _ _ _ _ _ h (fun s1 h => ?_))
  extract_lets r
  rw [State.retire_wf_iff]
  exact foldl_fstSat (fun a b h => atgLane_wf c _ _ a b h) _ _ h

theorem State.semAccess_wf (s : State) (c : Ctx) (as : List (Nat × Nat)) (write : Bool) (k : State → State) (hi : s.Wf)
    (hk : ∀ s, s.Wf → (k s).Wf) : (s.semAccess c as write k).Wf := by
  have ht := State.vaTrace_sat memWf_frame
  unfold State.semAccess
  extract_lets s1 bad waits
  have h1 : s1.Wf := by
    unfold s1
    split
    · exact foldl_sat (fun s e h => ht _ _ _ _ _ _ h) _ _ hi
    · simp [hi]
  split
  · simp [h1]
  split
  · next e => exact State.raiseLanes_wf e h1
  · split
    · exact hk _ h1
    · exact (State.noteHeld_sat_iff memWf_frame _).mpr hi

@[simp] theorem execSemw_wf (g l : Nat) (s : State) (hi : s.Wf) : Out.Wf (execSemw g l s) := by
  refine Out.wf_next (s.meet_wf _ _ _ _ hi (fun s c h => ?_))
  dsimp only
  split
  · simp [h]
  refine s.operands_wf _ _ _ _ h (fun s h => ?_)
  split
  · simp [h]
  · exact s.semAccess_wf _ _ _ _ h (fun s h => by split <;> simp [h])

@[simp] theorem execSemwTimeout_wf (g l : Nat) (s : State) (hi : s.Wf) : Out.Wf (execSemwTimeout g l s) := by
  refine Out.wf_next (s.meet_wf _ _ _ _ hi (fun s c h => ?_))
  split
  · exact h
  · split <;> simp [h]

@[simp] theorem sempLane_wf (c : Ctx) (s : State) (e : Nat × Nat) (hi : s.Wf) : (sempLane c s e).Wf := by simp [sempLane, hi]

@[simp] theorem execSemp_wf (g l : Nat) (s : State) (hi : s.Wf) : Out.Wf (execSemp g l s) := by
  refine Out.wf_next (s.meet_wf _ _ _ _ hi (fun s c h => ?_))
  dsimp only
  split
  · simp [h]
  refine s.operands_wf _ _ _ _ h (fun s h => s.semAccess_wf _ _ _ _ h (fun s h => ?_))
  have h1 := foldl_sat (f := sempLane c) (fun s e h => sempLane_wf c s e h)
    ((c.runLanes (fDU c.w)).map fun i => (i, c.read i (semRegs c.w).1)) s h
  split <;> simp [h1]

end Sys2Proof.Machine
end

section
/-! ## What the operations keep: Engine -/

namespace Sys2Proof.Machine

variable {P : State → Prop}

@[simp] theorem State.enqueue_wf_iff (s : State) (c : Ctx) (op : EngOp) (taint : Bool) : (s.enqueue c op taint).Wf ↔ s.Wf := by
  simp [State.enqueue]

theorem State.takeLease_wf_iff {s t : State} {c : Ctx} (h : s.takeLease c = some t) : t.Wf ↔ s.Wf := by
  unfold State.takeLease at h
  dsimp only at h
  split at h
  · split at h
    · rw [Option.some.inj h]
    · cases h
  · rw [← Option.some.inj h]
    simp

theorem State.meetU_wf (s : State) (g l op : Nat) (bad : Nat → Bool) (f : State → Ctx → State) (hi : s.Wf)
    (hf : ∀ s c, s.Wf → (f s c).Wf) : (s.meetU g l op bad f).Wf := by
  refine s.meet_wf _ _ _ _ hi (fun s c h => ?_)
  split
  · simp [h]
  · split
    · simp [h]
    · exact hf s c h

@[simp] theorem State.issue_wf_iff (s : State) (c : Ctx) (op : EngOp) (taint : Bool) : (s.issue c op taint).Wf ↔ s.Wf := by
  unfold State.issue
  split
  · rfl
  split
  · rfl
  · next e => simp [State.takeLease_wf_iff e]

@[simp] theorem State.exceptEng_wf (s : State) (g lset pc cause : Nat) (st : Status) (addr : Nat) (hi : s.Wf) :
    (s.exceptEng g lset pc cause st addr).Wf := by simp [State.exceptEng, hi]

@[simp] theorem State.settleGroup_wf (s : State) (g : Nat) (hi : s.Wf) : (s.settleGroup g).Wf := by
  unfold State.settleGroup
  split <;> simp [hi]

end Sys2Proof.Machine
end

section
/-! ## What the operations keep: IsaEng -/

namespace Sys2Proof.Machine

variable {P : State → Prop}

@[simp] theorem State.issueMma_wf (s : State) (g l op : Nat) (sparse : Bool) (hi : s.Wf) :
    (s.issueMma g l op sparse).Wf := by
  refine s.meetU_wf _ _ _ _ _ hi (fun s c h => ?_)
  dsimp only
  split <;> simp [h]

@[simp] theorem execMma_wf (g l : Nat) (s : State) (hi : s.Wf) : Out.Wf (execMma g l s) := by simp [execMma, hi]

@[simp] theorem execMmasp_wf (g l : Nat) (s : State) (hi : s.Wf) : Out.Wf (execMmasp g l s) := by simp [execMmasp, hi]

@[simp] theorem execMld_wf (g l : Nat) (s : State) (hi : s.Wf) : Out.Wf (execMld g l s) := by
  refine Out.wf_next (s.meetU_wf _ _ _ _ _ hi (fun s c h => ?_))
  simp [h]

@[simp] theorem execDrn_wf (g l : Nat) (s : State) (hi : s.Wf) : Out.Wf (execDrn g l s) := by
  refine Out.wf_next (s.meetU_wf _ _ _ _ _ hi (fun s c h => ?_))
  simp [h]

@[simp] theorem execTmv_wf (g l : Nat) (s : State) (hi : s.Wf) : Out.Wf (execTmv g l s) := by
  refine Out.wf_next (s.meetU_wf _ _ _ _ _ hi (fun s c h => ?_))
  dsimp only
  split <;> simp [h]

@[simp] theorem State.exTicket_wf (s : State) (c : Ctx) (hi : s.Wf) : (s.exTicket c).Wf := by simp [State.exTicket, hi]

@[simp] theorem execTwait_wf (g l : Nat) (s : State) (hi : s.Wf) : Out.Wf (execTwait g l s) := by
  refine Out.wf_next (s.meetU_wf _ _ _ _ _ hi (fun s c h => ?_))
  split <;> simp [h]

@[simp] theorem execTtest_wf (g l : Nat) (s : State) (hi : s.Wf) : Out.Wf (execTtest g l s) := by
  refine Out.wf_next (s.meetU_wf _ _ _ _ _ hi (fun s c h => ?_))
  dsimp only
  split <;> simp [h]

@[simp] theorem State.waitWork_wf_iff (s : State) (c : Ctx) (accmask : Nat) (mx : Bool) (mvmask : Nat) :
    (s.waitWork c accmask mx mvmask).Wf ↔ s.Wf := by simp [State.waitWork]

@[simp] theorem execEwait_wf (g l : Nat) (s : State) (hi : s.Wf) : Out.Wf (execEwait g l s) := by
  refine Out.wf_next (s.meetU_wf _ _ _ _ _ hi (fun s c h => ?_))
  simp [h]

@[simp] theorem State.openBars_wf_iff (s : State) (g : Nat) : (s.openBars g).Wf ↔ s.Wf := by
  unfold State.openBars
  split <;> simp

@[simp] theorem State.exBarrier_wf (s : State) (c : Ctx) (hi : s.Wf) : (s.exBarrier c).Wf := by simp [State.exBarrier, hi]

@[simp] theorem execBar_wf (g l : Nat) (s : State) (hi : s.Wf) : Out.Wf (execBar g l s) := by
  refine Out.wf_next (s.meetU_wf _ _ _ _ _ hi (fun s c h => ?_))
  extract_lets +onlyGivenNames imm i n b
  split
  · simp [h]
  extract_lets +onlyGivenNames ls s1 s2
  have h1 : s1.Wf := by simp [s1, h]
  have h2 : s2.Wf := by
    unfold s2
    split <;> simp [h1]
  simp [h2]

@[simp] theorem execFence_wf (g l : Nat) (s : State) (hi : s.Wf) : Out.Wf (execFence g l s) := by
  refine Out.wf_next (s.meetU_wf _ _ _ _ _ hi (fun s c h => ?_))
  split <;> simp [h]

@[simp] theorem State.crossBndy_wf (s : State) (c : Ctx) (hi : s.Wf) : (s.crossBndy c).Wf := by
  unfold State.crossBndy
  split
  · exact hi
  split
  · exact hi
  split
  · simp [hi]
  · extract_lets q s1 ls x' cont s2
    have h1 : s1.Wf := by
      unfold s1
      split <;> simp [hi]
    have h2 : s2.Wf := by simp [s2, State.storeWrite_sat memWf_frame, h1]
    split
    · simp [h2]
    split
    · simp [h2]
    · exact h2

@[simp] theorem execBndy_wf (g l : Nat) (s : State) (hi : s.Wf) : Out.Wf (execBndy g l s) := by
  refine Out.wf_next (s.meetU_wf _ _ _ _ _ hi (fun s c h => ?_))
  have h1 (ls : Laneset) :
      (if c.ls.bndy then s else ((s.perfCount c.x.square 0x01 1).noteRetire c.x.square).setLaneset g l ls).Wf := by
    split <;> simp [h]
  exact State.crossBndy_wf _ _ (h1 _)

end Sys2Proof.Machine
end

section
/-! ## What the operations keep: IsaFlow -/

namespace Sys2Proof.Machine

variable {P : State → Prop}

@[simp] theorem State.exStack_wf (s : State) (c : Ctx) (hi : s.Wf) : (s.exStack c).Wf := by simp [State.exStack, hi]

@[simp] theorem State.exDiverge_wf (s : State) (c : Ctx) (hi : s.Wf) : (s.exDiverge c).Wf := by simp [State.exDiverge, hi]

@[simp] theorem State.jump_wf_iff (s : State) (c : Ctx) (ls : Laneset) (pc : Nat) : (s.jump c ls pc).Wf ↔ s.Wf := by simp [State.jump]

@[simp] theorem execBra_wf (g l : Nat) (s : State) (hi : s.Wf) : Out.Wf (execBra g l s) := by
  refine Out.wf_next (s.meet_wf _ _ _ _ hi (fun s c h => ?_))
  dsimp only
  repeat' split
  all_goals simp [h]

@[simp] theorem execBrx_wf (g l : Nat) (s : State) (hi : s.Wf) : Out.Wf (execBrx g l s) := by
  refine Out.wf_next (s.meet_wf _ _ _ _ hi (fun s c h => ?_))
  dsimp only
  split
  · simp [h]
  refine s.operands_wf _ _ _ _ h (fun s h => ?_)
  split
  · simp [h]
  · split <;> simp [h]

@[simp] theorem execCallB_wf (g l : Nat) (s : State) (hi : s.Wf) : Out.Wf (execCallB g l s) := by
  refine Out.wf_next (s.meet_wf _ _ _ _ hi (fun s c h => ?_))
  repeat' split
  all_goals simp [h]

@[simp] theorem execRetB_wf (g l : Nat) (s : State) (hi : s.Wf) : Out.Wf (execRetB g l s) := by
  refine Out.wf_next (s.meet_wf _ _ _ _ hi (fun s c h => ?_))
  repeat' split
  all_goals simp [h]

@[simp] theorem State.retryBndy_wf (s : State) (c : Ctx) (hi : s.Wf) : (s.retryBndy c).Wf := by
  unfold State.retryBndy
  repeat' split
  all_goals simp [hi]

@[simp] theorem execExitL_wf (g l : Nat) (s : State) (hi : s.Wf) : Out.Wf (execExitL g l s) := by
  refine Out.wf_next (s.meet_wf _ _ _ _ hi (fun s c h => ?_))
  dsimp only
  repeat' split
  all_goals simp [h]

@[simp] theorem execTrap_wf (g l : Nat) (s : State) (hi : s.Wf) : Out.Wf (execTrap g l s) := by
  refine Out.wf_next (s.meetU_wf _ _ _ _ _ hi (fun s c h => ?_))
  simp [h]

end Sys2Proof.Machine
end

section
/-! ## What the operations keep: MatrixUnit -/

namespace Sys2Proof.Machine

variable {P : State → Prop}

@[simp] theorem State.unqueue_wf_iff (s : State) (sq : Nat) (e : EngEntry) : (s.unqueue sq e).Wf ↔ s.Wf := by simp [State.unqueue]

@[simp] theorem State.scanRanges_wf (s : State) (y : Group) (rs : List (Nat × Nat)) (hi : s.Wf) : (s.scanRanges y rs).Wf := by
  simp +contextual [State.scanRanges, hi]

@[simp] theorem execMatrixStep_wf (sq : Nat) (s : State) (hi : s.Wf) : Out.Wf (execMatrixStep sq s) := by
  refine Out.wf_next ?_
  dsimp only
  repeat' split
  all_goals simp [hi]

@[simp] theorem State.engWrite_wf (s : State) (y : Group) (off : Nat) (b : List Byte) (hi : s.Wf) : (s.engWrite y off b).Wf := by
  simp [State.engWrite, hi]

@[simp] theorem State.recFill_wf (s : State) (y : Group) (ops i r : Nat) (v : FVal) (hi : s.Wf) : (s.recFill y ops i r v).Wf := by
  unfold State.recFill
  dsimp only
  repeat' split
  all_goals simp [hi]

@[simp] theorem State.recPrepare_wf (s : State) (y : Group) (ops : Nat) (rows : List RecRow) (hi : s.Wf) :
    (s.recPrepare y ops rows).Wf := by
  refine foldl_sat (fun s e h => ?_) _ _ hi
  split
  · exact h
  · exact State.recFill_wf _ _ _ _ _ _ (State.recFill_wf _ _ _ _ _ _ h)
  · exact State.recFill_wf _ _ _ _ _ _ (State.recFill_wf _ _ _ _ _ _ h)

@[simp] theorem State.recNote_wf_iff (s : State) (y : Group) (k ops : Nat) : (s.recNote y k ops).Wf ↔ s.Wf := by
  unfold State.recNote
  split <;> simp

@[simp] theorem State.drain_wf (s : State) (sq : Nat) (y : Group) (e : EngEntry) (acc k out ops : Nat) (hi : s.Wf) :
    (s.drain sq y e acc k out ops).Wf := by simp +contextual [State.drain, hi]

@[simp] theorem execGateDrain_wf (sq : Nat) (s : State) (hi : s.Wf) : Out.Wf (execGateDrain sq s) := by
  refine Out.wf_next ?_
  extract_lets +onlyGivenNames x
  split
  · exact hi
  split
  · extract_lets +onlyGivenNames out ops list listOk rs s0 fail
    have h0 : s0.Wf := by simp [s0, hi]
    have hf (c st a) : (fail c st a).Wf := by simp [fail, h0]
    clear_value s0 fail
    split
    · exact hi
    split
    · simp [h0]
    split
    · exact hf _ _ _
    split
    · exact hf _ _ _
    split
    · exact hf _ _ _
    split
    · exact hf _ _ _
    · simp [h0]
  · simp [hi]

end Sys2Proof.Machine
end

section
/-! ## What the operations keep: Edge -/

namespace Sys2Proof.Machine

variable {P : State → Prop}

@[simp] theorem State.putPixel_wf (s : State) (fn : Nat) (c : Conv) (tscale blk y x : Nat) (vs : List FVal) (hi : s.Wf) :
    (s.putPixel fn c tscale blk y x vs).Wf := by simp [State.putPixel, hi]

theorem map_ok {ε α β : Type} {f : α → β} {v : Except ε α} {b : β} (h : v.map f = .ok b) : ∃ a, f a = b := by
  cases v with
  | error e => cases h
  | ok a => exact ⟨a, Except.ok.inj h⟩

theorem State.edgeRow_wf {s t : State} {fn : Nat} {c : Conv} {r : EdgeRun} {oy : Nat} (h : s.edgeRow fn c r oy = .ok t)
    (hi : s.Wf) : t.Wf := by
  have hw := State.vaWrite_sat memWf_frame
  obtain ⟨write, ew⟩ : ∃ f, State.vaWrite = f := ⟨_, rfl⟩
  have hp := State.putPixel_wf
  obtain ⟨put, ep⟩ : ∃ f, State.putPixel = f := ⟨_, rfl⟩
  rw [State.edgeRow] at h
  rw [ew] at hw h
  rw [ep] at hp h
  obtain ⟨px, rfl⟩ := map_ok h
  have hr : ∀ (s : State) (y x : Nat) (vs : Nat → List FVal) (n : Nat), s.Wf → ((List.range n).foldl (fun s k => put s fn c (leField
      r.blob 0 4) k y x
      (vs k)) s).Wf := fun s y x vs n h => foldl_sat (fun s k h => hp _ _ _ _ _ _ _ _ h) _ _ h
  dsimp only
  split
  · exact foldl_sat (fun s co h => hw _ _ _ _ _ h) _ _ hi
  have h1 : ∀ (s : State) (y : Nat) (p : Nat → Nat → List FVal) (n m : Nat), s.Wf → ((List.range n).foldl (fun s x => (List.range
      m).foldl (fun s k =>
      put s fn c (leField r.blob 0 4) k y x (p x k)) s) s).Wf := fun s y p n m h =>
    foldl_sat (fun s x h => hr _ _ _ _ _ h) _ _ h
  split
  · exact h1 _ _ _ _ _ hi
  · exact foldl_sat (fun s k h => h1 _ _ _ _ _ h) _ _ (h1 _ _ _ _ _ hi)

@[simp] theorem State.edgeFill_wf_iff (s : State) (ctx : Nat) : (s.edgeFill ctx).Wf ↔ s.Wf := by
  unfold State.edgeFill
  split <;> simp

@[simp] theorem State.edgeFinish_wf (s : State) (ctx : Nat) (t : Task) (rows : Nat) (st : Status) (hi : s.Wf) :
    (s.edgeFinish ctx t rows st).Wf := by
  have hw := State.vaWrite_sat memWf_frame
  unfold State.edgeFinish
  dsimp only
  split <;> simp [hw, hi]

@[simp] theorem State.edgeTake_wf (s : State) (fn op : Nat) (hi : s.Wf) : (s.edgeTake fn op).Wf := by
  have ht := State.takeTask_wf_iff
  have hr := s.ringDesc_wf edgeR fn hi
  obtain ⟨⟨s1, va, res⟩, er⟩ : ∃ r, s.ringDesc edgeR fn = r := ⟨_, rfl⟩
  rw [State.edgeTake]
  rw [er] at hr ⊢
  have h1 : s1.Wf := hr
  split
  · exact hi
  cases res with
  | error e =>
    dsimp only
    split <;> simp [ht, h1]
  | ok b =>
    dsimp only
    split
    · exact hi
    split
    · simp [ht, h1]
    split
    · simp [ht, h1]
    split
    · simp [ht, h1]
    split <;> simp [ht, h1]

@[simp] theorem execEdgeConv_wf (fn : Nat) (s : State) (hi : s.Wf) : Out.Wf (execEdgeConv fn s) := by simp [execEdgeConv, hi]

@[simp] theorem execEdgeConvt_wf (fn : Nat) (s : State) (hi : s.Wf) : Out.Wf (execEdgeConvt fn s) := by simp [execEdgeConvt, hi]

@[simp] theorem execEdgeTailDoorbell_wf (fn v : Nat) (s : State) (hi : s.Wf) : Out.Wf (execEdgeTailDoorbell fn v s) := by
  simp [execEdgeTailDoorbell, hi]

@[simp] theorem execEdgeSegmentEnd_wf (ctx : Nat) (s : State) (hi : s.Wf) : Out.Wf (execEdgeSegmentEnd ctx s) := by
  refine Out.wf_next ?_
  split
  · next t _ r0 _ _ =>
    extract_lets +onlyGivenNames c busy s0 r put
    have h0 : s0.Wf := by simp [s0, hi]
    clear_value s0
    have hf (n st) : (s0.edgeFinish ctx t n st).Wf := s0.edgeFinish_wf _ _ _ _ h0
    split
    split
    · exact hf _ _
    split
    · exact hi
    split
    · exact hi
    split
    · exact h0
    split
    · next e => exact State.edgeFinish_wf _ _ _ _ _ (State.localErr_wf e h0)
    extract_lets +onlyGivenNames cyc s1 last go
    have h1 : s1.Wf := by simp [s1, h0]
    have hg (s : State) (r : EdgeRun) (h : s.Wf) : (go s r).Wf := by
      unfold go
      split
      · exact s.edgeFinish_wf _ _ _ _ h
      split
      · exact s.edgeFinish_wf _ _ _ _ h
      · rw [State.edgeFill_wf_iff]
        exact h
    clear_value s1 go
    split
    · exact hg _ _ h1
    split
    · exact s1.edgeFinish_wf _ _ _ _ h1
    split
    · exact s1.edgeFinish_wf _ _ _ _ h1
    · next e => exact hg _ _ (State.edgeRow_wf e h1)
  · exact hi

@[simp] theorem execEdgeDescriptorComplete_wf (ctx : Nat) (s : State) (hi : s.Wf) : Out.Wf (execEdgeDescriptorComplete ctx s) := by
  refine Out.wf_next ?_
  split <;> simp [hi]

@[simp] theorem State.genFall_wf_iff (s : State) : s.genFall.Wf ↔ s.Wf := by simp [State.genFall]

@[simp] theorem State.edgeEndAll_wf (s : State) (st : Status) (hi : s.Wf) : (s.edgeEndAll st).Wf := by
  simp +contextual [State.edgeEndAll, hi]

@[simp] theorem execEdgeResidueMismatch_wf (ctx : Nat) (s : State) (hi : s.Wf) : Out.Wf (execEdgeResidueMismatch ctx s) := by
  refine Out.wf_next ?_
  split <;> simp [hi]

@[simp] theorem execEdgeThirdMismatch_wf (s : State) (hi : s.Wf) : Out.Wf (execEdgeThirdMismatch s) := by simp [execEdgeThirdMismatch, hi]

@[simp] theorem State.edgeStart_wf_iff (s : State) : s.edgeStart.Wf ↔ s.Wf := by simp [State.edgeStart]

@[simp] theorem State.edgeStop_wf_iff (s : State) : s.edgeStop.Wf ↔ s.Wf := by simp [State.edgeStop]

@[simp] theorem execEdgeEnable_wf (fn : Nat) (on : Bool) (s : State) (hi : s.Wf) : Out.Wf (execEdgeEnable fn on s) := by
  simp [execEdgeEnable, hi]

@[simp] theorem execEdgeQuiesce_wf (fn : Nat) (s : State) (hi : s.Wf) : Out.Wf (execEdgeQuiesce fn s) := by simp [execEdgeQuiesce, hi]

@[simp] theorem execEdgeReset_wf (fn : Nat) (s : State) (hi : s.Wf) : Out.Wf (execEdgeReset fn s) := by simp [execEdgeReset, hi]

@[simp] theorem execEdgeStartDone_wf (s : State) (hi : s.Wf) : Out.Wf (execEdgeStartDone s) := by simp [execEdgeStartDone, hi]

@[simp] theorem execEdgeStopDone_wf (s : State) (hi : s.Wf) : Out.Wf (execEdgeStopDone s) := by simp [execEdgeStopDone, hi]

end Sys2Proof.Machine
end

section
/-! ## What the operations keep: InputQ -/

namespace Sys2Proof.Machine

variable {P : State → Prop}

@[simp] theorem State.setBq_wf_iff (s : State) (k : Nat) (q : BatchQ) : (s.setBq k q).Wf ↔ s.Wf := by simp [State.setBq]

@[simp] theorem State.setSess_sat_iff (hP : Frame P) (s : State) (n : Nat) (x : Session) : (s.setSess n x).Sat P ↔ s.Sat P := by
  simp [State.setSess, hP]

@[simp] theorem State.putTiles_wf (s : State) (k : Nat) (q : BatchQ) (place : Nat) (vals : Option (Nat → Nat → Nat → Nat))
    (hi : s.Wf) : (s.putTiles k q place vals).Wf := by
  have hp := State.putPixel_wf
  unfold State.putTiles
  exact foldl_sat (fun s y h => foldl_sat (fun s x h => hp _ _ _ _ _ _ _ _ h) _ _ h) _ _ hi

@[simp] theorem State.bqConsume_wf_iff (s : State) (k : Nat) : (s.bqConsume k).Wf ↔ s.Wf := by
  unfold State.bqConsume
  dsimp only
  repeat' split
  all_goals simp

@[simp] theorem State.bqOffer_wf_iff (s : State) (k : Nat) (f : FrameInfo) : (s.bqOffer k f).Wf ↔ s.Wf := by simp [State.bqOffer]

@[simp] theorem State.frameOffer_wf_iff (s : State) (f : FrameInfo) : (s.frameOffer f).Wf ↔ s.Wf := by simp [State.frameOffer]

@[simp] theorem State.frameClose_wf (s : State) (src : Nat)
    (f : State → BatchQ → Sample → Sample × Option (Nat → Nat → Nat → Nat) × List Byte) (hi : s.Wf) :
    (s.frameClose src f).Wf := by
  have hw := State.vaWrite_sat memWf_frame
  have hp := State.putTiles_wf
  unfold State.frameClose
  refine foldl_sat (fun s k h => ?_) _ _ hi
  extract_lets q
  split
  · exact h
  split
  · exact h
  · next i _ =>
    extract_lets r p s1 s2
    have h1 : s1.Wf := hp _ _ _ _ _ h
    have h2 : s2.Wf := by
      unfold s2
      split
      · exact hw _ _ _ _ _ h1
      · exact h1
    simp [h2]

@[simp] theorem State.frameFail_wf (s : State) (src : Nat) (hi : s.Wf) : (s.frameFail src).Wf := by simp [State.frameFail, hi]

@[simp] theorem execBatchGroupWindowExpiry_wf (bq : Nat) (s : State) (hi : s.Wf) : Out.Wf (execBatchGroupWindowExpiry bq s) := by
  simp +contextual [execBatchGroupWindowExpiry, hi]

@[simp] theorem execBatchComplete_wf (bq : Nat) (s : State) (hi : s.Wf) : Out.Wf (execBatchComplete bq s) := by simp [execBatchComplete, hi]

end Sys2Proof.Machine
end

section
/-! ## What the operations keep: Input -/

namespace Sys2Proof.Machine

variable {P : State → Prop}

@[simp] theorem State.setCap_wf_iff (s : State) (v : Nat) (x : Capture) : (s.setCap v x).Wf ↔ s.Wf := by simp [State.setCap]

@[simp] theorem State.csiIrq_wf_iff (s : State) (i : Nat) : (s.csiIrq i).Wf ↔ s.Wf := by
  unfold State.csiIrq
  split <;> simp

@[simp] theorem State.feLoad_wf_iff (s : State) (v : Nat) : (s.feLoad v).Wf ↔ s.Wf := by
  unfold State.feLoad
  dsimp only
  repeat' split
  all_goals simp

@[simp] theorem execCsiPbArm_wf (fn v : Nat) (s : State) (hi : s.Wf) : Out.Wf (execCsiPbArm fn v s) := by simp [execCsiPbArm, hi]

@[simp] theorem State.frameDrop_wf (s : State) (vc : Nat) (irq : Bool) (hi : s.Wf) : (s.frameDrop vc irq).Wf := by
  simp [State.frameDrop, hi]

@[simp] theorem execCsiFrameStart_wf (vc num : Nat) (s : State) (hi : s.Wf) : Out.Wf (execCsiFrameStart vc num s) := by
  refine Out.wf_next ?_
  dsimp only
  repeat' split
  all_goals simp [hi]

@[simp] theorem State.levelOffer_wf_iff (s : State) (vc : Nat) : (s.levelOffer vc).Wf ↔ s.Wf := by
  unfold State.levelOffer
  dsimp only
  repeat' split
  all_goals simp

@[simp] theorem execCsiLine_wf (vc : Nat) (good : Bool) (data : List Nat) (s : State) (hi : s.Wf) :
    Out.Wf (execCsiLine vc good data s) := by simp [execCsiLine, hi]

@[simp] theorem execCsiFrameEnd_wf (vc _num : Nat) (s : State) (hi : s.Wf) : Out.Wf (execCsiFrameEnd vc _num s) := by
  simp [execCsiFrameEnd, hi]

@[simp] theorem State.inpCmd_wf_iff (s : State) (fn v op : Nat) (f : State × Status) (h : FstWf f ↔ s.Wf) :
    (s.inpCmd fn v op f).Wf ↔ s.Wf := s.pageCmd_wf_iff _ _ _ _ _ _ _ _ _ _ f h

@[simp] theorem State.inpCmd_wf (s : State) (fn v op : Nat) (f : State × Status) (hi : s.Wf)
    (hf : FstWf f) : (s.inpCmd fn v op f).Wf := s.pageCmd_wf _ _ _ _ _ _ _ _ _ _ f hi hf

@[simp] theorem execBqCreate_wf (fn v : Nat) (s : State) (hi : s.Wf) : Out.Wf (execBqCreate fn v s) := by
  refine Out.wf_next (State.inpCmd_wf _ _ _ _ _ hi ?_)
  extract_lets +onlyGivenNames k used
  split
  · exact hi
  extract_lets +onlyGivenNames q
  split
  · exact hi
  split
  · exact hi
  split
  · exact hi
  · exact FstSat.mk (State.vaWrite_sat memWf_frame _ _ _ _ _ (by simpa using hi))

@[simp] theorem execBqDelete_wf (fn v : Nat) (s : State) (hi : s.Wf) : Out.Wf (execBqDelete fn v s) := by simp [execBqDelete, hi]

@[simp] theorem execSessOpen_wf (fn v : Nat) (s : State) (hi : s.Wf) : Out.Wf (execSessOpen fn v s) := by
  refine Out.wf_next ?_
  repeat' split
  all_goals simp [hi]

@[simp] theorem execSessClose_wf (fn v : Nat) (s : State) (hi : s.Wf) : Out.Wf (execSessClose fn v s) := by simp [execSessClose, hi]

@[simp] theorem execSessReset_wf (fn v : Nat) (s : State) (hi : s.Wf) : Out.Wf (execSessReset fn v s) := by simp [execSessReset, hi]

@[simp] theorem execSessTailDoorbell_wf (fn v : Nat) (s : State) (hi : s.Wf) : Out.Wf (execSessTailDoorbell fn v s) := by
  refine Out.wf_next ?_
  dsimp only
  repeat' split
  all_goals simp [hi]

@[simp] theorem execAugTailDoorbell_wf (fn v : Nat) (s : State) (hi : s.Wf) : Out.Wf (execAugTailDoorbell fn v s) := by
  refine Out.wf_next ?_
  dsimp only
  repeat' split
  all_goals simp [hi]

@[simp] theorem State.sessError_wf_iff (s : State) (n : Nat) (st : Status) : (s.sessError n st).Wf ↔ s.Wf := by simp [State.sessError]

@[simp] theorem execDecodePicture_wf (n : Nat) (s : State) (hi : s.Wf) : Out.Wf (execDecodePicture n s) := by
  refine Out.wf_next ?_
  dsimp only
  repeat' split
  all_goals simp [hi]

@[simp] theorem State.sessGive_wf (n fuel : Nat) : ∀ s : State, s.Wf → (State.sessGive n fuel s).Wf := by
  have hc := State.frameClose_wf
  induction fuel with
  | zero => exact fun s hi => hi
  | succ fuel ih =>
    intro s hi
    rw [State.sessGive]
    extract_lets +onlyGivenNames x
    split
    · exact hi
    split
    · exact hi
    extract_lets +onlyGivenNames s1 stuck
    have h1 : s1.Wf := by simp [s1, hi]
    split
    · refine foldl_sat (fun s k h => ?_) _ _ h1
      dsimp only
      split <;> simp [h]
    · extract_lets +onlyGivenNames d s2 s3
      exact ih _ (hc _ _ _ (by simp [s3, s2, h1]))

@[simp] theorem execDecodePictureDone_wf (n concealed : Nat) (s : State) (hi : s.Wf) : Out.Wf (execDecodePictureDone n concealed s) := by
  refine Out.wf_next ?_
  dsimp only
  repeat' split
  all_goals simp [hi]

@[simp] theorem execBqConsumedPoll_wf (bq : Nat) (s : State) (hi : s.Wf) : Out.Wf (execBqConsumedPoll bq s) := by
  simp +contextual [execBqConsumedPoll, hi]

@[simp] theorem State.inputDiscard_wf_iff (s : State) : s.inputDiscard.Wf ↔ s.Wf := by simp [State.inputDiscard]

@[simp] theorem State.inputStart_wf_iff (s : State) : s.inputStart.Wf ↔ s.Wf := by simp [State.inputStart]

@[simp] theorem State.inputStop_wf_iff (s : State) : s.inputStop.Wf ↔ s.Wf := by simp [State.inputStop]

@[simp] theorem State.inputCtl_wf_iff (s : State) (fn : Nat) (f : State) (h : f.Wf ↔ s.Wf) : (s.inputCtl fn f).Wf ↔ s.Wf :=
  s.ctlWrite_wf_iff fn 0x0E _ _ f h

@[simp] theorem execInputEnable_wf (fn : Nat) (on : Bool) (s : State) (hi : s.Wf) : Out.Wf (execInputEnable fn on s) := by
  simp [execInputEnable, hi]

@[simp] theorem execInputQuiesce_wf (fn : Nat) (s : State) (hi : s.Wf) : Out.Wf (execInputQuiesce fn s) := by simp [execInputQuiesce, hi]

@[simp] theorem execInputStartDone_wf (s : State) (hi : s.Wf) : Out.Wf (execInputStartDone s) := by simp [execInputStartDone, hi]

@[simp] theorem execInputStopDone_wf (s : State) (hi : s.Wf) : Out.Wf (execInputStopDone s) := by simp [execInputStopDone, hi]

@[simp] theorem State.inputCompute_wf_iff (s : State) : s.inputCompute.Wf ↔ s.Wf := by simp [State.inputCompute]

@[simp] theorem State.inputBoard_wf_iff (s : State) : s.inputBoard.Wf ↔ s.Wf := by simp [State.inputBoard]

@[simp] theorem State.inputExit_wf_iff (s : State) : s.inputExit.Wf ↔ s.Wf := by simp [State.inputExit]

@[simp] theorem State.inputRelease_sat_iff (hP : Frame P) (s : State) (fn : Nat) : (s.inputRelease fn).Sat P ↔ s.Sat P := by
  simp [State.inputRelease, hP]

end Sys2Proof.Machine
end

section
/-! ## What the operations keep: Eth -/

namespace Sys2Proof.Machine

variable {P : State → Prop}

@[simp] theorem State.setEthPort_wf_iff (s : State) (p : Nat) (x : EthPort) : (s.setEthPort p x).Wf ↔ s.Wf := by simp [State.setEthPort]

@[simp] theorem State.ethIrq_wf_iff (s : State) (p i : Nat) : (s.ethIrq p i).Wf ↔ s.Wf := by simp [State.ethIrq]

@[simp] theorem State.readEthBlock_wf (s : State) (fn va : Nat) (hi : s.Wf) : FstWf (s.readEthBlock fn va) := by
  have hr := State.vaRead_sat memWf_frame
  unfold State.readEthBlock
  split
  · next e => exact FstSat.of_eq (hr _ _ _ _ _ hi) e
  · next e =>
    have h1 := FstSat.of_eq (hr _ _ _ _ _ hi) e
    dsimp only
    split
    · exact h1
    · split
      · next e2 => exact FstSat.of_eq (hr _ _ _ _ _ h1) e2
      · next e2 => exact FstSat.of_eq (hr _ _ _ _ _ h1) e2

@[simp] theorem execEthPbLoad_wf (fn port v : Nat) (s : State) (hi : s.Wf) : Out.Wf (execEthPbLoad fn port v s) := by
  refine Out.wf_next ?_
  split
  · exact hi
  refine State.gated_wf _ _ _ _ _ hi ?_
  split
  · simp [hi]
  split
  · simp [hi]
  extract_lets +onlyGivenNames s1 va
  have h1 : s1.Wf := by simp [s1, hi]
  clear_value s1
  split
  · next e => simp [FstSat.of_eq (s1.readEthBlock_wf fn va h1) e]
  · next e =>
    have h2 := FstSat.of_eq (s1.readEthBlock_wf fn va h1) e
    split <;> simp [h2]

@[simp] theorem State.ethTail_wf_iff (s : State) (fn p v off : Nat) (r : EthRing) : (s.ethTail fn p v off r).Wf ↔ s.Wf := by
  unfold State.ethTail
  split <;> simp

@[simp] theorem State.ethDoorbell_wf_iff (s : State) (fn p v : Nat) (r : EthRing) : (s.ethDoorbell fn p v r).Wf ↔ s.Wf := by
  simp [State.ethDoorbell]

@[simp] theorem execEthTxDoorbell_wf (fn port v : Nat) (s : State) (hi : s.Wf) : Out.Wf (execEthTxDoorbell fn port v s) := by
  simp [execEthTxDoorbell, hi]

@[simp] theorem execEthRxDoorbell_wf (fn port v : Nat) (s : State) (hi : s.Wf) : Out.Wf (execEthRxDoorbell fn port v s) := by
  simp [execEthRxDoorbell, hi]

@[simp] theorem State.ethComplete_wf (s : State) (p : Nat) (r : EthRing) (b d : List Byte) (st : Status) (len : Nat) (stamp : Option Nat)
    (hi : s.Wf) :
    (s.ethComplete p r b d st len stamp).Wf := by simp [State.ethComplete, hi]

@[simp] theorem State.ethCancel_wf (s : State) (p : Nat) (r : EthRing) (hi : s.Wf) : (s.ethCancel p r).Wf := by
  have hr := State.vaRead_sat memWf_frame
  have hc := State.ethComplete_wf
  unfold State.ethCancel
  split
  · exact hi
  · refine foldl_sat (fun s k h => ?_) _ _ hi
    dsimp only
    split
    · next e => exact hc _ _ _ _ _ _ _ _ (FstSat.of_eq (hr _ _ _ _ _ h) e)
    · next e => exact hc _ _ _ _ _ _ _ _ (FstSat.of_eq (hr _ _ _ _ _ h) e)

@[simp] theorem State.ethCancelPort_wf (s : State) (p : Nat) (hi : s.Wf) : (s.ethCancelPort p).Wf := by simp [State.ethCancelPort, hi]

@[simp] theorem State.ethSend_wf (s : State) (p : Nat) (b d : List Byte) (hi : s.Wf) : (s.ethSend p b d).Wf := by
  have hr := State.vaRead_sat memWf_frame
  have hc := State.ethComplete_wf
  unfold State.ethSend
  dsimp only
  split
  · exact hc _ _ _ _ _ _ _ _ hi
  split
  · next e => exact hc _ _ _ _ _ _ _ _ (FstSat.of_eq (hr _ _ _ _ _ hi) e)
  · next e =>
    have h1 := FstSat.of_eq (hr _ _ _ _ _ hi) e
    split
    · exact hc _ _ _ _ _ _ _ _ h1
    split
    · exact hi
    · exact hc _ _ _ _ _ _ _ _ (by simp [h1])

@[simp] theorem execEthTxComplete_wf (port : Nat) (s : State) (hi : s.Wf) : Out.Wf (execEthTxComplete port s) := by
  refine Out.wf_next ?_
  split
  · exact hi
  split
  · exact hi
  extract_lets +onlyGivenNames va
  have h1 := s.vaRead_sat memWf_frame (s.ethFn port) .engine va 32 hi
  split
  · next e => exact FstSat.of_eq h1 e
  · next e => exact State.ethComplete_wf _ _ _ _ _ _ _ _ (FstSat.of_eq h1 e)
  · next e =>
    split
    · exact hi
    · exact State.ethSend_wf _ _ _ _ (FstSat.of_eq h1 e)

@[simp] theorem State.ethDrop_wf_iff (s : State) (p : Nat) : (s.ethDrop p).Wf ↔ s.Wf := by simp [State.ethDrop]

@[simp] theorem State.ethReceive_wf (s : State) (p : Nat) (b frame : List Byte) (hi : s.Wf) :
    (s.ethReceive p b frame).Wf := by
  have hr := State.vaRead_sat memWf_frame
  have hw := State.vaWrite_sat memWf_frame
  have hc := State.ethComplete_wf
  unfold State.ethReceive
  dsimp only
  split
  · next e => simp [FstSat.of_eq (hr _ _ _ _ _ hi) e]
  · next e =>
    have h1 := FstSat.of_eq (hr _ _ _ _ _ hi) e
    split
    · simp [h1]
    split
    · next e2 => simp [hc, FstSat.of_eq (hw _ _ _ _ _ h1) e2]
    · next e2 => simp [hc, FstSat.of_eq (hw _ _ _ _ _ h1) e2]

@[simp] theorem execEthFrameRx_wf (port : Nat) (frame : List Byte) (fcsOk : Bool) (s : State) (hi : s.Wf) :
    Out.Wf (execEthFrameRx port frame fcsOk s) := by
  refine Out.wf_next ?_
  split <;> simp [hi]

@[simp] theorem execEthLinkDown_wf (port : Nat) (s : State) (hi : s.Wf) : Out.Wf (execEthLinkDown port s) := by simp [execEthLinkDown, hi]

@[simp] theorem State.ethUp_wf_iff (s : State) (p rate : Nat) : (s.ethUp p rate).Wf ↔ s.Wf := by simp [State.ethUp]

end Sys2Proof.Machine
end

section
/-! ## What the operations keep: MoverDesc -/

namespace Sys2Proof.Machine

variable {P : State → Prop}

@[simp] theorem State.lineWrite_wf (s : State) (fn : Nat) (l : Nat × Nat) (data : List Byte) (hi : s.Wf) : (s.lineWrite fn l data).Wf := by
  unfold State.lineWrite
  split <;> simp [hi]

@[simp] theorem State.traceRun_wf (s : State) (fn : Nat) (acc : Acc) (start step size n : Nat) (hi : s.Wf) :
    (s.traceRun fn acc start step size n).Wf := by simp +contextual [State.traceRun, hi]

@[simp] theorem State.farVirtual_wf (s : State) (fn : Nat) (b : List Byte) (hi : s.Wf) :
    FstWf (s.farVirtual fn b) := by
  unfold State.farVirtual
  extract_lets acc s1
  have h1 : s1.Wf := by simp [s1, hi]
  split
  · split
    · exact (State.noteHeld_sat_iff memWf_frame _).mpr h1
    · exact h1
  · split
    · exact (State.noteHeld_sat_iff memWf_frame _).mpr h1
    · exact h1

@[simp] theorem State.farLines_wf (s : State) (fn job : Nat) (b : List Byte) (hi : s.Wf) : FstWf (s.farLines fn job b) := by
  unfold State.farLines
  repeat' split
  all_goals simp [hi]

@[simp] theorem State.fbLines_wf (s : State) (fn : Nat) (x : Group) (b : List Byte) (hi : s.Wf) :
    FstWf (s.fbLines fn x b) := by
  unfold State.fbLines
  extract_lets +onlyGivenNames side
  split
  · exact hi
  split
  · exact hi
  extract_lets s1
  have h1 : s1.Wf := by simp [s1, hi]
  split
  · split
    · exact (State.noteHeld_sat_iff memWf_frame _).mpr h1
    · exact h1
  · split
    · exact h1
    · exact h1

end Sys2Proof.Machine
end

section
/-! ## What the operations keep: Movers -/

namespace Sys2Proof.Machine

variable {P : State → Prop}

@[simp] theorem State.setFlight_wf_iff (s : State) (sq mv : Nat) (f : Option Flight) : (s.setFlight sq mv f).Wf ↔ s.Wf := by
  simp [State.setFlight]

@[simp] theorem State.setEntry_wf (s : State) (id : Nat) (e : RsvEntry) (hi : s.Wf) : (s.setEntry id e).Wf := by simp [State.setEntry, hi]

@[simp] theorem State.noAlloc_wf_iff (s : State) (fn : Nat) : (s.noAlloc fn).Wf ↔ s.Wf := by simp [State.noAlloc]

@[simp] theorem State.pinEntry_wf (s : State) (id : Nat) (e : RsvEntry) (hi : s.Wf) : FstWf (s.pinEntry id e) := by
  simp [State.pinEntry, hi]

@[simp] theorem State.lookRun_wf (s : State) (fn sq : Nat) (f : Flight) (hi : s.Wf) : FstWf (s.lookRun fn sq f) := by
  unfold State.lookRun
  extract_lets +onlyGivenNames b fetch
  split
  · next id e _ =>
    split
    · dsimp only
      split <;> simp [hi]
    · extract_lets +onlyGivenNames e1 s1
      have h1 : s1.Wf := by simp [s1, hi]
      have hp : FstWf (if dPin b then s1.pinEntry id e1 else (s1, true)) := by
        split
        · exact s1.pinEntry_wf _ _ h1
        · exact h1
      split
      next e2 =>
      have h2 := FstSat.of_eq hp e2
      dsimp only
      split
      · exact h2
      · exact h2
  · extract_lets +onlyGivenNames s1 id
    have h1 : s1.Wf := by simp [s1, hi]
    have ht := fun n slice use => s1.takePages_wf fn n slice use h1
    split
    · next e2 =>
      have h2 := FstSat.of_eq (ht _ _ _) e2
      simp [h2]
    · next e2 =>
      have h2 := FstSat.of_eq (ht _ _ _) e2
      split
      · split <;> simp [h2]
      · exact h2

@[simp] theorem State.spoilEntry_wf (s : State) (id : Nat) (hi : s.Wf) : (s.spoilEntry id).Wf := by
  unfold State.spoilEntry
  split <;> simp [hi]

@[simp] theorem State.endFill_wf (s : State) (id : Nat) (pin : Bool) (hi : s.Wf) : FstWf (s.endFill id pin) := by
  unfold State.endFill
  split <;> simp [hi]

@[simp] theorem State.unpinRun_wf (s : State) (fn : Nat) (b : List Byte) (hi : s.Wf) : (s.unpinRun fn b).Wf := by
  unfold State.unpinRun
  split <;> simp [hi]

@[simp] theorem State.invalRun_wf (s : State) (fn : Nat) (b : List Byte) (hi : s.Wf) : (s.invalRun fn b).Wf := by
  simp +contextual [State.invalRun, hi]

@[simp] theorem State.startFetch_wf (s : State) (sq : Nat) (x : Group) (j : Job) (f : Flight) (hi : s.Wf) :
    FstWf (s.startFetch sq x j f) := by
  have hf := State.farLines_wf
  obtain ⟨far, ef⟩ : ∃ f, State.farLines = f := ⟨_, rfl⟩
  have hb := State.fbLines_wf
  obtain ⟨fb, eb⟩ : ∃ f, State.fbLines = f := ⟨_, rfl⟩
  unfold State.startFetch
  rw [ef] at hf ⊢
  rw [eb] at hb ⊢
  extract_lets +onlyGivenNames b due past
  have h0 : FstWf (if past = true then (s, .ok []) else far s j.fn x.job b) := by
    split
    · exact hi
    · exact hf _ _ _ _ hi
  split
  · next e => exact FstSat.of_eq h0 e
  · next e =>
    have h1 := FstSat.of_eq h0 e
    split
    · next e2 => exact FstSat.of_eq (hb _ _ _ _ h1) e2
    · next e2 =>
      have h2 := FstSat.of_eq (hb _ _ _ _ h1) e2
      dsimp only
      split
      · exact h2
      · exact State.lookRun_wf _ _ _ _ h2

@[simp] theorem State.startStore_wf (s : State) (x : Group) (j : Job) (f : Flight) (hi : s.Wf) :
    FstWf (s.startStore x j f) := by
  have hf := fun b => s.farLines_wf j.fn x.job b hi
  unfold State.startStore
  extract_lets b fs
  split
  · exact hi
  split
  · next e => exact FstSat.of_eq (hf _) e
  · next e => exact FstSat.of_eq (hf _) e

@[simp] theorem State.startDesc_wf (s : State) (sq : Nat) (x : Group) (j : Job) (f : Flight) (hi : s.Wf) :
    FstWf (s.startDesc sq x j f) := by
  unfold State.startDesc
  split <;> simp [hi]

@[simp] theorem State.takeDesc_wf (s : State) (sq mv : Nat) (mine : List Byte → Bool) (hi : s.Wf) : (s.takeDesc sq mv mine).Wf := by
  unfold State.takeDesc
  dsimp only
  repeat' split
  all_goals simp [hi]

@[simp] theorem execMoverFetch_wf (sq mv : Nat) (s : State) (hi : s.Wf) : Out.Wf (execMoverFetch sq mv s) := by simp [execMoverFetch, hi]

@[simp] theorem execMoverStore_wf (sq mv : Nat) (s : State) (hi : s.Wf) : Out.Wf (execMoverStore sq mv s) := by simp [execMoverStore, hi]

@[simp] theorem execMoverBcastStore_wf (sq mv : Nat) (s : State) (hi : s.Wf) : Out.Wf (execMoverBcastStore sq mv s) := by
  simp [execMoverBcastStore, hi]

@[simp] theorem execMoverPrefetch_wf (sq mv : Nat) (s : State) (hi : s.Wf) : Out.Wf (execMoverPrefetch sq mv s) := by
  simp [execMoverPrefetch, hi]

@[simp] theorem execMoverUnpin_wf (sq mv : Nat) (s : State) (hi : s.Wf) : Out.Wf (execMoverUnpin sq mv s) := by simp [execMoverUnpin, hi]

@[simp] theorem execMoverInval_wf (sq mv : Nat) (s : State) (hi : s.Wf) : Out.Wf (execMoverInval sq mv s) := by simp [execMoverInval, hi]

@[simp] theorem State.putLine_wf (s : State) (x : Group) (off : Nat) (data : List Byte) (poison : Bool) (hi : s.Wf) :
    (s.putLine x off data poison).Wf := by simp [State.putLine, hi]

@[simp] theorem State.copyLines_wf (s : State) (fn : Nat) (x : Group) (b : List Byte) (src : List (Nat × Nat)) (ks : List Nat)
    (hi : s.Wf) : (s.copyLines fn x b src ks).Wf := by
  refine foldl_sat (fun s k h => ?_) _ _ hi
  split
  · exact s.putLine_wf _ _ _ _ h
  · exact h

@[simp] theorem State.fillLines_wf (s : State) (fn id : Nat) (src : List (Nat × Nat)) (ks : List Nat) (hi : s.Wf) :
    (s.fillLines fn id src ks).Wf := by
  unfold State.fillLines
  split
  · exact hi
  · refine foldl_sat (fun s k h => ?_) _ _ hi
    split
    · exact s.tierWrite_sat memWf_frame _ _ _ _ h
    · exact h

@[simp] theorem State.scanLines_wf (s : State) (src : List (Nat × Nat)) (ks : List Nat) (hi : s.Wf) : (s.scanLines src ks).Wf := by
  simp +contextual [State.scanLines, hi]

@[simp] theorem State.useFallback_wf (s : State) (fn : Nat) (x : Group) (f : Flight) (i : Nat) (hi : s.Wf) :
    FstWf (s.useFallback fn x f i) := by simp [State.useFallback, hi]

@[simp] theorem State.countSource_wf_iff (s old : State) (fn : Nat) (src : List (Nat × Nat)) (ks : List Nat) :
    (s.countSource old fn src ks).Wf ↔ s.Wf := by simp [State.countSource]

@[simp] theorem State.arrive_wf (s : State) (fn : Nat) (x : Group) (f : Flight) (i : Nat) (hi : s.Wf) :
    FstWf (s.arrive fn x f i) := by
  unfold State.arrive
  extract_lets ks f' old s0 bad s1
  have h0 : s0.Wf := by simp [s0, hi]
  have h1 : s1.Wf := by
    unfold s1
    split
    · split <;> simp [h0]
    · exact h0
  split
  · exact h1
  split
  · simp [h1]
  · exact s1.copyLines_wf _ _ _ _ _ h1

@[simp] theorem State.miss_wf (s : State) (fn : Nat) (x : Group) (f : Flight) (i : Nat) (hi : s.Wf) :
    FstWf (s.miss fn x f i) := by
  unfold State.miss
  dsimp only
  split
  · simp [hi]
  · refine foldl_sat (fun s k h => ?_) _ _ hi
    exact s.putLine_wf _ _ _ _ h

@[simp] theorem execTileArrival_wf (sq mv tile : Nat) (s : State) (hi : s.Wf) : Out.Wf (execTileArrival sq mv tile s) := by
  refine Out.wf_next ?_
  dsimp only
  repeat' split
  all_goals simp [hi]

@[simp] theorem execTileDeadlineExpiry_wf (sq mv : Nat) (s : State) (hi : s.Wf) :
    Out.Wf (execTileDeadlineExpiry sq mv s) := by
  refine Out.wf_next ?_
  split
  · exact hi
  split
  · exact hi
  split
  · exact hi
  split
  · exact hi
  · next f _ _ x _ _ j _ _ =>
    have h0 : (match f.entry with | some id => s.dropEntry id | none => s).Wf := by
      split
      · exact s.dropEntry_sat memWf_frame _ hi
      · exact hi
    have h1 := foldl_fstSat (f := fun (a : State × Flight) i => a.1.miss j.fn x a.2 i) (fun a i h => a.1.miss_wf j.fn x a.2 i h)
      f.left (_, { f with entry := none }) h0
    extract_lets +onlyGivenNames s0
    split
    next e => simp [FstSat.of_eq h1 e]

@[simp] theorem State.poisonLine_wf (s : State) (fn : Nat) (l : Nat × Nat) (hi : s.Wf) : (s.poisonLine fn l).Wf := by
  unfold State.poisonLine
  split <;> simp [hi]

@[simp] theorem State.storeOut_wf (s : State) (fn : Nat) (x : Group) (f : Flight) (hi : s.Wf) :
    (s.storeOut fn x f).Wf := by
  unfold State.storeOut
  split
  · dsimp only
    split <;> simp [hi]
  · refine foldl_sat (fun s k h => ?_) _ _ hi
    split
    · next l _ =>
      extract_lets s1 s2
      have h2 : s2.Wf := by
        unfold s2
        split <;> simp [s1, h]
      split
      · exact h2
      · exact h2
    · exact h

@[simp] theorem State.bcastOut_wf (s : State) (x : Group) (f : Flight) (hi : s.Wf) : FstWf (s.bcastOut x f) := by
  unfold State.bcastOut
  extract_lets b fs rs sqs lines s0
  have h0 : s0.Wf := by
    unfold s0
    split <;> exact hi
  refine foldl_fstSat (fun a q h => ?_) _ _ h0
  split
  · exact h
  · split
    · exact foldl_sat (fun s l h => s.putLine_wf _ _ _ _ h) _ _ h
    · exact h

@[simp] theorem State.moveOut_wf (s : State) (fn : Nat) (x : Group) (f : Flight) (hi : s.Wf) : FstWf (s.moveOut fn x f) := by
  unfold State.moveOut
  split
  · exact hi
  extract_lets s1 bad f1 s0
  have h1 : s1.Wf := foldl_sat (fun s k h => s.storeScan_sat memWf_frame _ _ _ h) _ _ hi
  have h0 : s0.Wf := by simp [s0, h1]
  split
  · exact s0.bcastOut_wf _ _ h0
  · exact s0.storeOut_wf _ _ _ h0

@[simp] theorem State.countDesc_wf_iff (s : State) (fn : Nat) (f : Flight) (st : Status) : (s.countDesc fn f st).Wf ↔ s.Wf := by
  simp [State.countDesc]

@[simp] theorem State.freeMover_wf (s : State) (sq mv : Nat) (f : Flight) (st : Status) (hi : s.Wf) : (s.freeMover sq mv f st).Wf := by
  simp [State.freeMover, hi]

@[simp] theorem State.completeDesc_wf (s : State) (sq mv : Nat) (f : Flight) (x : Group) (j : Job) (hi : s.Wf) :
    (s.completeDesc sq mv f x j).Wf := by
  have hm := s.moveOut_wf j.fn x f hi
  unfold State.completeDesc
  split
  next s1 f1 e =>
  have h1 := FstSat.of_eq hm e
  split
  next s2 refused e2 =>
  have h2 : s2.Wf := by
    split at e2
    · exact FstSat.of_eq (s1.endFill_wf _ _ h1) e2
    · exact FstSat.of_eq (p := (s1, false)) h1 e2
  extract_lets +onlyGivenNames f2 st s3 off s4
  have h3 : s3.Wf := by simp [s3, h2]
  have h4 : s4.Wf := by
    unfold s4
    split
    · simp [h3]
    · simp [State.storeWrite_sat memWf_frame, h3]
  simp [h4]

@[simp] theorem execMoverDescriptorComplete_wf (sq mv : Nat) (s : State) (hi : s.Wf) : Out.Wf (execMoverDescriptorComplete sq mv s) := by
  refine Out.wf_next ?_
  repeat' split
  all_goals simp [hi]

@[simp] theorem State.markInval_wf_iff (s : State) (fn lo hi : Nat) : (s.markInval fn lo hi).Wf ↔ s.Wf := by simp [State.markInval]

@[simp] theorem execMmuInval_wf (fn v : Nat) (s : State) (hi : s.Wf) : Out.Wf (execMmuInval fn v s) := by simp [execMmuInval, hi]

@[simp] theorem execMmuInvalComplete_wf (fn : Nat) (s : State) (hi : s.Wf) : Out.Wf (execMmuInvalComplete fn s) := by
  simp [execMmuInvalComplete, hi]

end Sys2Proof.Machine
end

section
/-! ## What the operations keep: Reset -/

namespace Sys2Proof.Machine

variable {P : State → Prop}

@[simp] theorem State.setPer_wf_iff (s : State) (c : Nat) (x : PerSt) : (s.setPer c x).Wf ↔ s.Wf := by simp [State.setPer]

@[simp] theorem State.perRelease_wf_iff (s : State) (fn : Nat) : (s.perRelease fn).Wf ↔ s.Wf := by simp [State.perRelease]

@[simp] theorem State.edgeRelease_sat_iff (hP : Frame P) (s : State) (fn : Nat) : (s.edgeRelease fn).Sat P ↔ s.Sat P :=
  (State.engRelease_sat_iff hP _ edgeR fn rfl).trans (hP.fields_iff rfl rfl rfl rfl)

@[simp] theorem State.enginesRelease_sat (hP : Frame P) (s : State) (fn : Nat) (hi : s.Sat P) : (s.enginesRelease fn).Sat P := by
  simp [State.enginesRelease, hP, hi]

@[simp] theorem State.unitsRelease_wf (s : State) (fn : Nat) (hi : s.Wf) : (s.unitsRelease fn).Wf := by
  have h2 : ([0, 1].foldl (fun (s : State) p => if s.ethRuns p && s.ethFn p == fn then s.ethCancelPort p else s)
      (s.enginesRelease fn)).Wf := by
    refine foldl_sat (fun s p h => ?_) _ _ (s.enginesRelease_sat memWf_frame _ hi)
    split
    · exact s.ethCancelPort_wf _ h
    · exact h
  exact (State.perRelease_wf_iff _ fn).mpr h2

@[simp] theorem State.forgetFn_wf_iff (s : State) (fn : Nat) : (s.forgetFn fn).Wf ↔ s.Wf := by simp [State.forgetFn]

@[simp] theorem State.silence_wf_iff (s : State) (fn : Nat) : (s.silence fn).Wf ↔ s.Wf := by simp [State.silence]

@[simp] theorem State.flr_wf (s : State) (fn : Nat) (hi : s.Wf) : (s.flr fn).Wf := by simp [State.flr, hi]

@[simp] theorem execFunctionLevelReset_wf (fn : Nat) (s : State) (hi : s.Wf) : Out.Wf (execFunctionLevelReset fn s) := by
  simp [execFunctionLevelReset, hi]

@[simp] theorem execVfEnableClear_wf (port : Nat) (s : State) (hi : s.Wf) : Out.Wf (execVfEnableClear port s) := by
  simp +contextual [execVfEnableClear, hi]

@[simp] theorem execPcieFundamentalReset_wf (port : Nat) (s : State) (hi : s.Wf) : Out.Wf (execPcieFundamentalReset port s) := by
  simp +contextual [execPcieFundamentalReset, hi]

@[simp] theorem State.devDone_wf_iff (s : State) (st : Status) : (s.devDone st).Wf ↔ s.Wf := by simp [State.devDone]

@[simp] theorem State.cycleFile_wf (s : State) (f : Nat) (hi : s.Wf) : (s.cycleFile f).Wf := by simp [State.cycleFile, hi]

@[simp] theorem State.stopFiles_wf (s : State) (hi : s.Wf) : s.stopFiles.Wf :=
  foldl_sat (fun s _ h => s.cycleFile_wf _ h) _ _ (foldl_sat (fun s _ h => s.dropEntry_sat memWf_frame _ h) _ _ hi)

@[simp] theorem State.streamReset_wf (s : State) (board : Bool) (fn h : Nat) (hi : s.Wf) : (s.streamReset board fn h).Wf := by
  unfold State.streamReset
  dsimp only
  repeat' split
  all_goals simp [hi]

@[simp] theorem State.resetJobs_wf (s : State) (board : Bool) (hi : s.Wf) : (s.resetJobs board).Wf := by
  have h2 := State.stopStarted_wf _ 1 (foldl_sat (fun s e h => by exact s.streamReset_wf board (e.1 / 16384) (e.1 % 16384) h) s.streams s
      hi)
  unfold State.resetJobs
  dsimp only
  split
  · exact h2
  · exact h2

@[simp] theorem State.boardStep4_wf (s : State) (hi : s.Wf) : s.boardStep4.Wf := by
  have he := State.edgeFinish_wf
  unfold State.boardStep4
  extract_lets +onlyGivenNames inRsv s1 s2 s3 ids s4
  have h1 : s1.Wf := foldl_sat (fun s t h => he _ _ _ _ _ h) _ _ hi
  have hk := State.slvBoard_wf _ (State.knightBoard_wf _ h1)
  have h2 : s2.Wf := by simp [s2, hk]
  have h3 : s3.Wf := by
    refine foldl_sat (fun s p h => ?_) _ _ h2
    split
    · simp [h]
    · exact h
  have h4 : s4.Wf := foldl_sat (fun s id h => s.dropEntry_sat memWf_frame _ h) _ _ h3
  obtain ⟨hd, -, -, hs⟩ := (MemSt.wf_iff _).mp h4
  exact MemSt.wf_of h4 hd rfl rfl hs

@[simp] theorem State.computeStep4_wf (s : State) (hi : s.Wf) : s.computeStep4.Wf := by
  have h1 := s.edgeEndAll_wf .cancelled hi
  have h2 := State.knightEndAll_wf _ .cancelled h1
  have h3 := State.slvEndAll_wf _ .cancelled h2
  simp [State.computeStep4, h3]

@[simp] theorem State.reloadLocked_wf (s : State) (hi : s.Wf) : s.reloadLocked.Wf := by simp [State.reloadLocked, hi]

@[simp] theorem State.beginReset_wf_iff (s : State) (compute : Bool) : (s.beginReset compute).Wf ↔ s.Wf := by simp [State.beginReset]

@[simp] theorem State.requestReset_wf_iff (s : State) (compute : Bool) : (s.requestReset compute).Wf ↔ s.Wf := by
  unfold State.requestReset
  split <;> simp

@[simp] theorem State.endReset_wf (s : State) (compute : Bool) (hi : s.Wf) : (s.endReset compute).Wf := by simp [State.endReset, hi]

@[simp] theorem execResetStepDone_wf (s : State) (hi : s.Wf) : Out.Wf (execResetStepDone s) := by
  refine Out.wf_next ?_
  split <;> simp [hi]

@[simp] theorem execDispatcherReset_wf (fn : Nat) (s : State) (hi : s.Wf) : Out.Wf (execDispatcherReset fn s) := by
  simp [execDispatcherReset, hi]

@[simp] theorem State.devCmd_wf_iff (s : State) (fn v op : Nat) (f : State → State) (h : ∀ s, (f s).Wf ↔ s.Wf) :
    (s.devCmd fn v op f).Wf ↔ s.Wf := by
  simp [State.devCmd, h]

theorem State.devCmd_wf (s : State) (fn v op : Nat) (f : State → State) (hi : s.Wf)
    (h : ∀ s, s.Wf → (f s).Wf) : (s.devCmd fn v op f).Wf := by
  have h1 := h _ hi
  have h2 := h (s.startCmd 0 Fld.DEV_CMD_STS_DONE) (by simpa using hi)
  unfold State.devCmd
  extract_lets bad
  split
  · exact hi
  split
  · simp [hi]
  · refine State.gated_wf _ _ _ _ _ hi ?_
    split
    · simp [hi]
    split
    · split
      · simp [hi]
      · exact h2
    split
    · simp [hi]
    split
    · exact h1
    · simp [hi]

@[simp] theorem execBoardReset_wf (fn v : Nat) (s : State) (hi : s.Wf) : Out.Wf (execBoardReset fn v s) := by simp [execBoardReset, hi]

@[simp] theorem execComputeReset_wf (fn v : Nat) (s : State) (hi : s.Wf) : Out.Wf (execComputeReset fn v s) := by
  simp [execComputeReset, hi]

@[simp] theorem State.testFile_wf_iff (s : State) (f : Nat) : (s.testFile f).Wf ↔ s.Wf := by simp [State.testFile]

@[simp] theorem execBistCmd_wf (fn v : Nat) (s : State) (hi : s.Wf) : Out.Wf (execBistCmd fn v s) := by simp [execBistCmd, hi]

@[simp] theorem State.endTest_wf (s : State) (failed : List Nat) (f : Nat) (hi : s.Wf) : (s.endTest failed f).Wf := by
  have h1 (s : State) (sq : Nat) : (((s.setSqSt sq sqFaultSt).setF 0 (sqFaultFld sq) 1).raiseIrq (filePage f) 0 0).Wf ↔ s.Wf := by
    simp
  have h2 (s : State) (sq : Nat) : (if s.sqSt sq = sqTest then s.setSqSt sq sqGated else s).Wf ↔ s.Wf := by simp
  simp [State.endTest, foldl_sat_iff h1, foldl_sat_iff h2, hi]

@[simp] theorem execBistDone_wf (failed : List Nat) (s : State) (hi : s.Wf) : Out.Wf (execBistDone failed s) := by
  simp +contextual [execBistDone, hi]

@[simp] theorem execReplayEnter_wf (fn v : Nat) (s : State) (hi : s.Wf) : Out.Wf (execReplayEnter fn v s) := by simp [execReplayEnter, hi]

@[simp] theorem execReplayExit_wf (fn v : Nat) (s : State) (hi : s.Wf) : Out.Wf (execReplayExit fn v s) := by simp [execReplayExit, hi]

@[simp] theorem execDispatcherCoreFailover_wf (core : Nat) (s : State) (hi : s.Wf) : Out.Wf (execDispatcherCoreFailover core s) := by
  simp [execDispatcherCoreFailover, hi]

@[simp] theorem execDispatcherCoreFault_wf (core : Nat) (s : State) (hi : s.Wf) :
    Out.Wf (execDispatcherCoreFault core s) := by
  refine Out.wf_next (State.ite_sat (fun _ => hi) (fun _ => ?_))
  exact State.settleQueues_sat memWf_frame _ (foldl_sat (fun s e h => s.stopJob_sat memWf_frame _ _ _ _ h) _ _ hi)

end Sys2Proof.Machine
end

section
/-! ## What the operations keep: Config33 -/

namespace Sys2Proof.Machine

variable {P : State → Prop}

@[simp] theorem State.bindFiles_wf_iff (s : State) (c : GlobalCfg) : (s.bindFiles c).Wf ↔ s.Wf := by simp [State.bindFiles]

@[simp] theorem State.takeFile_sat_iff (hP : Frame P) (s : State) (f : Nat) : (s.takeFile f).Sat P ↔ s.Sat P := by simp [State.takeFile, hP]

@[simp] theorem State.quiesceLost_sat (hP : Frame P) (s : State) (c : GlobalCfg) (fn : Nat) (hi : s.Sat P) :
    (s.quiesceLost c fn).Sat P := by
  unfold State.quiesceLost
  extract_lets qs fs s1 s2
  have h1 : s1.Sat P := foldl_sat (fun s q h => s.quiesceQueue_sat hP _ _ _ h) _ s hi
  have h2 : s2.Sat P := by simp [s2, hP, h1]
  split <;> simp [hP, h2]

@[simp] theorem State.beginCfg_wf (s : State) (b : List Byte) (who path : Nat) (hi : s.Wf) : (s.beginCfg b who path).Wf := by
  simp +contextual [State.beginCfg, hi]

@[simp] theorem State.clearBank_wf_iff (s : State) (bank page : Nat) : (s.clearBank bank page).Wf ↔ s.Wf := by simp [State.clearBank]

@[simp] theorem State.endQcmds_sat_iff (hP : Frame P) (s : State) (fn : Nat) (lost : Nat → Bool) :
    (s.endQcmds fn lost).Sat P ↔ s.Sat P := by simp [State.endQcmds, hP]

/-- The end of a partition's release: its queues, jobs, images and translations go, and its registers clear. -/
def State.dropPart (s : State) (fn : Nat) : State :=
  let s1 := { s with
    queues := s.queues.filter (fun e => decide (e.1 / 65536 ≠ fn)), jobs := s.jobs.filter (fun e => e.2.fn != fn),
    images := s.images.filter (fun e => decide (e.1 / 32768 ≠ fn)), parts := assocErase fn s.parts,
    mem := { s.mem with
      tlb := s.mem.tlb.filter (fun e => decide (e.1 / 2 ^ 52 ≠ fn)),
      locked := s.mem.locked.filter (fun e => decide (e.1 / 2 ^ 52 ≠ fn)) } }
  let s2 := ((s1.clearBank fn 0x06).clearBank fn 0x08).setReg fn 0x05 0x07C 0#32
  (List.range 4).foldl (fun (s : State) set => s.clearBank (setBank fn set) 0x05) s2

@[simp] theorem State.dropPart_wf_iff (s : State) (fn : Nat) : (s.dropPart fn).Wf ↔ s.Wf := by
  simp [State.dropPart]

/-- What comes before the end of a partition's release keeps every predicate that is a frame. -/
theorem State.releasePart_eq (hP : Frame P) (s : State) (fn : Nat) (hi : s.Sat P) : ∃ t :
    State, t.Sat P ∧ s.releasePart fn = t.dropPart fn := by
  have h1 : ((s.endQcmds fn fun _ => true).enginesRelease fn).Sat P :=
    State.enginesRelease_sat hP _ _ ((State.endQcmds_sat_iff hP _ _ _).mpr hi)
  have h2 (hs : List Nat) := foldl_sat (fun s h w => (State.setStream_sat_iff hP _ fn h {}).mpr (s.freeCopies_sat hP fn h w)) hs _ h1
  have h3 (hs es : List Nat) := foldl_sat (fun s id w => s.dropEntry_sat hP id w) es _ (h2 hs)
  have h4 (hs es ps : List Nat) := (State.clearTrackers_sat_iff hP _ fn).mpr (State.releasePages_sat hP _ ps (h3 hs es))
  exact ⟨_, h4 _ _ _, rfl⟩

@[simp] theorem State.releasePart_wf (s : State) (fn : Nat) (hi : s.Wf) : (s.releasePart fn).Wf := by
  obtain ⟨t, ht, e⟩ := s.releasePart_eq memWf_frame fn hi
  rw [e]
  exact (t.dropPart_wf_iff fn).mpr ht

@[simp] theorem State.devZeroUnit_sat (hP : Frame P) (s : State) (u : Nat) (hi : s.Sat P) : (s.devZeroUnit u).Sat P := by
  refine hP.mem s _ (fun h => ?_) hi
  obtain ⟨hd, hr, -, hs⟩ := (MemSt.wf_iff _).mp h
  exact MemSt.wf_of h (assocWf_cellsZero _ _ _ hd) hr rfl hs

@[simp] theorem State.zeroLost_sat (hP : Frame P) (s : State) (c : GlobalCfg) (hi : s.Sat P) : (s.zeroLost c).Sat P :=
  foldl_sat (fun s _ h => foldl_sat (fun s _ h => s.devZeroUnit_sat hP _ h) _ s h) _ s hi

@[simp] theorem State.givePart_wf_iff (s : State) (p : PartCfg) : (s.givePart p).Wf ↔ s.Wf := by simp [State.givePart]

@[simp] theorem State.rebind_wf_iff (s : State) (c : GlobalCfg) : (s.rebind c).Wf ↔ s.Wf := by simp [State.rebind]

@[simp] theorem State.setCtlOwner_sat_iff (hP : Frame P) (s : State) (ctl : Option Nat) : (s.setCtlOwner ctl).Sat P ↔ s.Sat P := by
  unfold State.setCtlOwner
  repeat' split
  all_goals simp [Fld.DEV_CTLOWN_PART, Fld.DEV_CTLOWN_V, hP]

@[simp] theorem State.applyCfg_wf (s : State) (c : GlobalCfg) (path : Nat) (hi : s.Wf) : (s.applyCfg c path).Wf := by
  have h1 := s.zeroLost_sat memWf_frame c hi
  unfold State.applyCfg
  extract_lets s1 gone s2 b0 s3 s4 s5
  have h2 : s2.Wf := foldl_sat (fun s fn h => s.releasePart_wf _ h) _ _ h1
  have h3 : s3.Wf := foldl_sat (fun s p h => by simpa using h) _ _ (by simpa using h2)
  have h4 : s4.Wf := by simp [s4, h3]
  have h5 : s5.Wf := by
    refine foldl_sat (fun s fn h => ?_) _ _ h4
    split
    · simp [h]
    · exact h
  simp [h5]

end Sys2Proof.Machine
end

section
/-! ## What the operations keep: Arbiter -/

namespace Sys2Proof.Machine

variable {P : State → Prop}

@[simp] theorem State.mgrRead_sat (hP : Frame P) (s : State) (fn va n : Nat) (hi : s.Sat P) : FstSat (s.mgrRead fn va n) P := by
  simp [State.mgrRead, hP, hi]

@[simp] theorem State.mgrWrite_sat (hP : Frame P) (s : State) (fn va : Nat) (data : List Byte) (hi : s.Sat P) :
    FstSat (s.mgrWrite fn va data) P := by simp [State.mgrWrite, hP, hi]

@[simp] theorem State.mbxDone_wf_iff (s : State) (fn : Nat) (st : Status) (payload : List Byte) : (s.mbxDone fn st payload).Wf ↔ s.Wf := by
  simp [State.mbxDone]

@[simp] theorem execArbMbxGo_wf (fn v : Nat) (s : State) (hi : s.Wf) : Out.Wf (execArbMbxGo fn v s) := by simp [execArbMbxGo, hi]

@[simp] theorem State.serveMbx_wf_iff (s : State) (fn opc : Nat) (ownerOnly : Bool) (f : State → List Byte → State)
    (h : ∀ s b, (f s b).Wf ↔ s.Wf) : (s.serveMbx fn opc ownerOnly f).Wf ↔ s.Wf := by
  simp [State.serveMbx, h]

theorem State.serveMbx_wf (s : State) (fn opc : Nat) (ownerOnly : Bool) (f : State → List Byte → State) (hi : s.Wf)
    (h : ∀ s b, s.Wf → (f s b).Wf) : (s.serveMbx fn opc ownerOnly f).Wf := by
  unfold State.serveMbx
  extract_lets req o begun
  split
  · exact hi
  split
  · simp [hi]
  split
  · exact hi
  split
  · simp [hi]
  split
  · simp [hi]
  · exact h _ _ hi

@[simp] theorem execHello_wf (fn : Nat) (s : State) (hi : s.Wf) : Out.Wf (execHello fn s) := by simp [execHello, hi]

@[simp] theorem State.ownerEvent_wf_iff (s : State) (fn : Nat) : (s.ownerEvent fn).Wf ↔ s.Wf := by simp [State.ownerEvent]

@[simp] theorem State.makeOwner_wf_iff (s : State) (fn : Nat) : (s.makeOwner fn).Wf ↔ s.Wf := by simp [State.makeOwner]

@[simp] theorem State.claimOwner_wf_iff (s : State) (fn : Nat) (arg : List Byte) : FstWf (s.claimOwner fn arg) ↔ s.Wf := by
  unfold State.claimOwner
  split <;> simp

@[simp] theorem execReleaseOwn_wf (fn : Nat) (s : State) (hi : s.Wf) : Out.Wf (execReleaseOwn fn s) :=
  Out.wf_next (State.serveMbx_wf _ _ _ _ _ hi (fun s a h => by simp [h]))

@[simp] theorem State.readBlock_sat (hP : Frame P) (s : State) (fn va : Nat) (hi : s.Sat P) : FstSat (s.readBlock fn va) P := by
  have hr := State.mgrRead_sat hP
  unfold State.readBlock
  split
  · next e => exact FstSat.of_eq (hr _ _ _ _ hi) e
  · next e =>
    have h1 := FstSat.of_eq (hr _ _ _ _ hi) e
    dsimp only
    split
    · exact h1
    · split
      · next e2 => exact FstSat.of_eq (hr _ _ _ _ h1) e2
      · next e2 => exact FstSat.of_eq (hr _ _ _ _ h1) e2

@[simp] theorem execConfigWrite_wf (fn : Nat) (s : State) (hi : s.Wf) : Out.Wf (execConfigWrite fn s) := by
  refine Out.wf_next ?_
  split
  · exact hi
  refine State.serveMbx_wf _ _ _ _ _ hi (fun s a h => ?_)
  extract_lets +onlyGivenNames va
  have hr := s.readBlock_sat memWf_frame fn va h
  split
  · simp [h]
  split
  · next e => simp [FstSat.of_eq hr e]
  · next e =>
    have h1 := FstSat.of_eq hr e
    split <;> simp [h1]

@[simp] theorem State.setHostSt_wf_iff (s : State) (p v : Nat) : (s.setHostSt p v).Wf ↔ s.Wf := by simp [State.setHostSt]

@[simp] theorem State.hostEvent_wf_iff (s : State) (p ev : Nat) : (s.hostEvent p ev).Wf ↔ s.Wf := by simp [State.hostEvent]

@[simp] theorem execConfigTakeEffect_wf (s : State) (hi : s.Wf) : Out.Wf (execConfigTakeEffect s) := by
  refine Out.wf_next ?_
  split <;> simp [hi]

@[simp] theorem execConfigRead_wf (fn : Nat) (s : State) (hi : s.Wf) : Out.Wf (execConfigRead fn s) := by
  refine Out.wf_next (State.serveMbx_wf _ _ _ _ _ hi (fun s a h => ?_))
  dsimp only
  split <;> simp [h]

@[simp] theorem State.drawScan_wf_iff (s : State) : s.drawScan.Wf ↔ s.Wf := by simp [State.drawScan]

@[simp] theorem execSensors_wf (fn : Nat) (s : State) (hi : s.Wf) : Out.Wf (execSensors fn s) := by simp [execSensors, hi]

@[simp] theorem execArbSensorScan_wf (vals : List Nat) (s : State) (hi : s.Wf) : Out.Wf (execArbSensorScan vals s) := by
  simp [execArbSensorScan, hi]

@[simp] theorem execLogRead_wf (fn : Nat) (s : State) (hi : s.Wf) : Out.Wf (execLogRead fn s) := by
  refine Out.wf_next (State.serveMbx_wf _ _ _ _ _ hi (fun s a h => ?_))
  dsimp only
  split
  · simp [h]
  split
  · simp [h]
  · split <;> simp [h]

@[simp] theorem mctpControl_wf_iff (s : State) (msg : List Byte) : FstWf (mctpControl s msg) ↔ s.Wf := by
  unfold mctpControl
  dsimp only
  repeat' split
  all_goals simp

@[simp] theorem State.mctpVendor_wf_iff (s : State) (req : List Byte) : FstWf (s.mctpVendor req) ↔ s.Wf := by
  unfold State.mctpVendor
  split <;> simp

@[simp] theorem execMctpMessage_wf (msg : List Byte) (s : State) (hi : s.Wf) : Out.Wf (execMctpMessage msg s) := by
  refine Out.wf_next ?_
  repeat' split
  all_goals simp [hi]

@[simp] theorem State.setPort_wf_iff (s : State) (p : Nat) (x : PortSt) : (s.setPort p x).Wf ↔ s.Wf := by simp [State.setPort]

@[simp] theorem execPcieLinkDown_wf (port : Nat) (s : State) (hi : s.Wf) : Out.Wf (execPcieLinkDown port s) := by
  simp [execPcieLinkDown, hi]

@[simp] theorem State.linkWins_wf_iff (s : State) (port : Nat) : (s.linkWins port).Wf ↔ s.Wf := by
  unfold State.linkWins
  split <;> simp

@[simp] theorem execPcieLinkUp_wf (port speed lanes : Nat) (s : State) (hi : s.Wf) : Out.Wf (execPcieLinkUp port speed lanes s) := by
  simp [execPcieLinkUp, hi]

@[simp] theorem execHostLost_wf (port : Nat) (s : State) (hi : s.Wf) : Out.Wf (execHostLost port s) := by
  simp +contextual [execHostLost, hi]

@[simp] theorem execGraceExpiry_wf (port : Nat) (s : State) (hi : s.Wf) : Out.Wf (execGraceExpiry port s) := by
  refine Out.wf_next ?_
  split <;> simp [hi]

end Sys2Proof.Machine
end

section
/-! ## What the operations keep: Castle -/

namespace Sys2Proof.Machine

variable {P : State → Prop}

@[simp] theorem State.cslIrq_wf_iff (s : State) (i : Nat) : (s.cslIrq i).Wf ↔ s.Wf := by
  unfold State.cslIrq
  split <;> simp

@[simp] theorem State.cslEvent_wf_iff (s : State) (what : Nat) : (s.cslEvent what).Wf ↔ s.Wf := by simp [State.cslEvent]

@[simp] theorem State.cslDone_wf_iff (s : State) (fn : Nat) (st : Status) : (s.cslDone fn st).Wf ↔ s.Wf := by simp [State.cslDone]

@[simp] theorem State.fused_wf_iff (s : State) : s.fused.Wf ↔ s.Wf := by simp [State.fused]

@[simp] theorem State.arbCommit_wf_iff (s : State) : s.arbCommit.Wf ↔ s.Wf := by simp [State.arbCommit]

@[simp] theorem State.cslChallenge_wf_iff (s : State) (fn : Nat) : FstWf (s.cslChallenge fn) ↔ s.Wf := by simp [State.cslChallenge]

@[simp] theorem State.useChallenge_wf_iff (s : State) (fn : Nat) : (s.useChallenge fn).Wf ↔ s.Wf := by simp [State.useChallenge]

@[simp] theorem State.lapseAll_wf_iff (s : State) : s.lapseAll.Wf ↔ s.Wf := by simp [State.lapseAll]

@[simp] theorem State.badSignature_wf_iff (s : State) : s.badSignature.Wf ↔ s.Wf := by simp [State.badSignature]

@[simp] theorem State.openSession_wf_iff (s : State) (st scope secs : Nat) (token : List Byte) :
    (s.openSession st scope secs token).Wf ↔ s.Wf := by simp [State.openSession]

@[simp] theorem State.closeSession_wf_iff (s : State) : s.closeSession.Wf ↔ s.Wf := by simp [State.closeSession]

@[simp] theorem State.enterRma_wf_iff (s : State) (scope secs : Nat) (token : List Byte) : (s.enterRma scope secs token).Wf ↔ s.Wf := by
  simp [State.enterRma]

@[simp] theorem State.enrol_wf_iff (s : State) (t : List Byte) : FstWf (s.enrol t) ↔ s.Wf := by simp [State.enrol]

@[simp] theorem State.revokeSlot_wf_iff (s : State) (i : Nat) : FstWf (s.revokeSlot i) ↔ s.Wf := by simp [State.revokeSlot]

@[simp] theorem State.blowPolicy_wf_iff (s : State) (m : Nat) : FstWf (s.blowPolicy m) ↔ s.Wf := by simp [State.blowPolicy]

@[simp] theorem State.tokenEffect_wf_iff (s : State) (fn : Nat) (t : List Byte) : FstWf (s.tokenEffect fn t) ↔ s.Wf := by
  unfold State.tokenEffect
  split <;> simp

@[simp] theorem State.cslToken_wf (s : State) (fn va : Nat) (hi : s.Wf) : FstWf (s.cslToken fn va) := by
  have h0 := (s.useChallenge fn).mgrRead_sat memWf_frame fn va 256 (by simpa using hi)
  unfold State.cslToken
  split
  · next e => exact FstSat.of_eq h0 e
  · next e =>
    have h1 := FstSat.of_eq h0 e
    simp [h1]

@[simp] theorem State.cslAttest_wf (s : State) (fn va : Nat) (hi : s.Wf) : FstWf (s.cslAttest fn va) := by
  have h0 := s.mgrRead_sat memWf_frame fn va 32 hi
  unfold State.cslAttest
  split
  · next e => exact FstSat.of_eq h0 e
  · next e => simp [FstSat.of_eq h0 e]

@[simp] theorem State.cslCertread_wf (s : State) (fn va : Nat) (hi : s.Wf) : FstWf (s.cslCertread fn va) := by simp [State.cslCertread, hi]

@[simp] theorem State.cslKeygen_wf_iff (s : State) (e : Nat) : FstWf (s.cslKeygen e) ↔ s.Wf := by simp [State.cslKeygen]

@[simp] theorem State.cslSign_wf (s : State) (fn va e : Nat) (hi : s.Wf) : FstWf (s.cslSign fn va e) := by
  have h0 := s.mgrRead_sat memWf_frame fn va 64 hi
  unfold State.cslSign
  split
  · exact hi
  split
  · exact hi
  split
  · next e => exact FstSat.of_eq h0 e
  · next e => simp [FstSat.of_eq h0 e]

@[simp] theorem State.showPass_wf_iff (s : State) (pass bytes : Nat) : (s.showPass pass bytes).Wf ↔ s.Wf := by simp [State.showPass]

@[simp] theorem State.cslUpdate_wf_iff (s : State) (fn va : Nat) : (s.cslUpdate fn va).Wf ↔ s.Wf := by simp [State.cslUpdate]

@[simp] theorem State.cslLockdown_wf_iff (s : State) : s.cslLockdown.Wf ↔ s.Wf := by simp [State.cslLockdown]

@[simp] theorem State.cslRun_wf (s : State) (fn v va : Nat) (hi : s.Wf) : (s.cslRun fn v va).Wf := by
  unfold State.cslRun
  dsimp only
  repeat' split
  all_goals simp [hi]

@[simp] theorem State.cslWrite_wf (s : State) (fn v : Nat) (hi : s.Wf) : (s.cslWrite fn v).Wf := by simp [State.cslWrite, hi]

@[simp] theorem State.cslCmd_wf (s : State) (fn v op : Nat) (hi : s.Wf) : (s.cslCmd fn v op).Wf := by simp [State.cslCmd, hi]

@[simp] theorem execChallenge_wf (fn v : Nat) (s : State) (hi : s.Wf) : Out.Wf (execChallenge fn v s) := by simp [execChallenge, hi]

@[simp] theorem execTokenCmd_wf (fn v : Nat) (s : State) (hi : s.Wf) : Out.Wf (execTokenCmd fn v s) := by simp [execTokenCmd, hi]

@[simp] theorem execAttest_wf (fn v : Nat) (s : State) (hi : s.Wf) : Out.Wf (execAttest fn v s) := by simp [execAttest, hi]

@[simp] theorem execCertread_wf (fn v : Nat) (s : State) (hi : s.Wf) : Out.Wf (execCertread fn v s) := by simp [execCertread, hi]

@[simp] theorem execUpdateCmd_wf (fn v : Nat) (s : State) (hi : s.Wf) : Out.Wf (execUpdateCmd fn v s) := by simp [execUpdateCmd, hi]

@[simp] theorem execArbcommit_wf (fn v : Nat) (s : State) (hi : s.Wf) : Out.Wf (execArbcommit fn v s) := by simp [execArbcommit, hi]

@[simp] theorem execLockdown_wf (fn v : Nat) (s : State) (hi : s.Wf) : Out.Wf (execLockdown fn v s) := by simp [execLockdown, hi]

@[simp] theorem execDebugEnd_wf (fn v : Nat) (s : State) (hi : s.Wf) : Out.Wf (execDebugEnd fn v s) := by simp [execDebugEnd, hi]

@[simp] theorem execKeygen_wf (fn v : Nat) (s : State) (hi : s.Wf) : Out.Wf (execKeygen fn v s) := by simp [execKeygen, hi]

@[simp] theorem execSignCmd_wf (fn v : Nat) (s : State) (hi : s.Wf) : Out.Wf (execSignCmd fn v s) := by simp [execSignCmd, hi]

@[simp] theorem State.cslDrain_wf (fuel : Nat) : ∀ s : State, s.Wf → (s.cslDrain fuel).Wf := by
  induction fuel with
  | zero => exact fun s hi => hi
  | succ fuel ih =>
    intro s hi
    unfold State.cslDrain
    split
    · exact hi
    split
    · exact hi
    · exact ih _ (State.cslRun_wf _ _ _ _ hi)

@[simp] theorem State.updEnd_wf (s : State) (u : UpdSt) (st : Status) (hi : s.Wf) : (s.updEnd u st).Wf :=
  State.cslDrain_wf _ _ (by simp [hi])

@[simp] theorem State.updBad_wf (s : State) (u : UpdSt) (st : Status) (hi : s.Wf) : (s.updBad u st).Wf := by simp [State.updBad, hi]

@[simp] theorem State.readSet_wf (s : State) (u : UpdSt) (hi : s.Wf) : FstWf (s.readSet u) := by
  have h0 := s.mgrRead_sat memWf_frame u.fn u.va 4096 hi
  unfold State.readSet
  split
  · next e => exact FstSat.of_eq h0 e
  · next e =>
    have h1 := FstSat.of_eq h0 e
    split
    · exact h1
    · exact State.mgrRead_sat memWf_frame _ _ _ _ h1

@[simp] theorem State.updPass_wf_iff (s : State) (u : UpdSt) (pass : Nat) : (s.updPass u pass).Wf ↔ s.Wf := by simp [State.updPass]

@[simp] theorem execUpdatePassDone_wf (ok : Bool) (s : State) (hi : s.Wf) : Out.Wf (execUpdatePassDone ok s) := by
  have h0 (u : UpdSt) := s.readSet_wf u hi
  refine Out.wf_next ?_
  split
  · exact hi
  split
  · split
    · next e => simp [FstSat.of_eq (h0 _) e]
    · next e =>
      have h1 := FstSat.of_eq (h0 _) e
      split <;> simp [h1]
  · split
    · simp [hi]
    split
    · next e => simp [FstSat.of_eq (h0 _) e]
    · next e =>
      have h1 := FstSat.of_eq (h0 _) e
      dsimp only
      split <;> simp [h1]
  · split <;> simp [hi]

@[simp] theorem execChallengeLapse_wf (fn : Nat) (s : State) (hi : s.Wf) : Out.Wf (execChallengeLapse fn s) := by
  simp [execChallengeLapse, hi]

@[simp] theorem execDebugExpiry_wf (s : State) (hi : s.Wf) : Out.Wf (execDebugExpiry s) := by simp [execDebugExpiry, hi]

@[simp] theorem execBackoffEnd_wf (s : State) (hi : s.Wf) : Out.Wf (execBackoffEnd s) := by
  refine Out.wf_next ?_
  split <;> simp [hi]

@[simp] theorem execTrngHealthFail_wf (count : Nat) (s : State) (hi : s.Wf) : Out.Wf (execTrngHealthFail count s) := by
  simp [execTrngHealthFail, hi]

@[simp] theorem State.rcvGated_wf_iff (s : State) (fn off : Nat) (start : Bool) (f : State) (hf : f.Wf ↔ s.Wf) :
    (s.rcvGated fn off start f).Wf ↔ s.Wf := by
  unfold State.rcvGated
  repeat' split
  all_goals simp [hf]

@[simp] theorem State.rcvGated_wf (s : State) (fn off : Nat) (start : Bool) (f : State) (hi : s.Wf) (hf : f.Wf) :
    (s.rcvGated fn off start f).Wf := by
  have h1 : f.Wf := hf
  unfold State.rcvGated
  repeat' split
  all_goals simp [hi, h1]

@[simp] theorem State.rcvStatus_wf_iff (s : State) (st : Status) : (s.rcvStatus st).Wf ↔ s.Wf := by simp [State.rcvStatus]

@[simp] theorem State.rcvFail_wf_iff (s : State) (st : Status) : (s.rcvFail st).Wf ↔ s.Wf := by simp [State.rcvFail]

@[simp] theorem execRcvStart_wf (fn v : Nat) (s : State) (hi : s.Wf) : Out.Wf (execRcvStart fn v s) := by simp [execRcvStart, hi]

@[simp] theorem execRcvWindowWrite_wf (fn off v : Nat) (s : State) (hi : s.Wf) :
    Out.Wf (execRcvWindowWrite fn off v s) := by
  refine Out.wf_next (State.rcvGated_wf _ _ _ _ _ hi ?_)
  split
  · split <;> exact hi
  · exact hi

@[simp] theorem execRcvChunk_wf (fn v : Nat) (s : State) (hi : s.Wf) : Out.Wf (execRcvChunk fn v s) := by
  refine Out.wf_next ?_
  split
  · exact hi
  refine State.rcvGated_wf _ _ _ _ _ hi ?_
  split
  · exact hi
  extract_lets +onlyGivenNames n b
  split
  · exact hi
  split
  · simp [hi]
  extract_lets bad
  clear_value bad
  cases bad <;> simp [hi]

@[simp] theorem execRcvChunkProgrammed_wf (ok : Bool) (s : State) (hi : s.Wf) : Out.Wf (execRcvChunkProgrammed ok s) := by
  refine Out.wf_next ?_
  dsimp only
  repeat' split
  all_goals simp [hi]

end Sys2Proof.Machine
end

section
/-! ## What the operations keep: Boot -/

namespace Sys2Proof.Machine

variable {P : State → Prop}

@[simp] theorem State.powerOff_wf (s : State) (causes : Nat) (trip : Bool) (hi : s.Wf) :
    (s.powerOff causes trip).Wf := by
  obtain ⟨-, -, hh, -⟩ := (MemSt.wf_iff _).mp hi
  unfold State.powerOff
  extract_lets +onlyGivenNames r q1 q2 q3 q4 s1
  have h1 : s1.Wf := (MemSt.wf_iff _).mpr ⟨rfl, rfl, hh, rfl⟩
  simp [h1]

@[simp] theorem execThermalTrip_wf (s : State) (hi : s.Wf) : Out.Wf (execThermalTrip s) := by simp [execThermalTrip, hi]

@[simp] theorem execInputBrownout_wf (s : State) (hi : s.Wf) : Out.Wf (execInputBrownout s) := by simp [execInputBrownout, hi]

@[simp] theorem execVinBelow5v_wf (s : State) (hi : s.Wf) : Out.Wf (execVinBelow5v s) := by simp [execVinBelow5v, hi]

@[simp] theorem execColdBoot_wf (s : State) (hi : s.Wf) : Out.Wf (execColdBoot s) := by simp [execColdBoot, hi]

@[simp] theorem State.toStage_wf_iff (s : State) (n : Nat) : (s.toStage n).Wf ↔ s.Wf := by simp [State.toStage]

@[simp] theorem State.bootDegraded_wf_iff (s : State) : s.bootDegraded.Wf ↔ s.Wf := by simp [State.bootDegraded]

@[simp] theorem State.takeSet_wf_iff (s : State) : s.takeSet.Wf ↔ s.Wf := by simp [State.takeSet]

@[simp] theorem State.linksDown_wf_iff (s : State) : s.linksDown.Wf ↔ s.Wf := by simp [State.linksDown]

@[simp] theorem State.trainAll_wf (s : State) (hi : s.Wf) : s.trainAll.Wf := by simp [State.trainAll, hi]

@[simp] theorem State.memoryDown_wf_iff (s : State) : s.memoryDown.Wf ↔ s.Wf := by simp [State.memoryDown]

@[simp] theorem State.memoryUp_wf (s : State) (hi : s.Wf) : s.memoryUp.Wf := by
  have h0 := s.trainAll_wf hi
  obtain ⟨-, -, -, hs⟩ := (MemSt.wf_iff _).mp h0
  unfold State.memoryUp
  extract_lets +onlyGivenNames bad s0 q s1 s2
  have h1 : s1.Wf := MemSt.wf_of h0 rfl rfl rfl hs
  have h2 : s2.Wf := by simp [s2, h1]
  clear_value s2
  split <;> simp [h2]

@[simp] theorem State.squaresUp_wf_iff (s : State) : s.squaresUp.Wf ↔ s.Wf := by simp [State.squaresUp]

@[simp] theorem State.squaresDone_wf (s : State) (hi : s.Wf) : s.squaresDone.Wf := by simp +contextual [State.squaresDone, hi]

@[simp] theorem State.showHosts_wf_iff (s : State) : s.showHosts.Wf ↔ s.Wf := by simp [State.showHosts]

@[simp] theorem State.bootConfig_wf (s : State) (hi : s.Wf) : s.bootConfig.Wf := by
  unfold State.bootConfig
  split
  · exact hi
  dsimp only
  split
  · simp [hi]
  · exact State.blockEnable_wf _ _ _ _ _ (by simp [hi]) (fun s h => h) (fun s h => s.dspStop_wf h)

@[simp] theorem State.ready_wf (s : State) (hi : s.Wf) : s.ready.Wf := by simp [State.ready, hi]

@[simp] theorem execBootStageReady_wf (ok : Bool) (s : State) (hi : s.Wf) : Out.Wf (execBootStageReady ok s) := by
  refine Out.wf_next ?_
  repeat' split
  all_goals simp [hi]

@[simp] theorem State.endRequests_wf_iff (s : State) : s.endRequests.Wf ↔ s.Wf := by simp [State.endRequests]

@[simp] theorem State.warmNow_wf (s : State) (cause : Nat) (hi : s.Wf) : (s.warmNow cause).Wf := by
  unfold State.warmNow
  extract_lets +onlyGivenNames r s0 s1 q1 q2 q3 q4 s2 s3 s4 s5 s6
  have h1 : s1.Wf := by
    unfold s1 s0
    simp [hi]
  obtain ⟨hd, -, hh, -⟩ := (MemSt.wf_iff _).mp h1
  have h2 : s2.Wf := (MemSt.wf_iff _).mpr ⟨hd, rfl, hh, rfl⟩
  simp [s6, s5, s4, s3, h2]

end Sys2Proof.Machine
end

section
/-! ## What the operations keep: PowState -/

namespace Sys2Proof.Machine

variable {P : State → Prop}

@[simp] theorem pageStart_wf_iff (p : Nat) (s : State) : (pageStart p s).Wf ↔ s.Wf := by simp [pageStart]

@[simp] theorem pageStop_wf (p : Nat) (s : State) (hi : s.Wf) : (pageStop p s).Wf := by simp [pageStop, hi]

@[simp] theorem State.holdPage_wf (s : State) (p : Nat) (hi : s.Wf) : (s.holdPage p).Wf := by
  unfold State.holdPage
  dsimp only
  split
  · exact State.blockStop_wf _ _ _ (by simpa using hi) (fun s h => pageStop_wf p s h)
  split
  · simp [hi]
  · split <;> simp [hi]

@[simp] theorem State.releasePage_wf_iff (s : State) (p : Nat) : (s.releasePage p).Wf ↔ s.Wf := by simp [State.releasePage]

@[simp] theorem State.holdFile_wf (s : State) (f : Nat) (hi : s.Wf) : (s.holdFile f).Wf := by simp [State.holdFile, hi]

@[simp] theorem State.releaseFile_wf (s : State) (f : Nat) (hi : s.Wf) : (s.releaseFile f).Wf := by simp [State.releaseFile, hi]

@[simp] theorem State.releaseAll_wf (s : State) (hi : s.Wf) : s.releaseAll.Wf := by simp +contextual [State.releaseAll, hi]

@[simp] theorem State.dspHold_wf_iff (s : State) : s.dspHold.Wf ↔ s.Wf := by simp [State.dspHold]

@[simp] theorem State.dspEnter_wf_iff (s : State) : s.dspEnter.Wf ↔ s.Wf := by simp [State.dspEnter]

@[simp] theorem State.dspResume_wf (s : State) (hi : s.Wf) : s.dspResume.Wf := by
  unfold State.dspResume
  dsimp only
  split
  · exact hi
  split
  · split
    · simp [hi]
    · exact State.blockStop_wf _ _ _ (by simpa using hi) (fun s h => s.dspStop_wf h)
  split
  · simp [hi]
  · split <;> simp [hi]

@[simp] theorem State.moveStreams_wf (s : State) (sleep : Bool) (hi : s.Wf) : (s.moveStreams sleep).Wf :=
  foldl_sat (fun s e h => State.ite_sat (fun _ => by simp [h]) (fun _ => h)) _ _ hi

@[simp] theorem State.swapWaiting_wf_iff (s : State) : s.swapWaiting.Wf ↔ s.Wf := by simp [State.swapWaiting]

@[simp] theorem State.sleepLosses_wf (s : State) (hi : s.Wf) : s.sleepLosses.Wf := by
  unfold State.sleepLosses
  extract_lets +onlyGivenNames ids s1 q s2 q2 s3 s4 s5
  have h1 : s1.Wf := foldl_sat (fun s id h => s.dropEntry_sat memWf_frame id h) _ _ hi
  obtain ⟨hd, -, -, hs⟩ := (MemSt.wf_iff _).mp h1
  have h2 : s2.Wf := MemSt.wf_of h1 hd rfl rfl hs
  have h3 : s3.Wf := by
    unfold s3
    split <;> exact h2
  have h4 : s4.Wf := by
    unfold s4
    split <;> simp [h3]
  have h5 : s5.Wf := by simp [s5, h4]
  exact h5

@[simp] theorem State.rebuildLocked_wf (s : State) (hi : s.Wf) : s.rebuildLocked.Wf := by simp +contextual [State.rebuildLocked, hi]

@[simp] theorem State.enterStep_wf (s : State) (n : Nat) (hi : s.Wf) : (s.enterStep n).Wf := by
  have h0 : (({ s with pow := { s.pow with stepAt := s.ticks } }).setF 0 Fld.PWR_STATE_STEP n).Wf := by
    simp [hi]
  unfold State.enterStep
  extract_lets +onlyGivenNames q s1
  have h1 : s1.Wf := h0
  clear_value s1
  split
  · exact foldl_sat (fun s p h => s.holdPage_wf p h) _ _ (by simp [h1])
  · simp [h1]
  · exact foldl_sat (fun s f h => s.holdFile_wf f h) _ _ h1
  · split <;> simp [h1]
  · exact foldl_sat (fun s p h => s.blockStop_wf p _ h (fun s h => pageStop_wf p s h)) _ _ h1
  · split <;> simp [h1]
  · split <;> simp [h1]
  · extract_lets +onlyGivenNames q s2
    have h2 : s2.Wf := State.rebuildLocked_wf _ h1
    clear_value s2
    split <;> simp [h2]
  · exact h1

@[simp] theorem State.powDone_wf_iff (s : State) (st : Status) : (s.powDone st).Wf ↔ s.Wf := by simp [State.powDone]

@[simp] theorem State.restIn_wf_iff (s : State) (st : Nat) : (s.restIn st).Wf ↔ s.Wf := by simp [State.restIn]

@[simp] theorem State.beginExit_wf (s : State) (hi : s.Wf) : s.beginExit.Wf := by simp [State.beginExit, hi]

@[simp] theorem State.beginEntry_wf (s : State) (target : Nat) (off : Bool) (hi : s.Wf) : (s.beginEntry target off).Wf := by
  simp [State.beginEntry, hi]

@[simp] theorem State.noteWake_wf_iff (s : State) (src : Nat) : (s.noteWake src).Wf ↔ s.Wf := by simp [State.noteWake]

@[simp] theorem State.powGo_wf (s : State) (op : Nat) (hi : s.Wf) : (s.powGo op).Wf := by simp [State.powGo, hi]

@[simp] theorem State.afterTransition_wf (s : State) (hi : s.Wf) : s.afterTransition.Wf := by
  unfold State.afterTransition
  repeat' split
  all_goals simp [hi]

@[simp] theorem State.entryDone_wf (s : State) (hi : s.Wf) : s.entryDone.Wf := by simp [State.entryDone, hi]

@[simp] theorem State.exitDone_wf (s : State) (hi : s.Wf) : s.exitDone.Wf := by
  have h1 : (s.restIn 0).releaseAll.Wf := by simp [hi]
  have h2 (s : State) (p : Nat) (h : s.Wf) : (if s.pageSt p = stOff ∧ s.enableReq p then s.blockStart p (pageStart p) else s).Wf := by
    split
    · exact s.blockStart_wf _ _ h (by simp)
    · exact h
  refine State.afterTransition_wf _ ?_
  simp [foldl_sat h2 _ _ h1]

@[simp] theorem State.undo_wf (s : State) (hi : s.Wf) : s.undo.Wf := by
  unfold State.undo
  extract_lets +onlyGivenNames asked s1 s2 r s3 s4
  have h1 : s1.Wf := by
    unfold s1
    split <;> simp [hi]
  clear_value s1
  have h2 : s2.Wf := by simp [s2, h1]
  clear_value s2
  have h3 : s3.Wf := by simp [s3, h2]
  clear_value s3
  have h4 : s4.Wf := by simp [s4, h3]
  clear_value s4
  simp [h4]

@[simp] theorem State.turnBack_wf_iff (s : State) : s.turnBack.Wf ↔ s.Wf := by simp [State.turnBack]

@[simp] theorem State.wakeEntry_wf (s : State) (src : Nat) (asked : Bool) (hi : s.Wf) : (s.wakeEntry src asked).Wf := by
  simp [State.wakeEntry, hi]

@[simp] theorem State.wakeBy_wf (s : State) (src : Nat) (asked : Bool) (hi : s.Wf) : (s.wakeBy src asked).Wf := by simp [State.wakeBy, hi]

@[simp] theorem State.powBusy_wf (s : State) (op : Nat) (hi : s.Wf) : (s.powBusy op).Wf := by simp [State.powBusy, hi]

@[simp] theorem State.powWrite_wf (s : State) (fn v : Nat) (hi : s.Wf) : (s.powWrite fn v).Wf := by simp [State.powWrite, hi]

@[simp] theorem execPowerReqActive_wf (fn v : Nat) (s : State) (hi : s.Wf) : Out.Wf (execPowerReqActive fn v s) := by
  simp [execPowerReqActive, hi]

@[simp] theorem execPowerReqHold_wf (fn v : Nat) (s : State) (hi : s.Wf) : Out.Wf (execPowerReqHold fn v s) := by
  simp [execPowerReqHold, hi]

@[simp] theorem execPowerReqSleep_wf (fn v : Nat) (s : State) (hi : s.Wf) : Out.Wf (execPowerReqSleep fn v s) := by
  simp [execPowerReqSleep, hi]

@[simp] theorem execPowerReqOff_wf (fn v : Nat) (s : State) (hi : s.Wf) : Out.Wf (execPowerReqOff fn v s) := by simp [execPowerReqOff, hi]

@[simp] theorem State.stepEnd_wf (s : State) (hi : s.Wf) : s.stepEnd.Wf := by simp [State.stepEnd, hi]

@[simp] theorem execEntryStepDone_wf (s : State) (hi : s.Wf) : Out.Wf (execEntryStepDone s) := by simp [execEntryStepDone, hi]

@[simp] theorem execHoldDrainExpiry_wf (s : State) (hi : s.Wf) : Out.Wf (execHoldDrainExpiry s) := by simp [execHoldDrainExpiry, hi]

@[simp] theorem execExitStageReady_wf (s : State) (hi : s.Wf) : Out.Wf (execExitStageReady s) := by simp [execExitStageReady, hi]

@[simp] theorem State.requestWarm_wf (s : State) (cause : Nat) (hi : s.Wf) : (s.requestWarm cause).Wf := by simp [State.requestWarm, hi]

@[simp] theorem execWarmReset_wf (fn v : Nat) (s : State) (hi : s.Wf) : Out.Wf (execWarmReset fn v s) :=
  Out.wf_next (s.devCmd_wf _ _ _ _ hi (fun s h => by simp [h]))

@[simp] theorem execWarmResetNAssert_wf (s : State) (hi : s.Wf) : Out.Wf (execWarmResetNAssert s) := by simp [execWarmResetNAssert, hi]

@[simp] theorem execWarmResetPin_wf (s : State) (hi : s.Wf) : Out.Wf (execWarmResetPin s) := by simp [execWarmResetPin, hi]

@[simp] theorem execArbiterRestart_wf (s : State) (hi : s.Wf) : Out.Wf (execArbiterRestart s) := by simp [execArbiterRestart, hi]

@[simp] theorem execArbiterRestartDone_wf (s : State) (hi : s.Wf) : Out.Wf (execArbiterRestartDone s) := by
  refine Out.wf_next ?_
  split
  · exact hi
  extract_lets q
  exact foldl_sat (fun s fn h => by simp [h]) _ _ hi

end Sys2Proof.Machine
end

section
/-! ## What the operations keep: Wake -/

namespace Sys2Proof.Machine

variable {P : State → Prop}

@[simp] theorem execWakeEv_wf (src : Nat) (s : State) (hi : s.Wf) : Out.Wf (execWakeEv src s) := by simp [execWakeEv, hi]

@[simp] theorem execSqDoorbell_wf (fn q v : Nat) (s : State) (hi : s.Wf) : Out.Wf (execSqDoorbell fn q v s) := by simp [execSqDoorbell, hi]

@[simp] theorem execCqHeadDoorbell_wf (fn q v : Nat) (s : State) (hi : s.Wf) : Out.Wf (execCqHeadDoorbell fn q v s) := by
  simp [execCqHeadDoorbell, hi]

@[simp] theorem execRingLinkUp_wf (port : Nat) (s : State) (hi : s.Wf) : Out.Wf (execRingLinkUp port s) := by simp [execRingLinkUp, hi]

@[simp] theorem execEthLinkUp_wf (port rate : Nat) (s : State) (hi : s.Wf) : Out.Wf (execEthLinkUp port rate s) := by
  simp [execEthLinkUp, hi]

@[simp] theorem execEthMagicPacket_wf (port : Nat) (frame : List Byte) (s : State) (hi : s.Wf) :
    Out.Wf (execEthMagicPacket port frame s) := by simp [execEthMagicPacket, hi]

@[simp] theorem execRingWakeFrame_wf (inPort : Nat) (frame : List Byte) (s : State) (hi : s.Wf) :
    Out.Wf (execRingWakeFrame inPort frame s) := by simp [execRingWakeFrame, hi]

@[simp] theorem execGpioWake_wf (pin : Nat) (s : State) (hi : s.Wf) : Out.Wf (execGpioWake pin s) := by
  refine Out.wf_next ?_
  dsimp only
  repeat' split
  all_goals simp [hi]

@[simp] theorem State.alarmDue_wf (s : State) (hi : s.Wf) : s.alarmDue.Wf := by
  unfold State.alarmDue
  split <;> simp [hi]

@[simp] theorem execTimebaseAlarm_wf (s : State) (hi : s.Wf) : Out.Wf (execTimebaseAlarm s) := by simp [execTimebaseAlarm, hi]

@[simp] theorem execAlarmArm_wf (fn v : Nat) (s : State) (hi : s.Wf) : Out.Wf (execAlarmArm fn v s) := by simp [execAlarmArm, hi]

end Sys2Proof.Machine
end

section
/-! ## What the operations keep: Periph -/

namespace Sys2Proof.Machine

variable {P : State → Prop}

@[simp] theorem execPerTailDoorbell_wf (fn v : Nat) (s : State) (hi : s.Wf) : Out.Wf (execPerTailDoorbell fn v s) := by
  simp [execPerTailDoorbell, hi]

@[simp] theorem State.perDesc_wf (s : State) (c : Nat) (hi : s.Wf) : FstWf (s.perDesc c) := by
  have h0 := s.vaRead_sat memWf_frame (s.perFn c) .engine (s.perVa c) 64 hi
  unfold State.perDesc
  split
  · exact hi
  split
  · next e => simp [FstSat.of_eq h0 e]
  · next e => exact FstSat.of_eq h0 e

@[simp] theorem State.perOut_wf_iff (s : State) (c : Nat) (st : Status) (cause n : Nat) : (s.perOut c st cause n).Wf ↔ s.Wf := by
  simp [State.perOut]

@[simp] theorem State.perBus_wf_iff (s : State) (c n : Nat) : (s.perBus c n).Wf ↔ s.Wf := by simp [State.perBus]

theorem State.perRun_wf (s : State) (c op : Nat) (f : State → List Byte → State) (hi : s.Wf)
    (hf : ∀ s d, s.Wf → (f s d).Wf) : (s.perRun c op f).Wf := by
  have h0 := s.perDesc_wf c hi
  unfold State.perRun
  split
  · exact hi
  split
  · next e => simp [FstSat.of_eq h0 e]
  · next e =>
    have h1 := FstSat.of_eq h0 e
    split
    · simp [h1]
    split
    · exact hi
    · exact hf _ _ h1

theorem State.perSend_wf (s : State) (c : Nat) (d : List Byte) (f : State → State) (hi : s.Wf)
    (hf : ∀ s, s.Wf → (f s).Wf) : (s.perSend c d f).Wf := by
  have h0 := s.vaRead_sat memWf_frame (s.perFn c) .engine (pdVa d) (pdWlen d) hi
  unfold State.perSend
  split
  · next e => exact hf _ (FstSat.of_eq h0 e)
  · next e => simp [FstSat.of_eq h0 e]

@[simp] theorem State.perReceive_wf (s : State) (c : Nat) (d data : List Byte) (hi : s.Wf) :
    (s.perReceive c d data).Wf := by
  have hw := State.vaWrite_sat memWf_frame
  unfold State.perReceive
  extract_lets +onlyGivenNames x got d' s1
  have h1 : s1.Wf := by simp [s1, hi]
  clear_value s1
  split
  · exact h1
  split
  · next e => simp [FstSat.of_eq (hw _ _ _ _ _ h1) e]
  · next e => simp [FstSat.of_eq (hw _ _ _ _ _ h1) e]

@[simp] theorem execPerWrite_wf (ctrl : Nat) (s : State) (hi : s.Wf) : Out.Wf (execPerWrite ctrl s) :=
  Out.wf_next (s.perRun_wf _ _ _ hi (fun s _ h => s.perSend_wf _ _ _ h (fun s h => by simp [h])))

@[simp] theorem execPerRead_wf (ctrl : Nat) (data : List Byte) (s : State) (hi : s.Wf) : Out.Wf (execPerRead ctrl data s) :=
  Out.wf_next (s.perRun_wf _ _ _ hi (fun s _ h => s.perReceive_wf _ _ _ h))

@[simp] theorem execPerWriteRead_wf (ctrl : Nat) (data : List Byte) (s : State) (hi : s.Wf) : Out.Wf (execPerWriteRead ctrl data s) :=
  Out.wf_next (s.perRun_wf _ _ _ hi (fun s _ h => s.perSend_wf _ _ _ h (fun s h => s.perReceive_wf _ _ _ h)))

@[simp] theorem execPerTimeout_wf (ctrl : Nat) (s : State) (hi : s.Wf) : Out.Wf (execPerTimeout ctrl s) := by
  have h0 := s.perDesc_wf ctrl hi
  refine Out.wf_next ?_
  split
  · exact hi
  split
  · next e => exact FstSat.of_eq h0 e
  · next s1 d e =>
    have h1 := FstSat.of_eq h0 e
    have hw (va data) := s1.vaWrite_sat memWf_frame (s1.perFn ctrl) .engine va data h1
    extract_lets +onlyGivenNames got
    split
    · exact hi
    split
    · split
      · next e => simp [FstSat.of_eq (hw _ _) e]
      · next e => simp [FstSat.of_eq (hw _ _) e]
    · simp [h1]

@[simp] theorem execPeripheralComplete_wf (ctrl : Nat) (s : State) (hi : s.Wf) : Out.Wf (execPeripheralComplete ctrl s) := by
  refine Out.wf_next ?_
  split <;> simp [hi]

@[simp] theorem execCsiPortStateChange_wf (port st : Nat) (s : State) (hi : s.Wf) : Out.Wf (execCsiPortStateChange port st s) := by
  refine Out.wf_next ?_
  dsimp only
  repeat' split
  all_goals simp [hi]

end Sys2Proof.Machine
end

section
/-! ## What the operations keep: RegRead -/

namespace Sys2Proof.Machine

variable {P : State → Prop}

@[simp] theorem State.clear0E_wf_iff (s : State) (fn off : Nat) : (s.clear0E fn off).Wf ↔ s.Wf := by
  unfold State.clear0E
  repeat' split
  all_goals simp

@[simp] theorem State.regClear_wf_iff (s : State) (fn page off : Nat) : (s.regClear fn page off).Wf ↔ s.Wf := by
  unfold State.regClear
  repeat' split
  all_goals simp

end Sys2Proof.Machine
end

section
/-! ## What the operations keep: RegWrite -/

namespace Sys2Proof.Machine

variable {P : State → Prop}

@[simp] theorem State.trgWritten_wf_iff (s : State) (n : Nat) (was : Bool) : (s.trgWritten n was).Wf ↔ s.Wf := by simp [State.trgWritten]

@[simp] theorem State.qsetWritten_wf_iff (s : State) (fn off v : Nat) : (s.qsetWritten fn off v).Wf ↔ s.Wf := by simp [State.qsetWritten]

@[simp] theorem State.srcWritten_wf_iff (s : State) (was : Bool) : (s.srcWritten was).Wf ↔ s.Wf := by simp [State.srcWritten]

@[simp] theorem State.perWritten_wf_iff (s : State) (was : Bool) : (s.perWritten was).Wf ↔ s.Wf := by simp [State.perWritten]

@[simp] theorem State.written_wf_iff (s : State) (fn page off old v : Nat) : (s.written fn page off old v).Wf ↔ s.Wf := by
  unfold State.written
  split <;> simp

@[simp] theorem State.beforeWrite_wf (s : State) (page off new : Nat) (hi : s.Wf) : (s.beforeWrite page off new).Wf := by
  simp [State.beforeWrite, hi]

@[simp] theorem State.storeReg_wf (s : State) (fn page off v mask : Nat) (d : RegDesc) (hi : s.Wf) :
    (s.storeReg fn page off v mask d).Wf := by simp [State.storeReg, hi]

@[simp] theorem State.plainWrite_wf (s : State) (fn page off v : Nat) (d : RegDesc) (hi : s.Wf) : (s.plainWrite fn page off v d).Wf := by
  unfold State.plainWrite
  repeat' split
  all_goals simp [hi]

@[simp] theorem State.irqWrite_wf_iff (s : State) (fn page off v : Nat) : (s.irqWrite fn page off v).Wf ↔ s.Wf := by simp [State.irqWrite]

@[simp] theorem State.settingWrite_wf (s : State) (fn page off v : Nat) (hi : s.Wf) : (s.settingWrite fn page off v).Wf := by
  unfold State.settingWrite
  repeat' split
  all_goals simp [hi]

end Sys2Proof.Machine
end

section
/-! ## What the operations keep: Access -/

namespace Sys2Proof.Machine

variable {P : State → Prop}

@[simp] theorem nextOf_wf {s : State} {o : Out} (ho : Out.Wf o) (hi : s.Wf) : (nextOf s o).Wf := by
  cases o with
  | next t => exact ho t rfl
  | refused r => exact hi
  | fault r => exact hi

@[simp] theorem execFilPerfSelWrite_wf (fn file v : Nat) (s : State) (hi : s.Wf) : Out.Wf (execFilPerfSelWrite fn file v s) := by
  simp [execFilPerfSelWrite, hi]

@[simp] theorem execFilPerfLoRead_wf (fn file : Nat) (s : State) (hi : s.Wf) : Out.Wf (execFilPerfLoRead fn file s) := by
  simp [execFilPerfLoRead, hi]

@[simp] theorem execIrqSet_wf (fn page v : Nat) (s : State) (hi : s.Wf) : Out.Wf (execIrqSet fn page v s) := by simp [execIrqSet, hi]

@[simp] theorem State.mapCfgWrite_wf (s : State) (fn v : Nat) (hi : s.Wf) : (s.mapCfgWrite fn v).Wf := by simp [State.mapCfgWrite, hi]

@[simp] theorem execKntUnkobsWrite_wf (fn v : Nat) (s : State) (hi : s.Wf) : Out.Wf (execKntUnkobsWrite fn v s) := by
  simp [execKntUnkobsWrite, hi]

@[simp] theorem State.ctlReset_wf (s : State) (fn page : Nat) (hi : s.Wf) : (s.ctlReset fn page).Wf := by
  unfold State.ctlReset
  split <;> simp [hi]

@[simp] theorem State.ctlQuiesce_wf (s : State) (fn page : Nat) (hi : s.Wf) : (s.ctlQuiesce fn page).Wf := by
  unfold State.ctlQuiesce
  split <;> simp [hi]

@[simp] theorem State.ctlEnable_wf (s : State) (fn page : Nat) (on : Bool) (hi : s.Wf) : (s.ctlEnable fn page on).Wf := by
  unfold State.ctlEnable
  split <;> simp [hi]

@[simp] theorem State.ctlAccess_wf (s : State) (fn page v : Nat) (hi : s.Wf) : (s.ctlAccess fn page v).Wf := by simp [State.ctlAccess, hi]

@[simp] theorem State.write00_wf (s : State) (fn v : Nat) (hi : s.Wf) : (s.write00 fn v).Wf := by
  unfold State.write00
  split <;> simp [hi]

@[simp] theorem State.write02_wf (s : State) (fn v : Nat) (hi : s.Wf) : (s.write02 fn v).Wf := by
  unfold State.write02
  split <;> simp [hi]

@[simp] theorem State.write05s_wf (s : State) (fn v : Nat) (hi : s.Wf) : (s.write05s fn v).Wf := by
  unfold State.write05s
  split <;> simp [hi]

@[simp] theorem State.write05i_wf (s : State) (fn v : Nat) (hi : s.Wf) : (s.write05i fn v).Wf := by
  unfold State.write05i
  split <;> simp [hi]

theorem State.write05_wf {s t : State} {fn off v : Nat} (hi : s.Wf) (h : s.write05 fn off v = some t) :
    t.Wf := by
  unfold State.write05 at h
  split at h
  all_goals cases h
  · exact nextOf_wf (execDspQselWrite_wf _ _ _ hi) hi
  · simp [hi]
  · exact nextOf_wf (execDspCancel_wf _ _ _ hi) hi
  · simp [hi]
  · simp [hi]

@[simp] theorem State.write07_wf (s : State) (fn v : Nat) (hi : s.Wf) : (s.write07 fn v).Wf := by
  unfold State.write07
  split <;> simp [hi]

@[simp] theorem State.write09_wf (s : State) (fn v : Nat) (hi : s.Wf) : (s.write09 fn v).Wf := by
  unfold State.write09
  split <;> simp [hi]

@[simp] theorem State.write0A_wf (s : State) (fn v : Nat) (hi : s.Wf) : (s.write0A fn v).Wf := by
  unfold State.write0A
  split <;> simp [hi]

@[simp] theorem State.write0B_wf (s : State) (fn v : Nat) (hi : s.Wf) : (s.write0B fn v).Wf := by
  unfold State.write0B
  split <;> simp [hi]

@[simp] theorem State.write0D_wf (s : State) (fn v : Nat) (hi : s.Wf) : (s.write0D fn v).Wf := by
  unfold State.write0D
  split <;> simp [hi]

@[simp] theorem State.write0E_wf (s : State) (fn v : Nat) (hi : s.Wf) : (s.write0E fn v).Wf := by
  unfold State.write0E
  split <;> simp [hi]

theorem State.write11_wf {s t : State} {fn off v : Nat} (hi : s.Wf) (h : s.write11 fn off v = some t) :
    t.Wf := by
  unfold State.write11 at h
  dsimp only at h
  split at h
  · cases h
  split at h
  all_goals cases h
  · exact nextOf_wf (execEthPbLoad_wf _ _ _ _ hi) hi
  · exact nextOf_wf (execEthTxDoorbell_wf _ _ _ _ hi) hi
  · exact nextOf_wf (execEthRxDoorbell_wf _ _ _ _ hi) hi

theorem State.startLow_wf {s t : State} {fn page off v : Nat} (hi : s.Wf) (h : s.startLow fn page off v = some t) :
    t.Wf := by
  unfold State.startLow at h
  split at h
  case h_14 => exact State.write05_wf hi h
  case h_15 =>
    split at h
    all_goals cases h
    exact nextOf_wf (execRcvWindowWrite_wf _ _ _ _ hi) hi
  all_goals cases h
  all_goals simp [hi, nextOf_wf]

theorem State.startHigh_wf {s t : State} {fn page off v : Nat} (hi : s.Wf) (h : s.startHigh fn page off v = some t) :
    t.Wf := by
  unfold State.startHigh at h
  split at h
  case h_19 =>
    split at h
    all_goals cases h
    exact nextOf_wf (execFusTailWrite_wf _ _ _ _ hi) hi
  case h_20 => exact State.write11_wf hi h
  all_goals cases h
  all_goals simp [hi, nextOf_wf]

@[simp] theorem State.regWrite_wf (s : State) (fn page off v : Nat) (hi : s.Wf) :
    (s.regWrite fn page off v).Wf := by
  unfold State.regWrite
  split
  · simp [hi]
  split
  · next e =>
    split at e
    · exact State.startLow_wf hi e
    · exact State.startHigh_wf hi e
  · simp [hi]

theorem State.regRead_wf (s : State) (fn page off : Nat) (hi : s.Wf) : (s.regRead fn page off).2.Wf := by
  unfold State.regRead
  extract_lets special
  have h1 : ∀ t, special = some t → t.Wf := by
    intro t h
    unfold special at h
    split at h
    case h_4 =>
      split at h
      all_goals cases h
      exact nextOf_wf (execTmbCapLoRead_wf _ _ _ hi) hi
    all_goals cases h
    all_goals simp [hi, nextOf_wf]
  clear_value special
  cases special with
  | none => simp [hi]
  | some t => exact h1 t rfl

@[simp] theorem execRegisterWrite_wf (fn addr width v : Nat) (s : State) (hi : s.Wf) : Out.Wf (execRegisterWrite fn addr width v s) := by
  simp [execRegisterWrite, hi]

@[simp] theorem execRcRead_wf (fn addr width : Nat) (s : State) (hi : s.Wf) : Out.Wf (execRcRead fn addr width s) := by
  refine Out.wf_next ?_
  split
  · exact hi
  have h1 := s.regRead_wf fn (addr / 0x10000) (addr % 0x10000) hi
  extract_lets +onlyGivenNames r q t
  have ht : t.Wf := h1
  split
  · exact ht
  · exact t.regRead_wf _ _ _ ht

@[simp] theorem State.recWin_wf_iff (s : State) (fn sq off : Nat) : (s.recWin fn sq off).Wf ↔ s.Wf := by simp [State.recWin]

@[simp] theorem execBar2Access_wf (fn off : Nat) (wr : Option Nat) (s : State) (hi : s.Wf) : Out.Wf (execBar2Access fn off wr s) := by
  refine Out.wf_next ?_
  repeat' split
  all_goals simp [hi]

@[simp] theorem execBar6Access_wf (fn off len : Nat) (wr : Option (List Byte)) (s : State) (hi : s.Wf) :
    Out.Wf (execBar6Access fn off len wr s) := by
  refine Out.wf_next ?_
  have h1 (b : Bool) : (if b then s else s.recErr 0x07 fn .accessDenied 0xFFFF).Wf := by simp [hi]
  cases wr with
  | none =>
    dsimp only
    split
    · exact hi
    split
    · exact h1 _
    split
    · exact hi
    split
    · simp [hi]
    · exact hi
  | some d =>
    dsimp only
    split
    · exact hi
    split
    · exact h1 _
    split
    · exact hi
    · exact foldl_sat (fun s p h => s.devWrite_sat memWf_frame _ _ h) _ _ hi

end Sys2Proof.Machine
end

section
/-! ## Canonical byte memories: every step -/

namespace Sys2Proof.Machine

/-- Every command keeps the byte memories in canonical form: its own lemma, command by command. -/
theorem exec_wf (i : Instr) (s : State) (hi : s.Wf) : Out.Wf (exec i s) := by
  cases i <;> simp [exec, hi]

/-- Settles O60: a step is the command at the front of the queue on the queue's rest, and `exec_wf` holds of every command. -/
theorem everyStepKeepsTheMemoriesCanonical : Obligations.EveryStepKeepsTheMemoriesCanonical := by
  intro s t hi h
  unfold step at h
  split at h
  · cases h
    exact hi
  · next i rest _ => exact exec_wf i { s with pending := rest } hi t h

end Sys2Proof.Machine
end

section
/-! # The Arbiter's operations: what each leaves as it is -/

namespace Sys2Proof.Machine

/-! ## Registers whose page or offset differs are different registers -/

theorem regKey_ne {b p o b' p' o' : Nat} (hp : p < 2 ^ 8) (ho : o < 2 ^ 16) (hp' : p' < 2 ^ 8) (ho' : o' < 2 ^ 16)
    (h : p ≠ p' ∨ o ≠ o') : regKey b p o ≠ regKey b' p' o' := by
  unfold regKey
  omega

theorem arbReg_lt {p o : Nat} (h : arbReg p o = true) : p < 2 ^ 8 ∧ o < 2 ^ 16 := by
  simp only [arbReg, Bool.or_eq_true, Bool.and_eq_true, beq_iff_eq, decide_eq_true_eq] at h
  omega

theorem regKey_ne_of_far {b p o b' p' o' : Nat} (h : farReg p o = true) (h' : arbReg p' o' = true) :
    regKey b p o ≠ regKey b' p' o' := by
  simp only [farReg, arbReg, Bool.or_eq_true, Bool.and_eq_true, beq_iff_eq, decide_eq_true_eq, Bool.not_eq_true', Bool.or_eq_false_iff,
    Bool.and_eq_false_iff, beq_eq_false_iff_ne, decide_eq_false_iff_not] at h h'
  unfold regKey
  omega

/-! ## A state with the same Arbiter -/

/-- `t` has the state of the Arbiter and the registers that the Arbiter alone writes from `s`. -/
structure ArbKept (s t : State) : Prop where
  arb : t.arb = s.arb
  reg : ∀ b p o, arbReg p o = true → t.getReg b p o = s.getReg b p o

/-- The partitions as well. -/
structure ArbSame (s t : State) : Prop extends ArbKept s t where
  parts : t.parts = s.parts

theorem ArbSame.refl (s : State) : s.Sat (ArbSame s) := ⟨⟨rfl, fun _ _ _ _ => rfl⟩, rfl⟩

theorem ArbKept.trans {s t u : State} (h : ArbKept s t) (k : ArbKept t u) : ArbKept s u :=
  ⟨k.arb.trans h.arb, fun b p o e => (k.reg b p o e).trans (h.reg b p o e)⟩

theorem ArbSame.trans {s t u : State} (h : ArbSame s t) (k : ArbSame t u) : ArbSame s u :=
  ⟨h.toArbKept.trans k.toArbKept, k.parts.trans h.parts⟩

theorem ArbKept.getF {s t : State} (h : ArbKept s t) (b : Nat) (f : Fld) (hf : arbReg f.page f.off = true) : t.getF b f = s.getF b f := by
  unfold State.getF
  rw [h.reg _ _ _ hf]

theorem arbKept_setReg (s : State) (b p o : Nat) (v : Word) (h : farReg p o = true) : ArbKept s (s.setReg b p o v) :=
  ⟨rfl, fun _ _ _ e => State.getReg_setReg_other s (regKey_ne_of_far h e) v⟩

theorem arbSame_frame (s : State) : Frame (ArbSame s) where
  fields t u hr hp _ ha h :=
    ⟨⟨ha.trans h.arb, fun b p o e => by rw [← h.reg b p o e, State.getReg, State.getReg, hr]⟩, hp.trans h.parts⟩
  reg t b p o v hf := by
    have k := arbKept_setReg t b p o v hf
    exact ⟨fun h => ⟨⟨h.arb, fun b' p' o' e => (k.reg b' p' o' e).symm.trans (h.reg b' p' o' e)⟩, h.parts⟩, fun h =>
      h.trans ⟨k, rfl⟩⟩
  mem _ _ _ h := ⟨⟨h.arb, h.reg⟩, h.parts⟩

/-! ## A state that differs in the event log alone -/

/-- `t` is `s` but for the event log, and for registers of the Arbiter's page that lie below the mailbox. -/
structure Logged (s t : State) : Prop where
  reg : ∀ b p o, p < 2 ^ 8 → o < 2 ^ 16 → (p = 1 → 0x400 ≤ o) → t.getReg b p o = s.getReg b p o
  arb : ∃ log flash, t.arb = { s.arb with log := log, flash := flash }
  parts : t.parts = s.parts
  mem : t.mem = s.mem
  hello : t.hello = s.hello
  ticks : t.ticks = s.ticks

theorem Logged.refl (s : State) : Logged s s := ⟨fun _ _ _ _ _ _ => rfl, ⟨_, _, rfl⟩, rfl, rfl, rfl, rfl⟩

theorem Logged.trans {s t u : State} (h : Logged s t) (k : Logged t u) : Logged s u := by
  obtain ⟨_, _, ha⟩ := h.arb
  obtain ⟨_, _, ka⟩ := k.arb
  exact ⟨fun b p o hp ho e => (k.reg b p o hp ho e).trans (h.reg b p o hp ho e), ⟨_, _, by rw [ka, ha]⟩, k.parts.trans h.parts,
    k.mem.trans h.mem, k.hello.trans h.hello, k.ticks.trans h.ticks⟩

theorem Logged.getF {s t : State} (h : Logged s t) (b : Nat) (f : Fld) (hp : f.page < 2 ^ 8) (ho : f.off < 2 ^ 16)
    (hf : f.page = 1 → 0x400 ≤ f.off) : t.getF b f = s.getF b f := by
  unfold State.getF
  rw [h.reg _ _ _ hp ho hf]

theorem setF_logged (s : State) (b : Nat) (f : Fld) (v : Nat) (hp : f.page = 1) (ho : f.off < 0x400) : Logged s (s.setF b f v) where
  reg _ p o hp' ho' e := by
    refine State.getReg_setF_other s v (regKey_ne (by omega) (by omega) hp' ho' ?_)
    by_cases h : p = 1
    · exact .inr (by have := e h; omega)
    · exact .inl (by omega)
  arb := ⟨_, _, rfl⟩
  parts := rfl
  mem := rfl
  hello := rfl
  ticks := rfl

theorem getReg_raiseIrq_other (s : State) (fn i : Nat) {b p o : Nat} (hp : p < 2 ^ 8) (ho : o < 2 ^ 16) (h : p ≠ 1 ∨ o ≠ 0x010) :
    (s.raiseIrq 0x01 fn i).getReg b p o = s.getReg b p o := by
  have k : regKey (irqBank 0x01 fn) 0x01 0x010 ≠ regKey b p o := regKey_ne (by decide) (by decide) hp ho (by omega)
  exact s.raiseIrq_regs 0x01 fn i b p o fun x hx => List.mem_singleton.mp hx ▸ k

theorem raiseIrq_logged (s : State) (fn i : Nat) : Logged s (s.raiseIrq 0x01 fn i) := by
  obtain ⟨m, e⟩ := s.raiseBits_spec 0x01 fn (2 ^ i)
  have e : s.raiseIrq 0x01 fn i = _ := e
  refine ⟨fun b p o hp ho k => getReg_raiseIrq_other s fn i hp ho (by omega), ?_, ?_, ?_, ?_, ?_⟩
  · rw [e]
    exact ⟨_, _, rfl⟩
  all_goals
    rw [e]
    rfl

theorem arbIrqAll_logged (s : State) (i : Nat) : Logged s (s.arbIrqAll i) :=
  foldl_keeps (P := Logged s) (fun t fn h => h.trans (raiseIrq_logged t fn i)) _ s (Logged.refl s)

theorem withLog_logged (s : State) (log flash : List Event) : Logged s { s with arb := { s.arb with log := log, flash := flash } } :=
  ⟨fun _ _ _ _ _ _ => rfl, ⟨_, _, rfl⟩, rfl, rfl, rfl, rfl⟩

theorem logEvent_logged (s : State) (sev page part kind code : Nat) (data : List Nat) :
    Logged s (s.logEvent sev page part kind code data) := by
  have h (v : Nat) := setF_logged s 0 Fld.ARB_LOG_SEQ v rfl (by decide)
  unfold State.logEvent
  split
  · exact (h _).trans (withLog_logged _ _ _)
  · exact ((h _).trans (withLog_logged _ _ _)).trans (arbIrqAll_logged _ 3)

theorem ownerEvent_logged (s : State) (fn : Nat) : Logged s (s.ownerEvent fn) :=
  (logEvent_logged s _ _ _ _ _ _).trans (arbIrqAll_logged _ 2)

theorem hostEvent_logged (s : State) (p ev : Nat) : Logged s (s.hostEvent p ev) := logEvent_logged s _ _ _ _ _ _

theorem finishCmd_logged (s : State) (fn : Nat) (st : Status) : Logged s (s.finishCmd fn Fld.ARB_MBX_STS_STATUS st) :=
  (setF_logged s fn { Fld.ARB_MBX_STS_STATUS with hi := 31, lo := 16 } _ rfl (by decide)).trans
    (setF_logged _ fn { Fld.ARB_MBX_STS_STATUS with hi := 15, lo := 15 } _ rfl (by decide))

theorem Logged.mbx {s t : State} (h : Logged s t) : t.arb.mbx = s.arb.mbx := by
  obtain ⟨_, _, ha⟩ := h.arb
  rw [ha]

/-! ## Mailboxes -/

theorem getReg_foldl_setReg_other {bank b p o : Nat} {page off : Nat → Nat} {w : Nat → Word} {l : List Nat}
    (h : ∀ i ∈ l, regKey bank (page i) (off i) ≠ regKey b p o) (s : State) :
    (l.foldl (fun s i => s.setReg bank (page i) (off i) (w i)) s).getReg b p o = s.getReg b p o := by
  induction l generalizing s with
  | nil => rfl
  | cons i l ih =>
    exact (ih (fun j hj => h j (List.mem_cons_of_mem i hj)) _).trans (State.getReg_setReg_other s (h i List.mem_cons_self) _)

/-- Registers that a row of writes sets, each of them once. -/
theorem getReg_foldl_setReg {bank : Nat} {page off : Nat → Nat} {w : Nat → Word} {n : Nat}
    (h : ∀ i j, i < n → j < n → i ≠ j → regKey bank (page i) (off i) ≠ regKey bank (page j) (off j)) (s : State) {k : Nat} (hk : k < n) :
    ((List.range n).foldl (fun s i => s.setReg bank (page i) (off i) (w i)) s).getReg bank (page k) (off k) = w k := by
  induction n with
  | zero => omega
  | succ n ih =>
    rw [List.range_succ, List.foldl_append, List.foldl_cons, List.foldl_nil]
    by_cases e : k = n
    · rw [e, State.getReg_setReg]
    · rw [State.getReg_setReg_other _ (h n k (by omega) hk (Ne.symm e))]
      exact ih (fun i j hi hj => h i j (by omega) (by omega)) (by omega)

theorem foldl_setReg_kept (bank : Nat) (page off : Nat → Nat) (w : Nat → Word) (l : List Nat) (s : State) :
    ∃ m, l.foldl (fun s i => s.setReg bank (page i) (off i) (w i)) s = { s with regs := m } := by
  induction l generalizing s with
  | nil => exact ⟨_, rfl⟩
  | cons i l ih => exact ih (s.setReg bank (page i) (off i) (w i))

/-- The request at the front of `s` is answered in `t`: its status, the order without it, and the response's words. -/
def Answered (s t : State) (fn : Nat) (st : Status) (payload : List Byte) : Prop :=
  Completed t fn Fld.ARB_MBX_STS_STATUS st ∧ t.arb.mbx = s.arb.mbx.filter (fun f => f != fn) ∧
    ∀ i, i < 64 → t.getReg fn 0x01 (0x500 + 4 * i) = BitVec.ofNat 32 (leField (mbxRsp (s.mbxReq fn) st payload) (4 * i) 4)

theorem mbxReq_congr {s t : State} {fn : Nat} (h : ∀ o, 0x400 ≤ o → o < 0x600 → t.getReg fn 0x01 o = s.getReg fn 0x01 o) :
    t.mbxReq fn = s.mbxReq fn := by
  unfold State.mbxReq
  refine List.flatMap_congr fun i hi => ?_
  have := List.mem_range.mp hi
  rw [h _ (by omega) (by omega)]

theorem Logged.mbxReq {s t : State} (h : Logged s t) (fn : Nat) : t.mbxReq fn = s.mbxReq fn :=
  mbxReq_congr fun o ho ho' => h.reg _ _ _ (by decide) (by omega) fun _ => ho

theorem ArbKept.mbxReq {s t : State} (h : ArbKept s t) (fn : Nat) : t.mbxReq fn = s.mbxReq fn :=
  mbxReq_congr fun o ho ho' => h.reg _ _ _ (by simp [ho, ho'])

/-- A completion bit and a status stay when an interrupt of the Arbiter is raised. -/
theorem Completed.raiseIrq {t : State} {fn : Nat} {st : Status} (h : Completed t fn Fld.ARB_MBX_STS_STATUS st) (f i : Nat) :
    Completed (t.raiseIrq 0x01 f i) fn Fld.ARB_MBX_STS_STATUS st := by
  have e : (t.raiseIrq 0x01 f i).getReg fn 0x01 0x44 = t.getReg fn 0x01 0x44 :=
    getReg_raiseIrq_other t f i (by decide) (by decide) (.inr (by decide))
  exact ⟨(congrArg (fun w : Word => bits w.toNat 31 16) e).trans h.1, (congrArg (fun w : Word => bits w.toNat 15 15) e).trans h.2⟩

/-- ARB_MBX_RSP takes a response's words. -/
def State.writeRsp (s : State) (fn : Nat) (b : List Byte) : State :=
  (List.range 64).foldl (fun (s : State) i => s.setReg fn 0x01 (0x500 + 4 * i) (BitVec.ofNat 32 (leField b (4 * i) 4))) s

/-- A function's requests leave the order. -/
def State.dropReq (s : State) (fn : Nat) : State := { s with arb := { s.arb with mbx := s.arb.mbx.filter fun f => f != fn } }

theorem State.dropReq_getReg (s : State) (fn b p o : Nat) : (s.dropReq fn).getReg b p o = s.getReg b p o := rfl

theorem State.writeRsp_get (s : State) (fn : Nat) (b : List Byte) {i : Nat} (h : i < 64) :
    (s.writeRsp fn b).getReg fn 0x01 (0x500 + 4 * i) = BitVec.ofNat 32 (leField b (4 * i) 4) :=
  getReg_foldl_setReg (page := fun _ => 0x01) (off := fun i => 0x500 + 4 * i)
    (fun i j hi hj hij => regKey_ne (by decide) (by omega) (by decide) (by omega) (.inr (by omega))) s h

theorem State.writeRsp_other (s : State) (fn : Nat) (r : List Byte) {b p o : Nat} (hp : p < 2 ^ 8) (ho : o < 2 ^ 16) (h : p ≠ 1) :
    (s.writeRsp fn r).getReg b p o = s.getReg b p o :=
  getReg_foldl_setReg_other (page := fun _ => 0x01) (off := fun i => 0x500 + 4 * i)
    (fun i hi => regKey_ne (by decide) (by have := List.mem_range.mp hi; omega) hp ho (.inl (Ne.symm h))) s

theorem State.writeRsp_regs (s : State) (fn : Nat) (r : List Byte) : ∃ m, s.writeRsp fn r = { s with regs := m } :=
  foldl_setReg_kept _ _ _ _ _ s

theorem State.mbxDone_logged (s : State) (fn : Nat) (st : Status) (payload : List Byte) :
    Logged ((s.writeRsp fn (mbxRsp (s.mbxReq fn) st payload)).dropReq fn) (s.mbxDone fn st payload) :=
  (finishCmd_logged _ fn st).trans (raiseIrq_logged _ fn 0)

/-- What a request's completion leaves as it is: every register outside the Arbiter's page, and everything of the Arbiter's state but the
order of the requests and the log. -/
theorem State.mbxDone_kept (s : State) (fn : Nat) (st : Status) (payload : List Byte) :
    (∃ log flash, (s.mbxDone fn st payload).arb = { s.arb with mbx := s.arb.mbx.filter fun f => f != fn, log := log, flash := flash }) ∧
    (s.mbxDone fn st payload).parts = s.parts ∧ (s.mbxDone fn st payload).mem = s.mem ∧ (s.mbxDone fn st payload).hello = s.hello ∧
    ∀ b p o, p < 2 ^ 8 → o < 2 ^ 16 → p ≠ 1 → (s.mbxDone fn st payload).getReg b p o = s.getReg b p o := by
  have k := s.mbxDone_logged fn st payload
  obtain ⟨m, e⟩ := s.writeRsp_regs fn (mbxRsp (s.mbxReq fn) st payload)
  refine ⟨?_, ?_, ?_, ?_, fun b p o hp ho h => ?_⟩
  · obtain ⟨log, flash, ha⟩ := k.arb
    exact ⟨log, flash, by rw [ha, e]; rfl⟩
  · rw [k.parts, e]
    rfl
  · rw [k.mem, e]
    rfl
  · rw [k.hello, e]
    rfl
  · rw [k.reg b p o hp ho fun c => absurd c h, State.dropReq_getReg, s.writeRsp_other fn _ hp ho h]

theorem State.mbxDone_getF (s : State) (fn : Nat) (st : Status) (payload : List Byte) (b : Nat) (f : Fld) (hp : f.page < 2 ^ 8)
    (ho : f.off < 2 ^ 16) (hn : f.page ≠ 1) : (s.mbxDone fn st payload).getF b f = s.getF b f := by
  unfold State.getF
  rw [(s.mbxDone_kept fn st payload).2.2.2.2 _ _ _ hp ho hn]

/-- A request that completes is answered. -/
theorem State.mbxDone_answered {s t : State} {fn : Nat} (hm : t.arb.mbx = s.arb.mbx) (hr : t.mbxReq fn = s.mbxReq fn) (st : Status)
    (payload : List Byte) : Answered s (t.mbxDone fn st payload) fn st payload := by
  obtain ⟨⟨_, _, ha⟩, -⟩ := t.mbxDone_kept fn st payload
  refine ⟨(State.finishCmd_completed _ _ _ _).raiseIrq fn 0, by rw [ha, ← hm], fun i hi => ?_⟩
  rw [← hr, (t.mbxDone_logged fn st payload).reg fn 0x01 _ (by decide) (by omega) (fun _ => by omega), State.dropReq_getReg,
    t.writeRsp_get fn _ hi]

end Sys2Proof.Machine
end

section
/-! # The global configuration: partitions, the generation and the files' owners -/

namespace Sys2Proof.Machine

/-! ## A change begins -/

theorem quiesceLost_arbSame (s : State) (c : GlobalCfg) (l : List Nat) :
    ArbSame s (l.foldl (fun (s : State) fn => s.quiesceLost c fn) s) :=
  foldl_sat (P := ArbSame s) (fun t fn h => t.quiesceLost_sat (arbSame_frame s) c fn h) l s (ArbSame.refl s)

/-- A change that begins is noted, and what it removes quiesces; the Arbiter's state is otherwise as it was. -/
theorem State.beginCfg_spec (s : State) (b : List Byte) (who path : Nat) :
    (s.beginCfg b who path).arb.cfg = some (b, who) ∧ (s.beginCfg b who path).arb.path = path ∧
    (s.beginCfg b who path).arb.mbx = s.arb.mbx ∧ (s.beginCfg b who path).parts = s.parts ∧
    (s.beginCfg b who path).getF 0 Fld.DEV_GEN = s.getF 0 Fld.DEV_GEN := by
  have h := quiesceLost_arbSame s (parseCfg b) s.heldParts
  refine ⟨rfl, rfl, ?_, h.parts, h.getF 0 Fld.DEV_GEN rfl⟩
  exact (congrArg ArbSt.mbx h.arb : _)

/-! ## Partitions are released -/

theorem getReg_clearBank (s : State) {bank page b p o : Nat} (hp : p < 2 ^ 8) (ho : o < 2 ^ 16) (h : p ≠ page) :
    (s.clearBank bank page).getReg b p o = s.getReg b p o := by
  unfold State.clearBank State.getReg
  dsimp only
  rw [assocGet_filter _ (fun k => !(decide (k / 2 ^ 24 = bank) && decide (k / 2 ^ 16 % 2 ^ 8 = page) && decide (0x40 ≤ k % 2 ^ 16))),
    if_pos]
  have e : regKey b p o / 65536 % 256 = p := by
    unfold regKey
    omega
  simp [e, h]

theorem arbKept_clearBank (s : State) (bank : Nat) {page : Nat} (h : page = 5 ∨ page = 6 ∨ page = 8) :
    ArbKept s (s.clearBank bank page) :=
  ⟨rfl, fun b p o e => getReg_clearBank s (arbReg_lt e).1 (arbReg_lt e).2 (by
    simp only [arbReg, Bool.or_eq_true, Bool.and_eq_true, beq_iff_eq, decide_eq_true_eq] at e
    omega)⟩

theorem dropPart_arbKept (s : State) (fn : Nat) : ArbKept s (s.dropPart fn) := by
  unfold State.dropPart
  refine foldl_keeps (P := ArbKept s) (fun t set h => h.trans (arbKept_clearBank t _ (page := 0x05) (by omega))) _ _ ?_
  refine ArbKept.trans ?_ (arbKept_setReg _ fn 0x05 0x07C 0#32 rfl)
  refine ArbKept.trans (ArbKept.trans ?_ (arbKept_clearBank _ fn (page := 0x06) (by omega))) (arbKept_clearBank _ fn (page := 0x08) (by omega))
  exact ⟨rfl, fun _ _ _ _ => rfl⟩

theorem dropPart_parts (s : State) (fn : Nat) : (s.dropPart fn).parts = assocErase fn s.parts := rfl

/-- A partition's release keeps the Arbiter, and forgets the partition. -/
theorem releasePart_spec (s : State) (fn : Nat) : ArbKept s (s.releasePart fn) ∧ (s.releasePart fn).parts = assocErase fn s.parts := by
  obtain ⟨t, ht, e⟩ := s.releasePart_eq (arbSame_frame s) fn (ArbSame.refl s)
  rw [e]
  exact ⟨ht.toArbKept.trans (dropPart_arbKept t fn), by rw [dropPart_parts, ht.parts]⟩

theorem releaseParts_spec (l : List Nat) (s : State) :
    ArbKept s (l.foldl (fun (s : State) fn => s.releasePart fn) s) ∧
    ∀ fn, assocGet {} (l.foldl (fun (s : State) fn => s.releasePart fn) s).parts fn = if fn ∈ l then {} else assocGet {} s.parts fn := by
  induction l generalizing s with
  | nil => exact ⟨⟨rfl, fun _ _ _ _ => rfl⟩, fun fn => by simp⟩
  | cons f l ih =>
    obtain ⟨ha, hp⟩ := releasePart_spec s f
    obtain ⟨ka, kp⟩ := ih (s.releasePart f)
    rw [List.foldl_cons]
    refine ⟨ha.trans ka, fun fn => ?_⟩
    rw [kp, hp, assocGet_erase]
    by_cases h : fn = f
    · simp [h]
    · simp [h, Ne.symm h]

/-! ## Partitions are given -/

/-- An extent of a partition takes its base and limit. -/
def State.giveExtent (s : State) (p : PartCfg) (i : Nat) : State :=
  let w := p.ext.getD i 0
  ((s.setFlag p.fn (Fld.MMU_EXTn_BASE_VALID.plus (8 * i)) (bit w 31)).setF p.fn (Fld.MMU_EXTn_BASE_UNIT.plus (8 * i)) (bits w 13 0)).setF
    p.fn (Fld.MMU_EXTn_LIMIT_UNIT.plus (8 * i)) (bits w 29 16)

theorem giveExtent_sat_iff {P : State → Prop} (hP : Frame P) (s : State) (p : PartCfg) {i : Nat} (hi : i < 4) :
    (s.giveExtent p i).Sat P ↔ s.Sat P := by
  have hf (f : Fld) (hp : f.page = 8) (ho : f.off < 0x400) : farReg (f.plus (8 * i)).page (f.plus (8 * i)).off = true := by
    simp [Fld.plus, hp]
    omega
  unfold State.giveExtent
  rw [State.setF_sat_iff hP _ _ _ _ (hf Fld.MMU_EXTn_LIMIT_UNIT rfl (by decide)),
    State.setF_sat_iff hP _ _ _ _ (hf Fld.MMU_EXTn_BASE_UNIT rfl (by decide)),
    State.setFlag_sat_iff hP _ _ _ _ (hf Fld.MMU_EXTn_BASE_VALID rfl (by decide))]

/-- A partition entry is put in force: the Arbiter is kept, and the function holds a partition. -/
theorem givePart_spec (s : State) (p : PartCfg) : ArbKept s (s.givePart p) ∧
    ∀ fn, assocGet {} (s.givePart p).parts fn = if p.fn = fn then
      { held := true, qbase := p.qbase,
        gen := if (assocGet ({} : Part) s.parts p.fn).held then (assocGet ({} : Part) s.parts p.fn).gen else s.getF 0 Fld.DEV_GEN }
    else assocGet {} s.parts fn := by
  have h (lost : Nat → Bool) := (State.endQcmds_sat_iff (arbSame_frame s) s p.fn lost).mpr (ArbSame.refl s)
  unfold State.givePart
  extract_lets old lost s0 s1 s2
  have h0 : ArbSame s s0 := h lost
  have h1 : ArbKept s s1 := h0.toArbKept.trans ⟨rfl, fun _ _ _ _ => rfl⟩
  have h2 : s2.Sat (ArbSame s1) := by simp [s2, arbSame_frame, Fld.DSP_QRANGE_KQ, Fld.DSP_QRANGE_QCOUNT, Fld.RSV_FLOOR_PAGES, ArbSame.refl]
  have h3 : ((List.range 4).foldl (fun s i => s.giveExtent p i) s2).Sat (ArbSame s1) :=
    (foldl_sat_iff_mem (fun t i hi => giveExtent_sat_iff (arbSame_frame s1) t p (List.mem_range.mp hi)) s2).mpr h2
  refine ⟨h1.trans h3.toArbKept, fun fn => ?_⟩
  refine (congrArg (fun l => assocGet {} l fn) h3.parts).trans ?_
  exact (assocGet_insert _ _ _ _ _).trans (by rw [h0.parts])

theorem giveParts_arbKept (l : List PartCfg) (s : State) : ArbKept s (l.foldl (fun (s : State) p => s.givePart p) s) :=
  foldl_keeps (P := ArbKept s) (fun t p h => h.trans (givePart_spec t p).1) l s ⟨rfl, fun _ _ _ _ => rfl⟩

theorem giveParts_other {l : List PartCfg} {fn : Nat} (h : ∀ p ∈ l, p.fn ≠ fn) (s : State) :
    assocGet {} (l.foldl (fun (s : State) p => s.givePart p) s).parts fn = assocGet {} s.parts fn := by
  induction l generalizing s with
  | nil => rfl
  | cons p l ih =>
    rw [List.foldl_cons, ih (fun q hq => h q (List.mem_cons_of_mem p hq)), (givePart_spec s p).2, if_neg (h p List.mem_cons_self)]

theorem giveParts_held (l : List PartCfg) (s : State) (fn : Nat) (h : (assocGet {} s.parts fn).held = true ∨ ∃ p ∈ l, p.fn = fn) :
    (assocGet {} (l.foldl (fun (s : State) p => s.givePart p) s).parts fn).held = true := by
  induction l generalizing s with
  | nil => simpa using h
  | cons p l ih =>
    refine ih (s.givePart p) ?_
    rw [(givePart_spec s p).2]
    by_cases e : p.fn = fn
    · exact .inl (by rw [if_pos e])
    · rw [if_neg e]
      simpa [e] using h

/-! ## The generation changes -/

/-- The generation counts up; beside it only the log changes. -/
theorem genChange_spec (s : State) (path : Nat) :
    (s.genChange path).getF 0 Fld.DEV_GEN = add32 (s.getF 0 Fld.DEV_GEN) 1 ∧ (s.genChange path).parts = s.parts ∧
    (∃ log flash, (s.genChange path).arb = { s.arb with log := log, flash := flash }) ∧
    ∀ b p o, p < 2 ^ 8 → o < 2 ^ 16 → (p = 1 → 0x400 ≤ o) → p ≠ 0 → (s.genChange path).getReg b p o = s.getReg b p o := by
  have h : Logged (s.setF 0 Fld.DEV_GEN ((s.getF 0 Fld.DEV_GEN + 1) % 2 ^ 32)) (s.genChange path) :=
    (arbIrqAll_logged _ 1).trans (logEvent_logged _ _ _ _ _ _ _)
  refine ⟨?_, h.parts, h.arb, fun b p o hp ho e hn => (h.reg b p o hp ho e).trans ?_⟩
  · rw [h.getF 0 Fld.DEV_GEN (by decide) (by decide) (by decide), State.getF_setF _ _ _ _ (by decide) (by decide)]
    exact Nat.mod_mod _ _
  · exact State.getReg_setF_other _ _ (regKey_ne (by decide) (by decide) hp ho (.inl (Ne.symm hn)))

/-! ## The files are bound -/

/-- FIL_PART of a file under a configuration. -/
def GlobalCfg.filePart (c : GlobalCfg) (f : Nat) : Word := BitVec.ofNat 32 (match c.parts.find? fun p => bit p.files f with
  | some p => p.fn + 2 ^ 8 + (if bit p.kres f then 2 ^ 9 else 0)
  | none => 0)

theorem State.bindFiles_eq (s : State) (c : GlobalCfg) :
    s.bindFiles c = (List.range 16).foldl (fun (s : State) f => s.setReg 0 (filePage f) 0x048 (c.filePart f)) s := rfl

theorem bindFiles_other (s : State) (c : GlobalCfg) {b p o : Nat} (hp : p < 2 ^ 8) (ho : o < 2 ^ 16) (h : p < 0x20 ∨ o ≠ 0x048) :
    (s.bindFiles c).getReg b p o = s.getReg b p o := by
  rw [State.bindFiles_eq]
  refine getReg_foldl_setReg_other (page := filePage) (off := fun _ => 0x048) (fun f hf => ?_) s
  have := List.mem_range.mp hf
  unfold filePage
  exact regKey_ne (by omega) (by decide) hp ho (by omega)

theorem bindFiles_filePart (s : State) (c : GlobalCfg) {f : Nat} (hf : f < 16) :
    (s.bindFiles c).getReg 0 (filePage f) 0x048 = c.filePart f := by
  rw [State.bindFiles_eq]
  refine getReg_foldl_setReg (page := filePage) (off := fun _ => 0x048) (fun i j hi hj h => ?_) s hf
  unfold filePage
  exact regKey_ne (by omega) (by decide) (by omega) (by decide) (.inl (by omega))

/-- The files' owners are those of the configuration; every other register of the Arbiter's own, the partitions and its state are kept. -/
theorem rebind_spec (s : State) (c : GlobalCfg) : (s.rebind c).arb = s.arb ∧ (s.rebind c).parts = s.parts ∧
    (∀ b p o, arbReg p o = true → p < 0x20 → (s.rebind c).getReg b p o = s.getReg b p o) ∧
    ∀ f, f < 16 → (s.rebind c).getReg 0 (filePage f) 0x048 = c.filePart f := by
  have h : ArbSame (s.bindFiles c) (s.rebind c) := by
    refine foldl_sat_iff_mem (P := ArbSame (s.bindFiles c)) (fun t f hf => ?_) _ |>.mpr (ArbSame.refl _)
    have := List.mem_range.mp hf
    split
    · rfl
    · refine State.setReg_sat_iff (arbSame_frame _) _ _ _ _ _ ?_
      unfold filePage
      simp
  obtain ⟨m, e⟩ := foldl_setReg_kept 0 filePage (fun _ => 0x048) c.filePart (List.range 16) s
  have e : s.bindFiles c = { s with regs := m } := e
  refine ⟨h.arb.trans (by rw [e]), h.parts.trans (by rw [e]), fun b p o hp hl => ?_, fun f hf => ?_⟩
  · rw [h.reg _ _ _ hp, bindFiles_other s c (arbReg_lt hp).1 (arbReg_lt hp).2 (.inl hl)]
  · rw [h.reg _ _ _ (by unfold filePage; simp; omega), bindFiles_filePart s c hf]

/-! ## A configuration takes effect -/

/-- `t` is `s` in the moment in which the configuration `c` has taken effect. -/
structure CfgApplied (s t : State) (c : GlobalCfg) : Prop where
  arb : ∃ log flash floors, t.arb = { s.arb with log := log, flash := flash, floors := floors }
  gen : t.getF 0 Fld.DEV_GEN = add32 (s.getF 0 Fld.DEV_GEN) 1
  mbx : ∀ fn o, 0x400 ≤ o → o < 0x600 → t.getReg fn 0x01 o = s.getReg fn 0x01 o
  held : ∀ p ∈ c.parts, (assocGet {} t.parts p.fn).held = true
  gone : ∀ fn ∈ s.heldParts, (c.part fn).isNone → assocGet {} t.parts fn = {}
  files : ∀ f, f < 16 → t.getReg 0 (filePage f) 0x048 = c.filePart f

theorem GlobalCfg.part_isNone {c : GlobalCfg} {fn : Nat} (h : (c.part fn).isNone) : ∀ p ∈ c.parts, p.fn ≠ fn := fun p hp e => by
  have h : c.parts.find? (fun p => p.fn == fn) = none := Option.isNone_iff_eq_none.mp h
  simpa [e] using List.find?_eq_none.mp h p hp

/-- The last part of a change, after the generation counted up: the partitions are given and the files bound. -/
theorem bindParts_spec {s t : State} {c : GlobalCfg} (h : ArbSame ((c.parts.foldl (fun (s : State) p => s.givePart p) s).rebind c) t) :
    t.arb = s.arb ∧ (∀ b p o, arbReg p o = true → p < 0x20 → t.getReg b p o = s.getReg b p o) ∧
    (∀ p ∈ c.parts, (assocGet {} t.parts p.fn).held = true) ∧
    (∀ fn, (c.part fn).isNone → assocGet {} t.parts fn = assocGet {} s.parts fn) ∧
    ∀ f, f < 16 → t.getReg 0 (filePage f) 0x048 = c.filePart f := by
  have hg := giveParts_arbKept c.parts s
  obtain ⟨ha, hp, hr, hf⟩ := rebind_spec (c.parts.foldl (fun (s : State) p => s.givePart p) s) c
  refine ⟨?_, fun b p o e hl => ?_, fun p hm => ?_, fun fn hc => ?_, fun f hl => ?_⟩
  · rw [h.arb, ha, hg.arb]
  · rw [h.reg _ _ _ e, hr _ _ _ e hl, hg.reg _ _ _ e]
  · rw [h.parts, hp]
    exact giveParts_held _ _ _ (.inr ⟨p, hm, rfl⟩)
  · rw [h.parts, hp, giveParts_other (GlobalCfg.part_isNone hc)]
  · rw [h.reg _ _ _ (by unfold filePage; simp; omega), hf f hl]

theorem applyCfg_spec (s : State) (c : GlobalCfg) (path : Nat) : CfgApplied s (s.applyCfg c path) c := by
  have h1 : ArbSame s (s.zeroLost c) := s.zeroLost_sat (arbSame_frame s) c (ArbSame.refl s)
  unfold State.applyCfg
  extract_lets s1 gone s2 b0 s3 s4 s5
  obtain ⟨h2, hp2⟩ : ArbKept s1 s2 ∧ ∀ fn, assocGet {} s2.parts fn = if fn ∈ gone then {} else assocGet {} s1.parts fn :=
    releaseParts_spec gone s1
  have h2 : ArbKept s s2 := ArbKept.trans (ArbSame.toArbKept h1) h2
  let s2' : State := { s2 with arb := { s2.arb with floors := [] } }
  obtain ⟨hgen, hp, ⟨log, flash, ha⟩, hr⟩ := genChange_spec s2' path
  have h4 : s4.Sat (ArbSame (s3.rebind c)) := (State.setCtlOwner_sat_iff (arbSame_frame _) _ c.ctl).mpr (ArbSame.refl _)
  have h5 : s5.Sat (ArbSame (s3.rebind c)) := by
    refine foldl_sat (fun t fn h => ?_) _ _ h4
    split
    · exact t.lockPages_sat (arbSame_frame _) _ _ h
    · exact h
  have h6 : ArbSame (s3.rebind c) (s5.showImages.loadPortions fun f => !s.fileKres f) :=
    State.loadPortions_sat (arbSame_frame _) _ _ ((State.showImages_sat_iff (arbSame_frame _) _).mpr h5)
  obtain ⟨ka, kr, kh, ko, kf⟩ := bindParts_spec (s := s2'.genChange path) h6
  refine ⟨⟨log, flash, [], ?_⟩, ?_, fun fn o ho ho' => ?_, kh, fun fn hfn hc => ?_, kf⟩
  · rw [ka, ha, ← h2.arb]
  · have e := kr 0 0x00 0x100 rfl (by decide)
    exact (congrArg (fun w : Word => bits w.toNat 31 0) e).trans (hgen.trans (by rw [← h2.getF 0 Fld.DEV_GEN rfl]; rfl))
  · have e : arbReg 0x01 o = true := by simp [ho, ho']
    rw [kr _ _ _ e (by decide), hr _ _ _ (by decide) (by omega) (fun _ => ho) (by decide), ← h2.reg _ _ _ e]
    rfl
  · have e : s1.heldParts = s.heldParts := by
      unfold State.heldParts
      rw [h1.parts]
    have hm : fn ∈ gone := List.mem_filter.mpr ⟨e ▸ hfn, hc⟩
    rw [ko fn hc, hp]
    exact (hp2 fn).trans (if_pos hm)

end Sys2Proof.Machine
end

section
/-! # The Arbiter: mailbox requests -/

namespace Sys2Proof.Machine

theorem Answers.of_next {i : Instr} {s t u : State} {P : State → Prop} (h : exec i s = .next t) (e : t = u) (hp : P u) : Answers i s P :=
  ⟨u, h.trans (by rw [e]), hp⟩

/-! ## ARB_MBX_GO -/

theorem execArbMbxGo_reaches {s : State} {fn : Nat} (h : Reaches s fn 0x01) (hr : s.arb.restarting = false) (v : Nat) :
    exec (.arbMbxGo fn v) s = .next (
      if s.cmdDone fn Fld.ARB_MBX_STS_STATUS = false then s
      else if resvHit 0x01 0x040 v then (s.finishCmd fn Fld.ARB_MBX_STS_STATUS .arbMalformed).raiseIrq 0x01 fn 0
      else if !bit v 0 then s
      else { s.startCmd fn Fld.ARB_MBX_STS_STATUS with arb := { s.arb with mbx := s.arb.mbx ++ [fn] } }) := by
  show execArbMbxGo fn v s = _
  unfold execArbMbxGo
  rw [State.gated_reaches h]
  simp [hr]

theorem raiseIrq_arb (s : State) (page fn i : Nat) : (s.raiseIrq page fn i).arb = s.arb := by
  obtain ⟨m, e⟩ := s.raiseBits_spec page fn (2 ^ i)
  unfold State.raiseIrq
  rw [e]
  rfl

theorem arbMbxGo_malformed {s : State} {fn v : Nat} (h : Reaches s fn 0x01) (hr : s.arb.restarting = false)
    (hd : s.cmdDone fn Fld.ARB_MBX_STS_STATUS = true) (hv : resvHit 0x01 0x040 v = true) :
    Answers (.arbMbxGo fn v) s fun t => Completed t fn Fld.ARB_MBX_STS_STATUS .arbMalformed ∧ t.arb = s.arb := by
  refine Answers.of_next (execArbMbxGo_reaches h hr v) (by rw [if_neg (by simp [hd]), if_pos hv]) ⟨?_, ?_⟩
  · exact (State.finishCmd_completed s fn _ _).raiseIrq fn 0
  · rw [raiseIrq_arb]
    simp

theorem arbMbxGo_taken {s : State} {fn v : Nat} (h : Reaches s fn 0x01) (hr : s.arb.restarting = false)
    (hd : s.cmdDone fn Fld.ARB_MBX_STS_STATUS = true) (hv : resvHit 0x01 0x040 v = false) (hg : bit v 0 = true) :
    Answers (.arbMbxGo fn v) s fun t => t.getF fn Fld.ARB_MBX_STS_DONE = 0 ∧ t.arb = { s.arb with mbx := s.arb.mbx ++ [fn] } := by
  refine Answers.of_next (execArbMbxGo_reaches h hr v) (by rw [if_neg (by simp [hd]), if_neg (by simp [hv]), if_neg (by simp [hg])]) ⟨?_, ?_⟩
  · exact State.startCmd_done s fn Fld.ARB_MBX_STS_STATUS
  · rfl

theorem arbMbxGo_busy {s : State} {fn v : Nat} (h : Reaches s fn 0x01) (hr : s.arb.restarting = false)
    (hd : s.cmdDone fn Fld.ARB_MBX_STS_STATUS = false) : Answers (.arbMbxGo fn v) s fun t => t = s :=
  Answers.of_next (execArbMbxGo_reaches h hr v) (if_pos hd) rfl

/-! ## The request at the head of the order -/

/-- The request of `fn` is at the head of the order and has the operation `opc`; no change is under way, and no restart runs. -/
structure Heads (s : State) (fn opc : Nat) : Prop where
  head : s.arb.mbx.head? = some fn
  running : s.arb.restarting = false
  idle : s.arb.cfg = none
  op : leField (s.mbxReq fn) 0 1 = opc

/-- The argument bytes of a function's request. -/
def State.mbxArgs (s : State) (fn : Nat) : List Byte := ((s.mbxReq fn).drop 16).take (leField (s.mbxReq fn) 4 2)

theorem serveMbx_heads {s : State} {fn opc : Nat} (h : Heads s fn opc) (hk : (mbxLen opc).isSome) (own : Bool)
    (f : State → List Byte → State) : s.serveMbx fn opc own f =
      if own && !s.isOwner fn then s.mbxDone fn .owned []
      else if mbxBad (s.mbxReq fn) then s.mbxDone fn .arbMalformed [] else f s (s.mbxArgs fn) := by
  have hn : (mbxLen opc).isNone = false := by simpa using hk
  unfold State.serveMbx
  simp [h.head, h.running, h.idle, h.op, hn]
  rfl

theorem serveMbx_owned {s : State} {fn opc : Nat} (h : Heads s fn opc) (hk : (mbxLen opc).isSome) {own : Bool}
    (ho : (own && !s.isOwner fn) = true) (f : State → List Byte → State) : s.serveMbx fn opc own f = s.mbxDone fn .owned [] := by
  rw [serveMbx_heads h hk, if_pos ho]

theorem serveMbx_malformed {s : State} {fn opc : Nat} (h : Heads s fn opc) (hk : (mbxLen opc).isSome) {own : Bool}
    (ho : (own && !s.isOwner fn) = false) (hb : mbxBad (s.mbxReq fn) = true) (f : State → List Byte → State) :
    s.serveMbx fn opc own f = s.mbxDone fn .arbMalformed [] := by
  rw [serveMbx_heads h hk, if_neg (by simp [ho]), if_pos hb]

theorem serveMbx_waits {s : State} {fn : Nat} (h : s.arb.mbx.head? ≠ some fn) (opc : Nat) (own : Bool)
    (f : State → List Byte → State) : s.serveMbx fn opc own f = s := by
  unfold State.serveMbx
  simp [h]

theorem serveMbx_good {s : State} {fn opc : Nat} (h : Heads s fn opc) (hk : (mbxLen opc).isSome) {own : Bool}
    (ho : own = true → s.isOwner fn = true) (hb : mbxBad (s.mbxReq fn) = false) (f : State → List Byte → State) :
    s.serveMbx fn opc own f = f s (s.mbxArgs fn) := by
  have hd : (own && !s.isOwner fn) = false := by
    cases own with
    | false => rfl
    | true => simp [ho rfl]
  rw [serveMbx_heads h hk, if_neg (by simp [hd]), if_neg (by simp [hb])]

/-- The operations of the mailbox: each is served while no change is under way, those with 2 and 3 to the owner alone. -/
theorem mailbox_exec {p : Nat × (Nat → Instr)}
    (hp : p ∈ [(1, Instr.hello), (2, .releaseOwn), (3, .configWrite), (4, .configRead), (5, .sensors), (6, .logRead)]) {s : State}
    (hc : s.arb.cfg = none) (fn : Nat) :
    (mbxLen p.1).isSome ∧ ∃ f, exec (p.2 fn) s = .next (s.serveMbx fn p.1 (p.1 == 2 || p.1 == 3) f) := by
  simp only [List.mem_cons, List.not_mem_nil, or_false] at hp
  rcases hp with rfl | rfl | rfl | rfl | rfl | rfl
  · exact ⟨rfl, _, rfl⟩
  · exact ⟨rfl, _, rfl⟩
  · exact ⟨rfl, _, congrArg Host.Outcome.next (if_neg (by simp [hc]))⟩
  · exact ⟨rfl, _, rfl⟩
  · exact ⟨rfl, _, rfl⟩
  · exact ⟨rfl, _, rfl⟩

/-- A malformed request is answered so, whoever may make it. -/
theorem mailbox_malformed {p : Nat × (Nat → Instr)}
    (hp : p ∈ [(1, Instr.hello), (2, .releaseOwn), (3, .configWrite), (4, .configRead), (5, .sensors), (6, .logRead)]) {s : State} {fn : Nat}
    (h : Heads s fn p.1) (ho : p.1 ≠ 2 ∧ p.1 ≠ 3 ∨ s.isOwner fn = true) (hb : mbxBad (s.mbxReq fn) = true) :
    Answers (p.2 fn) s fun t => Answered s t fn .arbMalformed [] ∧ t.mem = s.mem ∧ t.hello = s.hello := by
  obtain ⟨hk, f, e⟩ := mailbox_exec hp h.idle fn
  have hd : ((p.1 == 2 || p.1 == 3) && !s.isOwner fn) = false := by
    rcases ho with ⟨h2, h3⟩ | ho
    · simp [h2, h3]
    · simp [ho]
  obtain ⟨-, -, hm, hh, -⟩ := s.mbxDone_kept fn .arbMalformed []
  exact Answers.of_next e (serveMbx_malformed h hk hd hb f) ⟨State.mbxDone_answered rfl rfl .arbMalformed [], hm, hh⟩

/-- The owner's requests are refused to others. -/
theorem mailbox_owned {p : Nat × (Nat → Instr)}
    (hp : p ∈ [(1, Instr.hello), (2, .releaseOwn), (3, .configWrite), (4, .configRead), (5, .sensors), (6, .logRead)]) {s : State} {fn : Nat}
    (h : Heads s fn p.1) (ho : p.1 = 2 ∨ p.1 = 3) (hn : s.isOwner fn = false) :
    Answers (p.2 fn) s fun t => Answered s t fn .owned [] ∧ t.mem = s.mem ∧ t.getReg 0 0x00 0x104 = s.getReg 0 0x00 0x104 := by
  obtain ⟨hk, f, e⟩ := mailbox_exec hp h.idle fn
  have hd : ((p.1 == 2 || p.1 == 3) && !s.isOwner fn) = true := by simp [ho, hn]
  obtain ⟨-, -, hm, -, hr⟩ := s.mbxDone_kept fn .owned []
  exact Answers.of_next e (serveMbx_owned h hk hd f)
    ⟨State.mbxDone_answered rfl rfl .owned [], hm, hr _ _ _ (by decide) (by decide) (by decide)⟩

theorem mailbox_waits {p : Nat × (Nat → Instr)}
    (hp : p ∈ [(1, Instr.hello), (2, .releaseOwn), (3, .configWrite), (4, .configRead), (5, .sensors), (6, .logRead)]) {s : State} {fn : Nat}
    (hc : s.arb.cfg = none) (h : s.arb.mbx.head? ≠ some fn) : Answers (p.2 fn) s fun t => t = s := by
  obtain ⟨-, f, e⟩ := mailbox_exec hp hc fn
  exact Answers.of_next e (serveMbx_waits h _ _ f) rfl

/-! ## HELLO and RELEASE -/

theorem hello_answers {s : State} {fn : Nat} (h : Heads s fn 1) (hb : mbxBad (s.mbxReq fn) = false) :
    Answers (.hello fn) s fun t =>
      if s.majorOk (leField (s.mbxArgs fn) 0 2) then
        Answered s t fn .ok s.ifver ∧ t.hello = assocInsert fn (leField (s.mbxArgs fn) 0 2) s.hello
      else Answered s t fn .versionUnsupported s.ifver ∧ t.hello = assocErase fn s.hello := by
  have e (f : State → List Byte → State) := serveMbx_good h rfl (own := false) (fun e => by cases e) hb f
  have ha (l : List (Nat × Nat)) (st : Status) : Answered s (({ s with hello := l }).mbxDone fn st s.ifver) fn st s.ifver ∧
      (({ s with hello := l }).mbxDone fn st s.ifver).hello = l :=
    ⟨State.mbxDone_answered (t := { s with hello := l }) rfl (mbxReq_congr fun _ _ _ => rfl) st s.ifver,
      (State.mbxDone_kept { s with hello := l } fn st s.ifver).2.2.2.1⟩
  by_cases hm : s.majorOk (leField (s.mbxArgs fn) 0 2) = true
  · simp only [hm, if_true]
    exact Answers.of_next rfl ((e _).trans (if_pos hm)) (ha _ .ok)
  · simp only [hm]
    exact Answers.of_next rfl ((e _).trans (if_neg hm)) (ha _ .versionUnsupported)

theorem getF_congr {s t : State} {b : Nat} {f : Fld} (h : t.getReg b f.page f.off = s.getReg b f.page f.off) : t.getF b f = s.getF b f := by
  unfold State.getF
  rw [h]

/-- DEV_OWN without an owner. -/
def State.freeOwner (s : State) : State := (s.setF 0 Fld.DEV_OWN_STATE 0).setF 0 Fld.DEV_OWN_FUNC 0

theorem freeOwner_arb (s : State) : s.freeOwner.arb = s.arb := by simp [State.freeOwner]

theorem freeOwner_state (s : State) : s.freeOwner.getF 0 Fld.DEV_OWN_STATE = 0 :=
  (State.getF_setF_bits _ 0 (f := Fld.DEV_OWN_FUNC) (g := Fld.DEV_OWN_STATE) 0 rfl rfl (by decide) (by decide) (by decide)).trans
    (State.getF_setF _ _ _ _ (by decide) (by decide))

theorem freeOwner_func (s : State) : s.freeOwner.getF 0 Fld.DEV_OWN_FUNC = 0 := State.getF_setF _ _ _ _ (by decide) (by decide)

theorem freeOwner_other (s : State) {b p o : Nat} (hp : p < 2 ^ 8) (ho : o < 2 ^ 16) (h : p ≠ 0 ∨ o ≠ 0x104) :
    s.freeOwner.getReg b p o = s.getReg b p o := by
  have k : regKey 0 0x00 0x104 ≠ regKey b p o := regKey_ne (by decide) (by decide) hp ho (by omega)
  exact (State.getReg_setF_other (f := Fld.DEV_OWN_FUNC) _ _ k).trans (State.getReg_setF_other (f := Fld.DEV_OWN_STATE) _ _ k)

theorem releaseOwn_answers {s : State} {fn : Nat} (h : Heads s fn 2) (hb : mbxBad (s.mbxReq fn) = false) (ho : s.isOwner fn = true) :
    Answers (.releaseOwn fn) s fun t => Answered s t fn .ok [] ∧ t.ownerFn = none ∧ t.getF 0 Fld.DEV_OWN_FUNC = 0 ∧
      t.getF 0 Fld.DEV_GEN = s.getF 0 Fld.DEV_GEN := by
  have hl : Logged s.freeOwner (s.freeOwner.ownerEvent fn) := ownerEvent_logged s.freeOwner fn
  have e : s.serveMbx fn 2 true (fun s _ => (s.freeOwner.ownerEvent fn).mbxDone fn .ok []) =
    (s.freeOwner.ownerEvent fn).mbxDone fn .ok [] := serveMbx_good h rfl (fun _ => ho) hb _
  have hf (f : Fld) (hp : f.page = 0) (hf : f.off < 0x200) :
      ((s.freeOwner.ownerEvent fn).mbxDone fn .ok []).getF 0 f = s.freeOwner.getF 0 f := by
    rw [State.mbxDone_getF _ _ _ _ _ _ (by omega) (by omega) (by omega), hl.getF _ _ (by omega) (by omega) (by omega)]
  refine Answers.of_next rfl e ⟨State.mbxDone_answered ?_ ((hl.mbxReq fn).trans ?_) _ _, ?_, ?_, ?_⟩
  · rw [hl.mbx, freeOwner_arb]
  · exact mbxReq_congr fun o _ ho => freeOwner_other s (by decide) (by omega) (.inl (by decide))
  · exact if_pos ((hf Fld.DEV_OWN_STATE rfl (by decide)).trans (freeOwner_state s))
  · rw [hf Fld.DEV_OWN_FUNC rfl (by decide), freeOwner_func]
  · exact (hf Fld.DEV_GEN rfl (by decide)).trans (getF_congr (freeOwner_other s (by decide) (by decide) (.inr (by decide))))

end Sys2Proof.Machine
end

section
/-! # The Arbiter: the configuration, the sensors and the log by mailbox -/

namespace Sys2Proof.Machine

/-! ## CONFIG_WRITE -/

/-- What the Arbiter does with a configuration block that it has read. -/
def State.judgeCfg (s : State) (fn : Nat) : Except Status (List Byte) → State
  | .error e => s.mbxDone fn e []
  | .ok b => match s.cfgFault b with
    | some e => s.mbxDone fn e []
    | none => s.beginCfg b fn 0

theorem configWrite_exec {s : State} {fn : Nat} (h : Heads s fn 3) (hb : mbxBad (s.mbxReq fn) = false) (ho : s.isOwner fn = true) :
    exec (.configWrite fn) s = .next (if leField (s.mbxArgs fn) 0 8 % 64 ≠ 0 then s.mbxDone fn .arbMalformed []
      else (s.readBlock fn (leField (s.mbxArgs fn) 0 8)).1.judgeCfg fn (s.readBlock fn (leField (s.mbxArgs fn) 0 8)).2) := by
  refine congrArg Host.Outcome.next ((if_neg (by simp [h.idle])).trans ((serveMbx_good h rfl (fun _ => ho) hb _).trans ?_))
  dsimp only
  split
  · rfl
  · obtain ⟨⟨s1, r⟩, e⟩ : ∃ r, s.readBlock fn (leField (s.mbxArgs fn) 0 8) = r := ⟨_, rfl⟩
    rw [e]
    cases r <;> rfl

theorem judgeCfg_gen (s : State) (fn : Nat) (r : Except Status (List Byte)) :
    (s.judgeCfg fn r).getF 0 Fld.DEV_GEN = s.getF 0 Fld.DEV_GEN := by
  have hd (st : Status) := s.mbxDone_getF fn st [] 0 Fld.DEV_GEN (by decide) (by decide) (by decide)
  unfold State.judgeCfg
  split
  · exact hd _
  · split
    · exact hd _
    · exact (s.beginCfg_spec _ _ _).2.2.2.2

theorem judgeCfg_refused {s s1 : State} (h : ArbSame s s1) (fn : Nat) {r : Except Status (List Byte)} {st : Status}
    (hr : r = .error st ∨ ∃ b, r = .ok b ∧ s1.cfgFault b = some st) : Answered s (s1.judgeCfg fn r) fn st [] := by
  have hd := State.mbxDone_answered (congrArg ArbSt.mbx h.arb) (h.mbxReq fn) st []
  rcases hr with rfl | ⟨b, rfl, e⟩
  · exact hd
  · unfold State.judgeCfg
    simp only [e]
    exact hd

theorem judgeCfg_begun {s s1 : State} (h : ArbSame s s1) (fn : Nat) {b : List Byte} (hf : s1.cfgFault b = none) :
    (s1.judgeCfg fn (.ok b)).arb.cfg = some (b, fn) ∧ (s1.judgeCfg fn (.ok b)).arb.mbx = s.arb.mbx ∧
    (s1.judgeCfg fn (.ok b)).parts = s.parts := by
  obtain ⟨hc, -, hm, hp, -⟩ := s1.beginCfg_spec b fn 0
  unfold State.judgeCfg
  simp only [hf]
  exact ⟨hc, by rw [hm, h.arb], by rw [hp, h.parts]⟩

theorem configWrite_answers {s : State} {fn : Nat} (h : Heads s fn 3) (hb : mbxBad (s.mbxReq fn) = false) (ho : s.isOwner fn = true) :
    let va := leField (s.mbxArgs fn) 0 8
    let r := s.readBlock fn va
    Answers (.configWrite fn) s fun t => t.getF 0 Fld.DEV_GEN = s.getF 0 Fld.DEV_GEN ∧
      (va % 64 ≠ 0 → Answered s t fn .arbMalformed []) ∧
      (∀ st, va % 64 = 0 → r.2 = .error st → Answered s t fn st []) ∧
      (∀ b, va % 64 = 0 → r.2 = .ok b → (∀ st, r.1.cfgFault b = some st → Answered s t fn st []) ∧
        (r.1.cfgFault b = none → t.arb.cfg = some (b, fn) ∧ t.arb.mbx = s.arb.mbx ∧ t.parts = s.parts)) := by
  intro va r
  have hs : ArbSame s r.1 := s.readBlock_sat (arbSame_frame s) fn va (ArbSame.refl s)
  by_cases hv : va % 64 = 0
  · refine Answers.of_next (configWrite_exec h hb ho) (if_neg (by simpa using hv))
      ⟨(judgeCfg_gen _ _ _).trans (hs.getF 0 Fld.DEV_GEN rfl), fun hn => absurd hv hn, fun st _ e => judgeCfg_refused hs fn (.inl e),
        fun b _ e => ⟨fun st hf => judgeCfg_refused hs fn (.inr ⟨b, e, hf⟩), fun hf => ?_⟩⟩
    have e : (s.readBlock fn (leField (s.mbxArgs fn) 0 8)).2 = .ok b := e
    rw [e]
    exact judgeCfg_begun hs fn hf
  · exact Answers.of_next (configWrite_exec h hb ho) (if_pos hv)
      ⟨s.mbxDone_getF fn _ [] 0 Fld.DEV_GEN (by decide) (by decide) (by decide), fun _ => State.mbxDone_answered rfl rfl _ _,
        fun _ e => absurd e hv, fun _ e => absurd e hv⟩

/-! ## CONFIG_READ, SENSORS and LOG_READ -/

/-- A request that writes a function's memory and then completes. -/
theorem mgrWrite_answered (s : State) (fn va : Nat) (data : List Byte) (st : Status) (payload : List Byte) :
    Answered s ((s.mgrWrite fn va data).1.mbxDone fn st payload) fn st payload ∧
    ((s.mgrWrite fn va data).1.mbxDone fn st payload).mem = (s.mgrWrite fn va data).1.mem := by
  have hs : ArbSame s (s.mgrWrite fn va data).1 := s.mgrWrite_sat (arbSame_frame s) fn va data (ArbSame.refl s)
  exact ⟨State.mbxDone_answered (congrArg ArbSt.mbx hs.arb) (hs.mbxReq fn) st payload, (State.mbxDone_kept _ fn st payload).2.2.1⟩

theorem mbxDone_answered_self (s : State) (fn : Nat) (st : Status) (payload : List Byte) :
    Answered s (s.mbxDone fn st payload) fn st payload ∧ (s.mbxDone fn st payload).mem = s.mem :=
  ⟨State.mbxDone_answered rfl rfl st payload, (s.mbxDone_kept fn st payload).2.2.1⟩

/-- The configuration that CONFIG_READ gives a function. -/
def State.cfgSeenBy (s : State) (fn : Nat) : GlobalCfg :=
  if s.isOwner fn then s.cfgInForce else { s.cfgInForce with parts := s.cfgInForce.parts.filter fun p => p.fn == fn }

theorem configRead_answers {s : State} {fn : Nat} (h : Heads s fn 4) (hb : mbxBad (s.mbxReq fn) = false) :
    let va := leField (s.mbxArgs fn) 0 8
    let w := s.mgrWrite fn va (cfgBytes (s.cfgSeenBy fn))
    Answers (.configRead fn) s fun t => (va % 64 ≠ 0 → Answered s t fn .arbMalformed [] ∧ t.mem = s.mem) ∧
      (va % 64 = 0 → Answered s t fn w.2 [] ∧ t.mem = w.1.mem) := by
  intro va w
  have e (f : State → List Byte → State) := serveMbx_good h rfl (own := false) (fun e => by cases e) hb f
  by_cases hv : va % 64 = 0
  · exact Answers.of_next rfl ((e _).trans (if_neg (by simpa using hv))) ⟨fun hn => absurd hv hn, fun _ => mgrWrite_answered s fn va _ _ []⟩
  · exact Answers.of_next rfl ((e _).trans (if_pos hv)) ⟨fun _ => mbxDone_answered_self s fn _ [], fun e => absurd e hv⟩

theorem drawScan_arbSame (s : State) : ArbSame s s.drawScan := by
  unfold State.drawScan
  split
  · exact ArbSame.refl s
  · exact (arbSame_frame s).keep (ArbSame.refl s) rfl rfl rfl rfl

theorem sensors_answers {s : State} {fn : Nat} (h : Heads s fn 5) (hb : mbxBad (s.mbxReq fn) = false) :
    Answers (.sensors fn) s fun t => Answered s t fn .ok s.sensorBytes ∧ t.mem = s.mem := by
  have hs := drawScan_arbSame s
  refine Answers.of_next rfl (serveMbx_good h rfl (fun e => by cases e) hb _)
    ⟨State.mbxDone_answered (congrArg ArbSt.mbx hs.arb) (hs.mbxReq fn) _ _, ((State.mbxDone_kept _ fn _ _).2.2.1).trans ?_⟩
  unfold State.drawScan
  split <;> rfl

/-- The entries of the log that a function's LOG_READ asks for and may see. -/
def State.logSeenBy (s : State) (fn : Nat) (a : List Byte) : List Event :=
  s.logFrom (bit (leField a 14 2) 0) (leField a 8 4) (leField a 12 2) fun e => s.isOwner fn || e.part == fn || e.part == 0xFF

theorem logRead_exec {s : State} {fn : Nat} (h : Heads s fn 6) (hb : mbxBad (s.mbxReq fn) = false) {a : List Byte} (ha : s.mbxArgs fn = a)
    {l : List Event} (hl : s.logSeenBy fn a = l) {w : State × Status} (hw : s.mgrWrite fn (leField a 0 8) (l.flatMap eventBytes) = w) :
    exec (.logRead fn) s = .next (if !logArgsOk a then s.mbxDone fn .arbMalformed []
      else if l.isEmpty then s.mbxDone fn .ok (leBytes 4 0)
      else if w.2 = .ok then w.1.mbxDone fn .ok (leBytes 4 l.length) else w.1.mbxDone fn w.2 []) := by
  subst ha hl hw
  exact congrArg Host.Outcome.next (serveMbx_good h rfl (fun e => by cases e) hb _)

theorem logRead_answers {s : State} {fn : Nat} (h : Heads s fn 6) (hb : mbxBad (s.mbxReq fn) = false) {a : List Byte}
    (ha : s.mbxArgs fn = a) {l : List Event} (hl : s.logSeenBy fn a = l) {w : State × Status}
    (hw : s.mgrWrite fn (leField a 0 8) (l.flatMap eventBytes) = w) :
    Answers (.logRead fn) s fun t => (logArgsOk a = false → Answered s t fn .arbMalformed []) ∧
      (logArgsOk a = true → l = [] → Answered s t fn .ok (leBytes 4 0) ∧ t.mem = s.mem) ∧
      (logArgsOk a = true → l ≠ [] → t.mem = w.1.mem ∧
        if w.2 = .ok then Answered s t fn .ok (leBytes 4 l.length) else Answered s t fn w.2 []) := by
  have e := logRead_exec h hb ha hl hw
  have hd (st : Status) (p : List Byte) : Answered s (w.1.mbxDone fn st p) fn st p ∧ (w.1.mbxDone fn st p).mem = w.1.mem :=
    hw ▸ mgrWrite_answered s fn _ _ st p
  cases ho : logArgsOk a with
  | false => exact Answers.of_next e (if_pos (by simp [ho])) ⟨fun _ => (mbxDone_answered_self s fn _ _).1, nofun, nofun⟩
  | true =>
    have e := e.trans (congrArg Host.Outcome.next (if_neg (by simp [ho])))
    by_cases hn : l = []
    · exact Answers.of_next e (if_pos (by simp [hn])) ⟨nofun, fun _ _ => mbxDone_answered_self s fn _ _, fun _ c => absurd hn c⟩
    · have e := e.trans (congrArg Host.Outcome.next (if_neg (by simp [hn])))
      by_cases hk : w.2 = .ok
      · exact Answers.of_next e (if_pos hk) ⟨nofun, fun _ c => absurd c hn, fun _ _ => ⟨(hd _ _).2, by rw [if_pos hk]; exact (hd _ _).1⟩⟩
      · exact Answers.of_next e (if_neg hk) ⟨nofun, fun _ c => absurd c hn, fun _ _ => ⟨(hd _ _).2, by rw [if_neg hk]; exact (hd _ _).1⟩⟩

/-! ## CONFIG_TAKE_EFFECT -/

theorem configTakeEffect_waits {s : State} {b : List Byte} {who : Nat} (hc : s.arb.cfg = some (b, who))
    (hq : s.cfgQuiet (parseCfg b) = false) : Answers .configTakeEffect s fun t => t = s := by
  refine ⟨s, ?_, rfl⟩
  show execConfigTakeEffect s = _
  unfold execConfigTakeEffect
  rw [hc]
  exact congrArg Host.Outcome.next (if_pos (by simp [hq]))

theorem configTakeEffect_exec {s : State} {b : List Byte} {who : Nat} (hc : s.arb.cfg = some (b, who))
    (hq : s.cfgQuiet (parseCfg b) = true) : ∃ s1, CfgApplied { s with arb := { s.arb with cfg := none } } s1 (parseCfg b) ∧
      exec .configTakeEffect s = .next (if who < 64 ∧ s1.arb.mbx.head? = some who then s1.mbxDone who .ok []
        else if s.arb.path = 3 then s1.hostEvent (who - 64) 3 else s1) := by
  refine ⟨_, applyCfg_spec _ _ s.arb.path, (?_ : execConfigTakeEffect s = _)⟩
  unfold execConfigTakeEffect
  rw [hc]
  exact congrArg Host.Outcome.next (if_neg (by simp [hq]))

/-- What a change shows stays as its request completes or the host's loss is logged. -/
theorem CfgApplied.of_regs {s t u : State} {c : GlobalCfg} (h : CfgApplied s t c) (hp : u.parts = t.parts)
    (hr : ∀ b p o, p < 2 ^ 8 → o < 2 ^ 16 → p ≠ 1 → u.getReg b p o = t.getReg b p o) :
    u.getF 0 Fld.DEV_GEN = add32 (s.getF 0 Fld.DEV_GEN) 1 ∧ (∀ p ∈ c.parts, (assocGet {} u.parts p.fn).held = true) ∧
    (∀ fn ∈ s.heldParts, (c.part fn).isNone → assocGet {} u.parts fn = {}) ∧
    ∀ f, f < 16 → u.getReg 0 (filePage f) 0x048 = c.filePart f := by
  refine ⟨?_, by rw [hp]; exact h.held, by rw [hp]; exact h.gone, fun f hf => ?_⟩
  · exact (getF_congr (hr 0 0x00 0x100 (by decide) (by decide) (by decide))).trans h.gen
  · have e : filePage f < 2 ^ 8 ∧ filePage f ≠ 1 := by
      unfold filePage
      omega
    rw [hr _ _ _ e.1 (by decide) e.2, h.files f hf]

theorem configTakeEffect_answers {s : State} {b : List Byte} {who : Nat} (hc : s.arb.cfg = some (b, who))
    (hq : s.cfgQuiet (parseCfg b) = true) : Answers .configTakeEffect s fun t => t.arb.cfg = none ∧
      t.getF 0 Fld.DEV_GEN = add32 (s.getF 0 Fld.DEV_GEN) 1 ∧ (who < 64 → s.arb.mbx.head? = some who → Answered s t who .ok []) ∧
      (∀ p ∈ (parseCfg b).parts, (assocGet {} t.parts p.fn).held = true) ∧
      (∀ fn ∈ s.heldParts, ((parseCfg b).part fn).isNone → assocGet {} t.parts fn = {}) ∧
      ∀ f, f < 16 → t.getReg 0 (filePage f) 0x048 = (parseCfg b).filePart f := by
  obtain ⟨s1, h, e⟩ := configTakeEffect_exec hc hq
  obtain ⟨log, flash, floors, ha⟩ := h.arb
  have hm : s1.arb.mbx = s.arb.mbx := by rw [ha]
  by_cases hw : who < 64 ∧ s1.arb.mbx.head? = some who
  · obtain ⟨⟨_, _, ka⟩, kp, -, -, kr⟩ := s1.mbxDone_kept who .ok []
    obtain ⟨hg, hh, ho, hf⟩ := h.of_regs kp kr
    refine Answers.of_next e (if_pos hw) ⟨by rw [ka, ha], hg, fun _ _ => ?_, hh, ho, hf⟩
    exact State.mbxDone_answered hm (mbxReq_congr (h.mbx who)) _ _
  · have hn (hl : who < 64) (hd : s.arb.mbx.head? = some who) (t : State) : Answered s t who .ok [] := absurd ⟨hl, hm ▸ hd⟩ hw
    have e := e.trans (congrArg Host.Outcome.next (if_neg hw))
    by_cases h3 : s.arb.path = 3
    · have k := hostEvent_logged s1 (who - 64) 3
      obtain ⟨_, _, ka⟩ := k.arb
      obtain ⟨hg, hh, ho, hf⟩ := h.of_regs k.parts fun b p o hp ho hn => k.reg b p o hp ho fun e => absurd e hn
      exact Answers.of_next e (if_pos h3) ⟨by rw [ka, ha], hg, fun hl hd => hn hl hd _, hh, ho, hf⟩
    · obtain ⟨hg, hh, ho, hf⟩ := h.of_regs (u := s1) rfl fun _ _ _ _ _ _ => rfl
      exact Answers.of_next e (if_neg h3) ⟨by rw [ha], hg, fun hl hd => hn hl hd _, hh, ho, hf⟩

end Sys2Proof.Machine
end

section
/-! # The Arbiter: the sensor scan and MCTP -/

namespace Sys2Proof.Machine

/-! ## ARB_SENSOR_SCAN -/

theorem arbIrqAll_reg (s : State) (i : Nat) {b p o : Nat} (hp : p < 2 ^ 8) (ho : o < 2 ^ 16) (h : p ≠ 1 ∨ o ≠ 0x010) :
    (s.arbIrqAll i).getReg b p o = s.getReg b p o :=
  foldl_keeps (P := fun t : State => t.getReg b p o = s.getReg b p o)
    (fun t fn e => (getReg_raiseIrq_other t fn i hp ho h).trans e) _ s rfl

/-- An event counts the log's SEQ. -/
theorem logEvent_seq (s : State) (sev page part kind code : Nat) (data : List Nat) :
    (s.logEvent sev page part kind code data).getF 0 Fld.ARB_LOG_SEQ = add32 (s.getF 0 Fld.ARB_LOG_SEQ) 1 := by
  have h (s : State) (v : Nat) : (s.setF 0 Fld.ARB_LOG_SEQ (v % 2 ^ 32)).getF 0 Fld.ARB_LOG_SEQ = v % 2 ^ 32 :=
    (State.getF_setF _ _ _ _ (by decide) (by decide)).trans (Nat.mod_mod _ _)
  unfold State.logEvent
  split
  · exact h s _
  · exact (getF_congr (arbIrqAll_reg _ 3 (by decide) (by decide) (.inr (by decide)))).trans (h s _)

/-- The readings that a scan shows: PWR_TJ and PWR_IN. -/
def State.showScan (s : State) (vals : List Nat) : State :=
  (({ s with arb := { s.arb with scan := vals, scanTime := s.now } }).setTj (hottest ((vals.take 32).map fun v => v % 256)).1
    (hottest ((vals.take 32).map fun v => v % 256)).2).setF 0 Fld.PWR_IN_MV (vals.getD 48 0 % 65536)

theorem showScan_arb (s : State) (vals : List Nat) : (s.showScan vals).arb = { s.arb with scan := vals, scanTime := s.now } := by
  simp [State.showScan, State.setTj]

theorem showScan_ticks (s : State) (vals : List Nat) : (s.showScan vals).ticks = s.ticks := by simp [State.showScan, State.setTj]

theorem showScan_mv (s : State) (vals : List Nat) : (s.showScan vals).getF 0 Fld.PWR_IN_MV = vals.getD 48 0 % 65536 :=
  (State.getF_setF _ _ _ _ (by decide) (by decide)).trans (Nat.mod_mod _ _)

theorem showScan_sensor (s : State) (vals : List Nat) :
    (s.showScan vals).getF 0 Fld.PWR_TJ_SENSOR = (hottest ((vals.take 32).map fun v => v % 256)).1 % 32 := by
  refine (State.getF_setF_reg (f := Fld.PWR_IN_MV) (g := Fld.PWR_TJ_SENSOR) _ _ (by decide)).trans ?_
  refine (State.getF_setF_bits _ 0 (f := Fld.PWR_TJ_DEGC) (g := Fld.PWR_TJ_SENSOR) _ rfl rfl (by decide) (by decide) (by decide)).trans ?_
  exact (State.getF_setF _ _ _ _ (by decide) (by decide)).trans (Nat.mod_mod _ _)

theorem showScan_degc (s : State) (vals : List Nat) :
    (s.showScan vals).getF 0 Fld.PWR_TJ_DEGC = (hottest ((vals.take 32).map fun v => v % 256)).2 % 256 := by
  refine (State.getF_setF_reg (f := Fld.PWR_IN_MV) (g := Fld.PWR_TJ_DEGC) _ _ (by decide)).trans ?_
  exact (State.getF_setF _ _ _ _ (by decide) (by decide)).trans (Nat.mod_mod _ _)

theorem showScan_seq (s : State) (vals : List Nat) : (s.showScan vals).getF 0 Fld.ARB_LOG_SEQ = s.getF 0 Fld.ARB_LOG_SEQ := by
  refine (State.getF_setF_reg (f := Fld.PWR_IN_MV) (g := Fld.ARB_LOG_SEQ) _ _ (by decide)).trans ?_
  refine (State.getF_setF_reg (f := Fld.PWR_TJ_DEGC) (g := Fld.ARB_LOG_SEQ) _ _ (by decide)).trans ?_
  exact State.getF_setF_reg (f := Fld.PWR_TJ_SENSOR) (g := Fld.ARB_LOG_SEQ) _ _ (by decide)

/-- A plate excursion is logged. -/
def State.logPlate (s : State) (v : Nat) : State :=
  ({ s with arb := { s.arb with plateAt := some s.ticks } }).logEvent 1 0x01 0xFF 8 0 [v]

theorem logPlate_logged (s : State) (v : Nat) : Logged { s with arb := { s.arb with plateAt := some s.ticks } } (s.logPlate v) :=
  logEvent_logged _ _ _ _ _ _ _

theorem logPlate_arb (s : State) (v : Nat) : ∃ log flash, (s.logPlate v).arb =
    { s.arb with plateAt := some s.ticks, log := log, flash := flash } := (logPlate_logged s v).arb

/-- Whether an excursion is due for the log: the first one, and then one in each minute. -/
def State.plateDue (s : State) : Bool := match s.arb.plateAt with
  | none => true
  | some k => decide (k + 15000000000 ≤ s.ticks)

/-- What a scan does with the plate's reading, once the others are shown. -/
def State.notePlate (s : State) (v : Nat) : State :=
  if plateOk (toSigned 8 (v % 256)) then { s with arb := { s.arb with plateAt := none } }
  else if s.plateDue then s.logPlate (v % 256) else s

theorem arbSensorScan_exec {s : State} {vals : List Nat} (hl : vals.length = 83) (hr : s.arb.restarting = false)
    (hp : s.getF 0 Fld.PWR_STATE_STATE ≠ 2) :
    exec (.arbSensorScan vals) s = .next ((s.showScan vals).notePlate (vals.getD 82 0)) := by
  refine congrArg Host.Outcome.next (if_neg ?_)
  simp [hl, hr, hp, scanLen]

/-- The plate's note keeps what the scan shows. -/
theorem notePlate_kept (s : State) (v : Nat) : (s.notePlate v).arb.scan = s.arb.scan ∧
    (s.notePlate v).arb.scanTime = s.arb.scanTime ∧ ∀ f : Fld, f.page = 3 → f.off < 0x400 → (s.notePlate v).getF 0 f = s.getF 0 f := by
  unfold State.notePlate
  split
  · exact ⟨rfl, rfl, fun _ _ _ => rfl⟩
  · split
    · obtain ⟨_, _, ha⟩ := logPlate_arb s (v % 256)
      exact ⟨by rw [ha], by rw [ha], fun f hp ho => (logPlate_logged s (v % 256)).getF 0 f (by omega) (by omega) (by omega)⟩
    · exact ⟨rfl, rfl, fun _ _ _ => rfl⟩

theorem notePlate_ok (s : State) {v : Nat} (h : plateOk (toSigned 8 (v % 256)) = true) :
    (s.notePlate v).arb.plateAt = none ∧ (s.notePlate v).arb.log = s.arb.log := by
  unfold State.notePlate
  rw [if_pos h]
  exact ⟨rfl, rfl⟩

theorem notePlate_first (s : State) {v : Nat} (h : plateOk (toSigned 8 (v % 256)) = false) (hn : s.arb.plateAt = none) :
    (s.notePlate v).arb.plateAt = some s.ticks ∧
    (s.notePlate v).getF 0 Fld.ARB_LOG_SEQ = add32 (s.getF 0 Fld.ARB_LOG_SEQ) 1 := by
  obtain ⟨_, _, ha⟩ := logPlate_arb s (v % 256)
  have hd : s.plateDue = true := by
    unfold State.plateDue
    rw [hn]
  unfold State.notePlate
  rw [if_neg (by simp [h]), if_pos hd]
  exact ⟨by rw [ha], logEvent_seq _ _ _ _ _ _ _⟩

theorem arbSensorScan_answers {s : State} {vals : List Nat} (hl : vals.length = 83) (hr : s.arb.restarting = false)
    (hp : s.getF 0 Fld.PWR_STATE_STATE ≠ 2) : Answers (.arbSensorScan vals) s fun t =>
      t.arb.scan = vals ∧ t.arb.scanTime = s.now ∧ t.getF 0 Fld.PWR_IN_MV = vals.getD 48 0 % 65536 ∧
      t.getF 0 Fld.PWR_TJ_SENSOR = (hottest ((vals.take 32).map fun v => v % 256)).1 % 32 ∧
      t.getF 0 Fld.PWR_TJ_DEGC = (hottest ((vals.take 32).map fun v => v % 256)).2 % 256 ∧
      (plateOk (toSigned 8 (vals.getD 82 0 % 256)) = true → t.arb.plateAt = none ∧ t.arb.log = s.arb.log) ∧
      (plateOk (toSigned 8 (vals.getD 82 0 % 256)) = false → s.arb.plateAt = none → t.arb.plateAt = some s.ticks ∧
        t.getF 0 Fld.ARB_LOG_SEQ = add32 (s.getF 0 Fld.ARB_LOG_SEQ) 1) := by
  have ha := showScan_arb s vals
  obtain ⟨hs, ht, hf⟩ := notePlate_kept (s.showScan vals) (vals.getD 82 0)
  refine Answers.of_eq (arbSensorScan_exec hl hr hp) ⟨by rw [hs, ha], by rw [ht, ha], (hf Fld.PWR_IN_MV rfl (by decide)).trans (showScan_mv s vals),
    (hf Fld.PWR_TJ_SENSOR rfl (by decide)).trans (showScan_sensor s vals), (hf Fld.PWR_TJ_DEGC rfl (by decide)).trans (showScan_degc s vals),
    fun h => ?_, fun h hn => ?_⟩
  · obtain ⟨h1, h2⟩ := notePlate_ok (s.showScan vals) h
    exact ⟨h1, by rw [h2, ha]⟩
  · obtain ⟨h1, h2⟩ := notePlate_first (s.showScan vals) h (by rw [ha]; exact hn)
    rw [showScan_ticks] at h1
    rw [showScan_seq] at h2
    exact ⟨h1, h2⟩

/-! ## MCTP -/

theorem mctpMessage_off {s : State} (h : s.flag 0 Fld.ARB_SMB_CFG_EN = false) (msg : List Byte) :
    Answers (.mctpMessage msg) s fun t => t = s :=
  Answers.of_eq (congrArg Host.Outcome.next (if_pos (by simp [h]))) rfl

/-- The port serves MCTP. -/
structure MctpOn (s : State) : Prop where
  enabled : s.flag 0 Fld.ARB_SMB_CFG_EN = true
  running : s.arb.restarting = false
  awake : s.getF 0 Fld.PWR_STATE_STATE ≠ 2
  serves : s.serves 0x01 = true

theorem mctpMessage_exec {s : State} (h : MctpOn s) (msg : List Byte) : exec (.mctpMessage msg) s =
    .next (match leField msg 0 1 % 128 with
      | 0 => { (mctpControl s msg).1 with arb := { (mctpControl s msg).1.arb with mctp := (mctpControl s msg).2 } }
      | 0x7E => if leField msg 1 1 * 256 + leField msg 2 1 ≠ Config.vendorId % 65536 then s
        else { (s.mctpVendor (msg.drop 3)).1 with
          arb := { (s.mctpVendor (msg.drop 3)).1.arb with mctp := msg.take 3 ++ (s.mctpVendor (msg.drop 3)).2 } }
      | _ => s) := by
  refine congrArg Host.Outcome.next ((if_neg ?_).trans ?_)
  · simp [h.enabled, h.running, h.awake, h.serves]
  · rfl

theorem mctpMessage_eid {s : State} (h : MctpOn s) {msg : List Byte} (ht : leField msg 0 1 % 128 = 0) (hc : leField msg 2 1 = 2) :
    Answers (.mctpMessage msg) s fun t => t = { s with arb := { s.arb with
      mctp := [0#8, BitVec.ofNat 8 (leField msg 1 1 % 32), 2#8, 0#8, BitVec.ofNat 8 s.arb.eid, 0#8, 0#8] } } := by
  refine Answers.of_next (mctpMessage_exec h msg) (by rw [ht]) ?_
  have e : mctpControl s msg = (s, [0#8, BitVec.ofNat 8 (leField msg 1 1 % 32), 2#8, 0#8, BitVec.ofNat 8 s.arb.eid, 0#8, 0#8]) := by
    unfold mctpControl
    rw [hc]
    rfl
  rw [e]
  rfl

theorem mctpVendor_kept (s : State) (req : List Byte) : (s.mctpVendor req).1.mem = s.mem ∧ (s.mctpVendor req).1.regs = s.regs := by
  have hd : s.drawScan.mem = s.mem ∧ s.drawScan.regs = s.regs := by
    unfold State.drawScan
    split
    · exact ⟨rfl, rfl⟩
    · exact ⟨rfl, rfl⟩
  unfold State.mctpVendor
  dsimp only
  split
  · split
    · exact ⟨rfl, rfl⟩
    · exact ⟨rfl, rfl⟩
  · split
    · exact ⟨rfl, rfl⟩
    · exact hd
  · split
    · exact ⟨rfl, rfl⟩
    · exact ⟨rfl, rfl⟩
  · split
    · exact ⟨rfl, rfl⟩
    · exact ⟨rfl, rfl⟩

theorem mctpVendor_owned (s : State) {req : List Byte} (h : leField req 0 1 ∈ [2, 3, 4]) :
    (s.mctpVendor req).2 = (mbxRsp req .owned []).take 16 := by
  simp only [List.mem_cons, List.not_mem_nil, or_false] at h
  unfold State.mctpVendor
  rcases h with h | h | h <;> rw [h] <;> rfl

theorem mctpVendor_malformed (s : State) {req : List Byte} (h : leField req 0 1 ∈ [1, 5]) (hb : mbxBad req = true) :
    (s.mctpVendor req).2 = (mbxRsp req .arbMalformed []).take 16 := by
  simp only [List.mem_cons, List.not_mem_nil, or_false] at h
  unfold State.mctpVendor
  rcases h with h | h <;> rw [h] <;> simp [hb]

theorem mctpVendor_sensors (s : State) {req : List Byte} (h : leField req 0 1 = 5) (hb : mbxBad req = false) :
    (s.mctpVendor req).2 = (mbxRsp req .ok s.sensorBytes).take (16 + s.sensorBytes.length) := by
  unfold State.mctpVendor
  rw [h]
  simp [hb]

theorem mctpMessage_vendor {s : State} (h : MctpOn s) {msg : List Byte} (ht : leField msg 0 1 % 128 = 0x7E) {mine : Prop}
    (hm : mine ↔ leField msg 1 1 * 256 + leField msg 2 1 = Config.vendorId % 65536) :
    Answers (.mctpMessage msg) s fun t => (¬ mine → t = s) ∧ t.mem = s.mem ∧ t.regs = s.regs ∧
      (mine → t.arb.mctp = msg.take 3 ++ (s.mctpVendor (msg.drop 3)).2) := by
  obtain ⟨hk, hr⟩ := mctpVendor_kept s (msg.drop 3)
  have e := mctpMessage_exec h msg
  rw [ht] at e
  by_cases hv : mine
  · exact Answers.of_next e (if_neg (not_not.mpr (hm.mp hv))) ⟨absurd hv, hk, hr, fun _ => rfl⟩
  · exact Answers.of_next e (if_pos fun c => hv (hm.mpr c)) ⟨fun _ => rfl, rfl, rfl, fun c => absurd c hv⟩

end Sys2Proof.Machine
end

section
/-! # The Arbiter: the hosts of the ports -/

namespace Sys2Proof.Machine

/-! ## What keeps a port as it is -/

/-- `t` has the links, the hosts and what the Arbiter follows of a port from `s`. -/
structure HostKept (s t : State) : Prop where
  reg : ∀ b p o, p < 2 ^ 8 → o < 2 ^ 16 → p ≠ 1 → p ≠ 2 → p ≠ 0 ∨ o ≠ 0x104 → t.getReg b p o = s.getReg b p o
  ports : t.arb.ports = s.arb.ports

theorem HostKept.refl (s : State) : HostKept s s := ⟨fun _ _ _ _ _ _ _ _ => rfl, rfl⟩

theorem HostKept.trans {s t u : State} (h : HostKept s t) (k : HostKept t u) : HostKept s u :=
  ⟨fun b p o hp ho h1 h2 h3 => (k.reg b p o hp ho h1 h2 h3).trans (h.reg b p o hp ho h1 h2 h3), k.ports.trans h.ports⟩

theorem Logged.ports {s t : State} (h : Logged s t) : t.arb.ports = s.arb.ports := by
  obtain ⟨_, _, ha⟩ := h.arb
  rw [ha]

theorem Logged.hostKept {s t : State} (h : Logged s t) : HostKept s t :=
  ⟨fun b p o hp ho h1 _ _ => h.reg b p o hp ho fun e => absurd e h1, h.ports⟩

theorem setF_hostKept (s : State) (b : Nat) (f : Fld) (v : Nat) (hp : f.page < 2 ^ 8) (ho : f.off < 2 ^ 16)
    (h : f.page = 1 ∨ f.page = 2 ∨ f.page = 0 ∧ f.off = 0x104) : HostKept s (s.setF b f v) where
  reg b' p o hp' ho' h1 h2 h3 := State.getReg_setF_other s v (regKey_ne hp ho hp' ho' (by omega))
  ports := by simp

theorem HostKept.port {s t : State} (h : HostKept s t) (p : Nat) : t.port p = s.port p := by
  unfold State.port
  rw [h.ports]

theorem HostKept.hostSt {s t : State} (h : HostKept s t) (p : Nat) : t.hostSt p = s.hostSt p := by
  unfold State.hostSt
  rw [h.reg 0 0x00 0x10C (by decide) (by decide) (by decide) (by decide) (.inr (by decide))]

/-- The fields of a port's register. -/
theorem HostKept.link {s t : State} (h : HostKept s t) {port : Nat} (hp : port < 4) {f : Fld} (hf : f.page = 0x10) (ho : f.off = 0x40) :
    t.getF 0 (f.plus (4 * port)) = s.getF 0 (f.plus (4 * port)) :=
  getF_congr (h.reg 0 f.page (f.off + 4 * port) (by omega) (by omega) (by omega) (by omega) (.inl (by omega)))

theorem makeOwner_hostKept (s : State) (fn : Nat) : HostKept s (s.makeOwner fn) :=
  ((setF_hostKept s 0 Fld.DEV_OWN_STATE 1 (by decide) (by decide) (.inr (.inr ⟨rfl, rfl⟩))).trans
    (setF_hostKept _ 0 Fld.DEV_OWN_FUNC fn (by decide) (by decide) (.inr (.inr ⟨rfl, rfl⟩)))).trans (ownerEvent_logged _ fn).hostKept

theorem linkWins_hostKept (s : State) (port : Nat) : HostKept s (s.linkWins port) := by
  unfold State.linkWins
  split
  · split
    · refine HostKept.trans ?_ (makeOwner_hostKept _ _)
      refine HostKept.trans (t := { s with arb := { s.arb with taken := none } }) ⟨fun _ _ _ _ _ _ _ _ => rfl, rfl⟩ ?_
      exact (setF_hostKept _ _ { Fld.CSL_CMD_STS_STATUS with hi := 31, lo := 16 } _ (by decide) (by decide) (.inr (.inl rfl))).trans
        (setF_hostKept _ _ { Fld.CSL_CMD_STS_STATUS with hi := 15, lo := 15 } _ (by decide) (by decide) (.inr (.inl rfl)))
    · exact HostKept.refl s
  · exact HostKept.refl s

/-! ## A host's state and a port's registers -/

theorem portCount_le (s : State) : s.portCount ≤ 4 := by
  unfold State.portCount State.fnCount
  split <;> omega

theorem hostSt_setHostSt (s : State) {p : Nat} (h : p < 4) (v : Nat) (hv : v < 16) : (s.setHostSt p v).hostSt p = v := by
  have e := State.getF_setF s 0 ⟨0x00, 0x10C, 4 * p + 3, 4 * p⟩ v (by simp) (by simp; omega)
  refine Eq.trans (e : _) (Nat.mod_eq_of_lt ?_)
  rw [show 4 * p + 3 + 1 - 4 * p = 4 by omega]
  exact hv

theorem setHostSt_reg (s : State) (p v : Nat) {b q o : Nat} (hp : q < 2 ^ 8) (ho : o < 2 ^ 16) (h : q ≠ 0 ∨ o ≠ 0x10C) :
    (s.setHostSt p v).getReg b q o = s.getReg b q o := by
  have k : regKey 0 0x00 0x10C ≠ regKey b q o := regKey_ne (by decide) (by decide) hp ho (by omega)
  exact State.getReg_setF_other (f := ⟨0x00, 0x10C, 4 * p + 3, 4 * p⟩) s v k

theorem setHostSt_arb (s : State) (p v : Nat) : (s.setHostSt p v).arb = s.arb := by simp [State.setHostSt]

theorem port_setPort (s : State) (p : Nat) (x : PortSt) : (s.setPort p x).port p = x := assocGet_set_same _ _ _ _

theorem getReg_setPort (s : State) (p : Nat) (x : PortSt) (b q o : Nat) : (s.setPort p x).getReg b q o = s.getReg b q o := rfl

theorem hostSt_setPort (s : State) (p : Nat) (x : PortSt) (q : Nat) : (s.setPort p x).hostSt q = s.hostSt q := rfl

/-- A field of a port's register, written. -/
theorem getF_setPortFld (s : State) {port : Nat} {f : Fld} (v : Nat) (h : f.lo ≤ f.hi) (hw : f.hi < 32) :
    (s.setF 0 (f.plus (4 * port)) v).getF 0 (f.plus (4 * port)) = v % 2 ^ (f.hi + 1 - f.lo) :=
  State.getF_setF s 0 (f.plus (4 * port)) v h hw

/-- Another field of a port's register keeps its value. -/
theorem getF_setPortFld_other (s : State) {port : Nat} {f g : Fld} (v : Nat) (hp : f.page = g.page) (ho : f.off = g.off)
    (h : f.lo ≤ f.hi) (hw : f.hi < 32) (hd : g.hi < f.lo ∨ f.hi < g.lo) :
    (s.setF 0 (f.plus (4 * port)) v).getF 0 (g.plus (4 * port)) = s.getF 0 (g.plus (4 * port)) :=
  State.getF_setF_bits s 0 (f := f.plus (4 * port)) (g := g.plus (4 * port)) v hp (by simp [Fld.plus, ho]) h hw hd

theorem setPortFld_reg (s : State) {port : Nat} {f : Fld} (v : Nat) (hl : port < 4) (hf : f.page = 0x10) (hx : f.off = 0x40) {b p o : Nat}
    (hp : p < 2 ^ 8) (ho : o < 2 ^ 16) (h : p ≠ 0x10) : (s.setF 0 (f.plus (4 * port)) v).getReg b p o = s.getReg b p o :=
  State.getReg_setF_other s v (regKey_ne (p := f.page) (o := f.off + 4 * port) (by omega) (by omega) hp ho (.inl (by omega)))

end Sys2Proof.Machine
end

section
/-! # The Arbiter: links come and go, and hosts are lost -/

namespace Sys2Proof.Machine

theorem link_setHostSt (s : State) (p v : Nat) {port : Nat} (hl : port < 4) {f : Fld} (hf : f.page = 0x10) (ho : f.off = 0x40) :
    (s.setHostSt p v).getF 0 (f.plus (4 * port)) = s.getF 0 (f.plus (4 * port)) :=
  getF_congr (setHostSt_reg (q := f.page) (o := f.off + 4 * port) s p v (by omega) (by omega) (.inl (by omega)))

theorem getF_setHostSt (s : State) (p v : Nat) {f : Fld} (hp : f.page < 2 ^ 8) (ho : f.off < 2 ^ 16) (h : f.page ≠ 0 ∨ f.off ≠ 0x10C) :
    (s.setHostSt p v).getF 0 f = s.getF 0 f := getF_congr (setHostSt_reg s p v hp ho h)

/-! ## PCIE_LINK_DOWN -/

/-- A port's link shows neither lanes nor a speed. -/
def State.linkOff (s : State) (port : Nat) : State :=
  (s.setF 0 (Fld.PCI_PORTn_WIDTH.plus (4 * port)) 0).setF 0 (Fld.PCI_PORTn_SPEED.plus (4 * port)) 0

theorem linkOff_speed (s : State) (port : Nat) : (s.linkOff port).getF 0 (Fld.PCI_PORTn_SPEED.plus (4 * port)) = 0 :=
  getF_setPortFld _ (f := Fld.PCI_PORTn_SPEED) _ (by decide) (by decide)

theorem linkOff_width (s : State) (port : Nat) : (s.linkOff port).getF 0 (Fld.PCI_PORTn_WIDTH.plus (4 * port)) = 0 :=
  (getF_setPortFld_other _ (f := Fld.PCI_PORTn_SPEED) (g := Fld.PCI_PORTn_WIDTH) _ rfl rfl (by decide) (by decide) (by decide)).trans
    (getF_setPortFld _ (f := Fld.PCI_PORTn_WIDTH) _ (by decide) (by decide))

theorem linkOff_port (s : State) (port p : Nat) : (s.linkOff port).port p = s.port p := by simp [State.linkOff, State.port]

theorem linkOff_ticks (s : State) (port : Nat) : (s.linkOff port).ticks = s.ticks := by simp [State.linkOff]

/-- The host of a port that goes down: DEV_HOSTS, the tick and the event. -/
def State.hostDown (s : State) (port : Nat) : State :=
  ((s.setPort port { s.port port with downAt := some s.ticks }).setHostSt port 1).hostEvent port 0

theorem hostDown_logged (s : State) (port : Nat) :
    Logged ((s.setPort port { s.port port with downAt := some s.ticks }).setHostSt port 1) (s.hostDown port) := hostEvent_logged _ _ _

theorem hostDown_hostSt (s : State) {port : Nat} (hl : port < 4) : (s.hostDown port).hostSt port = 1 :=
  ((hostDown_logged s port).hostKept.hostSt port).trans (hostSt_setHostSt _ hl 1 (by decide))

theorem hostDown_link (s : State) {port : Nat} (hl : port < 4) {f : Fld} (hf : f.page = 0x10) (ho : f.off = 0x40) :
    (s.hostDown port).getF 0 (f.plus (4 * port)) = s.getF 0 (f.plus (4 * port)) :=
  ((hostDown_logged s port).hostKept.link hl hf ho).trans ((link_setHostSt _ port 1 hl hf ho).trans (getF_congr (getReg_setPort _ _ _ _ _ _)))

theorem hostDown_port (s : State) (port : Nat) : (s.hostDown port).port port = { s.port port with downAt := some s.ticks } := by
  rw [(hostDown_logged s port).hostKept.port port]
  unfold State.port
  rw [setHostSt_arb]
  exact port_setPort s port _

theorem pcieLinkDown_answers {s : State} {port : Nat} (hp : port < s.portCount) (hb : s.getF 0 Fld.DEV_BOOT_STAGE = 7)
    (h0 : s.hostSt port = 0) : Answers (.pcieLinkDown port) s fun t => t.hostSt port = 1 ∧
      t.getF 0 (Fld.PCI_PORTn_WIDTH.plus (4 * port)) = 0 ∧ t.getF 0 (Fld.PCI_PORTn_SPEED.plus (4 * port)) = 0 ∧
      t.port port = { s.port port with downAt := some s.ticks } := by
  have hl : port < 4 := lt_of_lt_of_le hp (portCount_le s)
  have e : exec (.pcieLinkDown port) s = .next ((s.linkOff port).hostDown port) := by
    refine congrArg Host.Outcome.next ((if_neg (by omega)).trans (if_neg ?_))
    simp [State.hostsShown, hb, h0]
  refine Answers.of_eq e ⟨hostDown_hostSt _ hl, (hostDown_link _ hl (f := Fld.PCI_PORTn_WIDTH) rfl rfl).trans (linkOff_width s port),
    (hostDown_link _ hl (f := Fld.PCI_PORTn_SPEED) rfl rfl).trans (linkOff_speed s port), ?_⟩
  rw [hostDown_port, linkOff_port, linkOff_ticks]

/-! ## PCIE_LINK_UP -/

/-- A port's link shows its speed and its lanes. -/
def State.linkOn (s : State) (port speed width : Nat) : State :=
  (s.setF 0 (Fld.PCI_PORTn_SPEED.plus (4 * port)) speed).setF 0 (Fld.PCI_PORTn_WIDTH.plus (4 * port)) width

theorem linkOn_width (s : State) (port speed width : Nat) :
    (s.linkOn port speed width).getF 0 (Fld.PCI_PORTn_WIDTH.plus (4 * port)) = width % 2 ^ 5 :=
  getF_setPortFld _ (f := Fld.PCI_PORTn_WIDTH) _ (by decide) (by decide)

theorem linkOn_speed (s : State) (port speed width : Nat) :
    (s.linkOn port speed width).getF 0 (Fld.PCI_PORTn_SPEED.plus (4 * port)) = speed % 2 ^ 4 :=
  (getF_setPortFld_other _ (f := Fld.PCI_PORTn_WIDTH) (g := Fld.PCI_PORTn_SPEED) _ rfl rfl (by decide) (by decide) (by decide)).trans
    (getF_setPortFld _ (f := Fld.PCI_PORTn_SPEED) _ (by decide) (by decide))

theorem linkOn_reg (s : State) {port : Nat} (hl : port < 4) (speed width : Nat) {b p o : Nat} (hp : p < 2 ^ 8) (ho : o < 2 ^ 16)
    (h : p ≠ 0x10) : (s.linkOn port speed width).getReg b p o = s.getReg b p o :=
  (setPortFld_reg (f := Fld.PCI_PORTn_WIDTH) _ _ hl rfl rfl hp ho h).trans (setPortFld_reg (f := Fld.PCI_PORTn_SPEED) _ _ hl rfl rfl hp ho h)

theorem linkOn_arb (s : State) (port speed width : Nat) : (s.linkOn port speed width).arb = s.arb := by simp [State.linkOn]

theorem pcieLinkUp_training {s : State} {port speed : Nat} (hp : port < s.portCount) (hs : speed < 3) (lanes : Nat) :
    Answers (.pcieLinkUp port speed lanes) s fun t => t.hostSt port = s.hostSt port ∧ t.getF 0 (Fld.PCI_PORTn_WIDTH.plus (4 * port)) = 0 ∧
      t.getF 0 (Fld.PCI_PORTn_SPEED.plus (4 * port)) = speed ∧ t.port port = s.port port := by
  have hl : port < 4 := lt_of_lt_of_le hp (portCount_le s)
  have e : exec (.pcieLinkUp port speed lanes) s = .next (s.linkOn port speed (if speed < 3 then 0 else lanes)) :=
    congrArg Host.Outcome.next ((if_neg (by omega)).trans (if_pos (.inl hs)))
  rw [if_pos hs] at e
  refine Answers.of_eq e ⟨?_, linkOn_width _ _ _ _, ?_, ?_⟩
  · unfold State.hostSt
    rw [linkOn_reg s hl _ _ (by decide) (by decide) (by decide)]
  · rw [linkOn_speed]
    omega
  · unfold State.port
    rw [linkOn_arb]

/-- A host whose port's link is up is UP, with an event where it was not. -/
def State.hostUp (s : State) (port : Nat) : State :=
  if s.hostSt port = 0 then s else (s.setHostSt port 0).hostEvent port 2

theorem hostUp_hostSt (s : State) {port : Nat} (hl : port < 4) : (s.hostUp port).hostSt port = 0 := by
  unfold State.hostUp
  split
  · assumption
  · exact ((hostEvent_logged _ _ _).hostKept.hostSt port).trans (hostSt_setHostSt _ hl 0 (by decide))

theorem hostUp_reg (s : State) (port : Nat) {b p o : Nat} (hp : p < 2 ^ 8) (ho : o < 2 ^ 16) (h1 : p ≠ 1) (h : p ≠ 0 ∨ o ≠ 0x10C) :
    (s.hostUp port).getReg b p o = s.getReg b p o := by
  unfold State.hostUp
  split
  · rfl
  · exact ((hostEvent_logged _ _ _).reg b p o hp ho fun e => absurd e h1).trans (setHostSt_reg _ _ _ hp ho h)

theorem hostUp_port (s : State) (port p : Nat) : (s.hostUp port).port p = s.port p := by
  unfold State.hostUp
  split
  · rfl
  · rw [(hostEvent_logged _ _ _).hostKept.port]
    unfold State.port
    rw [setHostSt_arb]

/-- The state in which the link of a port is up, before its owner is looked at. -/
def State.linkedUp (s : State) (port speed lanes : Nat) : State :=
  State.hostUp (((s.linkOn port speed lanes).setF 0 (Fld.PCI_PORTn_VFS.plus (4 * port)) (Config.numVfs port s.ticks % 16)).setPort port
    { downAt := none, seenUp := true, lostAt := none }) port

theorem linkedUp_link (s : State) {port : Nat} (hl : port < 4) (speed lanes : Nat) {f : Fld} (hf : f.page = 0x10) (ho : f.off = 0x40)
    (hh : f.hi < 16) : (s.linkedUp port speed lanes).getF 0 (f.plus (4 * port)) = (s.linkOn port speed lanes).getF 0 (f.plus (4 * port)) :=
  (getF_congr (hostUp_reg (p := f.page) (o := f.off + 4 * port) _ port (by omega) (by omega) (by omega) (.inl (by omega)))).trans
    ((getF_congr (getReg_setPort _ _ _ _ _ _)).trans
      (getF_setPortFld_other _ (f := Fld.PCI_PORTn_VFS) (g := f) _ hf.symm ho.symm (by decide) (by decide) (.inl hh)))

theorem linkedUp_port (s : State) (port speed lanes : Nat) :
    (s.linkedUp port speed lanes).port port = { downAt := none, seenUp := true, lostAt := none } := by
  unfold State.linkedUp
  rw [hostUp_port, port_setPort]

theorem linkedUp_reg (s : State) {port : Nat} (hl : port < 4) (speed lanes : Nat) {b p o : Nat} (hp : p < 2 ^ 8) (ho : o < 2 ^ 16)
    (h1 : p ≠ 1) (h2 : p ≠ 0x10) (h : p ≠ 0 ∨ o ≠ 0x10C) : (s.linkedUp port speed lanes).getReg b p o = s.getReg b p o :=
  (hostUp_reg _ port hp ho h1 h).trans ((getReg_setPort _ _ _ _ _ _).trans
    ((setPortFld_reg (f := Fld.PCI_PORTn_VFS) _ _ hl rfl rfl hp ho h2).trans (linkOn_reg s hl _ _ hp ho h2)))

theorem pcieLinkUp_exec {s : State} {port speed lanes : Nat} (hp : port < s.portCount) (hb : s.getF 0 Fld.DEV_BOOT_STAGE = 7)
    (h3 : 3 ≤ speed) (h5 : speed ≤ 5) : exec (.pcieLinkUp port speed lanes) s =
      .next (if (s.linkedUp port speed lanes).getF 0 Fld.DEV_OWN_STATE = 2 ∧
          (s.linkedUp port speed lanes).getF 0 Fld.DEV_OWN_FUNC / 16 = port then
        ((s.linkedUp port speed lanes).setF 0 Fld.DEV_OWN_STATE 1).ownerEvent ((s.linkedUp port speed lanes).getF 0 Fld.DEV_OWN_FUNC)
      else (s.linkedUp port speed lanes).linkWins port) := by
  have hl : port < 4 := lt_of_lt_of_le hp (portCount_le s)
  let s0 := (s.linkOn port speed lanes).setF 0 (Fld.PCI_PORTn_VFS.plus (4 * port)) (Config.numVfs port s.ticks % 16)
  have hreg {b p o : Nat} (hp : p < 2 ^ 8) (ho : o < 2 ^ 16) (h : p ≠ 0x10) : s0.getReg b p o = s.getReg b p o :=
    (setPortFld_reg (f := Fld.PCI_PORTn_VFS) _ _ hl rfl rfl hp ho h).trans (linkOn_reg s hl _ _ hp ho h)
  have hst : s.hostSt port = (s0.setPort port { downAt := none, seenUp := true, lostAt := none }).hostSt port := by
    rw [hostSt_setPort]
    unfold State.hostSt
    rw [hreg (by decide) (by decide) (by decide)]
  show execPcieLinkUp port speed lanes s = _
  unfold execPcieLinkUp
  rw [if_neg (by omega), if_neg (show ¬speed < 3 by omega)]
  refine congrArg Host.Outcome.next ((if_neg (by omega)).trans ((if_neg ?_).trans ?_))
  · simp [State.hostsShown, hb]
  · have e : s.linkedUp port speed lanes = if s.hostSt port = 0 then s0.setPort port { downAt := none, seenUp := true, lostAt := none }
        else ((s0.setPort port { downAt := none, seenUp := true, lostAt := none }).setHostSt port 0).hostEvent port 2 := by
      rw [hst]
      rfl
    rw [e]
    rfl

theorem pcieLinkUp_answers {s : State} {port speed lanes : Nat} (hp : port < s.portCount) (hb : s.getF 0 Fld.DEV_BOOT_STAGE = 7)
    (h3 : 3 ≤ speed) (h5 : speed ≤ 5) (hn : lanes < 32) : Answers (.pcieLinkUp port speed lanes) s fun t =>
      t.hostSt port = 0 ∧ t.getF 0 (Fld.PCI_PORTn_WIDTH.plus (4 * port)) = lanes ∧
      t.getF 0 (Fld.PCI_PORTn_SPEED.plus (4 * port)) = speed ∧ t.port port = { downAt := none, seenUp := true, lostAt := none } ∧
      (s.getF 0 Fld.DEV_OWN_STATE = 2 → s.getF 0 Fld.DEV_OWN_FUNC / 16 = port → t.getF 0 Fld.DEV_OWN_STATE = 1 ∧
        t.getF 0 Fld.DEV_OWN_FUNC = s.getF 0 Fld.DEV_OWN_FUNC) := by
  have hl : port < 4 := lt_of_lt_of_le hp (portCount_le s)
  have e := pcieLinkUp_exec (lanes := lanes) hp hb h3 h5
  have hown (f : Fld) (hf : f.page = 0) (ho : f.off = 0x104) : (s.linkedUp port speed lanes).getF 0 f = s.getF 0 f :=
    getF_congr (linkedUp_reg s hl _ _ (by omega) (by omega) (by omega) (by omega) (.inr (by omega)))
  have hst : (s.linkedUp port speed lanes).hostSt port = 0 := hostUp_hostSt _ hl
  have hw := (linkedUp_link s hl speed lanes (f := Fld.PCI_PORTn_WIDTH) rfl rfl (by decide)).trans (linkOn_width s port speed lanes)
  have hsp := (linkedUp_link s hl speed lanes (f := Fld.PCI_PORTn_SPEED) rfl rfl (by decide)).trans (linkOn_speed s port speed lanes)
  have hpo := linkedUp_port s port speed lanes
  rw [hown Fld.DEV_OWN_STATE rfl rfl, hown Fld.DEV_OWN_FUNC rfl rfl] at e
  have hall {t : State} (h : HostKept (s.linkedUp port speed lanes) t) : t.hostSt port = 0 ∧
      t.getF 0 (Fld.PCI_PORTn_WIDTH.plus (4 * port)) = lanes ∧ t.getF 0 (Fld.PCI_PORTn_SPEED.plus (4 * port)) = speed ∧
      t.port port = { downAt := none, seenUp := true, lostAt := none } :=
    ⟨(h.hostSt port).trans hst, (h.link hl (f := Fld.PCI_PORTn_WIDTH) rfl rfl).trans (hw.trans (by omega)),
      (h.link hl (f := Fld.PCI_PORTn_SPEED) rfl rfl).trans (hsp.trans (by omega)), (h.port port).trans hpo⟩
  by_cases hc : s.getF 0 Fld.DEV_OWN_STATE = 2 ∧ s.getF 0 Fld.DEV_OWN_FUNC / 16 = port
  · have hk := ownerEvent_logged ((s.linkedUp port speed lanes).setF 0 Fld.DEV_OWN_STATE 1) (s.getF 0 Fld.DEV_OWN_FUNC)
    obtain ⟨h1, h2, h4, h6⟩ := hall ((setF_hostKept _ 0 Fld.DEV_OWN_STATE 1 (by decide) (by decide) (.inr (.inr ⟨rfl, rfl⟩))).trans hk.hostKept)
    refine Answers.of_next e (if_pos hc) ⟨h1, h2, h4, h6, fun _ _ => ⟨?_, ?_⟩⟩
    · exact (hk.getF 0 Fld.DEV_OWN_STATE (by decide) (by decide) (by decide)).trans (State.getF_setF _ _ _ _ (by decide) (by decide))
    · exact (hk.getF 0 Fld.DEV_OWN_FUNC (by decide) (by decide) (by decide)).trans ((State.getF_setF_bits _ 0 (f := Fld.DEV_OWN_STATE)
        (g := Fld.DEV_OWN_FUNC) _ rfl rfl (by decide) (by decide) (by decide)).trans (hown Fld.DEV_OWN_FUNC rfl rfl))
  · obtain ⟨h1, h2, h4, h6⟩ := hall (linkWins_hostKept _ port)
    exact Answers.of_next e (if_neg hc) ⟨h1, h2, h4, h6, fun a b => absurd ⟨a, b⟩ hc⟩

/-! ## HOST_LOST -/

theorem hostLost_waits {s : State} {port : Nat} (hd : s.hostDue port = false) : Answers (.hostLost port) s fun t => t = s :=
  Answers.of_eq (congrArg Host.Outcome.next (if_pos (.inr (by simp [hd])))) rfl

/-- A host is lost: DEV_HOSTS, the tick and the event. -/
def State.hostGone (s : State) (port : Nat) : State :=
  ((s.setHostSt port 2).setPort port { s.port port with lostAt := some s.ticks }).hostEvent port 1

/-- The partitions of a lost host quiesce, and the control-owner among them freezes its loops. -/
def State.quiesceHost (s : State) (port : Nat) : State :=
  let fns := s.heldParts.filter fun fn => fn / 16 == port
  let s2 := fns.foldl (fun (s : State) fn => s.quiesceQueues fn false) s
  if fns.any (fun fn => s2.isCtlOwner fn) then s2.tempoFreeze 6 else s2

theorem quiesceHost_arbSame (s : State) (port : Nat) : ArbSame s (s.quiesceHost port) := by
  have h := foldl_sat (P := ArbSame s) (fun t fn h => t.quiesceQueues_sat (arbSame_frame s) fn false h)
    (s.heldParts.filter fun fn => fn / 16 == port) s (ArbSame.refl s)
  unfold State.quiesceHost
  dsimp only
  split
  · exact (State.tempoFreeze_sat_iff (arbSame_frame s) _ 6).mpr h
  · exact h

theorem hostGone_logged (s : State) (port : Nat) :
    Logged ((s.setHostSt port 2).setPort port { s.port port with lostAt := some s.ticks }) (s.hostGone port) := hostEvent_logged _ _ _

theorem hostLost_exec {s : State} {port : Nat} (h1 : s.hostSt port = 1) (hd : s.hostDue port = true) : exec (.hostLost port) s =
    .next (if ((s.hostGone port).quiesceHost port).getF 0 Fld.DEV_OWN_STATE = 1 ∧
        ((s.hostGone port).quiesceHost port).getF 0 Fld.DEV_OWN_FUNC / 16 = port then
      (((s.hostGone port).quiesceHost port).setF 0 Fld.DEV_OWN_STATE 2).ownerEvent
        (((s.hostGone port).quiesceHost port).getF 0 Fld.DEV_OWN_FUNC)
    else (s.hostGone port).quiesceHost port) :=
  congrArg Host.Outcome.next (if_neg (by simp [h1, hd]))

theorem ArbKept.hostSt {s t : State} (h : ArbKept s t) (p : Nat) : t.hostSt p = s.hostSt p := by
  unfold State.hostSt
  rw [h.reg 0 0x00 0x10C rfl]

theorem ArbKept.port {s t : State} (h : ArbKept s t) (p : Nat) : t.port p = s.port p := by
  unfold State.port
  rw [h.arb]

theorem hostLost_answers {s : State} {port : Nat} (hp : port < s.portCount) (h1 : s.hostSt port = 1) (hd : s.hostDue port = true) :
    Answers (.hostLost port) s fun t => t.hostSt port = 2 ∧ (t.port port).lostAt = some s.ticks ∧
      (s.getF 0 Fld.DEV_OWN_STATE = 1 → s.getF 0 Fld.DEV_OWN_FUNC / 16 = port → t.getF 0 Fld.DEV_OWN_STATE = 2) ∧
      (s.getF 0 Fld.DEV_OWN_FUNC / 16 ≠ port → t.getF 0 Fld.DEV_OWN_STATE = s.getF 0 Fld.DEV_OWN_STATE) := by
  have hl : port < 4 := lt_of_lt_of_le hp (portCount_le s)
  have e := hostLost_exec h1 hd
  have hg := hostGone_logged s port
  have hq := quiesceHost_arbSame (s.hostGone port) port
  have hst : ((s.hostGone port).quiesceHost port).hostSt port = 2 :=
    (hq.hostSt port).trans ((hg.hostKept.hostSt port).trans (hostSt_setHostSt s hl 2 (by decide)))
  have hlo : (((s.hostGone port).quiesceHost port).port port).lostAt = some s.ticks := by
    rw [hq.port, hg.hostKept.port, port_setPort]
  have hown (f : Fld) (hf : f.page = 0) (ho : f.off = 0x104) : ((s.hostGone port).quiesceHost port).getF 0 f = s.getF 0 f := by
    rw [hq.getF 0 f (by simp [hf, ho]), hg.getF 0 f (by omega) (by omega) (by omega)]
    exact getF_setHostSt s port 2 (by omega) (by omega) (.inr (by omega))
  rw [hown Fld.DEV_OWN_STATE rfl rfl, hown Fld.DEV_OWN_FUNC rfl rfl] at e
  generalize (s.hostGone port).quiesceHost port = u at *
  by_cases hc : s.getF 0 Fld.DEV_OWN_STATE = 1 ∧ s.getF 0 Fld.DEV_OWN_FUNC / 16 = port
  · have hk := ownerEvent_logged (u.setF 0 Fld.DEV_OWN_STATE 2) (s.getF 0 Fld.DEV_OWN_FUNC)
    have hh := (setF_hostKept u 0 Fld.DEV_OWN_STATE 2 (by decide) (by decide) (.inr (.inr ⟨rfl, rfl⟩))).trans hk.hostKept
    refine Answers.of_next e (if_pos hc) ⟨(hh.hostSt port).trans hst, by rw [hh.port, hlo], fun _ _ => ?_, fun hn => absurd hc.2 hn⟩
    exact (hk.getF 0 Fld.DEV_OWN_STATE (by decide) (by decide) (by decide)).trans (State.getF_setF _ _ _ _ (by decide) (by decide))
  · exact Answers.of_next e (if_neg hc) ⟨hst, hlo, fun a b => absurd ⟨a, b⟩ hc, fun _ => hown Fld.DEV_OWN_STATE rfl rfl⟩

/-! ## GRACE_EXPIRY -/

theorem graceExpiry_waits {s : State} {port k : Nat} (hk : (s.port port).lostAt = some k)
    (ht : s.ticks ≤ k + s.getF 0 Fld.DEV_GRACE_S * 250000000) : Answers (.graceExpiry port) s fun t => t = s := by
  refine ⟨s, ?_, rfl⟩
  show execGraceExpiry port s = _
  unfold execGraceExpiry
  rw [hk]
  exact congrArg Host.Outcome.next (if_pos (.inr (.inr (.inr (.inl ht)))))

theorem graceExpiry_answers {s : State} {port k : Nat} (hk : (s.port port).lostAt = some k) (h2 : s.hostSt port = 2)
    (hc : s.arb.cfg = none) (hr : s.arb.restarting = false) (ht : k + s.getF 0 Fld.DEV_GRACE_S * 250000000 < s.ticks)
    (hf : ∃ fn ∈ s.heldParts, fn / 16 = port) : Answers (.graceExpiry port) s fun t =>
      t.arb.cfg = some (cfgBytes (s.cfgWithout port), 64 + port) ∧ t.arb.path = 3 ∧ t.parts = s.parts := by
  obtain ⟨h1, h3, -, h4, -⟩ := s.beginCfg_spec (cfgBytes (s.cfgWithout port)) (64 + port) 3
  refine ⟨s.beginCfg (cfgBytes (s.cfgWithout port)) (64 + port) 3, ?_, h1, h3, h4⟩
  show execGraceExpiry port s = _
  unfold execGraceExpiry
  rw [hk]
  refine congrArg Host.Outcome.next (if_neg ?_)
  obtain ⟨fn, hm, e⟩ := hf
  have ha : (s.heldParts.any fun fn => fn / 16 == port) = true := List.any_eq_true.mpr ⟨fn, hm, by simp [e]⟩
  simp [h2, hc, hr, ha]
  omega

end Sys2Proof.Machine
end

section
/-! # The Arbiter serves requests and hosts (O55) -/

namespace Sys2Proof.Machine

/-- Settles O55: each clause is the lemma about its command. That OWNED comes before the checks of the request's layout is log entry 49,
and the bytes of the MCTP control answers are log entry 35. -/
theorem arbiterServesRequestsAndHosts : Obligations.ArbiterServesRequestsAndHosts := by
  unfold Obligations.ArbiterServesRequestsAndHosts
  intro heads args answered
  have hh {s : State} {fn opc : Nat} (h : heads s fn opc) : Heads s fn opc := by
    obtain ⟨h1, h2, h3, h4⟩ := h
    exact ⟨h1, h2, h3, h4⟩
  refine ⟨fun s fn v hr hn => ⟨arbMbxGo_malformed hr hn, arbMbxGo_taken hr hn, arbMbxGo_busy hr hn⟩,
    fun p hp s fn => ⟨fun h => mailbox_malformed hp (hh h), fun h => mailbox_owned hp (hh h), mailbox_waits hp⟩,
    fun s fn hb => ⟨fun h => hello_answers (hh h) hb, fun h => releaseOwn_answers (hh h) hb, fun h => configWrite_answers (hh h) hb,
      fun h => configRead_answers (hh h) hb, fun h => sensors_answers (hh h) hb, fun h => logRead_answers (hh h) hb rfl rfl rfl⟩,
    fun s b who hc => ⟨configTakeEffect_waits hc, configTakeEffect_answers hc⟩,
    fun s vals hl hr hp => arbSensorScan_answers hl hr hp, fun s msg => ⟨fun h => mctpMessage_off h msg, fun h1 h2 h3 h4 => ?_⟩,
    fun s port hp hb => ⟨pcieLinkDown_answers hp hb, fun speed lanes hs => pcieLinkUp_training hp hs lanes,
      fun speed lanes h3 h5 hn => pcieLinkUp_answers hp hb h3 h5 hn, fun _ => hostLost_waits, hostLost_answers hp,
      fun k hk h2 hc hr => ⟨graceExpiry_waits hk, graceExpiry_answers hk h2 hc hr⟩⟩⟩
  refine ⟨mctpMessage_eid ⟨h1, h2, h3, h4⟩, fun ht => ?_⟩
  intro req mine rsp
  obtain ⟨t, e, hn, hm, hr, ha⟩ := mctpMessage_vendor ⟨h1, h2, h3, h4⟩ ht (mine := mine) Iff.rfl
  exact ⟨t, e, hn, hm, hr, fun c ho => by rw [ha c, mctpVendor_owned s ho]; rfl,
    fun c ho hb => by rw [ha c, mctpVendor_malformed s ho hb]; rfl, fun c ho hb => by rw [ha c, mctpVendor_sensors s ho hb]⟩

end Sys2Proof.Machine
end

section
/-! # The Board: what its shared operations change and what they leave -/

namespace Sys2Proof.Machine

/-! ## Registers outside a set of places are kept -/

/-- Every register whose page and offset are not among the places `W` holds what it held. -/
def RegsBut (W : Nat → Nat → Prop) (s t : State) : Prop :=
  ∀ b p o, p < 2 ^ 8 → o < 2 ^ 16 → ¬W p o → t.getReg b p o = s.getReg b p o

/-- The places on some pages, and those at some offsets of any page. -/
abbrev onPages (l : List Nat) (p _o : Nat) : Prop := p ∈ l
abbrev atOffs (l : List Nat) (_p o : Nat) : Prop := o ∈ l

section
variable {W : Nat → Nat → Prop} {s t u : State}

theorem RegsBut.of_regs (h : t.regs = s.regs) : RegsBut W s t := fun _ _ _ _ _ _ => by rw [State.getReg, State.getReg, h]

theorem RegsBut.refl (s : State) : RegsBut W s s := .of_regs rfl

theorem RegsBut.trans (h : RegsBut W s t) (k : RegsBut W t u) : RegsBut W s u := fun b p o hp ho hw =>
  (k b p o hp ho hw).trans (h b p o hp ho hw)

theorem RegsBut.mono {V : Nat → Nat → Prop} (h : RegsBut V s t) (hv : ∀ p o, V p o → W p o) : RegsBut W s t := fun b p o hp ho hw =>
  h b p o hp ho fun c => hw (hv p o c)

theorem RegsBut.foldl {β : Type} {f : State → β → State} (h : ∀ s b, RegsBut W s (f s b)) (l : List β) (s : State) :
    RegsBut W s (l.foldl f s) := foldl_keeps (P := RegsBut W s) (fun t b k => k.trans (h t b)) l s (.refl s)

theorem RegsBut.getF (h : RegsBut W s t) (b : Nat) {f : Fld} (hp : f.page < 2 ^ 8) (ho : f.off < 2 ^ 16) (hw : ¬W f.page f.off) :
    t.getF b f = s.getF b f := by rw [State.getF, State.getF, h _ _ _ hp ho hw]

/-- Offsets that differ are different registers, whatever the pages are. -/
theorem regKey_ne_of_off {b p o b' p' o' : Nat} (ho : o < 2 ^ 16) (ho' : o' < 2 ^ 16) (h : o ≠ o') : regKey b p o ≠ regKey b' p' o' := by
  unfold regKey
  omega

theorem regsBut_setReg_off (s : State) (b p : Nat) {o : Nat} (v : Word) {l : List Nat} (ho : o < 2 ^ 16) (h : o ∈ l) :
    RegsBut (atOffs l) s (s.setReg b p o v) := fun _ _ _ _ ho' hw =>
  State.getReg_setReg_other s (regKey_ne_of_off ho ho' fun e => hw (e ▸ h)) v

theorem regsBut_setReg (s : State) (b : Nat) {p o : Nat} (v : Word) (hp : p < 2 ^ 8) (ho : o < 2 ^ 16) (hw : W p o) :
    RegsBut W s (s.setReg b p o v) := fun b' p' o' hp' ho' hn =>
  State.getReg_setReg_other s (regKey_ne hp ho hp' ho' (by
    by_contra c
    obtain ⟨rfl, rfl⟩ : p = p' ∧ o = o' := by omega
    exact hn hw)) v

/-- A field of the map that the file pages share, whatever the page. -/
theorem regsBut_setF_file (s : State) (b : Nat) (f : Fld) (page v : Nat) {l : List Nat}
    (h : f.off < 2 ^ 16 ∧ f.off ∈ l := by decide) : RegsBut (atOffs l) s (s.setF b (f.onPage page) v) :=
  regsBut_setReg_off s b page _ h.1 h.2

/-- A field of a page. -/
theorem regsBut_setF_page (s : State) (b : Nat) (f : Fld) (v : Nat) {l : List Nat}
    (h : f.page < 2 ^ 8 ∧ f.off < 2 ^ 16 ∧ f.page ∈ l := by decide) : RegsBut (onPages l) s (s.setF b f v) :=
  regsBut_setReg s b _ h.1 h.2.1 h.2.2

end

/-! ## Fields outside the Board are kept -/

/-- `t` differs from `s` in registers, messages, memories, squares, files and the Arbiter's state at most. -/
def BoardOnly (s t : State) : Prop :=
  ∃ r m e q f a, t = { s with regs := r, msix := m, mem := e, squares := q, files := f, arb := a }

theorem BoardOnly.refl (s : State) : BoardOnly s s := ⟨_, _, _, _, _, _, rfl⟩

theorem BoardOnly.trans {s t u : State} (h : BoardOnly s t) (k : BoardOnly t u) : BoardOnly s u := by
  obtain ⟨_, _, _, _, _, _, rfl⟩ := h
  obtain ⟨_, _, _, _, _, _, rfl⟩ := k
  exact ⟨_, _, _, _, _, _, rfl⟩

theorem BoardOnly.foldl {β : Type} {f : State → β → State} (h : ∀ s b, BoardOnly s (f s b)) (l : List β) (s : State) :
    BoardOnly s (l.foldl f s) := foldl_keeps (P := BoardOnly s) (fun t b k => k.trans (h t b)) l s (.refl s)

theorem BoardOnly.kept {s t : State} (h : BoardOnly s t) :
    t.groups = s.groups ∧ t.queues = s.queues ∧ t.images = s.images ∧ t.jobs = s.jobs := by
  obtain ⟨_, _, _, _, _, _, rfl⟩ := h
  exact ⟨rfl, rfl, rfl, rfl⟩

theorem boardOnly_setF (s : State) (b : Nat) (f : Fld) (v : Nat) : BoardOnly s (s.setF b f v) := ⟨_, _, _, _, _, _, rfl⟩

/-! ## Interrupts, records and the log -/

/-- Raising an interrupt changes registers and messages only. -/
theorem State.raiseIrq_only (s : State) (page fn i : Nat) : ∃ r m, s.raiseIrq page fn i = { s with regs := r, msix := m } := by
  obtain ⟨m, e⟩ := s.raiseBits_spec page fn (2 ^ i)
  exact ⟨_, m, e⟩

theorem boardOnly_raiseIrq (s : State) (page fn i : Nat) : BoardOnly s (s.raiseIrq page fn i) := by
  obtain ⟨r, m, e⟩ := s.raiseIrq_only page fn i
  exact ⟨r, m, _, _, _, _, e⟩

theorem regsBut_raiseIrq (s : State) (page fn i : Nat) {l : List Nat} (h : 0x010 ∈ l) : RegsBut (atOffs l) s (s.raiseIrq page fn i) :=
  fun b p o _ ho hw => s.raiseIrq_regs page fn i b p o fun _ hx => List.mem_singleton.mp hx ▸
    regKey_ne_of_off (show 0x010 < 2 ^ 16 by decide) ho fun e => hw (e ▸ h)

theorem regsBut_raiseIrq_page (s : State) {page : Nat} (fn i : Nat) {l : List Nat} (h : page < 2 ^ 8 ∧ page ∈ l) :
    RegsBut (onPages l) s (s.raiseIrq page fn i) := fun b p o hp ho hw =>
  s.raiseIrq_regs page fn i b p o fun _ hx => List.mem_singleton.mp hx ▸
    regKey_ne h.1 (show 0x010 < 2 ^ 16 by decide) hp ho (.inl fun e => hw (e ▸ h.2))

theorem regsBut_recErr (s : State) (page fn : Nat) (st : Status) (off : Nat) : RegsBut (atOffs [0x020, 0x024]) s (s.recErr page fn st off) :=
  ((regsBut_setF_file _ fn _ page _).trans (regsBut_setF_file _ fn _ page _)).trans (regsBut_setF_file _ fn _ page _)

theorem regsBut_recErrBlock (s : State) (page fn : Nat) (st : Status) : RegsBut (atOffs [0x020, 0x024]) s (s.recErrBlock page fn st) := by
  unfold State.recErrBlock
  split
  · exact regsBut_recErr _ _ _ _ _
  · exact .refl s

theorem boardOnly_logEvent (s : State) (sev page part kind code : Nat) (data : List Nat) :
    BoardOnly s (s.logEvent sev page part kind code data) := by
  unfold State.logEvent
  split
  · exact ⟨_, _, _, _, _, _, rfl⟩
  · exact BoardOnly.trans ⟨_, _, _, _, _, _, rfl⟩ (.foldl (fun t fn => boardOnly_raiseIrq t 0x01 fn 3) _ _)

theorem regsBut_logEvent (s : State) (sev page part kind code : Nat) (data : List Nat) :
    RegsBut (onPages [1]) s (s.logEvent sev page part kind code data) := fun b p o hp ho hw =>
  (logEvent_logged s sev page part kind code data).reg b p o hp ho fun e => absurd (List.mem_singleton.mpr e) hw

/-! ## A fault is noted -/

/-- DEV_FLT without its tick, as a fault is noted. -/
def State.fltRecord (s : State) (kind wh : Nat) : State := (s.setF 0 Fld.DEV_FLT_KIND kind).setF 0 Fld.DEV_FLT_WHERE wh

theorem State.fltRecord_fields (s : State) (kind wh : Nat) : (s.fltRecord kind wh).getF 0 Fld.DEV_FLT_KIND = kind % 2 ^ 4 ∧
    (s.fltRecord kind wh).getF 0 Fld.DEV_FLT_WHERE = wh % 2 ^ 16 := by
  refine ⟨?_, State.getF_setF _ 0 Fld.DEV_FLT_WHERE wh (by decide) (by decide)⟩
  rw [State.fltRecord, State.getF_setF_bits _ 0 (f := Fld.DEV_FLT_WHERE) (g := Fld.DEV_FLT_KIND) wh rfl rfl (by decide) (by decide)
    (by decide)]
  exact State.getF_setF s 0 Fld.DEV_FLT_KIND kind (by decide) (by decide)

/-- DEV_FLT's tick. -/
def State.fltTick (s : State) (now : Nat) : State := s.set64 0 Fld.DEV_FLT_TICK_LO Fld.DEV_FLT_TICK_HI now

theorem State.noteFault_eq (s : State) (kind wh : Nat) :
    s.noteFault kind wh = (((s.fltRecord kind wh).fltTick s.now).raiseIrq 0x00 0 2).logEvent 1 0x00 0xFF 5 0 [kind, wh] := rfl

theorem regsBut_fltTick (s : State) (now : Nat) : RegsBut (atOffs [0x064, 0x068]) s (s.fltTick now) :=
  (regsBut_setReg_off _ 0 0 _ (by decide) (by decide)).trans (regsBut_setReg_off _ 0 0 _ (by decide) (by decide))

/-- The tick, the interrupt and the log leave DEV_FLT itself. -/
theorem State.noteFault_flt (s : State) (kind wh : Nat) {f : Fld} (hp : f.page = 0) (ho : f.off = 0x060) :
    (s.noteFault kind wh).getF 0 f = (s.fltRecord kind wh).getF 0 f := by
  have hp' : f.page < 2 ^ 8 := by omega
  have ho' : f.off < 2 ^ 16 := by omega
  rw [State.noteFault_eq, (regsBut_logEvent _ _ _ _ _ _ _).getF 0 hp' ho' (by simp [hp]),
    (regsBut_raiseIrq _ 0x00 0 2 (l := [0x010]) (by decide)).getF 0 hp' ho' (by simp [ho]),
    (regsBut_fltTick _ _).getF 0 hp' ho' (by simp [ho])]

theorem regsBut_noteFault (s : State) (kind wh : Nat) : RegsBut (onPages [0, 1]) s (s.noteFault kind wh) := by
  have h1 : RegsBut (onPages [0, 1]) s (s.fltRecord kind wh) :=
    (regsBut_setF_page s 0 Fld.DEV_FLT_KIND _).trans (regsBut_setF_page _ 0 Fld.DEV_FLT_WHERE _)
  have h2 (t : State) : RegsBut (onPages [0, 1]) t (t.fltTick s.now) :=
    (regsBut_setF_page t 0 Fld.DEV_FLT_TICK_LO _).trans (regsBut_setF_page _ 0 Fld.DEV_FLT_TICK_HI _)
  rw [State.noteFault_eq]
  exact ((h1.trans (h2 _)).trans (regsBut_raiseIrq_page _ 0 2 (by decide))).trans
    ((regsBut_logEvent _ _ _ _ _ _ _).mono fun p o h => List.mem_of_mem_tail h)

theorem boardOnly_noteFault (s : State) (kind wh : Nat) : BoardOnly s (s.noteFault kind wh) := by
  have h1 : BoardOnly s (s.fltRecord kind wh) := (boardOnly_setF s 0 _ _).trans (boardOnly_setF _ 0 _ _)
  have h2 (t : State) : BoardOnly t (t.fltTick s.now) := (boardOnly_setF t 0 _ _).trans (boardOnly_setF _ 0 _ _)
  rw [State.noteFault_eq]
  exact ((h1.trans (h2 _)).trans (boardOnly_raiseIrq _ _ _ _)).trans (boardOnly_logEvent _ _ _ _ _ _ _)

end Sys2Proof.Machine
end

section
/-! # Files and squares: what their operations change and what they leave -/

namespace Sys2Proof.Machine

/-! ## Folds -/

/-- A fold whose step at `i` changes the value at `i` alone. -/
theorem foldl_pointwise {σ ι β : Type} [DecidableEq ι] {f : σ → ι → σ} {val : σ → ι → β} {new : ι → β → β} {P : ι → Prop} {l : List ι}
    (same : ∀ s, ∀ i ∈ l, val (f s i) i = new i (val s i)) (other : ∀ s, ∀ i ∈ l, ∀ j, P j → j ≠ i → val (f s i) j = val s j)
    (hn : l.Nodup) (s : σ) {j : ι} (hj : P j) : val (l.foldl f s) j = if j ∈ l then new j (val s j) else val s j := by
  induction l generalizing s with
  | nil => simp
  | cons i l ih =>
    obtain ⟨hi, hl⟩ := List.nodup_cons.mp hn
    rw [List.foldl_cons, ih (fun s k hk => same s k (List.mem_cons_of_mem i hk))
      (fun s k hk => other s k (List.mem_cons_of_mem i hk)) hl]
    by_cases e : j = i
    · subst e
      rw [if_neg hi, if_pos List.mem_cons_self, same s j List.mem_cons_self]
    · rw [other s i List.mem_cons_self j hj e]
      simp [e]

/-! ## Queues -/

/-- Where no queue is in ERROR there is nothing to settle. -/
theorem State.settleQueues_of_noErrors {s : State} (h : NoErrors s) : s.settleQueues = s := by
  have e : (s.queues.filter fun e => e.2.st == .error) = [] := List.filter_eq_nil_iff.mpr fun e he => by simpa using h e he
  rw [State.settleQueues, e]
  rfl

/-! ## The tables of squares and files -/

@[simp] theorem State.square_setSquare (s : State) (sq : Nat) (x : Square) : (s.setSquare sq x).square sq = x := assocGet_set_same _ _ _ _

theorem State.square_setSquare_other (s : State) {sq sq' : Nat} (x : Square) (h : sq' ≠ sq) : (s.setSquare sq x).square sq' = s.square sq' :=
  assocGet_set_other _ (Ne.symm h) _ _

@[simp] theorem State.file_setFile (s : State) (f : Nat) (x : FileSt) : (s.setFile f x).file f = x := assocGet_set_same _ _ _ _

theorem regsBut_setSquare {W : Nat → Nat → Prop} (s : State) (sq : Nat) (x : Square) : RegsBut W s (s.setSquare sq x) :=
  .of_regs (s.setSquare_kept sq x).1

theorem boardOnly_setSquare (s : State) (sq : Nat) (x : Square) : BoardOnly s (s.setSquare sq x) := ⟨_, _, _, _, _, _, rfl⟩

theorem regsBut_setFile {W : Nat → Nat → Prop} (s : State) (f : Nat) (x : FileSt) : RegsBut W s (s.setFile f x) :=
  .of_regs (s.setFile_kept f x).1

/-! ## The state of a square -/

theorem filePage_lt {f : Nat} (h : f < 16) : filePage f < 2 ^ 8 := by
  unfold filePage
  omega

theorem sqFile_lt {sq : Nat} (h : sq < 256) : sqFile sq < 16 := by
  unfold sqFile
  omega

theorem sqStateFld_off (sq : Nat) : (sqStateFld sq).off ∈ [0x060, 0x064] := by
  unfold sqStateFld
  dsimp only
  split <;> decide

theorem sqStateFld_off_lt (sq : Nat) : (sqStateFld sq).off < 2 ^ 16 := by
  rcases List.mem_pair.mp (sqStateFld_off sq) with h | h <;> omega

theorem sqStateFld_bits (sq : Nat) : (sqStateFld sq).lo = 4 * (sq % 8) ∧ (sqStateFld sq).hi = 4 * (sq % 8) + 3 := by
  unfold sqStateFld sqRank
  dsimp only
  omega

/-- Two squares' states lie in different registers, or in different bits of one. -/
theorem sqStateFld_ne {sq sq' : Nat} (h : sq ≠ sq') (hp : (sqStateFld sq).page = (sqStateFld sq').page)
    (ho : (sqStateFld sq).off = (sqStateFld sq').off) : sq % 8 ≠ sq' % 8 := by
  unfold sqStateFld sqRank sqFile filePage at hp ho
  dsimp only at hp ho
  split at ho <;> split at ho <;> omega

@[simp] theorem State.sqSt_setSqSt (s : State) (sq v : Nat) : (s.setSqSt sq v).sqSt sq = v % 2 ^ 4 := by
  obtain ⟨hl, hh⟩ := sqStateFld_bits sq
  have e := State.getF_setF s 0 (sqStateFld sq) v (by omega) (by omega)
  rwa [show (sqStateFld sq).hi + 1 - (sqStateFld sq).lo = 4 by omega] at e

theorem State.sqSt_setSqSt_other (s : State) {sq sq' : Nat} (v : Nat) (hs : sq < 256) (hs' : sq' < 256) (h : sq' ≠ sq) :
    (s.setSqSt sq v).sqSt sq' = s.sqSt sq' := by
  obtain ⟨hl, hh⟩ := sqStateFld_bits sq
  obtain ⟨hl', hh'⟩ := sqStateFld_bits sq'
  by_cases e : (sqStateFld sq).page = (sqStateFld sq').page ∧ (sqStateFld sq).off = (sqStateFld sq').off
  · have := sqStateFld_ne (Ne.symm h) e.1 e.2
    exact State.getF_setF_bits s 0 v e.1 e.2 (by omega) (by omega) (by omega)
  · exact State.getF_setF_reg s v (regKey_ne (filePage_lt (sqFile_lt hs)) (sqStateFld_off_lt sq) (filePage_lt (sqFile_lt hs'))
      (sqStateFld_off_lt sq') (by omega))

theorem regsBut_setSqSt (s : State) (sq v : Nat) : RegsBut (atOffs [0x060, 0x064]) s (s.setSqSt sq v) :=
  regsBut_setReg_off s 0 _ _ (sqStateFld_off_lt sq) (sqStateFld_off sq)

/-- A square's state is kept with its registers. -/
theorem RegsBut.sqSt {W : Nat → Nat → Prop} {s t : State} (h : RegsBut W s t) {sq : Nat} (hs : sq < 256)
    (hw : ∀ o ∈ [0x060, 0x064], ¬W (filePage (sqFile sq)) o) : t.sqSt sq = s.sqSt sq :=
  h.getF 0 (filePage_lt (sqFile_lt hs)) (sqStateFld_off_lt sq) (hw _ (sqStateFld_off sq))

theorem mem_squaresOf {f sq : Nat} : sq ∈ squaresOf f ↔ sqFile sq = f := by
  simp only [squaresOf, sqFile, List.mem_map, List.mem_range]
  exact ⟨by rintro ⟨r, hr, rfl⟩; omega, fun h => ⟨sq % 16, by omega, by omega⟩⟩

theorem squaresOf_nodup (f : Nat) : (squaresOf f).Nodup := List.nodup_range.map fun a b h => by simpa using h

theorem lt_of_mem_squaresOf {f sq : Nat} (hf : f < 16) (h : sq ∈ squaresOf f) : sq < 256 := by
  have := mem_squaresOf.mp h
  unfold sqFile at this
  omega

/-! ## SQ_FAULT -/

theorem State.sqFault_setF (s : State) (sq v : Nat) : (s.setF 0 (sqFaultFld sq) v).getF 0 (sqFaultFld sq) = v % 2 := by
  have hr : sqRank sq < 16 := Nat.mod_lt _ (by decide)
  have e := State.getF_setF s 0 (sqFaultFld sq) v (Nat.le_refl _) (show sqRank sq < 32 by omega)
  rwa [show (sqFaultFld sq).hi + 1 - (sqFaultFld sq).lo = 1 from Nat.add_sub_cancel_left ..] at e

theorem State.sqFault_setF_other (s : State) {sq sq' : Nat} (v : Nat) (hs : sq < 256) (hs' : sq' < 256) (h : sq' ≠ sq) :
    (s.setF 0 (sqFaultFld sq) v).getF 0 (sqFaultFld sq') = s.getF 0 (sqFaultFld sq') := by
  have hr : sqRank sq < 16 := Nat.mod_lt _ (by decide)
  by_cases e : (sqFaultFld sq).page = (sqFaultFld sq').page
  · refine State.getF_setF_bits s 0 v e rfl (Nat.le_refl _) (show sqRank sq < 32 by omega) ?_
    change sqRank sq' < sqRank sq ∨ sqRank sq < sqRank sq'
    unfold sqFaultFld filePage sqFile at e
    unfold sqRank
    dsimp only at e
    omega
  · exact State.getF_setF_reg s v (regKey_ne (filePage_lt (sqFile_lt hs)) (show 0x068 < 2 ^ 16 by decide)
      (filePage_lt (sqFile_lt hs')) (show 0x068 < 2 ^ 16 by decide) (.inl e))

theorem regsBut_setSqFault (s : State) (sq v : Nat) : RegsBut (atOffs [0x068]) s (s.setF 0 (sqFaultFld sq) v) :=
  regsBut_setReg_off s 0 _ _ (show 0x068 < 2 ^ 16 by decide) (show 0x068 ∈ [0x068] by decide)

end Sys2Proof.Machine
end

section
/-! # The state table's transitions of a file -/

namespace Sys2Proof.Machine

/-! ## STATE -/

@[simp] theorem State.pageSt_setPageSt (s : State) (page st : Nat) : (s.setPageSt page st).pageSt page = st % 2 ^ 4 :=
  State.getF_setF s 0 (Fld.STS_STATE.onPage page) st (show 0 ≤ 3 by decide) (show 3 < 32 by decide)

/-- A page's state and its ENABLE request are kept with their registers. -/
theorem RegsBut.pageSt {l : List Nat} {s t : State} (h : RegsBut (atOffs l) s t) {page : Nat} (hp : page < 2 ^ 8)
    (hl : 0x00C ∉ l := by decide) : t.pageSt page = s.pageSt page :=
  h.getF 0 (f := Fld.STS_STATE.onPage page) hp (show 0x00C < 2 ^ 16 by decide) hl

theorem RegsBut.enableReq {l : List Nat} {s t : State} (h : RegsBut (atOffs l) s t) {page : Nat} (hp : page < 2 ^ 8)
    (hl : 0x008 ∉ l := by decide) : t.enableReq page = s.enableReq page :=
  congrArg (· == 1) (h.getF 0 (f := Fld.CTL_ENABLE.onPage page) hp (show 0x008 < 2 ^ 16 by decide) hl)

theorem irqBank_file (f fn : Nat) : irqBank (filePage f) fn = 0 := by
  have : irqSingle (filePage f) = true := by simp [irqSingle, filePage]
  simp [irqBank, this]

/-- A file takes a state; a change raises IRQ STATE. -/
theorem State.setFileSt_pageSt (s : State) {f st : Nat} (hf : f < 16) (hst : st < 16) : (s.setFileSt f st).pageSt (filePage f) = st := by
  unfold State.setFileSt
  split
  · assumption
  · rw [(regsBut_raiseIrq _ _ _ _ (l := [0x010]) (by decide)).pageSt (filePage_lt hf), State.pageSt_setPageSt]
    omega

theorem State.setFileSt_irq (s : State) {f st : Nat} (h : s.pageSt (filePage f) ≠ st) :
    (s.setFileSt f st).getReg 0 (filePage f) 0x010 = s.getReg 0 (filePage f) 0x010 ||| 8#32 := by
  rw [State.setFileSt, if_neg h]
  have e := (s.setPageSt (filePage f) st).raiseBits_reg (filePage f) ((s.fileHolder f).getD 0) (2 ^ 3)
  rw [irqBank_file] at e
  refine e.trans (congrArg (· ||| 8#32) ?_)
  exact State.getReg_setReg_other s (regKey_ne_of_off (show 0x00C < 2 ^ 16 by decide) (by decide) (show 0x00C ≠ 0x010 by decide)) _

theorem regsBut_setFileSt (s : State) (f st : Nat) : RegsBut (atOffs [0x00C, 0x010]) s (s.setFileSt f st) := by
  unfold State.setFileSt
  split
  · exact .refl s
  · exact (regsBut_setF_file s 0 Fld.STS_STATE (filePage f) st).trans (regsBut_raiseIrq _ _ _ _ (by decide))

/-- A change of a file's state changes registers and messages only. -/
theorem State.setFileSt_only (s : State) (f st : Nat) : ∃ r m, s.setFileSt f st = { s with regs := r, msix := m } := by
  unfold State.setFileSt
  split
  · exact ⟨_, _, rfl⟩
  · obtain ⟨r, m, e⟩ := (s.setPageSt (filePage f) st).raiseIrq_only (filePage f) ((s.fileHolder f).getD 0) 3
    exact ⟨r, m, e⟩

/-! ## Losing power -/

/-- No Class K group waits for victims on a file's squares. -/
def State.noneAwaits (s : State) (f : Nat) : Prop := ∀ sq ∈ squaresOf f, (s.square sq).awaiting = []

/-- With nobody waiting, taking the waiting groups off a file's squares changes the table of squares at most, and nobody waits after. -/
theorem foldl_clearAwaits {f : Nat} {g : State → Nat → State}
    (hg : ∀ s sq, (s.square sq).awaiting = [] → g s sq = s.setSquare sq { s.square sq with awaiting := [] }) {s : State}
    (h : s.noneAwaits f) : ∃ q, (squaresOf f).foldl g s = { s with squares := q } ∧ ({ s with squares := q } : State).noneAwaits f := by
  suffices ∃ q, (squaresOf f).foldl g s = { s with squares := q } ∧ ((squaresOf f).foldl g s).noneAwaits f by
    obtain ⟨q, e, k⟩ := this
    exact ⟨q, e, e ▸ k⟩
  refine List.foldlRecOn (motive := fun t : State => ∃ q, t = { s with squares := q } ∧ t.noneAwaits f) (squaresOf f) g
    ⟨_, rfl, h⟩ ?_
  rintro t ⟨q, rfl, k⟩ sq hsq
  rw [hg _ _ (k sq hsq)]
  refine ⟨_, rfl, fun sq' hsq' => ?_⟩
  by_cases e : sq' = sq
  · rw [e, State.square_setSquare]
  · rw [State.square_setSquare_other _ _ e]
    exact k sq' hsq'

theorem State.unawaitFile_of_none {s : State} {f : Nat} (h : s.noneAwaits f) : ∃ q, s.unawaitFile f = { s with squares := q } := by
  obtain ⟨q, e, -⟩ := foldl_clearAwaits (g := fun s sq =>
    let l := (s.square sq).awaiting
    l.foldl State.unawait (s.setSquare sq { s.square sq with awaiting := [] })) (fun s sq k => by simp only [k]; rfl) h
  exact ⟨q, e⟩

/-- A square loses power: its store and its state are lost. -/
def State.gateSquare (s : State) (sq : Nat) : State :=
  let s1 := (s.storeClear sq).setSquare sq {}
  if s1.sqSt sq = sqFaultSt then s1 else s1.setSqSt sq sqGated

theorem State.gateSquare_cases (s : State) (sq : Nat) : ∃ q, s.gateSquare sq =
    if s.sqSt sq = sqFaultSt then { s.storeClear sq with squares := q } else { s.storeClear sq with squares := q }.setSqSt sq sqGated :=
  ⟨_, rfl⟩

theorem State.gateSquare_sqSt (s : State) (sq : Nat) :
    (s.gateSquare sq).sqSt sq = if s.sqSt sq = sqFaultSt then sqFaultSt else sqGated := by
  obtain ⟨q, e⟩ := s.gateSquare_cases sq
  rw [e]
  split
  · assumption
  · exact State.sqSt_setSqSt _ _ _

theorem regsBut_gateSquare (s : State) (sq : Nat) : RegsBut (atOffs [0x060, 0x064]) s (s.gateSquare sq) := by
  obtain ⟨q, e⟩ := s.gateSquare_cases sq
  rw [e]
  split
  · exact .of_regs rfl
  · exact RegsBut.trans (t := { s.storeClear sq with squares := q }) (.of_regs rfl) (regsBut_setSqSt _ _ _)

theorem State.gateSquare_sqSt_other (s : State) {sq sq' : Nat} (hs : sq < 256) (hs' : sq' < 256) (h : sq' ≠ sq) :
    (s.gateSquare sq).sqSt sq' = s.sqSt sq' := by
  obtain ⟨q, e⟩ := s.gateSquare_cases sq
  rw [e]
  split
  · rfl
  · exact State.sqSt_setSqSt_other _ _ hs hs' h

theorem State.gateSquare_mem (s : State) (sq : Nat) : (s.gateSquare sq).mem = (s.storeClear sq).mem := by
  obtain ⟨q, e⟩ := s.gateSquare_cases sq
  rw [e]
  split <;> rfl

theorem boardOnly_gateSquare (s : State) (sq : Nat) : BoardOnly s (s.gateSquare sq) := by
  obtain ⟨q, e⟩ := s.gateSquare_cases sq
  rw [e]
  split <;> exact ⟨_, _, _, _, _, _, rfl⟩

theorem State.gateFile_eq {s : State} {f : Nat} (h : s.noneAwaits f) :
    ∃ q fs, s.gateFile f = (squaresOf f).foldl State.gateSquare { s with squares := q, files := fs } := by
  obtain ⟨q, e⟩ := s.unawaitFile_of_none h
  unfold State.gateFile
  rw [e]
  dsimp only
  split
  · exact ⟨q, s.files, rfl⟩
  · exact ⟨q, _, rfl⟩

/-- A file on whose squares nobody waits loses power: squares not in FAULT are GATED, and their stores are cleared. -/
structure GatedFrom (s t : State) (f : Nat) : Prop where
  regs : RegsBut (atOffs [0x060, 0x064]) s t
  board : BoardOnly s t
  sqSt : ∀ sq ∈ squaresOf f, t.sqSt sq = if s.sqSt sq = sqFaultSt then sqFaultSt else sqGated
  store : ∀ sq ∈ squaresOf f, ∀ off < 2 ^ 20, assocGet 0 t.mem.store (sq * 2 ^ 20 + off) = 0

theorem State.gateFile_gated {s : State} {f : Nat} (hf : f < 16) (h : s.noneAwaits f) : GatedFrom s (s.gateFile f) f := by
  obtain ⟨q, fs, e⟩ := s.gateFile_eq h
  rw [e]
  refine ⟨?_, ?_, fun sq hsq => ?_, fun sq hsq off hoff => ?_⟩
  · exact RegsBut.trans (t := { s with squares := q, files := fs }) (.of_regs rfl) (.foldl regsBut_gateSquare _ _)
  · exact BoardOnly.trans (t := { s with squares := q, files := fs }) ⟨_, _, _, _, _, _, rfl⟩ (.foldl boardOnly_gateSquare _ _)
  · refine (foldl_pointwise (f := State.gateSquare) (val := State.sqSt) (P := fun sq => sq < 256)
      (new := fun _ st => if st = sqFaultSt then sqFaultSt else sqGated) (fun s sq _ => s.gateSquare_sqSt sq)
      (fun s sq hq sq' h' hne => s.gateSquare_sqSt_other (lt_of_mem_squaresOf hf hq) h' hne) (squaresOf_nodup f) _
      (lt_of_mem_squaresOf hf hsq)).trans ?_
    exact if_pos hsq
  · refine (foldl_pointwise (f := State.gateSquare) (val := fun t sq => assocGet 0 t.mem.store (sq * 2 ^ 20 + off))
      (P := fun _ => True) (new := fun _ _ => 0) (fun s sq _ => ?_) (fun s sq _ sq' _ hne => ?_) (squaresOf_nodup f) _ trivial).trans
      (if_pos hsq)
    · rw [State.gateSquare_mem]
      exact (assocGet_cellsZero _ _ _ _).trans (if_pos (by omega))
    · rw [State.gateSquare_mem]
      exact (assocGet_cellsZero _ _ _ _).trans (if_neg (by omega))

end Sys2Proof.Machine
end

section
/-! # The windows and the counters of the file pages (O25) -/
namespace Sys2Proof.Machine

/-! ## FIL_PERF -/

theorem regsKept_setReg (s : State) (b p o : Nat) (v : Word) : RegsKept s (s.setReg b p o v) [(b, p, o)] := fun _ _ _ h =>
  State.getReg_setReg_other s (h _ (List.mem_singleton.mpr rfl)) v

theorem filPerfSelWrite_restarts {s : State} {fn f v : Nat} (hr : Reaches s fn (filePage f)) (hf : s.holdsFile fn f = true)
    (hv : resvHit (filePage f) 0x084 v = false) : Answers (.filPerfSelWrite fn f v) s fun t =>
      t.getReg 0 (filePage f) 0x084 = BitVec.ofNat 32 v ∧ (t.file f).perf = 0 ∧ RegsKept s t [(0, filePage f, 0x084)] := by
  let s1 := s.setReg 0 (filePage f) 0x084 (BitVec.ofNat 32 v)
  have e : exec (.filPerfSelWrite fn f v) s = .next (s1.setFile f { s1.file f with perf := 0 }) := by
    change Host.Outcome.next (s.gated fn (filePage f) 0x084 _) = _
    rw [State.gated_reaches hr, hf, hv]
    rfl
  exact .of_eq e ⟨State.getReg_setReg _ _ _ _ _, by rw [State.file_setFile], regsKept_setReg s _ _ _ _⟩

theorem filPerfLoRead_latches {s : State} {fn f : Nat} (hs : s.serves (filePage f) = true) (hf : s.holdsFile fn f = true) :
    Answers (.filPerfLoRead fn f) s fun t =>
      t.readData = (s.file f).perf % 2 ^ 32 ∧ (t.getReg 0 (filePage f) 0x08C).toNat = (s.file f).perf / 2 ^ 32 % 2 ^ 16 ∧
      RegsKept s t [(0, filePage f, 0x08C)] := by
  let hi := (s.file f).perf / 2 ^ 32 % 2 ^ 16
  have e : exec (.filPerfLoRead fn f) s =
      .next { s.setReg 0 (filePage f) 0x08C (BitVec.ofNat 32 hi) with readData := (s.file f).perf % 2 ^ 32 } := by
    change Host.Outcome.next _ = _
    rw [hs, hf]
    rfl
  refine .of_eq e ⟨rfl, ?_, regsKept_setReg s _ _ _ _⟩
  change ((s.setReg 0 (filePage f) 0x08C (BitVec.ofNat 32 hi)).getReg 0 (filePage f) 0x08C).toNat = hi
  rw [State.getReg_setReg, BitVec.toNat_ofNat]
  omega

/-! ## BAR2 -/

@[simp] theorem leBytes_length (k n : Nat) : (leBytes k n).length = k := by
  induction k generalizing n with
  | zero => rfl
  | succ k ih => simp [leBytes, ih]

/-- An access of the owner to place `a` of square `sq` through the file's window, where the square serves and no other partition holds
its file (R80). -/
structure Bar2Reaches (s : State) (fn off sq a : Nat) : Prop where
  square : off / 2 ^ 16 % 256 = sq
  addr : s.getF 0 (Fld.FIL_WINDOW_POS.onPage (filePage (sqFile sq))) * 2 ^ 16 + off % 2 ^ 16 / 4 * 4 = a
  owner : s.isOwner fn = true
  serves : s.sqServes sq = true
  holder : ∀ p, s.fileHolder (sqFile sq) = some p → p = fn

section
variable {s : State} {fn off sq a : Nat}

theorem Bar2Reaches.write (h : Bar2Reaches s fn off sq a) (v : Nat) :
    exec (.bar2Access fn off (some v)) s = .next (s.storeWrite sq a (leBytes 4 v)) := by
  change execBar2Access fn off (some v) s = _
  unfold execBar2Access
  simp only [h.square, h.addr, h.owner, h.serves]
  cases e : s.fileHolder (sqFile sq) with
  | none => simp
  | some p => simp [h.holder p e]

theorem Bar2Reaches.read (h : Bar2Reaches s fn off sq a)
    (hc : (s.mem.storeErrs.filter fun e => (storeWords sq a 4).contains e.1) = []) :
    exec (.bar2Access fn off none) s = .next (if s.storePoisoned sq a 4 then
      { s.drawFree with readData := (Config.free s.free 32).toNat } else { s with readData := leNat (s.storeRead sq a 4) }) := by
  have scan : s.storeScan sq a 4 = s := by
    rw [State.storeScan, hc]
    rfl
  change execBar2Access fn off none s = _
  unfold execBar2Access
  simp only [h.square, h.addr, h.owner, h.serves, scan]
  cases e : s.fileHolder (sqFile sq) with
  | none => simp
  | some p => simp [h.holder p e]

end

/-! ## BAR6 -/

/-- An access of no bytes has only empty pieces. -/
theorem winPieces_zero (l : List (Nat × Nat)) (off : Nat) : ∀ p ∈ winPieces l off 0, p.2.2 = 0 := by
  induction l generalizing off with
  | nil => simp [winPieces]
  | cons e l ih =>
    unfold winPieces
    split
    · simpa using fun a b c h => ih 0 (a, b, c) h
    · exact ih _

/-- The non-empty pieces of an access that lies in the first extent: one, the whole of it. -/
theorem winPieces_first {base size off n : Nat} (rest : List (Nat × Nat)) (hn : 0 < n) (h : off + n ≤ size) :
    ((winPieces ((base, size) :: rest) off n).filter fun p => p.2.2 != 0) = [(0, base + off, n)] := by
  have hk : Nat.min n (size - off) = n := Nat.min_eq_left (by omega)
  have hr : ((winPieces rest 0 0).map fun (p : Nat × Nat × Nat) => (p.1 + n, p.2)).filter (fun p => p.2.2 != 0) = [] := by
    rw [List.filter_map, List.filter_eq_nil_iff.mpr, List.map_nil]
    exact fun p hp => by simp [winPieces_zero rest 0 p hp]
  unfold winPieces
  rw [if_pos (by omega)]
  dsimp only
  rw [hk, Nat.sub_self, List.filter_cons_of_pos (by simp; omega), hr]

section
variable {s : State} {fn off base size : Nat} {rest : List (Nat × Nat)}

/-- The channels of the first and of the last byte serve where those of all do, and then the memory does. -/
theorem chanServes_ends {a n : Nat} (hn : 0 < n) (h : ∀ k, k < n → s.chanServes (chanOf (a + k)) = true) :
    s.memOn = true ∧ s.chanServes (chanOf a) = true ∧ s.chanServes (chanOf (a + n - 1)) = true := by
  have h0 := h 0 hn
  exact ⟨(Bool.and_eq_true_iff.mp h0).1, h0, Nat.add_sub_assoc hn a ▸ h (n - 1) (by omega)⟩

theorem bar6Access_write (hb : s.getF 0 Fld.DEV_BOOT_STAGE = 7) (he : s.extents fn = (base, size) :: rest) {d : List Byte}
    (hd : off + d.length ≤ size) (hn : 0 < d.length) (hc : ∀ k, k < d.length → s.chanServes (chanOf (base + off + k)) = true)
    (len : Nat) : exec (.bar6Access fn off len (some d)) s = .next (s.devWrite (base + off) d) := by
  obtain ⟨hm, h0, h1⟩ := chanServes_ends hn hc
  change execBar6Access fn off len (some d) s = _
  simp [execBar6Access, he, winPieces_first rest hn hd, hb, hm, h0, h1]

theorem bar6Access_read (hb : s.getF 0 Fld.DEV_BOOT_STAGE = 7) (he : s.extents fn = (base, size) :: rest) {len : Nat}
    (hd : off + len ≤ size) (hn : 0 < len) (hc : ∀ k, k < len → s.chanServes (chanOf (base + off + k)) = true)
    (hp : s.devPoisoned (base + off) len = false) :
    exec (.bar6Access fn off len none) s = .next { s with readData := leNat (s.devRead (base + off) len) } := by
  obtain ⟨hm, h0, h1⟩ := chanServes_ends hn hc
  change execBar6Access fn off len none s = _
  simp [execBar6Access, he, winPieces_first rest hn hd, hb, hm, h0, h1, hp]

end

theorem State.devWrite_frame (s : State) (pa : Nat) (d : List Byte) {k : Nat} (h : k < pa ∨ pa + d.length ≤ k) :
    assocGet 0 (s.devWrite pa d).mem.dev k = assocGet 0 s.mem.dev k := by
  unfold State.devWrite
  dsimp only
  rw [entriesFollow_dev]
  exact cellsWrite_frame _ _ _ _ h

/-- Settles O25: the counter's registers are written and latched, and each window's access is the one operation on the place it names. -/
theorem windowsAndCountersReadWhatTheyName : Obligations.WindowsAndCountersReadWhatTheyName := by
  unfold Obligations.WindowsAndCountersReadWhatTheyName
  refine ⟨fun s fn f v _ _ hr hf hv => filPerfSelWrite_restarts hr hf hv, fun s fn f _ hs hf => filPerfLoRead_latches hs hf,
    fun s fn off ho hs hh => ?_, fun s fn off base size rest hb he => ⟨fun d hd hn hc => ?_, fun len => bar6Access_read hb he⟩⟩
  · intro sq a
    have h : Bar2Reaches s fn off sq a := ⟨rfl, rfl, ho, hs, hh⟩
    clear_value sq a
    refine ⟨fun v => .of_eq (h.write v) ⟨?_, rfl, fun k hk => ?_⟩, fun hc => ?_, fun hc hp => ?_⟩
    · simpa using s.storeRead_storeWrite sq a (leBytes 4 v)
    · exact cellsWrite_frame _ _ _ _ (by simpa using hk)
    · rw [h.read hc.1, if_neg (by simp [hc.2])]
    · rw [h.read hc, if_pos hp]
      rfl
  · exact .of_eq (bar6Access_write hb he hd hn hc 0) ⟨s.devRead_devWrite _ d, rfl, fun k => s.devWrite_frame _ d⟩

end Sys2Proof.Machine
end

section
/-! # Instructions of the matrix unit and the gate pipeline enter the engine queue (O15) -/

namespace Sys2Proof.Machine

/-! ## The engine queue -/

@[simp] theorem Square.setMover_queue (x : Square) (mv : Nat) (m : Mover) : (x.setMover mv m).queue = x.queue := by
  unfold Square.setMover
  split <;> rfl

@[simp] theorem Square.setMover_lease (x : Square) (mv : Nat) (m : Mover) : (x.setMover mv m).lease = x.lease := by
  unfold Square.setMover
  split <;> rfl

/-- Feeding a mover takes TMV entries out of the queue: an entry of another kind at its end stays there, and the lease is kept. -/
theorem Square.feed_last {e : EngEntry} (he : ∀ mv, e.isTmv mv = false) (mv fuel : Nat) {x : Square} {q : List EngEntry}
    (hq : x.queue = q ++ [e]) : (∃ q', (x.feed mv fuel).queue = q' ++ [e]) ∧ (x.feed mv fuel).lease = x.lease := by
  induction fuel generalizing x q with
  | zero => exact ⟨⟨q, hq⟩, rfl⟩
  | succ fuel ih =>
    unfold Square.feed
    split
    · exact ⟨⟨q, hq⟩, rfl⟩
    · split
      · exact ⟨⟨q, hq⟩, rfl⟩
      · next d hd =>
        split
        · have hm : d ∈ q := by
            have ht := List.find?_some hd
            rcases List.mem_append.mp (hq ▸ List.mem_of_find?_eq_some hd) with h | h
            · exact h
            · rw [List.mem_singleton.mp h, he] at ht
              cases ht
          extract_lets D m x'
          have hq' : x'.queue = q.erase d ++ [e] := by simp [x', hq, List.erase_append_left [e] hm]
          have hl : x'.lease = x.lease := by simp [x']
          exact hl ▸ ih hq'
        · exact ⟨⟨q, hq⟩, rfl⟩

/-- The entry that an instruction of laneset `l` of group `g` puts into the queue. -/
def engEntry (s : State) (g l : Nat) (c : Ctx) (op : EngOp) (taint : Bool) : EngEntry :=
  { group := g, lset := l, pc := c.ls.pc, op := op, taint := taint, ord := (s.square c.x.square).issues }

/-- An operation other than a TMV enters the queue at its end, and the lease stays. -/
theorem State.enqueue_last (s : State) (c : Ctx) {op : EngOp} (taint : Bool) (hop : ∀ mv, (engEntry s c.g c.l c op taint).isTmv mv = false) :
    ((s.enqueue c op taint).square c.x.square).queue.getLast? = some (engEntry s c.g c.l c op taint) ∧
    ((s.enqueue c op taint).square c.x.square).lease = (s.square c.x.square).lease := by
  unfold State.enqueue
  rw [State.square_setSquare]
  obtain ⟨⟨q, h0⟩, l0⟩ := Square.feed_last hop 0 16 (x := { s.square c.x.square with
    queue := (s.square c.x.square).queue ++ [engEntry s c.g c.l c op taint], issues := (s.square c.x.square).issues + 1 }) rfl
  obtain ⟨⟨q', h1⟩, l1⟩ := Square.feed_last hop 1 16 h0
  exact ⟨(congrArg List.getLast? h1).trans List.getLast?_concat, l1.trans l0⟩

/-- The lease of a square that no other group holds is taken; the order of issue is kept. -/
theorem State.takeLease_spec {s : State} {c : Ctx} (h : (s.square c.x.square).lease = none ∨ (s.square c.x.square).lease = some c.g) :
    ∃ s1 : State, s.takeLease c = some s1 ∧ (∃ x, s1 = { s with squares := x }) ∧ (s1.square c.x.square).lease = some c.g ∧
      (s1.square c.x.square).issues = (s.square c.x.square).issues := by
  unfold State.takeLease
  rcases h with h | h
  · simp only [h]
    exact ⟨_, rfl, ⟨_, rfl⟩, by simp, by simp⟩
  · simp only [h]
    exact ⟨s, by simp, ⟨_, rfl⟩, h, rfl⟩

/-- An instruction that issues an operation other than a TMV: its entry is the last of the queue, its group holds the lease, and the
laneset goes on. -/
theorem State.issue_spec {s : State} {g l : Nat} {c : Ctx} (hc : s.ctx g l = some c) (hq : (s.square c.x.square).queue.length < 16)
    (hl : (s.square c.x.square).lease = none ∨ (s.square c.x.square).lease = some g) {op : EngOp} (taint : Bool)
    (hop : ∀ mv, (engEntry s g l c op taint).isTmv mv = false) :
    let t := s.issue c op taint
    (t.square c.x.square).queue.getLast? = some (engEntry s g l c op taint) ∧ (t.square c.x.square).lease = some g ∧
      t.laneset g l = some (c.ls.goto (c.ls.pc + 1)) ∧ { t with groups := s.groups, files := s.files, squares := s.squares } = s := by
  obtain ⟨rfl, rfl, -⟩ := State.ctx_spec hc
  obtain ⟨s1, e, ⟨x, hx⟩, h1, hi⟩ := State.takeLease_spec hl
  have he : engEntry s1 c.g c.l c op taint = engEntry s c.g c.l c op taint := by rw [engEntry, hi, engEntry]
  obtain ⟨q1, q2⟩ := s1.enqueue_last c taint (he ▸ hop)
  have hs : s.issue c op taint = (s1.enqueue c op taint).retire c c.ls 1 := by
    rw [State.issue, if_neg (by simpa [State.engFull] using hq), e]
  have hc1 : (s1.enqueue c op taint).ctx c.g c.l = some c := hx ▸ hc
  obtain ⟨r1, r2⟩ := State.retire_spec hc1 c.ls 1
  have hsq := congrArg (fun u : State => u.square c.x.square) r2
  refine hs ▸ ⟨?_, ?_, r1, ?_⟩
  · exact (congrArg (fun y : Square => y.queue.getLast?) hsq).trans (he ▸ q1)
  · exact (congrArg Square.lease hsq).trans (q2.trans h1)
  · subst hx
    exact congrArg (fun u : State => { u with squares := s.squares }) r2

/-! ## The instructions -/

/-- An instruction of uniform operands whose word is good runs where a lane executes it. -/
theorem State.meetU_at {s : State} {g l op : Nat} {c : Ctx} (h : AtInsn s g l op c) (hl : listedOp op = true) {bad : Nat → Bool}
    (hb : bad c.w = false) (hn : c.lanes ≠ []) (f : State → Ctx → State) : s.meetU g l op bad f = f s c := by
  rw [State.meetU, State.meet_at h hl, if_neg (by simp [hb]), if_neg (by simpa using hn)]

/-- The instruction puts `op` at the end of its square's engine queue and takes the matrix lease, and its laneset goes on. -/
def Enters (i : Instr) (s : State) (g l : Nat) (c : Ctx) (op : EngOp) : Prop :=
  Answers i s fun t => (∃ taint, (t.square c.x.square).queue.getLast? = some (engEntry s g l c op taint)) ∧
    (t.square c.x.square).lease = some g ∧ t.laneset g l = some (c.ls.goto (c.ls.pc + 1)) ∧
    { t with groups := s.groups, files := s.files, squares := s.squares } = s

theorem enters_of_issue {i : Instr} {s : State} {g l : Nat} {c : Ctx} {op : EngOp} {taint : Bool} (hc : s.ctx g l = some c)
    (hq : (s.square c.x.square).queue.length < 16)
    (hl : (s.square c.x.square).lease = none ∨ (s.square c.x.square).lease = some g)
    (hop : ∀ mv, (engEntry s g l c op taint).isTmv mv = false) (hi : exec i s = .next (s.issue c op taint)) : Enters i s g l c op := by
  obtain ⟨h1, h2⟩ := State.issue_spec hc hq hl taint hop
  exact .of_eq hi ⟨⟨taint, h1⟩, h2⟩

/-- The operation that MMA and MMASP issue. -/
def Ctx.mmaOp (c : Ctx) (sparse : Bool) : EngOp :=
  .mma sparse (bits c.w 49 47) (bit c.w 46) (bits c.w 45 42) (bits c.w 41 38) (BitVec.ofNat 32 (c.ls.ureg (bits c.w 37 32)))
    (BitVec.ofNat 32 (c.ls.ureg (bits c.w 31 26)))

/-- MMA and MMASP issue their operation where the word's formats agree and each operand's scale mode is one of its format. -/
theorem State.issueMma_good {s : State} {g l n : Nat} {c : Ctx} {sparse : Bool} (h : AtInsn s g l n c) (hx : listedOp n = true)
    (hn : c.lanes ≠ []) (hb : mmaBad sparse c.w = false)
    (ha : scmOk (bits c.w 45 42) (opSCM (c.ls.ureg (bits c.w 37 32))) = true ∧ bits (c.ls.ureg (bits c.w 37 32)) 31 30 = 0)
    (hb' : scmOk (bits c.w 41 38) (opSCM (c.ls.ureg (bits c.w 31 26))) = true ∧ bits (c.ls.ureg (bits c.w 31 26)) 31 30 = 0) :
    s.issueMma g l n sparse = s.issue c (c.mmaOp sparse) (s.readsPending c (c.mmaOp sparse)) := by
  rw [State.issueMma, State.meetU_at h hx hb hn]
  exact if_neg (by simp [ha, hb'])

/-- Settles O15: each of the four issues its operation, and what is issued enters the queue. -/
theorem engineInstructionsEnterTheQueue : Obligations.EngineInstructionsEnterTheQueue := by
  unfold Obligations.EngineInstructionsEnterTheQueue
  intro s g l c hn hq hl entered mmaOk mmaOp
  have mma {i : Instr} {n : Nat} {sparse : Bool} (h : AtInsn s g l n c) (hx : listedOp n = true)
      (hi : exec i s = .next (s.issueMma g l n sparse)) (hm : mmaOk sparse) : Enters i s g l c (c.mmaOp sparse) := by
    obtain ⟨h0, fa, fb, hf, sa, sb, ra, rb⟩ := hm
    have hb : mmaBad sparse c.w = false := by simp [mmaBad, h0, fa, fb, hf]
    exact enters_of_issue h.ctx hq hl (fun _ => rfl) (hi.trans (congrArg _ (State.issueMma_good h hx hn hb ⟨sa, ra⟩ ⟨sb, rb⟩)))
  refine ⟨fun h => mma (i := .mma g l) h rfl rfl, fun h => mma (i := .mmasp g l) h rfl rfl, fun h h1 h2 => ?_, fun h hb => ?_⟩
  · exact enters_of_issue h.ctx hq hl (fun _ => rfl) (congrArg _ (State.meetU_at h rfl (by simp [h1, h2]) hn _))
  · exact enters_of_issue h.ctx hq hl (fun _ => rfl) (congrArg _ (State.meetU_at h rfl hb hn _))

end Sys2Proof.Machine
end

section
/-! # The state before the first boot (O59) -/

namespace Sys2Proof.Machine

/-- At reset every copy of a register holds the reset value of the register maps. -/
theorem State.reset_getReg (b p o : Nat) : State.reset.getReg b p o = regReset p o := rfl

/-- The register maps give IRQ_RAW of every page the reset value 0. -/
theorem regReset_irqRaw : ∀ p ∈ List.range 20 ++ (List.range 16).map filePage, regReset p 0x010 = 0#32 := by decide +kernel

/-- Settles O59: the state's own fields as they are written, its registers by the reset columns of the maps, which are tables. -/
theorem resetHoldsTheValuesTheSpecGives : Obligations.ResetHoldsTheValuesTheSpecGives := by
  unfold Obligations.ResetHoldsTheValuesTheSpecGives
  refine ⟨State.reset_memWf, rfl, rfl, rfl, rfl, rfl, rfl, rfl, rfl, rfl, ?isOff, ?owner, ?ctlOwner,
    fun p hp fn _ => (State.reset_getReg fn p 0x010).trans (regReset_irqRaw p hp), ?registers⟩
  case isOff => decide +kernel
  case owner => decide +kernel
  case ctlOwner => decide +kernel
  case registers => decide +kernel

end Sys2Proof.Machine
end

section
/-! # Commands and ends of transitions of a file (O21) -/

namespace Sys2Proof.Machine

/-! ## Starting -/

/-- Ordering self-tests changes states of squares and the file's own record, which keeps what it says of a RESET. -/
theorem State.retestFile_spec (s : State) (f : Nat) : RegsBut (atOffs [0x060, 0x064]) s (s.retestFile f) ∧
    (s.retestFile f).mem = s.mem ∧ ((s.retestFile f).file f).byReset = (s.file f).byReset := by
  let l := (s.file f).retest
  let t := l.foldl (fun (s : State) r => s.setSqSt (16 * f + r) sqTest) s
  have e : s.retestFile f = t.setFile f { t.file f with retest := [], testing := (t.file f).testing + l.length } := rfl
  have kept : t.mem = s.mem ∧ t.files = s.files :=
    foldl_keeps (P := fun t : State => t.mem = s.mem ∧ t.files = s.files) (f := fun s r => s.setSqSt (16 * f + r) sqTest)
      (fun _ _ h => h) l s ⟨rfl, rfl⟩
  have regs : RegsBut (atOffs [0x060, 0x064]) s t := .foldl (fun s r => regsBut_setSqSt s _ _) l s
  rw [e]
  refine ⟨regs, kept.1, ?_⟩
  rw [State.file_setFile, State.file, State.file, kept.2]

/-- `t` is `s` with the file's start begun: STARTING, with IRQ STATE raised where that is a change. -/
structure Begun (s t : State) (f : Nat) : Prop where
  st : t.pageSt (filePage f) = stStarting
  irq : s.pageSt (filePage f) ≠ stStarting → t.getReg 0 (filePage f) 0x010 = s.getReg 0 (filePage f) 0x010 ||| 8#32
  regs : RegsBut (atOffs [0x060, 0x064, 0x00C, 0x010]) s t
  mem : t.mem = s.mem
  byReset : (t.file f).byReset = (s.file f).byReset

theorem begun_of_retest (s : State) {f : Nat} (hf : f < 16) : Begun s ((s.retestFile f).setFileSt f stStarting) f := by
  obtain ⟨hr, hm, hb⟩ := s.retestFile_spec f
  obtain ⟨r, m, e⟩ := (s.retestFile f).setFileSt_only f stStarting
  refine ⟨State.setFileSt_pageSt _ hf (by decide), fun h => ?_, ?_, ?_, ?_⟩
  · rw [State.setFileSt_irq _ (by rwa [hr.pageSt (filePage_lt hf)]), hr _ _ _ (filePage_lt hf) (by decide) (show 0x010 ∉ _ by decide)]
  · exact (hr.mono fun _ o h => List.mem_append_left [0x00C, 0x010] h).trans
      ((regsBut_setFileSt _ f stStarting).mono fun _ o h => List.mem_append_right [0x060, 0x064] h)
  · rw [e]
    exact hm
  · rw [e]
    exact hb

/-! ## CTL -/

@[simp] theorem State.enableReq_setEnableReq (s : State) (page : Nat) (b : Bool) : (s.setEnableReq page b).enableReq page = b := by
  have e := State.getF_setF s 0 (Fld.CTL_ENABLE.onPage page) (if b then 1 else 0) (show 0 ≤ 0 by decide) (show 0 < 32 by decide)
  unfold State.enableReq State.setEnableReq State.setFlag State.flag
  rw [e]
  cases b <;> rfl

theorem regsBut_setEnableReq (s : State) (page : Nat) (b : Bool) : RegsBut (atOffs [0x008]) s (s.setEnableReq page b) :=
  regsBut_setF_file s 0 Fld.CTL_ENABLE page _

section
variable {s : State} {fn f : Nat}

theorem holdsFile_of_holder (h : s.fileHolder f = some fn) : s.holdsFile fn f = true := by simp [State.holdsFile, h]

theorem exec_fileEnable (hr : Reaches s fn (filePage f)) (on : Bool) : exec (.fileEnable fn f on) s = .next (s.fileEnable fn f on) :=
  congrArg Host.Outcome.next (State.gated_reaches hr _ _)

theorem exec_fileQuiesce (hr : Reaches s fn (filePage f)) : exec (.fileQuiesce fn f) s = .next (s.fileQuiesce fn f) :=
  congrArg Host.Outcome.next (State.gated_reaches hr _ _)

theorem exec_fileReset (hr : Reaches s fn (filePage f)) : exec (.fileReset fn f) s = .next (s.fileReset fn f) :=
  congrArg Host.Outcome.next (State.gated_reaches hr _ _)

theorem fileEnable_off (hh : s.fileHolder f = some fn) (h : s.pageSt (filePage f) = stOff) : s.fileEnable fn f true =
    if s.filesDown then (s.setEnableReq (filePage f) true).setFileSt f stHeld else (s.setEnableReq (filePage f) true).startFile f := by
  simp [State.fileEnable, holdsFile_of_holder hh, h]

theorem fileDisable_on (hh : s.fileHolder f = some fn) (h : s.pageSt (filePage f) = stOn) (hk : s.fileKres f = false) :
    s.fileEnable fn f false = (s.setEnableReq (filePage f) false).stopFile f := by
  simp [State.fileEnable, holdsFile_of_holder hh, h, hk, show stOn ≠ stOff by decide]

theorem fileQuiesce_on (hh : s.fileHolder f = some fn) (h : s.pageSt (filePage f) = stOn) : s.fileQuiesce fn f =
    if s.fileKres f then s.recErr (filePage f) fn .accessDenied 0x008 else s.stopFile f := by
  cases hk : s.fileKres f <;> simp [State.fileQuiesce, holdsFile_of_holder hh, h, hk]

theorem fileReset_down (hh : s.fileHolder f = some fn) (h : s.pageSt (filePage f) = stOff ∨ s.pageSt (filePage f) = stFault)
    (hd : s.filesDown = false) : s.fileReset fn f = s.resetFile f := by
  simp [State.fileReset, holdsFile_of_holder hh, h, hd]

end

/-! ## The power cycle of a RESET -/

/-- A faulted square is put to the test, its SQ_FAULT bit cleared. -/
def State.testFaulted (s : State) (sq : Nat) : State := (s.setF 0 (sqFaultFld sq) 0).setSqSt sq sqTest

/-- The squares of a file whose SQ_FAULT bit is set. -/
def State.faultedSquares (s : State) (f : Nat) : List Nat := (squaresOf f).filter fun sq => s.getF 0 (sqFaultFld sq) == 1

/-- A square's SQ_FAULT bit is kept with its register. -/
theorem RegsBut.sqFault {l : List Nat} {s t : State} (h : RegsBut (atOffs l) s t) {sq : Nat} (hs : sq < 256)
    (hl : 0x068 ∉ l := by decide) : t.getF 0 (sqFaultFld sq) = s.getF 0 (sqFaultFld sq) :=
  h.getF 0 (filePage_lt (sqFile_lt hs)) (show 0x068 < 2 ^ 16 by decide) hl

theorem State.sqFault_testFaulted (s : State) {sq : Nat} (hs : sq < 256) : (s.testFaulted sq).getF 0 (sqFaultFld sq) = 0 := by
  rw [State.testFaulted, (regsBut_setSqSt _ _ _).sqFault hs, State.sqFault_setF]

theorem State.sqFault_testFaulted_other (s : State) {sq sq' : Nat} (hs : sq < 256) (hs' : sq' < 256) (h : sq' ≠ sq) :
    (s.testFaulted sq).getF 0 (sqFaultFld sq') = s.getF 0 (sqFaultFld sq') := by
  rw [State.testFaulted, (regsBut_setSqSt _ _ _).sqFault hs', State.sqFault_setF_other _ _ hs hs' h]

/-- The bits of a file's squares read 0 once those that were set have been cleared. -/
theorem sqFault_foldl_testFaulted {s t : State} {f : Nat} (hf : f < 16) (h : RegsBut (atOffs [0x060, 0x064]) s t) {sq : Nat}
    (hsq : sq ∈ squaresOf f) : ((s.faultedSquares f).foldl State.testFaulted t).getF 0 (sqFaultFld sq) = 0 := by
  have lt {q : Nat} (hq : q ∈ s.faultedSquares f) : q < 256 := lt_of_mem_squaresOf hf (List.mem_of_mem_filter hq)
  have hs := lt_of_mem_squaresOf hf hsq
  rw [foldl_pointwise (f := State.testFaulted) (val := fun t q => t.getF 0 (sqFaultFld q)) (P := fun q => q < 256) (new := fun _ _ => 0)
    (fun u q hq => u.sqFault_testFaulted (lt hq)) (fun u q hq q' h' hne => u.sqFault_testFaulted_other (lt hq) h' hne)
    ((squaresOf_nodup f).filter _) t hs]
  split
  · rfl
  · next hn =>
    have h1 : s.getF 0 (sqFaultFld sq) ≠ 1 := fun e => hn (List.mem_filter.mpr ⟨hsq, by simp [e]⟩)
    have h2 : s.getF 0 (sqFaultFld sq) < 2 ^ (sqRank sq + 1 - sqRank sq) := s.getF_lt 0 (sqFaultFld sq)
    rw [Nat.add_sub_cancel_left] at h2
    rw [h.sqFault hs]
    omega

theorem resetFile_spec {s : State} {f : Nat} (hf : f < 16) (h : s.noneAwaits f) : (s.resetFile f).pageSt (filePage f) = stStarting ∧
    ((s.resetFile f).file f).byReset = true ∧ ∀ sq ∈ squaresOf f, (s.resetFile f).getF 0 (sqFaultFld sq) = 0 ∧
      ∀ off < 2 ^ 20, assocGet 0 (s.resetFile f).mem.store (sq * 2 ^ 20 + off) = 0 := by
  obtain ⟨gregs, -, -, gstore⟩ := State.gateFile_gated hf h
  let s2 := (s.faultedSquares f).foldl State.testFaulted (s.gateFile f)
  have m2 : s2.mem = (s.gateFile f).mem :=
    foldl_keeps (P := fun t : State => t.mem = (s.gateFile f).mem) (f := State.testFaulted) (fun _ _ h => h) _ _ rfl
  obtain ⟨im, fs, hb, e⟩ : ∃ im fs, (assocGet {} fs f).byReset = true ∧
      s.resetFile f = (({ s2 with images := im, files := fs } : State).retestFile f).setFileSt f stStarting :=
    ⟨_, _, congrArg FileSt.byReset (State.file_setFile s2 f _), rfl⟩
  have b := begun_of_retest { s2 with images := im, files := fs } hf
  rw [← e] at b
  refine ⟨b.st, b.byReset.trans hb, fun sq hsq => ⟨?_, fun off hoff => ?_⟩⟩
  · exact (b.regs.sqFault (lt_of_mem_squaresOf hf hsq)).trans (sqFault_foldl_testFaulted hf gregs hsq)
  · rw [b.mem]
    exact m2 ▸ gstore sq hsq off hoff

/-! ## The ends of the transitions -/

/-- A square that is not in FAULT goes to IDLE. -/
def State.wakeSquare (s : State) (sq : Nat) : State := if s.sqSt sq = sqFaultSt then s else s.setSqSt sq sqIdle

theorem State.sqSt_wakeSquare (s : State) (sq : Nat) : (s.wakeSquare sq).sqSt sq = if s.sqSt sq = sqFaultSt then sqFaultSt else sqIdle := by
  unfold State.wakeSquare
  split
  · assumption
  · exact State.sqSt_setSqSt _ _ _

theorem State.sqSt_wakeSquare_other (s : State) {sq sq' : Nat} (hs : sq < 256) (hs' : sq' < 256) (h : sq' ≠ sq) :
    (s.wakeSquare sq).sqSt sq' = s.sqSt sq' := by
  unfold State.wakeSquare
  split
  · rfl
  · exact State.sqSt_setSqSt_other _ _ hs hs' h

theorem sqSt_foldl_wakeSquare (s : State) {f : Nat} (hf : f < 16) {sq : Nat} (hsq : sq ∈ squaresOf f) :
    ((squaresOf f).foldl State.wakeSquare s).sqSt sq = if s.sqSt sq = sqFaultSt then sqFaultSt else sqIdle :=
  (foldl_pointwise (f := State.wakeSquare) (val := State.sqSt) (P := fun q => q < 256)
    (new := fun _ st => if st = sqFaultSt then sqFaultSt else sqIdle) (fun u q _ => u.sqSt_wakeSquare q)
    (fun u _ hq _ h' hne => u.sqSt_wakeSquare_other (lt_of_mem_squaresOf hf hq) h' hne) (squaresOf_nodup f) s
    (lt_of_mem_squaresOf hf hsq)).trans (if_pos hsq)

theorem regsBut_foldl_wakeSquare (s : State) (f : Nat) :
    RegsBut (atOffs [0x060, 0x064]) s ((squaresOf f).foldl State.wakeSquare s) ∧ ((squaresOf f).foldl State.wakeSquare s).files = s.files := by
  refine ⟨.foldl (fun t sq => ?_) _ _, foldl_keeps (P := fun t : State => t.files = s.files) (fun t sq h => ?_) _ _ rfl⟩
  · unfold State.wakeSquare
    split
    · exact .refl t
    · exact regsBut_setSqSt t sq sqIdle
  · unfold State.wakeSquare
    split <;> exact h

theorem State.loadPortion_only (s : State) (sq : Nat) : ∃ m, s.loadPortion sq = { s with mem := m } := by
  unfold State.loadPortion
  split
  · exact ⟨_, rfl⟩
  · split
    · exact ⟨_, rfl⟩
    · dsimp only
      repeat' split
      all_goals exact ⟨_, rfl⟩

theorem State.loadFilePortions_only (s : State) (f : Nat) : ∃ m, s.loadFilePortions f = { s with mem := m } := by
  refine foldl_keeps (P := fun t : State => ∃ m, t = { s with mem := m }) (fun t sq h => ?_) _ s ⟨_, rfl⟩
  obtain ⟨m, rfl⟩ := h
  split
  · exact State.loadPortion_only _ sq
  · exact ⟨m, rfl⟩

theorem fileOn_spec {s : State} {f : Nat} (hf : f < 16) (hr : (s.file f).recReset = false) (hq : (s.file f).recQuiesce = false)
    (he : s.enableReq (filePage f) = true) : (s.fileOn f).pageSt (filePage f) = stOn ∧
      ∀ sq ∈ squaresOf f, (s.fileOn f).sqSt sq = if s.sqSt sq = sqFaultSt then sqFaultSt else sqIdle := by
  let s1 := (squaresOf f).foldl State.wakeSquare s
  obtain ⟨k1, f1⟩ := regsBut_foldl_wakeSquare s f
  obtain ⟨r, m, e2⟩ := s1.setFileSt_only f stOn
  have hx : (s1.setFileSt f stOn).file f = s.file f := by
    rw [e2]
    exact congrArg (assocGet {} · f) f1
  have k2 := regsBut_setFileSt s1 f stOn
  have he2 : (s1.setFileSt f stOn).enableReq (filePage f) = true := by
    rw [k2.enableReq (filePage_lt hf), k1.enableReq (filePage_lt hf), he]
  obtain ⟨fs, m3, e⟩ : ∃ fs m3, s.fileOn f = { s1.setFileSt f stOn with files := fs, mem := m3 } := by
    let s3 := (s1.setFileSt f stOn).setFile f
      { (s1.setFileSt f stOn).file f with recQuiesce := false, recReset := false, byReset := false, testing := 0 }
    obtain ⟨m3, e3⟩ := s3.loadFilePortions_only f
    have he3 : s3.enableReq (filePage f) = true := he2
    refine ⟨_, m3, Eq.trans ?_ e3⟩
    change (if ((s1.setFileSt f stOn).file f).recReset then s3.resetOn f else if
      !s3.enableReq (filePage f) || ((s1.setFileSt f stOn).file f).recQuiesce then s3.stopFile f else s3.loadFilePortions f) = _
    simp [hx, hr, hq, he3]
  rw [e]
  refine ⟨s1.setFileSt_pageSt hf (by decide), fun sq hsq => ?_⟩
  exact (k2.sqSt (lt_of_mem_squaresOf hf hsq) (by simp)).trans (sqSt_foldl_wakeSquare s hf hsq)

theorem fileOff_spec {s : State} {f : Nat} (hf : f < 16) (h : s.noneAwaits f) (hr : (s.file f).recReset = false)
    (he : (s.file f).recEnable = false) : (s.fileOff f).pageSt (filePage f) = stOff ∧
      ∀ sq ∈ squaresOf f, (s.fileOff f).sqSt sq = (if s.sqSt sq = sqFaultSt then sqFaultSt else sqGated) ∧
        ∀ off < 2 ^ 20, assocGet 0 (s.fileOff f).mem.store (sq * 2 ^ 20 + off) = 0 := by
  obtain ⟨-, -, gst, gstore⟩ := State.gateFile_gated hf h
  obtain ⟨r, m, e2⟩ := (s.gateFile f).setFileSt_only f stOff
  have e : s.fileOff f = (s.gateFile f).setFileSt f stOff := by simp [State.fileOff, hr, he]
  rw [e]
  refine ⟨State.setFileSt_pageSt _ hf (by decide), fun sq hsq => ⟨?_, fun off hoff => ?_⟩⟩
  · rw [(regsBut_setFileSt _ f stOff).sqSt (lt_of_mem_squaresOf hf hsq) (by simp), gst sq hsq]
  · rw [e2]
    exact gstore sq hsq off hoff

/-- Settles O21: the commands by the state they meet, and each transition's end by what it does to the file's squares. -/
theorem filesFollowTheStateTable : Obligations.FilesFollowTheStateTable := by
  unfold Obligations.FilesFollowTheStateTable
  refine ⟨fun s fn f hf hr hh => ?_, fun s f hf => ?_⟩
  · have hp := filePage_lt hf
    refine ⟨fun h hd => ?_, fun h hd => ?_, fun h hk => ?_, fun h hk => ?_, fun h hk => ?_, fun h hd ha => ?_⟩
    · have kr := regsBut_setEnableReq s (filePage f) true
      obtain ⟨fs, e⟩ : ∃ fs, s.fileEnable fn f true =
          (({ s.setEnableReq (filePage f) true with files := fs } : State).retestFile f).setFileSt f stStarting :=
        ⟨_, by rw [fileEnable_off hh h, hd]; rfl⟩
      have b := begun_of_retest { s.setEnableReq (filePage f) true with files := fs } hf
      rw [← e] at b
      refine .of_eq (exec_fileEnable hr true) ⟨b.st, ?_, ?_⟩
      · exact (b.regs.enableReq hp).trans (State.enableReq_setEnableReq _ _ _)
      · have hne : s.pageSt (filePage f) ≠ stStarting := by simp [h, stOff, stStarting]
        exact (b.irq ((kr.pageSt hp).trans_ne hne)).trans
          (congrArg (· ||| 8#32) (kr _ _ _ hp (by decide) (show 0x010 ∉ _ by decide)))
    · refine .of_eq (exec_fileEnable hr true) ?_
      rw [fileEnable_off hh h, hd]
      exact State.setFileSt_pageSt _ hf (by decide)
    · refine .of_eq (exec_fileEnable hr false) ?_
      rw [fileDisable_on hh h hk]
      exact ⟨State.setFileSt_pageSt _ hf (by decide), ((regsBut_setFileSt _ _ _).enableReq hp).trans (State.enableReq_setEnableReq _ _ _)⟩
    · refine .of_eq (exec_fileQuiesce hr) ?_
      rw [fileQuiesce_on hh h, hk]
      exact ⟨State.setFileSt_pageSt _ hf (by decide), (regsBut_setFileSt _ _ _).enableReq hp⟩
    · refine .of_eq (exec_fileQuiesce hr) ?_
      rw [fileQuiesce_on hh h, hk]
      exact ⟨((regsBut_recErr _ _ _ _ _).pageSt hp).trans h, State.recErr_code _ _ _ _ _⟩
    · refine .of_eq (exec_fileReset hr) ?_
      rw [fileReset_down hh h hd]
      exact resetFile_spec hf ha
  · refine ⟨fun h ht hb h7 hr hq he => ?_, fun h ht ha => ?_, fun h hg hr he ha => ?_⟩
    · have e : exec (.fileStartDone f) s = .next (s.fileOn f) :=
        congrArg Host.Outcome.next (if_pos ⟨h, by simpa using ht, by rw [hb]; rfl, h7⟩)
      exact .of_eq e (fileOn_spec hf hr hq he)
    · exact .of_eq (congrArg Host.Outcome.next (if_pos ⟨h, ht⟩)) (State.setFileSt_pageSt _ hf (by decide))
    · have e : exec (.fileStopDone f) s = .next (s.fileOff f) := congrArg Host.Outcome.next (if_pos ⟨h, by simp [hg]⟩)
      exact .of_eq e (fileOff_spec hf ha hr he)

end Sys2Proof.Machine
end

section
/-! # Self-tests, square faults and link events (O22) -/

namespace Sys2Proof.Machine

/-! ## Interrupt bits of a file page -/

theorem bit_eq_testBit (n i : Nat) : bit n i = n.testBit i := by
  simp only [bit, Nat.testBit_eq_decide_div_mod_eq]
  rfl

/-- A raised bit of a file page reads 1 while IRQ_RAW is kept. -/
theorem fileIrq_bit {W : Nat → Nat → Prop} {s t : State} {f fn i : Nat} (hf : f < 16) (hi : i < 32)
    (h : RegsBut W (s.raiseIrq (filePage f) fn i) t) (hw : ¬W (filePage f) 0x010) :
    bit (t.getReg 0 (filePage f) 0x010).toNat i = true := by
  rw [h 0 _ _ (filePage_lt hf) (by decide) hw]
  have e := s.raiseIrq_bit (filePage f) fn i hi
  rwa [irqBank_file] at e

theorem not_onPages_file {f : Nat} {l : List Nat} (h : ∀ p ∈ l, p < 0x20) (o : Nat) : ¬onPages l (filePage f) o := fun hm => by
  have := h _ hm
  unfold filePage at this
  omega

/-! ## Self-tests -/

theorem squareSelftestDone_pass {s : State} {sq : Nat} (h : s.sqSt sq = sqTest) :
    Answers (.squareSelftestDone sq true) s fun t => t.sqSt sq = sqIdle :=
  .of_eq (congrArg Host.Outcome.next (if_pos h)) (State.sqSt_setSqSt _ _ _)

/-- A square's fault as its registers show it: FAULT, its SQ_FAULT bit set, and IRQ bit 0 of its file's page raised. -/
def State.showFault (s : State) (sq : Nat) : State :=
  ((s.setSqSt sq sqFaultSt).setF 0 (sqFaultFld sq) 1).raiseIrq (filePage (sqFile sq)) ((s.fileHolder (sqFile sq)).getD 0) 0

theorem State.showFault_fields (s : State) {sq : Nat} (hs : sq < 256) :
    (s.showFault sq).sqSt sq = sqFaultSt ∧ (s.showFault sq).getF 0 (sqFaultFld sq) = 1 := by
  have k := regsBut_raiseIrq ((s.setSqSt sq sqFaultSt).setF 0 (sqFaultFld sq) 1) (filePage (sqFile sq))
    ((s.fileHolder (sqFile sq)).getD 0) 0 (l := [0x010]) (by decide)
  refine ⟨?_, (k.sqFault hs).trans (State.sqFault_setF _ _ _)⟩
  exact (k.sqSt hs (by simp)).trans (((regsBut_setSqFault _ sq 1).sqSt hs (by simp)).trans (State.sqSt_setSqSt _ _ _))

theorem boardOnly_showFault (s : State) (sq : Nat) : BoardOnly s (s.showFault sq) :=
  BoardOnly.trans ((boardOnly_setF s 0 _ _).trans (boardOnly_setF _ 0 _ _)) (boardOnly_raiseIrq _ _ _ _)

/-- A square's state and its SQ_FAULT bit are kept where the pages written are none of a file. -/
theorem RegsBut.square {l : List Nat} {s t : State} (h : RegsBut (onPages l) s t) (hl : ∀ p ∈ l, p < 0x20) {sq : Nat} (hs : sq < 256) :
    t.sqSt sq = s.sqSt sq ∧ t.getF 0 (sqFaultFld sq) = s.getF 0 (sqFaultFld sq) :=
  ⟨h.sqSt hs fun o _ => not_onPages_file hl o,
    h.getF 0 (filePage_lt (sqFile_lt hs)) (show 0x068 < 2 ^ 16 by decide) (not_onPages_file hl _)⟩

theorem squareSelftestDone_fail {s : State} {sq : Nat} (hs : sq < 256) (h : s.sqSt sq = sqTest) :
    Answers (.squareSelftestDone sq false) s fun t => t.sqSt sq = sqFaultSt ∧ t.getF 0 (sqFaultFld sq) = 1 := by
  let s1 := s.setFile (sqFile sq) { s.file (sqFile sq) with testing := (s.file (sqFile sq)).testing - 1 }
  let s2 := s1.showFault sq
  have e : exec (.squareSelftestDone sq false) s = .next (if s2.getF 0 Fld.DEV_BOOT_STAGE = 6 then
      (s2.setFlag 0 Fld.DEV_BOOT_DEGRADED true).setF 0 Fld.DEV_BOOT_STATUS Status.selftestFailed.code else s2) :=
    congrArg Host.Outcome.next (if_pos h)
  have h2 := s1.showFault_fields hs
  refine .of_eq e ?_
  split
  · have k : RegsBut (onPages [0]) s2 ((s2.setFlag 0 Fld.DEV_BOOT_DEGRADED true).setF 0 Fld.DEV_BOOT_STATUS Status.selftestFailed.code) :=
      (regsBut_setF_page s2 0 Fld.DEV_BOOT_DEGRADED 1).trans (regsBut_setF_page _ 0 Fld.DEV_BOOT_STATUS _)
    obtain ⟨k1, k2⟩ := k.square (by decide) hs
    exact ⟨k1.trans h2.1, k2.trans h2.2⟩
  · exact h2

/-! ## Square faults -/

theorem regsBut_finishCmd (s : State) (b : Nat) (f : Fld) (st : Status) {l : List Nat}
    (h : f.page < 2 ^ 8 ∧ f.off < 2 ^ 16 ∧ f.page ∈ l) : RegsBut (onPages l) s (s.finishCmd b f st) :=
  (regsBut_setReg s b _ h.1 h.2.1 h.2.2).trans (regsBut_setReg _ b _ h.1 h.2.1 h.2.2)

theorem boardOnly_finishCmd (s : State) (b : Nat) (f : Fld) (st : Status) : BoardOnly s (s.finishCmd b f st) :=
  (boardOnly_setF s b _ _).trans (boardOnly_setF _ b _ _)

/-- The completion of a Reserve command changes registers of page 0x06 and messages only. -/
theorem State.rsvDone_spec (s : State) (fn : Nat) (st : Status) :
    RegsBut (onPages [6]) s (s.rsvDone fn st) ∧ BoardOnly s (s.rsvDone fn st) ∧ (s.rsvDone fn st).squares = s.squares := by
  have h : (s.finishCmd fn Fld.RSV_CMD_STS_STATUS st).squares = s.squares := by simp
  have hr : RegsBut (onPages [6]) s (s.finishCmd fn Fld.RSV_CMD_STS_STATUS st) :=
    regsBut_finishCmd s fn Fld.RSV_CMD_STS_STATUS st (by decide)
  have hb := boardOnly_finishCmd s fn Fld.RSV_CMD_STS_STATUS st
  unfold State.rsvDone
  generalize s.finishCmd fn Fld.RSV_CMD_STS_STATUS st = t at *
  obtain ⟨r, m, e⟩ := t.raiseIrq_only 0x06 fn 0
  refine ⟨hr.trans (regsBut_raiseIrq_page _ _ _ (by decide)), hb.trans (boardOnly_raiseIrq _ _ _ _), ?_⟩
  rw [e]
  exact h

/-- The FREEs that complete change registers of page 0x06 only, and no square. -/
theorem State.settleFrees_spec (s : State) :
    RegsBut (onPages [6]) s s.settleFrees ∧ BoardOnly s s.settleFrees ∧ s.settleFrees.squares = s.squares := by
  refine foldl_keeps (P := fun t : State => RegsBut (onPages [6]) s t ∧ BoardOnly s t ∧ t.squares = s.squares) (fun t e h => ?_) _ s
    ⟨.refl s, .refl s, rfl⟩
  obtain ⟨hr, hb, hs⟩ := h
  split
  · exact ⟨hr, hb, hs⟩
  · obtain ⟨m, em⟩ : ∃ m, State.releasePages { t with mem := { t.mem with freeing := t.mem.freeing.erase e } } [e.2] =
      { t with mem := m } := ⟨_, rfl⟩
    obtain ⟨kr, kb, ks⟩ := State.rsvDone_spec { t with mem := m } e.1 .ok
    change RegsBut (onPages [6]) s (State.rsvDone (State.releasePages _ _) _ _) ∧ _
    simp only [em]
    refine ⟨hr.trans (RegsBut.trans (t := { t with mem := m }) (.of_regs rfl) kr), hb.trans (BoardOnly.trans ?_ kb), ks.trans hs⟩
    exact ⟨_, _, _, _, _, _, rfl⟩

/-- With no image loaded no stream has a home on the faulted square. -/
theorem State.faultStreams_noImages {s : State} (h : s.images = []) (fn sq : Nat) : s.faultStreams fn sq = s := by
  have hd (k : Nat) : s.setDecl fn k = none := by simp [State.setDecl, h]
  have hm : s.moveHomes fn sq = s := by
    unfold State.moveHomes
    simp only [h, List.map_nil]
    rw [← h]
  have hs : ((List.range 4).filter fun k => match s.setDecl fn k with
      | some d => d.homes.any fun l => l.contains sq
      | none => false) = [] := List.filter_eq_nil_iff.mpr fun k _ => by simp [hd]
  unfold State.faultStreams
  rw [hm]
  exact congrArg (List.foldl _ s) hs

theorem foldl_of_nil {α β : Type} {l : List β} (h : l = []) (f : α → β → α) (a : α) : l.foldl f a = a := by rw [h, List.foldl_nil]

/-- A square without groups, waiting groups and homes that faults: it shows its fault, which is noted, and is empty. -/
theorem squareFault_alone {s : State} {sq : Nat}
    (hst : s.sqSt sq = sqIdle ∨ s.sqSt sq = sqTest ∨ s.sqSt sq = sqRunning ∨ s.sqSt sq = sqPreempting) (hg : s.groups = [])
    (ha : (s.square sq).awaiting = []) (hi : s.images = []) (hq : NoErrors s) :
    s.squareFault sq = (((s.showFault sq).noteFault 1 sq).setSquare sq {}).settleFrees := by
  unfold State.squareFault
  rw [if_pos hst]
  extract_lets page fn s1 s2 gs waits s3 s4 s5
  have e2 : s2 = (((s.showFault sq).noteFault 1 sq).setSquare sq {}).settleFrees := rfl
  clear_value s2
  have hb : BoardOnly s s2 := e2 ▸ (((boardOnly_showFault s sq).trans (boardOnly_noteFault _ 1 sq)).trans
    (boardOnly_setSquare _ sq {})).trans (State.settleFrees_spec _).2.1
  obtain ⟨kg, kq, ki, -⟩ := hb.kept
  have hgs : gs = [] := by simp only [gs, kg, hg, List.filter_nil]
  have e3 : s3 = s2 := foldl_of_nil hgs _ _
  have e4 : s4 = s3 := State.faultStreams_noImages (e3 ▸ ki.trans hi) fn sq
  have e5 : s5 = s4 := foldl_of_nil hgs _ _
  have e6 : s5.replayAwaits sq waits = s5 := foldl_of_nil ha _ _
  rw [e6, e5, e4, e3, State.settleQueues_of_noErrors (by rwa [NoErrors, kq]), e2]

theorem squareFault_spec {s : State} {sq : Nat} (hs : sq < 256)
    (hst : s.sqSt sq = sqIdle ∨ s.sqSt sq = sqTest ∨ s.sqSt sq = sqRunning ∨ s.sqSt sq = sqPreempting) (hg : s.groups = [])
    (ha : (s.square sq).awaiting = []) (hi : s.images = []) (hq : NoErrors s) :
    (s.squareFault sq).sqSt sq = sqFaultSt ∧ (s.squareFault sq).getF 0 (sqFaultFld sq) = 1 ∧
    (s.squareFault sq).getF 0 Fld.DEV_FLT_KIND = 1 ∧ (s.squareFault sq).getF 0 Fld.DEV_FLT_WHERE = sq ∧
    (s.squareFault sq).square sq = {} := by
  rw [squareFault_alone hst hg ha hi hq]
  have hshow := s.showFault_fields hs
  obtain ⟨v1, v2⟩ := (s.showFault sq).fltRecord_fields 1 sq
  have hkind := (State.noteFault_flt (s.showFault sq) 1 sq (f := Fld.DEV_FLT_KIND) rfl rfl).trans v1
  have hwhere := (State.noteFault_flt (s.showFault sq) 1 sq (f := Fld.DEV_FLT_WHERE) rfl rfl).trans v2
  obtain ⟨n1, n2⟩ := (regsBut_noteFault (s.showFault sq) 1 sq).square (by decide) hs
  have hsq := ((s.showFault sq).noteFault 1 sq).square_setSquare sq {}
  generalize (s.showFault sq).noteFault 1 sq = u at *
  obtain ⟨kf, -, ks⟩ := (u.setSquare sq {}).settleFrees_spec
  have kr : RegsBut (onPages [6]) u (u.setSquare sq {}).settleFrees := (regsBut_setSquare u sq {}).trans kf
  obtain ⟨r1, r2⟩ := kr.square (by decide) hs
  refine ⟨r1.trans (n1.trans hshow.1), r2.trans (n2.trans hshow.2), ?_, ?_, ?_⟩
  · exact (kr.getF 0 (by decide) (by decide) (by decide)).trans hkind
  · exact (kr.getF 0 (by decide) (by decide) (by decide)).trans (hwhere.trans (Nat.mod_eq_of_lt (by omega)))
  · rw [State.square, ks]
    exact hsq

theorem squareStallWatchdog_expired {s : State} {sq : Nat} (hg : s.groupsOn sq ≠ []) (h0 : (s.square sq).mv0.flight = none)
    (h1 : (s.square sq).mv1.flight = none) (i0 : (s.square sq).mv0.issued = []) (i1 : (s.square sq).mv1.issued = [])
    (ht : s.retiredAt sq + 65536 * 250 ≤ s.fileCyc (sqFile sq)) :
    exec (.squareStallWatchdog sq) s = exec (.squareFault sq) s := by
  refine congrArg Host.Outcome.next (if_neg ?_)
  simp [hg, h0, h1, i0, i1, ht]

/-! ## Links -/

/-- A field of a file's page is kept where the pages written are none of a file. -/
theorem RegsBut.fileField {l : List Nat} {s t : State} (h : RegsBut (onPages l) s t) (hl : ∀ p ∈ l, p < 0x20) {f : Nat} (hf : f < 16)
    (b : Nat) (g : Fld) (ho : g.off < 2 ^ 16) : t.getF b (g.onPage (filePage f)) = s.getF b (g.onPage (filePage f)) :=
  h.getF b (f := g.onPage (filePage f)) (filePage_lt hf) ho (not_onPages_file hl _)

theorem State.bump_retries (s : State) (f : Nat) :
    (s.bump 0 (Fld.FIL_LINK_ERR_RETRIES.onPage (filePage f)) 1).getF 0 (Fld.FIL_LINK_ERR_RETRIES.onPage (filePage f)) =
      min 0xFFFF (s.getF 0 (Fld.FIL_LINK_ERR_RETRIES.onPage (filePage f)) + 1) := by
  rw [State.bump, State.getF_setF _ _ _ _ (show 0 ≤ 15 by decide) (show 15 < 32 by decide)]
  generalize s.getF 0 (Fld.FIL_LINK_ERR_RETRIES.onPage (filePage f)) = n
  have h : min 0xFFFF (n + 1) < 2 ^ 16 := by omega
  exact Nat.mod_eq_of_lt h

theorem flitRetry_counts {s : State} {f : Nat} (hf : f < 16) : Answers (.flitRetry f) s fun t =>
    t.getF 0 (Fld.FIL_LINK_ERR_RETRIES.onPage (filePage f)) =
      min 0xFFFF (s.getF 0 (Fld.FIL_LINK_ERR_RETRIES.onPage (filePage f)) + 1) ∧
    t.getF 0 Fld.DEV_FLT_KIND = 4 ∧ bit (t.getReg 0 (filePage f) 0x010).toNat 2 = true := by
  obtain ⟨s1, e, k1⟩ : ∃ s1, exec (.flitRetry f) s = .next (((s1.bump 0 (Fld.FIL_LINK_ERR_RETRIES.onPage (filePage f)) 1).raiseIrq
      (filePage f) ((s1.fileHolder f).getD 0) 2).noteFault 4 0) ∧ RegsBut (atOffs []) s s1 := ⟨_, rfl, regsBut_setFile s f _⟩
  have field {l : List Nat} {t u : State} (h : RegsBut (atOffs l) t u) (hl : 0x078 ∉ l) :
      u.getF 0 (Fld.FIL_LINK_ERR_RETRIES.onPage (filePage f)) = t.getF 0 (Fld.FIL_LINK_ERR_RETRIES.onPage (filePage f)) :=
    h.getF 0 (f := Fld.FIL_LINK_ERR_RETRIES.onPage (filePage f)) (filePage_lt hf) (show 0x078 < 2 ^ 16 by decide) hl
  have hc := s1.bump_retries f
  rw [field k1 (by decide)] at hc
  generalize s1.bump 0 (Fld.FIL_LINK_ERR_RETRIES.onPage (filePage f)) 1 = s2 at *
  have k2 := field (regsBut_raiseIrq s2 (filePage f) ((s1.fileHolder f).getD 0) 2 (l := [0x010]) (by decide)) (by decide)
  have k := regsBut_noteFault (s2.raiseIrq (filePage f) ((s1.fileHolder f).getD 0) 2) 4 0
  refine .of_eq e ⟨?_, ?_, fileIrq_bit hf (by decide) k (not_onPages_file (by decide) _)⟩
  · exact (k.fileField (by decide) hf 0 Fld.FIL_LINK_ERR_RETRIES (by decide)).trans (k2.trans hc)
  · exact (State.noteFault_flt _ 4 0 rfl rfl).trans (State.fltRecord_fields _ 4 0).1

/-- A mask with bit `k` set where it was not shows that bit. -/
theorem bit_setBit (d k : Nat) : bit (if bit d k then d else d + 2 ^ k) k = true := by
  split
  · assumption
  · next h =>
    have h0 : d / 2 ^ k % 2 = 0 := by
      have : d / 2 ^ k % 2 ≠ 1 := by simpa [bit] using h
      omega
    simp only [bit, Nat.add_div_right _ (Nat.two_pow_pos k), beq_iff_eq]
    omega

theorem bit_mod_two_pow {n k : Nat} (h : k < n) (v : Nat) : bit (v % 2 ^ n) k = bit v k := by
  simp [bit_eq_testBit, Nat.testBit_mod_two_pow, h]

/-- A field of the first `n` bits takes a mask with one bit more, and shows that bit. -/
theorem State.bit_setF (s : State) (b : Nat) {f : Fld} {k : Nat} (h0 : f.lo = 0) (hh : f.hi < 32) (hk : k ≤ f.hi) :
    bit ((s.setF b f (if bit (s.getF b f) k then s.getF b f else s.getF b f + 2 ^ k)).getF b f) k = true := by
  rw [State.getF_setF _ _ _ _ (by omega) hh, bit_mod_two_pow (by omega), bit_setBit]

theorem linkFailed_east {s : State} {f k : Nat} (hf : f < 15) (hk : k < 19) (hl : s.linkLost f = true) :
    Answers (.linkFailed f k true) s fun t => bit (t.getF 0 (Fld.FIL_DETOUR_EAST.onPage (filePage f))) k = true ∧
      bit (t.getF 0 Fld.DEV_DETOUR_FILES) f = true ∧ bit (t.getReg 0 (filePage f) 0x010).toNat 4 = true := by
  have hf' : f < 16 := by omega
  let east := Fld.FIL_DETOUR_EAST.onPage (filePage f)
  let s1 := s.setF 0 east (if bit (s.getF 0 east) k then s.getF 0 east else s.getF 0 east + 2 ^ k)
  have he : bit (s1.getF 0 east) k = true := s.bit_setF 0 rfl (show 18 < 32 by decide) (show k ≤ 18 by omega)
  have hn : s1.getF 0 Fld.DEV_DETOUR_FILES = s.getF 0 Fld.DEV_DETOUR_FILES :=
    (regsBut_setF_file s 0 Fld.FIL_DETOUR_EAST (filePage f) _ (l := [0x090])).getF 0 (by decide) (by decide) (by decide)
  have e : exec (.linkFailed f k true) s = .next ((s1.setF 0 Fld.DEV_DETOUR_FILES (if bit (s1.getF 0 Fld.DEV_DETOUR_FILES) f then
      s1.getF 0 Fld.DEV_DETOUR_FILES else s1.getF 0 Fld.DEV_DETOUR_FILES + 2 ^ f)).raiseIrq (filePage f) ((s.fileHolder f).getD 0) 4) := by
    rw [hn]
    change execLinkFailed f k true s = _
    simp only [execLinkFailed, hl, State.detour]
    rw [if_neg (by decide), if_pos trivial, if_neg (by omega)]
  clear_value s1
  have hd := s1.bit_setF 0 (f := Fld.DEV_DETOUR_FILES) (k := f) rfl (by decide) (show f ≤ 15 by omega)
  have k2 := (regsBut_setF_page s1 0 Fld.DEV_DETOUR_FILES (if bit (s1.getF 0 Fld.DEV_DETOUR_FILES) f then
      s1.getF 0 Fld.DEV_DETOUR_FILES else s1.getF 0 Fld.DEV_DETOUR_FILES + 2 ^ f) (l := [0])).fileField (by decide) hf' 0
      Fld.FIL_DETOUR_EAST (by decide)
  generalize s1.setF 0 Fld.DEV_DETOUR_FILES _ = s2 at *
  have k3 := regsBut_raiseIrq s2 (filePage f) ((s.fileHolder f).getD 0) 4 (l := [0x010]) (by decide)
  refine .of_eq e ⟨?_, ?_, fileIrq_bit (W := atOffs []) hf' (by decide) (.refl _) (by simp)⟩
  · rw [k3.getF 0 (f := Fld.FIL_DETOUR_EAST.onPage (filePage f)) (filePage_lt hf') (show 0x090 < 2 ^ 16 by decide)
      (show 0x090 ∉ [0x010] by decide), k2]
    exact he
  · rw [k3.getF 0 (by decide) (by decide) (by decide)]
    exact hd

/-- A file without groups, resident or waiting, that fails is in FAULT. -/
theorem failFile_alone {s : State} {f : Nat} (hf : f < 16) (hg : s.fileGroups f = []) (ha : s.noneAwaits f) (hq : NoErrors s) :
    (s.failFile f).pageSt (filePage f) = stFault := by
  obtain ⟨q, e0, ha0⟩ := foldl_clearAwaits (g := fun s sq => s.setSquare sq { s.square sq with awaiting := [] }) (fun _ _ _ => rfl) ha
  unfold State.failFile
  extract_lets gs waits s0 s1 s2 s3
  have e1 : s1 = s0 := foldl_of_nil hg _ _
  have h0 : s0 = { s with squares := q } := e0
  have e3 : s3 = s2 := foldl_of_nil hg _ _
  have ew : waits.foldl (fun s w => s.replayAwaits w.1 w.2) s3 = s3 := by
    refine List.foldlRecOn (motive := fun t => t = s3) waits _ rfl fun t ht w hw => ?_
    obtain ⟨sq, hsq, rfl⟩ := List.mem_map.mp hw
    exact (foldl_of_nil (ha sq hsq) _ t).trans ht
  have kb : BoardOnly s s2 := by
    obtain ⟨r, m, e2⟩ := (s1.gateFile f).setFileSt_only f stFault
    have h1 : s1 = { s with squares := q } := e1.trans h0
    have k1 : BoardOnly s s1 := h1 ▸ ⟨_, _, _, _, _, _, rfl⟩
    have k2 : BoardOnly s1 (s1.gateFile f) := (State.gateFile_gated hf (h1 ▸ ha0)).board
    exact (k1.trans k2).trans ⟨r, m, _, _, _, _, e2⟩
  obtain ⟨-, kq, -, -⟩ := kb.kept
  rw [ew, e3, State.settleQueues_of_noErrors (by rwa [NoErrors, kq])]
  exact State.setFileSt_pageSt _ hf (by decide)

theorem linkFailed_column {s : State} {f k : Nat} (hf : f < 16) (hk : k < 18) (hl : s.linkLost f = true) (hg : s.fileGroups f = [])
    (ha : s.noneAwaits f) (hq : NoErrors s) : Answers (.linkFailed f k false) s fun t => t.pageSt (filePage f) = stFault := by
  have e : exec (.linkFailed f k false) s = .next ((s.raiseIrq (filePage f) ((s.fileHolder f).getD 0) 4).failFile f) := by
    change execLinkFailed f k false s = _
    simp only [execLinkFailed, hl]
    rw [if_neg (by decide), if_neg (by decide), if_neg (by omega)]
  obtain ⟨r, m, hu⟩ := s.raiseIrq_only (filePage f) ((s.fileHolder f).getD 0) 4
  rw [hu] at e
  refine .of_eq e (failFile_alone (s := { s with regs := r, msix := m }) hf hg ha hq)

/-- Settles O22: each event by what it writes; a fault and a failing file find no group, no waiting group and no image to settle. -/
theorem squareAndLinkEventsAreRecorded : Obligations.SquareAndLinkEventsAreRecorded := by
  unfold Obligations.SquareAndLinkEventsAreRecorded
  exact ⟨fun s sq _ h => squareSelftestDone_pass h, fun s sq hs h => squareSelftestDone_fail hs h,
    fun s sq hs hst hg ha hi hq => .of_eq rfl (squareFault_spec hs hst hg ha hi hq),
    fun s sq hg h0 h1 i0 i1 ht => squareStallWatchdog_expired hg h0 h1 i0 i1 ht, fun s f hf => flitRetry_counts hf,
    fun s f k hf hk hl => linkFailed_east hf hk hl, fun s f k hf hk hl hg ha hq => linkFailed_column hf hk hl hg ha hq⟩

end Sys2Proof.Machine
end

section
/-! # Groups are placed, preempted, resumed and moved (O23) -/

namespace Sys2Proof.Machine

/-! ## Jobs and groups by number -/

theorem State.job_setJob (s : State) (id k : Nat) (j : Job) : (s.setJob id j).job k = if id = k then some j else s.job k := by
  unfold State.job State.setJob
  rw [find_assocInsert]
  split <;> rfl

theorem State.group_setGroup_other (s : State) {g k : Nat} (x : Group) (h : g ≠ k) : (s.setGroup g x).group k = s.group k := by
  unfold State.group State.setGroup
  rw [find_assocInsert, if_neg h]

/-! ## A group comes to run on a square -/

/-- A square on which a group comes to run is RUNNING where it was IDLE. -/
def State.markRunning (s : State) (sq : Nat) : State := if s.sqSt sq = sqIdle then s.setSqSt sq sqRunning else s

theorem State.sqSt_markRunning {s : State} {sq : Nat} (h : s.sqSt sq = sqIdle) : (s.markRunning sq).sqSt sq = sqRunning := by
  rw [State.markRunning, if_pos h]
  exact State.sqSt_setSqSt _ _ _

theorem State.markRunning_only (s : State) (sq : Nat) : ∃ r, s.markRunning sq = { s with regs := r } := by
  unfold State.markRunning
  split <;> exact ⟨_, rfl⟩

/-- A group of a job as it is placed on a square. -/
def State.newGroup (s : State) (id : Nat) (j : Job) (index sq base : Nat) (rep : Option Nat) : Group :=
  let l := s.launchOf j
  let nls := l.gx * l.gy * l.gz / 32
  { job := id, index := index, square := sq, base := base, size := 4096 * l.store4k, nreg := l.nreg, nls := nls,
    text := 8 * l.text.length, bundleLen := l.bundle, start := s.fileCyc (sqFile sq), replayOf := rep,
    lanesets := (List.range nls).map fun i => (i, freshLaneset j.arg) }

/-- A new group takes the next number. -/
def State.addGroup (s : State) (x : Group) : State := { s.setGroup s.nextGroup x with nextGroup := s.nextGroup + 1 }

theorem State.addGroup_group (s : State) (x : Group) : (s.addGroup x).group s.nextGroup = some x := s.group_setGroup s.nextGroup x

/-- Placing a group of a job without a page walk: beside the new group and the square's state, only the file's record and the store
change. -/
theorem State.placeGroup_plain {s : State} {id : Nat} {j : Job} (hj : s.job id = some j) (hu : j.units = []) (index sq base : Nat)
    (rep : Option Nat) : ∃ fs m, s.placeGroup id index sq base rep =
      (({ s with files := fs, mem := m }).addGroup (s.newGroup id j index sq base rep)).markRunning sq := by
  have e0 : ∃ fs, (if (s.groupsOn sq).isEmpty then s.noteRetire sq else s) = { s with files := fs } := by
    split
    · exact ⟨_, rfl⟩
    · exact ⟨s.files, rfl⟩
  obtain ⟨fs, e0⟩ := e0
  unfold State.placeGroup
  rw [hj]
  dsimp only
  rw [e0, hu]
  exact ⟨fs, ({ s with files := fs }.storeWrite sq (base + textOff (s.newGroup id j index sq base rep).nls)
    (textBytes (s.launchOf j))).mem, if_pos rfl⟩

theorem Job.advance_units (j : Job) : j.advance.units = j.units := by
  unfold Job.advance
  split <;> rfl

theorem Job.advance_cls (j : Job) : j.advance.cls = j.cls := by
  unfold Job.advance
  split <;> rfl

theorem groupPlace_places {s : State} {id : Nat} {j : Job} {sq b : Nat} (hj : s.job id = some j) (hst : j.st = .started)
    (hw : s.wantsGroup j = true) (hu : j.units = []) (hd : s.dspPlaces = true) (ht : s.itsTurn id j = true)
    (hp : s.placeOf j = some (sq, b)) (hq : NoErrors s) :
    Answers (.groupPlace id) s fun t => ∃ x, t.group s.nextGroup = some x ∧ x.job = id ∧ x.index = j.next ∧ x.square = sq ∧
      x.base = b ∧ x.st = .running ∧ t.nextGroup = s.nextGroup + 1 ∧ t.job id = some j.advance ∧
      (s.sqSt sq = sqIdle → sq < 256 → t.sqSt sq = sqRunning) := by
  have hj1 : (s.setJob id j.advance).job id = some j.advance := by rw [State.job_setJob, if_pos rfl]
  obtain ⟨fs, m, e⟩ := State.placeGroup_plain hj1 (j.advance_units.trans hu) j.next sq b none
  obtain ⟨x, hx⟩ : ∃ x, x = (s.setJob id j.advance).newGroup id j.advance j.next sq b none := ⟨_, rfl⟩
  obtain ⟨u, hu⟩ : ∃ u : State, u = { s.setJob id j.advance with files := fs, mem := m } := ⟨_, rfl⟩
  rw [← hu, ← hx] at e
  have en : s.placeNext id = (s.setJob id j.advance).placeGroup id j.next sq b none := by
    simp [State.placeNext, hj, hst, hp]
  have ex : exec (.groupPlace id) s = .next ((s.setJob id j.advance).placeGroup id j.next sq b none).settleQueues := by
    change execGroupPlace id s = _
    simp [execGroupPlace, hj, hst, hd, hw, ht, hp, en]
  rw [e] at ex
  obtain ⟨r, em⟩ := (u.addGroup x).markRunning_only sq
  have hq' : NoErrors ((u.addGroup x).markRunning sq) := by
    rw [em, hu]
    exact hq
  rw [State.settleQueues_of_noErrors hq'] at ex
  refine .of_eq ex ⟨x, ?_, hx ▸ rfl, hx ▸ rfl, hx ▸ rfl, hx ▸ rfl, hx ▸ rfl, ?_, ?_, fun hi _ => State.sqSt_markRunning (hu ▸ hi)⟩
  · rw [em]
    exact hu ▸ u.addGroup_group x
  · rw [em, hu]
    rfl
  · rw [em, hu]
    exact hj1

/-! ## Preemption -/

/-- Which groups of a square are of lower classes depends on the group table and the jobs' classes alone. -/
theorem State.lowGroups_congr {s t : State} (sq : Nat) (hg : t.groups = s.groups)
    (hc : ∀ k, (t.job k).map Job.cls = (s.job k).map Job.cls) : t.lowGroups sq = s.lowGroups sq := by
  simp only [State.lowGroups, hg, hc]

/-- Asking a group to stop changes the group table only. -/
theorem State.preemptLow_only (s : State) (sq : Nat) : ∃ gs, s.preemptLow sq = { s with groups := gs } := by
  unfold State.preemptLow
  refine List.foldlRecOn (motive := fun t : State => ∃ gs, t = { s with groups := gs }) _ _ ⟨s.groups, rfl⟩ ?_
  rintro t ⟨gs, rfl⟩ e -
  split
  · exact ⟨_, rfl⟩
  · exact ⟨gs, rfl⟩

/-- Every running group of a lower class on the square is asked to stop. -/
theorem State.preemptLow_group {s : State} {sq g : Nat} {x : Group} (hn : (s.groups.map (·.1)).Nodup) (hm : (g, x) ∈ s.lowGroups sq)
    (hr : x.st = .running) : (s.preemptLow sq).group g = some { x with preempt := true } := by
  have hkeys : ((s.lowGroups sq).map (·.1)).Nodup := hn.sublist (List.filter_sublist.map _)
  have key := foldl_pointwise (l := s.lowGroups sq) (P := (· ∈ s.lowGroups sq)) (val := fun t e => t.group e.1)
    (f := fun s e => if e.2.st = .running then s.setGroup e.1 { e.2 with preempt := true } else s)
    (new := fun e v => if e.2.st = .running then some { e.2 with preempt := true } else v)
    (fun t e _ => by
      split
      · exact State.group_setGroup t _ _
      · rfl)
    (fun t e he k hk hne => by
      split
      · exact State.group_setGroup_other t _ fun c => hne (List.inj_on_of_nodup_map hkeys hk he c.symm)
      · rfl) hkeys.of_map s hm
  rw [if_pos hm, if_pos hr] at key
  exact key

/-- A job whose next group waits for victims. -/
def Job.awaiting (j : Job) : Job := if j.st = .waiting then { j with await := true } else j.advance

theorem Job.awaiting_cls (j : Job) : j.awaiting.cls = j.cls := by
  unfold Job.awaiting
  split
  · rfl
  · exact j.advance_cls

theorem preemption_stops {s : State} {id : Nat} {j : Job} {sq : Nat} (hj : s.job id = some j) (hc : j.cls = 2)
    (hw : s.wantsGroup j = true) (ht : s.itsTurn id j = true) (hd : s.dspPlaces = true) (hp : s.placeOf j = none)
    (hn : (s.groups.map (·.1)).Nodup)
    (hf : (s.jobSquares j).find? (fun q => s.inService q && s.sqSt q != sqPreempting &&
      ((s.lowGroups q).any fun e => e.2.st == .running) && s.kRoom q (s.launchOf j)) = some sq) :
    Answers (.preemption id) s fun t => t.sqSt sq = sqPreempting ∧
      (t.square sq).awaiting = (s.square sq).awaiting ++ [{ job := id, index := j.next, replayOf := none }] ∧
      t.job id = some j.awaiting ∧
      ∀ g x, s.group g = some x → (g, x) ∈ s.lowGroups sq → x.st = .running → t.group g = some { x with preempt := true } := by
  obtain ⟨y, hy⟩ : ∃ y : Square, y = { s.square sq with
    awaiting := (s.square sq).awaiting ++ [{ job := id, index := j.next, replayOf := none }] } := ⟨_, rfl⟩
  have ex : exec (.preemption id) s = .next ((((s.setSquare sq y).setJob id j.awaiting).setSqSt sq sqPreempting).preemptLow sq) := by
    change execPreemption id s = _
    simp only [execPreemption, hj, hd, hc, hw, ht, hp, hf, hy, Job.awaiting]
    rfl
  have hlow : (((s.setSquare sq y).setJob id j.awaiting).setSqSt sq sqPreempting).lowGroups sq = s.lowGroups sq :=
    State.lowGroups_congr sq rfl fun k => by
      change (((s.setSquare sq y).setJob id j.awaiting).job k).map Job.cls = _
      rw [State.job_setJob]
      split
      next e =>
        subst e
        rw [hj, Option.map_some, Option.map_some, j.awaiting_cls]
      next => rfl
  obtain ⟨gs, e⟩ := State.preemptLow_only (((s.setSquare sq y).setJob id j.awaiting).setSqSt sq sqPreempting) sq
  refine .of_eq ex ⟨?_, ?_, ?_, fun g x _ hm hr => State.preemptLow_group hn (hlow ▸ hm) hr⟩
  · rw [e]
    exact State.sqSt_setSqSt _ sq sqPreempting
  · rw [e]
    exact (congrArg Square.awaiting (s.square_setSquare sq y)).trans (congrArg Square.awaiting hy)
  · rw [e]
    exact ((s.setSquare sq y).job_setJob id id j.awaiting).trans (if_pos rfl)

/-! ## The end of a preemption -/

/-- A square in RUNNING without a group and without a waiting one is IDLE again. -/
theorem State.settleSquare_sqSt {s : State} {sq : Nat} (ha : (s.square sq).awaiting = []) (hr : s.sqSt sq = sqRunning) :
    (s.settleSquare sq).sqSt sq = if s.groupsOn sq = [] then sqIdle else sqRunning := by
  by_cases h : s.groupsOn sq = []
  · rw [State.settleSquare, if_pos ⟨by simp [h], by simp [ha], .inl hr⟩, if_pos h]
    exact State.sqSt_setSqSt _ _ _
  · rw [State.settleSquare, if_neg fun k => h (List.isEmpty_iff.mp k.1), if_neg h]
    exact hr

theorem State.settleSquare_only (s : State) (sq : Nat) : ∃ r, s.settleSquare sq = { s with regs := r } := by
  unfold State.settleSquare
  split <;> exact ⟨_, rfl⟩

theorem preemptionComplete_settles {s : State} {sq : Nat} (hst : s.sqSt sq = sqPreempting)
    (hl : ((s.lowGroups sq).all fun e => e.2.st == .suspended) = true) (ha : (s.square sq).awaiting = []) (hq : NoErrors s) :
    Answers (.preemptionComplete sq) s fun t => t.sqSt sq = if s.groupsOn sq = [] then sqIdle else sqRunning := by
  obtain ⟨y, hy⟩ : ∃ y : Square, y = { s.square sq with awaiting := [] } := ⟨_, rfl⟩
  have ex : exec (.preemptionComplete sq) s =
      .next ((((s.setSquare sq y).setSqSt sq sqRunning).settleSquare sq).settleQueues) := by
    change execPreemptionComplete sq s = _
    rw [execPreemptionComplete, if_pos ⟨hst, hl⟩, ha, hy]
    rfl
  obtain ⟨r, e⟩ := State.settleSquare_only ((s.setSquare sq y).setSqSt sq sqRunning) sq
  rw [State.settleQueues_of_noErrors (by rw [e]; exact hq)] at ex
  refine .of_eq ex (State.settleSquare_sqSt ?_ (State.sqSt_setSqSt _ _ _))
  exact (congrArg Square.awaiting (s.square_setSquare sq y)).trans (congrArg Square.awaiting hy)

/-! ## Resuming and moving -/

/-- A suspended group as it resumes. -/
def State.resumed (s : State) (x : Group) : Group :=
  { x with st := .running, preempt := false, lanesets := x.lanesets.map fun e =>
    if e.2.ended then e else (e.1, { (({} : Laneset)) with pc := x.contPc, uregs := s.savedUregs x e.1 }) }

theorem State.resumeGroup_eq {s : State} {g : Nat} {x : Group} (h : s.group g = some x) :
    s.resumeGroup g = (s.setGroup g (s.resumed x)).markRunning x.square := by
  unfold State.resumeGroup
  rw [h]
  rfl

theorem State.resumeGroup_group {s : State} {g : Nat} {x : Group} (h : s.group g = some x) :
    (s.resumeGroup g).group g = some (s.resumed x) := by
  rw [State.resumeGroup_eq h]
  obtain ⟨r, e⟩ := (s.setGroup g (s.resumed x)).markRunning_only x.square
  rw [e]
  exact State.group_setGroup s g _

theorem groupResume_resumes {s : State} {sq g : Nat} {x : Group}
    (hs : (s.groups.filter fun e => e.2.square == sq && e.2.st == .suspended) = [(g, x)]) (hg : s.group g = some x)
    (hh : s.hosts sq = true) (hp : s.sqSt sq ≠ sqPreempting) (hr : s.quadRoom sq x.nreg x.nls = true)
    (hb : s.fileKres (sqFile sq) = false ∨ s.bundleOk x.bundleLen = true) :
    Answers (.groupResume sq) s fun t => t.group g = some (s.resumed x) := by
  have hb' : (!s.fileKres (sqFile sq) || s.bundleOk x.bundleLen) = true := by
    rcases hb with h | h <;> simp [h]
  have ex : exec (.groupResume sq) s = .next (s.resumeGroup g) := by
    change execGroupResume sq s = _
    simp [execGroupResume, hs, hh, hp, hr, hb']
  exact .of_eq ex (State.resumeGroup_group hg)

section
variable {s : State} {g : Nat} {x : Group} {j : Job} (hg : s.group g = some x) (hj : s.job x.job = some j) (hc : j.cls ≠ 2)
  (hk : s.fileKres (sqFile x.square) = true) (hb : s.bundleOk x.bundleLen = false)
include hg hj hc hk hb

theorem groupMove_running (hr : x.st = .running) :
    Answers (.groupMove g) s fun t => t.group g = some { x with preempt := true } ∧ { t with groups := s.groups } = s := by
  have ex : exec (.groupMove g) s = .next (s.setGroup g { x with preempt := true }) := by
    change execGroupMove g s = _
    simp [execGroupMove, hg, hj, hc, hk, hb, hr]
  exact .of_eq ex ⟨State.group_setGroup s g _, rfl⟩

theorem groupMove_suspended {sq b : Nat} (hr : x.st = .suspended)
    (hf : (((fileSquares (s.partFiles j.fn)).filter fun q => !s.fileKres (sqFile q)).findSome? fun q =>
      (s.roomOn q false (s.launchOf j)).map fun b => (q, b)) = some (sq, b)) :
    Answers (.groupMove g) s fun t => ∃ y, t.group g = some y ∧ y.square = sq ∧ y.base = b ∧ y.size = x.size ∧ y.st = .running := by
  obtain ⟨y, hy, y1, y2, y3⟩ : ∃ y, y = ({ x with square := sq, base := b, start := s.fileCyc (sqFile sq), ran := x.ran +
    (s.fileCyc (sqFile x.square) - x.start) } : Group) ∧ y.square = sq ∧ y.base = b ∧ y.size = x.size := ⟨_, rfl, rfl, rfl, rfl⟩
  have ex : exec (.groupMove g) s = .next ((((s.copyRegion x sq b).setGroup g y).resumeGroup g).settleSquare x.square) := by
    change execGroupMove g s = _
    simp [execGroupMove, hg, hj, hc, hk, hb, hr, hf, hy]
  obtain ⟨r, e⟩ := State.settleSquare_only (((s.copyRegion x sq b).setGroup g y).resumeGroup g) x.square
  refine .of_eq ex ⟨((s.copyRegion x sq b).setGroup g y).resumed y, ?_, y1, y2, y3, rfl⟩
  rw [e]
  exact State.resumeGroup_group (State.group_setGroup _ g y)

end

/-- Settles O23: each command's state is put together from the change it makes to the group table, the jobs and the square's state;
`markRunning`, `settleSquare` and `preemptLow` change nothing else. -/
theorem groupsArePlacedPreemptedAndResumed : Obligations.GroupsArePlacedPreemptedAndResumed := by
  unfold Obligations.GroupsArePlacedPreemptedAndResumed
  refine ⟨fun s id j sq b hj hst hnop hstop hexc hwant hdue hrun hu hd ht hp hq => ?_,
    fun s id j sq hj hc hw ht hd hp _ hn hf => preemption_stops hj hc hw ht hd hp hn hf,
    fun s sq _ hst hl ha hq => preemptionComplete_settles hst hl ha hq,
    fun s sq g x hs hg hh hp hr hb => ?_,
    fun s g x j hg hj hc hk hb hr => groupMove_running hg hj hc hk hb hr,
    fun s g x j sq b hg hj hc hk hb hr hf => groupMove_suspended hg hj hc hk hb hr hf⟩
  · have hw : s.wantsGroup j = true := by
      simpa [State.wantsGroup, hnop, hstop, hexc, hdue, hrun, hst] using hwant
    exact groupPlace_places hj hst hw hu hd ht hp hq
  · obtain ⟨t, ht, h⟩ := groupResume_resumes hs hg hh hp hr hb
    exact ⟨t, ht, s.resumed x, h, rfl, rfl, rfl⟩

end Sys2Proof.Machine
end

section
/-! # Instructions of Format R and Format I write their result (O1, O2) -/

namespace Sys2Proof.Machine

/-! ## Words and operands -/

theorem leNat_lt (b : List Byte) : leNat b < 2 ^ (8 * b.length) := by
  induction b with
  | nil => exact Nat.one_pos
  | cons x t ih =>
    have hx := x.isLt
    rw [leNat, List.length_cons, Nat.mul_succ, pow_add]
    omega

/-- The word that follows an instruction has 64 bits. -/
theorem State.ctx_lit_lt {s : State} {g l : Nat} {c : Ctx} (h : s.ctx g l = some c) : c.lit < 2 ^ 64 := by
  have hw (x : Group) (pc : Nat) : s.textWord x pc < 2 ^ 64 := by
    simpa [State.textWord, State.storeRead] using leNat_lt (s.storeRead x.square (x.textAt pc) 8)
  unfold State.ctx at h
  split at h
  · cases h
  · split at h
    · cases h
    · split at h
      · cases h
        exact hw _ _
      · cases h

/-- A source has as many bits as its registers. -/
theorem Ctx.read_lt {s : State} {g l : Nat} {c : Ctx} (h : s.ctx g l = some c) {r : Reg} (hn : r.n = 1 ∨ r.n = 2) (lane : Nat) :
    c.read lane r < 2 ^ (32 * r.n) := by
  have hr (k : Nat) : (if r.u then c.ls.ureg k else c.ls.reg lane k) < 2 ^ 32 := by
    split <;> exact BitVec.isLt _
  have hl := State.ctx_lit_lt h
  have h0 := hr (r.v + 0)
  have h1 := hr (r.v + 1)
  unfold Ctx.read
  split
  · rcases hn with e | e
    · rw [if_pos e, e]
      exact Nat.mod_lt _ (Nat.two_pow_pos 32)
    · rw [if_neg (by omega), e]
      exact hl
  · rcases hn with e | e
    · rw [if_pos e, e]
      exact h0
    · rw [if_neg (by omega), e]
      dsimp only
      omega

theorem nOf_cases (b : Bool) : nOf b = 1 ∨ nOf b = 2 := by cases b <;> simp [nOf]

/-- The registers of an integer type hold its width. -/
theorem Ty.width_of_isInt {t : Ty} (h : t.isInt = true) : 32 * t.regs = t.width := by
  revert h
  cases t <;> decide

theorem Ctx.read_lt_width {s : State} {g l : Nat} {c : Ctx} (h : s.ctx g l = some c) {t : Ty} (ht : t.isInt = true) (v : Nat) (u : Bool)
    (lane : Nat) : c.read lane { v := v, u := u, n := t.regs } < 2 ^ t.width := by
  rw [← Ty.width_of_isInt ht]
  exact Ctx.read_lt h (nOf_cases t.wide) lane

/-! ## Two's complement -/

theorem ofSigned_natCast (w n : Nat) : ofSigned w (n : Int) = n % 2 ^ w := by
  unfold ofSigned
  norm_cast

theorem ofSigned_lt (w : Nat) (i : Int) : ofSigned w i < 2 ^ w := by
  have h : (0 : Int) < 2 ^ w := by positivity
  have h1 := Int.emod_nonneg i h.ne'
  have h2 := Int.emod_lt_of_pos i h
  unfold ofSigned
  have e : ((2 ^ w : Nat) : Int) = 2 ^ w := by push_cast; rfl
  omega

@[simp] theorem ofSigned_mod (w : Nat) (i : Int) : ofSigned w i % 2 ^ w = ofSigned w i := Nat.mod_eq_of_lt (ofSigned_lt w i)

/-- The two readings of a word differ by a multiple of 2^w. -/
theorem ofSigned_toSigned (w n : Nat) : ofSigned w (toSigned w n) = n % 2 ^ w := by
  have e : ((n % 2 ^ w : Nat) : Int) % 2 ^ w = ((n % 2 ^ w : Nat) : Int) := by push_cast; exact Int.emod_emod_of_dvd _ (dvd_refl _)
  unfold toSigned ofSigned
  dsimp only
  split
  · rw [e]; rfl
  · rw [Int.sub_emod_right, e]; rfl

/-- Reading a code as an integer and writing it back gives the code. -/
theorem ofSigned_toInt (t : Ty) (a : Nat) : ofSigned t.width (t.toInt a) = a % 2 ^ t.width := by
  unfold Ty.toInt
  split
  · exact ofSigned_toSigned _ _
  · rw [ofSigned_natCast, Nat.mod_mod]

/-! ## Operations of Format R -/

/-- What a Format R operation writes in a lane. -/
def ROp.value (o : ROp) (s : State) (c : Ctx) (t : Ty) (lane : Nat) : Nat :=
  o.f { c := c, lane := lane, ty := t, rm := fRM c.w, pd := c.ls.pred lane (fPD c.w), lit := fC c.w,
        old := if (o.dst c.w t).none? then 0 else c.read lane (o.dst c.w t), r := (Config.free (s.free + lane) 16).toNat }
    (if o.useA then c.read lane { v := fA c.w, u := fAU c.w, n := nOf (o.wideA t) } else 0)
    (if o.useB then c.read lane { v := fB c.w, u := fBU c.w, n := nOf (o.wideB t) } else 0)
    (if o.useC then c.read lane { v := fC c.w, u := fCU c.w, n := nOf (o.wideC t) } else 0)

/-- An instruction that runs a Format R operation writes what the operation's value is in the registers of D. -/
theorem regInsn_of_runR {i : Nat → Nat → Instr} {op rmMax : Nat} {ty : Ty → Bool} {srcs : Ctx → Ty → List Reg} {n : Ty → Nat}
    {pre : State → Ctx → Ty → Prop} {f : State → Ctx → Ty → Nat → Nat} (o : State → ROp) (hl : listedOp op = true)
    (hop : ∀ s, (o s).op = op)
    (hi : ∀ s g l c t, AtInsn s g l op c → pre s c t → exec (i g l) s = .next (s.runR g l (o s)))
    (hty : ∀ s t, ty t = true → (o s).tyOk t = true) (hrm : ∀ s, (o s).rmMax = rmMax)
    (hsrc : ∀ s c t, ty t = true → (o s).srcs c.w t = srcs c t) (hn : ∀ s t, ty t = true → nOf ((o s).wideD t) = n t)
    (hf : ∀ s g l c t lane, s.ctx g l = some c → ty t = true → pre s c t →
      (o s).value s c t lane % 2 ^ (32 * n t) = f s c t lane % 2 ^ (32 * n t)) :
    RegInsn i op ty rmMax srcs n pre f := by
  intro s g l c t h ht hy hr h0 hfo hp
  have ed : (o s).dst c.w t = c.rD (n t) := by rw [ROp.dst, Ctx.rD, hn s t hy]
  have es := hsrc s c t hy
  have w := runR_writes (o s) (hop s ▸ h) (hop s ▸ hl) ht (hty s t hy) (hrm s ▸ hr) h0 (by rw [es, ed]; exact hfo) (hi s g l c t h hp)
  rw [es] at w
  rw [← ed]
  exact w.congr fun lane => by
    have e := hf s g l c t lane h.ctx hy hp
    rw [← hn s t hy] at e
    exact e

/-- The same of an operation that does not depend on the state, which every state runs. -/
theorem regInsn_of_op {i : Nat → Nat → Instr} {op rmMax : Nat} {ty : Ty → Bool} {srcs : Ctx → Ty → List Reg} {n : Ty → Nat}
    {pre : State → Ctx → Ty → Prop} {f : State → Ctx → Ty → Nat → Nat} (o : ROp) (hl : listedOp op = true) (hop : o.op = op)
    (hi : ∀ s g l, exec (i g l) s = .next (s.runR g l o)) (hty : ∀ t, ty t = true → o.tyOk t = true) (hrm : o.rmMax = rmMax)
    (hsrc : ∀ c t, ty t = true → o.srcs c.w t = srcs c t) (hn : ∀ t, ty t = true → nOf (o.wideD t) = n t)
    (hf : ∀ s g l c t lane, s.ctx g l = some c → ty t = true → pre s c t →
      o.value s c t lane % 2 ^ (32 * n t) = f s c t lane % 2 ^ (32 * n t)) : RegInsn i op ty rmMax srcs n pre f :=
  regInsn_of_runR (fun _ => o) hl (fun _ => hop) (fun s g l _ _ _ _ => hi s g l) (fun _ => hty) (fun _ => hrm) (fun _ => hsrc)
    (fun _ => hn) hf

/-- An integer operation of two sources. -/
theorem int2_of_intOp {i : Nat → Nat → Instr} {op : Nat} {f f' : Ty → Nat → Nat → Nat} (hl : listedOp op = true)
    (hi : ∀ s g l, exec (i g l) s = .next (s.runR g l (intOp op true f')))
    (he : ∀ t a b, t.isInt = true → a < 2 ^ t.width → b < 2 ^ t.width → f' t a b % 2 ^ t.width = f t a b % 2 ^ t.width) : Int2 i op f :=
  regInsn_of_op (intOp op true f') hl rfl hi (fun _ h => h) rfl (fun _ _ _ => rfl) (fun _ _ => rfl) fun s g l c t lane hc ht _ => by
    rw [Ty.width_of_isInt ht]
    exact (Nat.mod_mod _ _).trans (he t _ _ ht (Ctx.read_lt_width hc ht _ _ lane) (Ctx.read_lt_width hc ht _ _ lane))

/-- An integer operation of two sources that is the stated one. -/
theorem int2_of_run {i : Nat → Nat → Instr} {op : Nat} {f : Ty → Nat → Nat → Nat} (hl : listedOp op = true)
    (hi : ∀ s g l, exec (i g l) s = .next (s.runR g l (intOp op true f))) : Int2 i op f := int2_of_intOp hl hi fun _ _ _ _ _ _ => rfl

/-- An integer operation of one source. -/
theorem int1_of_intOp {i : Nat → Nat → Instr} {op : Nat} {ok : Ty → Nat → Prop} {f : Ty → Nat → Nat} {f' : Ty → Nat → Nat → Nat}
    (hl : listedOp op = true) (hi : ∀ s g l, exec (i g l) s = .next (s.runR g l (intOp op false f')))
    (he : ∀ t a, t.isInt = true → ok t a → f' t a 0 % 2 ^ t.width = f t a % 2 ^ t.width) : Int1 i op ok f :=
  regInsn_of_op (intOp op false f') hl rfl hi (fun _ h => h) rfl (fun _ _ _ => rfl) (fun _ _ => rfl) fun s g l c t lane _ ht hok => by
    rw [Ty.width_of_isInt ht]
    exact (Nat.mod_mod _ _).trans (he t _ ht (hok lane))

/-- An integer operation of three sources. -/
theorem int3_of_op {i : Nat → Nat → Instr} {op : Nat} {f' : LaneEnv → Nat → Nat → Nat → Nat} {f : State → Ctx → Ty → Nat → Nat}
    (hl : listedOp op = true)
    (hi : ∀ s g l, exec (i g l) s = .next (s.runR g l { op := op, useB := true, useC := true, tyOk := Ty.isInt, f := f' }))
    (he : ∀ s c t lane, t.isInt = true → ({ op := op, useB := true, useC := true, tyOk := Ty.isInt, f := f' } : ROp).value s c t lane
      % 2 ^ t.width = f s c t lane % 2 ^ t.width) :
    RegInsn i op Ty.isInt 3 (fun c t => [c.rA t.regs, c.rB t.regs, c.rC t.regs]) Ty.regs (fun _ _ _ => True) f :=
  regInsn_of_op _ hl rfl hi (fun _ h => h) rfl (fun _ _ _ => rfl) (fun _ _ => rfl) fun s g l c t lane _ ht _ => by
    rw [Ty.width_of_isInt ht]
    exact he s c t lane ht

/-- An operation of Format I, whose result has 32 bits. -/
theorem immInsn_of_runI {i : Nat → Nat → Instr} {op : Nat} {f f' : Nat → Nat → Nat} (hl : listedOp op = true)
    (hi : ∀ s g l, exec (i g l) s = .next (s.runI g l op true f')) (he : ∀ a b, f' a b % 2 ^ 32 = f a b % 2 ^ 32) : ImmInsn i op f :=
  fun s g l _ h hf => (runI_writes true f' h hl hf (hi s g l)).congr fun _ => he _ _

/-! ## Integer arithmetic -/

/-- A result inside the type's range is written as it is. -/
theorem inRange_of_mem {t : Ty} {v : Int} (h1 : t.intRange.1 ≤ v) (h2 : v ≤ t.intRange.2) (k a : Nat) : inRange t k a v = ofSigned t.width v :=
  if_pos ⟨h1, h2⟩

theorem Ty.intRange_fst_nonpos {t : Ty} (h : t.isInt = true) : t.intRange.1 ≤ 0 := by cases t <;> simp [Ty.intRange] at h ⊢

/-- IABS: the magnitude, where it lies in the type. -/
theorem abs_inRange {t : Ty} (ht : t.isInt = true) {a : Nat} (h : ((t.toInt a).natAbs : Int) ≤ t.intRange.2) :
    inRange t 0 a (if t.toInt a < 0 then -t.toInt a else t.toInt a) = (t.toInt a).natAbs % 2 ^ t.width := by
  have e : (if t.toInt a < 0 then -t.toInt a else t.toInt a) = ((t.toInt a).natAbs : Int) := by split <;> omega
  have h0 := Ty.intRange_fst_nonpos ht
  rw [e, inRange_of_mem (by omega) h, ofSigned_natCast]

/-- The smaller of two codes, as the code of the smaller integer. -/
theorem ofSigned_min {t : Ty} {a b : Nat} (ha : a < 2 ^ t.width) (hb : b < 2 ^ t.width) :
    ofSigned t.width (min (t.toInt a) (t.toInt b)) = if t.toInt a ≤ t.toInt b then a else b := by
  rw [min_def]
  split <;> rw [ofSigned_toInt, Nat.mod_eq_of_lt ‹_›]

theorem ofSigned_max {t : Ty} {a b : Nat} (ha : a < 2 ^ t.width) (hb : b < 2 ^ t.width) :
    ofSigned t.width (max (t.toInt a) (t.toInt b)) = if t.toInt a ≤ t.toInt b then b else a := by
  rw [max_def]
  split <;> rw [ofSigned_toInt, Nat.mod_eq_of_lt ‹_›]

/-- Settles O1: each instruction runs its operation of Format R or I, whose value agrees with the stated one modulo the type's width. -/
theorem integerArithmeticWritesItsResult : Obligations.IntegerArithmeticWritesItsResult := by
  unfold Obligations.IntegerArithmeticWritesItsResult
  refine ⟨?iadd, ?isub, ?imul, ?imulh, ?imad, ?idiv, ?irem, ?imin, ?imax, ?iabs, ?ineg, ?iaddi⟩
  case iadd | imul | imulh | idiv | irem => exact int2_of_run rfl fun _ _ _ => rfl
  case isub =>
    refine int2_of_intOp rfl (fun _ _ _ => rfl) fun t a b _ _ hb => ?_
    rw [Nat.mod_eq_of_lt hb, Nat.add_sub_assoc hb.le]
  case imad => exact int3_of_op rfl (fun _ _ _ => rfl) fun _ _ _ _ _ => Nat.mod_mod _ _
  case imin => exact int2_of_intOp rfl (fun _ _ _ => rfl) fun t a b _ ha hb => by rw [ofSigned_min ha hb]
  case imax => exact int2_of_intOp rfl (fun _ _ _ => rfl) fun t a b _ ha hb => by rw [ofSigned_max ha hb]
  case iabs => exact int1_of_intOp rfl (fun _ _ _ => rfl) fun t a ht h => by rw [abs_inRange ht h, Nat.mod_mod]
  case ineg => exact int1_of_intOp rfl (fun _ _ _ => rfl) fun t a _ h => by rw [inRange_of_mem h.1 h.2]
  case iaddi => exact immInsn_of_runI rfl (fun _ _ _ => rfl) fun _ _ => Nat.mod_mod _ _

/-! ## Logic, shifts and bit fields -/

/-- Settles O2: the operations are the stated ones; BFE tests the type's sign as a Boolean. -/
theorem logicAndShiftsWriteTheirResult : Obligations.LogicAndShiftsWriteTheirResult := by
  unfold Obligations.LogicAndShiftsWriteTheirResult
  refine ⟨?and, ?or, ?xor, ?not, ?andi, ?ori, ?xori, ?shl, ?shr, ?sar, ?shli, ?shri, ?sari, ?popc, ?clz, ?brev, ?bfe, ?bfi⟩
  case and | or | xor | shl | shr | sar => exact int2_of_run rfl fun _ _ _ => rfl
  case not | popc | clz | brev => exact int1_of_intOp rfl (fun _ _ _ => rfl) fun _ _ _ _ => rfl
  case andi | ori | xori | shri | sari => exact immInsn_of_runI rfl (fun _ _ _ => rfl) fun _ _ => rfl
  case shli => exact immInsn_of_runI rfl (fun _ _ _ => rfl) fun _ _ => Nat.mod_mod _ _
  case bfe =>
    refine int2_of_intOp rfl (fun _ _ _ => rfl) fun t a b _ _ _ => ?_
    simp only [bfe, Bool.and_eq_true, decide_eq_true_eq]
  case bfi => exact int3_of_op rfl (fun _ _ _ => rfl) fun _ _ _ _ _ => rfl

end Sys2Proof.Machine
end

section
/-! # Moves, special registers, lane exchange and floating point (O3, O4, O6) -/

namespace Sys2Proof.Machine

/-! ## Checks of the encoding -/

theorem mixedDU_of_noMix {w : Nat} {srcs : List Reg} (h : NoMix (fDU w) srcs) : mixedDU w srcs = false := by
  rw [mixedDU, Bool.and_eq_false_iff]
  by_cases hu : fDU w = true
  · refine .inr (List.any_eq_false.mpr fun r hr => ?_)
    rcases h hu r hr with e | e <;> simp [e]
  · exact .inl (by simpa using hu)

/-- The checks of a Format R instruction without a register result pass. -/
theorem badR_ok {w : Nat} {srcs : List Reg} (hr : fRM w ≤ 3) (h0 : bits w 3 0 = 0) (ht : fTY w ≠ 15)
    (hf : ∀ r ∈ srcs, r.badField = false) (hm : NoMix (fDU w) srcs) : badR w srcs = false := by
  have e : (srcs.any fun r => r.badField) = false := List.any_eq_false.mpr fun r hs => by simp [hf r hs]
  simp [badR, Nat.not_lt.mpr hr, h0, ht, e, mixedDU_of_noMix hm]

theorem tyOf_isSome {n : Nat} (h : n < 16) (h15 : n ≠ 15) : ∃ t, tyOf n = some t :=
  ⟨_, List.getElem?_eq_getElem (show n < 15 by omega)⟩

theorem fTY_lt (w : Nat) : fTY w < 16 := bits_lt w 17 14

/-! ## Special registers -/

theorem State.sreg_isSome (s : State) (c : Ctx) (lane : Nat) {n : Nat} (h : n ≤ 0x17) : (s.sreg c lane n).isSome = true := by
  interval_cases n <;> rfl

theorem State.sreg_eq_none (s : State) (c : Ctx) (lane : Nat) {n : Nat} (h : 0x17 < n) : s.sreg c lane n = none := by
  unfold State.sreg
  dsimp only
  split
  any_goals omega
  rfl

/-- SREG of a literal that names a special register runs its operation. -/
theorem execSreg_listed {s : State} {g l : Nat} {c : Ctx} (h : AtInsn s g l 0x048 c) (hn : fA c.w ≤ 0x17) :
    exec (.sreg g l) s = .next (s.runR g l s.sregOp) := by
  change execSreg g l s = _
  have e := s.sreg_isSome c 0 hn
  simp [execSreg, h.ctx, Option.isNone_iff_eq_none, Option.isSome_iff_ne_none.mp e]

/-- SREG of another literal raises EX_REGISTER where a lane executes it. -/
theorem execSreg_unlisted {s : State} {g l : Nat} {c : Ctx} (h : AtInsn s g l 0x048 c) (ht : fTY c.w ≠ 15) (hr : fRM c.w ≤ 3)
    (h0 : bits c.w 3 0 = 0) (hd : (c.rD 1).badField = false) (hl : c.lanes ≠ []) (hn : 0x17 < fA c.w) :
    exec (.sreg g l) s = .next (s.exRegister c (fA c.w)) := by
  change execSreg g l s = _
  obtain ⟨t, e⟩ := tyOf_isSome (fTY_lt c.w) ht
  have hb : s.sregOp.bad c.w t = false := by
    have hd' : (s.sregOp.dst c.w t).badField = false := hd
    simp [ROp.bad, State.sregOp, anyTy, ROp.srcs, Nat.not_lt.mpr hr, h0] at hd' ⊢
    exact hd'
  have hm := State.meet_at h rfl fun s c => s.exRegister c (fA c.w)
  simp [execSreg, h.ctx, h.op, s.sreg_eq_none c 0 hn, hl, e, hb, hm]

/-! ## T2U -/

/-- A write of a uniform field changes the uniform registers only. -/
theorem Laneset.write_kept_uniform (ls : Laneset) (lane : Nat) (d : Reg) (v : Nat) (hu : d.u = true) :
    { ls.write lane d v with uregs := ls.uregs } = ls := by
  have h := Laneset.write_kept ls lane d v
  rw [← Laneset.write_regs ls lane d v hu] at h
  exact h

theorem t2u_writes {s : State} {g l : Nat} {c : Ctx} {lane : Nat} {rest : List Nat} (h : AtInsn s g l 0x04B c) (hr : fRM c.w ≤ 3)
    (h0 : bits c.w 3 0 = 0) (ht : fTY c.w ≠ 15) (hd : fD c.w < 64) (ho : RegsOk c [c.rA 1]) (hl : LiteralOk s c [c.rA 1])
    (hn : c.lanes = lane :: rest) :
    Answers (.t2u g l) s fun t => ∃ ls : Laneset, t.laneset g l = some (ls.goto (c.ls.pc + wordsOf [c.rA 1])) ∧
      ls.ureg (fD c.w) = c.read lane (c.rA 1) ∧ (∀ r, r < 64 → r ≠ fD c.w → ls.ureg r = c.ls.ureg r) ∧
      { ls with uregs := c.ls.uregs } = c.ls ∧ { t with groups := s.groups, files := s.files } = s := by
  obtain ⟨hf, hb⟩ := ho _ (List.mem_singleton.mpr rfl)
  let d : Reg := { v := fD c.w, u := true }
  have e : exec (.t2u g l) s = .next (s.retire c (c.ls.write lane d (c.read lane (c.rA 1))) (wordsOf [c.rA 1])) := by
    change execT2u g l s = _
    have hbad : badR c.w [d] = false := badR_ok hr h0 ht (by simp [d, Reg.badField, hd]) fun _ r hs => .inl (by simp_all [d])
    rw [execT2u, State.meet_at h rfl]
    change Host.Outcome.next (if (badR c.w [d] || (c.rA 1).badField) = true then _ else s.operands c [c.rA 1] [c.rA 1] _) = _
    rw [hbad, hf, if_neg (by decide), State.operands_ok hl (by simp [hb]), hn]
    rfl
  obtain ⟨r1, r2⟩ := State.retire_spec h.ctx (c.ls.write lane d (c.read lane (c.rA 1))) (wordsOf [c.rA 1])
  have hw := Laneset.write_ureg c.ls lane d (c.read lane (c.rA 1)) rfl (show fD c.w + 1 ≤ 64 by omega)
  refine .of_eq e ⟨_, r1, ?_, fun r hr hne => ?_, Laneset.write_kept_uniform _ _ _ _ rfl, r2⟩
  · rw [hw _ hd, if_pos (by simp [d])]
    have hv : c.read lane (c.rA 1) < 2 ^ 32 := Ctx.read_lt h.ctx (.inl rfl) lane
    simpa [d] using hv
  · rw [hw _ hr, if_neg (by simp only [d]; omega)]

/-- Settles O3: each instruction runs its operation of Format R; MOVI one of Format I, T2U one write. -/
theorem movesAndSpecialRegistersWriteTheirValue : Obligations.MovesAndSpecialRegistersWriteTheirValue := by
  unfold Obligations.MovesAndSpecialRegistersWriteTheirValue
  refine ⟨?mov, ?movi, ?sel, ?psave, ?sreg, fun s g l c h ht hr h0 hd hl hn => execSreg_unlisted h ht hr h0 hd hl hn, ?time, ?clk,
    fun s g l c lane rest h hr h0 ht hd ho hl hn => t2u_writes h hr h0 ht hd ho hl hn⟩
  case mov | sel | psave =>
    exact regInsn_of_op _ rfl rfl (fun _ _ _ => rfl) (fun _ _ => rfl) rfl (fun _ _ _ => rfl) (fun _ _ => rfl) fun _ _ _ _ _ _ _ _ _ => rfl
  case movi => exact fun s g l c h hf => runI_writes (i := .movi g l) false (fun _ i => i) h rfl hf rfl
  case sreg =>
    exact regInsn_of_runR State.sregOp rfl (fun _ => rfl) (fun s g l c t h hp => execSreg_listed h hp) (fun _ _ _ => rfl) (fun _ => rfl)
      (fun _ _ _ _ => rfl) (fun _ _ _ => rfl) fun _ _ _ _ _ _ _ _ _ => rfl
  case time =>
    exact regInsn_of_runR (fun s => _) rfl (fun _ => rfl) (fun s g l c t _ _ => rfl) (fun _ _ _ => rfl) (fun _ => rfl)
      (fun _ _ _ _ => rfl) (fun _ _ _ => rfl) fun _ _ _ _ _ _ _ _ _ => rfl
  case clk =>
    exact regInsn_of_runR (fun s => _) rfl (fun _ => rfl) (fun s g l c t _ _ => rfl) (fun _ _ _ => rfl) (fun _ => rfl)
      (fun _ _ _ _ => rfl) (fun _ _ _ => rfl) fun _ _ _ _ _ _ _ _ _ => rfl

/-! ## Lane exchange -/

/-- REDUX of a literal other than 3 runs its operation. -/
theorem execRedux_literal {s : State} {g l : Nat} {c : Ctx} (h : AtInsn s g l 0x045 c) (hn : fC c.w % 4 ≠ 3) :
    exec (.redux g l) s = .next (s.runR g l {
      op := 0x045, tyOk := Ty.isInt
      f := fun e _ _ _ => inRange e.ty 2 (redux (e.lit % 4) e.allA).natAbs (redux (e.lit % 4) e.allA) }) := by
  change execRedux g l s = _
  simp [execRedux, h.ctx, hn]

/-- Settles O4: the operations read another lane's A, or the executing lanes'; a REDUX in range is written as it is. -/
theorem laneExchangeReadsOtherLanes : Obligations.LaneExchangeReadsOtherLanes := by
  unfold Obligations.LaneExchangeReadsOtherLanes
  refine ⟨?shfl, ?shflx, ?ballot, ?redux⟩
  case shfl | shflx | ballot =>
    exact regInsn_of_op _ rfl rfl (fun _ _ _ => rfl) (fun _ _ => rfl) rfl (fun _ _ _ => rfl) (fun _ _ => rfl) fun _ _ _ _ _ _ _ _ _ => rfl
  case redux =>
    refine regInsn_of_runR (fun _ => _) rfl (fun _ => rfl) (fun s g l c t h hp => execRedux_literal h hp.2.1) (fun _ _ h => h) (fun _ => rfl)
      (fun _ _ _ _ => rfl) (fun _ _ _ => rfl) fun s g l c t lane _ _ ⟨_, _, h1, h2⟩ => ?_
    exact congrArg (· % _) (inRange_of_mem h1 h2 _ _)

/-! ## Floating point -/

theorem Ty.wide_of_fpTy {t : Ty} (h : fpTy t = true) : t.wide = false := by cases t <;> simp [fpTy] at h ⊢ <;> rfl

theorem Ty.eq_of_fp32Ty {t : Ty} (h : fp32Ty t = true) : t = .fp32 := by simpa [fp32Ty] using h

/-- A packed operation of two 32-bit operands. -/
theorem packed_eq (t : Ty) (f : Nat → Nat → Nat → Nat) {a b : Nat} (ha : a < 2 ^ 32) (hb : b < 2 ^ 32) :
    packed t f a b 0 = if t = .fp32 then f a b 0
      else f (a % 2 ^ 16) (b % 2 ^ 16) 0 + 2 ^ 16 * f (a / 2 ^ 16) (b / 2 ^ 16) 0 := by
  have e {x : Nat} (h : x < 2 ^ 32) : x / 65536 % 65536 = x / 2 ^ 16 := by omega
  unfold packed
  rw [e ha, e hb]
  rfl

/-- A floating operation of two sources. -/
theorem fp2_of_fpOp {i : Nat → Nat → Instr} {op : Nat} {f : Nat → FVal → FVal → FVal} (hl : listedOp op = true)
    (hi : ∀ s g l, exec (i g l) s = .next (s.runR g l (fpOp op true false fun rm a b _ => f rm a b))) : Fp2 i op f := by
  refine regInsn_of_op _ hl rfl hi (fun _ h => h) rfl (fun c t ht => ?_) (fun t ht => ?_) fun s g l c t lane hc ht _ => ?_
  · simp [fpOp, ROp.srcs, Ty.wide_of_fpTy ht, nOf, Ctx.rA, Ctx.rB]
  · simp [fpOp, Ty.wide_of_fpTy ht, nOf]
  · have ra := Ctx.read_lt hc (r := c.rA 1) (.inl rfl) lane
    have rb := Ctx.read_lt hc (r := c.rB 1) (.inl rfl) lane
    have e : (fpOp op true false fun rm a b _ => f rm a b).value s c t lane =
        packed t (fun x y _ => t.arith.encode (fRM c.w) 0 (f (fRM c.w) (t.arith.decode x) (t.arith.decode y)))
          (c.read lane (c.rA 1)) (c.read lane (c.rB 1)) 0 := by
      simp [ROp.value, fpOp, Ty.wide_of_fpTy ht, nOf, Ctx.rA, Ctx.rB]
    rw [e, packed_eq _ _ ra rb]
    dsimp only
    split
    · next h => rw [h]; rfl
    · rfl

/-- An FP32 operation of one source. -/
theorem fp1_of_fp32Op {i : Nat → Nat → Instr} {op : Nat} {f : Nat → Nat → Nat} (hl : listedOp op = true)
    (hi : ∀ s g l, exec (i g l) s = .next (s.runR g l (fp32Op op false fun rm a _ => f rm a))) : Fp1 i op f :=
  regInsn_of_op _ hl rfl hi (fun _ h => h) rfl (fun c t ht => by cases Ty.eq_of_fp32Ty ht; rfl) (fun t ht => by cases Ty.eq_of_fp32Ty ht; rfl)
    fun s g l c t lane _ ht _ => by cases Ty.eq_of_fp32Ty ht; rfl

/-- An FP32 operation of two sources. -/
theorem regInsn_of_fp32Op {i : Nat → Nat → Instr} {op : Nat} {f : Nat → Nat → Nat → Nat} (hl : listedOp op = true)
    (hi : ∀ s g l, exec (i g l) s = .next (s.runR g l (fp32Op op true f))) :
    RegInsn i op fp32Ty 3 (fun c _ => [c.rA 1, c.rB 1]) (fun _ => 1) (fun _ _ _ => True)
      fun _ c _ lane => f (fRM c.w) (c.read lane (c.rA 1)) (c.read lane (c.rB 1)) :=
  regInsn_of_op _ hl rfl hi (fun _ h => h) rfl (fun c t ht => by cases Ty.eq_of_fp32Ty ht; rfl) (fun t ht => by cases Ty.eq_of_fp32Ty ht; rfl)
    fun s g l c t lane _ ht _ => by cases Ty.eq_of_fp32Ty ht; rfl

/-- An operation on the codes: on the FP32 code, or on both halves. -/
theorem regInsn_of_bitOp {i : Nat → Nat → Instr} {op : Nat} {f : Fmt → Nat → Nat} {f' : Ty → Nat → Nat} (hl : listedOp op = true)
    (hi : ∀ s g l, exec (i g l) s = .next (s.runR g l (bitOp op f)))
    (h32 : ∀ a, a < 2 ^ 32 → f fmtFp32 a = f' .fp32 a)
    (h16 : ∀ t a, t ≠ .fp32 → t.arith.signBit = 2 ^ 15 → a < 2 ^ 32 → f t.arith (a % 2 ^ 16) + 2 ^ 16 * f t.arith (a / 2 ^ 16) = f' t a) :
    RegInsn i op fpTy 3 (fun c _ => [c.rA 1]) (fun _ => 1) (fun _ _ _ => True) fun _ c t lane => f' t (c.read lane (c.rA 1)) := by
  refine regInsn_of_op _ hl rfl hi (fun _ h => h) rfl (fun c t ht => ?_) (fun t ht => ?_) fun s g l c t lane hc ht _ => ?_
  · simp [bitOp, ROp.srcs, Ty.wide_of_fpTy ht, nOf, Ctx.rA]
  · simp [bitOp, Ty.wide_of_fpTy ht, nOf]
  · have ra := Ctx.read_lt hc (r := c.rA 1) (.inl rfl) lane
    have e : (bitOp op f).value s c t lane = packed t (fun x _ _ => f t.arith x) (c.read lane (c.rA 1)) 0 0 := by
      simp [ROp.value, bitOp, Ty.wide_of_fpTy ht, nOf, Ctx.rA]
    rw [e, packed_eq _ _ ra (by decide)]
    split
    · next h => subst h; rw [show Ty.arith .fp32 = fmtFp32 from rfl, h32 _ ra]
    · next h =>
      have hs : t.arith.signBit = 2 ^ 15 := by cases t <;> simp [fpTy] at ht h ⊢ <;> rfl
      rw [h16 t _ h hs ra]

/-- Masks apply to two fields one by one. -/
theorem land_fields (n a b c d : Nat) (hb : b < 2 ^ n) (hd : d < 2 ^ n) :
    (2 ^ n * a + b) &&& (2 ^ n * c + d) = 2 ^ n * (a &&& c) + (b &&& d) := by
  refine Nat.eq_of_testBit_eq fun j => ?_
  rw [Nat.testBit_and, Nat.testBit_two_pow_mul_add _ hb, Nat.testBit_two_pow_mul_add _ hd,
    Nat.testBit_two_pow_mul_add _ (Nat.and_lt_two_pow _ hd)]
  split <;> rw [Nat.testBit_and]

theorem xor_fields (n a b c d : Nat) (hb : b < 2 ^ n) (hd : d < 2 ^ n) :
    (2 ^ n * a + b) ^^^ (2 ^ n * c + d) = 2 ^ n * (a ^^^ c) + (b ^^^ d) := by
  refine Nat.eq_of_testBit_eq fun j => ?_
  rw [Nat.testBit_xor, Nat.testBit_two_pow_mul_add _ hb, Nat.testBit_two_pow_mul_add _ hd,
    Nat.testBit_two_pow_mul_add _ (Nat.xor_lt_two_pow hb hd)]
  split <;> rw [Nat.testBit_xor]

/-- Adding the top bit of a word changes that bit alone. -/
theorem xor_top {n x : Nat} (h : x < 2 * 2 ^ n) : x ^^^ 2 ^ n = (x + 2 ^ n) % (2 * 2 ^ n) := by
  have hm : x % 2 ^ n < 2 ^ n := Nat.mod_lt _ (Nat.two_pow_pos n)
  have e := xor_fields n (x / 2 ^ n) (x % 2 ^ n) 1 0 hm (Nat.two_pow_pos n)
  rw [Nat.div_add_mod, Nat.mul_one, Nat.add_zero, Nat.xor_zero] at e
  have hd := Nat.div_add_mod x (2 ^ n)
  have hq : x / 2 ^ n < 2 := Nat.div_lt_of_lt_mul (by omega)
  rcases Nat.le_one_iff_eq_zero_or_eq_one.mp (Nat.le_of_lt_succ hq) with hq | hq <;> rw [hq] at e hd
  · rw [Nat.zero_xor] at e
    rw [Nat.mod_eq_of_lt (by omega)]
    omega
  · rw [Nat.xor_self] at e
    rw [show x + 2 ^ n = x % 2 ^ n + 2 * 2 ^ n by omega, Nat.add_mod_right, Nat.mod_eq_of_lt (by omega)]
    omega

/-- Settles O6: each instruction runs its operation; the sign bit of a code is its top bit. -/
theorem floatingArithmeticRoundsOnce : Obligations.FloatingArithmeticRoundsOnce := by
  unfold Obligations.FloatingArithmeticRoundsOnce
  refine ⟨?fadd, ?fsub, ?fmul, ?ffma, ?fmin, ?fmax, ?fabs, ?fneg, ?faddi, ?fmuli, ?sqrt, ?fdiv, ?fscl⟩
  case fadd | fsub | fmul | fmin | fmax => exact fp2_of_fpOp rfl fun _ _ _ => rfl
  case ffma =>
    refine regInsn_of_op _ rfl rfl (fun _ _ _ => rfl) (fun _ h => h) rfl (fun c t ht => ?_) (fun t ht => ?_)
      fun s g l c t lane _ ht hp => ?_
    · simp [fpOp, ROp.srcs, Ty.wide_of_fpTy ht, nOf, Ctx.rA, Ctx.rB, Ctx.rC]
    · simp [fpOp, Ty.wide_of_fpTy ht, nOf]
    · subst hp; rfl
  case fabs =>
    refine regInsn_of_bitOp (f' := fun t a => a &&& (if t = .fp32 then 0x7FFFFFFF else 0x7FFF7FFF)) rfl (fun _ _ _ => rfl)
      (fun a _ => ?_) fun t a ht hs ha => ?_
    · exact (Nat.and_two_pow_sub_one_eq_mod a 31).symm
    · have e := land_fields 16 (a / 2 ^ 16) (a % 2 ^ 16) 0x7FFF 0x7FFF (by omega) (by omega)
      have m (x : Nat) : x &&& 0x7FFF = x % 2 ^ 15 := Nat.and_two_pow_sub_one_eq_mod x 15
      rw [Nat.div_add_mod, m, m] at e
      rw [if_neg ht, hs]
      exact (Nat.add_comm _ _).trans e.symm
  case fneg =>
    refine regInsn_of_bitOp (f' := fun t a => a ^^^ (if t = .fp32 then 0x80000000 else 0x80008000)) rfl (fun _ _ _ => rfl)
      (fun a ha => ?_) fun t a ht hs ha => ?_
    · exact (xor_top (n := 31) ha).symm
    · have e := xor_fields 16 (a / 2 ^ 16) (a % 2 ^ 16) 0x8000 0x8000 (by omega) (by omega)
      have m {x : Nat} (h : x < 2 ^ 16) : x ^^^ 0x8000 = (x + 2 ^ 15) % (2 * 2 ^ 15) := xor_top (n := 15) h
      rw [Nat.div_add_mod, m (by omega), m (by omega)] at e
      rw [if_neg ht, hs]
      exact (Nat.add_comm _ _).trans e.symm
  case faddi | fmuli => exact immInsn_of_runI rfl (fun _ _ _ => rfl) fun _ _ => rfl
  case sqrt => exact fp1_of_fp32Op rfl fun _ _ _ => rfl
  case fdiv => exact regInsn_of_fp32Op (f := fun rm a b => fmtFp32.encode rm 0 (FVal.div (fpVal a) (fpVal b))) rfl fun _ _ _ => rfl
  case fscl =>
    exact regInsn_of_fp32Op (f := fun rm a b => fmtFp32.encode rm 0 (FVal.scale ((b % 256 : Nat) - 127 : Int) (fpVal a))) rfl
      fun _ _ _ => rfl

end Sys2Proof.Machine
end

section
/-! # Instructions that write predicates (O5) -/

namespace Sys2Proof.Machine

/-! ## Comparisons and logic as the tables of R102 and R103 give them -/

theorem cmpInt_table {k : Nat} (h : k < 6) (a b : Int) : cmpInt k a b =
    [decide (a = b), decide (a ≠ b), decide (a < b), decide (a ≤ b), decide (b < a), decide (b ≤ a)].getD k false := by
  interval_cases k <;> rfl

theorem cmpFp_table {k : Nat} (h : k < 8) (a b : FVal) : cmpFp k a b =
    (let d := FVal.cmp a b
     let un := a.isNan || b.isNan
     [!un && decide (d = 0), un || decide (d ≠ 0), !un && decide (d < 0), !un && decide (d ≤ 0), !un && decide (0 < d),
      !un && decide (0 ≤ d), un, !un].getD k false) := by
  interval_cases k <;> rfl

theorem plopFn_table (k : Nat) (a b : Bool) : plopFn k a b = [a && b, a || b, a != b, a && !b].getD (k % 4) false := by
  have h : k % 4 < 4 := Nat.mod_lt _ (by decide)
  unfold plopFn
  generalize k % 4 = j at h
  interval_cases j <;> rfl

/-! ## PLOAD -/

/-- The first `n` predicates of one lane written. -/
theorem foldl_setPred_range (ls : Laneset) (i : Nat) (b : Nat → Bool) {n : Nat} (hn : n ≤ 7) (lane p : Nat) (hp : p < 8) :
    ((List.range n).foldl (fun ls k => ls.setPred i k (b k)) ls).pred lane p = if i = lane ∧ p < n then b p else ls.pred lane p := by
  induction n with
  | zero => simp
  | succ n ih =>
    rw [List.range_succ, List.foldl_append, List.foldl_cons, List.foldl_nil, Laneset.pred_setPred _ _ _ _ _ _ (by omega) hp, ih (by omega)]
    by_cases h1 : i = lane ∧ n = p
    · obtain ⟨rfl, rfl⟩ := h1
      rw [if_pos ⟨rfl, rfl, by omega⟩, if_pos ⟨rfl, by omega⟩]
    · rw [if_neg (fun h => h1 ⟨h.1, h.2.1⟩)]
      by_cases h2 : i = lane ∧ p < n
      · rw [if_pos h2, if_pos ⟨h2.1, by omega⟩]
      · rw [if_neg h2, if_neg (by omega)]

/-- Writes of predicates leave the rest of a laneset. -/
theorem foldl_setPred_kept {β : Type} (f : Laneset → β → Laneset) (hf : ∀ m b, { f m b with preds := m.preds } = m) (l : List β)
    (ls : Laneset) : { l.foldl f ls with preds := ls.preds } = ls :=
  foldl_keeps (P := fun m : Laneset => { m with preds := ls.preds } = ls)
    (fun m b h => (congrArg (fun x : Laneset => { x with preds := ls.preds }) (hf m b)).trans h) l ls rfl

/-- p0 to p6 of every executing lane, as PLOAD writes them from bits [6:0] of its source. -/
def Ctx.loadPreds (c : Ctx) (a : Reg) : Laneset :=
  c.lanes.foldl (fun ls i => (List.range 7).foldl (fun ls k => ls.setPred i k (bit (c.read i a) k)) ls) c.ls

theorem Ctx.loadPreds_pred (c : Ctx) (a : Reg) (lane p : Nat) (hp : p < 8) :
    (c.loadPreds a).pred lane p = if lane ∈ c.lanes ∧ p < 7 then bit (c.read lane a) p else c.ls.pred lane p := by
  unfold Ctx.loadPreds
  have hL := c.lanes_nodup
  generalize c.lanes = L at hL
  generalize c.ls = ls
  induction L generalizing ls with
  | nil => simp
  | cons k t ih =>
    obtain ⟨hk, ht⟩ := List.nodup_cons.mp hL
    rw [List.foldl_cons, ih ht, foldl_setPred_range _ _ _ (Nat.le_refl 7) _ _ hp]
    by_cases h : lane ∈ t
    · have hne : k ≠ lane := fun e => hk (e ▸ h)
      simp [h, hne]
    · by_cases e : k = lane
      · subst e; simp [h]
      · simp [h, e, Ne.symm e]

theorem Ctx.loadPreds_kept (c : Ctx) (a : Reg) : { c.loadPreds a with preds := c.ls.preds } = c.ls :=
  foldl_setPred_kept _ (fun m i => foldl_setPred_kept _ (fun m k => m.setPred_kept i k _) _ m) _ _

/-! ## The instructions -/

/-- Fields that R95 and R96 accept, without a destination. -/
theorem RegsOk.badField {c : Ctx} {rs : List Reg} (h : RegsOk c rs) : ∀ r ∈ rs, r.badField = false := fun r hr => (h r hr).1

theorem RegsOk.badReg {c : Ctx} {rs : List Reg} (h : RegsOk c rs) : ∀ r ∈ rs, r.badReg c.x.nreg = false := fun r hr => (h r hr).2

theorem fTY_ne_of_tyOf {w : Nat} {t : Ty} (h : tyOf (fTY w) = some t) : fTY w ≠ 15 := fun e => by rw [e] at h; cases h

theorem isetp_writes {s : State} {g l : Nat} {c : Ctx} {t : Ty} (h : AtInsn s g l 0x030 c) (ht : tyOf (fTY c.w) = some t)
    (hi : t.isInt = true) (hr : fRM c.w ≤ 3) (h0 : bits c.w 3 0 = 0) (ho : RegsOk c [c.rA t.regs, c.rB t.regs])
    (hm : NoMix (fDU c.w) [c.rA t.regs, c.rB t.regs]) (hl : LiteralOk s c [c.rA t.regs, c.rB t.regs]) (hk : fC c.w % 8 < 6) :
    WritesPred (.isetp g l) s c (wordsOf [c.rA t.regs, c.rB t.regs]) fun lane =>
      cmpInt (fC c.w % 8) (t.toInt (c.read lane (c.rA t.regs))) (t.toInt (c.read lane (c.rB t.regs))) := by
  refine putPreds_writes h.ctx _ _ ?_
  change execIsetp g l s = _
  have hb : badR c.w [c.rA t.regs, c.rB t.regs] = false := badR_ok hr h0 (fTY_ne_of_tyOf ht) ho.badField hm
  have hg : (!t.isInt || badR c.w [c.rA t.regs, c.rB t.regs] || decide (6 ≤ fC c.w % 8)) = false := by
    simp [hi, hb, hk]
  rw [execIsetp, State.meet_at h rfl, ht]
  exact congrArg _ ((if_neg (Bool.eq_false_iff.mp hg)).trans (State.operands_ok hl ho.badReg _))

theorem fsetp_writes {s : State} {g l : Nat} {c : Ctx} (h : AtInsn s g l 0x088 c) (ht : fTY c.w = 0) (hr : fRM c.w ≤ 3)
    (h0 : bits c.w 3 0 = 0) (ho : RegsOk c [c.rA 1, c.rB 1]) (hm : NoMix (fDU c.w) [c.rA 1, c.rB 1])
    (hl : LiteralOk s c [c.rA 1, c.rB 1]) :
    WritesPred (.fsetp g l) s c (wordsOf [c.rA 1, c.rB 1]) fun lane =>
      cmpFp (fC c.w % 8) (fpVal (c.read lane (c.rA 1))) (fpVal (c.read lane (c.rB 1))) := by
  refine putPreds_writes h.ctx _ _ ?_
  change execFsetp g l s = _
  have hb : badR c.w [c.rA 1, c.rB 1] = false := badR_ok hr h0 (by omega) ho.badField hm
  have hg : (decide (fTY c.w ≠ 0) || badR c.w [c.rA 1, c.rB 1]) = false := by simp [ht, hb]
  rw [execFsetp, State.meet_at h rfl]
  exact congrArg _ ((if_neg (Bool.eq_false_iff.mp hg)).trans (State.operands_ok hl ho.badReg _))

/-- An instruction of Format R that reads predicates only. -/
theorem predInsn_writes {i : Instr} {s : State} {g l op : Nat} {c : Ctx} (h : AtInsn s g l op c) (hl : listedOp op = true)
    (hr : fRM c.w ≤ 3) (h0 : bits c.w 3 0 = 0) (ht : fTY c.w ≠ 15) (f : Ctx → Nat → Bool)
    (hi : exec i s = .next (s.meet g l op fun s c => if badR c.w [] then s.exOpcode c else s.putPreds c 1 (f c))) :
    WritesPred i s c 1 (f c) := by
  have hb : badR c.w [] = false := badR_ok hr h0 ht (by simp) (by simp [NoMix])
  refine putPreds_writes h.ctx _ _ (hi.trans ?_)
  rw [State.meet_at h hl, if_neg (by simp [hb])]

theorem pload_exec {s : State} {g l : Nat} {c : Ctx} (h : AtInsn s g l 0x03A c) (hr : fRM c.w ≤ 3) (h0 : bits c.w 3 0 = 0)
    (ht : fTY c.w ≠ 15) (ho : RegsOk c [c.rA 1]) (hm : NoMix (fDU c.w) [c.rA 1]) (hl : LiteralOk s c [c.rA 1]) :
    exec (.pload g l) s = .next (s.retire c (c.loadPreds (c.rA 1)) (wordsOf [c.rA 1])) := by
  change execPload g l s = _
  have hb : badR c.w [c.rA 1] = false := badR_ok hr h0 ht ho.badField hm
  rw [execPload, State.meet_at h rfl]
  exact congrArg _ ((if_neg (Bool.eq_false_iff.mp hb)).trans (State.operands_ok hl ho.badReg _))

/-- Settles O5: each instruction writes PD in the executing lanes by the stated table; PLOAD writes p0 to p6 lane by lane. -/
theorem predicateInstructionsWriteTheirPredicate : Obligations.PredicateInstructionsWriteTheirPredicate := by
  unfold Obligations.PredicateInstructionsWriteTheirPredicate
  refine ⟨fun s g l c t h ht hi hr h0 ho hm hl hk => ?isetp, fun s g l c h ht hr h0 ho hm hl => ?fsetp, fun s g l c h hr h0 ht => ?plop,
    fun s g l c h hr h0 ht => predInsn_writes h rfl hr h0 ht (fun c _ => c.lanes.any fun k => c.ls.pred k (fA c.w)) rfl,
    fun s g l c h hr h0 ht => predInsn_writes h rfl hr h0 ht (fun c _ => c.lanes.all fun k => c.ls.pred k (fA c.w)) rfl,
    fun s g l c h hr h0 ht ho hm hl => ?pload⟩
  case isetp =>
    have w := isetp_writes h ht hi hr h0 ho hm hl hk
    simp only [cmpInt_table hk] at w
    exact w
  case fsetp =>
    have w := fsetp_writes h ht hr h0 ho hm hl
    simp only [cmpFp_table (Nat.mod_lt (fC c.w) (show 8 > 0 by decide))] at w
    exact w
  case plop =>
    have w := predInsn_writes (i := .plop g l) h rfl hr h0 ht (fun c i => plopFn (fC c.w) (c.ls.pred i (fA c.w)) (c.ls.pred i (fB c.w))) rfl
    simp only [plopFn_table] at w
    exact w
  case pload =>
    obtain ⟨r1, r2⟩ := State.retire_spec h.ctx (c.loadPreds (c.rA 1)) (wordsOf [c.rA 1])
    exact .of_eq (pload_exec h hr h0 ht ho hm hl) ⟨_, r1, c.loadPreds_pred (c.rA 1), c.loadPreds_kept (c.rA 1), r2⟩

end Sys2Proof.Machine
end

section
/-! # Control flow (O18) -/

namespace Sys2Proof.Machine

/-! ## A laneset put back -/

/-- Counting events changes the files' counters. -/
theorem State.perfCount_files (s : State) (sq ev n : Nat) : ∃ f, s.perfCount sq ev n = { s with files := f } := by
  unfold State.perfCount
  dsimp only
  split
  · exact ⟨_, rfl⟩
  · exact ⟨_, rfl⟩

theorem State.retireCount_files (s : State) (sq ev n : Nat) : ∃ f, (s.perfCount sq ev n).noteRetire sq = { s with files := f } := by
  obtain ⟨f, e⟩ := s.perfCount_files sq ev n
  exact ⟨_, by rw [e]; rfl⟩

/-- Counting an instruction and putting its laneset back changes nothing but the groups and the counters of the files. -/
theorem State.putLaneset_spec {s : State} {g l : Nat} {c : Ctx} (h : s.ctx g l = some c) (sq ev n : Nat) (ls : Laneset) :
    (((s.perfCount sq ev n).noteRetire sq).setLaneset g l ls).laneset g l = some ls ∧
      { ((s.perfCount sq ev n).noteRetire sq).setLaneset g l ls with groups := s.groups, files := s.files } = s := by
  obtain ⟨-, -, hx, -⟩ := State.ctx_spec h
  obtain ⟨f, e⟩ := s.retireCount_files sq ev n
  have hg : ({ s with files := f } : State).group g = some c.x := hx
  rw [e]
  refine ⟨State.laneset_setLaneset _ _ _ _ c.x hg, ?_⟩
  rw [State.setLaneset, hg]
  rfl

/-- Putting a laneset back changes the groups alone. -/
theorem State.setLaneset_spec {s : State} {g l : Nat} {c : Ctx} (h : s.ctx g l = some c) (ls : Laneset) :
    (s.setLaneset g l ls).laneset g l = some ls ∧ { s.setLaneset g l ls with groups := s.groups } = s := by
  obtain ⟨-, -, hx, -⟩ := State.ctx_spec h
  refine ⟨State.laneset_setLaneset _ _ _ _ c.x hx, ?_⟩
  rw [State.setLaneset, hx]
  rfl

/-- The laneset goes on with `ls` at `pc`, and nothing else changes but the counters of the files. -/
def Goes (i : Instr) (s : State) (g l : Nat) (ls : Laneset) (pc : Nat) : Prop :=
  Answers i s fun t => t.laneset g l = some (ls.goto pc) ∧ { t with groups := s.groups, files := s.files } = s

theorem goes_of_jump {i : Instr} {s : State} {g l : Nat} {c : Ctx} (h : s.ctx g l = some c) {ls : Laneset} {pc : Nat}
    (hi : exec i s = .next (s.jump c ls pc)) : Goes i s g l ls pc := by
  obtain ⟨rfl, rfl, -⟩ := State.ctx_spec h
  exact .of_eq hi (State.putLaneset_spec h _ _ _ _)

/-! ## Branches, calls and returns -/

section
variable {s : State} {g l : Nat} {c : Ctx}

/-- Every active lane executes the instruction. -/
abbrev Ctx.uniform (c : Ctx) : Prop := c.lanes.length = c.ls.active.length ∧ c.lanes ≠ []

theorem bra_falls (h : AtInsn s g l 0x240 c) (hn : c.lanes = []) : exec (.bra g l) s = .next (s.retire c c.ls 1) := by
  change execBra g l s = _
  rw [execBra, State.meet_at h rfl]
  simp [hn]

theorem bra_jumps (h : AtInsn s g l 0x240 c) (hu : c.uniform) :
    exec (.bra g l) s = .next (s.jump c c.ls (pcPlus c.ls.pc (fTDISP c.w))) := by
  change execBra g l s = _
  rw [execBra, State.meet_at h rfl]
  simp [hu.1, hu.2]

/-- The laneset of a divergent branch: the other lanes pend, and all join at RDISP. -/
def Ctx.diverged (c : Ctx) : Laneset :=
  { c.ls with
    mask := laneMask c.lanes
    stack := .pend (c.ls.pc + 1) (laneMask (c.ls.active.filter fun i => !c.guard i)) ::
      .join (pcPlus c.ls.pc (fRDISP c.w)) c.ls.mask :: c.ls.stack }

theorem bra_diverges (h : AtInsn s g l 0x240 c) (hn : c.lanes ≠ []) (hl : c.lanes.length < c.ls.active.length)
    (hs : c.ls.stack.length ≤ 30) (hr : fRDISP c.w ≠ 0) :
    exec (.bra g l) s = .next (s.jump c c.diverged (pcPlus c.ls.pc (fTDISP c.w))) := by
  change execBra g l s = _
  rw [execBra, State.meet_at h rfl]
  simp [hn, hl.ne, Nat.not_lt.mpr hs, hr, Ctx.diverged]

/-- BRX of a good word where all active lanes execute it: it jumps where they agree on A, and raises EX_DIVERGE where they do not. -/
theorem brx_exec (h : AtInsn s g l 0x241 c) (hb : badR c.w [c.rA 1] = false) (hl : LiteralOk s c [c.rA 1])
    (hr : (c.rA 1).badReg c.x.nreg = false) (hu : c.uniform) : ∃ i ∈ c.ls.active,
    exec (.brx g l) s = .next (if c.ls.active.all fun j => c.read j (c.rA 1) == c.read i (c.rA 1) then s.jump c c.ls (c.read i (c.rA 1))
      else s.exDiverge c) := by
  obtain ⟨hu, hn⟩ := hu
  cases hc : c.lanes with
  | nil => exact absurd hc hn
  | cons i rest =>
    refine ⟨i, (List.mem_filter.mp (show i ∈ c.lanes by simp [hc])).1, ?_⟩
    change execBrx g l s = _
    rw [execBrx, State.meet_at h rfl]
    refine congrArg _ ((if_neg (Bool.eq_false_iff.mp hb)).trans ((State.operands_ok hl (by simpa [Ctx.rA] using hr) _).trans ?_))
    simp only [hc]
    rw [hc] at hu
    by_cases ha : (c.ls.active.all fun j => c.read j (c.rA 1) == c.read i (c.rA 1)) = true
    · rw [if_pos ha]
      exact if_neg (by simpa [hu, Ctx.rA] using ha)
    · rw [if_neg ha]
      exact if_pos (by simpa [hu, Ctx.rA] using ha)

theorem call_jumps (h : AtInsn s g l 0x242 c) (hu : c.uniform) (hs : c.ls.stack.length ≤ 31) :
    exec (.callB g l) s =
      .next (s.jump c { c.ls with stack := .ret (c.ls.pc + 1) :: c.ls.stack } (pcPlus c.ls.pc (fTDISP c.w))) := by
  change execCallB g l s = _
  rw [execCallB, State.meet_at h rfl]
  simp [hu.1, hu.2, Nat.not_lt.mpr hs]

theorem ret_jumps {p : Nat} {rest : List StackEntry} (h : AtInsn s g l 0x243 c) (hb : badR c.w [] = false) (hu : c.uniform)
    (hs : c.ls.stack = .ret p :: rest) : exec (.retB g l) s = .next (s.jump c { c.ls with stack := rest } p) := by
  change execRetB g l s = _
  rw [execRetB, State.meet_at h rfl]
  simp [hb, hu.1, hu.2, hs]

theorem exit_goes (h : AtInsn s g l 0x244 c) (hb : badR c.w [] = false)
    (he : (c.ls.exited ||| laneMask c.lanes) ≠ 0xFFFFFFFF#32) :
    exec (.exitL g l) s = .next (s.retire c
      { c.ls with exited := c.ls.exited ||| laneMask c.lanes, mask := c.ls.mask &&& ~~~laneMask c.lanes } 1) := by
  change execExitL g l s = _
  rw [execExitL, State.meet_at h rfl]
  simp [hb, Laneset.ended, he]

/-! ## Waits for engine work -/

theorem State.waitWork_goes {a mv : Nat} {mx : Bool}
    (hw : (s.square c.x.square).waitsFor c.g (c.ls.waits.getD (s.square c.x.square).issues) a mx mv = false) :
    s.waitWork c a mx mv = s.retire c { c.ls with waits := none } 1 := by
  simp [State.waitWork, hw]

theorem State.waitWork_waits {a mv : Nat} {mx : Bool}
    (hw : (s.square c.x.square).waitsFor c.g (c.ls.waits.getD (s.square c.x.square).issues) a mx mv = true) :
    s.waitWork c a mx mv = s.setLaneset c.g c.l { c.ls with waits := some (c.ls.waits.getD (s.square c.x.square).issues) } := by
  simp [State.waitWork, hw]

/-- A low bit of IMM is the instruction's. -/
theorem bit_fIMM {i : Nat} (h : i < 32) (w : Nat) : bit (fIMM w) i = bit w i := by
  rw [fIMM, bits, pow_zero, Nat.div_one]
  exact bit_mod_two_pow h w

theorem fence_exec (h : AtInsn s g l 0x201 c) (hn : c.lanes ≠ []) (h8 : fIMM c.w < 8) (h3 : fIMM c.w % 4 ≠ 3) :
    exec (.fence g l) s = .next (if bit c.w 2 then s.waitWork c 0xFF true 3 else s.retire c c.ls 1) := by
  change execFence g l s = _
  rw [execFence, State.meetU_at h rfl (by simp [Nat.div_eq_of_lt h8, h3]) hn, bit_fIMM (by decide)]

theorem trap_exec (h : AtInsn s g l 0x245 c) (hn : c.lanes ≠ []) (hi : fIMM c.w < 2 ^ 16) :
    exec (.trap g l) s = .next (s.except c 0x0D .internalError c.lanes 0 (fIMM c.w)) := by
  change execTrap g l s = _
  rw [execTrap, State.meetU_at h rfl (by simpa using hi) hn]

end

/-- Settles O18: each instruction is one jump of its laneset, or the exception it raises. -/
theorem controlFlowMovesTheLaneset : Obligations.ControlFlowMovesTheLaneset := by
  unfold Obligations.ControlFlowMovesTheLaneset
  intro s g l c goes good target all
  have hbad (hg : good) : badR c.w [] = false := badR_ok hg.1 hg.2.1 hg.2.2 (by simp) (by simp [NoMix])
  have hbrx (hg : good) (ht : target) : badR c.w [c.rA 1] = false ∧ (c.rA 1).badReg c.x.nreg = false :=
    ⟨badR_ok hg.1 hg.2.1 hg.2.2 ht.1.badField ht.2.1, ht.1.badReg _ (by simp)⟩
  refine ⟨fun h hg => ?nop, fun h hn => goes_of_jump h.ctx (bra_falls h hn), fun h hu => goes_of_jump h.ctx (bra_jumps h hu),
    fun h hn hl hs hr => goes_of_jump h.ctx (bra_diverges h hn hl hs hr), fun v h hg ht hu hv => ?brx,
    fun h hg ht hu hd => ?brxDiverges, fun h hu hs => goes_of_jump h.ctx (call_jumps h hu hs),
    fun p rest h hg hu hs => goes_of_jump h.ctx (ret_jumps h (hbad hg) hu hs),
    fun h hg he => goes_of_jump h.ctx (exit_goes h (hbad hg) he),
    fun h hn h8 h3 => ⟨fun hb => goes_of_jump h.ctx ?fence, fun hb hw => goes_of_jump h.ctx ?fenceAll⟩, fun h hn hi => trap_exec h hn hi⟩
  case nop =>
    refine goes_of_jump h.ctx (?_ : execNop g l s = .next (s.retire c c.ls 1))
    rw [execNop, State.meet_at h rfl, if_neg (by simp [hbad hg])]
  case brx =>
    obtain ⟨i, hi, e⟩ := brx_exec h (hbrx hg ht).1 ht.2.2 (hbrx hg ht).2 hu
    rw [if_pos (by simpa [hv i hi] using hv), hv i hi] at e
    exact goes_of_jump h.ctx e
  case brxDiverges =>
    obtain ⟨i, hi, e⟩ := brx_exec h (hbrx hg ht).1 ht.2.2 (hbrx hg ht).2 hu
    obtain ⟨j, hj, k, hk, hne⟩ := hd
    rw [e, if_neg]
    intro ha
    simp only [List.all_eq_true, beq_iff_eq] at ha
    exact hne ((ha j hj).trans (ha k hk).symm)
  case fence => rw [fence_exec h hn h8 h3, hb]; rfl
  case fenceAll =>
    obtain ⟨rfl, -⟩ := State.ctx_spec h.ctx
    rw [fence_exec h hn h8 h3, hb, if_pos rfl, State.waitWork_goes hw]
    rfl

end Sys2Proof.Machine
end

section
/-! # Tickets, waits, barriers and boundaries (O16, O19) -/

namespace Sys2Proof.Machine

/-! ## Movers' tickets -/

/-- A mover put back with the sequence number it had changes none. -/
theorem Square.setMover_seq {x : Square} {mv : Nat} {m : Mover} (h : m.seq = (x.mover mv).seq) (k : Nat) :
    ((x.setMover mv m).mover k).seq = (x.mover k).seq := by
  unfold Square.setMover Square.mover at *
  by_cases hm : mv = 0 <;> by_cases hk : k = 0 <;> simp_all

theorem Square.mover_setMover (x : Square) (mv : Nat) (m : Mover) : (x.setMover mv m).mover mv = m := by
  unfold Square.setMover Square.mover
  by_cases hm : mv = 0 <;> simp [hm]

/-- Feeding a mover leaves the lease and the movers' sequence numbers. -/
theorem Square.feed_kept (mv fuel : Nat) (x : Square) :
    (x.feed mv fuel).lease = x.lease ∧ ∀ k, ((x.feed mv fuel).mover k).seq = (x.mover k).seq := by
  induction fuel generalizing x with
  | zero => exact ⟨rfl, fun _ => rfl⟩
  | succ fuel ih =>
    unfold Square.feed
    split
    · exact ⟨rfl, fun _ => rfl⟩
    · split
      · exact ⟨rfl, fun _ => rfl⟩
      · next e _ =>
        split
        · extract_lets d m x'
          obtain ⟨h1, h2⟩ := ih x'
          refine ⟨h1.trans (Square.setMover_lease _ _ _), fun k => (h2 k).trans ?_⟩
          exact Square.setMover_seq (x := { x with queue := x.queue.erase e }) (by rfl) k
        · exact ⟨rfl, fun _ => rfl⟩

/-- An operation that enters the queue leaves the lease and the movers' sequence numbers. -/
theorem State.enqueue_kept (s : State) (c : Ctx) (op : EngOp) (taint : Bool) :
    ((s.enqueue c op taint).square c.x.square).lease = (s.square c.x.square).lease ∧
    ∀ k, (((s.enqueue c op taint).square c.x.square).mover k).seq = ((s.square c.x.square).mover k).seq := by
  unfold State.enqueue
  rw [State.square_setSquare]
  obtain ⟨l0, m0⟩ := Square.feed_kept 0 16 { s.square c.x.square with
    queue := (s.square c.x.square).queue ++ [engEntry s c.g c.l c op taint], issues := (s.square c.x.square).issues + 1 }
  obtain ⟨l1, m1⟩ := Square.feed_kept 1 16 (Square.feed { s.square c.x.square with
    queue := (s.square c.x.square).queue ++ [engEntry s c.g c.l c op taint], issues := (s.square c.x.square).issues + 1 } 0 16)
  exact ⟨l1.trans l0, fun k => (m1 k).trans (m0 k)⟩

theorem bits_self (n i : Nat) : bits n i i = if bit n i then 1 else 0 := by
  unfold bits bit
  rw [Nat.add_sub_cancel_left, pow_one]
  rcases Nat.mod_two_eq_zero_or_one (n / 2 ^ i) with h | h <;> simp [h]

/-- A predicate set in every lane. -/
theorem Laneset.setAll_spec (ls : Laneset) {p : Nat} (hp : p < 8) (b : Bool) :
    (∀ i p', i < 32 → p' < 8 → (ls.setAll p b).pred i p' = if p' = p ∧ p' ≠ 7 then b else ls.pred i p') ∧
    { ls.setAll p b with preds := ls.preds } = ls := by
  obtain ⟨h1, h2⟩ := foldl_setPred p hp (fun _ => b) (List.range 32) List.nodup_range ls
  refine ⟨fun i p' hi hp' => (h1 i p' hp').trans ?_, h2⟩
  simp [hi]

theorem Laneset.setAll_kept (ls : Laneset) {p : Nat} (hp : p < 8) (b : Bool) :
    (ls.setAll p b).regs = ls.regs ∧ (ls.setAll p b).uregs = ls.uregs := by
  obtain ⟨-, h⟩ := ls.setAll_spec hp b
  have h1 := congrArg Laneset.regs h
  have h2 := congrArg Laneset.uregs h
  exact ⟨h1, h2⟩

/-- p7 is constant true (R39). -/
@[simp] theorem Laneset.pred_seven (ls : Laneset) (lane : Nat) : ls.pred lane 7 = true := rfl

/-- A predicate set true in every lane reads true. -/
theorem Laneset.setAll_true (ls : Laneset) {p : Nat} (hp : p < 8) {i : Nat} (hi : i < 32) : (ls.setAll p true).pred i p = true := by
  rw [(ls.setAll_spec hp true).1 i p hi hp]
  by_cases h : p = 7
  · subst h; rfl
  · simp [h]

section
variable {s : State} {g l : Nat} {c : Ctx}

theorem tmv_exec (h : AtInsn s g l 0x1F0 c) (hn : c.lanes ≠ []) (h48 : bit c.w 48 = false) (h0 : bits c.w 35 0 = 0)
    (hq : (s.square c.x.square).queue.length < 16) : ∃ s2 : State,
    exec (.tmv g l) s = .next (s2.retire c (c.ls.setUreg (bits c.w 41 36)
      (bits c.w 49 49 * 2 ^ 31 + ((s.square c.x.square).mover (bits c.w 49 49)).seq)) 1) ∧
    (∃ q, s2 = { s with squares := q }) ∧ (s2.square c.x.square).lease = (s.square c.x.square).lease ∧
    ((s2.square c.x.square).mover (bits c.w 49 49)).seq = (((s.square c.x.square).mover (bits c.w 49 49)).seq + 1) % 2 ^ 24 := by
  let mv := bits c.w 49 49
  let x := s.square c.x.square
  let m := x.mover mv
  let s1 := s.setSquare c.x.square (x.setMover mv { m with seq := (m.seq + 1) % 2 ^ 24 })
  obtain ⟨k1, k2⟩ := s1.enqueue_kept c (.tmv mv (c.ls.ureg (bits c.w 47 42)) m.seq s.now) false
  refine ⟨s1.enqueue c (.tmv mv (c.ls.ureg (bits c.w 47 42)) m.seq s.now) false, ?_, ⟨_, rfl⟩, k1.trans ?_, (k2 mv).trans ?_⟩
  · change execTmv g l s = _
    rw [execTmv, State.meetU_at h rfl (by simp [h48, h0]) hn, if_neg (by simpa [State.engFull] using hq), ← bits_self]
  · rw [State.square_setSquare, Square.setMover_lease]
  · rw [State.square_setSquare, Square.mover_setMover]

theorem twait_exec (h : AtInsn s g l 0x1F1 c) (hn : c.lanes ≠ []) (h49 : bits c.w 49 48 = 0) (h0 : bits c.w 35 0 = 0) :
    ((s.square c.x.square).ticket (c.ls.ureg (bits c.w 47 42)) = .waiting → exec (.twait g l) s = .next s) ∧
    ∀ st, (s.square c.x.square).ticket (c.ls.ureg (bits c.w 47 42)) = .done st →
      exec (.twait g l) s = .next (s.retire c (c.ls.setUreg (bits c.w 41 36) st) 1) := by
  change (_ → execTwait g l s = _) ∧ ∀ st, _ → execTwait g l s = _
  rw [execTwait, State.meetU_at h rfl (by simp [h49, h0]) hn]
  exact ⟨fun ht => by rw [ht], fun st ht => by rw [ht]⟩

theorem ttest_exec (h : AtInsn s g l 0x1F2 c) (hn : c.lanes ≠ []) (h49 : bits c.w 49 48 = 0) (h0 : bits c.w 32 0 = 0) :
    ((s.square c.x.square).ticket (c.ls.ureg (bits c.w 47 42)) = .waiting →
      exec (.ttest g l) s = .next (s.retire c (c.ls.setAll (bits c.w 35 33) false) 1)) ∧
    ∀ st, (s.square c.x.square).ticket (c.ls.ureg (bits c.w 47 42)) = .done st →
      exec (.ttest g l) s = .next (s.retire c ((c.ls.setAll (bits c.w 35 33) true).setUreg (bits c.w 41 36) st) 1) := by
  change (_ → execTtest g l s = _) ∧ ∀ st, _ → execTtest g l s = _
  rw [execTtest, State.meetU_at h rfl (by simp [h49, h0]) hn]
  exact ⟨fun ht => by rw [ht], fun st ht => by rw [ht]⟩

theorem ewait_exec (h : AtInsn s g l 0x1F8 c) (hn : c.lanes ≠ []) (h0 : bits c.w 38 0 = 0) :
    exec (.ewait g l) s = .next (s.waitWork c (bits c.w 49 42) (bit c.w 41) (bits c.w 40 39)) := by
  change execEwait g l s = _
  rw [execEwait, State.meetU_at h rfl (by simp [h0]) hn]

end

/-- Settles O16: each instruction is one update of its laneset, by what its ticket or the engine work says; a TMV's entry leaves the
lease and the sequence numbers. -/
theorem moverTicketsAndWaits : Obligations.MoverTicketsAndWaits := by
  unfold Obligations.MoverTicketsAndWaits
  intro s g l c hn x
  refine ⟨fun h h48 h0 hq => ?tmv, fun st h h49 h0 ht => ?twait, fun h h49 h0 ht => ?twaitStalls, fun st h h49 h0 ht => ?ttest,
    fun h h49 h0 ht => ?ttestWaiting, fun h h0 => ⟨fun hw => goes_of_jump h.ctx ?ewait, fun hw => ?ewaitStalls⟩⟩
  case tmv =>
    obtain ⟨s2, e, ⟨q, hs⟩, h1, h2⟩ := tmv_exec h hn h48 h0 hq
    have hc : s2.ctx g l = some c := hs ▸ h.ctx
    obtain ⟨r1, r2⟩ := State.retire_spec hc (c.ls.setUreg (bits c.w 41 36) (bits c.w 49 49 * 2 ^ 31 + (x.mover (bits c.w 49 49)).seq)) 1
    have hsq := congrArg (fun u : State => u.square c.x.square) r2
    refine .of_eq e ⟨r1, (congrArg (fun y : Square => (y.mover (bits c.w 49 49)).seq) hsq).trans h2,
      (congrArg Square.lease hsq).trans h1, ?_⟩
    subst hs
    exact congrArg (fun u : State => { u with squares := s.squares }) r2
  case twait => exact .of_eq ((twait_exec h hn h49 h0).2 st ht) (State.retire_spec h.ctx _ 1)
  case twaitStalls => exact (twait_exec h hn h49 h0).1 ht
  case ttest =>
    obtain ⟨r1, r2⟩ := State.retire_spec h.ctx ((c.ls.setAll (bits c.w 35 33) true).setUreg (bits c.w 41 36) st) 1
    obtain ⟨k1, k2⟩ := c.ls.setAll_kept (bits_lt c.w 35 33) true
    refine .of_eq ((ttest_exec h hn h49 h0).2 st ht) ⟨_, r1, fun i hi => c.ls.setAll_true (bits_lt c.w 35 33) hi, ?_, k1, r2⟩
    rw [Laneset.setUreg, k2]
    rfl
  case ttestWaiting =>
    obtain ⟨r1, r2⟩ := State.retire_spec h.ctx (c.ls.setAll (bits c.w 35 33) false) 1
    obtain ⟨k1, k2⟩ := c.ls.setAll_kept (bits_lt c.w 35 33) false
    refine .of_eq ((ttest_exec h hn h49 h0).1 ht) ⟨_, r1, fun h7 i hi => ?_, k2, k1, r2⟩
    rw [(c.ls.setAll_spec (bits_lt c.w 35 33) false).1 i _ hi (bits_lt c.w 35 33), if_pos ⟨rfl, h7⟩]
  case ewait =>
    obtain ⟨rfl, -⟩ := State.ctx_spec h.ctx
    rw [ewait_exec h hn h0, State.waitWork_goes hw]
    rfl
  case ewaitStalls =>
    obtain ⟨rfl, rfl, -⟩ := State.ctx_spec h.ctx
    exact .of_eq (by rw [ewait_exec h hn h0, State.waitWork_waits hw]) (State.setLaneset_spec h.ctx _)

/-! ## Barriers -/

/-- Reconvergence ends no lane. -/
theorem reconv_exited (fuel : Nat) (ls : Laneset) : (reconv ls fuel).exited = ls.exited := by
  induction fuel generalizing ls with
  | zero => rfl
  | succ fuel ih =>
    unfold reconv
    split
    · split
      · extract_lets m
        split
        · exact ih _
        · exact ih _
      · rfl
    · split
      · exact ih _
      · rfl
    · split
      · exact ih _
      · rfl
    · rfl

theorem Laneset.goto_exited (ls : Laneset) (pc : Nat) : (ls.goto pc).exited = ls.exited := reconv_exited 80 _

theorem mem_assocInsert_self {α : Type} (k : Nat) (v : α) (l : List (Nat × α)) : (k, v) ∈ assocInsert k v l :=
  List.mem_of_find?_eq_some ((find_assocInsert k k v l).trans (if_pos rfl))

/-- An insertion keeps every entry but the first of its key. -/
theorem mem_assocInsert_or {α : Type} (k : Nat) (v : α) {l : List (Nat × α)} {e : Nat × α} (h : e ∈ l) :
    e ∈ assocInsert k v l ∨ l.find? (fun e => e.1 == k) = some e := by
  induction l with
  | nil => cases h
  | cons x t ih =>
    obtain ⟨a, b⟩ := x
    unfold assocInsert
    split
    · exact .inl (List.mem_cons_of_mem _ h)
    · split
      · next hk =>
        rcases List.mem_cons.mp h with rfl | h
        · exact .inr (by simp [hk])
        · exact .inl (List.mem_cons_of_mem _ h)
      · next hk =>
        rcases List.mem_cons.mp h with rfl | h
        · exact .inl List.mem_cons_self
        · refine (ih h).imp (List.mem_cons_of_mem _) fun hf => ?_
          rw [List.find?_cons_of_neg (by simpa using hk), hf]

/-- The group as a context finds it, with one laneset put back. -/
def Group.putLaneset (x : Group) (l : Nat) (ls : Laneset) : Group := { x with lanesets := assocInsert l ls x.lanesets }

theorem State.ctx_find {s : State} {g l : Nat} {c : Ctx} (h : s.ctx g l = some c) :
    c.x.lanesets.find? (fun e => e.1 == l) = some (l, c.ls) := by
  obtain ⟨-, -, hx, hl⟩ := State.ctx_spec h
  rw [State.laneset, hx] at hl
  obtain ⟨e, he, hls⟩ := Option.map_eq_some_iff.mp hl
  have hk := List.find?_some he
  rw [he, ← hls]
  simp only [beq_iff_eq] at hk
  rw [← hk]

/-- A barrier that a laneset's progress does not end: what is left to arrive still is. -/
theorem barDone_putLaneset {s : State} {g l : Nat} {c : Ctx} (h : s.ctx g l = some c) {ls : Laneset} (he : ls.exited = c.ls.exited)
    {b : Barrier} (hb : barDone c.x b = false) : barDone (c.x.putLaneset l ls) b = false := by
  unfold barDone at *
  split
  · next hc =>
    rw [if_pos hc] at hb
    rw [Bool.and_eq_false_iff] at hb ⊢
    refine hb.imp_right fun hb => Bool.eq_false_iff.mpr fun ha => Bool.eq_false_iff.mp hb ?_
    simp only [List.all_eq_true] at ha ⊢
    intro e hm
    rcases mem_assocInsert_or l ls hm with hm | hf
    · exact ha e hm
    · cases hf.symm.trans (State.ctx_find h)
      have hs := ha _ (mem_assocInsert_self l ls c.x.lanesets)
      simpa only [Laneset.ended, he] using hs
  · next hc =>
    rwa [if_neg hc] at hb

/-- Where no barrier's phase is complete, none opens. -/
theorem Group.openBars_none {x : Group} (h : ∀ j, j < 4 → barDone x (assocGet {} x.barriers j) = false) : x.openBars = x := by
  have e : List.range 4 = [0, 1, 2, 3] := rfl
  simp [Group.openBars, e, h]

theorem State.retire_group {s : State} {g l : Nat} {c : Ctx} (h : s.ctx g l = some c) (ls : Laneset) (w : Nat) :
    ∃ f, s.retire c ls w = ({ s with files := f } : State).setGroup g (c.x.putLaneset l (ls.goto (c.ls.pc + w))) := by
  obtain ⟨rfl, rfl, hx, -⟩ := State.ctx_spec h
  obtain ⟨f, e⟩ := s.retireCount_files c.x.square 0x01 1
  have hg : ({ s with files := f } : State).group c.g = some c.x := hx
  refine ⟨f, ?_⟩
  rw [State.retire, e, State.setLaneset, hg]
  rfl

theorem State.laneset_of_group {s : State} {g l : Nat} {x : Group} {ls : Laneset} {b : List (Nat × Barrier)}
    (h : s.group g = some { x.putLaneset l ls with barriers := b }) : s.laneset g l = some ls := by
  simp [State.laneset, h, Group.putLaneset, find_assocInsert]

/-- A laneset that has arrived at barrier `i`, which counts `n`. -/
def Ctx.atBarrier (c : Ctx) (l i n : Nat) : Group :=
  { c.x.putLaneset l (({ c.ls with bar := some i } : Laneset).goto (c.ls.pc + 1)) with
    barriers := assocSet {} c.x.barriers i { count := n, arrived := (assocGet {} c.x.barriers i).arrived ++ [l] } }

/-- The arrival completes no phase where its own barrier lacks one and no other was complete. -/
theorem Ctx.atBarrier_openBars {s : State} {g l : Nat} {c : Ctx} (h : s.ctx g l = some c) {i n : Nat}
    (ha : (assocGet {} c.x.barriers i).arrived.length + 1 < n)
    (ho : ∀ j, j < 4 → j ≠ i → barDone c.x (assocGet {} c.x.barriers j) = false) : (c.atBarrier l i n).openBars = c.atBarrier l i n := by
  refine Group.openBars_none fun j hj => ?_
  rw [Ctx.atBarrier]
  dsimp only
  by_cases e : i = j
  · subst e
    rw [assocGet_set_same, barDone, if_neg (by simp; omega)]
    simpa using ha
  · rw [assocGet_set_other _ e]
    exact barDone_putLaneset (ls := ({ c.ls with bar := some i } : Laneset).goto (c.ls.pc + 1)) h (Laneset.goto_exited _ _)
      (ho j hj (Ne.symm e))

/-- An arrival at a barrier that others must still reach: the laneset waits, and the barrier counts it. -/
theorem bar_waits {s : State} {g l i n : Nat} {c : Ctx} (h : AtInsn s g l 0x200 c) (hn : c.lanes ≠ []) (hw : fIMM c.w < 2 ^ 10)
    (hl : n ≤ c.x.nls) (hm : c.ls.mask = 0xFFFFFFFF#32) (hi : bits (fIMM c.w) 1 0 = i) (hc : bits (fIMM c.w) 9 2 = n)
    (hb : (assocGet {} c.x.barriers i).arrived = [] ∨ (assocGet {} c.x.barriers i).count = n)
    (ha : (assocGet {} c.x.barriers i).arrived.length + 1 < n)
    (ho : ∀ j, j < 4 → j ≠ i → barDone c.x (assocGet {} c.x.barriers j) = false) :
    Answers (.bar g l) s fun t => t.group g = some (c.atBarrier l i n) ∧ { t with groups := s.groups, files := s.files } = s := by
  have h10 : bit (fIMM c.w) 10 = false := by rw [bit, Nat.div_eq_of_lt hw]; rfl
  obtain ⟨f, e⟩ := State.retire_group h.ctx { c.ls with bar := some i } 1
  let s1 := ({ s with files := f } : State).setGroup g (c.x.putLaneset l (({ c.ls with bar := some i } : Laneset).goto (c.ls.pc + 1)))
  have hg : ¬(c.x.nls < n ∨ c.ls.mask ≠ 0xFFFFFFFF#32 ∨
      ((!(assocGet {} c.x.barriers i).arrived.isEmpty) = true ∧ (assocGet {} c.x.barriers i).count ≠ n)) := by
    rintro (h1 | h1 | ⟨h1, h2⟩)
    · omega
    · exact h1 hm
    · exact hb.elim (fun h3 => by simp [h3] at h1) h2
  have ex : exec (.bar g l) s = .next ((s1.setGroup g (c.atBarrier l i n)).openBars g) := by
    change execBar g l s = _
    rw [execBar, State.meetU_at h rfl (by simp; omega) hn]
    simp only [hi, hc, h10, if_neg hg, Bool.false_eq_true, if_false, e, State.group_setGroup]
    rfl
  have eo : (s1.setGroup g (c.atBarrier l i n)).openBars g = (s1.setGroup g (c.atBarrier l i n)).setGroup g (c.atBarrier l i n) := by
    rw [State.openBars, State.group_setGroup, ← Ctx.atBarrier_openBars h.ctx ha ho]
    dsimp only
    rw [Ctx.atBarrier_openBars h.ctx ha ho, Ctx.atBarrier_openBars h.ctx ha ho]
  have k (u : State) (y : Group) : { u.setGroup g y with groups := s.groups, files := s.files } =
      { u with groups := s.groups, files := s.files } := rfl
  exact .of_eq (ex.trans (congrArg _ eo)) ⟨State.group_setGroup _ _ _, (k _ _).trans ((k _ _).trans (k _ _))⟩

/-- An arrival at a boundary that another laneset has not reached: the laneset waits there. -/
theorem bndy_waits {s : State} {g l : Nat} {c : Ctx} (h : AtInsn s g l 0x204 c) (hn : c.lanes ≠ []) (hi : fIMM c.w = 0)
    (hb : c.ls.bndy = false) (ho : ∃ e ∈ c.x.lanesets, e.1 ≠ l ∧ e.2.ended = false ∧ e.2.bndy = false) :
    Answers (.bndy g l) s fun t => t.laneset g l = some { c.ls with bndy := true } ∧
      { t with groups := s.groups, files := s.files } = s := by
  obtain ⟨rfl, rfl, hx, -⟩ := State.ctx_spec h.ctx
  obtain ⟨e, he, hne, hend, hbn⟩ := ho
  let ls : Laneset := { c.ls with bndy := true }
  let s1 := ((s.perfCount c.x.square 0x01 1).noteRetire c.x.square).setLaneset c.g c.l ls
  have hg : s1.group c.g = some (c.x.putLaneset c.l ls) := by
    obtain ⟨f, ef⟩ := s.retireCount_files c.x.square 0x01 1
    have hx' : ({ s with files := f } : State).group c.g = some c.x := hx
    simp only [s1]
    rw [ef, State.setLaneset, hx']
    exact State.group_setGroup _ _ _
  have ha : (c.x.putLaneset c.l ls).atBndy = false := by
    have hm : e ∈ (c.x.putLaneset c.l ls).lanesets :=
      (mem_assocInsert_or c.l ls he).resolve_right fun hf => hne (by simpa using List.find?_some hf)
    rw [Group.atBndy, List.all_eq_false]
    exact ⟨e, hm, by simp [hend, hbn]⟩
  have ex : exec (.bndy c.g c.l) s = .next s1 := by
    change execBndy c.g c.l s = _
    rw [execBndy, State.meetU_at h rfl (by simp [hi]) hn]
    simp only [hb, Bool.false_eq_true, if_false]
    change Host.Outcome.next (s1.crossBndy { c with ls := ls }) = _
    rw [State.crossBndy]
    simp only [hg, ha, Bool.not_false, Bool.true_or, if_true]
  exact .of_eq ex (State.putLaneset_spec h.ctx _ _ _ _)

/-- Settles O19: an arrival that completes nothing leaves the other barriers and lanesets as they are. -/
theorem barriersHoldTheLaneset : Obligations.BarriersHoldTheLaneset := by
  unfold Obligations.BarriersHoldTheLaneset
  refine ⟨fun s g l c h hn hw hl hm hb ha ho => ?_, fun s g l c h hn hi hb ho => bndy_waits h hn hi hb ho⟩
  obtain ⟨t, ex, hg, hf⟩ := bar_waits h hn hw hl hm rfl rfl hb ha ho
  exact .of_eq ex ⟨State.laneset_of_group hg, ⟨_, hg, assocGet_set_same _ _ _ _⟩, hf⟩

end Sys2Proof.Machine
end

section
/-! # Loads (O9) -/

namespace Sys2Proof.Machine

/-! ## Operands and the laneset put back -/

/-- Where a lane executes, fields that raise no register fault are good. -/
theorem Ctx.badReg_of_firstBad {c : Ctx} {rs : List Reg} (h : c.firstBad rs = none) (hn : c.lanes ≠ []) :
    ∀ r ∈ rs, r.badReg c.x.nreg = false := by
  rw [Ctx.firstBad, if_neg (by simpa using hn), firstBadReg, Option.map_eq_none_iff, List.find?_eq_none] at h
  exact fun r hr => by simpa using h r hr

/-- Operands that raise no register fault: the instruction goes on in the same state. -/
theorem State.operands_clean {s : State} {c : Ctx} {srcs regs : List Reg} (hl : LiteralOk s c srcs) (hr : c.firstBad regs = none)
    (k : State → State) : s.operands c srcs regs k = k s := by
  unfold State.operands
  rw [hr]
  cases h : Ctx.literal srcs with
  | false => simp
  | true =>
    obtain ⟨h1, h2, h3⟩ := (hl h).clean
    simp [h1, h2, h3]

/-- `writes_spec` for a field that raises no register fault; where no lane executes, nothing is written. -/
theorem writes_clean {c : Ctx} {d : Reg} {rs : List Reg} (h : c.firstBad rs = none) (hm : d ∈ rs) (val : Nat → Nat)
    (hn : d.n = 1 ∨ d.n = 2 ∨ d.n = 4) (h8 : d.v < 256) (hf : d.badField = false) :
    let ls := (c.runLanes d.u).foldl (fun ls i => ls.write i d (val i)) c.ls
    (d.none? = false → ∀ lane ∈ c.runLanes d.u, ∀ k, k < d.n → ls.at lane d k = val lane / 2 ^ (32 * k) % 2 ^ 32) ∧
    (∀ lane r, r < 256 → (d.none? = true ∨ d.u = true ∨ lane ∉ c.runLanes d.u ∨ r < d.v ∨ d.v + d.n ≤ r) →
      ls.reg lane r = c.ls.reg lane r) ∧
    (∀ r, r < 64 → (d.u = false ∨ c.lanes = [] ∨ r < d.v ∨ d.v + d.n ≤ r) → ls.ureg r = c.ls.ureg r) ∧
    { ls with regs := c.ls.regs, uregs := c.ls.uregs } = c.ls := by
  by_cases hl : c.lanes = []
  · have e : c.runLanes d.u = [] := by simp [Ctx.runLanes, hl]
    simp [e]
  · exact writes_spec c d val hn h8 hf (Ctx.badReg_of_firstBad h hl d hm)

/-- The retired group holds the laneset; nothing else changes but the files' counters. -/
theorem State.retire_at {s : State} {c : Ctx} (hx : s.group c.g = some c.x) (ls : Laneset) (w : Nat) :
    ∃ f, s.retire c ls w = ({ s with files := f } : State).setGroup c.g (c.x.putLaneset c.l (ls.goto (c.ls.pc + w))) := by
  obtain ⟨f, e⟩ := s.retireCount_files c.x.square 0x01 1
  have hg : ({ s with files := f } : State).group c.g = some c.x := hx
  refine ⟨f, ?_⟩
  rw [State.retire, e, State.setLaneset, hg]
  rfl

theorem State.retire_at_spec {s : State} {c : Ctx} (hx : s.group c.g = some c.x) (ls : Laneset) (w : Nat) :
    (s.retire c ls w).laneset c.g c.l = some (ls.goto (c.ls.pc + w)) ∧
      { s.retire c ls w with groups := s.groups, files := s.files } = s := by
  obtain ⟨f, e⟩ := State.retire_at hx ls w
  rw [e]
  refine ⟨?_, rfl⟩
  simp [State.laneset, State.group_setGroup, Group.putLaneset, find_assocInsert]

/-- An instruction that ends in a write of field `d` in a state that kept its group. -/
theorem writesRegIn_of_retire {K : State → State → Prop} {i : Instr} {s t : State} {c : Ctx} {d : Reg} {rs : List Reg} {w : Nat}
    (val : Nat → Nat) (hi : exec i s = .next (t.retire c ((c.runLanes d.u).foldl (fun ls i => ls.write i d (val i)) c.ls) w))
    (hx : t.group c.g = some c.x) (hK : ∀ u : State, { u with groups := t.groups, files := t.files } = t → K s u)
    (h : c.firstBad rs = none) (hm : d ∈ rs) (hn : d.n = 1 ∨ d.n = 2 ∨ d.n = 4) (h8 : d.v < 256) (hf : d.badField = false) :
    WritesRegIn K i s c d w val := by
  obtain ⟨k1, k2⟩ := State.retire_at_spec hx ((c.runLanes d.u).foldl (fun ls i => ls.write i d (val i)) c.ls) w
  obtain ⟨w1, w2, w3, w4⟩ := writes_clean h hm val hn h8 hf
  exact .of_eq hi ⟨_, k1, w1, w2, w3, w4, hK _ k2⟩

/-! ## Registers left alone -/

theorem RegsKept.refl (s : State) (l : List (Nat × Nat × Nat)) : RegsKept s s l := fun _ _ _ _ => rfl

theorem RegsKept.mono {s t : State} {l m : List (Nat × Nat × Nat)} (h : RegsKept s t l) (hs : l ⊆ m) : RegsKept s t m :=
  fun b p o hb => h b p o fun e he => hb e (hs he)

theorem RegsKept.trans_same {s t u : State} {l : List (Nat × Nat × Nat)} (h : RegsKept s t l) (k : RegsKept t u l) : RegsKept s u l :=
  (h.trans k).mono (by simp)

theorem RegsKept.of_regs {s t u : State} {l : List (Nat × Nat × Nat)} (h : RegsKept s t l) (e : u.regs = t.regs) : RegsKept s u l :=
  fun b p o hb => (congrArg (fun r => assocGet (regReset p o) r (regKey b p o)) e).trans (h b p o hb)

/-! ## Traces in the MMU -/

/-- The registers in which the MMU counts its walks and records a failure. -/
def mmuRegs (fn : Nat) : List (Nat × Nat × Nat) :=
  [(fn, 0x08, Fld.MMU_WALKS.off), (fn, 0x08, Fld.MMU_MISS.off), (fn, 0x08, Fld.MMU_FAULT_LO.off), (fn, 0x08, Fld.MMU_FAULT_HI_VA.off)]

/-- The MMU of a function has met accesses: its cached translations, its registers and the count of free values changed. -/
structure Traced (fn : Nat) (s t : State) : Prop where
  rest : ∃ r m n, t = { s with regs := r, mem := { s.mem with tlb := m }, free := n }
  regs : RegsKept s t (mmuRegs fn)

namespace Traced

theorem refl (fn : Nat) (s : State) : Traced fn s s := ⟨⟨s.regs, s.mem.tlb, s.free, rfl⟩, .refl s _⟩

theorem trans {fn : Nat} {s t u : State} (h : Traced fn s t) (k : Traced fn t u) : Traced fn s u := by
  obtain ⟨⟨r, m, n, rfl⟩, h2⟩ := h
  obtain ⟨⟨r', m', n', rfl⟩, k2⟩ := k
  exact ⟨⟨r', m', n', rfl⟩, h2.trans_same k2⟩

theorem setF (s : State) {fn : Nat} {f : Fld} (hf : (fn, f.page, f.off) ∈ mmuRegs fn) (v : Nat) : Traced fn s (s.setF fn f v) :=
  ⟨⟨_, s.mem.tlb, s.free, rfl⟩, (regsKept_setF s fn f v).mono (by simpa using hf)⟩

theorem bump (s : State) {fn : Nat} {f : Fld} (hf : (fn, f.page, f.off) ∈ mmuRegs fn) (v : Nat) : Traced fn s (s.bump fn f v) :=
  setF s hf _

theorem mmuFault (s : State) (fn : Nat) (req : Req) (va cause : Nat) : Traced fn s (s.mmuFault fn req va cause) := by
  unfold State.mmuFault
  extract_lets s1 s2 s3
  have h1 : Traced fn s s1 := setF s (by simp [mmuRegs, Fld.MMU_FAULT_LO]) _
  have h2 : Traced fn s1 s2 := setF s1 (by simp [mmuRegs, Fld.MMU_FAULT_HI_REQ, Fld.MMU_FAULT_HI_VA]) _
  have h3 : Traced fn s2 s3 := setF s2 (by simp [mmuRegs, Fld.MMU_FAULT_HI_CAUSE, Fld.MMU_FAULT_HI_VA]) _
  exact ((h1.trans h2).trans h3).trans (setF s3 (by simp [mmuRegs, Fld.MMU_FAULT_HI_VA]) _)

theorem mmuTouch (s : State) (fn va : Nat) : Traced fn s (s.mmuTouch fn va) := by
  unfold State.mmuTouch
  extract_lets +onlyGivenNames k
  split
  · exact refl fn s
  split
  · exact refl fn s
  split
  · exact refl fn s
  extract_lets s'
  have h : Traced fn s s' := (bump s (f := Fld.MMU_WALKS) (by simp [mmuRegs, Fld.MMU_WALKS]) 1).trans
    (bump _ (f := Fld.MMU_MISS) (by simp [mmuRegs, Fld.MMU_MISS]) 1)
  clear_value s'
  split
  · exact h.trans ⟨⟨_, _, _, rfl⟩, .of_regs (.refl _ _) rfl⟩
  · exact h.trans ⟨⟨_, _, _, rfl⟩, .of_regs (.refl _ _) rfl⟩

theorem vaTrace (s : State) (fn : Nat) (req : Req) (va n : Nat) (acc : Acc) : Traced fn s (s.vaTrace fn req va n acc) := by
  unfold State.vaTrace
  extract_lets s'
  have h : Traced fn s s' := foldl_keeps (P := Traced fn s) (fun t a ht => ht.trans (mmuTouch t fn a)) _ s (refl fn s)
  clear_value s'
  split
  · split
    · exact h
    · exact h.trans (mmuFault _ _ _ _ _)
  · exact h

variable {fn : Nat} {s t : State}

theorem ctxFn (h : Traced fn s t) (c : Ctx) : t.ctxFn c = s.ctxFn c := by
  obtain ⟨⟨r, m, n, rfl⟩, -⟩ := h
  rfl

theorem group (h : Traced fn s t) (g : Nat) : t.group g = s.group g := by
  obtain ⟨⟨r, m, n, rfl⟩, -⟩ := h
  rfl

/-- The traces of the lanes' accesses in their order. -/
theorem lanes (s : State) (c : Ctx) (as : List (Nat × Nat)) (n : Nat) (acc : Acc) :
    Traced (s.ctxFn c) s (as.foldl (fun s e => s.vaTrace (s.ctxFn c) .thread e.2 n acc) s) :=
  foldl_keeps (P := Traced (s.ctxFn c) s) (fun t _ ht => ht.trans (ht.ctxFn c ▸ vaTrace t _ _ _ _ _)) as s (refl _ s)

end Traced

/-! ## Loads -/

theorem laneFaults_none {as : List (Nat × Nat)} {n : Nat} {ok : Nat → Bool} (h : ∀ e ∈ as, e.2 % n = 0 ∧ ok e.2 = true) :
    laneFaults as n ok = [] := by
  rw [laneFaults, List.filterMap_eq_nil_iff]
  exact fun e he => by simp [(h e he).1, (h e he).2]

theorem globalFaults_none {as : List (Nat × Nat)} {n : Nat} {fail : Nat → Option VaErr}
    (h : ∀ e ∈ as, e.2 % n = 0 ∧ fail e.2 = none) : globalFaults as n fail = [] := by
  rw [globalFaults, List.filterMap_eq_nil_iff]
  exact fun e he => by simp [(h e he).1, (h e he).2]

/-- Reads of sound ranges leave the state and meet no poison. -/
theorem State.scanLanes_sound {s : State} {x : Group} {as : List (Nat × Nat)} {n : Nat}
    (h : ∀ e ∈ as, Sound s x.square (x.base + e.2) n) : s.scanLanes x as n = s ∧ s.lanesPoisoned x as n = false := by
  constructor
  · rw [State.scanLanes]
    induction as with
    | nil => rfl
    | cons e t ih =>
      rw [List.foldl_cons, State.storeScan_sound (h e List.mem_cons_self)]
      exact ih fun e he => h e (List.mem_cons_of_mem _ he)
  · rw [State.lanesPoisoned, List.any_eq_false]
    exact fun e he => by simp [(h e he).2]

/-- A global access that no lane fails and no channel delays: its traces, then what it does. -/
theorem State.global_good {s : State} {c : Ctx} {as : List (Nat × Nat)} {n : Nat} {acc : Acc} {fail : Nat → Option VaErr}
    (h : ∀ e ∈ as, e.2 % n = 0 ∧ fail e.2 = none ∧ s.inTraining (s.ctxFn c) e.2 acc = false) (k : State → State) :
    s.global c as n acc fail k = k (as.foldl (fun s e => s.vaTrace (s.ctxFn c) .thread e.2 n acc) s) := by
  have hw : (as.any fun e => (fail e.2).isSome || s.inTraining (s.ctxFn c) e.2 acc) = false := by
    rw [List.any_eq_false]
    exact fun e he => by simp [(h e he).2.1, (h e he).2.2]
  unfold State.global
  rw [globalFaults_none fun e he => ⟨(h e he).1, (h e he).2.1⟩]
  simp [State.raiseLanes, hw]

theorem regDM_n (w : Nat) : (regDM w).n = 1 ∨ (regDM w).n = 2 ∨ (regDM w).n = 4 := by
  unfold regDM szRegs
  dsimp only
  split
  · simp
  · split <;> simp

theorem badField_of_badM {w : Nat} {a d : Reg} {load : Bool} (h : badM w a d load = false) : d.badField = false := by
  simp only [badM, Bool.or_eq_false_iff] at h
  exact h.1.2

section
variable {s : State} {g l : Nat} {c : Ctx}

theorem lds_writes (h : AtInsn s g l 0x140 c) (hb : badM c.w (regAM c.w false) (regDM c.w) true = false)
    (hl : LiteralOk s c [regAM c.w false]) (hr : c.firstBad [regAM c.w false, regDM c.w] = none)
    (ha : ∀ e ∈ c.storeAddrs (c.runLanes (fDUi c.w)), e.2 % szBytes (fSZ c.w) = 0 ∧ c.x.holds e.2 (szBytes (fSZ c.w)) = true ∧
      Sound s c.x.square (c.x.base + e.2) (szBytes (fSZ c.w))) :
    WritesReg (.lds g l) s c (regDM c.w) (wordsOf [regAM c.w false]) fun lane =>
      extend c.w (leNat (s.regionRead c.x (ofSigned 32 (c.read lane (regAM c.w false) + fOFF c.w)) (szBytes (fSZ c.w)))) := by
  obtain ⟨rfl, rfl, hx, -⟩ := State.ctx_spec h.ctx
  obtain ⟨hs, hp⟩ := State.scanLanes_sound fun e he => (ha e he).2.2
  obtain ⟨f, hf⟩ := s.perfCount_files c.x.square 0x04
    (bankRetries ((c.storeAddrs (c.runLanes (fDUi c.w))).map fun e => (c.x.base + e.2) / 64))
  have hn : laneFaults (c.storeAddrs (c.runLanes (fDUi c.w))) (szBytes (fSZ c.w)) (fun x => c.x.holds x (szBytes (fSZ c.w))) = [] :=
    laneFaults_none fun e he => ⟨(ha e he).1, (ha e he).2.1⟩
  refine writesRegIn_of_retire (t := { s with files := f }) _ ?_ hx (fun u hu => ?_) hr (by simp) (regDM_n _) (fD_lt _)
    (badField_of_badM hb)
  · change execLds c.g c.l s = _
    rw [execLds, State.meet_at h rfl]
    simp only [hb, State.operands_clean hl hr, hs, hp, hn, State.raiseLanes, Bool.false_eq_true, if_false, State.countBanks, hf]
    rw [Ctx.storeAddrs, List.foldl_map]
    rfl
  · exact congrArg (fun u : State => { u with files := s.files, free := s.free }) hu

/-- What LDG writes in a lane. -/
def State.globalLoad (s : State) (c : Ctx) (lane : Nat) : Nat :=
  match s.vaBytes (s.ctxFn c) (ofSigned 64 (c.read lane (regAM c.w true) + fOFF c.w)) (szBytes (fSZ c.w)) 2 with
  | .ok b => extend c.w (leNat b)
  | .error _ => 0

theorem State.vaBytes_of_vaFail {fn va n : Nat} (h : s.vaFail fn va n = none) : ∃ b, s.vaBytes fn va n 2 = .ok b := by
  cases hb : s.vaBytes fn va n 2 with
  | ok b => exact ⟨b, rfl⟩
  | error e => simp [State.vaFail, hb] at h

/-- Where every lane's bytes can be read, LDG writes each lane's value. -/
theorem ldg_fold (ha : ∀ e ∈ c.globalAddrs (c.runLanes (fDUi c.w)), s.vaFail (s.ctxFn c) e.2 (szBytes (fSZ c.w)) = none) :
    (c.globalAddrs (c.runLanes (fDUi c.w))).foldl (fun ls e => match s.vaBytes (s.ctxFn c) e.2 (szBytes (fSZ c.w)) 2 with
      | .ok b => ls.write e.1 (regDM c.w) (extend c.w (leNat b))
      | .error _ => ls) c.ls =
    (c.runLanes (regDM c.w).u).foldl (fun ls i => ls.write i (regDM c.w) (s.globalLoad c i)) c.ls := by
  rw [Ctx.globalAddrs, List.foldl_map]
  refine List.foldl_ext _ _ _ fun ls i hi => ?_
  obtain ⟨b, hb⟩ := State.vaBytes_of_vaFail (ha _ (List.mem_map_of_mem hi))
  simp only [State.globalLoad, hb]

theorem ldg_exec (h : AtInsn s g l 0x142 c) (hb : badM c.w (regAM c.w true) (regDM c.w) true = false)
    (hl : LiteralOk s c [regAM c.w true]) (hr : c.firstBad [regAM c.w true, regDM c.w] = none)
    (ha : ∀ e ∈ c.globalAddrs (c.runLanes (fDUi c.w)), e.2 % szBytes (fSZ c.w) = 0 ∧
      s.vaFail (s.ctxFn c) e.2 (szBytes (fSZ c.w)) = none ∧ s.inTraining (s.ctxFn c) e.2 .read = false) :
    exec (.ldg g l) s = .next (((c.globalAddrs (c.runLanes (fDUi c.w))).foldl
      (fun s e => s.vaTrace (s.ctxFn c) .thread e.2 (szBytes (fSZ c.w)) .read) s).retire c
      ((c.runLanes (regDM c.w).u).foldl (fun ls i => ls.write i (regDM c.w) (s.globalLoad c i)) c.ls) (wordsOf [regAM c.w true])) := by
  change execLdg g l s = _
  rw [execLdg, State.meet_at h rfl]
  simp only [hb, State.operands_clean hl hr, Bool.false_eq_true, if_false]
  rw [State.global_good ha]
  exact congrArg (fun ls => Host.Outcome.next (State.retire _ c ls _)) (ldg_fold fun e he => (ha e he).2.1)

end

/-- Settles O9: sound and accessible addresses raise nothing, so that each lane's value is written; an LDG's traces stay in the MMU. -/
theorem loadsExtendTheBytesTheyRead : Obligations.LoadsExtendTheBytesTheyRead := by
  unfold Obligations.LoadsExtendTheBytesTheyRead
  refine ⟨fun s g l c h hb hl hr ha => lds_writes h hb hl hr ha, fun s g l c h hb hl hr ha => ?_⟩
  obtain ⟨rfl, rfl, hx, -⟩ := State.ctx_spec h.ctx
  have ht := Traced.lanes s c (c.globalAddrs (c.runLanes (fDUi c.w))) (szBytes (fSZ c.w)) .read
  refine writesRegIn_of_retire (fun lane => s.globalLoad c lane) (ldg_exec h hb hl hr ha) ((ht.group _).trans hx) (fun u hu => ?_) hr
    (by simp) (regDM_n _) (fD_lt _) (badField_of_badM hb)
  obtain ⟨⟨r, m, n, e⟩, hk⟩ := ht
  rw [e] at hu hk
  have hm := congrArg State.mem hu
  have hu' := congrArg (fun u : State => { u with files := s.files, free := s.free, regs := s.regs, mem := s.mem }) hu
  dsimp only at hm hu'
  exact ⟨hu', by rw [hm], hk.of_regs (congrArg State.regs hu :)⟩

end Sys2Proof.Machine
end

section
/-! # Stores (O10, O11) -/

namespace Sys2Proof.Machine

/-! ## A group's store -/

/-- One store of a group into its region (R119, R120). -/
def State.groupStore (s : State) (x : Group) (off n : Nat) (b : List Byte) : State := (s.taintReads x off n).regionWrite x off b

theorem State.taintReads_squares (s : State) (x : Group) (off n : Nat) : ∃ q, s.taintReads x off n = { s with squares := q } := by
  unfold State.taintReads State.taintSpan
  extract_lets
  split
  · exact ⟨_, rfl⟩
  · exact ⟨_, rfl⟩

/-- A group's store writes its bytes; beside them it touches the marks of the stores and of engine work. -/
theorem State.groupStore_spec (s : State) (x : Group) (off n : Nat) (b : List Byte) : ∃ q p e, s.groupStore x off n b =
    { s with squares := q, mem := { s.mem with
      store := cellsWrite s.mem.store (x.square * 2 ^ 20 + (x.base + off)) b, storePoison := p, storeErrs := e } } := by
  obtain ⟨q, hq⟩ := s.taintReads_squares x off n
  rw [State.groupStore, hq]
  exact ⟨q, _, _, rfl⟩

/-- A group's stores in the order of its lanes. -/
theorem State.groupStores_spec (x : Group) (n : Nat) (f : Nat → List Byte) (as : List (Nat × Nat)) (s : State) :
    ∃ q p e, as.foldl (fun s e => s.groupStore x e.2 n (f e.1)) s = { s with squares := q, mem := { s.mem with
      store := as.foldl (fun m e => cellsWrite m (x.square * 2 ^ 20 + (x.base + e.2)) (f e.1)) s.mem.store
      storePoison := p, storeErrs := e } } := by
  induction as generalizing s with
  | nil => exact ⟨s.squares, s.mem.storePoison, s.mem.storeErrs, rfl⟩
  | cons a t ih =>
    obtain ⟨q, p, e, h⟩ := s.groupStore_spec x a.2 n (f a.1)
    rw [List.foldl_cons, h]
    exact ih _

/-! ## The report of CONSUMED -/

/-- The square may have reported a group's store to its page ring: walks went on, and pages of function `fn` were counted. -/
structure Reported (fn : Nat) (s t : State) : Prop where
  rest : ∃ q r v, t = { s with squares := q, rings := r, regs := v }
  regs : RegsKept s t [(fn, 0x05, Fld.DSP_ATT_PAGES.off)]

/-- Function `fn` is that of the job of group `g`. -/
def State.ownedBy (s : State) (g fn : Nat) : Prop := ∀ x j, s.group g = some x → s.job x.job = some j → j.fn = fn

namespace Reported

theorem refl (fn : Nat) (s : State) : Reported fn s s := ⟨⟨s.squares, s.rings, s.regs, rfl⟩, .refl s _⟩

theorem trans {fn : Nat} {s t u : State} (h : Reported fn s t) (k : Reported fn t u) : Reported fn s u := by
  obtain ⟨⟨q, r, v, rfl⟩, h2⟩ := h
  obtain ⟨⟨q', r', v', rfl⟩, k2⟩ := k
  exact ⟨⟨q', r', v', rfl⟩, h2.trans_same k2⟩

theorem ownedBy {fn : Nat} {s t : State} (h : Reported fn s t) {g : Nat} (ho : s.ownedBy g fn) : t.ownedBy g fn := by
  obtain ⟨⟨q, r, v, rfl⟩, -⟩ := h
  exact ho

theorem setPageRing (fn : Nat) (s : State) (g : Nat) (r : PageRing) : Reported fn s (s.setPageRing g r) :=
  ⟨⟨s.squares, _, s.regs, rfl⟩, .of_regs (.refl s _) rfl⟩

theorem emitPages {fn g : Nat} (fuel : Nat) {s : State} (ho : s.ownedBy g fn) : Reported fn s (s.emitPages g fuel) := by
  induction fuel generalizing s with
  | zero => exact refl fn s
  | succ fuel ih =>
    unfold State.emitPages
    split
    · exact refl fn s
    · next x hx =>
      extract_lets r m
      split
      · exact refl fn s
      · next b rest _ =>
        split
        · exact refl fn s
        · extract_lets d s1 s2
          have h1 : Reported fn s s1 := ⟨⟨_, _, s.regs, rfl⟩, .of_regs (.refl s _) rfl⟩
          have h2 : Reported fn s1 s2 := by
            have ho1 := h1.ownedBy ho
            have hx1 : s1.group g = some x := hx
            clear_value s1
            simp only [s2]
            split
            · next j hj =>
              rw [ho1 x j hx1 hj]
              split
              · exact ⟨⟨s1.squares, s1.rings, _, rfl⟩, (regsKept_setF s1 fn Fld.DSP_ATT_PAGES _).mono (by simp [Fld.DSP_ATT_PAGES])⟩
              · exact refl fn s1
            · exact refl fn s1
          exact (h1.trans h2).trans (ih ((h1.trans h2).ownedBy ho))

theorem noteConsumed {fn g : Nat} {s : State} (ho : s.ownedBy g fn) (as : List (Nat × Nat)) (n : Nat) :
    Reported fn s (s.noteConsumed g as n) := by
  unfold State.noteConsumed
  split
  · exact refl fn s
  · split
    · exact refl fn s
    · split
      · unfold State.consume
        extract_lets
        split
        · exact refl fn s
        · exact (setPageRing fn s g _).trans (emitPages 8 ((setPageRing fn s g _).ownedBy ho))
      · exact refl fn s

end Reported

theorem State.noteConsumed_none {s : State} {g : Nat} (h : s.rings.find? (fun e => e.1 == g) = none) (as : List (Nat × Nat)) (n : Nat) :
    s.noteConsumed g as n = s := by
  rw [State.noteConsumed, h]

/-- An instruction of a group that stores, at its end: the laneset goes on, the store is reported, and the rest is as the lanes
left it. -/
theorem State.retire_noteConsumed {t : State} {c : Ctx} (hx : t.group c.g = some c.x) (ls : Laneset) (w : Nat)
    (as : List (Nat × Nat)) (n : Nat) :
    let u := (t.retire c ls w).noteConsumed c.g as n
    u.laneset c.g c.l = some (ls.goto (c.ls.pc + w)) ∧ u.mem = t.mem ∧ u.msix = t.msix ∧ u.jobs = t.jobs ∧ u.queues = t.queues ∧
      RegsKept t u [(t.ctxFn c, 0x05, Fld.DSP_ATT_PAGES.off)] ∧
      (t.rings.find? (fun e => e.1 == c.g) = none → u.regs = t.regs) := by
  intro u
  obtain ⟨f, e⟩ := State.retire_at hx ls w
  obtain ⟨hl, -⟩ := State.retire_at_spec hx ls w
  have ho : (t.retire c ls w).ownedBy c.g (t.ctxFn c) := by
    intro y j hy hj
    rw [e, State.group_setGroup] at hy
    obtain rfl := Option.some.inj hy
    rw [e] at hj
    rw [State.ctxFn, show t.job c.x.job = some j from hj]
    rfl
  obtain ⟨⟨q, r, v, hu⟩, hk⟩ := Reported.noteConsumed ho as n
  have hu' : u = { t.retire c ls w with squares := q, rings := r, regs := v } := hu
  refine ⟨?_, ?_, ?_, ?_, ?_, ?_, fun hr => ?_⟩
  · rw [hu']; exact hl
  · rw [hu', e]; rfl
  · rw [hu', e]; rfl
  · rw [hu', e]; rfl
  · rw [hu', e]; rfl
  · exact .trans_same (.of_regs (.refl t _) (by rw [e]; rfl)) hk
  · have hn : (t.retire c ls w).rings.find? (fun e => e.1 == c.g) = none := by rw [e]; exact hr
    rw [show u = t.retire c ls w from State.noteConsumed_none hn as n, e]
    rfl

section
variable {s : State} {g l : Nat} {c : Ctx}

/-- The lanes' stores of an STS. -/
def State.stsLanes (s : State) (c : Ctx) : State :=
  (c.storeAddrs (c.runLanes (fDUi c.w))).foldl
    (fun s e => s.groupStore c.x e.2 (szBytes (fSZ c.w)) (leBytes (szBytes (fSZ c.w)) (c.storeData e.1)))
    (s.countBanks c.x (c.storeAddrs (c.runLanes (fDUi c.w))))

theorem State.stsLanes_spec (s : State) (c : Ctx) : ∃ f q p e, s.stsLanes c =
    { s with files := f, squares := q, mem := { s.mem with
      store := (c.storeAddrs (c.runLanes (fDUi c.w))).foldl
        (fun m e => cellsWrite m (c.x.square * 2 ^ 20 + (c.x.base + e.2)) (leBytes (szBytes (fSZ c.w)) (c.storeData e.1))) s.mem.store
      storePoison := p, storeErrs := e } } := by
  obtain ⟨f, hf⟩ := s.perfCount_files c.x.square 0x04
    (bankRetries ((c.storeAddrs (c.runLanes (fDUi c.w))).map fun e => (c.x.base + e.2) / 64))
  rw [State.stsLanes, State.countBanks, hf]
  exact ⟨f, State.groupStores_spec c.x _ (fun i => leBytes (szBytes (fSZ c.w)) (c.storeData i)) _ _⟩

theorem sts_exec (h : AtInsn s g l 0x141 c) (hb : badM c.w (regAM c.w false) (regDM c.w) false = false)
    (hl : LiteralOk s c [regAM c.w false, regDM c.w]) (hr : c.firstBad [regAM c.w false, regDM c.w] = none)
    (ha : ∀ e ∈ c.storeAddrs (c.runLanes (fDUi c.w)), e.2 % szBytes (fSZ c.w) = 0 ∧ c.x.data e.2 (szBytes (fSZ c.w)) = true) :
    exec (.sts g l) s = .next (((s.stsLanes c).retire c c.ls (wordsOf [regAM c.w false, regDM c.w])).noteConsumed g
      (c.storeAddrs (c.runLanes (fDUi c.w))) (szBytes (fSZ c.w))) := by
  change execSts g l s = _
  rw [execSts, State.meet_at h rfl]
  simp only [hb, State.operands_clean hl hr, Bool.false_eq_true, if_false]
  rw [laneFaults_none (ok := fun x => c.x.data x (szBytes (fSZ c.w))) ha]
  rfl

end

/-- Settles O10: the lanes' stores are the fold of the statement, and the report of CONSUMED touches the page ring's count alone. -/
theorem storeWritesTheLanesInOrder : Obligations.StoreWritesTheLanesInOrder := by
  unfold Obligations.StoreWritesTheLanesInOrder
  intro s g l c h hb hl hr ha
  obtain ⟨rfl, rfl, hx, -⟩ := State.ctx_spec h.ctx
  have hi := sts_exec h hb hl hr ha
  obtain ⟨f, q, p, e, ht⟩ := s.stsLanes_spec c
  rw [ht] at hi
  obtain ⟨k1, k2, k3, k4, k5, k6, k7⟩ := State.retire_noteConsumed (t := { s with
    files := f, squares := q, mem := { s.mem with
      store := (c.storeAddrs (c.runLanes (fDUi c.w))).foldl
        (fun m e => cellsWrite m (c.x.square * 2 ^ 20 + (c.x.base + e.2)) (leBytes (szBytes (fSZ c.w)) (c.storeData e.1))) s.mem.store
      storePoison := p, storeErrs := e } }) hx c.ls (wordsOf [regAM c.w false, regDM c.w])
    (c.storeAddrs (c.runLanes (fDUi c.w))) (szBytes (fSZ c.w))
  exact .of_eq hi ⟨by rw [k2], by rw [k2], k1, k6, k7, k3, k4, k5⟩

/-! ## Writes through the MMU -/

theorem entriesFollow_store (m : MemSt) (pa : Nat) (data : List Byte) : (entriesFollow m pa data).store = m.store := by
  refine foldl_keeps (P := fun n : MemSt => n.store = m.store) (fun n e hn => ?_) _ _ rfl
  dsimp only
  split
  · exact hn
  · split
    · exact hn
    · refine foldl_keeps (P := fun n : MemSt => n.store = m.store) (fun n li hn => ?_) _ _ hn
      refine foldl_keeps (P := fun n : MemSt => n.store = m.store) (fun n k hn => ?_) _ _ hn
      split <;> exact hn

/-- A state that differs in its memories, the square stores excepted. -/
def MemOnly (s t : State) : Prop := ∃ m, t = { s with mem := m } ∧ m.store = s.mem.store

theorem MemOnly.refl (s : State) : MemOnly s s := ⟨s.mem, rfl, rfl⟩

theorem MemOnly.trans {s t u : State} (h : MemOnly s t) (k : MemOnly t u) : MemOnly s u := by
  obtain ⟨m, rfl, hm⟩ := h
  obtain ⟨m', rfl, hm'⟩ := k
  exact ⟨m', rfl, hm'.trans hm⟩

theorem MemOnly.tierWrite (s : State) (fn tier a : Nat) (data : List Byte) : MemOnly s (s.tierWrite fn tier a data) := by
  cases tier with
  | zero => exact ⟨_, rfl, entriesFollow_store _ _ _⟩
  | succ t =>
    refine ⟨_, rfl, (entriesFollow_store _ _ _).trans ?_⟩
    split <;> rfl

/-- A write through the MMU changes no square store and nothing beside the memories. -/
theorem MemOnly.vaPut (fuel : Nat) (s : State) (fn va : Nat) (data : List Byte) : MemOnly s (s.vaPut fn va data fuel) := by
  induction fuel generalizing s va data with
  | zero => exact refl s
  | succ fuel ih =>
    unfold State.vaPut
    split
    · exact refl s
    · extract_lets k s'
      have h : MemOnly s s' := by
        simp only [s']
        split
        · exact tierWrite _ _ _ _ _
        · exact refl s
      exact h.trans (ih s' _ _)

theorem MemOnly.ctxFn {s t : State} (h : MemOnly s t) (c : Ctx) : t.ctxFn c = s.ctxFn c := by
  obtain ⟨m, rfl, -⟩ := h
  rfl

/-- A fold of memory writes under the function of a context, which they leave. -/
theorem foldl_vaPut_ctxFn (c : Ctx) (f : Nat → List Byte) (as : List (Nat × Nat)) (s : State) :
    as.foldl (fun s e => s.vaPut (s.ctxFn c) e.2 (f e.1) 2) s = as.foldl (fun t e => t.vaPut (s.ctxFn c) e.2 (f e.1) 2) s ∧
      MemOnly s (as.foldl (fun s e => s.vaPut (s.ctxFn c) e.2 (f e.1) 2) s) := by
  induction as generalizing s with
  | nil => exact ⟨by rw [List.foldl_nil, List.foldl_nil], MemOnly.refl s⟩
  | cons e t ih =>
    have h := MemOnly.vaPut 2 s (s.ctxFn c) e.2 (f e.1)
    obtain ⟨h1, h2⟩ := ih (s.vaPut (s.ctxFn c) e.2 (f e.1) 2)
    rw [h.ctxFn c] at h1
    exact ⟨h1, h.trans h2⟩

theorem stg_exec {s : State} {g l : Nat} {c : Ctx} (h : AtInsn s g l 0x143 c)
    (hb : badM c.w (regAM c.w true) (regDM c.w) false = false) (hl : LiteralOk s c [regAM c.w true, regDM c.w])
    (hr : c.firstBad [regAM c.w true, regDM c.w] = none)
    (ha : ∀ e ∈ c.globalAddrs (c.runLanes (fDUi c.w)), e.2 % szBytes (fSZ c.w) = 0 ∧
      s.vaFailW (s.ctxFn c) e.2 .write = none ∧ s.inTraining (s.ctxFn c) e.2 .write = false) :
    exec (.stg g l) s = .next (((c.globalAddrs (c.runLanes (fDUi c.w))).foldl
      (fun t e => t.vaPut (s.ctxFn c) e.2 (leBytes (szBytes (fSZ c.w)) (c.storeData e.1)) 2)
      ((c.globalAddrs (c.runLanes (fDUi c.w))).foldl
        (fun s e => s.vaTrace (s.ctxFn c) .thread e.2 (szBytes (fSZ c.w)) .write) s)).retire c c.ls
      (wordsOf [regAM c.w true, regDM c.w])) := by
  change execStg g l s = _
  rw [execStg, State.meet_at h rfl]
  simp only [hb, State.operands_clean hl hr, Bool.false_eq_true, if_false]
  rw [State.global_good ha]

/-- Settles O11: the traces leave the function and the group, and the writes leave everything but the memories. -/
theorem globalStoreWritesThroughTheMmu : Obligations.GlobalStoreWritesThroughTheMmu := by
  unfold Obligations.GlobalStoreWritesThroughTheMmu
  intro s g l c h hb hl hr ha
  obtain ⟨rfl, rfl, hx, -⟩ := State.ctx_spec h.ctx
  have hi := stg_exec h hb hl hr ha
  have ht := Traced.lanes s c (c.globalAddrs (c.runLanes (fDUi c.w))) (szBytes (fSZ c.w)) .write
  generalize (c.globalAddrs (c.runLanes (fDUi c.w))).foldl
    (fun s e => s.vaTrace (s.ctxFn c) .thread e.2 (szBytes (fSZ c.w)) .write) s = s1 at hi ht ⊢
  obtain ⟨hf, hm⟩ := foldl_vaPut_ctxFn c (fun i => leBytes (szBytes (fSZ c.w)) (c.storeData i))
    (c.globalAddrs (c.runLanes (fDUi c.w))) s1
  rw [ht.ctxFn c] at hf
  rw [← hf] at hi
  generalize (c.globalAddrs (c.runLanes (fDUi c.w))).foldl
    (fun s e => s.vaPut (s.ctxFn c) e.2 (leBytes (szBytes (fSZ c.w)) (c.storeData e.1)) 2) s1 = s2 at hi hm ⊢
  obtain ⟨⟨r, m, n, rfl⟩, -⟩ := ht
  obtain ⟨m', rfl, hs⟩ := hm
  obtain ⟨f, e⟩ := State.retire_at (s := { s with regs := r, mem := m', free := n }) hx c.ls (wordsOf [regAM c.w true, regDM c.w])
  have hk := (State.retire_at_spec (s := { s with regs := r, mem := m', free := n }) hx c.ls (wordsOf [regAM c.w true, regDM c.w])).1
  refine .of_eq hi ⟨hk, ?_⟩
  rw [e]
  exact ⟨rfl, hs, rfl, rfl, rfl⟩

end Sys2Proof.Machine
end

section
/-! # Atomics (O12, O13) -/

namespace Sys2Proof.Machine

/-! ## One atomic -/

/-- The little-endian bytes of a number spell its low bits. -/
theorem leNat_leBytes (k n : Nat) : leNat (leBytes k n) = n % 2 ^ (8 * k) := by
  induction k generalizing n with
  | zero => simp [leBytes, leNat, Nat.mod_one]
  | succ k ih =>
    rw [leBytes, leNat, ih, BitVec.toNat_ofNat, Nat.mul_succ, Nat.add_comm (8 * k) 8, pow_add, Nat.mod_mul]
    rfl

/-- A word read back from where it was written. -/
theorem leNat_cellsRead_write (m : List (Nat × Byte)) (a k v : Nat) :
    leNat (cellsRead (cellsWrite m a (leBytes k v)) a k) = v % 2 ^ (8 * k) := by
  have h := cellsRead_write m a (leBytes k v)
  rw [leBytes_length] at h
  rw [h, leNat_leBytes]

theorem leNat_cellsRead_lt (m : List (Nat × Byte)) (a k : Nat) : leNat (cellsRead m a k) < 2 ^ (8 * k) := by
  simpa using leNat_lt (cellsRead m a k)

theorem Ty.bytes_of_isInt {t : Ty} (h : t.isInt = true) : 8 * (t.width / 8) = t.width := by
  revert h
  cases t <;> decide

/-- What an integer atomic stores is of its type. -/
theorem atomFn_lt {t : Ty} (ht : t.isInt = true) (k : Nat) {old b : Nat} (ho : old < 2 ^ t.width) (hb : b < 2 ^ t.width) (c : Nat) :
    atomFn t k old b c < 2 ^ t.width := by
  have hne : t ≠ .fp32 := fun h => by subst h; cases ht
  unfold atomFn
  split
  · rw [if_neg hne]; exact Nat.mod_lt _ (Nat.two_pow_pos _)
  · split <;> assumption
  · split <;> assumption
  · exact Nat.and_lt_two_pow _ hb
  · exact Nat.or_lt_two_pow ho hb
  · exact Nat.xor_lt_two_pow ho hb
  · exact hb
  · split <;> assumption

section
variable {s : State} {g l k : Nat} {c : Ctx} {t : Ty}

theorem atomBad_false (h : atomBad c.w t false = false) : t.isInt = true ∧ (c.rD t.regs).badField = false := by
  simp only [atomBad, atomTy, Bool.or_eq_false_iff, Bool.false_and, Bool.or_false, Bool.not_eq_false'] at h
  exact ⟨h.1.1.1.1, h.1.2⟩

/-- The new word of an ATS in a lane. -/
def State.atsWord (s : State) (c : Ctx) (t : Ty) (k : Nat) : Nat :=
  atomFn t (fRM c.w) (leNat (cellsRead s.mem.store (c.x.square * 2 ^ 20 + (c.x.base + c.read k (c.rA 1))) (t.width / 8)))
    (c.read k (c.rB t.regs)) (if fRM c.w = 7 then c.read k (c.rC t.regs) else 0)

/-- The laneset of an ATS in which one lane executes. -/
def State.atsLaneset (s : State) (c : Ctx) (t : Ty) (k : Nat) : Laneset :=
  c.ls.write k (c.rD t.regs)
    (leNat (cellsRead s.mem.store (c.x.square * 2 ^ 20 + (c.x.base + c.read k (c.rA 1))) (t.width / 8)))

theorem ats_exec (h : AtInsn s g l 0x148 c) (ht : tyOf (fTY c.w) = some t) (hb : atomBad c.w t false = false)
    (hl : LiteralOk s c (atomSrcs c.w t false)) (hr : c.firstBad ((atomRegs c.w t false).1 :: atomSrcs c.w t false) = none)
    (hk : c.runLanes (fDU c.w) = [k]) (ha : c.read k (c.rA 1) % (t.width / 8) = 0)
    (hd : c.x.data (c.read k (c.rA 1)) (t.width / 8) = true)
    (hs : Sound s c.x.square (c.x.base + c.read k (c.rA 1)) (t.width / 8)) :
    ∃ f, exec (.ats g l) s = .next ((((({ s with files := f } : State).groupStore c.x (c.read k (c.rA 1)) (t.width / 8)
      (leBytes (t.width / 8) (s.atsWord c t k))).retire c (s.atsLaneset c t k) (wordsOf (atomSrcs c.w t false))).noteConsumed g
      [(k, c.read k (c.rA 1))] (t.width / 8))) := by
  obtain ⟨h1, h2⟩ := State.scanLanes_sound (s := s) (x := c.x) (as := [(k, c.read k (c.rA 1))]) (n := t.width / 8) (by simpa using hs)
  have h3 : laneFaults [(k, c.read k (c.rA 1))] (t.width / 8) (fun x => c.x.data x (t.width / 8)) = [] :=
    laneFaults_none (by simpa using ⟨ha, hd⟩)
  have hA : (atomRegs c.w t false).2.1 = c.rA 1 := rfl
  obtain ⟨f, hf⟩ := s.perfCount_files c.x.square 0x04 (bankRetries ([(k, c.read k (c.rA 1))].map fun e => (c.x.base + e.2) / 64))
  refine ⟨f, ?_⟩
  change execAts g l s = _
  rw [execAts, State.meet_at h rfl]
  simp only [ht, hb, State.operands_clean hl hr, hk, Bool.false_eq_true, if_false, List.map_cons, List.map_nil, hA, h1, h2, h3,
    State.raiseLanes, State.countBanks]
  simp only [List.map_cons, List.map_nil] at hf
  rw [hf]
  rfl

end

/-- Settles O12: with one lane the fold is one store of the new word and one write of the old. -/
theorem storeAtomicExchangesOneWord : Obligations.StoreAtomicExchangesOneWord := by
  unfold Obligations.StoreAtomicExchangesOneWord
  intro s g l c t k h ht hb hl hr hk ha hd hs
  obtain ⟨rfl, rfl, hx, -⟩ := State.ctx_spec h.ctx
  obtain ⟨hi, hf⟩ := atomBad_false hb
  obtain ⟨f, ex⟩ := ats_exec h ht hb hl hr hk ha hd hs
  obtain ⟨q, p, e, hst⟩ := ({ s with files := f } : State).groupStore_spec c.x (c.read k (c.rA 1)) (t.width / 8)
    (leBytes (t.width / 8) (s.atsWord c t k))
  rw [hst] at ex
  obtain ⟨k1, k2, -⟩ := State.retire_noteConsumed (t := { s with
    files := f, squares := q, mem := { s.mem with
      store := cellsWrite s.mem.store (c.x.square * 2 ^ 20 + (c.x.base + c.read k (c.rA 1)))
        (leBytes (t.width / 8) (s.atsWord c t k))
      storePoison := p, storeErrs := e } }) hx (s.atsLaneset c t k) (wordsOf (atomSrcs c.w t false)) [(k, c.read k (c.rA 1))]
    (t.width / 8)
  refine .of_eq ex ?_
  intro at0 old b new
  have ho : old < 2 ^ t.width := Ty.bytes_of_isInt hi ▸ leNat_cellsRead_lt s.mem.store at0 (t.width / 8)
  have hnew : s.atsWord c t k = new := by
    have h8 : fRM c.w < 8 := bits_lt c.w 13 11
    have hne : t ≠ .fp32 := fun h => by subst h; cases hi
    show atomFn t (fRM c.w) old b _ = new
    simp only [new]
    generalize fRM c.w = m at h8
    interval_cases m <;> simp [atomFn, hne]
  have hlt : s.atsWord c t k < 2 ^ t.width := atomFn_lt hi _ ho (Ctx.read_lt_width h.ctx hi _ _ _) _
  refine ⟨?_, fun a ha => ?_, by rw [k2], by rw [k2], by rw [k2], _, k1, fun hn j hj => ?_⟩
  · rw [k2]
    exact (leNat_cellsRead_write _ _ _ _).trans ((Nat.mod_eq_of_lt (by rwa [Ty.bytes_of_isInt hi])).trans hnew)
  · rw [k2]
    exact cellsWrite_frame _ _ _ _ (by rwa [leBytes_length])
  · obtain ⟨w1, -⟩ := writes_clean (d := c.rD t.regs) hr (by simp [atomRegs, Ctx.rD, Ty.regs]) (fun _ => old)
      ((nOf_cases t.wide).imp_right .inl) (fD_lt c.w) hf
    have hk' : c.runLanes (c.rD t.regs).u = [k] := hk
    rw [hk'] at w1
    exact w1 hn k (by simp) j hj

/-! ## Global atomics -/

/-- Global atomics of some lanes change no square store and nothing beside the memories. -/
theorem MemOnly.atgLanes (c : Ctx) (t : Ty) (fn : Nat) (as : List (Nat × Nat)) (s : State) (ls : Laneset) :
    MemOnly s (as.foldl (atgLane c t fn) (s, ls)).1 := by
  refine foldl_keeps (P := fun r : State × Laneset => MemOnly s r.1) (fun r e h => ?_) as (s, ls) (MemOnly.refl s)
  unfold atgLane
  extract_lets
  split
  · exact h
  · exact h.trans (MemOnly.vaPut _ _ _ _ _)

theorem MemOnly.group {s t : State} (h : MemOnly s t) (g : Nat) : t.group g = s.group g := by
  obtain ⟨m, rfl, -⟩ := h
  rfl

/-- The lanes of an ATG with their addresses. -/
def Ctx.atgs (c : Ctx) (t : Ty) : List (Nat × Nat) := (c.runLanes (fDU c.w)).map fun k => (k, c.read k (atomRegs c.w t true).2.1)

/-- The atomics of an ATG's lanes, after their traces in the MMU. -/
def State.atgRun (s : State) (c : Ctx) (t : Ty) : State × Laneset :=
  (c.atgs t).foldl (atgLane c t (s.ctxFn c))
    ((c.atgs t).foldl (fun s e => s.vaTrace (s.ctxFn c) .thread e.2 (t.width / 8) .atomic) s, c.ls)

theorem State.atgRun_group (s : State) (c : Ctx) (t : Ty) (g : Nat) : (s.atgRun c t).1.group g = s.group g := by
  rw [State.atgRun, (MemOnly.atgLanes c t _ _ _ _).group, (Traced.lanes s c _ _ _).group]

/-- Where every lane's word can be reached, ATG is the fold of its lanes' atomics. -/
theorem atg_exec {s : State} {g l : Nat} {c : Ctx} {t : Ty} (h : AtInsn s g l 0x149 c) (ht : tyOf (fTY c.w) = some t)
    (hb : atomBad c.w t true = false) (hl : LiteralOk s c (atomSrcs c.w t true))
    (hr : c.firstBad ((atomRegs c.w t true).1 :: atomSrcs c.w t true) = none)
    (ha : ∀ e ∈ c.atgs t, e.2 % (t.width / 8) = 0 ∧
      s.atgFail (s.ctxFn c) e.2 (t.width / 8) = none ∧ s.inTraining (s.ctxFn c) e.2 .atomic = false) :
    exec (.atg g l) s = .next ((s.atgRun c t).1.retire c (s.atgRun c t).2 (wordsOf (atomSrcs c.w t true))) := by
  change execAtg g l s = _
  rw [execAtg, State.meet_at h rfl]
  simp only [ht, hb, State.operands_clean hl hr, Bool.false_eq_true, if_false]
  rw [← Ctx.atgs, State.global_good ha]
  rfl

end Sys2Proof.Machine
end

section
/-! # Semaphores (O13, O14) -/

namespace Sys2Proof.Machine

/-! ## Access to semaphore words -/

/-- The state in which a semaphore instruction goes on: the MMU has met the lanes' addresses, where they are global. -/
def State.semState (s : State) (c : Ctx) (as : List (Nat × Nat)) (write : Bool) : State :=
  if bit c.w 3 then as.foldl (fun s e => s.vaTrace (s.ctxFn c) .thread e.2 4 (if write then .write else .read)) s else s

/-- One lane's access reads a global word as the translation leaves the MMU. -/
theorem State.semState_one (s : State) (c : Ctx) (k a : Nat) :
    s.semState c [(k, a)] false = if bit c.w 3 then s.vaTrace (s.ctxFn c) .thread a 4 .read else s := by
  unfold State.semState
  rw [List.foldl_cons, List.foldl_nil, if_neg Bool.false_ne_true]

theorem Traced.semState (s : State) (c : Ctx) (as : List (Nat × Nat)) (write : Bool) :
    Traced (s.ctxFn c) s (s.semState c as write) := by
  unfold State.semState
  split
  · exact .lanes s c as 4 _
  · exact .refl _ s

/-- An access that no lane fails, that meets no poison and that no channel delays goes on. -/
theorem State.semAccess_good {s : State} {c : Ctx} {as : List (Nat × Nat)} {write : Bool}
    (hf : ∀ e ∈ as, s.semFault c write e.2 = none) (hs : bit c.w 3 = false → ∀ e ∈ as, Sound s c.x.square (c.x.base + e.2) 4)
    (ht : bit c.w 3 = true → ∀ e ∈ as, s.inTraining (s.ctxFn c) e.2 (if write then .write else .read) = false) (k : State → State) :
    s.semAccess c as write k = k (s.semState c as write) := by
  have hb : (as.filterMap fun e => (s.semFault c write e.2).map fun f => (e.1, f)) = [] :=
    List.filterMap_eq_nil_iff.mpr fun e he => by simp [hf e he]
  unfold State.semAccess State.semState
  rw [hb]
  cases h3 : bit c.w 3 with
  | false =>
    obtain ⟨h1, h2⟩ := State.scanLanes_sound (hs h3)
    simp [h1, h2, State.raiseLanes]
  | true =>
    have hw : (as.any fun e => s.inTraining (s.ctxFn c) e.2 (if write then .write else .read)) = false :=
      List.any_eq_false.mpr fun e he => by simp [ht h3 e he]
    simp [hw, State.raiseLanes]

/-- A word of the store that a semaphore instruction may access faults in no lane. -/
theorem State.semFault_store {s : State} {c : Ctx} {write : Bool} {a : Nat} (h3 : bit c.w 3 = false) (ha : a % 4 = 0)
    (hd : (if write then c.x.data a 4 else c.x.holds a 4) = true) : s.semFault c write a = none := by
  simp [State.semFault, h3, ha, hd]

/-! ## SEMP -/

theorem sempBad_false {w : Nat} (h25 : bits w 25 14 = 0) (h2 : bits w 2 0 = 0) (hr : fRM w ≤ 3) (hA : (semRegs w).1.badField = false)
    (hB : (semRegs w).2.badField = false) (hm : NoMix (fDU w) [(semRegs w).1, (semRegs w).2]) : sempBad w = false := by
  simp [sempBad, h25, h2, Nat.not_lt.mpr hr, hA, hB, mixedDU_of_noMix hm]

/-- The lanes of a SEMP. -/
def Ctx.semps (c : Ctx) : List (Nat × Nat) := (c.runLanes (fDU c.w)).map fun k => (k, c.read k (semRegs c.w).1)

section
variable {s : State} {g l : Nat} {c : Ctx}

theorem semp_exec (h : AtInsn s g l 0x203 c) (hb : sempBad c.w = false) (hl : LiteralOk s c [(semRegs c.w).1, (semRegs c.w).2])
    (hr : c.firstBad [(semRegs c.w).1, (semRegs c.w).2] = none) (hf : ∀ e ∈ c.semps, s.semFault c true e.2 = none)
    (hs : bit c.w 3 = false → ∀ e ∈ c.semps, Sound s c.x.square (c.x.base + e.2) 4)
    (ht : bit c.w 3 = true → ∀ e ∈ c.semps, s.inTraining (s.ctxFn c) e.2 .write = false) :
    exec (.semp g l) s = .next
      (let t := (c.semps.foldl (sempLane c) (s.semState c c.semps true)).retire c c.ls (wordsOf [(semRegs c.w).1, (semRegs c.w).2])
       if bit c.w 3 then t else t.noteConsumed g c.semps 4) := by
  change execSemp g l s = _
  rw [execSemp, State.meet_at h rfl]
  simp only [hb, State.operands_clean hl hr, Bool.false_eq_true, if_false]
  rw [← Ctx.semps, State.semAccess_good hf hs ht]

/-- A SEMP of a lane on the square store. -/
theorem sempLane_store (h3 : bit c.w 3 = false) (s : State) (e : Nat × Nat) : sempLane c s e = s.groupStore c.x e.2 4
    (leBytes 4 (add32 (leNat (cellsRead s.mem.store (c.x.square * 2 ^ 20 + (c.x.base + e.2)) 4)) (c.read e.1 (semRegs c.w).2))) := by
  simp only [sempLane, State.semWord, h3, Bool.false_eq_true, if_false]
  rfl

/-- Stores of a group at the words of some lanes: the squares and the memories changed, and no byte outside those words. -/
def StoredAt (c : Ctx) (as : List (Nat × Nat)) (s t : State) : Prop :=
  (∃ q m, t = { s with squares := q, mem := m }) ∧
  ∀ a, (∀ e ∈ as, a < c.x.square * 2 ^ 20 + (c.x.base + e.2) ∨ c.x.square * 2 ^ 20 + (c.x.base + e.2) + 4 ≤ a) →
    assocGet 0 t.mem.store a = assocGet 0 s.mem.store a

theorem storedAt_semps (h3 : bit c.w 3 = false) (as : List (Nat × Nat)) (s : State) :
    StoredAt c as s (as.foldl (sempLane c) s) := by
  induction as generalizing s with
  | nil => exact ⟨⟨s.squares, s.mem, rfl⟩, fun _ _ => rfl⟩
  | cons e t ih =>
    obtain ⟨q, p, x, hx⟩ := s.groupStore_spec c.x e.2 4
      (leBytes 4 (add32 (leNat (cellsRead s.mem.store (c.x.square * 2 ^ 20 + (c.x.base + e.2)) 4)) (c.read e.1 (semRegs c.w).2)))
    rw [List.foldl_cons, sempLane_store h3, hx]
    obtain ⟨⟨q', m', e'⟩, hk⟩ := ih { s with squares := q, mem := { s.mem with
      store := cellsWrite s.mem.store (c.x.square * 2 ^ 20 + (c.x.base + e.2))
        (leBytes 4 (add32 (leNat (cellsRead s.mem.store (c.x.square * 2 ^ 20 + (c.x.base + e.2)) 4)) (c.read e.1 (semRegs c.w).2)))
      storePoison := p, storeErrs := x } }
    refine ⟨⟨q', m', e'⟩, fun a ha => (hk a fun e he => ha e (List.mem_cons_of_mem _ he)).trans ?_⟩
    exact cellsWrite_frame _ _ _ _ (by simpa using ha e List.mem_cons_self)

/-- With one executing lane the fold is one store of the sum. -/
theorem semps_one (h3 : bit c.w 3 = false) {k : Nat} (hk : c.runLanes (fDU c.w) = [k]) :
    (c.semps.foldl (sempLane c) s).mem.store = cellsWrite s.mem.store (c.x.square * 2 ^ 20 + (c.x.base + c.read k (semRegs c.w).1))
      (leBytes 4 (add32 (leNat (cellsRead s.mem.store (c.x.square * 2 ^ 20 + (c.x.base + c.read k (semRegs c.w).1)) 4))
        (c.read k (semRegs c.w).2))) := by
  rw [Ctx.semps, hk, List.map_cons, List.map_nil, List.foldl_cons, List.foldl_nil, sempLane_store h3]
  obtain ⟨q, p, x, hx⟩ := s.groupStore_spec c.x (c.read k (semRegs c.w).1) 4
    (leBytes 4 (add32 (leNat (cellsRead s.mem.store (c.x.square * 2 ^ 20 + (c.x.base + c.read k (semRegs c.w).1)) 4))
      (c.read k (semRegs c.w).2)))
  exact congrArg (fun u : State => u.mem.store) hx

/-- A SEMP on the square store goes on, and changes no byte outside its words. -/
theorem semp_store (h : AtInsn s g l 0x203 c) (hb : sempBad c.w = false) (hl : LiteralOk s c [(semRegs c.w).1, (semRegs c.w).2])
    (hr : c.firstBad [(semRegs c.w).1, (semRegs c.w).2] = none) (h3 : bit c.w 3 = false)
    (ha : ∀ e ∈ c.semps, e.2 % 4 = 0 ∧ c.x.data e.2 4 = true ∧ Sound s c.x.square (c.x.base + e.2) 4) :
    Answers (.semp g l) s fun t =>
      t.laneset g l = some (c.ls.goto (c.ls.pc + wordsOf [(semRegs c.w).1, (semRegs c.w).2])) ∧
      t.mem = (c.semps.foldl (sempLane c) s).mem ∧ RegsKept s t [(s.ctxFn c, 0x05, Fld.DSP_ATT_PAGES.off)] := by
  obtain ⟨rfl, rfl, hx, -⟩ := State.ctx_spec h.ctx
  have ex := semp_exec h hb hl hr (fun e he => State.semFault_store h3 (ha e he).1 (ha e he).2.1) (fun _ e he => (ha e he).2.2)
    (fun h => by simp [h3] at h)
  simp only [State.semState, h3, Bool.false_eq_true, if_false] at ex
  obtain ⟨⟨q, m, ht⟩, -⟩ := storedAt_semps h3 c.semps s
  rw [ht] at ex ⊢
  obtain ⟨k1, k2, -, -, -, k6, -⟩ := State.retire_noteConsumed (t := { s with squares := q, mem := m }) hx c.ls
    (wordsOf [(semRegs c.w).1, (semRegs c.w).2]) c.semps 4
  exact .of_eq ex ⟨k1, k2, k6⟩

/-- A SEMP through the MMU goes on, and changes no square store. -/
theorem semp_global (h : AtInsn s g l 0x203 c) (hb : sempBad c.w = false) (hl : LiteralOk s c [(semRegs c.w).1, (semRegs c.w).2])
    (hr : c.firstBad [(semRegs c.w).1, (semRegs c.w).2] = none) (h3 : bit c.w 3 = true)
    (ha : ∀ e ∈ c.semps, s.semFault c true e.2 = none ∧ s.inTraining (s.ctxFn c) e.2 .write = false) :
    Answers (.semp g l) s fun t =>
      t.laneset g l = some (c.ls.goto (c.ls.pc + wordsOf [(semRegs c.w).1, (semRegs c.w).2])) ∧
      t.mem.store = s.mem.store ∧ t.msix = s.msix := by
  obtain ⟨rfl, rfl, hx, -⟩ := State.ctx_spec h.ctx
  have ex := semp_exec h hb hl hr (fun e he => (ha e he).1) (fun h => by simp [h3] at h) (fun _ e he => (ha e he).2)
  simp only [h3, if_true] at ex
  obtain ⟨⟨r, m, n, ht⟩, -⟩ := Traced.semState s c c.semps true
  have hm : MemOnly (s.semState c c.semps true) (c.semps.foldl (sempLane c) (s.semState c c.semps true)) := by
    refine foldl_keeps (P := MemOnly (s.semState c c.semps true)) (fun t e ht => ?_) _ _ (MemOnly.refl _)
    simp only [sempLane, h3, if_true]
    exact ht.trans (MemOnly.vaPut _ _ _ _ _)
  obtain ⟨m', hu, hs⟩ := hm
  rw [hu, ht] at ex
  rw [ht] at hs
  obtain ⟨f, e⟩ := State.retire_at (s := { s with regs := r, mem := m', free := n }) hx c.ls
    (wordsOf [(semRegs c.w).1, (semRegs c.w).2])
  obtain ⟨k, -⟩ := State.retire_at_spec (s := { s with regs := r, mem := m', free := n }) hx c.ls
    (wordsOf [(semRegs c.w).1, (semRegs c.w).2])
  refine .of_eq ex ⟨k, ?_⟩
  change (State.retire { s with regs := r, mem := m', free := n } _ _ _).mem.store = _ ∧
    (State.retire { s with regs := r, mem := m', free := n } _ _ _).msix = _
  rw [e]
  exact ⟨hs, rfl⟩

end

/-- Settles O13: ATG and SEMP are the folds of their lanes' accesses, in a state that kept its group. -/
theorem globalAtomicAndSemaphorePostComplete : Obligations.GlobalAtomicAndSemaphorePostComplete := by
  unfold Obligations.GlobalAtomicAndSemaphorePostComplete
  refine ⟨fun s g l c t h ht hb hl hr ha => ?atg, ?_⟩
  case atg =>
    obtain ⟨rfl, rfl, hx, -⟩ := State.ctx_spec h.ctx
    have hg : (s.atgRun c t).1.group c.g = some c.x := (s.atgRun_group c t c.g).trans hx
    obtain ⟨f, e⟩ := State.retire_at hg (s.atgRun c t).2 (wordsOf (atomSrcs c.w t true))
    refine .of_eq (atg_exec h ht hb hl hr (by simpa [Ctx.atgs] using ha)) ⟨s.atgRun c t, rfl, ?_, (State.retire_at_spec hg _ _).1⟩
    rw [e]
    rfl
  intro s g l c h h25 h2 hrm hA hB hm hl hr goesOn
  have hb := sempBad_false h25 h2 hrm hA hB hm
  refine ⟨fun h3 ha => ?_, fun h3 ha => semp_global h hb hl hr h3 (by simpa [Ctx.semps] using ha)⟩
  obtain ⟨t, ex, k1, k2, k3⟩ := semp_store h hb hl hr h3 (by simpa [Ctx.semps] using ha)
  obtain ⟨-, hk⟩ := storedAt_semps h3 c.semps s
  refine ⟨fun k hone => ⟨t, ex, ?_, fun a hout => ?_, k1⟩, t, ex, k1, k3, fun a hout => ?_⟩
  · rw [k2, semps_one h3 hone, leNat_cellsRead_write]
    exact Nat.mod_mod _ _
  · rw [k2, semps_one h3 hone]
    exact cellsWrite_frame _ _ _ _ (by rwa [leBytes_length])
  · rw [k2]
    exact hk a (by simpa [Ctx.semps] using hout)

/-! ## SEMW -/

/-- The MMU's traces leave the clocks. -/
theorem Traced.fileCyc {fn : Nat} {s t : State} (h : Traced fn s t) (f : Nat) : t.fileCyc f = s.fileCyc f := by
  have hreg : t.getReg 0 (filePage f) Fld.FIL_CLK_MHZ.off = s.getReg 0 (filePage f) Fld.FIL_CLK_MHZ.off := by
    refine h.regs _ _ _ fun e he => ?_
    simp only [mmuRegs, List.mem_cons, List.not_mem_nil, or_false] at he
    rcases he with rfl | rfl | rfl | rfl <;>
      simp only [regKey, Fld.MMU_WALKS, Fld.MMU_MISS, Fld.MMU_FAULT_LO, Fld.MMU_FAULT_HI_VA, Fld.FIL_CLK_MHZ] <;> omega
  obtain ⟨⟨r, m, n, rfl⟩, -⟩ := h
  exact congrArg (fun v : Word => (s.file f).cyc + (s.ticks - (s.file f).cycAt) * bits v.toNat 11 0) hreg

/-- What SEMW leaves of its laneset as it ends: p[PD] is `b` in every lane, p7 excepted. -/
def Laneset.endWait (ls : Laneset) (p : Nat) (b : Bool) : Laneset := { ls.setAll p b with sem := none }

theorem Laneset.endWait_spec (ls : Laneset) {p : Nat} (hp : p < 8) (b : Bool) :
    (∀ i p', i < 32 → p' < 8 → (ls.endWait p b).pred i p' = if p' = p ∧ p' ≠ 7 then b else ls.pred i p') ∧
    (ls.endWait p b).sem = none ∧ { ls.endWait p b with preds := ls.preds, sem := ls.sem } = ls := by
  obtain ⟨h1, h2⟩ := ls.setAll_spec hp b
  exact ⟨h1, rfl, congrArg (fun x : Laneset => { x with sem := ls.sem }) h2⟩

section
variable {s : State} {g l : Nat} {c : Ctx}

theorem semw_exec {k : Nat} {rest : List Nat} (h : AtInsn s g l 0x202 c) (hb : semwBad c.w = false)
    (hl : LiteralOk s c [(semRegs c.w).1, (semRegs c.w).2]) (hr : c.firstBad [(semRegs c.w).1, (semRegs c.w).2] = none)
    (hk : c.lanes = k :: rest) (hf : s.semFault c false (c.read k (semRegs c.w).1) = none)
    (hs : bit c.w 3 = false → Sound s c.x.square (c.x.base + c.read k (semRegs c.w).1) 4)
    (ht : bit c.w 3 = true → s.inTraining (s.ctxFn c) (c.read k (semRegs c.w).1) .read = false) :
    exec (.semw g l) s = .next
      (let s1 := s.semState c [(k, c.read k (semRegs c.w).1)] false
       if sub32 (s1.semWord c (c.read k (semRegs c.w).1)) (c.read k (semRegs c.w).2) < 2 ^ 31 then
         s1.retire c (c.ls.endWait (fPD c.w) true) (wordsOf [(semRegs c.w).1, (semRegs c.w).2])
       else s1.setLaneset g l { c.ls with sem := some (c.ls.sem.getD (s1.fileCyc (sqFile c.x.square))) }) := by
  change execSemw g l s = _
  rw [execSemw, State.meet_at h rfl]
  simp only [hb, State.operands_clean hl hr, hk, Bool.false_eq_true, if_false]
  rw [State.semAccess_good (by simpa using hf) (by simpa using hs) (by simpa using ht)]
  rfl

theorem semwTimeout_exec {since : Nat} (h : AtInsn s g l 0x202 c) (hs : c.ls.sem = some since)
    (ht : bits c.w 25 14 * 8 * 250 ≤ s.fileCyc (sqFile c.x.square) - since) :
    exec (.semwTimeout g l) s =
      .next (s.retire c (c.ls.endWait (fPD c.w) false) (wordsOf [(semRegs c.w).1, (semRegs c.w).2])) := by
  change execSemwTimeout g l s = _
  rw [execSemwTimeout, State.meet_at h rfl]
  simp only [hs, if_neg (Nat.not_lt.mpr ht)]
  rfl

/-- The word of a SEMW has reached B. -/
theorem semw_met {k : Nat} {rest : List Nat} {s1 : State} (h : AtInsn s g l 0x202 c) (hb : semwBad c.w = false)
    (hl : LiteralOk s c [(semRegs c.w).1, (semRegs c.w).2]) (hr : c.firstBad [(semRegs c.w).1, (semRegs c.w).2] = none)
    (hk : c.lanes = k :: rest) (hf : s.semFault c false (c.read k (semRegs c.w).1) = none)
    (hs : bit c.w 3 = false → Sound s c.x.square (c.x.base + c.read k (semRegs c.w).1) 4)
    (ht : bit c.w 3 = true → s.inTraining (s.ctxFn c) (c.read k (semRegs c.w).1) .read = false)
    (h1 : s.semState c [(k, c.read k (semRegs c.w).1)] false = s1)
    (hlt : sub32 (s1.semWord c (c.read k (semRegs c.w).1)) (c.read k (semRegs c.w).2) < 2 ^ 31) :
    Answers (.semw g l) s fun t => ∃ ls : Laneset,
      t.laneset g l = some (ls.goto (c.ls.pc + wordsOf [(semRegs c.w).1, (semRegs c.w).2])) ∧
      (∀ i p, i < 32 → p < 8 → ls.pred i p = if p = fPD c.w then true else c.ls.pred i p) ∧
      ls.sem = none ∧ { ls with preds := c.ls.preds, sem := c.ls.sem } = c.ls ∧
      { t with groups := s1.groups, files := s1.files } = s1 := by
  obtain ⟨rfl, rfl, hx, -⟩ := State.ctx_spec h.ctx
  have ex := semw_exec h hb hl hr hk hf hs ht
  have htr : Traced (s.ctxFn c) s s1 := h1 ▸ Traced.semState s c _ false
  simp only [h1, if_pos hlt] at ex
  obtain ⟨k1, k2⟩ := State.retire_at_spec ((htr.group _).trans hx) (c.ls.endWait (fPD c.w) true)
    (wordsOf [(semRegs c.w).1, (semRegs c.w).2])
  obtain ⟨p1, p2, p3⟩ := c.ls.endWait_spec (fPD_lt c.w) true
  refine .of_eq ex ⟨_, k1, fun i p hi hp => (p1 i p hi hp).trans ?_, p2, p3, k2⟩
  by_cases h7 : p = 7
  · subst h7
    simp
  · simp only [h7, ne_eq, not_false_eq_true, and_true]

/-- The word of a SEMW has not reached B. -/
theorem semw_waits {k : Nat} {rest : List Nat} {s1 : State} (h : AtInsn s g l 0x202 c) (hb : semwBad c.w = false)
    (hl : LiteralOk s c [(semRegs c.w).1, (semRegs c.w).2]) (hr : c.firstBad [(semRegs c.w).1, (semRegs c.w).2] = none)
    (hk : c.lanes = k :: rest) (hf : s.semFault c false (c.read k (semRegs c.w).1) = none)
    (hs : bit c.w 3 = false → Sound s c.x.square (c.x.base + c.read k (semRegs c.w).1) 4)
    (ht : bit c.w 3 = true → s.inTraining (s.ctxFn c) (c.read k (semRegs c.w).1) .read = false)
    (h1 : s.semState c [(k, c.read k (semRegs c.w).1)] false = s1)
    (hge : ¬sub32 (s1.semWord c (c.read k (semRegs c.w).1)) (c.read k (semRegs c.w).2) < 2 ^ 31) :
    Answers (.semw g l) s fun t =>
      t.laneset g l = some { c.ls with sem := some (c.ls.sem.getD (s.fileCyc (sqFile c.x.square))) } ∧
      { t with groups := s1.groups } = s1 := by
  obtain ⟨rfl, rfl, hx, -⟩ := State.ctx_spec h.ctx
  have ex := semw_exec h hb hl hr hk hf hs ht
  have htr : Traced (s.ctxFn c) s s1 := h1 ▸ Traced.semState s c _ false
  have hx1 : s1.group c.g = some c.x := (htr.group _).trans hx
  simp only [h1, if_neg hge, htr.fileCyc] at ex
  refine .of_eq ex ⟨State.laneset_setLaneset _ _ _ _ c.x hx1, ?_⟩
  rw [State.setLaneset, hx1]
  rfl

end

/-- Settles O14: SEMW compares once its word is accessible; the timeout needs no access. -/
theorem semaphoreWaitEndsByValueOrTime : Obligations.SemaphoreWaitEndsByValueOrTime := by
  unfold Obligations.SemaphoreWaitEndsByValueOrTime
  refine ⟨?_, fun s g l c since h hsem ht => ?_⟩
  · intro s g l c k rest h hb hl hr hk a hf hs ht s1
    have h1 : s.semState c [(k, a)] false = s1 := s.semState_one c k a
    exact ⟨fun hlt => semw_met h hb hl hr hk hf hs ht h1 hlt,
      fun hge => semw_waits h hb hl hr hk hf hs ht h1 (Nat.not_lt.mpr hge)⟩
  · obtain ⟨k1, k2⟩ := State.retire_spec h.ctx (c.ls.endWait (fPD c.w) false) (wordsOf [(semRegs c.w).1, (semRegs c.w).2])
    obtain ⟨p1, p2, p3⟩ := c.ls.endWait_spec (fPD_lt c.w) false
    exact .of_eq (semwTimeout_exec h hsem ht) ⟨_, k1, p1, p2, p3, k2⟩

end Sys2Proof.Machine
end
